-- ==== Sys2Proof/Word.lean ====
section
/-!
DEFINITION. The word types of the KU-4200 model, byte strings with their little-endian readings (R4), and the one
sparse map the whole state is built from.
-/

namespace Sys2Proof

/-- One byte. -/
abbrev Byte := BitVec 8
/-- A 32-bit register or DATA word (R4: every register is 32 bits wide). -/
abbrev W32 := BitVec 32
/-- A 64-bit value: a hart register, a sideband word, a tag. -/
abbrev D64 := BitVec 64
/-- A byte string in address order. -/
abbrev Bytes := List Byte
/-- A 16-bit outcome code (R13). -/
abbrev Code := BitVec 16

/-- A sparse table: keys strictly rising. What an unlisted key reads as is said where the table is used. -/
abbrev SMap (α : Type) := List (Nat × α)

namespace SMap

/-- The entry of key `k`, if it is listed. -/
def find {α : Type} (k : Nat) : SMap α → Option α
  | [] => none
  | (j, v) :: m => if j = k then some v else find k m

/-- `m` with key `k` listed as `v`. -/
def put {α : Type} (k : Nat) (v : α) : SMap α → SMap α
  | [] => [(k, v)]
  | (j, w) :: m => if k < j then (k, v) :: (j, w) :: m else if j = k then (k, v) :: m else (j, w) :: put k v m

/-- `m` without key `k`. -/
def del {α : Type} (k : Nat) : SMap α → SMap α
  | [] => []
  | (j, w) :: m => if j = k then del k m else (j, w) :: del k m

/-- The entry of key `k`, `d` when it is not listed. -/
def get {α : Type} (d : α) (k : Nat) (m : SMap α) : α := (find k m).getD d

/-- Write `v` at key `k` where unlisted keys read as `d`: the default value is never listed. -/
def set {α : Type} [DecidableEq α] (d : α) (k : Nat) (v : α) (m : SMap α) : SMap α :=
  if v = d then del k m else put k v m

/-- Keys strictly rising, all of them above `lo` when it is given. -/
def sortedFrom {α : Type} : Option Nat → SMap α → Bool
  | _, [] => true
  | none, (j, _) :: m => sortedFrom (some j) m
  | some b, (j, _) :: m => decide (b < j) && sortedFrom (some j) m

/-- The canonical order of a sparse table. -/
def sorted {α : Type} (m : SMap α) : Bool := sortedFrom none m

/-- No entry equals what an unlisted key reads as. -/
def noDefault {α : Type} [DecidableEq α] (d : α) (m : SMap α) : Bool := m.all (fun p => decide (p.2 ≠ d))

end SMap

namespace Bytes

/-- `n` bytes of `b` from offset `o`; bytes past the end read 0. -/
def slice (b : Bytes) (o n : Nat) : Bytes := (List.range n).map (fun i => b.getD (o + i) 0)

/-- The little-endian number the bytes spell (R4). -/
def toNatLE : Bytes → Nat
  | [] => 0
  | x :: xs => x.toNat + 256 * toNatLE xs

/-- The big-endian number the bytes spell (fields of external standards). -/
def toNatBE (b : Bytes) : Nat := b.foldl (fun a x => a * 256 + x.toNat) 0

/-- `n` bytes of `v`, little-endian. -/
def ofNatLE : Nat → Nat → Bytes
  | 0, _ => []
  | n + 1, v => BitVec.ofNat 8 v :: ofNatLE n (v / 256)

/-- `n` bytes of `v`, big-endian. -/
def ofNatBE (n v : Nat) : Bytes := (ofNatLE n v).reverse

/-- The little-endian field of `n` bytes at offset `o`. -/
def le (b : Bytes) (o n : Nat) : Nat := toNatLE (slice b o n)

/-- The big-endian field of `n` bytes at offset `o`. -/
def be (b : Bytes) (o n : Nat) : Nat := toNatBE (slice b o n)

/-- `b` with the bytes `v` written from offset `o`, zero-extended if needed. -/
def splice (b : Bytes) (o : Nat) (v : Bytes) : Bytes :=
  let b' := b ++ List.replicate (o + v.length - b.length) 0
  b'.take o ++ v ++ b'.drop (o + v.length)

/-- `n` zero bytes. -/
def zeros (n : Nat) : Bytes := List.replicate n 0

/-- The bytes of an ASCII string. -/
def ascii (s : String) : Bytes := s.toList.map (fun c => BitVec.ofNat 8 c.toNat)

end Bytes

/-- Division rounded up. -/
def cdiv (a b : Nat) : Nat := (a + b - 1) / b

/-- `n` counted up by one, held at `top`. -/
def satAdd (n k top : Nat) : Nat := min (n + k) top

/-- The bit field [hi:lo] of a number. -/
def bits (v hi lo : Nat) : Nat := (v >>> lo) % 2 ^ (hi + 1 - lo)

/-- `v` with bit field [hi:lo] replaced by `x`. -/
def setBits (v hi lo x : Nat) : Nat :=
  v - (bits v hi lo <<< lo) + ((x % 2 ^ (hi + 1 - lo)) <<< lo)

/-- Bit `i` of a number. -/
def bit (v i : Nat) : Bool := v.testBit i

/-- 1 for true, 0 for false. -/
def b2n (b : Bool) : Nat := if b then 1 else 0

end Sys2Proof
end

