-- ==== Sys2Proof/Machine/Types.lean ====
section
/-!
DEFINITION. The identifiers and the operand records that commands carry: what a frame, a message, a request or a
protection set-up change block holds when it reaches the device. Plain data throughout.
-/

namespace Sys2Proof

abbrev LaneId := Fin 16
abbrev HartId := Fin 256
abbrev ThreadId := Fin 8
abbrev XReg := Fin 32
abbrev EngId := Fin 4
abbrev Handle := Fin 4096
abbrev RingId := Fin 17
abbrev SessId := Fin 65536
abbrev SliceId := Fin 128
abbrev ChanId := Fin 16
abbrev MbxId := Fin 64
abbrev LockId := Fin 128
abbrev HdmaId := Fin 64
abbrev ArkId := Fin 4
abbrev PortId := Fin 16
abbrev SlotId := Fin 16384
/-- A 9-bit agent ID (R16). -/
abbrev Agent := Fin 512
/-- An agent of Table KU-5: 276 to 508 are reserved and never appear (R16). -/
def Agent.named (a : Agent) : Bool := decide (a.val ≤ 275)
/-- An agent ID a command can carry: one of Table KU-5, or a marker where no agent applies (R16). -/
def Agent.ok (a : Agent) : Bool := a.named || decide (509 ≤ a.val)

/-- The units that queue reserve work on a lane (R131). -/
inductive ReserveUnit where
  | net | jrn | str
  deriving DecidableEq, Repr

/-- One reserve request (R59): its unit, code, key, input, and what the unit needs to know it again by. -/
structure ReserveReq where
  unit : ReserveUnit
  opc : Nat
  key : Nat
  input : Bytes
  aux : Bytes
  ref : Nat
  deriving DecidableEq, Repr

/-- What hardware does to a register in the cycle in which software writes it (R8, R10): the W1C bits it sets, and the RW
bits it updates with their new values. -/
structure HwUpdate where
  sets : W32
  mask : W32
  val : W32
  deriving DecidableEq, Repr

/-- A mirror-link frame as it arrives: its bytes from the header of Table TWN-1 to the CRC that ends it (R182). -/
structure LinkFrame where
  bytes : Bytes
  deriving DecidableEq, Repr

/-- What is known of the peer's copy of one ring when the pair forms (R171). -/
structure PeerRing where
  /-- its committed records, by sequence number, from the oldest it still holds -/
  committed : List (Nat × Bytes)
  /-- the unconfirmed records it holds -/
  held : List (Nat × Bytes)
  /-- the next sequence number of its copy (R159), and D of its last seal (R174) -/
  next : Nat
  prevD : Bytes
  /-- the copies of the ring that the witness holds: those the peer sent and those this device sent (R194) -/
  copies : List (Nat × Bytes)
  mine : List (Nat × Bytes)
  deriving DecidableEq, Repr

/-- A pairing manifest (Table TWN-3), with the verdicts on its certificate chain and signature. -/
structure Manifest where
  certOk : Bool
  sigOk : Bool
  digest : Bytes
  version : Nat
  device : Nat
  domain : Nat
  fw : Nat
  fwMin : Nat
  config : Nat
  home : Nat
  homeCfg : Nat
  beat : Nat
  phase : Nat
  keyEpoch : Nat
  witness : List Nat
  prot : Bytes
  laneDigests : List Bytes
  nonce : Bytes
  pairedElsewhere : Bool
  inService : Nat
  deriving DecidableEq, Repr

/-- The payload of a SNAP frame (R180): a session entry, or one lane's shelf state. -/
inductive SnapBody where
  | session (id : Nat) (entry : Bytes)
  | shelf (lane : Nat) (regs : List (Nat × W32)) (gens : List Nat)
  deriving DecidableEq, Repr

/-- The header of a Rhax message (Table TWN-4) with the receiver's verdict on its tag. -/
structure RhaxHdr where
  src : Nat
  domain : Nat
  config : Nat
  keyEpoch : Nat
  mseq : Nat
  tagOk : Bool
  deriving DecidableEq, Repr

/-- What an Ethernet frame carries, as far as NET acts on it (R205, R206). -/
inductive FrameKind where
  | arpRequest (addr : Nat)
  | neighbourSolicit (addr : Nat)
  | echo (addr : Nat)
  /-- 802.3x PAUSE: quanta of 512 bit times -/
  | pause (quanta : Nat)
  | urgentOrData (session : Nat) (payload : Bytes)
  | windowUpdate (session : Nat) (window : Nat)
  | ipOptions
  | fragment
  | fragNeeded (addr mtu : Nat)
  | other
  deriving DecidableEq, Repr

/-- A received Ethernet frame. -/
structure EthFrame where
  fcsOk : Bool
  fecOk : Bool
  len : Nat
  tags : Nat
  kind : FrameKind
  deriving DecidableEq, Repr

/-- What NET knows of a connection when TCP is established (R216, R223). -/
structure ConnInfo where
  remote : Bytes
  rport : Nat
  port : Nat
  ipv6 : Bool
  halfOpen : Nat
  ticket : Option (Nat × Bytes × Bool)
  deriving DecidableEq, Repr

/-- A signature to verify: Burin operation code, the bytes signed, and the signature followed by the public key. A certificate
carries it with the certificate's SHA-256 digest. -/
structure SigIn where
  opc : Nat
  input : Bytes
  aux : Bytes
  deriving DecidableEq, Repr
/-- A session ticket as NET reads it (R213): whether it opens under the ticket key it names, that key's generation, its age in
seconds, the MUTUAL flag and the peer digest that it binds. -/
structure TicketIn where
  opens : Bool
  gen : Nat
  age : Nat
  clientCert : Bool
  peer : Bytes
  deriving DecidableEq, Repr

/-- What NET reads of the first handshake messages of its peer (Table NET-5). -/
structure ClientHello where
  tls13 : Bool
  suite : Nat
  group : Nat
  sigOk : Bool
  earlyData : Bool
  /-- the ticket offered for resumption -/
  ticket : Option TicketIn
  /-- the bytes that CertificateVerify signs, the peer's CertificateVerify, and its certificates, leaf first -/
  transcript : Bytes
  peerCv : Option SigIn
  chain : List (Bytes × SigIn)
  deriving DecidableEq, Repr

/-- The checks of R212 that rest on the contents of the peer's certificates. -/
structure HsResult where
  certBytes : Nat
  anchorOk : Bool
  validityOk : Bool
  usageOk : Bool
  criticalOk : Bool
  denied : Bool
  nameOk : Bool
  deriving DecidableEq, Repr

/-- A PTP event message as NET timestamps it (R224, R225). -/
structure PtpMsg where
  isSync : Bool
  offset : Int
  gm : D64
  domain : Nat
  deriving DecidableEq, Repr

/-- The kinds of hart access. -/
inductive AccKind where
  | fetch | load | store | amo | lr | sc
  deriving DecidableEq, Repr

/-- AMO operations of the A extension. -/
inductive AmoOp where
  | swap | add | xor | and | or | min | max | minu | maxu
  deriving DecidableEq, Repr

/-- What an access finds of a word of an on-chip store (Table KU-49): nothing wrong, a single-bit error, or one that the store
cannot correct. -/
inductive StoreErr where
  | none | single | multi
  deriving DecidableEq, Repr

/-- The same of one slot of a ring store, with the bytes as read where they cannot be corrected. -/
inductive SlotErr where
  | none
  | single (slot : Nat)
  | multi (slot : Nat) (read : Bytes)
  deriving DecidableEq, Repr

/-- One hart access: rd receives a load's value, rs2 gives a store's; `fp` and `vector` name floating-point and vector
registers in their place. -/
structure MemAccess where
  kind : AccKind
  size : Nat
  signed : Bool
  rd : XReg
  rs1 : XReg
  rs2 : XReg
  imm : Int
  op : AmoOp
  vector : Bool
  fp : Bool
  wrongPath : Bool
  dataError : Bool
  /-- what the cache or the tile memory that holds the data reports (Table KU-49) -/
  store : StoreErr := .none
  deriving DecidableEq, Repr

/-- What the debug module is asked for (R254). -/
inductive DebugCmd where
  | halt (h : HartId)
  | resume (h : HartId)
  | hartReset (h : HartId)
  | readReg (h : HartId) (regno : Nat)
  | writeReg (h : HartId) (regno : Nat) (v : D64)
  | sysbusRead (addr size : Nat)
  | sysbusWrite (addr size : Nat) (v : D64)
  /-- dmstatus is read -/
  | status
  /-- halt and resume requests over the hart array mask -/
  | haltMask (hs : List HartId)
  | resumeMask (hs : List HartId)
  /-- a hart joins a halt group or a resume group; 0: none -/
  | group (h : HartId) (g : Fin 17) (resume : Bool)
  /-- Access Memory, at a virtual or a physical address -/
  | readMem (h : HartId) (addr size : Nat) (virt : Bool)
  | writeMem (h : HartId) (addr size : Nat) (virt : Bool) (v : D64)
  /-- a word of the program buffer, and its execution on a halted hart -/
  | progbuf (i : Fin 16) (w : W32)
  | runBuffer (h : HartId)
  deriving DecidableEq, Repr

/-- The request kinds a home slice serves (Table KU-43). -/
inductive L3Kind where
  | readHart | ownHart | prefetch | writebackL2 | evictClean | fullWrite | partialWrite | readDev | zero
  deriving DecidableEq, Repr

/-- A request at a home slice: the requester's agent ID, 0x1FF for an IOD unit without one. -/
structure L3Req where
  agent : Agent
  kind : L3Kind
  line : Nat
  off : Nat
  data : Bytes
  poisoned : Bool
  sealedWrongPath : Bool
  lineError : Bool
  /-- a single-bit error of the slice's copy, and what the snoop-filter set reports (Table KU-49) -/
  single : Bool := false
  filter : StoreErr := .none
  deriving DecidableEq, Repr

/-- What a read of a line meets in its cells (R297): the bits of its 40 stored symbols that differ from what was written, missing
symbols unchanged, and the other line whose cells answer in its place. -/
structure DramErr where
  flips : List Nat
  cells : Option Nat
  deriving DecidableEq, Repr

/-- Why a periodic training pass starts (R289). -/
inductive PassCause where
  | interval | drift | request | afterChange
  deriving DecidableEq, Repr

/-- One lane's four rights for one agent, and its mailbox groups (R371). -/
structure FirewallEntry where
  agent : Nat
  read : Nat
  tileWrite : Nat
  shelf : Nat
  control : Nat
  mbx : Nat
  deriving DecidableEq, Repr

/-- The block of a LANE_FIREWALL change: the entries it replaces. -/
abbrev FirewallChange := List FirewallEntry

/-- One PCIe access window (R372). -/
structure PcieWindow where
  port : Nat
  ridLo : Nat
  ridHi : Nat
  base : Nat
  limit : Nat
  r : Bool
  w : Bool
  deriving DecidableEq, Repr

/-- A usage policy (Table STR-5). -/
structure Policy where
  lanes : Nat
  units : Nat
  flags : Nat
  derived : List Nat
  limit : Nat
  warn : Nat
  validFrom : Nat
  validUntil : Nat
  deriving DecidableEq, Repr

/-- The block of a KEY_POLICY change: entries, slot re-policies, inline indices. -/
structure PolicyChange where
  entries : List (Nat × Policy)
  repolicy : List (Nat × Nat)
  inline : List (Nat × Nat)
  deriving DecidableEq, Repr

/-- The block of a KEY_GEN change. -/
structure KeyGenChange where
  slot : SlotId
  cls : Nat
  policy : Nat
  replace : Bool
  opc : Nat
  deriving DecidableEq, Repr

/-- The block of a KEY_IMPORT change: the wrapped key, its wrapping slot, its carried KCV. -/
structure KeyImportChange where
  slot : SlotId
  cls : Nat
  policy : Nat
  replace : Bool
  wrapSlot : Nat
  blockClassOk : Bool
  wrapped : Bytes
  kcv : Bytes
  deriving DecidableEq, Repr

/-- The block of a KEY_COMPONENT change: two sealed components and their KCVs. -/
structure KeyComponentChange where
  slot : SlotId
  cls : Nat
  policy : Nat
  replace : Bool
  compA : Bytes
  compB : Bytes
  kcv : Bytes
  custodians : List Nat
  deriving DecidableEq, Repr

/-- The block of a KEY_EXPORT change. -/
structure KeyExportChange where
  slot : SlotId
  wrapSlot : Nat
  buffer : Nat
  deriving DecidableEq, Repr

/-- The block of a ROOT_ROTATE change: the wrapped root and fabric key of the next generation. -/
structure RootChange where
  root : Bytes
  fabric : Bytes
  deriving DecidableEq, Repr

/-- The DOMAIN item (Table STR-7, kind 0x11). -/
structure DomainCfg where
  device : Nat
  domain : Nat
  membershipRoot : Bytes
  config : Nat
  configMin : Nat
  configMax : Nat
  leaseLen : Nat
  rhaxPort : Nat
  witness : List Nat
  homeCfg : Nat
  pairEn : Bool
  takeoverEn : Bool
  ticketKey : Bytes
  ticketLife : Nat
  ptpDomain : Nat
  ptpPrimary : Nat
  ptpBackup : Nat
  portModes : List Nat
  /-- logical ports whose configuration honours PAUSE (R205) -/
  pauseMask : Nat
  fwMin : Nat
  /-- the witness area in DRAM (R194): its first byte and its size, 0 for the default of 1 GiB -/
  witnessBase : Nat
  witnessArea : Nat
  deriving DecidableEq, Repr

/-- The block of a DOMAIN change. -/
abbrev DomainChange := DomainCfg

/-- A local address (R206). -/
structure LocalAddr where
  ip : Bytes
  prefixLen : Nat
  port : Nat
  vlan : Option Nat
  mtu : Nat
  gateway : Bytes
  fabric : Bool
  homeSet : Nat
  deriving DecidableEq, Repr

/-- A listener entry (Table NET-2), with the peer name and remote endpoint of the client role. -/
structure Listener where
  addr : Nat
  flags : Nat
  framing : Nat
  policy : Nat
  lport : Nat
  lanes : Nat
  cred : Nat
  trust : Nat
  rcvbuf : Nat
  sndbuf : Nat
  handshake : Nat
  msg : Nat
  idle : Nat
  stall : Nat
  linger : Nat
  rtoMin : Nat
  maxSess : Nat
  deriving DecidableEq, Repr

/-- The NET_TABLES item. -/
structure NetTables where
  addrs : List (Nat × LocalAddr)
  listeners : List (Nat × Listener)
  trust : List (Nat × Bytes)
  deriving DecidableEq, Repr

/-- The JOURNAL item. -/
structure JournalChange where
  proofKey : Nat
  proofAlg : Nat
  proofEn : Bool
  deriving DecidableEq, Repr

/-- The DEBUG_UNLOCK item (R373). -/
structure UnlockChange where
  harts : List HartId
  sysbus : Bool
  expiry : Nat
  deriving DecidableEq, Repr

/-- Officer roles (R363). -/
inductive Role where
  | security | operations | audit | service
  deriving DecidableEq, Repr

/-- A roster entry (R363). -/
structure Officer where
  slot : Nat
  role : Role
  alg : Nat
  pub : Bytes
  deriving DecidableEq, Repr

/-- One dual-controlled change (Table STR-7), with what its validation found: unwrapped or combined key material. -/
inductive Item where
  | firewall (c : FirewallChange)
  | windows (c : List PcieWindow)
  | policy (c : PolicyChange)
  | keyGen (c : KeyGenChange)
  | keyImport (c : KeyImportChange) (mat : Bytes)
  | keyComponent (c : KeyComponentChange) (mat : Bytes)
  | keyDestroy (slot : Nat)
  | keyExport (c : KeyExportChange)
  | root (c : RootChange)
  | domain (c : DomainCfg)
  | nets (c : NetTables)
  | journal (c : JournalChange)
  | unlock (c : UnlockChange)
  | officers (c : List Officer)
  | adminSet (c : List Nat)
  | zeroize
  | laneLoad (mask : Nat) (staged admitOn : Bool) (img : Bytes)
  | stencil (mask id : Nat) (bin : Bytes)
  | laneRelease (mask : Nat) (keep : Bool)
  | fw (bundle : Bytes) (activate : Bool)
  deriving DecidableEq, Repr

/-- The command a DUAL change came in: its code and arguments, the digest of its buffer, and its ticket's nonce (R364). -/
structure ChangeSrc where
  cmd : Nat
  args : List Nat
  buf : Option Bytes
  nonce : Nat
  deriving DecidableEq, Repr

/-- Messages of the Cellarer channel (Table TWN-2, FTYPE 0x06). -/
inductive CtlMsg where
  | nonce (n : Bytes)
  | pairFault (code : Code)
  /-- the change, its ticket and originating device, the command it came in, its two approval tokens and the named epoch -/
  | prepare (ticket device : Nat) (item : Item) (src : ChangeSrc) (tokens : List Bytes) (epoch : Nat)
  | prepared (ticket device : Nat) (ok : Bool)
  | commit (ticket device : Nat)
  | commitAck (ticket device : Nat)
  | witnessPropose (idx : Nat)
  | witnessAck (idx : Nat)
  | takeover (lanes : Nat) (epoch : Nat)
  deriving DecidableEq, Repr

/-- What the units answer to PREPARE beyond the checks the model makes itself (R368), and the peer when paired. -/
structure PhaseOne where
  peerOk : Bool
  deriving DecidableEq, Repr

/-- A memory request of a PCIe requester on a root port. -/
structure PcieReq where
  rid : Nat
  /-- address type: 0 untranslated, 1 Translation Request, 2 translated -/
  aty : Nat
  write : Bool
  addr : Nat
  size : Nat
  data : Bytes
  ep : Bool
  dataError : Bool
  deriving DecidableEq, Repr

/-- A read or write of `size` bytes through a BAR. -/
structure BusOp where
  write : Bool
  size : Nat
  data : D64
  deriving DecidableEq, Repr

/-- A PCIe completion. -/
structure PcieCpl where
  status : Nat
  poisoned : Bool
  data : Bytes
  deriving DecidableEq, Repr

/-- What training finds on one channel (R275, R277). -/
structure DimmInfo where
  dimms : Nat
  ranks : Nat
  density : Nat
  supported : Bool
  trained : List Nat
  /-- the lowest rate that the SPD of any DIMM permits, in MT/s (R276) -/
  rateMax : Nat := 6400
  deriving DecidableEq, Repr

end Sys2Proof
end

