-- ==== Sys2Proof/Syntax.lean ====
section
/-!
DEFINITION. The commands the KU-4200 takes: one constructor per row of the table of operations and events, with the
operands the outside world presents. A Stylus operation names its lane, thread and register fields; a timer or a
hardware event names the unit it befalls; a frame or message carries what arrived.
-/

namespace Sys2Proof

/-- One command. Each constructor's docstring gives its mnemonic and the rule of spec/ it stands under. -/
inductive Instr where
  /-- REGISTER_WRITE (R5). -/
  | registerWrite (agent : Agent) (addr : Nat) (size : Nat) (val : W32) (hw : HwUpdate)
  /-- REGISTER_READ_CLEAR (R9). -/
  | registerReadClear (agent : Agent) (addr : Nat) (events : W32)
  /-- LOW_WORD_READ (R11). -/
  | lowWordRead (agent : Agent) (addr : Nat)
  /-- BEAT_BOUNDARY (R52). -/
  | beatBoundary (offset : Int)
  /-- EPOCH_BOUNDARY (R175). -/
  | epochBoundary
  /-- DECISION_TIMEOUT (R42). -/
  | decisionTimeout (lane : LaneId) (h : Handle)
  /-- MESSAGE_SHED (R57). -/
  | messageShed (lane : LaneId) (h : Handle)
  /-- BEAT_OVERRUN (R60). -/
  | beatOverrun (lane : LaneId) (t : ThreadId)
  /-- BEAT_TIMER_START (R54). -/
  | beatTimerStart
  /-- BEAT_TIMER_RESTART (R53). -/
  | beatTimerRestart
  /-- DRAIN (R51). -/
  | drain (agent : Agent) (lane : LaneId) (v : Bool)
  /-- ADMIT_EN (R51). -/
  | admitEn (agent : Agent) (lane : LaneId) (v : Bool)
  /-- RESET_REQ (R66). -/
  | resetReq (agent : Agent) (lane : LaneId)
  /-- LANE_RESET_CLEAR (R66). -/
  | laneResetClear (lane : LaneId)
  /-- APPLY (R69). -/
  | apply (agent : Agent) (lane : LaneId)
  /-- HSH_CONS_WRITE (R63). -/
  | hshConsWrite (agent : Agent) (lane : LaneId) (k : Fin 8) (val : W32)
  /-- RSH_PROD_WRITE (R64). -/
  | rshProdWrite (agent : Agent) (lane : LaneId) (k : Fin 8) (val : W32)
  /-- DECISION_COLLECT (R41). -/
  | decisionCollect (lane : LaneId) (k : Fin 8)
  /-- TILE_ALLOC (R134). -/
  | tileAlloc (lane : LaneId) (t : ThreadId) (rd rs1 : XReg)
  /-- TILE_FREE (R139). -/
  | tileFree (lane : LaneId) (t : ThreadId) (rs1 : XReg)
  /-- TILE_SEAL (R82). -/
  | tileSeal (lane : LaneId) (t : ThreadId) (rs1 rs2 : XReg)
  /-- TILE_DIGEST (R82). -/
  | tileDigest (lane : LaneId) (t : ThreadId) (rd rs1 : XReg)
  /-- TILE_DIGEST_COMPLETE (R146). -/
  | tileDigestComplete (lane : LaneId)
  /-- TILE_RELEASE (R84). -/
  | tileRelease (lane : LaneId) (t : ThreadId) (rd rs1 : XReg)
  /-- HM_FIELD (R82). -/
  | hmField (lane : LaneId) (t : ThreadId) (rd rs1 rs2 : XReg)
  /-- HM_DERIVE (R85). -/
  | hmDerive (lane : LaneId) (t : ThreadId) (rd rs1 rs2 : XReg)
  /-- STN_GO (R83). -/
  | stnGo (lane : LaneId) (t : ThreadId) (rd rs1 : XReg)
  /-- BUR_GO (R83). -/
  | burGo (lane : LaneId) (t : ThreadId) (rd rs1 : XReg)
  /-- BUR_SKIP (R83). -/
  | burSkip (lane : LaneId) (t : ThreadId) (rs1 : XReg)
  /-- ENG_WAIT (R82). -/
  | engWait (lane : LaneId) (t : ThreadId) (rd rs1 : XReg)
  /-- ENG_POLL (R87). -/
  | engPoll (lane : LaneId) (t : ThreadId) (rd rs1 : XReg)
  /-- SHELF_POST (R40). -/
  | shelfPost (lane : LaneId) (t : ThreadId) (rd rs1 rs2 : XReg)
  /-- SHELF_POST_RESUME (R40). -/
  | shelfPostResume (lane : LaneId) (t : ThreadId)
  /-- JRN_PUT (R163). -/
  | jrnPut (lane : LaneId) (t : ThreadId) (rd rs1 : XReg)
  /-- BEAT_READ (R87). -/
  | beatRead (lane : LaneId) (t : ThreadId) (rd : XReg)
  /-- BEAT_READH (R82). -/
  | beatReadh (lane : LaneId) (t : ThreadId) (rd : XReg)
  /-- BEAT_LEFT (R82). -/
  | beatLeft (lane : LaneId) (t : ThreadId) (rd : XReg)
  /-- BEAT_WAIT (R87). -/
  | beatWait (lane : LaneId) (t : ThreadId)
  /-- THR_END (R86). -/
  | thrEnd (lane : LaneId) (t : ThreadId)
  /-- THR_SIGNAL (R82). -/
  | thrSignal (lane : LaneId) (t : ThreadId) (rs1 : XReg)
  /-- STYLUS_LONG_OPERATION (R73). -/
  | stylusLongOperation (lane : LaneId) (t : ThreadId)
  /-- STYLUS_SPLIT_ACCESS (R74). -/
  | stylusSplitAccess (lane : LaneId) (t : ThreadId)
  /-- STYLUS_DRAM_LOAD_RETURN (R80). -/
  | stylusDramLoadReturn (lane : LaneId) (t : ThreadId) (dataError : Bool)
  /-- STYLUS_INTERRUPT (R76). -/
  | stylusInterrupt (lane : LaneId) (t : ThreadId)
  /-- STYLUS_EXCEPTION (R450). -/
  | stylusException (lane : LaneId) (t : ThreadId) (cause : W32) (tval : W32)
  /-- TRANSLATE (R90). -/
  | translate (lane : LaneId)
  /-- VALIDATE (R106). -/
  | validate (lane : LaneId)
  /-- RESUME (R111). -/
  | resume (lane : LaneId)
  /-- ABORT (R111). -/
  | abort (lane : LaneId)
  /-- STN_RUN_END (R106). -/
  | stnRunEnd (lane : LaneId)
  /-- ECDSA_P256_VERIFY (R113). -/
  | ecdsaP256Verify (lane : LaneId) (e : EngId)
  /-- ECDSA_P256_SIGN (R113). -/
  | ecdsaP256Sign (lane : LaneId) (e : EngId)
  /-- ECDSA_P384_VERIFY (R113). -/
  | ecdsaP384Verify (lane : LaneId) (e : EngId)
  /-- ECDSA_P384_SIGN (R113). -/
  | ecdsaP384Sign (lane : LaneId) (e : EngId)
  /-- ED25519_VERIFY (R113). -/
  | ed25519Verify (lane : LaneId) (e : EngId)
  /-- ED25519_SIGN (R113). -/
  | ed25519Sign (lane : LaneId) (e : EngId)
  /-- ED25519_BATCH_VERIFY (R122). -/
  | ed25519BatchVerify (lane : LaneId) (e : EngId)
  /-- ML_DSA_44_VERIFY (R113). -/
  | mlDsa44Verify (lane : LaneId) (e : EngId)
  /-- ML_DSA_65_VERIFY (R113). -/
  | mlDsa65Verify (lane : LaneId) (e : EngId)
  /-- ML_DSA_87_VERIFY (R113). -/
  | mlDsa87Verify (lane : LaneId) (e : EngId)
  /-- ML_DSA_44_SIGN (R118). -/
  | mlDsa44Sign (lane : LaneId) (e : EngId)
  /-- ML_DSA_65_SIGN (R118). -/
  | mlDsa65Sign (lane : LaneId) (e : EngId)
  /-- ML_DSA_87_SIGN (R118). -/
  | mlDsa87Sign (lane : LaneId) (e : EngId)
  /-- RSA_2048_VERIFY (R113). -/
  | rsa2048Verify (lane : LaneId) (e : EngId)
  /-- RSA_2048_SIGN (R113). -/
  | rsa2048Sign (lane : LaneId) (e : EngId)
  /-- RSA_4096_VERIFY (R113). -/
  | rsa4096Verify (lane : LaneId) (e : EngId)
  /-- RSA_4096_SIGN (R116). -/
  | rsa4096Sign (lane : LaneId) (e : EngId)
  /-- PIN_BLOCK_TRANSLATE (R119). -/
  | pinBlockTranslate (lane : LaneId) (e : EngId)
  /-- DUKPT_DERIVE_TDES (R120). -/
  | dukptDeriveTdes (lane : LaneId) (e : EngId)
  /-- DUKPT_DERIVE_AES (R120). -/
  | dukptDeriveAes (lane : LaneId) (e : EngId)
  /-- SHA_256 (R115). -/
  | sha256 (lane : LaneId) (e : EngId)
  /-- SHA_384 (R115). -/
  | sha384 (lane : LaneId) (e : EngId)
  /-- SHA_512 (R115). -/
  | sha512 (lane : LaneId) (e : EngId)
  /-- SHA3_256 (R115). -/
  | sha3256 (lane : LaneId) (e : EngId)
  /-- SHA3_384 (R115). -/
  | sha3384 (lane : LaneId) (e : EngId)
  /-- SHA3_512 (R115). -/
  | sha3512 (lane : LaneId) (e : EngId)
  /-- HMAC_SHA_256 (R115). -/
  | hmacSha256 (lane : LaneId) (e : EngId)
  /-- HMAC_SHA_384 (R115). -/
  | hmacSha384 (lane : LaneId) (e : EngId)
  /-- HMAC_SHA_512 (R115). -/
  | hmacSha512 (lane : LaneId) (e : EngId)
  /-- AES_CMAC (R115). -/
  | aesCmac (lane : LaneId) (e : EngId)
  /-- ISO9797_MAC1_AES (R115). -/
  | iso9797Mac1Aes (lane : LaneId) (e : EngId)
  /-- ISO9797_MAC1_TDES (R115). -/
  | iso9797Mac1Tdes (lane : LaneId) (e : EngId)
  /-- RETAIL_MAC_TDES (R115). -/
  | retailMacTdes (lane : LaneId) (e : EngId)
  /-- BUR_OPERATION_COMPLETE (R129). -/
  | burOperationComplete (lane : LaneId) (e : EngId) (attemptsOk selfCheckOk : Bool)
  /-- RESERVE_REQUEST (R59). -/
  | reserveRequest (lane : LaneId) (req : ReserveReq)
  /-- GENERATE_ECDSA_P256_PAIR (R356). -/
  | generateEcdsaP256Pair (lane : LaneId) (e : EngId)
  /-- GENERATE_ECDSA_P384_PAIR (R356). -/
  | generateEcdsaP384Pair (lane : LaneId) (e : EngId)
  /-- GENERATE_ED25519_PAIR (R356). -/
  | generateEd25519Pair (lane : LaneId) (e : EngId)
  /-- GENERATE_ML_DSA_44_PAIR (R356). -/
  | generateMlDsa44Pair (lane : LaneId) (e : EngId)
  /-- GENERATE_ML_DSA_65_PAIR (R356). -/
  | generateMlDsa65Pair (lane : LaneId) (e : EngId)
  /-- GENERATE_ML_DSA_87_PAIR (R356). -/
  | generateMlDsa87Pair (lane : LaneId) (e : EngId)
  /-- GENERATE_SYMMETRIC_KEY (R356). -/
  | generateSymmetricKey (lane : LaneId) (e : EngId)
  /-- UNWRAP_KEY_BLOCK (R452). -/
  | unwrapKeyBlock (lane : LaneId) (e : EngId)
  /-- WRAP_FOR_EXPORT (R452). -/
  | wrapForExport (lane : LaneId) (e : EngId)
  /-- COMBINE_COMPONENTS (R452). -/
  | combineComponents (lane : LaneId) (e : EngId)
  /-- VERIFY_TOKEN_P384 (R452). -/
  | verifyTokenP384 (lane : LaneId) (e : EngId)
  /-- VERIFY_TOKEN_ML_DSA_65 (R452). -/
  | verifyTokenMlDsa65 (lane : LaneId) (e : EngId)
  /-- SIGN_PAIRING_MANIFEST (R452). -/
  | signPairingManifest (lane : LaneId) (e : EngId)
  /-- ECDH_COMPONENT_TRANSPORT (R452). -/
  | ecdhComponentTransport (lane : LaneId) (e : EngId)
  /-- HM_CHECK (R152). -/
  | hmCheck (hart : HartId) (rd rs1 rs2 : XReg)
  /-- HM_STEP (R151). -/
  | hmStep (hart : HartId) (rd rs1 : XReg)
  /-- TILE_CHECK (R153). -/
  | tileCheck (hart : HartId) (rd rs1 : XReg)
  /-- JRN_APPEND (R235). -/
  | jrnAppend (hart : HartId) (rd rs1 : XReg)
  /-- CELLARER_APPEND (R165). -/
  | cellarerAppend (event : Nat) (code : Code) (body : Bytes)
  /-- RECORD_ACCEPT (R166). -/
  | recordAccept (ring : RingId) (portWait : Nat)
  /-- MIRROR_ACK_RECEIVE (R168). -/
  | mirrorAckReceive (ring : RingId) (seq : Nat) (delay : Nat)
  /-- REPLAY_REQUEST_RECEIVE (R169). -/
  | replayRequestReceive (ring : RingId) (seq : Nat)
  /-- REPLAY_TIMEOUT (R169). -/
  | replayTimeout (ring : RingId) (seq : Nat)
  /-- RECORD_FRAME_RECEIVE (R185). -/
  | recordFrameReceive (frame : LinkFrame)
  /-- LINK_FAILURE (R170). -/
  | linkFailure (code : Code)
  /-- WITNESS_ACK_TIMEOUT (R170). -/
  | witnessAckTimeout (ring : RingId) (seq : Nat)
  /-- DRAIN_COPY (R177). -/
  | drainCopy (ring : RingId) (err : SlotErr)
  /-- DRAIN_RETIRE (R177). -/
  | drainRetire (agent : Agent) (ring : RingId) (val : W32)
  /-- DRAIN_PAUSE (R178). -/
  | drainPause (agent : Agent) (v : Bool)
  /-- DRAIN_FRAME_RECEIVE (R177). -/
  | drainFrameReceive (frame : LinkFrame) (ring : RingId) (lastSeq : Nat)
  /-- RING_RESYNC_COMPLETE (R171). -/
  | ringResyncComplete (ring : RingId) (peer : PeerRing)
  /-- LINK_TRAINING (R181). -/
  | linkTraining (flights : List Nat) (deskew : Nat) (locked : Bool)
  /-- LINK_RETRAIN_TIMER (R181). -/
  | linkRetrainTimer
  /-- HEADER_TIMEOUT (R181). -/
  | headerTimeout
  /-- SYMBOL_LOCK_LOSS (R181). -/
  | symbolLockLoss (linkLane : Fin 16)
  /-- IDLE_ACK_SEND (R181). -/
  | idleAckSend
  /-- MANIFEST_RECEIVE (R186). -/
  | manifestReceive (m : Manifest)
  /-- CTL_FRAME_RECEIVE (R188). -/
  | ctlFrameReceive (frame : LinkFrame) (msg : CtlMsg)
  /-- BEAT_FRAME_RECEIVE (R189). -/
  | beatFrameReceive (frame : LinkFrame)
  /-- BEAT_FRAME_MISSING (R189). -/
  | beatFrameMissing
  /-- SNAP_FRAME_RECEIVE (R222). -/
  | snapFrameReceive (frame : LinkFrame) (body : SnapBody)
  /-- LEASE_REQ (R192). -/
  | leaseReq (h : RhaxHdr) (home : Nat)
  /-- LEASE_GRANT (R191). -/
  | leaseGrant (h : RhaxHdr) (home : Nat)
  /-- LEASE_REFUSE (R193). -/
  | leaseRefuse (h : RhaxHdr) (home : Nat) (code : Code)
  /-- LEASE_RELEASE (R191). -/
  | leaseRelease (h : RhaxHdr) (home : Nat)
  /-- LEASE_EXPIRY (R193). -/
  | leaseExpiry (ownHome : Bool)
  /-- WITNESS_LEASE_EXPIRY (R192). -/
  | witnessLeaseExpiry (home : Nat)
  /-- TAKEOVER_LEASE_RETRY (R197). -/
  | takeoverLeaseRetry
  /-- WCOPY (R194). -/
  | wcopy (h : RhaxHdr) (ring : RingId) (record : Bytes)
  /-- WCOPY_ACK (R170). -/
  | wcopyAck (h : RhaxHdr) (ring : RingId) (seq : Nat)
  /-- WCOPY_FETCH (R197). -/
  | wcopyFetch (h : RhaxHdr) (home : Nat)
  /-- WCOPY_DATA (R197). -/
  | wcopyData (h : RhaxHdr) (copies : List (Nat × Bytes)) (last : Bool)
  /-- WCOPY_DROP (R194). -/
  | wcopyDrop (h : RhaxHdr)
  /-- WITNESS_SILENCE (R195). -/
  | witnessSilence
  /-- XFER_OFFER (R201). -/
  | xferOffer (h : RhaxHdr) (hallmark : Bytes) (route : Nat) (prev : D64)
  /-- XFER_ACCEPT (R201). -/
  | xferAccept (h : RhaxHdr)
  /-- XFER_REFUSE (R201). -/
  | xferRefuse (h : RhaxHdr) (code : Code)
  /-- XFER_TILES (R201). -/
  | xferTiles (h : RhaxHdr) (body : Bytes)
  /-- XFER_DONE (R201). -/
  | xferDone (h : RhaxHdr) (lane : LaneId) (cls : Fin 32) (session : SessId)
  /-- VERIFY_REQ (R202). -/
  | verifyReq (h : RhaxHdr) (hallmark : Bytes) (route : Nat) (outputs : List Bytes)
  /-- VERIFY_RESP (R202). -/
  | verifyResp (h : RhaxHdr) (code : Code)
  /-- TIME_ANNOUNCE (R203). -/
  | timeAnnounce (h : RhaxHdr) (gm : D64) (btmOffset : Int) (btmStatus : W32) (announcedNs : Nat)
  /-- REFUSE (R199). -/
  | refuse (h : RhaxHdr) (rtype : Nat) (code : Code)
  /-- RHAX_RETRY_TIMER (R200). -/
  | rhaxRetryTimer (dst : Nat) (mseq : Nat)
  /-- ETHERNET_FRAME_RECEIVE (R205). -/
  | ethernetFrameReceive (q : PortId) (f : EthFrame)
  /-- PORT_LINK_CHANGE (R204). -/
  | portLinkChange (q : PortId) (up fec : Bool)
  /-- TCP_CONNECTION_ESTABLISH (R216). -/
  | tcpConnectionEstablish (listener : Fin 256) (c : ConnInfo)
  /-- LISTENER_RECONNECT (R207). -/
  | listenerReconnect (listener : Fin 256)
  /-- TCP_RETRANSMIT_TIMEOUT (R208). -/
  | tcpRetransmitTimeout (session : SessId)
  /-- TCP_RST_RECEIVE (R208). -/
  | tcpRstReceive (session : SessId)
  /-- KEEPALIVE_PROBE (R208). -/
  | keepaliveProbe (session : SessId)
  /-- TLS_RECORD_RECEIVE (R214). -/
  | tlsRecordReceive (session : SessId) (authOk : Bool) (plain : Bytes) (keyUpdate : Option Bool)
  /-- MESSAGE_MINT (R33). -/
  | messageMint (session : SessId) (cls : Fin 32)
  /-- HANDSHAKE_START (R210). -/
  | handshakeStart (session : SessId) (hello : ClientHello)
  /-- HANDSHAKE_COMPLETE (R213). -/
  | handshakeComplete (session : SessId) (res : HsResult)
  /-- KEY_UPDATE_SEND (R214). -/
  | keyUpdateSend (session : SessId)
  /-- HANDSHAKE_TIMEOUT (R219). -/
  | handshakeTimeout (session : SessId)
  /-- MSG_TIMEOUT (R209). -/
  | msgTimeout (session : SessId)
  /-- IDLE_TIMEOUT (R219). -/
  | idleTimeout (session : SessId)
  /-- STALL_TIMEOUT (R219). -/
  | stallTimeout (session : SessId)
  /-- LINGER_TIMEOUT (R221). -/
  | lingerTimeout (session : SessId)
  /-- RECLAIM_TIMEOUT (R223). -/
  | reclaimTimeout (session : SessId)
  /-- PARTNER_CLOSE (R221). -/
  | partnerClose (session : SessId)
  /-- RELEASE_ACCEPT (R44). -/
  | releaseAccept (lane : LaneId) (h : Handle)
  /-- REASSIGN_REQ (R217). -/
  | reassignReq (agent : Agent) (val : W32)
  /-- REASSIGN_MOVE (R217). -/
  | reassignMove
  /-- REASSIGN_TIMEOUT (R217). -/
  | reassignTimeout
  /-- PTP_MESSAGE_RECEIVE (R225). -/
  | ptpMessageReceive (q : PortId) (m : PtpMsg)
  /-- PTP_SYNC_LOSS (R225). -/
  | ptpSyncLoss
  /-- HART_BEAT_READ (R238). -/
  | hartBeatRead (hart : HartId) (rd : XReg)
  /-- HART_BEAT_WAIT (R239). -/
  | hartBeatWait (hart : HartId) (rd rs1 : XReg)
  /-- KSEAL_WRITE (R231). -/
  | ksealWrite (hart : HartId) (val : W32)
  /-- BPFLUSH (R232). -/
  | bpflush (hart : HartId)
  /-- KERRREC_READ (R247). -/
  | kerrrecRead (hart : HartId) (rd : XReg)
  /-- VENDOR_COUNTER_READ (R409). -/
  | vendorCounterRead (hart : HartId) (rd : XReg) (csr : Nat)
  /-- COUNTER_OVERFLOW (R412). -/
  | counterOverflow (hart : HartId) (i : Fin 32)
  /-- HART_MEMORY_ACCESS (R244). -/
  | hartMemoryAccess (hart : HartId) (a : MemAccess)
  /-- HART_INTERRUPT (R252). -/
  | hartInterrupt (hart : HartId)
  /-- CBO_CLEAN (R265). -/
  | cboClean (hart : HartId) (rs1 : XReg)
  /-- CBO_FLUSH (R265). -/
  | cboFlush (hart : HartId) (rs1 : XReg)
  /-- CBO_INVAL (R265). -/
  | cboInval (hart : HartId) (rs1 : XReg)
  /-- CBO_ZERO (R264). -/
  | cboZero (hart : HartId) (rs1 : XReg)
  /-- DEBUG_COMMAND (R255). -/
  | debugCommand (cmd : DebugCmd)
  /-- DMACTIVE_CLEAR (R335). -/
  | dmactiveClear
  /-- DEBUG_RELOCK (R373). -/
  | debugRelock
  /-- L3_REQUEST (R263). -/
  | l3Request (req : L3Req)
  /-- WRITEBACK_ACK (R267). -/
  | writebackAck (slice : SliceId) (line : Nat)
  /-- MEMORY_READ (R282). -/
  | memoryRead (ch : ChanId) (line : Nat) (requester : Agent) (err : DramErr) (last : Bool)
  /-- MEMORY_WRITE (R281). -/
  | memoryWrite (ch : ChanId) (line : Nat) (data : Bytes) (poisoned : Bool) (requester : Agent)
  /-- REFRESH_DUE (R285). `queued`: the rank's read queue holds a request. -/
  | refreshDue (ch : ChanId) (rank : Fin 4) (queued : Bool)
  /-- DIMM_TEMPERATURE_READ (R284). -/
  | dimmTemperatureRead (ch : ChanId) (temps : List Nat)
  /-- DQS_DRIFT_TRACK (R288). -/
  | dqsDriftTrack (ch : ChanId) (drift : Int)
  /-- NEIGHBOUR_REFRESH (R287). -/
  | neighbourRefresh (ch : ChanId) (bank : Nat)
  /-- TRAIN_NOW (R289). -/
  | trainNow (agent : Agent) (ch : ChanId)
  /-- TRAINING_PASS_START (R289). -/
  | trainingPassStart (ch : ChanId) (why : PassCause)
  /-- TRAINING_PASS_END (R290). -/
  | trainingPassEnd (ch : ChanId) (found : Bool)
  /-- ERROR_WINDOW_END (R290). -/
  | errorWindowEnd (ch : ChanId)
  /-- CHANNEL_FAILURE (R291). -/
  | channelFailure (ch : ChanId)
  /-- FREQ_REQ (R294). -/
  | freqReq (agent : Agent) (ch : ChanId) (val : W32)
  /-- FREQ_CHANGE_COMPLETE (R293). -/
  | freqChangeComplete (ch : ChanId)
  /-- HIST_CLEAR (R296). -/
  | histClear (agent : Agent) (ch : ChanId)
  /-- SCRUB_READ (R307). -/
  | scrubRead (ch : ChanId) (err : DramErr)
  /-- SCRUB_RESULT (R308). -/
  | scrubResult (ch : ChanId)
  /-- SCRUB_SLOW_WARNING (R309). -/
  | scrubSlowWarning (ch : ChanId)
  /-- REMAP_INSTALL (R310). -/
  | remapInstall (ch : ChanId) (line : Nat) (err : DramErr)
  /-- CELLARER_WATCHDOG_EXPIRY (R324). -/
  | cellarerWatchdogExpiry
  /-- CELLARER_RESTART (R324). -/
  | cellarerRestart (cause : Fin 4)
  /-- CELLARER_INTERRUPT (R321). -/
  | cellarerInterrupt (irq : Nat) (prio : Nat)
  /-- MAILBOX_DATA_WRITE (R326). -/
  | mailboxDataWrite (agent : Agent) (mbx : MbxId) (i : Fin 16) (val : W32)
  /-- MAILBOX_GO (R327). -/
  | mailboxGo (agent : Agent) (mbx : MbxId) (seq : BitVec 8)
  /-- MAILBOX_CLEAR (R333). -/
  | mailboxClear (agent : Agent) (mbx : MbxId)
  /-- MAILBOX_RX_READ (R328). -/
  | mailboxRxRead (agent : Agent) (mbx : MbxId)
  /-- MAILBOX_RX_ACK (R329). -/
  | mailboxRxAck (agent : Agent) (mbx : MbxId) (seq : BitVec 8) (code : Code)
  /-- MAILBOX_RX_EXTEND (R330). -/
  | mailboxRxExtend (agent : Agent) (mbx : MbxId) (us : Nat)
  /-- MAILBOX_TIMEOUT (R330). -/
  | mailboxTimeout (mbx : MbxId)
  /-- LOCK_READ (R338). -/
  | lockRead (agents : List Agent) (lock : LockId)
  /-- LOCK_WRITE (R340). -/
  | lockWrite (agent : Agent) (lock : LockId) (val : W32)
  /-- HEALTH (R345). -/
  | health (mbx : MbxId)
  /-- VERSION (R345). -/
  | version (mbx : MbxId)
  /-- RAS_QUERY (R345). -/
  | rasQuery (mbx : MbxId)
  /-- MBX_BIND (R345). -/
  | mbxBind (mbx : MbxId)
  /-- LOCK_RELEASE (R340). -/
  | lockRelease (mbx : MbxId)
  /-- LANE_RESET (R66). -/
  | laneReset (mbx : MbxId)
  /-- LANE_LOAD (R349). -/
  | laneLoad (mbx : MbxId)
  /-- STENCIL_LOAD (R349). -/
  | stencilLoad (mbx : MbxId)
  /-- LANE_HANDOVER (R198). -/
  | laneHandover (mbx : MbxId)
  /-- LANE_RELEASE (R349). -/
  | laneRelease (mbx : MbxId)
  /-- PAIR_START (R181). -/
  | pairStart (mbx : MbxId)
  /-- LANE_FIREWALL (R371). -/
  | laneFirewall (mbx : MbxId) (chg : FirewallChange)
  /-- PCIE_WINDOWS (R372). -/
  | pcieWindows (mbx : MbxId) (chg : List PcieWindow)
  /-- KEY_POLICY (R360). -/
  | keyPolicy (mbx : MbxId) (chg : PolicyChange)
  /-- KEY_GEN (R357). -/
  | keyGen (mbx : MbxId) (chg : KeyGenChange)
  /-- KEY_IMPORT (R358). -/
  | keyImport (mbx : MbxId) (chg : KeyImportChange)
  /-- KEY_COMPONENT (R358). -/
  | keyComponent (mbx : MbxId) (chg : KeyComponentChange)
  /-- KEY_DESTROY (R359). -/
  | keyDestroy (mbx : MbxId) (slot : SlotId)
  /-- KEY_EXPORT (R359). -/
  | keyExport (mbx : MbxId) (chg : KeyExportChange)
  /-- ROOT_ROTATE (R361). -/
  | rootRotate (mbx : MbxId) (chg : RootChange)
  /-- DOMAIN (R366). -/
  | domain (mbx : MbxId) (chg : DomainChange)
  /-- NET_TABLES (R207). -/
  | netTables (mbx : MbxId) (chg : NetTables)
  /-- JOURNAL (R176). -/
  | journal (mbx : MbxId) (chg : JournalChange)
  /-- DEBUG_UNLOCK (R373). -/
  | debugUnlock (mbx : MbxId) (chg : UnlockChange)
  /-- OFFICERS (R363). -/
  | officers (mbx : MbxId) (chg : List Officer)
  /-- ADMIN_SET (R344). -/
  | adminSet (mbx : MbxId) (chg : List Agent)
  /-- ZEROIZE (R367). -/
  | zeroize (mbx : MbxId)
  /-- APPROVE (R348). -/
  | approve (mbx : MbxId) (units : PhaseOne)
  /-- TICKET_STATUS (R347). -/
  | ticketStatus (mbx : MbxId)
  /-- TICKET_CANCEL (R347). -/
  | ticketCancel (mbx : MbxId)
  /-- TICKET_EXPIRY (R347). -/
  | ticketExpiry (ticket : Nat)
  /-- STAGED_CHANGE_APPLY (R369). -/
  | stagedChangeApply
  /-- CACHE_PART (R274). -/
  | cachePart (mbx : MbxId)
  /-- MEM_CONFIG (R276). -/
  | memConfig (mbx : MbxId)
  /-- MEM_REMAP (R310). -/
  | memRemap (mbx : MbxId) (err : DramErr)
  /-- FW_STAGE (R350). -/
  | fwStage (mbx : MbxId)
  /-- GARRET_LIST (R421). -/
  | garretList (mbx : MbxId)
  /-- GARRET_READ (R421). -/
  | garretRead (mbx : MbxId)
  /-- GARRET_FREEZE (R419). -/
  | garretFreeze (mbx : MbxId)
  /-- HM_REPLAY (R157). -/
  | hmReplay (mbx : MbxId)
  /-- QUERY (R374). -/
  | query (agent : Agent) (slot : SlotId) (err : StoreErr)
  /-- ENTROPY_HEALTH_FAILURE (R362). -/
  | entropyHealthFailure
  /-- RESEED_LAPSE (R362). -/
  | reseedLapse
  /-- PCIE_LINK_UP (R376). -/
  | pcieLinkUp (port : Fin 5) (sub : Fin 4) (speed : Fin 7) (width : Fin 3) (partnerFlit : Bool)
  /-- PCIE_LINK_DOWN (R392). -/
  | pcieLinkDown (port : Fin 5) (sub : Fin 4)
  /-- PCIE_INBOUND_REQUEST (R379). -/
  | pcieInboundRequest (port : Fin 5) (r : PcieReq)
  /-- HOST_BAR_ACCESS (R381). -/
  | hostBarAccess (fn : Fin 65) (bar : Fin 8) (off : Nat) (r : BusOp)
  /-- PCIE_CONFIG_REQUEST (R427). -/
  | pcieConfigRequest (fn : Fin 65) (off : Nat) (w : Option W32)
  /-- PCIE_COMPLETION_RECEIVE (R393). -/
  | pcieCompletionReceive (tag : Nat) (c : PcieCpl)
  /-- COMPLETION_TIMEOUT (R393). -/
  | completionTimeout (tag : Nat)
  /-- TAG_QUARANTINE_EXPIRY (R393). -/
  | tagQuarantineExpiry (tag : Nat)
  /-- HDMA_DESCRIPTOR (R387). -/
  | hdmaDescriptor (k : HdmaId)
  /-- HDMA_DESCRIPTOR_COMPLETE (R387). -/
  | hdmaDescriptorComplete (k : HdmaId)
  /-- ATS_TRANSLATION_RESPONSE (R389). -/
  | atsTranslationResponse (k : HdmaId) (granted : Bool) (host : Nat)
  /-- INVALIDATE_REQUEST (R389). -/
  | invalidateRequest (fn : Fin 65) (base : Nat) (len : Nat)
  /-- INVALIDATE_COMPLETION (R389). -/
  | invalidateCompletion (fn : Fin 65)
  /-- BUS_MASTER_ENABLE_CLEAR (R390). -/
  | busMasterEnableClear (fn : Fin 65) (d3hot : Bool)
  /-- FUNCTION_LEVEL_RESET (R391). -/
  | functionLevelReset (fn : Fin 65)
  /-- FLR_COMPLETE (R391). -/
  | flrComplete (fn : Fin 65)
  /-- VF_ENABLE (R382). -/
  | vfEnable (enable : Bool) (numVfs : Fin 65)
  /-- MSIX_UNMASK (R383). -/
  | msixUnmask (fn : Fin 65) (vec : Nat)
  /-- ARK_ENABLE (R407). -/
  | arkEnable (agent : Agent) (k : ArkId) (v : Bool)
  /-- ARK_ABORT (R407). -/
  | arkAbort (agent : Agent) (k : ArkId)
  /-- COMPRESS (R398). -/
  | compress (k : ArkId) (badBlocks : List Nat) (dataError : Bool)
  /-- DECOMPRESS (R403). -/
  | decompress (k : ArkId) (dataError : Bool)
  /-- VERIFY (R403). -/
  | verify (k : ArkId) (dataError : Bool)
  /-- ARK_DESCRIPTOR_COMPLETE (R406). -/
  | arkDescriptorComplete (k : ArkId)
  /-- GARRET_RECORD_WRITE (R416). -/
  | garretRecordWrite (err : SlotErr)
  /-- FREEZE_STOP (R418). -/
  | freezeStop
  /-- ATTIC_COPY_COMPLETE (R418). -/
  | atticCopyComplete
  /-- ATTIC_READ (R421). -/
  | atticRead (off : Nat)
  /-- CLR_HIST (R414). -/
  | clrHist (agent : Agent) (lane : LaneId)
  /-- CLR_CTR (R413). -/
  | clrCtr (agent : Agent) (lane : LaneId)
  /-- FULL_COLD_RESET (R424). -/
  | fullColdReset (straps : BitVec 16) (pwrgd : Bool)
  /-- COLD_RST_N (R442). -/
  | coldRstN (lowCycles : Nat) (straps : BitVec 16)
  /-- MAIN_COLD_START (R424). -/
  | mainColdStart (straps : BitVec 16)
  /-- PWRGD_FALL (R422). -/
  | pwrgdFall
  /-- WARM_RST_N (R442). -/
  | warmRstN (lowCycles : Nat)
  /-- WARM_REQ (R425). -/
  | warmReq (agent : Agent)
  /-- WARM_RESET_EXIT (R425). -/
  | warmResetExit
  /-- FIRMWARE_VERIFY_COMPLETE (R427). -/
  | firmwareVerifyComplete (current previous staged : Bool)
  /-- CELLARER_READY (R386). -/
  | cellarerReady
  /-- DRAM_TRAINING_COMPLETE (R277). -/
  | dramTrainingComplete (found : List DimmInfo)
  /-- HART_RELEASE (R429). -/
  | hartRelease (current previous : Bool)
  /-- PAIRING_TIMEOUT (R428). -/
  | pairingTimeout (current previous : Bool)
  /-- HART_RST (R426). -/
  | hartRst (agent : Agent) (hart : HartId)
  /-- POWER_MANAGER_INTERVAL (R430). -/
  | powerManagerInterval (corePower pkgPower : Nat)
  /-- PWR_TDP (R430). -/
  | pwrTdp (agent : Agent) (val : W32)
  /-- SD_REQ (R435). -/
  | sdReq (agent : Agent)
  /-- POWER_OFF (R435). -/
  | powerOff (agent : Agent)
  /-- BAY_THERMAL_LIMIT (R432). -/
  | bayThermalLimit (bay : SliceId) (temp : Nat)
  /-- PROCHOT_SENSOR (R432). -/
  | prochotSensor (temp : Nat)
  /-- PROCHOT_N_INPUT (R443). -/
  | prochotNInput (low : Bool)
  /-- THERMAL_TRIP (R432). -/
  | thermalTrip (temp : Nat) (iod : Bool) (heldMs : Nat)
  /-- REFERENCE_CLOCK_LOSS (R433). -/
  | referenceClockLoss (lostNs : Nat)
  /-- AVSBUS_FAILURE (R439). -/
  | avsbusFailure (die : Fin 4)
  /-- AVSBUS_RETRY (R439). -/
  | avsbusRetry (die : Fin 4) (ok : Bool)
  /-- SIDEBAND_RELEASE (R444). -/
  | sidebandRelease
  /-- I3C_ACCESS (R434). -/
  | i3cAccess (reg : Nat) (w : Option W32)
  /-- STYLUS_RV32_INSTRUCTION (R79). -/
  | stylusRv32Instruction (lane : LaneId) (t : ThreadId) (err : StoreErr)
  /-- HART_INSTRUCTION (R233). -/
  | hartInstruction (hart : HartId) (insn : W32)
  /-- CACHE_FILL (R259). -/
  | cacheFill (hart : HartId) (line : Nat) (prefetch dataError : Bool)
  /-- QUEUED_WRITE_ISSUE (R283). -/
  | queuedWriteIssue (ch : ChanId) (tries : Fin 5)
  /-- TILE_PORT_TRANSFER_END (R139). -/
  | tilePortTransferEnd (lane : LaneId) (h : Handle)
  /-- HEADER_HCRC_FAILURE (R182). -/
  | headerHcrcFailure (lseq : Nat)
  /-- GRATUITOUS_ARP (R206). -/
  | gratuitousArp (addrIdx : Fin 64)
  /-- STANDBY_POWER_LOSS (R420). -/
  | standbyPowerLoss
  /-- PRESENCE_DETECT_CHANGE (R392). -/
  | presenceDetectChange (port : Fin 4) (sub : Fin 4) (present : Bool)
  deriving DecidableEq, Repr

end Sys2Proof
end

