-- ==== Sys2Proof/Decode.lean ====
section
/-!
DEFINITION. Commands spelled by table words. The table gives none of its rows any bits (the device is commanded through
registers, frames, messages and pins, not by encoded words), so no word spells a command.
-/

namespace Sys2Proof

/-- The command a word spells by the table's bits: no row of spec/opcode_table.json gives bits, so every word spells none. -/
def decodeTableWord (_nbits _w : Nat) : Option Instr := none

end Sys2Proof
end

