-- ==== Sys2Proof/Machine/Operands.lean ====
section
/-!
DEFINITION. Operand forms: the operation codes of the Burin engines with their times and size classes (Tables BUR-1,
BUR-2 and STR-3), the Stencil run times, and the fields of descriptors and registers that several families read.
-/

namespace Sys2Proof.Machine
open Sys2Proof

/-- Input bytes of size class `k`, for signing and verification codes (R114). -/
def asymMax (k : Nat) : Nat := if k = 0 then 4096 else if k = 1 then 32768 else 262144
/-- Input bytes of size class `k`, for hash and MAC codes (R115). -/
def hashMax (k : Nat) : Nat := if k = 0 then 1024 else if k = 1 then 4096 else if k = 2 then 32768 else 262144

/-- Class 0 lane cycles and ten times the hash rate of the asymmetric codes (Table BUR-1, R114). -/
def asymTable : List (Nat × Nat × Nat) := [
  (0x04, 13333, 20), (0x08, 8889, 20), (0x0C, 35555, 30), (0x10, 22857, 30), (0x14, 10667, 30), (0x18, 7273, 30),
  (0x20, 12308, 24), (0x24, 17778, 24), (0x28, 26667, 24), (0x2C, 35555, 24), (0x30, 53333, 24), (0x34, 80000, 24),
  (0x38, 4000, 20), (0x3C, 133333, 20), (0x40, 14545, 20), (0x44, 888889, 20)]
/-- Codes of one fixed time: batches, PIN, DUKPT (Table BUR-1) and the Strongroom services (Table STR-3). -/
def fixedTable : List (Nat × Nat) := [
  (0x1C, 62720), (0x1D, 119040), (0x1E, 231680), (0x7C, 800), (0x80, 640), (0x84, 800)]
def serviceTable : List (Nat × Nat) := [
  (0xC0, 8889), (0xC4, 22857), (0xC8, 7273), (0xCC, 16000), (0xCD, 24000), (0xCE, 36000), (0xD0, 320), (0xD4, 6400),
  (0xD8, 6400), (0xDC, 480), (0xE0, 35555), (0xE1, 17778), (0xE4, 22857), (0xE8, 24000)]
/-- Fixed part in ns and ten times the rate in GB/s of the hash and MAC codes (Table BUR-2). -/
def hashTable : List (Nat × Nat × Nat) := [
  (0x48, 100, 20), (0x4C, 100, 30), (0x50, 100, 30), (0x54, 100, 24), (0x58, 100, 18), (0x5C, 100, 13),
  (0x60, 250, 20), (0x64, 250, 30), (0x68, 250, 30), (0x6C, 150, 46), (0x70, 150, 46), (0x74, 150, 4), (0x78, 200, 4)]

/-- The lane cycles a code takes; none for an undefined code or a reserved size class (R113 to R115, R356). -/
def opCycles (c : Nat) : Option Nat :=
  let base := c / 4 * 4
  let k := c % 4
  match fixedTable.find? (fun p => p.1 = c) with
  | some p => some p.2
  | none => match serviceTable.find? (fun p => p.1 = c) with
    | some p => some p.2
    | none => match asymTable.find? (fun p => p.1 = base) with
      | some (b, cyc, h) =>
        if k = 3 then none
        else
          let extra := cdiv ((asymMax k - 4096) * 16) h
          some (cyc + (if b = 0x18 then 2 * extra else extra))
      | none => match hashTable.find? (fun p => p.1 = base) with
        | some (_, f, r) => some (cdiv ((f * r + 10 * hashMax k) * 16) (10 * r))
        | none => none
/-- Cost in 10 ns units, rounded up (R55, R113). -/
def opUnits (c : Nat) : Nat := cdiv ((opCycles c).getD 0) 16
/-- Strongroom-only codes (R131). -/
def isService (c : Nat) : Bool := decide (0xC0 ≤ c) && decide (c ≤ 0xFC)
def isVerify (c : Nat) : Bool :=
  let b := c / 4 * 4
  [0x04, 0x0C, 0x14, 0x1C, 0x20, 0x24, 0x28, 0x38, 0x40].contains b
def isSign (c : Nat) : Bool :=
  let b := c / 4 * 4
  [0x08, 0x10, 0x18, 0x2C, 0x30, 0x34, 0x3C, 0x44].contains b
def isBatch (c : Nat) : Bool := c / 4 * 4 = 0x1C
def isHash (c : Nat) : Bool := decide (0x48 ≤ c) && decide (c < 0x60)
def isMac (c : Nat) : Bool := decide (0x60 ≤ c) && decide (c < 0x7C)
def isPin (c : Nat) : Bool := c = 0x7C
def isDukpt (c : Nat) : Bool := c = 0x80 || c = 0x84

/-- Stencil units for `i` input and `o` output bytes: 150 ns + i ÷ 4 + o ÷ 3, in 10 ns units (R55). -/
def stnUnits (i o : Nat) : Nat := cdiv (1800 + 3 * i + 4 * o) 120
/-- The same bound in lane cycles: 240 + i ÷ 2.5 + o ÷ 1.875, rounded up (R91). -/
def stnCycles (i o : Nat) : Nat := cdiv (3600 + 6 * i + 8 * o) 15

/-- SLACK as it acts (R55): 0 selects 20, 1 to 3 act as 4. -/
def slackOf (ctl : Nat) : Nat :=
  let v := bits ctl 31 24
  if v = 0 then 20 else if v < 4 then 4 else v
/-- A phase's deadline in beats (R36): an inbound 0 selects 2. -/
def deadlineOf (ctl : Nat) (outbound : Bool) : Nat :=
  if outbound then bits ctl 10 7 else if bits ctl 6 3 = 0 then 2 else bits ctl 6 3
/-- The booked maximum output of a phase (R55). -/
def outMaxOf (stn : Nat) (outbound : Bool) : Nat := if outbound then bits stn 26 16 * 256 else bits stn 15 0
/-- The Burin operations a class names for a phase, with their conditional marks. -/
def burOps (r : Nat) : List (Nat × Bool) :=
  ([(bits r 7 0, bit r 24), (bits r 15 8, bit r 25), (bits r 23 16, bit r 26)]).filter (fun p => p.1 ≠ 0)

/-- The fields of a program image (Table STY-6). -/
def imgEntry (img : Bytes) (cls : Nat) (out : Bool) : Nat := Bytes.le img (32 + 8 * cls + 4 * b2n out) 4
def imgCodeSize (img : Bytes) : Nat := Bytes.le img 8 4
def imgLarder (img : Bytes) : Nat := Bytes.le img 12 4
def imgScratch (img : Bytes) : Nat := Bytes.le img 16 4
def imgTrap (img : Bytes) : Nat := Bytes.le img 20 4
def imgService (img : Bytes) : Nat := Bytes.le img 24 4
def imgBoth (img : Bytes) : Bool := Bytes.le img 6 2 % 2 = 1
/-- Base, size and attributes of DRAM window `i`. -/
def imgWin (img : Bytes) (i : Nat) : Nat × Nat × Nat :=
  (Bytes.le img (288 + 16 * i) 8, Bytes.le img (296 + 16 * i) 4, Bytes.le img (300 + 16 * i) 4)
/-- Offset in tile memory of the larder, and of a thread's scratch area (Table STY-4). -/
def larderBase (img : Bytes) : Nat := 0x800000 - imgLarder img
def scratchBase (img : Bytes) (t : Nat) : Nat := larderBase img - (8 - t) * imgScratch img

/-- Shelf entry count and slot size (CFG). -/
def shelfEntries (cfg : Nat) : Nat := 2 ^ (bits cfg 4 1 + 6)
def shelfSlot (cfg : Nat) : Nat := 128 * 2 ^ bits cfg 7 5

end Sys2Proof.Machine
end

