-- ==== Sys2Proof/Config.lean ====
section
/-!
DEFINITION. What the manual leaves open: free values and the results of algorithms whose bytes no rule of the manual
fixes. Every constant here is opaque: nothing can evaluate it, so a statement holds whatever it is.
-/

namespace Sys2Proof.Config
open Sys2Proof

/-- Byte `i` of the `k`-th free value the machine takes: DRBG output, hedged nonces, values the manual calls undefined. -/
opaque freeByte : Nat → Nat → Byte
/-- The verdict of a signature verification: operation code, parameters, public key, message, signature. -/
opaque sigValid : Nat → Nat → Bytes → Bytes → Bytes → Bool
/-- Whether a public key or a signature encoding is malformed in a way only the algorithm can tell (off the curve, small order). -/
opaque keyMalformed : Nat → Bytes → Bool
/-- Whether a signature of the right length has an encoding that only the algorithm can tell is malformed (R122, R453). -/
opaque sigMalformed : Nat → Bytes → Bool
/-- A signature: operation code, parameters, key material, message, draw number. -/
opaque sign : Nat → Nat → Bytes → Bytes → Nat → Bytes
/-- The public key that belongs to a private key: class, private material. -/
opaque publicOf : Nat → Bytes → Bytes
/-- The shared secret of an ECDH P-384 agreement. -/
opaque ecdh : Bytes → Bytes → Bytes
/-- The DUKPT working key derived: AES or TDES, from an initial key or a base derivation key, usage, material, key serial
number. -/
opaque dukpt : Bool → Bool → Nat → Bytes → Bytes → Bytes
/-- Unwrapping under a KEK or KBPK: class of the wrapping key, material, wrapped bytes; none when the check fails. -/
opaque unwrapKey : Nat → Bytes → Bytes → Option Bytes
/-- Wrapping for export: class of the wrapping key, material, key, draw number. -/
opaque wrapKey : Nat → Bytes → Bytes → Nat → Bytes
/-- The archive compressor's hash of 3 bytes into its chain heads (R398 names their number, not the function). -/
opaque arkHash : Nat → Fin 32768
/-- The code lengths that the archive compressor gives a block's literal and length symbols and its distance symbols, from how often
each occurs; no rule names the construction. -/
opaque arkLens : List Nat → List Nat → List Nat × List Nat
/-- The bits by which it writes a dynamic block's code lengths after BTYPE (the repeat codes are its choice). -/
opaque arkHead : List Nat → List Nat → List Bool
/-- A lane counter that no command of this model counts (R413): lane, event, lane clock. -/
opaque lpmuFree : Nat → Nat → Nat → BitVec 48
/-- The device a release names as its lane-transfer destination when the operand of TILE.RELEASE holds more than a
message handle: no rule says how a destination is named (R201). -/
opaque xferDest : Nat → Option Nat
/-- The stored form of a protection set-up item: kind, its content as numbers. -/
opaque itemBytes : Nat → List Nat → Bytes
/-- How the bytes of a hallmark-replay request after its hallmark and ROUTE divide into the outputs of the steps: no rule
lays them out (R157, R202). -/
opaque replayOutputs : Bytes → List Bytes
/-- The fixed mapping of a channel-local line to DRAM coordinates for a DIMM configuration (R278): configuration, line,
field (0 row, 1 bank group, 2 bank, 3 subchannel, 4 rank, 5 DIMM, 6 column, 7 the bank as one number). -/
opaque dramMap : Nat → Nat → Nat → Nat
/-- The snoop-filter set of a line within its slice (R262): no rule gives the index. -/
opaque sfSet : Nat → Nat
/-- Offsets in a function's configuration space of the words that hold: 0 MSI-X control, 1 power management control,
2 device control, 3 device control 2, 4 ATS control: no rule places the capabilities. -/
opaque pcieCap : Nat → Nat
/-- Configuration words of a function that no rule gives: function, offset. -/
opaque pcieCfg : Nat → Nat → W32
/-- A root port's STATUS register, whose bits no rule gives: port and, for each sub-port, its up, fell, present and changed flags. -/
opaque rootStatus : Nat → List Nat → W32
/-- Which MiB of DRAM the Cellarer reserves as the host staging area (R381), by the size of DRAM in MiB; the base and size
in MiB of the NET buffer pool (Table HST-6, WINDOW kind 5). -/
opaque stagingMiB : Nat → Nat
opaque netPool : Nat → Nat × Nat
/-- The hash of a remote address and port over the candidate lanes (R216). -/
opaque connHash : Bytes → Nat → Nat
/-- Whether the Cellarer's 16 MPU region registers permit a user-mode access: the registers, address, bytes, 0 fetch 1 load 2
store (R322): no rule lays them out. -/
opaque celMpu : List W32 → Nat → Nat → Nat → Bool
/-- Bytes of the Cellarer's flash and mask ROM that no rule gives, by address in its private map (R319, R323). -/
opaque celRom : Nat → Byte
/-- Results and flags of floating-point instructions, and new values of vector registers: the RISC-V specifications give
them, no rule of the manual does. Instruction word, rounding mode or vtype, operands. -/
opaque fpResult : Nat → Nat → List Nat → D64
opaque fpFlags : Nat → Nat → List Nat → Nat
opaque vecResult : Nat → Nat → List Nat → List (BitVec 256) → Nat → BitVec 256
opaque vecScalar : Nat → Nat → List (BitVec 256) → D64
/-- EBCDIC to Unicode for the two built-in variants: variant, byte. -/
opaque ebcdic : Nat → Byte → Nat

end Sys2Proof.Config
end

