-- ==== Sys2Proof/Machine/Crypto.lean ====
section
/-!
DEFINITION. The public algorithms the manual names: CRC-32C (R135), SipHash-2-4 (R141 to R144), AES and AES-CMAC,
DES/TDES, SHA-2, SHA-3, HMAC, and the ISO 9797-1 MAC algorithms 1 and 3 (Table BUR-3). Their steps are those of the
standards that the manual cites; tables are packed into one numeral each, entry i in its own field.
-/

namespace Sys2Proof.Crypto

/-- Entry `i` of a table packed with `w` bits an entry. -/
def packed (t w i : Nat) : Nat := (t >>> (w * i)) % 2 ^ w

/-- One byte of the reflected CRC-32C, polynomial 0x1EDC_6F41 (R135). -/
def crcByte (c : BitVec 32) (b : Byte) : BitVec 32 :=
  (List.range 8).foldl (fun c _ => if c.getLsbD 0 then (c >>> 1) ^^^ 0x82F63B78#32 else c >>> 1) (c ^^^ b.setWidth 32)

/-- CRC-32C of a byte string (R135). -/
def crc32c (b : Bytes) : BitVec 32 := (b.foldl crcByte 0xFFFFFFFF#32) ^^^ 0xFFFFFFFF#32

/-- The four words of SipHash. -/
structure Sip where
  a : D64
  b : D64
  c : D64
  d : D64

/-- One SipRound. -/
def Sip.round (s : Sip) : Sip :=
  let a := s.a + s.b
  let b := s.b.rotateLeft 13 ^^^ a
  let a := a.rotateLeft 32
  let c := s.c + s.d
  let d := s.d.rotateLeft 16 ^^^ c
  let a := a + d
  let d := d.rotateLeft 21 ^^^ a
  let c := c + b
  let b := b.rotateLeft 17 ^^^ c
  let c := c.rotateLeft 32
  ⟨a, b, c, d⟩

/-- Absorb one 64-bit word with two rounds. -/
def Sip.absorb (s : Sip) (m : D64) : Sip :=
  let s := ({ s with d := s.d ^^^ m } : Sip).round.round
  { s with a := s.a ^^^ m }

/-- SipHash-2-4 of `m` under the 16-byte key `k`, k0 from bytes 0 to 7 and k1 from bytes 8 to 15. -/
def sipHash (k m : Bytes) : D64 :=
  let k0 := BitVec.ofNat 64 (Bytes.le k 0 8)
  let k1 := BitVec.ofNat 64 (Bytes.le k 8 8)
  let n := m.length
  let v0 : Sip := ⟨k0 ^^^ 0x736f6d6570736575#64, k1 ^^^ 0x646f72616e646f6d#64,
    k0 ^^^ 0x6c7967656e657261#64, k1 ^^^ 0x7465646279746573#64⟩
  let v := (List.range (n / 8)).foldl (fun v i => v.absorb (BitVec.ofNat 64 (Bytes.le m (8 * i) 8))) v0
  let last := BitVec.ofNat 64 (Bytes.le (m.drop (8 * (n / 8))) 0 7 + (n % 256) * 2 ^ 56)
  let v := v.absorb last
  let v := ({ v with c := v.c ^^^ 0xff#64 } : Sip).round.round.round.round
  v.a ^^^ v.b ^^^ v.c ^^^ v.d

/-! ### AES (FIPS 197) -/

def sboxT : Nat := 0x16bb54b00f2d99416842e6bf0d89a18cdf2855cee9871e9b948ed9691198f8e19e1dc186b95735610ef6034866b53e708a8bbd4b1f74dde8c6b4a61c2e2578ba08ae7a65eaf4566ca94ed58d6d37c8e779e4959162acd3c25c2406490a3a32e0db0b5ede14b8ee4688902a22dc4f816073195d643d7ea7c41744975fec130ccdd2f3ff1021dab6bcf5389d928f40a351a89f3c507f02f94585334d43fbaaefd0cf584c4a39becb6a5bb1fc20ed00d153842fe329b3d63b52a05a6e1b1a2c830975b227ebe28012079a059618c323c7041531d871f1e5a534ccf73f362693fdb7c072a49cafa2d4adf04759fa7dc982ca76abd7fe2b670130c56f6bf27b777c63
def isboxT : Nat := 0x7d0c2155631469e126d677ba7e042b17619953833cbbebc8b0f52aae4d3be0a0ef9cc9939f7ae52d0d4ab519a97f51605fec8027591012b131c7078833a8dd1ff45acd78fec0db9a2079d2c64b3e56fc1bbe18aa0e62b76f89c5291d711af1476edf751ce837f9e28535ade72274ac9673e6b4f0cecff297eadc674f4111913a6b8a130103bdafc1020f3fca8f1e2cd00645b3b80558e4f70ad3bc8c00abd890849d8da75746155edab9edfd5048706c92b6655dcc5ca4d41698688664f6f87225d18b6d49a25b76b224d92866a12e084ec3fa420b954cee3d23c2a632947b54cbe9dec444438e3487ff2f9b8239e37cfbd7f3819ea340bf38a53630d56a0952
def sbox (x : Byte) : Byte := BitVec.ofNat 8 (packed sboxT 8 x.toNat)
def isbox (x : Byte) : Byte := BitVec.ofNat 8 (packed isboxT 8 x.toNat)
/-- Multiplication by x in GF(2^8). -/
def xtime (b : Byte) : Byte := if b.getLsbD 7 then (b <<< 1) ^^^ 0x1b#8 else b <<< 1
/-- Multiplication in GF(2^8) by a constant below 16. -/
def gmul (k : Nat) (b : Byte) : Byte :=
  let b2 := xtime b; let b4 := xtime b2; let b8 := xtime b4
  (if k % 2 = 1 then b else 0) ^^^ (if k / 2 % 2 = 1 then b2 else 0) ^^^ (if k / 4 % 2 = 1 then b4 else 0)
    ^^^ (if k / 8 % 2 = 1 then b8 else 0)
def xorBytes (a b : Bytes) : Bytes := List.zipWith (· ^^^ ·) a b

/-- The key schedule as a list of 4-byte words, newest first. -/
def aesWords (nk : Nat) : Nat → List Bytes → Byte → List Bytes
  | 0, ws, _ => ws
  | n + 1, ws, rc =>
    let i := ws.length
    let prev := ws.headD []
    let old := ws.getD (nk - 1) []
    let t := if i % nk = 0 then
        xorBytes ((prev.drop 1 ++ prev.take 1).map sbox) [rc, 0, 0, 0]
      else if nk > 6 && i % nk = 4 then prev.map sbox else prev
    aesWords nk n (xorBytes old t :: ws) (if i % nk = 0 then xtime rc else rc)

/-- The round keys of an AES key of 16, 24 or 32 bytes, in order of use. -/
def aesKeys (key : Bytes) : List Bytes :=
  let nk := key.length / 4
  let nr := nk + 6
  let w0 := ((List.range nk).map (fun i => Bytes.slice key (4 * i) 4)).reverse
  let ws := (aesWords nk (4 * (nr + 1) - nk) w0 1).reverse
  (List.range (nr + 1)).map (fun r => (List.range 4).foldl (fun a j => a ++ ws.getD (4 * r + j) []) [])

def shiftRows (s : Bytes) : Bytes := (List.range 16).map (fun i => s.getD ((i + 4 * (i % 4)) % 16) 0)
def invShiftRows (s : Bytes) : Bytes := (List.range 16).map (fun i => s.getD ((i + 16 - 4 * (i % 4)) % 16) 0)
def mixWith (m : List Nat) (s : Bytes) : Bytes :=
  (List.range 16).map (fun i =>
    let c := 4 * (i / 4); let r := i % 4
    (List.range 4).foldl (fun a j => a ^^^ gmul (m.getD ((j + 4 - r) % 4) 0) (s.getD (c + j) 0)) 0)

/-- AES encryption of one 16-byte block. -/
def aesEnc (key blk : Bytes) : Bytes :=
  let ks := aesKeys key
  let nr := ks.length - 1
  let s := xorBytes blk (ks.getD 0 [])
  let s := (List.range (nr - 1)).foldl
    (fun s r => xorBytes (mixWith [2, 3, 1, 1] (shiftRows (s.map sbox))) (ks.getD (r + 1) [])) s
  xorBytes (shiftRows (s.map sbox)) (ks.getD nr [])

/-- AES decryption of one 16-byte block. -/
def aesDec (key blk : Bytes) : Bytes :=
  let ks := aesKeys key
  let nr := ks.length - 1
  let s := xorBytes blk (ks.getD nr [])
  let s := (List.range (nr - 1)).foldl
    (fun s r => mixWith [14, 11, 13, 9] (xorBytes ((invShiftRows s).map isbox) (ks.getD (nr - 1 - r) []))) s
  xorBytes ((invShiftRows s).map isbox) (ks.getD 0 [])

/-! ### DES and TDES (FIPS 46-3) -/

def desPerm (t n inW : Nat) (x : Nat) : Nat :=
  (List.range n).foldl (fun a i => 2 * a + (x >>> (inW - 1 - packed t 8 i)) % 2) 0
def ipT : Nat := 0x60e161e262e363e040c141c242c343c020a121a222a323a0008101820283038070f171f272f373f050d151d252d353d030b131b232b333b0109111921293139
def fpT : Nat := 0x183810300828002019391131092901211a3a12320a2a02221b3b13330b2b03231c3c14340c2c04241d3d15350d2d05251e3e16360e2e06261f3f17370f2f0727
def eT : Nat := 0x1f1e1d1c1b1c1b1a19181718171615141314131211100f100f0e0d0c0b0c0b0a09080708070605040304030201001f
def pT : Nat := 0x18030a15051d0c1208021a1f0d170701091e110419160e00101b0b1c1413060f
def pc1T : Nat := 0x30b131b040c141c242c343c050d151d252d353d060e161e262e363e232b333b020a121a222a323a01091119212931390008101820283038
def pc2T : Nat := 0x1f1c2331292d34213726302b2f202c32271d362e241e3328010c131a060f0719030b12160914050e1b020400170a100d
def desST : Nat := 0xb65309cfd8a47e12853fda602ec914b729e0b65c473a8df17c05e39a1bf6482dc32ef0597a418db6295086fae73cdb4168f2c53ea1947b0d16a579c3d80fe2b4d80671ebaf59c2346bd1a4073c825fe983b0ed1659c724fab57e43d08629fa1c354a90f6d2e17c8be0365c9f87dab1246893af051d74c2be9e0df3586ba714c2e27cb5498d1a60f34825e31fd7bc096a9ea1c27430f65b8df4cb5821a9603ed7c25b3ef478960da17ea5c21b03f8946d1fbce582a643907d824b7cd15f36e90a9e50c76b24f31a8df2396c851d4ab7e05b96a10ce82f74d3a50cd27943b6e81fd60ae3b5719428cf05a379cfb26d8e148359bc6a1d2e47f07095c6a38bf21d4e

/-- The round function on 32 bits under a 48-bit round key. -/
def desF (r k : Nat) : Nat :=
  let x := Nat.xor (desPerm eT 48 32 r) k
  let y := (List.range 8).foldl (fun a i =>
    let v := (x >>> (42 - 6 * i)) % 64
    let row := 2 * (v / 32) + v % 2
    16 * a + packed desST 4 (64 * i + 16 * row + (v / 2) % 16)) 0
  desPerm pT 32 32 y

/-- The 16 round keys. -/
def desKeys (key : Nat) : List Nat :=
  let cd := desPerm pc1T 56 64 key
  let rotl := fun (x k : Nat) => ((x <<< k) ||| (x >>> (28 - k))) % 2 ^ 28
  let tot := [1, 2, 4, 6, 8, 10, 12, 14, 15, 17, 19, 21, 23, 25, 27, 28]
  tot.map (fun k => desPerm pc2T 48 56 (rotl (cd / 2 ^ 28) k * 2 ^ 28 + rotl (cd % 2 ^ 28) k))

/-- One DES block through the round keys in the order given. -/
def desRun (ks : List Nat) (x : Nat) : Nat :=
  let v := desPerm ipT 64 64 x
  let (l, r) := ks.foldl (fun (p : Nat × Nat) k => (p.2, Nat.xor p.1 (desF p.2 k))) (v / 2 ^ 32, v % 2 ^ 32)
  desPerm fpT 64 64 (r * 2 ^ 32 + l)

def desEnc (k b : Bytes) : Bytes := Bytes.ofNatBE 8 (desRun (desKeys (Bytes.toNatBE k)) (Bytes.toNatBE b))
def desDec (k b : Bytes) : Bytes := Bytes.ofNatBE 8 (desRun (desKeys (Bytes.toNatBE k)).reverse (Bytes.toNatBE b))
/-- Key part `i` of a double or triple length key; a double length key repeats its first part. -/
def tdesPart (k : Bytes) (i : Nat) : Bytes := Bytes.slice k (if 8 * i < k.length then 8 * i else 0) 8
def tdesEnc (k b : Bytes) : Bytes := desEnc (tdesPart k 2) (desDec (tdesPart k 1) (desEnc (tdesPart k 0) b))
def tdesDec (k b : Bytes) : Bytes := desDec (tdesPart k 0) (desEnc (tdesPart k 1) (desDec (tdesPart k 2) b))

/-! ### SHA-2 (FIPS 180-4) -/

def k256T : Nat := 0xc67178f2bef9a3f7a4506ceb90befffa8cc7020884c8781478a5636f748f82ee682e6ff35b9cca4f4ed8aa4a391c0cb334b0bcb52748774c1e376c0819a4c116106aa070f40e3585d6990624d192e819c76c51a3c24b8b70a81a664ba2bfe8a192722c8581c2c92e766a0abb650a735453380d134d2c6dfc2e1b213827b70a851429296706ca6351d5a79147c6e00bf3bf597fc7b00327c8a831c66d983e515276f988da5cb0a9dc4a7484aa2de92c6f240ca1cc0fc19dc6efbe4786e49b69c1c19bf1749bdc06a780deb1fe72be5d74550c7dc3243185be12835b01d807aa98ab1c5ed5923f82a459f111f13956c25be9b5dba5b5c0fbcf71374491428a2f98
def k512T : Nat := 0x6c44198c4a4758175fcb6fab3ad6faec597f299cfc657e2a4cc5d4becb3e42b6431d67c49c100d4c3c9ebe0a15c9bebc32caab7b40c7249328db77f523047d841b710b35131c471b113f9804bef90dae0a637dc5a2c898a606f067aa72176fbaf57d4f7fee6ed178eada7dd6cde0eb1ed186b8c721c0c207ca273eceea26619cc67178f2e372532bbef9a3f7b2c67915a4506cebde82bde990befffa23631e288cc702081a6439ec84c87814a1f0ab7278a5636f43172f60748f82ee5defb2fc682e6ff3d6b2b8a35b9cca4f7763e3734ed8aa4ae3418acb391c0cb3c5c95a6334b0bcb5e19b48a82748774cdf8eeb991e376c085141ab5319a4c116b8d2d0c8106aa07032bbd1b8f40e35855771202ad69906245565a910d192e819d6ef5218c76c51a30654be30c24b8b70d0f89791a81a664bbc423001a2bfe8a14cf1036492722c851482353b81c2c92e47edaee6766a0abb3c77b2a8650a73548baf63de53380d139d95b3df4d2c6dfc5ac42aed2e1b21385c26c92627b70a8546d22ffc142929670a0e6e7006ca6351e003826fd5a79147930aa725c6e00bf33da88fc2bf597fc7beef0ee4b00327c898fb213fa831c66d2db43210983e5152ee66dfab76f988da831153b55cb0a9dcbd41fbd44a7484aa6ea6e4832de92c6f592b0275240ca1cc77ac9c650fc19dc68b8cd5b5efbe4786384f25e3e49b69c19ef14ad2c19bf174cf6926949bdc06a725c7123580deb1fe3b1696b172be5d74f27b896f550c7dc3d5ffb4e2243185be4ee4b28c12835b0145706fbed807aa98a3030242ab1c5ed5da6d8118923f82a4af194f9b59f111f1b605d0193956c25bf348b538e9b5dba58189dbbcb5c0fbcfec4d3b2f7137449123ef65cd428a2f98d728ae22
def h256T : Nat := 0x5be0cd191f83d9ab9b05688c510e527fa54ff53a3c6ef372bb67ae856a09e667
def h384T : Nat := 0x47b5481dbefa4fa4db0c2e0d64f98fa78eb44a876858151167332667ffc00b31152fecd8f70e59399159015a3070dd17629a292a367cd507cbbb9d5dc1059ed8
def h512T : Nat := 0x5be0cd19137e21791f83d9abfb41bd6b9b05688c2b3e6c1f510e527fade682d1a54ff53a5f1d36f13c6ef372fe94f82bbb67ae8584caa73b6a09e667f3bcc908

/-- The constants that tell the 32-bit and the 64-bit member of the family apart. -/
structure Sha2 (w : Nat) where
  rounds : Nat
  kT : Nat
  big0 : List Nat
  big1 : List Nat
  small0 : List Nat
  small1 : List Nat

def sha256P : Sha2 32 := ⟨64, k256T, [2, 13, 22], [6, 11, 25], [7, 18, 3], [17, 19, 10]⟩
def sha512P : Sha2 64 := ⟨80, k512T, [28, 34, 39], [14, 18, 41], [1, 8, 7], [19, 61, 6]⟩

def bigSigma {w : Nat} (r : List Nat) (x : BitVec w) : BitVec w :=
  x.rotateRight (r.getD 0 0) ^^^ x.rotateRight (r.getD 1 0) ^^^ x.rotateRight (r.getD 2 0)
def smallSigma {w : Nat} (r : List Nat) (x : BitVec w) : BitVec w :=
  x.rotateRight (r.getD 0 0) ^^^ x.rotateRight (r.getD 1 0) ^^^ (x >>> (r.getD 2 0))

/-- The message schedule, newest word first. -/
def sha2Sched {w : Nat} (p : Sha2 w) : Nat → List (BitVec w) → List (BitVec w)
  | 0, ws => ws
  | n + 1, ws =>
    let x := smallSigma p.small1 (ws.getD 1 0) + ws.getD 6 0 + smallSigma p.small0 (ws.getD 14 0) + ws.getD 15 0
    sha2Sched p n (x :: ws)

/-- One round over the eight working words. -/
def sha2Round {w : Nat} (p : Sha2 w) (v : List (BitVec w)) (kw : BitVec w) : List (BitVec w) :=
  match v with
  | [a, b, c, d, e, f, g, h] =>
    let t1 := h + bigSigma p.big1 e + ((e &&& f) ^^^ (~~~e &&& g)) + kw
    let t2 := bigSigma p.big0 a + ((a &&& b) ^^^ (a &&& c) ^^^ (b &&& c))
    [t1 + t2, a, b, c, d + t1, e, f, g]
  | v => v

/-- Compress one block of 16 words into the chaining value. -/
def sha2Block {w : Nat} (p : Sha2 w) (h : List (BitVec w)) (blk : Bytes) : List (BitVec w) :=
  let ws0 := ((List.range 16).map (fun i => BitVec.ofNat w (Bytes.be blk (w / 8 * i) (w / 8)))).reverse
  let ws := (sha2Sched p (p.rounds - 16) ws0).reverse
  let v := (ws.zip (List.range p.rounds)).foldl
    (fun v (x : BitVec w × Nat) => sha2Round p v (x.1 + BitVec.ofNat w (packed p.kT w x.2))) h
  List.zipWith (· + ·) h v

/-- Padding to a multiple of `16 * w / 8` bytes with the bit length. -/
def sha2Pad (w : Nat) (m : Bytes) : Bytes :=
  let blk := 2 * w
  let tail := w / 4
  let z := (2 * blk - 1 - tail - m.length % blk) % blk
  m ++ [0x80#8] ++ Bytes.zeros z ++ Bytes.ofNatBE tail (8 * m.length)

def sha2 {w : Nat} (p : Sha2 w) (ivT out : Nat) (m : Bytes) : Bytes :=
  let iv := (List.range 8).map (fun i => BitVec.ofNat w (packed ivT w i))
  let q := sha2Pad w m
  let h := (List.range (q.length / (2 * w))).foldl (fun h i => sha2Block p h (Bytes.slice q (2 * w * i) (2 * w))) iv
  (h.foldl (fun (a : Bytes) x => a ++ Bytes.ofNatBE (w / 8) x.toNat) []).take out

def sha256 (m : Bytes) : Bytes := sha2 sha256P h256T 32 m
def sha384 (m : Bytes) : Bytes := sha2 sha512P h384T 48 m
def sha512 (m : Bytes) : Bytes := sha2 sha512P h512T 64 m

/-! ### SHA-3 (FIPS 202) -/

def krcT : Nat := 0x8000000080008008000000008000000180000000000080808000000080008081800000008000000a000000000000800a8000000000000080800000000000800280000000000080038000000000008089800000000000008b000000008000808b000000008000000a00000000800080090000000000000088000000000000008a800000000000800980000000800080810000000080000001000000000000808b8000000080008000800000000000808a00000000000080820000000000000001
def kroT : Nat := 0xe383d021208150f2d2927192b0a031437062c241b1c3e0100

/-- One round of Keccak-f[1600] over 25 lanes, lane x + 5y. -/
def keccakRound (s : List D64) (rc : D64) : List D64 :=
  let g := fun (i : Nat) => s.getD i 0
  let c := (List.range 5).map (fun x => g x ^^^ g (x + 5) ^^^ g (x + 10) ^^^ g (x + 15) ^^^ g (x + 20))
  let d := (List.range 5).map (fun x => c.getD ((x + 4) % 5) 0 ^^^ (c.getD ((x + 1) % 5) 0).rotateLeft 1)
  let b := fun (x y : Nat) =>
    let x' := (x + 3 * y) % 5
    (g (x' + 5 * x) ^^^ d.getD x' 0).rotateLeft (packed kroT 8 (x' + 5 * x))
  (List.range 25).map (fun i =>
    let x := i % 5; let y := i / 5
    let v := b x y ^^^ (~~~ b ((x + 1) % 5) y &&& b ((x + 2) % 5) y)
    if i = 0 then v ^^^ rc else v)

def keccakF (s : List D64) : List D64 :=
  (List.range 24).foldl (fun s r => keccakRound s (BitVec.ofNat 64 (packed krcT 64 r))) s

/-- SHA3 with an output of `out` bytes. -/
def sha3 (out : Nat) (m : Bytes) : Bytes :=
  let rate := 200 - 2 * out
  let z := rate - 1 - m.length % rate
  let q := m ++ (if z = 0 then [0x86#8] else [0x06#8] ++ Bytes.zeros (z - 1) ++ [0x80#8])
  let s := (List.range (q.length / rate)).foldl (fun s i =>
    keccakF ((List.range 25).map (fun j =>
      if 8 * j < rate then s.getD j 0 ^^^ BitVec.ofNat 64 (Bytes.le q (rate * i + 8 * j) 8) else s.getD j 0)))
    (List.replicate 25 (0 : D64))
  (s.foldl (fun (a : Bytes) x => a ++ Bytes.ofNatLE 8 x.toNat) []).take out

/-! ### MACs -/

/-- HMAC over a hash with block size `blk`. -/
def hmac (h : Bytes → Bytes) (blk : Nat) (key m : Bytes) : Bytes :=
  let k := if key.length > blk then h key else key
  let k := k ++ Bytes.zeros (blk - k.length)
  h (k.map (· ^^^ 0x5c#8) ++ h (k.map (· ^^^ 0x36#8) ++ m))

/-- Cipher block chaining with zero IV; the last block is the result. -/
def cbcMac (enc : Bytes → Bytes) (n : Nat) (m : Bytes) : Bytes :=
  (List.range (m.length / n)).foldl (fun c i => enc (xorBytes c (Bytes.slice m (n * i) n))) (Bytes.zeros n)

/-- ISO 9797-1 padding methods 1, 2 and 3. -/
def isoPad (method n : Nat) (m : Bytes) : Bytes :=
  let up := fun (x : Bytes) => x ++ Bytes.zeros ((n - x.length % n) % n)
  if method = 2 then up (m ++ [0x80#8])
  else if method = 3 then Bytes.ofNatBE n (8 * m.length) ++ (if m.length = 0 then Bytes.zeros n else up m)
  else if m.length = 0 then Bytes.zeros n else up m

def cmacDouble (b : Bytes) : Bytes :=
  let v := Bytes.toNatBE b
  Bytes.ofNatBE 16 (Nat.xor ((2 * v) % 2 ^ 128) (if v ≥ 2 ^ 127 then 0x87 else 0))

/-- AES-CMAC. -/
def cmac (key m : Bytes) : Bytes :=
  let k1 := cmacDouble (aesEnc key (Bytes.zeros 16))
  let full := m.length ≠ 0 ∧ m.length % 16 = 0
  let n := if full then m.length - 16 else 16 * (m.length / 16)
  let last := if full then xorBytes (m.drop n) k1
    else xorBytes (isoPad 2 16 (m.drop n)) (cmacDouble k1)
  let c := cbcMac (aesEnc key) 16 (m.take n)
  aesEnc key (xorBytes c last)

/-- ISO 9797-1 MAC algorithm 1. -/
def macAlg1 (enc : Bytes → Bytes) (n method : Nat) (m : Bytes) : Bytes := cbcMac enc n (isoPad method n m)

/-- ISO 9797-1 MAC algorithm 3: single DES chaining with a final decrypt and encrypt. -/
def macAlg3 (key : Bytes) (method : Nat) (m : Bytes) : Bytes :=
  desEnc (tdesPart key 0) (desDec (tdesPart key 1) (cbcMac (desEnc (tdesPart key 0)) 8 (isoPad method 8 m)))

end Sys2Proof.Crypto
end

