-- ==== Sys2Proof/Machine/RegMap.lean ====
section
/-!
DEFINITION. The register map: for every register block of Table KU-13 the registers the manual's tables give, with
their reset values and the access type of each bit (Table KU-3). A register that stands in no row reads 0 and ignores
writes (R6). Bits under no mask are RO (or reserved).
-/

namespace Sys2Proof.Machine
open Sys2Proof

/-- One register, or an array of them `stride` bytes apart. -/
structure RegRow where
  name : String
  off : Nat
  count : Nat := 1
  stride : Nat := 4
  reset : Nat := 0
  rw : Nat := 0
  w1c : Nat := 0
  w1s : Nat := 0
  rc : Nat := 0
  wo : Nat := 0
  deriving DecidableEq, Repr

/-- A register block: `count` instances of `size` bytes from `base`. -/
structure RegBlock where
  name : String
  base : Nat
  count : Nat
  size : Nat
  rows : List RegRow
  deriving Repr

def full32 : Nat := 0xFFFFFFFF

/-- LANE[n] control block (Table KU-27, R156, R413, R414). -/
def laneRows : List RegRow := [
  { name := "CTL", off := 0x0, rw := 0x5, w1s := 0x2 },
  { name := "STATUS", off := 0x4 },
  { name := "IRQ_STATUS", off := 0x8, w1c := 0x3FF },
  { name := "IRQ_ENABLE", off := 0xC, rw := 0x3FF },
  { name := "IRQ_TARGET", off := 0x10, rw := 0xFFFFF },
  { name := "ADM_BUDGET", off := 0x20, reset := 0x03E80DAC, rw := full32 },
  { name := "ADM_RESERVE", off := 0x24, reset := 0x1F4, rw := 0xFFFF },
  { name := "ADM_CFG", off := 0x28, w1s := 0x1 },
  { name := "OVR_TOTAL", off := 0x30 },
  { name := "OVR_EPOCH", off := 0x34 },
  { name := "OVR_STORM", off := 0x38, reset := 0x40, rw := 0xFFFF },
  { name := "OVR_CAUSE", off := 0x40, count := 6 },
  { name := "BTM_BEAT_LO", off := 0x80 },
  { name := "BTM_BEAT_HI", off := 0x84 },
  { name := "BTM_STATUS", off := 0x88 },
  { name := "BTM_OFFSET", off := 0x8C },
  { name := "HM_ERR", off := 0xC0, rc := full32 },
  { name := "HM_LAST", off := 0xC4, reset := 0x7FFF }] ++ [
  { name := "CLASS.CTL", off := 0x1000, count := 32, stride := 0x20, reset := 0x00804100, rw := full32 },
  { name := "CLASS.TIMEOUT", off := 0x1004, count := 32, stride := 0x20, reset := 0x32, rw := 0xFFFF },
  { name := "CLASS.IN_BUR", off := 0x1008, count := 32, stride := 0x20, rw := 0x07FFFFFF },
  { name := "CLASS.OUT_BUR", off := 0x100C, count := 32, stride := 0x20, rw := 0x07FFFFFF },
  { name := "CLASS.STN", off := 0x1010, count := 32, stride := 0x20, reset := 0x00040100, rw := 0x07FFFFFF },
  { name := "HSH.BASE_LO", off := 0x2000, count := 8, stride := 0x40, rw := full32 },
  { name := "HSH.BASE_HI", off := 0x2004, count := 8, stride := 0x40, rw := full32 },
  { name := "HSH.CFG", off := 0x2008, count := 8, stride := 0x40, rw := 0xFF },
  { name := "HSH.PROD", off := 0x200C, count := 8, stride := 0x40 },
  { name := "HSH.CONS", off := 0x2010, count := 8, stride := 0x40, rw := full32 },
  { name := "HSH.TALLY_LO", off := 0x2014, count := 8, stride := 0x40, rw := full32 },
  { name := "HSH.TALLY_HI", off := 0x2018, count := 8, stride := 0x40, rw := full32 },
  { name := "HSH.NOTIFY", off := 0x201C, count := 8, stride := 0x40, rw := 0x80FFFFFF }] ++ [
  { name := "RSH.BASE_LO", off := 0x2200, count := 8, stride := 0x40, rw := full32 },
  { name := "RSH.BASE_HI", off := 0x2204, count := 8, stride := 0x40, rw := full32 },
  { name := "RSH.CFG", off := 0x2208, count := 8, stride := 0x40, rw := 0xFF },
  { name := "RSH.PROD", off := 0x220C, count := 8, stride := 0x40, rw := full32 },
  { name := "RSH.CONS", off := 0x2210, count := 8, stride := 0x40 },
  { name := "RSH.TALLY_LO", off := 0x2214, count := 8, stride := 0x40, rw := full32 },
  { name := "RSH.TALLY_HI", off := 0x2218, count := 8, stride := 0x40, rw := full32 },
  { name := "RSH.NOTIFY", off := 0x221C, count := 8, stride := 0x40, rw := 0x80FFFFFF },
  { name := "LPMU", off := 0x3000, count := 64 },
  { name := "LPMU_CTL", off := 0x3100, rw := 0x3F, w1s := 0xC0000000 },
  { name := "HIST0", off := 0x3200, count := 64 },
  { name := "HIST1", off := 0x3300, count := 64 }]

/-- JRN (Table JRN-12). -/
def jrnRows : List RegRow := [
  { name := "CTL", off := 0x0, rw := 0x1 },
  { name := "STATUS", off := 0x4, reset := 0x3 },
  { name := "IRQ_STATUS", off := 0x8, w1c := 0xFF },
  { name := "IRQ_ENABLE", off := 0xC, rw := 0xFF },
  { name := "IRQ_TARGET", off := 0x10, rw := 0xFFFFF },
  { name := "PROOF_KEY_LO", off := 0x20 },
  { name := "PROOF_KEY_HI", off := 0x24 },
  { name := "WIT_CFG", off := 0x28, reset := 0x64, rw := 0x3FFF },
  { name := "REPLAYS", off := 0x30 },
  { name := "WITNESS_COMMITS", off := 0x34 },
  { name := "COMMIT_MAX", off := 0x38, rc := 0xFFFF },
  { name := "PORT_WAIT_MAX", off := 0x3C, rc := 0xFFFF }] ++ [
  { name := "RING.STATUS", off := 0x1000, count := 17, stride := 0x40, reset := 0x5 },
  { name := "RING.SEQ_NEXT_LO", off := 0x1004, count := 17, stride := 0x40 },
  { name := "RING.SEQ_NEXT_HI", off := 0x1008, count := 17, stride := 0x40 },
  { name := "RING.SEQ_DONE_LO", off := 0x100C, count := 17, stride := 0x40 },
  { name := "RING.SEQ_DONE_HI", off := 0x1010, count := 17, stride := 0x40 },
  { name := "RING.DRAIN_BASE_LO", off := 0x1018, count := 17, stride := 0x40, rw := 0xFFF00000 },
  { name := "RING.DRAIN_BASE_HI", off := 0x101C, count := 17, stride := 0x40, rw := full32 },
  { name := "RING.DRAIN_CFG", off := 0x1020, count := 17, stride := 0x40, rw := 0x1F },
  { name := "RING.DRAIN_HEAD", off := 0x1024, count := 17, stride := 0x40 },
  { name := "RING.DRAIN_RETIRE", off := 0x1028, count := 17, stride := 0x40, rw := full32 },
  { name := "RING.HIGH", off := 0x102C, count := 16, stride := 0x40, reset := 0x540, rw := 0x1FFF },
  { name := "RING16.HIGH", off := 0x142C, reset := 0xC00, rw := 0x1FFF },
  { name := "MIRROR", off := 0x2000, count := 272 }]

/-- Mailbox registers (Table CEL-6). -/
def mbxRows : List RegRow := [
  { name := "DATA", off := 0x0, count := 16, rw := full32 },
  { name := "CTL", off := 0x40, rw := 0xFF, w1s := 0x80000100 },
  { name := "STATUS", off := 0x44 },
  { name := "ACK", off := 0x48 },
  { name := "TIMEOUT", off := 0x4C, reset := 0xC350, rw := 0xFFFFFF },
  { name := "ELAPSED", off := 0x50 },
  { name := "IRQ_TARGET", off := 0x54, rw := 0x800FFFFF },
  { name := "REFUSED", off := 0x58 },
  { name := "CFG", off := 0x5C },
  { name := "RX", off := 0x80, rc := 0x81FF00FF },
  { name := "RX_ACK", off := 0x84, wo := 0xFFFFFF },
  { name := "RX_EXTEND", off := 0x88, wo := 0xFFFFFF },
  { name := "RX_TARGET", off := 0x8C }]
/-- Locks (R12). -/
def lockRows : List RegRow := [{ name := "LOCK", off := 0x0, count := 128 }]
/-- The Cellarer status block (Tables CEL-8, GAR-5, KU-58). -/
def celRows : List RegRow := [
  { name := "STATUS", off := 0x0 },
  { name := "FW_VERSION", off := 0x4 },
  { name := "HEARTBEAT", off := 0x8 },
  { name := "LOCK_ABANDONED", off := 0x10, count := 4, w1c := full32 },
  { name := "MBX_POSTED", off := 0x20, count := 2 },
  { name := "LOCK_BADREL", off := 0x30 },
  { name := "GAR_STATUS", off := 0x100 },
  { name := "GAR_HEAD_LO", off := 0x104, reset := 1 },
  { name := "GAR_HEAD_HI", off := 0x108 },
  { name := "GAR_LOST", off := 0x10C },
  { name := "GAR_FROZEN_DROPS", off := 0x110 },
  { name := "GAR_POST", off := 0x114, reset := 0x400 }] ++ [
  { name := "PWR_CTL", off := 0x200, w1s := 0xC0000001 },
  { name := "PWR_STATUS", off := 0x204 },
  { name := "PWR_TDP", off := 0x208, reset := 0x2BC, rw := 0x3FF },
  { name := "PWR_MEAS", off := 0x20C },
  { name := "TEMP", off := 0x210 },
  { name := "THR_COUNT", off := 0x214 },
  { name := "RST_CAUSE", off := 0x218 },
  { name := "STRAPS", off := 0x21C },
  { name := "HART_RST", off := 0x220, wo := 0xFF },
  { name := "PWR_SD", off := 0x224 },
  { name := "BAY_FMAX", off := 0x400, count := 128, rw := 0xFFFF }]
/-- The RAS control page (Table KU-53). -/
def rasRows : List RegRow := [
  { name := "PROD", off := 0x0 },
  { name := "CONS", off := 0x4, rw := full32 },
  { name := "LOST", off := 0x8, rc := full32 },
  { name := "RAS_IRQ_TARGET", off := 0x10, rw := 0xFFFFF },
  { name := "RAS_WRITER", off := 0x14, rw := 0x800FFF00 },
  { name := "RAS_CFG", off := 0x18, rw := 0x1 }]
/-- DMC[c] (Tables DMC-6, KU-52). -/
def dmcRows : List RegRow := [
  { name := "CTL", off := 0x0, rw := 0x2, w1s := 0x1 },
  { name := "STATUS", off := 0x4 },
  { name := "IRQ_STATUS", off := 0x8, w1c := 0xFF },
  { name := "IRQ_ENABLE", off := 0xC, rw := 0xFF },
  { name := "IRQ_TARGET", off := 0x10, rw := 0xFFFFF },
  { name := "CONFIG", off := 0x20 },
  { name := "INTLV", off := 0x24 },
  { name := "FREQ_REQ", off := 0x30, wo := 0x3 },
  { name := "FREQ_RES", off := 0x34 },
  { name := "TSET", off := 0x40, count := 4 },
  { name := "NREF_CFG", off := 0x50, reset := 0xA, rw := 0x1F },
  { name := "TRAIN_CFG", off := 0x60, reset := 0x00400A3C, rw := 0xFFFF0FFF },
  { name := "TRAIN_STATUS", off := 0x64 },
  { name := "QUEUE_CFG", off := 0x70, reset := 0x10300A00, rw := 0xFFFFFF00 },
  { name := "RAW_WAITS", off := 0x80 },
  { name := "REF_BURSTS", off := 0x84 },
  { name := "NREF", off := 0x88 },
  { name := "HIST_CFG", off := 0x100, reset := 0x00018200, rw := 0xFFFF03, w1s := 0x80000000 },
  { name := "HIST", off := 0x180, count := 32 }] ++ [
  { name := "ECC_CE", off := 0x1000 },
  { name := "ECC_UE", off := 0x1004 },
  { name := "ECC_POISON", off := 0x1008 },
  { name := "CE_HIGH", off := 0x100C, reset := 0x100, rw := 0xFFFF },
  { name := "DEV_CE", off := 0x1040, count := 20 },
  { name := "SCRUB_CTL", off := 0x1100, reset := 0x18000A03, rw := 0xFF00FF03 },
  { name := "SCRUB_LAP", off := 0x1104 },
  { name := "SCRUB_END_LO", off := 0x1108 },
  { name := "SCRUB_END_HI", off := 0x110C },
  { name := "SCRUB_POS", off := 0x1110 },
  { name := "SCRUB_REPAIRS", off := 0x1114 },
  { name := "REMAP", off := 0x1200, count := 32 },
  { name := "POISON", off := 0x1300, count := 128 },
  { name := "POISON_CNT", off := 0x1500 }]
/-- APLIC domains and the machine timer: the manual names the blocks (Table KU-13), the RISC-V specifications their
registers (PRESUMED, log 12). -/
def aplicRows : List RegRow := [{ name := "APLIC", off := 0x0, count := 8192, rw := full32 }]
def timerRows : List RegRow := [
  { name := "MTIMECMP", off := 0x0, count := 512, rw := full32 },
  { name := "MTIME", off := 0x7FF8, count := 2 }]
/-- TWN (Table TWN-7). -/
def twnRows : List RegRow := [
  { name := "CTL", off := 0x0 },
  { name := "STATUS", off := 0x4 },
  { name := "IRQ_STATUS", off := 0x8, w1c := 0x7F },
  { name := "IRQ_ENABLE", off := 0xC, rw := 0x7F },
  { name := "IRQ_TARGET", off := 0x10, rw := 0xFFFFF },
  { name := "PAIR_CODE", off := 0x14 },
  { name := "PAIR_LANES", off := 0x18 },
  { name := "HOME", off := 0x1C },
  { name := "SKEW", off := 0x20 },
  { name := "SKEW_WARN", off := 0x24, reset := 0x3E8, rw := 0xFFFF },
  { name := "LINK_LAT", off := 0x28 },
  { name := "PEER", off := 0x2C },
  { name := "HCRC_ERR", off := 0x30 },
  { name := "RHAX_REFUSED", off := 0x34 }]
/-- NET (Table NET-9). -/
def netRows : List RegRow := [
  { name := "CTL", off := 0x0, rw := 0x1 },
  { name := "STATUS", off := 0x4 },
  { name := "IRQ_STATUS", off := 0x8, w1c := 0x7F },
  { name := "IRQ_ENABLE", off := 0xC, rw := 0x7F },
  { name := "IRQ_TARGET", off := 0x10, rw := 0xFFFFF },
  { name := "PTP", off := 0x20, count := 6 },
  { name := "REASSIGN_REQ", off := 0x40, wo := 0xFFFFF },
  { name := "REASSIGN_RES", off := 0x44 },
  { name := "LANE_SESS", off := 0x100, count := 16 },
  { name := "PORT", off := 0x200, count := 128 },
  { name := "COUNTER", off := 0x400, count := 8 },
  { name := "LISTENER", off := 0x1000, count := 2048 },
  { name := "SESSION", off := 0x400000, count := 1048576 }]
/-- ARK[k] (Table ARK-6). -/
def arkRows : List RegRow := [
  { name := "CTL", off := 0x0, rw := 0x1, w1s := 0x2 },
  { name := "STATUS", off := 0x4 },
  { name := "IRQ_STATUS", off := 0x8, w1c := 0xF },
  { name := "IRQ_ENABLE", off := 0xC, rw := 0xF },
  { name := "IRQ_TARGET", off := 0x10, rw := 0xFFFFF },
  { name := "RING_BASE_LO", off := 0x20, rw := 0xFFFFF000 },
  { name := "RING_BASE_HI", off := 0x24, rw := full32 },
  { name := "RING_CFG", off := 0x28, rw := 0xF },
  { name := "HEAD", off := 0x2C },
  { name := "TAIL", off := 0x30, rw := 0xFFFF },
  { name := "COUNTER", off := 0x40, count := 4 }]
/-- PCIe (Table HST-9). -/
def pcieRows : List RegRow := [
  { name := "PORT.STATUS", off := 0x0, count := 5, stride := 0x100000 },
  { name := "PORT.IRQ_TARGET", off := 0x10, count := 5, stride := 0x100000, rw := 0xFFFFF },
  { name := "PORT.ERR_COUNT", off := 0x20, count := 5, stride := 0x100000 },
  { name := "PCP.STATUS", off := 0x500000 },
  { name := "PCP.PRESENCE", off := 0x500008, reset := 0x4B554200 },
  { name := "HDMA.BASE_LO", off := 0x501000, count := 64, stride := 0x40, rw := 0xFFFFF000 },
  { name := "HDMA.BASE_HI", off := 0x501004, count := 64, stride := 0x40, rw := full32 },
  { name := "HDMA.CFG", off := 0x501008, count := 64, stride := 0x40, rw := 0x800F0000 },
  { name := "HDMA.HEAD", off := 0x50100C, count := 64, stride := 0x40 },
  { name := "HDMA.TAIL", off := 0x501010, count := 64, stride := 0x40, rw := 0xFFFF },
  { name := "HDMA.STATUS", off := 0x501014, count := 64, stride := 0x40, w1c := 0x2 },
  { name := "HDMA.DONE", off := 0x501018, count := 64, stride := 0x40 },
  -- R380: the registers of the RISC-V IOMMU specification
  { name := "IOMMU.CAP_LO", off := 0x800000, reset := 0x24E0E10 },
  { name := "IOMMU.CAP_HI", off := 0x800004, reset := 52 },
  { name := "IOMMU.FCTL", off := 0x800008 },
  { name := "IOMMU.DDTP_LO", off := 0x800010, rw := 0xFFFFFC0F },
  { name := "IOMMU.DDTP_HI", off := 0x800014, rw := 0x3FFFFF },
  { name := "IOMMU.CQB_LO", off := 0x800018, rw := 0xFFFFFC1F },
  { name := "IOMMU.CQB_HI", off := 0x80001C, rw := 0x3FFFFF },
  { name := "IOMMU.CQH", off := 0x800020 },
  { name := "IOMMU.CQT", off := 0x800024, rw := full32 },
  { name := "IOMMU.FQB_LO", off := 0x800028, rw := 0xFFFFFC1F },
  { name := "IOMMU.FQB_HI", off := 0x80002C, rw := 0x3FFFFF },
  { name := "IOMMU.FQH", off := 0x800030, rw := full32 },
  { name := "IOMMU.FQT", off := 0x800034 },
  { name := "IOMMU.CQCSR", off := 0x800048, rw := 0x3, w1c := 0xF00 },
  { name := "IOMMU.FQCSR", off := 0x80004C, rw := 0x3, w1c := 0x300 },
  { name := "IOMMU.IPSR", off := 0x800054, w1c := 0x3 },
  { name := "IOMMU.ICVEC", off := 0x8002F8, rw := 0xFF },
  { name := "IOMMU.MSI_ADDR_LO", off := 0x800300, count := 16, stride := 0x10, rw := 0xFFFFFFFC },
  { name := "IOMMU.MSI_ADDR_HI", off := 0x800304, count := 16, stride := 0x10, rw := 0xFFFFFF },
  { name := "IOMMU.MSI_DATA", off := 0x800308, count := 16, stride := 0x10, rw := full32 },
  { name := "IOMMU.MSI_CTL", off := 0x80030C, count := 16, stride := 0x10, rw := 1 }]
/-- The Strongroom service page (Table STR-9). -/
def strRows : List RegRow := [
  { name := "STATUS", off := 0x0 },
  { name := "ROOT_GEN", off := 0x4 },
  { name := "POOL_FREE", off := 0x8, reset := 0x2800 },
  { name := "SLOTS_USED", off := 0xC, reset := 2 },
  { name := "QUERY", off := 0x10, rw := 0x3FFF },
  { name := "QHANDLE", off := 0x14, count := 2 },
  { name := "QKCV", off := 0x1C },
  { name := "QCOUNT", off := 0x20 }]

def regBlocks : List RegBlock := [
  ⟨"MBX", 0x01000000, 64, 0x1000, mbxRows⟩,
  ⟨"LOCK", 0x01100000, 1, 0x200, lockRows⟩,
  ⟨"CEL", 0x02000000, 1, 0x10000, celRows⟩,
  ⟨"RAS", 0x028FF000, 1, 0x1000, rasRows⟩,
  ⟨"DMC", 0x04000000, 16, 0x400000, dmcRows⟩,
  ⟨"APLIC", 0x0C000000, 2, 0x1000000, aplicRows⟩,
  ⟨"TIMER", 0x0E000000, 1, 0x10000, timerRows⟩,
  ⟨"TWN", 0x31000000, 1, 0x1000000, twnRows⟩,
  ⟨"NET", 0x32000000, 1, 0x1000000, netRows⟩,
  ⟨"ARK", 0x33000000, 4, 0x100000, arkRows⟩,
  ⟨"PCIE", 0x34000000, 1, 0x1000000, pcieRows⟩,
  ⟨"STR", 0x3F000000, 1, 0x1000, strRows⟩,
  ⟨"LANE", 0x10000000, 16, 0x1000000, laneRows⟩,
  ⟨"JRN", 0x30000000, 1, 0x1000000, jrnRows⟩]

/-- The row of offset `o` in a block. -/
def findRow (o : Nat) : List RegRow → Option RegRow
  | [] => none
  | r :: rs =>
    if r.off ≤ o ∧ (o - r.off) % r.stride = 0 ∧ (o - r.off) / r.stride < r.count then some r else findRow o rs

/-- The block that holds an address, with the instance and the offset. -/
def findBlock (a : Nat) : List RegBlock → Option (RegBlock × Nat × Nat)
  | [] => none
  | b :: bs =>
    if b.base ≤ a ∧ a < b.base + b.count * b.size then some (b, (a - b.base) / b.size, (a - b.base) % b.size)
    else findBlock a bs

/-- The register at a physical address. -/
def regRow (a : Nat) : Option RegRow :=
  match findBlock a regBlocks with
  | some (b, _, o) => findRow o b.rows
  | none => none

/-- A register's reset value: the manual's, 0 where no register stands. -/
def regReset (a : Nat) : W32 := match regRow a with
  | some r => BitVec.ofNat 32 r.reset
  | none => 0

/-- What software's write of `v` leaves in a register that held `old`, by the access type of each bit (Table KU-3). -/
def RegRow.write (r : RegRow) (old v : W32) : W32 :=
  let rw := BitVec.ofNat 32 r.rw
  let w1c := BitVec.ofNat 32 r.w1c
  let w1s := BitVec.ofNat 32 r.w1s
  ((old &&& ~~~rw) ||| (v &&& rw)) &&& ~~~(v &&& w1c) ||| (v &&& w1s)

end Sys2Proof.Machine
end

