-- ==== Sys2Proof/Machine/IoState.lean ====
section
/-!
DEFINITION. The state of the PCIe ports, host DMA channels and card functions (R375 to R394), the archive compressors
(R396 to R407), and power, reset and boot (R422 to R435, R439 to R444).
-/

namespace Sys2Proof.Machine
open Sys2Proof

/-- One PCIe link: a sub-port of a physical port. -/
structure PLink where
  up : Bool := false
  /-- 1 to 6: 2.5 to 64 GT/s -/
  speed : Nat := 0
  /-- 0 x4, 1 x8, 2 x16 -/
  width : Nat := 0
  flit : Bool := false
  present : Bool := false
  /-- DPC or hot-plug status: the link went down since it was last up (R392) -/
  fell : Bool := false
  /-- presence changed (surprise hot-plug) -/
  changed : Bool := false
  deriving DecidableEq, Repr

/-- An MSI-X vector: its table entry and its pending bit. -/
structure MsixVec where
  addr : Nat := 0
  data : Nat := 0
  masked : Bool := true
  pend : Bool := false
  deriving DecidableEq, Repr

/-- A card-mode function: 0 the PF, 1 to 64 the VFs. -/
structure PFn where
  bme : Bool := false
  mse : Bool := false
  d3hot : Bool := false
  msixEn : Bool := false
  msixMask : Bool := false
  ats : Bool := false
  /-- a function-level reset is in progress, since this lane-clock stamp -/
  flr : Bool := false
  flrAt : Nat := 0
  /-- VF enabled -/
  on : Bool := false
  /-- completion timeout in µs -/
  timeout : Nat := 50
  cfg : SMap W32 := []
  vecs : SMap MsixVec := []
  deriving DecidableEq, Repr

/-- A host DMA descriptor as copied (Table HST-7). -/
structure HDesc where
  toHost : Bool
  ro : Bool
  translated : Bool
  irq : Bool
  len : Nat
  host : Nat
  loc : Nat
  compl : Nat
  deriving DecidableEq, Repr

/-- One host DMA channel; its registers stand in `State.regs`. -/
structure Hdma where
  owner : Nat := 0
  cur : Option HDesc := none
  /-- outcome of the descriptor in progress; 0 while none has ended it -/
  code : Nat := 0
  /-- bytes moved, bytes asked for -/
  moved : Nat := 0
  asked : Nat := 0
  /-- a Translation Request is outstanding (R389) -/
  waitAts : Bool := false
  /-- outcome of the last failed descriptor -/
  last : Nat := 0
  /-- held by a link down (R392) -/
  linkHeld : Bool := false
  deriving DecidableEq, Repr

/-- Whose read a tag stands for. -/
inductive TagUser where
  | chan (k : Nat)
  | hart (h link : Nat)
  deriving DecidableEq, Repr

/-- An outstanding non-posted request. -/
structure PTag where
  user : TagUser
  /-- offset within the descriptor, and bytes -/
  off : Nat := 0
  len : Nat := 0
  /-- timed out, or outlived an FLR: quarantined; silent when its completion is to be discarded without a log -/
  quar : Bool := false
  silent : Bool := false
  /-- the host page whose translation it was issued under, and whether an Invalidate Request has removed that since -/
  page : Option Nat := none
  stale : Bool := false
  /-- lane-clock stamp of its issue, then of its quarantine -/
  clk : Nat := 0
  deriving DecidableEq, Repr

/-- What a port sends, as far as the manual says that it sends it. -/
inductive PcieTx where
  | msix (fn vec addr data : Nat)
  /-- a memory write of a channel: function, host address, bytes, EP, RO -/
  | write (fn addr : Nat) (b : Bytes) (ep ro : Bool)
  | read (tag addr len : Nat)
  | hartWrite (addr : Nat) (b : Bytes)
  | transReq (fn addr : Nat)
  | invalDone (fn : Nat)
  /-- the IOMMU's ATS Invalidate Request to a downstream device: requester ID, payload -/
  | atsInval (rid payload : Nat)
  /-- an error message of the endpoint to the host (R395) -/
  | err (fn code : Nat)
  /-- a completion for an inbound request: status 0 success, 1 UR, 2 RRS, 4 CA -/
  | cpl (rid status : Nat) (b : Bytes) (ep : Bool)
  deriving DecidableEq, Repr

/-- The PCIe unit. -/
structure Pcie where
  links : SMap PLink := []
  fns : SMap PFn := []
  hdma : SMap Hdma := []
  tags : SMap (Option PTag) := []
  /-- address translation cache: function, host page, translated page; newest first, 512 entries -/
  atc : List (Nat × Nat × Nat) := []
  /-- functions whose Invalidate Completion is owed -/
  inval : List Nat := []
  /-- IOMMU interrupt vectors whose message is held by their mask -/
  iommuPend : List Nat := []
  vfEn : Bool := false
  numVfs : Nat := 0
  out : List PcieTx := []
  deriving DecidableEq, Repr

/-- An archive descriptor as copied when it starts (Table ARK-2). -/
structure ArkRun where
  op : Nat
  irq : Bool
  last : Bool
  forceRaw : Bool
  inLen : Nat
  inA : Nat
  outA : Nat
  outMax : Nat
  seqBase : Nat
  maxBlocks : Nat
  compl : Nat
  /-- R405 failed -/
  bad : Bool
  /-- blocks whose self-verification fails (R400), and a data error met in the input (R407) -/
  failing : List Nat
  dataError : Bool
  deriving DecidableEq, Repr

/-- One archive compressor; CTL.EN and the ring registers stand in `State.regs`. -/
structure Ark where
  cur : Option ArkRun := none
  abort : Bool := false
  halted : Bool := false
  code : Nat := 0
  deriving DecidableEq, Repr

/-- Power, reset and boot. -/
structure Pwr where
  /-- SB_PWRGD and PWRGD are high; the main domain is out of reset -/
  standby : Bool := true
  pwrgd : Bool := false
  mainUp : Bool := false
  straps : Nat := 0
  /-- PWR_STATUS.BOOT and .SD, PWR_SD -/
  boot : Nat := 0
  sd : Nat := 0
  sdCode : Nat := 0
  sdLanes : Nat := 0
  mainOff : Bool := false
  thermTrip : Bool := false
  /-- PROCHOT_N: driven by the device, asserted by the board; lane-clock stamp from which the pin is sampled again -/
  prochotOut : Bool := false
  prochotIn : Bool := false
  prochotRel : Nat := 0
  /-- bays whose sensor holds a thermal reduction, dies whose regulator failed -/
  hotBays : List Nat := []
  avsDies : List Nat := []
  /-- frequency ceiling by bay in MHz, and net power steps below the highest (R431) -/
  ceil : SMap Nat := []
  psteps : Nat := 0
  belowBase : Bool := false
  /-- epochs of the last BELOW_BASE records, set and cleared (R431) -/
  belowRec : Option Nat × Option Nat := (none, none)
  corePower : Nat := 0
  pkgPower : Nat := 0
  bayTemps : SMap Nat := []
  tempIod : Nat := 0
  throttles : Nat := 0
  warmCount : Nat := 0
  ignored : Nat := 0
  cause : Nat := 0
  /-- cause the next main cold start will show: 0 the full cold reset's, 1 orderly, 4 trip, 5 clock loss, 6 power loss -/
  nextCause : Nat := 0
  /-- a warm reset is in progress -/
  warm : Bool := false
  /-- a firmware image runs: the mask ROM has verified one -/
  fwOk : Bool := false
  dramReady : Bool := false
  /-- lane-clock stamps: DRAM became ready; PWRGD fell -/
  dramClk : Nat := 0
  fallClk : Nat := 0
  released : Bool := false
  /-- lane-clock stamp of the cold reset from which mtime counts (R251) -/
  mtime0 : Nat := 0
  /-- the debug module: dmcontrol.dmactive, accesses refused while locked (R254, R255) -/
  dmactive : Bool := false
  dmRefused : Nat := 0
  /-- halt and resume groups by hart, and the program buffer (R254) -/
  haltGrp : SMap Nat := []
  resGrp : SMap Nat := []
  progbuf : SMap W32 := []
  deriving DecidableEq, Repr

end Sys2Proof.Machine
end

