-- ==== Sys2Proof/Machine/JrnState.lean ====
section
/-!
DEFINITION. The journal unit's state: 34 ring copies in journal SRAM, the records waiting at the ports, the drain and
the proofs.
-/

namespace Sys2Proof.Machine
open Sys2Proof

/-- Who presented a record to a ring (R166). -/
inductive RecSrc where
  | thread (lane t h : Nat)
  | laneHw (lane h : Nat)
  | hart (h rd : Nat)
  | cel
  | jrn
  /-- the source was reset: nobody takes the acknowledgment (R66) -/
  | gone
  deriving DecidableEq, Repr

/-- A record in a ring: its bytes with the header as stored, and how far it has come. -/
structure Rec where
  seq : Nat
  bytes : Bytes
  src : RecSrc
  committed : Bool := false
  /-- acknowledged by the twin (R168) or the witness (R170) -/
  acked : Bool := false
  /-- delayed beyond 40 ns by a replay (R169) -/
  delayed : Bool := false
  retx : Nat := 0
  /-- sent as a witness copy (R170) -/
  wit : Bool := false
  epoch : Nat := 0
  /-- lane cycle of its last transmission, to the twin or as a witness copy (R169, R170) -/
  sentClk : Nat := 0
  deriving DecidableEq, Repr

/-- A record of JRN's own that waits until its ring can take it: a late seal with the records of its epoch, the sequence
number of the first and its flags (R175), or another. -/
inductive LateRec where
  | seal (e : Nat) (recs : List (Nat × Bytes)) (first : Option Nat) (flags : Nat)
  | own (type code size : Nat) (payload : Bytes)
  deriving DecidableEq, Repr

/-- A record waiting at a ring's port before acceptance (R167, R172). -/
structure PortRec where
  src : RecSrc
  agent : Nat
  bytes : Bytes
  hw : Bool := false
  route : Nat := 0x1FFFFFFFFFFF
  overrun : Bool := false
  /-- lane-clock stamp at which it was presented -/
  clk : Nat := 0
  deriving DecidableEq, Repr

/-- One ring's home copy (or, taken over, its active copy). -/
structure Ring where
  seqNext : Nat := 0
  recs : List Rec := []
  waiting : List PortRec := []
  /-- hold reasons in force (Table of RING[k].STATUS.HOLD), lowest code reported first -/
  pairHold : Bool := true
  full : Bool := false
  resync : Bool := false
  /-- the sequence counter is known: a cold reset loses it until the pair forms (R159) -/
  restored : Bool := false
  /-- both twins claimed the lane in service: held until an operator acts (R187) -/
  clash : Bool := false
  divergent : Bool := false
  /-- this device appends to the ring (R158) -/
  online : Bool := false
  closing : Bool := false
  /-- the seal that ends a CLOSING ring has been appended (R435) -/
  closedOk : Bool := false
  /-- a LANE_RELEASE in force until the ring is compared again: 1 KEEP, 2 this device's divergent records yield (R349) -/
  release : Nat := 0
  /-- running epoch hash input: every record accepted in the epoch, and D of the epoch before (R174) -/
  epochRecs : List (Nat × Bytes) := []
  prevD : Bytes := []
  epochHeld : Bool := false
  epochWit : Bool := false
  late : List LateRec := []
  /-- lane cycle of the last acceptance from a port (R166) -/
  accClk : Option Nat := none
  /-- epochs whose proof has not committed, and the committed seals whose signing has not completed (R176) -/
  proofs : List Nat := []
  proofSeals : List Rec := []
  /-- epochs ready to drain after their next seal's commit (R177) -/
  drainEpochs : List Nat := []
  /-- the mirror copy of the twin's ring: its records, the highest sequence number received plus 1, and the number below which
  every record has been received, so that the twin has committed them (R168) -/
  mirror : List Rec := []
  mSeqNext : Nat := 0
  mCount : Nat := 0
  seqDone : Nat := 0
  mPrevD : Bytes := []
  mEpochRecs : List (Nat × Bytes) := []
  deriving DecidableEq, Repr

/-- The journal unit. -/
structure Jrn where
  /-- 1 PAIRED, 2 WITNESS, 3 HELD, 4 RESYNC -/
  mode : Nat := 3
  rings : SMap Ring := []
  /-- the epoch up to whose start every boundary has been sealed (R175) -/
  epochDone : Nat := 0
  proofEn : Bool := false
  proofAlg : Nat := 0
  proofKey : Nat := 0
  deriving DecidableEq, Repr

end Sys2Proof.Machine
end

