-- ==== Sys2Proof/Machine/LaneState.lean ====
section
/-!
DEFINITION. The state of one ledger lane: its messages, threads, engines, tiles, admission queue and shelves.
A lane's registers (Table KU-27) are held by address in `State.regs`; what stands here is the state behind them.
-/

namespace Sys2Proof.Machine
open Sys2Proof

/-- A hallmark record (Table KU-31). -/
structure Hallmark where
  origin : D64 := 0
  chain : D64 := 0
  device : Nat := 0
  flags : Nat := 0
  step : Nat := 0
  lane : Nat := 0
  session : Nat := 0
  beat : Nat := 0
  deriving DecidableEq, Repr

/-- One link of a message's link trace (R145): engine ID, digest, first output tile or 0x7FFF, output begins with a hallmark. -/
structure Link where
  eng : Nat
  digest : D64
  tile : Nat
  isHm : Bool
  deriving DecidableEq, Repr

/-- Where a message stands between minting and its end. -/
inductive Stage where
  /-- inbound candidate -/
  | waitIn
  /-- inbound phase on a thread -/
  | runIn
  /-- post visible, decision awaited (R42) -/
  | awaiting
  /-- outbound or shed candidate -/
  | waitOut
  /-- outbound phase on a thread -/
  | runOut
  /-- disposition acknowledged and phase ended: kept only for an outstanding release -/
  | ended
  deriving DecidableEq, Repr

/-- A booked engine operation of a phase: its engine, code, and booked interval in lane cycles (R55). -/
structure Booking where
  eng : Nat
  opc : Nat
  start : Nat
  stop : Nat
  cond : Bool := false
  /-- false once issued or cancelled -/
  free : Bool := true
  deriving DecidableEq, Repr

/-- The phase a thread runs. -/
structure Phase where
  h : Nat
  cls : Nat
  outbound : Bool
  shed : Bool
  fallback : Bool
  /-- beat number of the deadline boundary (R60) -/
  dlBeat : Nat
  dlCycles : Nat := 0
  stn : Booking
  bur : List Booking
  /-- booked maximum output in bytes (R92) -/
  outMax : Nat
  /-- the phase's booked end in lane cycles (R55) -/
  stop : Nat := 0
  overrun : Bool := false
  /-- lane-cycle stamp of the deadline boundary once it has passed -/
  ovrClk : Nat := 0
  /-- the phase waited for output tiles when it overran (R111) -/
  ovrTiles : Bool := false
  /-- what the phase reports of a rebooking: 0, or 0x15C2 (R58) -/
  report : Code := 0
  /-- a BUR.GO of the phase was rebooked: an overrun's cause is LATE (R83) -/
  burLate : Bool := false
  /-- cycles waited beyond the booking, by cause 0 to 5 (Table KU-23) -/
  waits : List Nat := [0, 0, 0, 0, 0, 0]
  posted : Bool := false
  acked : Bool := false
  ended : Bool := false
  bank : Nat := 0
  /-- stencil loads the lane had seen when the phase was admitted (R93) -/
  stnGen : Nat := 0
  deriving DecidableEq, Repr

/-- One in-flight message (R50, R140, R145). -/
structure Msg where
  hm : Hallmark := {}
  cls : Nat := 0
  first : Nat := 0x7FFF
  len : Nat := 0
  trace : List Link := []
  stage : Stage := .waitIn
  /-- beat number of the boundary at which the decision timeout falls (R42) -/
  toBeat : Nat := 0
  /-- lane-clock stamps of the post becoming visible and of the decision's acceptance (R414) -/
  postClk : Nat := 0
  decClk : Nat := 0
  /-- canonical record bytes as last emitted: length -/
  canonLen : Nat := 0
  canonTile : Nat := 0x7FFF
  /-- return entry accepted by the checker -/
  decision : Option Bytes := none
  /-- first tile of the copied return entry, 0xFFFF_FFFF for none -/
  decTile : Nat := 0xFFFFFFFF
  timedOut : Bool := false
  posted : Bool := false
  /-- disposition record handed to JRN: its type -/
  disp : Option Nat := none
  /-- disposition record acknowledged (R43, R50) -/
  acked : Bool := false
  released : Bool := false
  /-- release handed to NET and not yet accepted (R43, R44) -/
  atPort : Bool := false
  /-- NET's outstanding report for the release (R45) -/
  report : Option Code := none
  undelivered : Bool := false
  overrun : Bool := false
  /-- engine that claims the chain: 0-3 Burin, 4 Stencil (R128) -/
  claim : Option Nat := none
  /-- target device of a Rhax lane transfer (R201) -/
  xfer : Option Nat := none
  mintClk : Nat := 0
  /-- lane-clock stamp of the TILE.RELEASE (R60) -/
  relClk : Nat := 0
  /-- the session it came from has closed since it was minted (R44) -/
  sessGone : Bool := false
  /-- an outbound phase whose thread has ended while its release waits for NET, with that thread (R36) -/
  tail : Option (Nat × Phase) := none
  deriving DecidableEq, Repr

/-- A candidate of the admission unit (R57), in the order in which it became eligible. -/
structure Cand where
  h : Nat
  outbound : Bool
  shed : Bool := false
  cls : Nat
  /-- beat from which its age is counted (R57) -/
  born : Nat := 0
  /-- input bytes charged to its Stencil run (R55) -/
  input : Nat := 0
  /-- input of the shed phase and whether the shed candidate was outbound (R57) -/
  wasOut : Bool := false
  deriving DecidableEq, Repr

/-- What a Stylus thread is doing. -/
inductive ThreadRun where
  | idle
  | run
  | waitTag (rd tag : Nat)
  | waitBeat
  | waitPost (rd shelf h : Nat)
  | waitJrn (rd : Nat)
  /-- a load that reaches beyond tile memory: its bytes, taken in issue order (R72), and where poison was met -/
  | waitLoad (rd addr size : Nat) (signed : Bool) (val : Bytes) (bad : Option Nat)
  | waitGo
  deriving DecidableEq, Repr

/-- One Stylus thread (Tables STY-1 to STY-3). -/
structure Thread where
  run : ThreadRun := .idle
  x : SMap W32 := []
  pc : W32 := 0
  mie : Bool := false
  mpie : Bool := false
  mieBits : W32 := 0
  mip : W32 := 0
  mscratch : W32 := 0
  mepc : W32 := 0
  mcause : W32 := 0
  mtval : W32 := 0
  minstret : Nat := 0
  phase : Option Phase := none
  kphase : W32 := 0
  beatHi : W32 := 0
  waitClk : Nat := 0
  bank : Nat := 0
  deriving DecidableEq, Repr

/-- What a tag stands for. -/
inductive TagKind where
  | stn | bur | digest
  deriving DecidableEq, Repr

/-- An engine tag (R82): owner thread, kind, outcome once completed, and the digest a TILE.DIGEST holds. -/
structure Tag where
  id : Nat
  thr : Nat
  kind : TagKind
  code : Option Code := none
  digest : Option (Nat × D64) := none
  deriving DecidableEq, Repr

/-- Who issued a Burin operation. -/
inductive OpSrc where
  | thread (t tag : Nat)
  | reserve (u : ReserveUnit) (ref : Nat)
  deriving DecidableEq, Repr

/-- A Burin operation that waits at its engine or runs: the copied descriptor and its booked interval (R127). -/
structure BurOp where
  src : OpSrc
  desc : Bytes
  opc : Nat
  key : Nat := 0
  start : Nat
  stop : Nat
  /-- rebooked or reserve work: it may run inside an idle booked interval (R58) -/
  early : Bool := false
  /-- deadline of its phase in lane cycles; 0 for reserve work -/
  dl : Nat := 0
  aux : Bytes := []
  deriving DecidableEq, Repr

/-- A started Burin operation: what the start checks found, and the key and policy it started with (R125). -/
structure BurRun where
  op : BurOp
  startClk : Nat
  refusal : Option Code
  reason : Nat := 0
  material : Bytes := []
  material2 : Bytes := []
  warn : Option Code := none
  /-- class of the key it started with -/
  cls : Nat := 0
  /-- the transient bin a derive has reserved (R121) -/
  bin : Option Nat := none
  polDerived : List Nat := []
  deriving DecidableEq, Repr

/-- One Burin engine: waiting operations in issue order, the running one, and its tail in lane cycles. -/
structure BurEng where
  q : List BurOp := []
  run : Option BurRun := none
  tail : Nat := 0
  /-- booked intervals in lane cycles; one left idle stays (R58) -/
  cal : List (Nat × Nat) := []
  deriving DecidableEq, Repr

/-- A Stencil descriptor waiting at the engine (Table STN-12). -/
structure StnOp where
  thr : Nat
  tag : Nat
  desc : Bytes
  start : Nat
  stop : Nat
  outMax : Nat
  /-- rebooked work: it may run inside an idle booked interval (R58) -/
  early : Bool := false
  deriving DecidableEq, Repr

/-- A suspended Stencil run (R110): what a RESUME needs. -/
structure StnCtx where
  h : Nat
  desc : Bytes
  /-- the whole output of the run, computed from its parse -/
  out : Bytes
  /-- lengths of the complete instructions, in order -/
  cuts : List Nat
  written : Nat
  chain : List Nat
  code : Code
  kind : Nat
  bounded : Bool
  outMax : Nat
  canon : Bool
  mask : Nat := 0
  stencil : Nat := 0
  /-- lane-clock stamp of the suspension (R60) -/
  suspClk : Nat := 0
  /-- stencil loads the lane had seen when its phase was admitted (R93) -/
  stnGen : Nat := 0
  deriving DecidableEq, Repr

/-- A Stencil run in progress: what the start checks found and the stencil it uses. -/
structure StnRun where
  op : StnOp
  startClk : Nat
  refusal : Option Code := none
  bin : Bytes := []
  deriving DecidableEq, Repr

/-- The Stencil engine of a lane. -/
structure StnEng where
  q : List StnOp := []
  run : Option StnRun := none
  ctxs : List StnCtx := []
  tail : Nat := 0
  cal : List (Nat × Nat) := []
  deriving DecidableEq, Repr

/-- A transient working key (R121). -/
structure TransKey where
  h : Nat
  usage : Nat
  aes : Bool
  policy : Nat
  material : Bytes
  gen : Nat
  /-- uses counted against its policy's limit (R123, R126) -/
  uses : Nat := 0
  deriving DecidableEq, Repr

/-- A lane reset in progress (Table KU-25, R67). -/
structure ResetBook where
  agent : Nat
  /-- the clears of Table KU-25 are done; the state changes at the next boundary -/
  cleared : Bool := false
  /-- a reset reload (R349): the new image and whether the lane then enters IN_SERVICE -/
  load : Option (Bytes × Bool) := none
  deriving DecidableEq, Repr

/-- A tile-port transfer (R139, R148). -/
structure PortXfer where
  h : Nat
  first : Nat
  ok : Bool
  deriving DecidableEq, Repr

/-- A loaded stencil (R93): its binary and the runs that still use a replaced copy. -/
structure StencilSlot where
  bin : Bytes := []
  deriving DecidableEq, Repr

/-- One ledger lane. -/
structure Lane where
  /-- Table KU-22 -/
  st : Nat := 0
  /-- applied configuration, by register offset (R69) -/
  live : SMap W32 := []
  applyPending : Bool := false
  admCode : Nat := 0
  /-- active instruction bank and the images of the two banks -/
  bank : Nat := 0
  image0 : Bytes := []
  image1 : Bytes := []
  /-- the old bank still runs phases admitted before a switch (R68) -/
  oldBusy : Bool := false
  stencils : SMap Bytes := []
  /-- replaced stencils by load number × 64 + ID: phases admitted before the load keep them (R93) -/
  oldStencils : SMap Bytes := []
  stnGen : Nat := 0
  /-- tile memory bytes by offset below 0x5D_0000 and from 0x60_0000, and the sideband words by tile -/
  tmem : SMap Byte := []
  side : SMap D64 := []
  msgs : SMap Msg := []
  cands : List Cand := []
  threads : SMap Thread := []
  tags : List Tag := []
  /-- digest tags that a wait or poll retired, kept for HM.DERIVE until their number is reused or their thread ends (R85) -/
  retired : List Tag := []
  digests : List (Nat × Nat) := []
  eng : SMap BurEng := []
  stn : StnEng := {}
  debtBur : Nat := 0
  debtStn : Nat := 0
  /-- units charged to the next boundary by rebooking (R58) -/
  chargeBur : Nat := 0
  chargeStn : Nat := 0
  /-- what the last boundary's scan left: Burin and Stencil budget, and the candidates it may still examine (R56, R57) -/
  scanBur : Int := 0
  scanStn : Int := 0
  scanLeft : Nat := 0
  credit : Nat := 0
  rsvq : List ReserveReq := []
  trans : SMap (Option TransKey) := []
  transGen : Nat := 0
  hshGen : SMap Nat := []
  rshGen : SMap Nat := []
  /-- entries not yet signalled, by shelf: 0-7 hand-off, 8-15 return (R65) -/
  unsig : SMap Nat := []
  reset : Option ResetBook := none
  stormReq : Bool := false
  port : Option PortXfer := none
  /-- frees deferred until a run or transfer ends (R139) -/
  lateFree : List Nat := []
  /-- mcycle origin: the lane clock at the last lane reset -/
  clk0 : Nat := 0
  lpmu : SMap Nat := []
  hist0 : SMap Nat := []
  hist1 : SMap Nat := []
  deriving DecidableEq, Repr

end Sys2Proof.Machine
end

