-- ==== Sys2Proof/Machine/MemState.lean ====
section
/-!
DEFINITION. The state of the memory system: the cache directories (Table KU-41), the L3 slices' eviction buffers and
partitions (R267, R273), the memory controllers (R275 to R296), their error machinery (R297 to R312) and the RAS error
records (R314).
-/

namespace Sys2Proof.Machine
open Sys2Proof

/-- One line in one way of a cache set; sets list their lines most recently used first. State: 1 S, 2 F, 3 E, 4 M
(Table KU-42); in the L3, 4 is dirty and 1 clean. -/
structure CLine where
  line : Nat
  way : Nat
  st : Nat
  deriving DecidableEq, Repr

/-- A write in a controller's queue (R281). -/
structure WEntry where
  ch : Nat
  line : Nat
  data : Bytes
  poisoned : Bool := false
  requester : Nat := 0x1FF
  urgent : Bool := false
  /-- lane clock at which the entry was taken (R283) -/
  clk : Nat := 0
  deriving DecidableEq, Repr

/-- An outstanding fill of a hart (R259): the line, whether it asks for ownership, and the access that waits for it. -/
structure Fill where
  hart : Nat
  line : Nat
  own : Bool
  acc : Option MemAccess := none
  /-- asked for by the instruction side: it goes to the L1I -/
  insn : Bool := false
  deriving DecidableEq, Repr

/-- A remap entry (R310). -/
structure Remap where
  src : Nat
  spare : Nat
  poisoned : Bool
  deriving DecidableEq, Repr

/-- One memory controller. -/
structure Dmc where
  /-- STATUS.STATE: 0 ABSENT, 1 TRAINING, 2 ACTIVE, 3 DEGRADED, 4 CHANGING, 5 FAILED -/
  st : Nat := 0
  /-- the state a frequency change returns to -/
  back : Nat := 2
  pass : Bool := false
  dimms : Nat := 0
  ranks : Nat := 0
  density : Nat := 0
  /-- the lowest rate that the SPD of any DIMM permits, in MT/s (R276) -/
  rateMax : Nat := 6400
  /-- capacity in GiB; membership and slot in the interleave set -/
  cap : Nat := 0
  member : Bool := false
  slot : Nat := 0
  /-- timing sets: rate in MT/s, trained, enabled (R292) -/
  tsets : List (Nat × Bool × Bool) := []
  cur : Nat := 0
  busy : Bool := false
  target : Nat := 0
  deferred : Option Nat := none
  wasDeferred : Bool := false
  freqCode : Nat := 0
  /-- owed refreshes and hot mark by rank (R284, R285) -/
  owed : SMap Nat := []
  hot : SMap Bool := []
  /-- DIMM temperatures last read, and at the last pass -/
  temps : List Nat := []
  passTemps : List Nat := []
  /-- lane clock at the end of the last pass, or of the boot's training (R289) -/
  passAt : Nat := 0
  /-- DQS drift tracked since training (R288) -/
  drift : Int := 0
  /-- reads that wait while no command is issued (R293): line, requester, the error they will meet -/
  rq : List (Nat × Nat × DramErr) := []
  /-- open rows by bank: four times the row plus the rank -/
  openRow : SMap Nat := []
  /-- writes are being drained (R283) -/
  draining : Bool := false
  /-- sampled rows by bank, oldest first (R287) -/
  nq : SMap (List Nat) := []
  passes : Nat := 0
  errs : Nat := 0
  hist : SMap Nat := []
  /-- scrubber (R307 to R309): position, read in flight with its error, cancelled result, laps -/
  scrubPos : Nat := 0
  scrub : Option DramErr := none
  scrubCancel : Bool := false
  lapStart : Nat := 0
  /-- lane clock at the last scrub read and at the last lap's end (R307, R309) -/
  scrubAt : Nat := 0
  lapClk : Nat := 0
  scrubSlow : Bool := false
  /-- lines corrected in this lap and in the one before: line and device (R310) -/
  corrNow : List (Nat × Nat) := []
  corrPrev : List (Nat × Nat) := []
  /-- corrected-error records of the last second: line, device, time (R315) -/
  ceLog : List (Nat × Nat × Nat) := []
  /-- times of the corrected errors of the last second (CE_HIGH) -/
  ceTimes : List Nat := []
  remap : SMap (Option Remap) := []
  /-- poison list: line and reason by entry (R305) -/
  plist : SMap (Option (Nat × Nat)) := []
  /-- answer of the last read: data and outcome code -/
  lastData : Bytes := []
  lastCode : Nat := 0
  deriving DecidableEq, Repr

/-- The memory system. -/
structure Mem where
  l1d : SMap (List CLine) := []
  l1i : SMap (List CLine) := []
  l2 : SMap (List CLine) := []
  l3 : SMap (List CLine) := []
  /-- data of lines with a dirty copy in a cache or a buffer: what every coherent reader sees -/
  dirty : SMap Bytes := []
  evbuf : List (Nat × Nat) := []
  /-- lines in the L2 writeback buffers, by hart (R268) -/
  wbbuf : List (Nat × Nat) := []
  fills : List Fill := []
  /-- harts whose CBO waits for a writeback's acknowledgment: hart, line (R265, R267) -/
  cbo : List (Nat × Nat) := []
  wq : List WEntry := []
  /-- partition masks and assignments, and the change that waits for the next boundary (R273, R274) -/
  pmask : SMap Nat := [(0, 0xFFFF)]
  passign : SMap Nat := []
  ppend : List (Nat × Nat × Nat × Nat) := []
  dmc : SMap Dmc := []
  /-- interleave set, granularity, capacity of a channel in bytes (R277 to R279) -/
  set : List Nat := []
  gran : Bool := false
  cap : Nat := 0
  /-- error-record ring (R314): records by slot, an overflow to mark -/
  ras : SMap Bytes := []
  overflow : Bool := false
  /-- the last answer of a home slice: requester, line, data, data error -/
  resp : Nat × Nat × Bytes × Bool := (0, 0, [], false)
  /-- row failure log in flash: channel and line (R310) -/
  rowLog : List (Nat × Nat) := []
  deriving DecidableEq, Repr

end Sys2Proof.Machine
end

