-- ==== Sys2Proof/Machine/UnitState.lean ====
section
/-!
DEFINITION. The state of the shared units the lanes and the journal lean on: the beat timer, the Garret recorder and
the Strongroom's slots, policies and roots.
-/

namespace Sys2Proof.Machine
open Sys2Proof

/-- The beat timer (R52 to R54). -/
structure Btm where
  running : Bool := false
  beat : Nat := 0
  /-- lane cycles since the current beat's boundary, and its length -/
  cyc : Nat := 0
  len : Nat := 16000
  offset : Int := 0
  holdover : Bool := false
  far : Bool := false
  locked : Bool := false
  /-- NET reports its PTP counter locked (R53) -/
  ptpLocked : Bool := false
  deriving DecidableEq, Repr

/-- A record waiting in a Garret source port (R416). -/
structure GarRec where
  src : Nat
  inst : Nat := 0
  time : Nat := 0
  code : Code := 0
  agent : Nat := 0x1FF
  freeRun : Bool := false
  event : Nat := 0
  arg0 : Nat := 0
  arg1 : Nat := 0
  arg2 : Nat := 0
  deriving DecidableEq, Repr

/-- One attic slot: its header bytes and its image (R420). -/
structure AtticSlot where
  header : Bytes
  image : List (Nat × Bytes)
  trigger : Nat
  epoch : Nat
  serial : Nat
  deriving DecidableEq, Repr

/-- The Garret recorder (R415 to R420). -/
structure Gar where
  queue : List GarRec := []
  /-- ports that lost a record since their last written one: (source, instance) -/
  lossPorts : List (Nat × Nat) := []
  /-- number of the next record -/
  head : Nat := 1
  /-- written slots, by slot -/
  ring : SMap Bytes := []
  lost : Nat := 0
  drops : Nat := 0
  post : Nat := 0x400
  /-- freeze in progress: records still to write before the stop -/
  freezing : Option Nat := none
  frozen : Bool := false
  trigger : Nat := 0
  slot : Nat := 0
  pendFirst : Nat := 0
  pendCount : Nat := 0
  freezeRec : Nat := 0
  trigEpoch : Nat := 0
  /-- GAR_LOST at the freeze; Cellarer cycles of the trigger and of the last pending one -/
  trigLost : Nat := 0
  trigClk : Nat := 0
  pendClk : Nat := 0
  attic : SMap (Option AtticSlot) := []
  serial : Nat := 0
  /-- the standby time counter, in ns (R420) -/
  standby : Nat := 0
  deriving DecidableEq, Repr

/-- A refusal counted under R124: key handle, lane, reason, epoch of the last record, refusals since. -/
structure RefCount where
  key : Nat
  lane : Nat
  reason : Nat
  epoch : Nat
  count : Nat
  deriving DecidableEq, Repr

/-- A ticket of the dual-control procedure (R346 to R348). -/
structure Ticket where
  num : Nat
  nonce : Nat
  digest : Bytes
  cmd : Nat
  kind : Nat
  item : Item
  target : Nat
  /-- lane-clock stamp at which it opened -/
  opened : Nat
  /-- Table CEL-12 -/
  st : Nat := 1
  code : Nat := 0
  /-- epoch of effect once staged -/
  effect : Nat := 0
  /-- roster slots of the officers whose tokens were accepted, and the tokens -/
  officers : List Nat := []
  tokens : List Bytes := []
  /-- the command the ticket opened on -/
  src : ChangeSrc := { cmd := 0, args := [], buf := none, nonce := 0 }
  /-- staged with a paired peer, so that the coordinator's COMMIT decides (R188) -/
  pairWide : Bool := false
  deriving DecidableEq, Repr

/-- What a Rhax message this device sends carries beyond its header. -/
inductive RhaxBody where
  | none
  /-- the home set of a lease message or a fetch -/
  | home (d : Nat)
  /-- WCOPY: ring and record -/
  | copy (ring : Nat) (b : Bytes)
  /-- WCOPY_DATA: rings and records, and whether the last follow -/
  | copies (cs : List (Nat × Bytes)) (last : Bool)
  /-- XFER_OFFER: hallmark record, ROUTE and the chain tag before the last link -/
  | offer (hallmark : Bytes) (route : Nat) (prev : D64)
  | tiles (b : Bytes)
  /-- TIME_ANNOUNCE: grandmaster, BTM_OFFSET, BTM_STATUS and the time -/
  | announce (gm : D64) (off : Int) (st : Nat) (ns : Nat)
  deriving DecidableEq, Repr

/-- A Rhax request that waits for its answer (R200). -/
structure RhaxReq where
  dst : Nat
  mseq : Nat
  type : Nat
  tries : Nat := 1
  /-- lane cycle of its first transmission (R191) -/
  clk : Nat := 0
  /-- lane cycle of its last transmission (R200) -/
  sent : Nat := 0
  body : RhaxBody := .none
  /-- lane and handle of a transfer, the home set of a lease request, or the record of a witness copy -/
  ref : Nat := 0
  deriving DecidableEq, Repr

/-- A Rhax answer or message this device sent: type, destination, sequence number, code. -/
structure RhaxOut where
  type : Nat
  dst : Nat
  mseq : Nat
  code : Nat := 0
  body : RhaxBody := .none
  deriving DecidableEq, Repr

/-- A lease the witness counts (R191, R192): home set, its holder, the other twin, and whether the count has ended. -/
structure WitLease where
  home : Nat
  holder : Option Nat := none
  other : Option Nat := none
  /-- lane cycle in which the witness's count ends -/
  until_ : Nat := 0
  expired : Bool := false
  deriving DecidableEq, Repr

/-- An incoming lane transfer (R201). -/
structure XferIn where
  src : Nat
  mseq : Nat
  hallmark : Bytes
  route : Nat
  /-- the chain tag before the last link -/
  prev : D64 := 0
  body : Bytes := []
  deriving DecidableEq, Repr

/-- What a frame on the mirror link carries (Table TWN-2). -/
inductive TxBody where
  | record (ring seq : Nat) (resync : Bool)
  | beat (beat ns : Nat)
  | drain (ring last : Nat)
  | snap (b : SnapBody)
  | ctl (m : CtlMsg)
  deriving DecidableEq, Repr
/-- A frame sent and not acknowledged: its link sequence number, the acknowledgment vector its header carried, how often it was
sent again, and whether the peer has reported it bad (R183, R184). -/
structure TxFrame where
  lseq : Nat
  body : TxBody
  ack : Nat × Nat
  retx : Nat := 0
  bad : Bool := false
  deriving DecidableEq, Repr

/-- A change in two-phase apply with the peer (R188). -/
structure CtlChange where
  ticket : Nat
  /-- the originating device -/
  dev : Nat
  item : Item
  /-- epoch of effect -/
  epoch : Nat
  prepared : Bool := true
  committed : Bool := false
  acked : Bool := false
  deriving DecidableEq, Repr

/-- Where a takeover stands (R197). -/
inductive TakeStage where
  | none | wantLease | fetching | ready
  deriving DecidableEq, Repr

/-- The twin link, pairing, leases, the witness role and the Rhax fabric. -/
structure Twin where
  deviceId : Nat := 0
  /-- the DOMAIN item in force (Table STR-7) -/
  dom : Option DomainCfg := none
  linkUp : Bool := false
  /-- PAIR field of TWN.STATUS -/
  pair : Nat := 0
  paired : Bool := false
  /-- a pair fault was declared, and no pairing has ended since (R190) -/
  fault : Bool := false
  peer : Nat := 0
  /-- FW and FW_MIN of the peer's last accepted manifest (R350) -/
  peerFw : Nat := 0
  peerFwMin : Nat := 0
  /-- effective home mask and its configured value -/
  home : Nat := 0
  homeCfg : Nat := 0
  /-- pairing attempts stop after a refusal until PAIR_START, a set-up change or a load (R181) -/
  noRetry : Bool := false
  nonce : Bytes := []
  peerNonce : Bytes := []
  /-- acknowledgment vector last sent (R183) -/
  ackSent : Nat × Nat := (0, 0)
  /-- the transmit side: the next frame's sequence number, and the last 64 unacknowledged frames (R184) -/
  txLseq : Nat := 0
  txStore : List TxFrame := []
  /-- beat boundaries since the last BEAT frame (R189) -/
  beatMiss : Nat := 0
  lease : Bool := false
  /-- this device has asked for its lease (R191) -/
  leaseAsked : Bool := false
  twinLease : Bool := false
  /-- lane cycles at which this device's counts of the two leases end (R191) -/
  leaseUntil : Nat := 0
  twinUntil : Nat := 0
  witness : Nat := 0
  witProposed : Option Nat := none
  witAcked : Bool := false
  /-- link layer: newest sequence number received and its map -/
  rxLseq : Nat := 0
  rxMap : Nat := 0
  takeover : TakeStage := .none
  takeLanes : Nat := 0
  /-- the epoch at whose boundary a handover's lanes switch (R198) -/
  takeAt : Option Nat := none
  /-- newest shelf state received for each lane (R180) -/
  snapShelf : List (Nat × List (Nat × W32) × List Nat) := []
  /-- the witness role -/
  wLeases : List WitLease := []
  wQuiet : Nat := 0
  /-- copies in the witness area: sender, ring, offset in the area and length (R194) -/
  wCopies : List (Nat × Nat × Nat × Nat) := []
  wDrops : List (Nat × Nat) := []
  /-- Rhax -/
  mseq : SMap Nat := []
  reqs : List RhaxReq := []
  sent : List RhaxOut := []
  answered : List (Nat × Nat × RhaxOut) := []
  outliers : List Nat := []
  /-- devices whose last TIME_ANNOUNCE showed FAR set (R191, R203) -/
  farDevs : List Nat := []
  xfersIn : List XferIn := []
  refusedLog : List RefCount := []
  verifyAns : Option Code := none
  /-- the changes in two-phase apply with the peer (R188) -/
  ctls : List CtlChange := []
  /-- a lane handover in progress: lanes, the epoch named, and the epoch of the switch once the peer has been told (R198) -/
  handover : Option (Nat × Nat × Option Nat) := none
  /-- the mailbox whose PAIR_START waits for the end of the manifest checks -/
  startMbx : Option Nat := none
  deriving DecidableEq, Repr


/-- What a hart waits for. -/
inductive HartWait where
  | none
  | jrn (rd : Nat)
  | beat (rd : Nat) (target : Nat)
  /-- an access waits for its line to be filled (R259) -/
  | line (a : Nat)
  /-- a CBO waits for a fill or for a writeback's acknowledgment: 0 clean, 1 flush, 2 inval, 3 inval discarding; its line -/
  | cbo (op line : Nat)
  /-- a load from a PCIe window waits for its completion (R378): rd, bytes, signed -/
  | pcie (rd size : Nat) (signed : Bool)
  /-- WFI -/
  | wfi
  deriving DecidableEq, Repr

/-- One hart (chapter "Kuren general cores"). CSRs are held by number; an unlisted one reads its reset value. -/
structure Hart where
  x : SMap D64 := []
  f : SMap D64 := []
  v : SMap (BitVec 256) := []
  pc : D64 := 0
  /-- privilege: 3 M, 1 S, 0 U; and V -/
  priv : Nat := 3
  virt : Bool := false
  csr : SMap D64 := []
  wait : HartWait := .none
  /-- length in bytes of the instruction that waits -/
  ilen : Nat := 4
  /-- LR reservation: the line -/
  resv : Option Nat := Option.none
  /-- released from reset (R386) and not halted by the debug module -/
  run : Bool := false
  halted : Bool := false
  /-- the return stack, newest first (R241), and whether the predictor tables hold anything since a flush (R232) -/
  ras : List D64 := []
  trained : Bool := false
  /-- indirect interrupt-file registers by level * 4096 + select -/
  ireg : SMap D64 := []
  /-- vendor counters of this hart (Table PMU-1) -/
  pmu : SMap Nat := []
  deriving DecidableEq, Repr

/-- A Strongroom key slot (R356 to R360). -/
structure KeySlot where
  gen : Nat := 0
  cls : Nat := 0
  policy : Nat := 0
  material : Bytes := []
  held : Bool := false
  uses : Nat := 0
  kcv : Bytes := []
  /-- how the key came: 0 own, 1 generated, 2 imported, 3 components (Table STR-7, PROT) -/
  route : Nat := 0
  /-- the integrity tag has failed: the slot is unusable (Table KU-49) -/
  damaged : Bool := false
  deriving DecidableEq, Repr

/-- The Strongroom (R352 to R363). -/
structure Str where
  /-- slots 0 (attestation) and 8 (transport) are filled at manufacture (R367) -/
  slots : SMap KeySlot := [(0, { gen := 1, cls := 0x2B, held := true }), (8, { gen := 1, cls := 0x22, held := true })]
  policies : SMap (Option Policy) := []
  /-- uses counted against a policy entry through inline keys (R451) -/
  inlineUses : SMap Nat := []
  /-- inline policy index by lane (R451) -/
  inline : SMap Nat := []
  rootGen : Nat := 0
  /-- epoch from which the current root is in force (R141) -/
  rootFrom : Nat := 0
  /-- epoch from which the root before it was in force (R202) -/
  prevFrom : Nat := 0
  /-- policies re-armed or suspended after a cold boot (R355) -/
  suspended : List Nat := []
  refused : List RefCount := []
  roster : List Officer := []
  /-- STATE: COMMISSION while true (R367) -/
  bootstrap : Bool := true
  /-- the administrator set (Table CEL-10); in COMMISSION every hart and the host -/
  admin : List Nat := []
  /-- slots reserved by open tickets, with their pool units (R358) -/
  reserved : List (Nat × Nat) := []
  /-- rollback floor of the Cellarer firmware (R350, R427) -/
  floor : Nat := 0
  /-- the queried slot's answer: handle, KCV, count (Table STR-9) -/
  qHandle : Nat := 0
  qKcv : Nat := 0
  qCount : Nat := 0
  qDone : Bool := false
  qSlot : Nat := 0
  /-- exported key blobs are written at phase two; LANE_FIREWALL and the rest live with their units -/
  unlockHarts : List Nat := []
  unlockSysbus : Bool := false
  unlockExpiry : Nat := 0
  /-- entropy health test failed; reseeding lapsed for 16 epochs (R362) -/
  entFail : Bool := false
  lapsed : Bool := false
  lastReseed : Nat := 0
  /-- usage counts as last sealed in flash, by slot and by inline policy, and whether the last seal was an orderly shutdown (R355) -/
  sealedUses : SMap Nat := []
  sealedInline : SMap Nat := []
  orderly : Bool := false
  deriving DecidableEq, Repr

/-- One mailbox (R325 to R337). -/
structure Mbx where
  /-- Table CEL-4 -/
  st : Nat := 0
  sender : Nat := 0
  seq : Nat := 0
  code : Nat := 0
  late : Bool := false
  orphan : Bool := false
  timeout : Bool := false
  taken : Bool := false
  ackSeq : Nat := 0
  ackCode : Nat := 0
  us : Nat := 50000
  /-- limit in force for the running message, restarted by RX_EXTEND -/
  limit : Nat := 50000
  /-- whether there has been a GO, the lane-clock stamp of the last, and whether its timer runs -/
  gone : Bool := false
  goClk : Nat := 0
  running : Bool := false
  irq : Nat := 0
  refused : Nat := 0
  peer : Nat := 0x1FF
  rxTarget : Nat := 0
  /-- the sender was reset while the message was taken (R333) -/
  lostSender : Bool := false
  /-- order of the GO among posted messages (R336) -/
  goNo : Nat := 0
  data : SMap W32 := []
  deriving DecidableEq, Repr

/-- A change that takes effect at the fourth instruction after the one that makes it (R322): mstatus.MPP (user) or MPRV, an MPU
region register, or the privilege mode that an MRET returns to. -/
inductive CelChange where
  | mpp (user : Bool)
  | mprv (on : Bool)
  | region (i : Nat) (v : W32)
  | mode (user : Bool)
  deriving DecidableEq, Repr
/-- What an interrupt stacks (R321, R322): its priority, the pc, x1 and x5 to x19, the mode and mstatus. -/
structure CelFrame where
  prio : Nat
  pc : W32
  regs : List (Nat × W32)
  user : Bool
  mstatus : W32
  deriving DecidableEq, Repr

/-- The Cellarer core and its status block (R317 to R324). -/
structure Cel where
  /-- CEL.STATUS.STATE: 0 RESET, 1 MASK_ROM, 2 LOADING, 3 READY, 4 RESTARTING -/
  st : Nat := 0
  cause : Nat := 0
  restarts : Nat := 0
  fw : Nat := 0
  heartbeat : Nat := 0
  mbx : SMap Mbx := []
  /-- holders of the locks that are held -/
  locks : SMap Nat := []
  goCount : Nat := 0
  /-- the core (R317): registers, program counter, stacked interrupt frames, newest first -/
  x : SMap W32 := []
  pc : W32 := 0
  frames : List CelFrame := []
  /-- Cellarer cycles left of the long operation in execute (R320) -/
  longOp : Option Nat := none
  sram : SMap Byte := []
  /-- user mode; the CSRs by number; the 16 MPU region registers; the bridge register; the changes of privilege mode and memory
  protection under way, each with the instructions still to issue before it (R322) -/
  user : Bool := false
  csr : SMap W32 := [(0x305, 0x10000000)]
  mpu : SMap W32 := []
  bridge : W32 := 0
  changes : List (Nat × CelChange) := []
  /-- open, staged and the most recent ended tickets (R346, R348) -/
  tickets : List Ticket := []
  nextTicket : Nat := 1
  /-- flash: firmware partitions, undercroft partitions (version, bytes), staging area (bundle, ACTIVATE) -/
  fwCur : Nat × Bytes := (0, [])
  fwPrev : Nat × Bytes := (0, [])
  platCur : Nat × Bytes := (0, [])
  platPrev : Nat × Bytes := (0, [])
  stage : Option (Bytes × Bool) := none
  /-- memory configuration record (R276): four rate codes by channel, and the granularity bit -/
  memRates : SMap (List Nat) := []
  memGran : Bool := false
  /-- the Description Table (R385, R386): built, generation, the body last shown -/
  descBuilt : Bool := false
  descGen : Nat := 0
  descBody : Bytes := []
  deriving DecidableEq, Repr

/-- One entry of the session table (Table NET-6) with what NET keeps for the connection behind it. -/
structure Session where
  st : Nat := 0
  flags : Nat := 0
  listener : Nat := 0
  port : Nat := 0
  framing : Nat := 0
  suite : Nat := 0
  group : Nat := 0
  remote : Bytes := []
  rport : Nat := 0
  lport : Nat := 0
  code : Nat := 0
  addr : Nat := 0
  created : Nat := 0
  msgs : Nat := 0
  ticketGen : Nat := 0
  peer : Bytes := []
  /-- received plaintext not yet framed, and complete messages not yet minted, oldest first -/
  rx : Bytes := []
  ready : List Bytes := []
  /-- bytes in the send buffer, the partner's window, retransmissions of the oldest segment -/
  sndUsed : Nat := 0
  window : Nat := 65535
  retx : Nat := 0
  txRecs : Nat := 0
  rxRecs : Nat := 0
  /-- a handshake slot is held (R210) -/
  hsSlot : Bool := false
  /-- the handshake in progress: its number, its Burin operations, whether a ticket resumed the session, and the digests of the
  peer's certificates, leaf first -/
  hsNum : Nat := 0
  hsOps : Nat := 0
  hsResumed : Bool := false
  hsChain : List Bytes := []
  /-- the receive window is closed for want of tiles (R35) -/
  shut : Bool := false
  /-- lane-clock stamps from which the timers of Table NET-7 run: establishment, the partial message's first byte, the last byte
  received, the partner's window closed with data queued, the partner's close, the takeover -/
  estClk : Nat := 0
  msgClk : Nat := 0
  rxClk : Nat := 0
  stallClk : Nat := 0
  lingerClk : Nat := 0
  reclaimClk : Nat := 0
  deriving DecidableEq, Repr

/-- What NET sends, as far as the manual says that it sends it. -/
inductive NetTx where
  | arpReply (addr : Nat)
  | neighbourAdvert (addr : Nat)
  | echoReply (addr : Nat)
  | announce (addr : Nat)
  | synAck (session : Nat)
  | connect (listener : Nat)
  | data (session : Nat) (b : Bytes)
  | retransmit (session : Nat)
  | probe (session : Nat)
  | keyUpdate (session : Nat)
  | ticket (session gen : Nat)
  | alert (session desc : Nat)
  | closeNotify (session : Nat)
  | fin (session : Nat)
  | rst (session : Nat)
  /-- RST to a connection that gets no session -/
  | refuse (listener : Nat)
  | hello (session : Nat)
  /-- the receive window advertised (R35, R208) -/
  | window (session bytes : Nat)
  deriving DecidableEq, Repr

/-- The network unit. -/
structure Net where
  sessions : SMap Session := []
  addrs : SMap (Option LocalAddr) := []
  listeners : SMap (Option Listener) := []
  trust : SMap Bytes := []
  tx : List NetTx := []
  /-- a PAUSE in force: lane cycle at which it ends, by port; what waits for it to end (R205) -/
  pauseEnd : SMap Nat := []
  txHeld : List (Nat × NetTx) := []
  /-- handshakes started -/
  hsCount : Nat := 0
  /-- announcements still to send, by address (R206) -/
  garp : SMap Nat := []
  /-- echo replies in the current second, by address: second, count -/
  echo : SMap (Nat × Nat) := []
  pmtu : SMap Nat := []
  halfOpen : Nat := 0
  /-- handshake requests waiting for one of a lane's eight places (R211) -/
  hsQ : List (Nat × ReserveReq) := []
  certCache : SMap (List Bytes) := []
  /-- reassignment in progress: session and target lane -/
  move : Option (Nat × Nat) := none
  moveCode : Nat := 0
  /-- lane-clock stamps: the reassignment's request; by address, from when the next announcement may go -/
  moveClk : Nat := 0
  garpClk : SMap Nat := []
  /-- PTP (R225): 0 INIT, 1 ACQUIRING, 2 LOCKED, 3 HOLDOVER -/
  ptp : Nat := 0
  ptpOffset : Int := 0
  ptpGood : Nat := 0
  ptpGm : D64 := 0
  ptpPort : Nat := 0
  ptpBackup : Bool := false
  /-- steps applied to the PTP counter, in ns against the lane clock -/
  ptpShift : Int := 0
  deriving DecidableEq, Repr

end Sys2Proof.Machine
end

