-- ==== Sys2Proof/Machine/State.lean ====
section
/-!
DEFINITION. The whole state of the device as plain data, the reasons a step can stop, and the state after reset.
-/

namespace Sys2Proof.Machine
open Sys2Proof

/-- Reasons a command stops the model with a fault. Closed; every one is safe: the model goes no further. -/
inductive Fault where
  /-- Raised by no meaning of this model: every access the manual gives an outcome is answered with that outcome. Safe. -/
  | none
  deriving DecidableEq, Repr

/-- Reasons a command is refused. Closed. -/
inductive Refusal where
  /-- Raised by an arm of exec for a command without a meaning yet. Safe. -/
  | notModelled (mnemonic : String)
  deriving DecidableEq, Repr

/-- The state of the KU-4200. -/
structure State where
  pending : List Instr := []
  /-- registers by physical address; unlisted: the register's reset value (Table KU-3) -/
  regs : SMap W32 := []
  /-- high words latched by a low-word read: agent, high-word address, value (R11) -/
  latch : List (Nat × Nat × W32) := []
  /-- the value the last read of each agent returned, and whether it was refused -/
  readRes : SMap Nat := []
  readErr : SMap Nat := []
  /-- free values taken so far (model's own field) -/
  free : Nat := 0
  /-- lane cycles since the lane clock started (R71) -/
  laneClk : Nat := 0
  btm : Btm := {}
  lanes : SMap Lane := []
  jrn : Jrn := {}
  /-- the bytes of the DRAM cells by physical address; unlisted: 0. Caches and write queues lie over them (`Mem`) -/
  dram : SMap Byte := []
  /-- caches, controllers and error records -/
  mem : Mem := {}
  /-- lines of DRAM that hold a poison mark (R299) or an uncorrectable error, by line (address ÷ 64) -/
  poison : SMap Unit := []
  /-- boot ROM contents by address; the image is the supplier's (R28) -/
  rom : SMap Byte := []
  /-- end of installed DRAM, DRAM_TOP of the Description Table (R279) -/
  dramTop : Nat := 0x10000000000
  /-- MSIs sent and not taken: hart × 2 + level, identity (R65, R252) -/
  msis : List (Nat × Nat) := []
  /-- results of reserve operations not yet taken by NET or the Strongroom: unit, reference, code, output -/
  rsvDone : List (ReserveUnit × Nat × Code × Bytes) := []
  gar : Gar := {}
  twin : Twin := {}
  str : Str := {}
  harts : SMap Hart := []
  /-- lane firewall entries in force (R371); an unlisted agent has no right -/
  firewall : SMap FirewallEntry := []
  /-- PCIe access windows in force (R372) -/
  windows : List PcieWindow := []
  cel : Cel := {}
  net : Net := {}
  pcie : Pcie := {}
  ark : SMap Ark := []
  pwr : Pwr := {}
  deriving DecidableEq, Repr

/-- The machine right after a full cold reset: nothing listed anywhere, every register at its reset value. -/
def State.reset : State := {}

end Sys2Proof.Machine
end

