-- ==== Sys2Proof/Machine/Base.lean ====
section
/-!
DEFINITION. The first of the named operations on the state: registers, free values, time, interrupts and the Garret
ports.
-/

namespace Sys2Proof.Machine
open Sys2Proof

/-- The answer of every meaning. -/
abbrev Res := Host.Outcome State Fault Refusal

/-! ### Registers -/

/-- The stored value of the register at a physical address. -/
def State.reg (s : State) (a : Nat) : Nat := (SMap.get (regReset a) a s.regs).toNat
/-- Store a register's value, without access-type rules: the hardware's own write. -/
def State.setReg (s : State) (a v : Nat) : State :=
  { s with regs := SMap.set (regReset a) a (BitVec.ofNat 32 v) s.regs }
/-- Count a wrapping 32-bit register up by `k`. -/
def State.incReg (s : State) (a k : Nat) : State := s.setReg a (s.reg a + k)
/-- Count a saturating field [hi:lo] of a register up by one. -/
def State.incField (s : State) (a hi lo : Nat) : State :=
  s.setReg a (setBits (s.reg a) hi lo (satAdd (bits (s.reg a) hi lo) 1 (2 ^ (hi + 1 - lo) - 1)))
def State.setField (s : State) (a hi lo v : Nat) : State := s.setReg a (setBits (s.reg a) hi lo v)

/-- The value the last read of a reader returned: agents by their ID, 0x200 the JTAG ATTIC register, 0x201 I3C. -/
def State.answer (s : State) (a v : Nat) : State :=
  { s with readRes := SMap.set 0 a v s.readRes, readErr := SMap.del a s.readErr }

/-! ### Free values -/

/-- `n` bytes of the next free value. -/
def State.freeBytes (s : State) (n : Nat) : Bytes := (List.range n).map (Config.freeByte s.free)
/-- The next free value as a 64-bit word. -/
def State.freeWord (s : State) : D64 := BitVec.ofNat 64 (Bytes.toNatLE (s.freeBytes 8))
/-- The next free value as a failure code of family `fam` (R13, R14): where the manual names no code. -/
def State.freeFail (s : State) (fam : Nat) : Nat := fam * 256 + 1 + s.freeWord.toNat % 0xBF
/-- The draw has been used. -/
def State.drew (s : State) : State := { s with free := s.free + 1 }

/-! ### Time -/

/-- TAI in ns: the beat timer's count (R54). -/
def State.tai (s : State) : Nat := s.btm.beat * 10000 + min 9999 (s.btm.cyc * 5 / 8)
/-- The current epoch. -/
def State.epoch (s : State) : Nat := s.btm.beat / 100

/-! ### Interrupts -/

/-- An MSI reaches a hart's IMSIC file: the identity becomes pending (level 0 supervisor, 1 machine). -/
def State.sendMsi (s : State) (hart level ident : Nat) : State :=
  let k := (hart * 2 + level, ident)
  if ident = 0 ∨ s.msis.contains k then s else { s with msis := s.msis ++ [k] }
/-- An interrupt described by a NOTIFY-shaped register: hart [7:0], identity [18:8], level [19]. -/
def State.sendTarget (s : State) (v : Nat) : State := s.sendMsi (bits v 7 0) (bits v 19 19) (bits v 18 8)
/-- Set bit `b` of an IRQ_STATUS register at `base + 8`, with ENABLE at + 0xC and TARGET at + 0x10. -/
def State.raiseIrq (s : State) (base b : Nat) : State :=
  let v := s.reg (base + 8)
  let s' := s.setReg (base + 8) (v ||| (1 <<< b))
  if bit (s.reg (base + 0xC)) b && !bit v b then s'.sendTarget (s.reg (base + 0x10)) else s'

/-- An MSI-X message of a card function (R383): sent while the function is up, Bus Master Enable is 1 and MSI-X is enabled
and the vector unmasked; else its pending bit is set. -/
def State.msix (s : State) (fn vec : Nat) : State :=
  let f := SMap.get {} fn s.pcie.fns
  let v := SMap.get {} vec f.vecs
  let p := s.pcie
  if (SMap.get {} 16 p.links).up && f.bme && !f.d3hot && f.msixEn && !f.msixMask && !v.masked then
    { s with pcie := { p with out := p.out ++ [.msix fn vec v.addr v.data] } }
  else { s with pcie := { p with fns := SMap.set {} fn { f with vecs := SMap.set {} vec { v with pend := true } f.vecs } p.fns } }

/-! ### Garret ports (R415, R416) -/

/-- A record's TIME: TAI, or the standby counter while the main domain is down (R420). -/
def State.gStamp (s : State) (r : GarRec) : GarRec :=
  if s.pwr.mainUp then { r with time := s.tai } else { r with time := s.gar.standby, freeRun := true }
/-- A record reaches its source port: lost and counted when the port holds 16; dropped while frozen. -/
def State.gRec (s : State) (r : GarRec) : State :=
  let g := s.gar
  let r := s.gStamp r
  let n := (g.queue.filter (fun q => q.src = r.src ∧ q.inst = r.inst)).length
  if g.frozen then
    { s with gar := { g with drops := (g.drops + 1) % 2 ^ 32, lossPorts := (r.src, r.inst) :: g.lossPorts } }
  else if n ≥ 16 then
    { s with gar := { g with lost := (g.lost + 1) % 2 ^ 32, lossPorts := (r.src, r.inst) :: g.lossPorts } }
  else { s with gar := { g with queue := g.queue ++ [r] } }
/-- A plain event record. -/
def State.gEvt (s : State) (src inst : Nat) (code : Code) (agent a0 a1 a2 : Nat) : State :=
  s.gRec { src := src, inst := inst, code := code, agent := agent, arg0 := a0, arg1 := a1, arg2 := a2 }
/-- A trigger that arrives during a freeze (R419). In the Cellarer cycle of the freeze's own trigger the lowest code is the freeze's;
of the triggers that are first to pend, which share a cycle, the lowest code is PEND_FIRST. -/
def Gar.pend (g : Gar) (now trig who : Nat) : Gar :=
  let first := fun (t : Nat) => if g.pendCount = 0 then t else if g.pendClk = now then min t g.pendFirst else g.pendFirst
  if g.trigClk = now ∧ trig < g.trigger ∧ !g.frozen then
    { g with
      queue := g.queue.map (fun r => if r.src = 0 ∧ r.event = 1 then { r with arg0 := trig, arg1 := who } else r),
      trigger := trig, pendFirst := first g.trigger, pendCount := g.pendCount + 1, pendClk := now }
  else { g with pendFirst := first trig, pendCount := g.pendCount + 1, pendClk := if g.pendCount = 0 then now else g.pendClk }
/-- A freeze trigger (R418, R419): the marker goes ahead of every record; a trigger during a freeze is pending. -/
def State.gFreeze (s : State) (trig who : Nat) : State :=
  let g := s.gar
  let now := s.laneClk / 2
  if g.frozen ∨ g.freezing.isSome then { s with gar := g.pend now trig who }
  else
    let mk := s.gStamp { src := 0, event := 1, arg0 := trig, arg1 := who }
    let slot := match (List.range 8).find? (fun i => (SMap.get none i g.attic).isNone) with
      | some i => i
      | none => ((List.range 8).foldl (fun (b : Nat × Nat) i =>
          let sr := match SMap.get none i g.attic with
            | some a => a.serial
            | none => 0
          if sr < b.2 then (i, sr) else b) (0, 2 ^ 64)).1
    { s with gar := { g with queue := mk :: g.queue, freezing := some (g.post + 1), trigger := trig, slot := slot,
                             pendCount := 0, pendFirst := 0, trigEpoch := s.epoch, trigLost := g.lost, trigClk := now } }
/-- The rates R276 permits a channel: by its DIMM count, and none above the lowest that an SPD permits. -/
def ratePermitted (dimms top rate : Nat) : Bool :=
  (if dimms = 1 then [4800, 5200, 5600, 6000, 6400] else [4800, 5200, 5600]).contains rate && decide (rate ≤ top)

end Sys2Proof.Machine
end

