-- ==== Sys2Proof/Machine/Mem.lean ====
section
/-!
DEFINITION. The operations on memory: sparse bytes, the interleave (R278), the coherent read and write (R261), the L3
directory (R258, R264, R267, R273), poison (R299 to R306) and the RAS error records (R314 to R316).
-/

namespace Sys2Proof.Machine
open Sys2Proof

/-! ### Sparse bytes -/

/-- Bytes `a` to `a + n - 1` of a sparse byte memory; unlisted bytes read 0. -/
def memRead (m : SMap Byte) (a n : Nat) : Bytes := (List.range n).map (fun i => SMap.get 0 (a + i) m)
/-- Write bytes from address `a`, keeping the canonical form. -/
def memWrite (m : SMap Byte) (a : Nat) (b : Bytes) : SMap Byte :=
  (b.zip (List.range b.length)).foldl (fun m p => SMap.set 0 (a + p.2) p.1 m) m
/-- The canonical form of a sparse byte memory: addresses rising, no listed byte that an unlisted one reads as. -/
def Memory.wf (m : SMap Byte) : Bool := SMap.sorted m && SMap.noDefault 0 m

def dramBase : Nat := 0x10000000000
def dramLimit : Nat := 0x50000000000

/-! ### The interleave (R278, R279) -/

def Mem.granule (m : Mem) : Nat := if m.gran then 4096 else 256
/-- Channel and channel-local line index of the line `l` (a physical address ÷ 64). -/
def Mem.place (m : Mem) (l : Nat) : Nat × Nat :=
  let n := max 1 m.set.length
  let d := l * 64 - dramBase
  let g := d / m.granule
  (m.set.getD (g % n) 0, (g / n * m.granule + d % m.granule) / 64)
/-- The line of a channel's local line index: an address above every physical one for the spare region (R279). -/
def Mem.lineAt (m : Mem) (ch k : Nat) : Nat :=
  let n := max 1 m.set.length
  if m.cap / 64 ≤ k + 16384 ∨ !m.set.contains ch then 2 ^ 60 + ch * 2 ^ 50 + k
  else
    let a := k * 64
    let g := a / m.granule * n + m.set.idxOf ch
    (dramBase + g * m.granule + a % m.granule) / 64
def State.dmc (s : State) (c : Nat) : Dmc := SMap.get {} c s.mem.dmc
def State.setDmc (s : State) (c : Nat) (d : Dmc) : State := { s with mem := { s.mem with dmc := SMap.set {} c d s.mem.dmc } }
def State.modDmc (s : State) (c : Nat) (f : Dmc → Dmc) : State := s.setDmc c (f (s.dmc c))
def dmcBase (c : Nat) : Nat := 0x04000000 + c * 0x400000

/-! ### RAS error records (R314 to R316) -/

def rasCtl : Nat := 0x028FF000
/-- The fields of an error record that its writer gives (Table KU-50). -/
structure RasIn where
  code : Nat
  source : Nat := 0
  inst : Nat := 0
  flags : Nat := 0
  requester : Nat := 0x1FF
  pa : Nat := 2 ^ 64 - 1
  device : Nat := 0xFF
  symbols : Nat := 0
  line : Nat := 0
  detail : Nat := 0
/-- Bytes 24 to 35: the DRAM coordinates of a controller's record, all ones for any other source. -/
def rasWhere (cfg : Nat) (r : RasIn) : Bytes :=
  if r.source ≠ 0 then List.replicate 4 0xFF#8 ++ [0xFF#8, 0xFF#8, BitVec.ofNat 8 r.device, BitVec.ofNat 8 r.symbols] ++ List.replicate 4 0xFF#8
  else
    let f := fun (i w : Nat) => Config.dramMap cfg r.line i % 2 ^ w
    Bytes.ofNatLE 4 (f 0 18 + f 1 3 * 2 ^ 18 + f 2 2 * 2 ^ 21 + f 3 1 * 2 ^ 23 + f 4 1 * 2 ^ 24 + f 5 1 * 2 ^ 25)
      ++ Bytes.ofNatLE 2 (f 6 11) ++ [BitVec.ofNat 8 r.device, BitVec.ofNat 8 r.symbols] ++ Bytes.ofNatLE 4 r.line
/-- A record is written, or lost when the ring is full; answers its record number. In card mode vector 0 tells the host of one that
concerns it (R383). -/
def State.rasRec (s : State) (r : RasIn) : State × Option Nat :=
  let prod := s.reg rasCtl
  let cons := s.reg (rasCtl + 4)
  if (prod + 2 ^ 32 - cons) % 2 ^ 32 ≥ 16320 then
    ({ s.incReg (rasCtl + 8) 1 with mem := { s.mem with overflow := true } }, none)
  else
    let d := s.dmc r.inst
    let fl := r.flags + (if s.mem.overflow then 64 else 0)
    let b := Bytes.ofNatLE 2 r.code ++ Bytes.ofNatLE 1 r.source ++ Bytes.ofNatLE 1 r.inst ++ Bytes.ofNatLE 2 fl
      ++ Bytes.ofNatLE 2 r.requester ++ Bytes.ofNatLE 8 r.pa ++ Bytes.ofNatLE 8 s.tai
      ++ rasWhere (d.dimms + 4 * d.ranks + 16 * d.density) r ++ Bytes.ofNatLE 4 r.detail ++ Bytes.zeros 16
      ++ Bytes.ofNatLE 4 prod ++ Bytes.zeros 3 ++ [1#8]
    let s := { s.setReg rasCtl ((prod + 1) % 2 ^ 32) with mem := { s.mem with ras := SMap.put (prod % 16320) b s.mem.ras, overflow := false } }
    let corrected := bit r.flags 0
    let s := if bit s.pwr.straps 0 ∧ r.requester = 273 then s.msix 0 0 else s
    (if !corrected ∨ bit (s.reg (rasCtl + 0x18)) 0 then s.sendTarget (s.reg (rasCtl + 0x10)) else s, some prod)
def State.ras (s : State) (r : RasIn) : State := (s.rasRec r).1
/-- The home slice of a line (R260). -/
def sliceOf (l : Nat) : Nat :=
  let f := fun (i : Nat) => l / 2 ^ (7 * i) % 128
  f 0 ^^^ f 1 ^^^ f 2 ^^^ f 3 ^^^ f 4 ^^^ f 5 ^^^ (l / 2 ^ 42 % 16)
/-- R303: the unit that merges a narrow write, an L1D or a home slice, dropped it; a hart learns it through kerrrec and RAS_WRITER. -/
def State.rasDropped (s : State) (writer line : Nat) : State :=
  let (s, n) := s.rasRec { code := 0x4004, source := if writer < 256 then 2 else 4,
                           inst := if writer < 256 then writer / 2 else sliceOf line, flags := 16, requester := writer,
                           pa := line * 64 }
  if writer < 256 then
    let h := SMap.get {} writer s.harts
    let v := 2 ^ 31 + (match n with
      | some x => x % 16320
      | none => 0xFFFF)
    let s : State := { s with harts := SMap.set {} writer { h with csr := SMap.put 0xDC0 (BitVec.ofNat 64 v) h.csr } s.harts }
    let w := s.reg (rasCtl + 0x14)
    if bit w 31 then s.sendMsi writer (bits w 19 19) (bits w 18 8) else s
  else s

/-! ### The coherent value of a line -/

/-- The data a controller holds for a line: the queued write, else the DRAM cells. -/
def State.memLine (s : State) (l : Nat) : Bytes :=
  match s.mem.wq.find? (fun w => w.line = l) with
  | some w => w.data
  | none => memRead s.dram (l * 64) 64
/-- One byte as every coherent reader sees it: a dirty copy in a cache first. -/
def State.byteAt (s : State) (a : Nat) : Byte :=
  match SMap.find (a / 64) s.mem.dirty with
  | some d => d.getD (a % 64) 0
  | none => match s.mem.wq.find? (fun w => w.line = a / 64) with
    | some w => w.data.getD (a % 64) 0
    | none => SMap.get 0 a s.dram
/-- Coherent read of DRAM. -/
def State.dramRead (s : State) (a n : Nat) : Bytes := (List.range n).map (fun i => s.byteAt (a + i))
def State.dramLE (s : State) (a n : Nat) : Nat := Bytes.toNatLE (s.dramRead a n)
/-- A line on its channel's poison list (R305). -/
def Dmc.listed (d : Dmc) (k : Nat) : Bool := d.plist.any (fun p => match p.2 with
  | some x => x.1 = k
  | none => false)
/-- Whether a read of the line returns a data error: poisoned or listed at its controller, or on a failed channel. -/
def State.linePoisoned (s : State) (l : Nat) : Bool :=
  if (SMap.find l s.mem.dirty).isSome then false
  else
    let (c, k) := s.mem.place l
    if s.mem.set.contains c && (s.dmc c).st = 5 then true
    else match s.mem.wq.find? (fun w => w.line = l) with
      | some w => w.poisoned
      | none => (SMap.find l s.poison).isSome || (s.dmc c).listed k
/-- Whether any line of a range of DRAM reads with a data error. -/
def State.poisoned (s : State) (a n : Nat) : Bool :=
  (List.range ((a + n + 63) / 64 - a / 64)).any (fun i => s.linePoisoned (a / 64 + i))

/-! ### Writes at the controller (R281, R304) -/

/-- A full-line write enters its controller's queue: it replaces a queued one in place, leaves the poison list (R304),
cancels a scrub result for the line (R308), and is discarded by a failed channel (R291). -/
def State.queueWrite (s : State) (l : Nat) (b : Bytes) (poisonMark : Bool) (ag : Nat) : State :=
  let (c, k) := s.mem.place l
  let d := s.dmc c
  if d.st = 5 then s
  else
    let d := { d with plist := d.plist.filter (fun p => match p.2 with
                        | some x => x.1 ≠ k
                        | none => false),
                      scrubCancel := d.scrubCancel || (d.scrub.isSome && decide (d.scrubPos = k)) }
    let w : WEntry := { ch := c, line := l, data := b, poisoned := poisonMark, requester := ag, clk := s.laneClk }
    let wq := if s.mem.wq.any (fun x => x.line = l) then s.mem.wq.map (fun x => if x.line = l then { w with urgent := x.urgent, clk := x.clk } else x)
              else s.mem.wq ++ [w]
    { s with mem := { s.mem with wq := wq, dmc := SMap.set {} c d s.mem.dmc } }

/-! ### The L3 directory -/

def l3Key (l : Nat) : Nat := sliceOf l * 2048 + l % 2048
def Mem.l3Set (m : Mem) (l : Nat) : List CLine := SMap.get [] (l3Key l) m.l3
def Mem.setL3 (m : Mem) (l : Nat) (ls : List CLine) : Mem := { m with l3 := SMap.set [] (l3Key l) ls m.l3 }
/-- The way mask of a requester's partition; 0x1FF stands for the IOD requesters (R273). -/
def Mem.wayMask (m : Mem) (ag : Nat) : Nat := SMap.get 0 (SMap.get 0 ag m.passign) m.pmask
/-- The waiting partition changes take effect at a beat boundary (R274): set-mask flag and partition with mask, assign flag
and agent with partition. -/
def Mem.partApply (m : Mem) : Mem :=
  m.ppend.foldl (fun m c =>
    let m := if bit c.1 0 then { m with pmask := SMap.set 0 (c.1 / 2) c.2.1 m.pmask } else m
    if bit c.2.2.1 0 then { m with passign := SMap.set 0 (c.2.2.1 / 2) c.2.2.2 m.passign } else m) { m with ppend := [] }
/-- The way a fill takes among `ways`, and the line it drives out (R258): the lowest invalid way, else the LRU line. -/
def victim (set : List CLine) (ways : List Nat) : Option (Nat × Option CLine) :=
  match ways.find? (fun w => !set.any (fun x => x.way = w)) with
  | some w => some (w, none)
  | none => (set.reverse.find? (fun x => ways.contains x.way)).map (fun x => (x.way, some x))
/-- Slice `v` has a free eviction-buffer entry (R267). -/
def Mem.evRoom (m : Mem) (v : Nat) : Bool := decide ((m.evbuf.filter (fun p => p.1 = v)).length < 16)
/-- Place a line in its L3 set for a requester; a dirty victim moves to the eviction buffer, and is written back at once
where the buffer has no room. -/
def State.l3Place (s : State) (l ag st : Nat) (mru : Bool) : State :=
  let set := (s.mem.l3Set l).filter (fun x => x.line ≠ l)
  let old := (s.mem.l3Set l).find? (fun x => x.line = l)
  match (match old with
    | some o => some (o.way, none)
    | none => victim set ((List.range 16).filter (fun w => bit (s.mem.wayMask ag) w))) with
  | none => s
  | some (w, v) =>
    let st := match old with
      | some o => max st o.st
      | none => st
    let rest := match v with
      | some x => set.filter (fun y => y.way ≠ x.way)
      | none => set
    let me : CLine := ⟨l, w, st⟩
    let s : State := { s with mem := s.mem.setL3 l (if mru then me :: rest else rest ++ [me]) }
    match v with
    | some x =>
      if x.st = 4 then
        if s.mem.evRoom (sliceOf l) then { s with mem := { s.mem with evbuf := s.mem.evbuf ++ [(sliceOf l, x.line)] } }
        else
          let s := s.queueWrite x.line ((SMap.find x.line s.mem.dirty).getD (s.memLine x.line)) false 0x1FD
          { s with mem := { s.mem with dirty := SMap.del x.line s.mem.dirty } }
      else s
    | none => s
/-- Remove a line from every set of a cache. -/
def dropLine (l : Nat) (m : SMap (List CLine)) : SMap (List CLine) :=
  if m.any (fun p => p.2.any (fun x => x.line = l)) then
    (m.map (fun p => (p.1, p.2.filter (fun x => x.line ≠ l)))).filter (fun p => !p.2.isEmpty)
  else m
/-- Every hart's copy of a line is invalidated, and with it the reservations on it; `keep` is a hart that keeps its own. -/
def State.snoopOut (s : State) (l : Nat) (keep : Option Nat) : State :=
  let mine := fun (key k : Nat) => keep = some (key / k)
  let drop := fun (k : Nat) (m : SMap (List CLine)) =>
    (m.map (fun p => if mine p.1 k then p else (p.1, p.2.filter (fun x => x.line ≠ l)))).filter (fun p => !p.2.isEmpty)
  { s with
    mem := { s.mem with l1d := drop 128 s.mem.l1d, l1i := drop 128 s.mem.l1i, l2 := drop 1024 s.mem.l2 },
    harts := s.harts.map (fun p => if keep ≠ some p.1 ∧ p.2.resv = some l then (p.1, { p.2 with resv := none }) else p) }

/-- A dirty copy of the line stands in an L2, a writeback buffer or the L3. -/
def Mem.dirtyHeld (m : Mem) (l : Nat) : Bool :=
  m.l2.any (fun p => p.2.any (fun x => x.line = l && x.st = 4)) || m.wbbuf.any (fun p => p.2 = l)
    || (m.l3Set l).any (fun x => x.line = l && x.st = 4)
/-- Before new data replaces a line that only an eviction buffer holds dirty, that writeback is ordered at its controller
(R267). -/
def State.evOrder (s : State) (l : Nat) : State :=
  match SMap.find l s.mem.dirty with
  | some b => if s.mem.evbuf.any (fun p => p.2 = l) && !s.mem.dirtyHeld l then s.queueWrite l b false 0x1FD else s
  | none => s

/-- A device's write of `b` at offset `o` of line `l` (Table KU-43): a full line replaces it, a partial one merges after a
read for ownership, and is dropped on a poisoned line (R302, R303); a write marked poisoned goes on with the mark (R304). -/
def State.lineWrite (s : State) (ag l o : Nat) (b : Bytes) (poisonMark : Bool) : State :=
  let full := decide (o = 0) && decide (b.length = 64)
  if !full && s.linePoisoned l then s.rasDropped ag l
  else
    let data := if full then b else ((s.dramRead (l * 64) 64).take o ++ b ++ (s.dramRead (l * 64) 64).drop (o + b.length)).take 64
    let s := (s.evOrder l).snoopOut l none
    if poisonMark then
      let s : State := { s with mem := { s.mem with dirty := SMap.del l s.mem.dirty, l3 := dropLine l s.mem.l3,
                                                    evbuf := s.mem.evbuf.filter (fun p => p.2 ≠ l) } }
      s.queueWrite l data true ag
    else
      let s : State := { s with mem := { s.mem with dirty := SMap.put l data s.mem.dirty } }
      s.l3Place l ag 4 true
/-- Coherent write of DRAM by a device with agent ID `ag` (0x1FF: an IOD unit without one). -/
def State.dramWriteBy (s : State) (ag a : Nat) (b : Bytes) (poisonMark : Bool) : State :=
  if b.isEmpty then s
  else (List.range ((a + b.length + 63) / 64 - a / 64)).foldl (fun s i =>
    let l := a / 64 + i
    let lo := max a (l * 64)
    let hi := min (a + b.length) (l * 64 + 64)
    s.lineWrite ag l (lo - l * 64) ((b.drop (lo - a)).take (hi - lo)) poisonMark) s
/-- Coherent write of DRAM by an IOD unit without an agent ID. -/
def State.dramWrite (s : State) (a : Nat) (b : Bytes) : State := s.dramWriteBy 0x1FF a b false

end Sys2Proof.Machine
end

