-- ==== Sys2Proof/Machine/Ops.lean ====
section
/-!
DEFINITION. The named operations on lanes, threads and messages, and the journal ports.
-/

namespace Sys2Proof.Machine
open Sys2Proof

/-! ### Lanes -/

def laneBase (n : Nat) : Nat := 0x10000000 + n * 0x1000000
def State.lane (s : State) (n : Nat) : Lane := SMap.get {} n s.lanes
def State.setLane (s : State) (n : Nat) (l : Lane) : State := { s with lanes := SMap.set {} n l s.lanes }
def State.modLane (s : State) (n : Nat) (f : Lane → Lane) : State := s.setLane n (f (s.lane n))
/-- A register of lane `n` by its offset. -/
def State.lreg (s : State) (n o : Nat) : Nat := s.reg (laneBase n + o)
def State.setLreg (s : State) (n o v : Nat) : State := s.setReg (laneBase n + o) v
/-- The applied value of a shadowed lane register (R69). -/
def Lane.cfg (l : Lane) (o : Nat) : Nat := (SMap.get (regReset (laneBase 0 + o)) o l.live).toNat
/-- The applied register `o` of class `c` (CTL 0, TIMEOUT 4, IN_BUR 8, OUT_BUR 12, STN 16). -/
def Lane.cls (l : Lane) (c o : Nat) : Nat := l.cfg (0x1000 + 0x20 * c + o)

def Lane.thr (l : Lane) (t : Nat) : Thread := SMap.get {} t l.threads
def Lane.setThr (l : Lane) (t : Nat) (v : Thread) : Lane := { l with threads := SMap.set {} t v l.threads }
def State.thr (s : State) (n t : Nat) : Thread := (s.lane n).thr t
def State.modThr (s : State) (n t : Nat) (f : Thread → Thread) : State :=
  s.modLane n (fun l => l.setThr t (f (l.thr t)))
def Lane.msg (l : Lane) (h : Nat) : Option Msg := SMap.find h l.msgs
def Lane.setMsg (l : Lane) (h : Nat) (m : Msg) : Lane := { l with msgs := SMap.put h m l.msgs }
def State.modMsg (s : State) (n h : Nat) (f : Msg → Msg) : State :=
  s.modLane n (fun l => match l.msg h with
    | some m => l.setMsg h (f m)
    | none => l)
def Lane.burEng (l : Lane) (e : Nat) : BurEng := SMap.get {} e l.eng
def Lane.setBurEng (l : Lane) (e : Nat) (v : BurEng) : Lane := { l with eng := SMap.set {} e v l.eng }
/-- Count lane event `i` of Table PMU-2 up by `k`; 48 bits (R413). -/
def State.lpmu (s : State) (n i k : Nat) : State :=
  s.modLane n (fun l => { l with lpmu := SMap.set 0 i ((SMap.get 0 i l.lpmu + k) % 2 ^ 48) l.lpmu })
/-- The transient keys of message `h` are destroyed (R121). -/
def Lane.dropTrans (l : Lane) (h : Nat) : Lane :=
  { l with trans := l.trans.filter (fun p => p.2.all (fun t => decide (t.h ≠ h))) }
/-- In-flight table entries in use (R50). -/
def Lane.inflight (l : Lane) : Nat := (l.msgs.filter (fun p => !p.2.acked)).length

/-- A Stylus register; x0 reads 0. -/
def Thread.rd (t : Thread) (r : Nat) : W32 := if r = 0 then 0 else SMap.get 0 r t.x
/-- Write a Stylus register; x0 keeps 0. -/
def Thread.wr (t : Thread) (r : Nat) (v : W32) : Thread := if r = 0 then t else { t with x := SMap.set 0 r v t.x }
/-- Write a result and go on after a 4-byte instruction. -/
def Thread.ret (t : Thread) (r : Nat) (v : W32) : Thread :=
  { t.wr r v with pc := t.pc + 4, run := .run, minstret := t.minstret + 1 }

/-! ### Message records -/

/-- A message record: ARG0 and ARG1 name the hallmark (Table GAR-1). -/
def State.gMsg (s : State) (src n h : Nat) (code : Code) (a2 : Nat) : State :=
  let m := ((s.lane n).msg h).getD {}
  s.gEvt src n code (256 + n) (m.hm.beat % 2 ^ 32) (m.hm.session + h * 65536) a2
/-- LANE[n].BTM_STATUS. -/
def State.btmStatus (s : State) : Nat :=
  if s.btm.running then
    s.btm.len * 2 ^ 16 + b2n s.btm.far * 8 + b2n s.btm.holdover * 4 + b2n s.btm.locked * 2 + 1
  else 0

/-! ### The mirror link's transmitter (R183, R184) -/

/-- A frame leaves on the mirror link: it takes the next link sequence number, its header carries the newest acknowledgment
vector, and the transmitter holds it among the last 64 unacknowledged frames. Nothing leaves while the link is down. -/
def State.linkSend (s : State) (b : TxBody) : State :=
  if s.twin.linkUp then
    let f : TxFrame := { lseq := s.twin.txLseq, body := b, ack := (s.twin.rxLseq, s.twin.rxMap) }
    let st := s.twin.txStore ++ [f]
    { s with twin := { s.twin with
      txLseq := (s.twin.txLseq + 1) % 65536, txStore := st.drop (st.length - 64), ackSent := (s.twin.rxLseq, s.twin.rxMap) } }
  else s
/-- A lane's shelf state goes to the twin (R180). -/
def State.snapShelf (s : State) (n : Nat) : State :=
  let l := s.lane n
  let gens := (List.range 8).map (fun k => SMap.get 0 k l.hshGen) ++ (List.range 8).map (fun k => SMap.get 0 k l.rshGen)
  s.linkSend (.snap (.shelf n (l.live.map (fun (p : Nat × W32) => (p.1, p.2))) gens))

/-! ### Journal ports -/

def State.ring (s : State) (k : Nat) : Ring := SMap.get {} k s.jrn.rings
def State.setRing (s : State) (k : Nat) (r : Ring) : State :=
  { s with jrn := { s.jrn with rings := SMap.set {} k r s.jrn.rings } }
def State.modRing (s : State) (k : Nat) (f : Ring → Ring) : State := s.setRing k (f (s.ring k))
/-- A record joins the waiting ones: of those presented in one lane cycle, the lowest agent ID goes first (R166). -/
def enqueueRec (r : PortRec) : List PortRec → List PortRec
  | [] => [r]
  | x :: xs => if x.clk = r.clk ∧ r.agent < x.agent then r :: x :: xs else x :: enqueueRec r xs
/-- A record waits at ring `k`'s port (R167). -/
def State.present (s : State) (k : Nat) (r : PortRec) : State :=
  s.modRing k (fun g => { g with waiting := enqueueRec { r with clk := s.laneClk } g.waiting })
/-- The record header the source writes (Table JRN-2): TYPE, CODE, SIZE, and the payload from byte 32. -/
def recBytes (type code size : Nat) (payload : Bytes) : Bytes :=
  let body := Bytes.zeros 16 ++ Bytes.ofNatLE 8 (type * 2 ^ 40 + code * 2 ^ 48)
    ++ Bytes.ofNatLE 8 (0x1FFFFFFFFFFF + size * 2 ^ 54) ++ payload
  body ++ Bytes.zeros (64 * 2 ^ size - body.length)

/-- Key slot `i` of the Ark. -/
def State.slot (s : State) (i : Nat) : KeySlot := SMap.get {} i s.str.slots

end Sys2Proof.Machine
end

