-- ==== Sys2Proof/Machine/Tiles.lean ====
section
/-!
DEFINITION. Tiles and hallmarks: sideband words, chains, allocation and freeing (R133 to R139), and the tags, digests,
links and checks of the hallmark chain (R140 to R149, R155).
-/

namespace Sys2Proof.Machine
open Sys2Proof

/-! ### Sideband words (Table KU-29) -/

def tileCount : Nat := 23808
/-- The sideband word of a free tile (R134). -/
def freeSide : Nat := 0x00FFFE0000000000
def endTile : Nat := 0x7FFF

def Lane.sideW (l : Lane) (i : Nat) : Nat := (SMap.get (BitVec.ofNat 64 freeSide) i l.side).toNat
def Lane.setSide (l : Lane) (i w : Nat) : Lane :=
  { l with side := SMap.set (BitVec.ofNat 64 freeSide) i (BitVec.ofNat 64 w) l.side }
def sideFill (w : Nat) : Nat := bits w 40 32
def sideNext (w : Nat) : Nat := bits w 55 41
def sideAlloc (w : Nat) : Bool := bit w 56
def mkSide (ingress head : Bool) (next fill crc : Nat) : Nat :=
  b2n ingress * 2 ^ 58 + b2n head * 2 ^ 57 + 2 ^ 56 + next * 2 ^ 41 + fill * 2 ^ 32 + crc

/-- The first `n` payload bytes of tile `i`. -/
def Lane.payload (l : Lane) (i n : Nat) : Bytes := memRead l.tmem (i * 256) n
def Lane.writeMem (l : Lane) (a : Nat) (b : Bytes) : Lane := { l with tmem := memWrite l.tmem a b }

/-- Up to `k` free tiles, lowest first. -/
def pickFree (l : Lane) : Nat → Nat → Nat → List Nat
  | 0, _, _ => []
  | _, _, 0 => []
  | fuel + 1, i, k + 1 =>
    if sideAlloc (l.sideW i) then pickFree l fuel (i + 1) (k + 1) else i :: pickFree l fuel (i + 1) k
def Lane.freeTiles (l : Lane) (k : Nat) : List Nat := pickFree l tileCount 0 k
/-- Write the sideband words of a new chain (R134). -/
def linkNew (l : Lane) (ingress head : Bool) : List Nat → Lane
  | [] => l
  | [i] => l.setSide i (mkSide ingress head endTile 0 0)
  | i :: j :: r => linkNew (l.setSide i (mkSide ingress head j 0 0)) ingress false (j :: r)
/-- TILE.ALLOC of `k` tiles: the first tile, or none when too few are free. -/
def Lane.alloc (l : Lane) (k : Nat) : Option (Nat × Lane) :=
  let ts := l.freeTiles k
  match ts with
  | [] => none
  | t :: _ => if ts.length < k then none else some (t, linkNew l false true ts)

/-- The tiles of the chain that begins at `i`; none when it leaves the tile region, meets a free tile, or loops. -/
def walk (l : Lane) : Nat → List Nat → Nat → Option (List Nat)
  | 0, _, _ => none
  | fuel + 1, seen, i =>
    if i ≥ tileCount ∨ seen.contains i then none
    else
      let w := l.sideW i
      if !sideAlloc w then none
      else if sideNext w = endTile then some (seen ++ [i]) else walk l fuel (seen ++ [i]) (sideNext w)
def Lane.chain (l : Lane) (i : Nat) : Option (List Nat) := walk l (tileCount + 1) [] i

/-- The content of a chain: FILL bytes of each tile. -/
def Lane.content (l : Lane) (ts : List Nat) : Bytes :=
  ts.foldl (fun a i => a ++ l.payload i (sideFill (l.sideW i))) []
/-- Whether a tile passes its check: sealed, and its CRC-32C matches (R134, R137). -/
def Lane.tileOk (l : Lane) (i : Nat) : Bool :=
  let w := l.sideW i
  sideFill w ≠ 0 && (Crypto.crc32c (l.payload i (sideFill w))).toNat = w % 2 ^ 32
/-- The first tile of a list that fails its check. -/
def Lane.badTile (l : Lane) (ts : List Nat) : Option Nat := ts.find? (fun i => !l.tileOk i)
/-- Write FILL and CRC of a tile over its payload as it stands, keeping its other fields. -/
def Lane.seal (l : Lane) (i fill : Nat) : Lane :=
  let w := l.sideW i
  l.setSide i (setBits (setBits w 40 32 fill) 31 0 (Crypto.crc32c (l.payload i fill)).toNat)
/-- Write a sealed tile of a chain. -/
def Lane.putTile (l : Lane) (i : Nat) (b : Bytes) : Lane := (l.writeMem (i * 256) b).seal i b.length
/-- Write bytes into the tiles of a chain, sealing each; the tiles not used are returned. -/
def putChain (l : Lane) : List Nat → Bytes → Lane × List Nat
  | ts, [] => (l, ts)
  | [], _ => (l, [])
  | i :: ts, b => putChain (l.putTile i (b.take 256)) ts (b.drop 256)

/-- The tiles that a started engine run or the tile port holds (R139). -/
def Lane.heldTiles (l : Lane) : List Nat :=
  let of := fun (i : Nat) => (l.chain i).getD []
  let stn := match l.stn.run with
    | some r => of (Bytes.le r.op.desc 4 4) ++ of (Bytes.le r.op.desc 8 4) ++ of (Bytes.le r.op.desc 16 4)
        ++ (if Bytes.le r.op.desc 0 1 % 16 = 3 then (l.stn.ctxs.find? (fun c => c.h = Bytes.le r.op.desc 2 2 % 4096)).elim [] (·.chain)
            else [])
    | none => []
  let bur := l.eng.foldl (fun a p => match p.2.run with
    | some r => match r.op.src with
      | .thread _ _ => if bit (Bytes.le r.op.desc 1 1) 1 then a ++ of (Bytes.le r.op.desc 4 4) ++ of (Bytes.le r.op.desc 28 4) else a
      | _ => a
    | none => a) []
  let port := (match l.port with
    | some x => of x.first
    | none => []) ++ l.msgs.foldl (fun a p => if p.2.atPort then a ++ of (match p.2.trace.getLast? with
      | some x => x.tile
      | none => endTile) else a) []
  stn ++ bur ++ port

/-- A canonical record whose first tile is freed no longer lies in tile memory (R106). -/
def Lane.dropCanon (l : Lane) (ts : List Nat) : Lane :=
  { l with msgs := l.msgs.map (fun (p : Nat × Msg) =>
    if ts.contains p.2.canonTile then (p.1, { p.2 with canonTile := endTile }) else p) }
/-- Free the tile `i` and every tile after it, cutting the chain before it (R139). -/
def Lane.freeNow (l : Lane) (i : Nat) : Lane :=
  let ts := (walk l (tileCount + 1) [] i).getD [i]
  let l := l.side.foldl (fun (a : Lane) p =>
    if sideAlloc p.2.toNat && sideNext p.2.toNat = i then a.setSide p.1 (setBits p.2.toNat 55 41 endTile) else a) l
  ts.foldl (fun a j => a.setSide j freeSide) (l.dropCanon ts)
/-- A free takes effect at once, or when the run or transfer that holds the chain ends (R139). -/
def Lane.free (l : Lane) (i : Nat) : Lane :=
  if i ≥ tileCount ∨ !sideAlloc (l.sideW i) then l
  else if ((l.chain i).getD [i]).any (fun j => l.heldTiles.contains j) then { l with lateFree := l.lateFree ++ [i] }
  else l.freeNow i
/-- Try the deferred frees again, after a run or transfer ended. -/
def Lane.flushFrees (l : Lane) : Lane := l.lateFree.foldl (fun a i => a.free i) { l with lateFree := [] }

/-! ### Hallmark records (Table KU-31) -/

def Hallmark.bytes (m : Hallmark) : Bytes :=
  Bytes.ofNatLE 8 m.origin.toNat ++ Bytes.ofNatLE 8 m.chain.toNat
    ++ Bytes.ofNatLE 8 (m.device % 2 ^ 18 * 2 ^ 40 + m.flags % 2 ^ 12 * 2 ^ 28 + m.step % 256 * 2 ^ 20
        + m.lane % 16 * 2 ^ 16 + m.session % 65536)
    ++ Bytes.ofNatLE 8 (m.beat % 2 ^ 46)
def Hallmark.ofBytes (b : Bytes) : Hallmark :=
  let w := Bytes.le b 16 8
  { origin := BitVec.ofNat 64 (Bytes.le b 0 8), chain := BitVec.ofNat 64 (Bytes.le b 8 8), device := bits w 57 40,
    flags := bits w 39 28, step := bits w 27 20, lane := bits w 19 16, session := bits w 15 0,
    beat := bits (Bytes.le b 24 8) 45 0 }

/-- The hallmark root in force in epoch `e`, where this device holds it (R141): the current one, or the one before it,
which is kept for 1,000 epochs. -/
def State.root (s : State) (e : Nat) : Option Bytes :=
  let k := s.slot (if e ≥ s.str.rootFrom then 2 else 3)
  if k.held ∧ (e ≥ s.str.rootFrom ∨ (e ≥ s.str.prevFrom ∧ s.epoch < s.str.rootFrom + 1000)) then some k.material else none
/-- The beat number a 46-bit beat stamp stands for (R54): the congruent number nearest to the current beat. -/
def State.fullBeat (s : State) (b : Nat) : Nat :=
  let back := (s.btm.beat % 2 ^ 46 + 2 ^ 46 - b % 2 ^ 46) % 2 ^ 46
  if back ≤ 2 ^ 45 then s.btm.beat - back else s.btm.beat + (2 ^ 46 - back)
/-- The epoch key K_e of a device for a beat stamp, e = ⌊BEAT ÷ 100⌋ (R141), under the root in force in the stamp's epoch. -/
def State.epochKey (s : State) (device b : Nat) : Option Bytes :=
  (s.root (s.fullBeat b / 100)).map (fun r =>
    Crypto.aesEnc r ([0x48#8, 0x4D#8, 0x4B#8, 0x31#8] ++ Bytes.ofNatLE 4 device ++ Bytes.ofNatLE 8 (b / 100)))
def State.hmKey (s : State) (m : Hallmark) : Option Bytes := s.epochKey m.device m.beat
/-- This device's epoch key for a message minted now. -/
def State.mintKey (s : State) : Option Bytes := s.epochKey s.twin.deviceId (s.btm.beat % 2 ^ 46)

/-- The origin tag (R142). -/
def originTag (k msg : Bytes) (m : Hallmark) : D64 :=
  Crypto.sipHash k ([0x4F#8] ++ msg ++ Bytes.ofNatLE 4 m.device ++ Bytes.ofNatLE 2 m.session ++ Bytes.ofNatLE 1 m.lane
    ++ Bytes.ofNatLE 2 m.flags ++ [0#8] ++ Bytes.ofNatLE 6 m.beat)
/-- The digest of a link's output (R143). -/
def digestOf (k out : Bytes) : D64 := Crypto.sipHash k ([0x44#8] ++ out)
/-- The chain tag after one link (R144). -/
def linkTag (k : Bytes) (prev d : D64) (eng step : Nat) : D64 :=
  Crypto.sipHash k ([0x43#8] ++ Bytes.ofNatLE 8 prev.toNat ++ Bytes.ofNatLE 8 d.toNat ++ Bytes.ofNatLE 2 eng
    ++ Bytes.ofNatLE 1 step)
/-- The chain recomputed from ORIGIN through the first links of a trace (R146). -/
def recompute (k : Bytes) (origin : D64) (tr : List Link) : D64 :=
  ((tr.zip (List.range tr.length)).foldl (fun c p => linkTag k c p.1.digest p.1.eng (p.2 + 1)) origin)

/-- The digest a chain must show: bytes from 32 on when the output begins with a hallmark (R143). -/
def outDigest (k : Bytes) (isHm : Bool) (b : Bytes) : D64 := digestOf k (if isHm then b.drop 32 else b)

/-- Step 1 of R146 for one input chain of message `m`. -/
def State.inputOk (_s : State) (l : Lane) (m : Msg) (k : Bytes) (first : Nat) : Bool :=
  let b := l.content ((l.chain first).getD [])
  if first = m.first then originTag k b m.hm = m.hm.origin
  else match m.trace.reverse.find? (fun x => x.tile = first) with
    | some x => outDigest k x.isHm b = x.digest
    | none => false
/-- The chain check of R146 over the input chains given: 0, 0x1202 or 0x1204. -/
def State.verifyChains (s : State) (l : Lane) (m : Msg) (ins : List Nat) : Code :=
  match s.hmKey m.hm with
  | none => 0x1204
  | some k =>
    if ins.all (s.inputOk l m k) && recompute k m.hm.origin m.trace = m.hm.chain then 0 else 0x1202

/-- The canonical record's first tile shows the extended hallmark while it lies in tile memory (R106). -/
def Lane.rewriteHm (l : Lane) (m : Msg) : Lane :=
  let t := m.canonTile
  if t < tileCount && sideAlloc (l.sideW t) && l.tileOk t then
    (l.writeMem (t * 256) m.hm.bytes).seal t (sideFill (l.sideW t))
  else l

/-- Extend message `h`'s chain by one link (R144, R145): the new step, or 0x1203 with nothing changed. -/
def State.extend (s : State) (n h eng : Nat) (d : D64) (tile : Nat) (isHm : Bool) : State × Option Nat :=
  match (s.lane n).msg h with
  | none => (s, none)
  | some m =>
    match s.hmKey m.hm with
    | none => (s, none)
    | some k =>
      if m.trace.length ≥ 15 then (s, none)
      else
        let step := m.hm.step + 1
        let hm := { m.hm with chain := linkTag k m.hm.chain d eng step, step := step }
        let m' := { m with hm := hm, trace := m.trace ++ [⟨eng, d, tile, isHm⟩],
                           canonTile := if isHm && tile ≠ endTile then tile else m.canonTile }
        ((s.modLane n (fun l => (l.setMsg h m').rewriteHm m')).lpmu n 31 1, some step)

/-- Why a chain cannot be extended: its key is not held, or its trace is full (Table KU-35). -/
def State.linkCode (s : State) (n h : Nat) : Code :=
  if ((s.lane n).msg h).all (fun m => (s.hmKey m.hm).isNone) then 0x1204 else 0x1203
/-- An integrity failure: Garret record, HM_ERR and HM_LAST (R155, R156). Units: 0 STN, 1 BUR, 2 checker, 3 tile port. -/
def State.hmFail (s : State) (n h unit : Nat) (code : Code) (tile : Nat) : State :=
  let s := s.gMsg (if unit = 0 then 4 else if unit = 1 then 5 else 3) n h code (if code = 0x1201 then tile else 0)
  let a := laneBase n + 0xC0
  let s := if code = 0x1201 then s.incField a 15 0
    else if code = 0x1202 ∨ code = 0x1203 then s.incField a 31 16 else s
  if code ≠ 0x1201 ∧ code ≠ 0x1202 ∧ code ≠ 0x1203 then s
  else if code = 0x1201 then s.setReg (laneBase n + 0xC4) (unit * 2 ^ 28 + h % 4096 * 2 ^ 16 + tile % 2 ^ 15)
  else s.setReg (laneBase n + 0xC4) (unit * 2 ^ 28 + h % 4096 * 2 ^ 16 + 2 ^ 15 + endTile)

/-- Free every tile that a message holds: its ingress chain, its outputs and the copied return entry. -/
def Lane.freeMsgTiles (l : Lane) (m : Msg) : Lane :=
  let ts := m.first :: m.decTile :: m.trace.map (·.tile)
  ts.foldl (fun a i => a.free i) l

/-- The message of lane `n` that a hallmark names, by session ID, beat stamp and origin tag (R64). -/
def Lane.held (l : Lane) (x : Hallmark) : Option (Nat × Msg) :=
  l.msgs.find? (fun p => p.2.hm.session = x.session ∧ p.2.hm.beat = x.beat ∧ p.2.hm.origin = x.origin)

end Sys2Proof.Machine
end

