-- ==== Sys2Proof/Machine/Admission.lean ====
section
/-!
DEFINITION. The admission unit and the lane at a beat boundary: state transitions (R51), the configuration apply (R69),
reserve booking (R59), admission and dispatch (R55 to R58, R81), shedding (R57) and overruns (R60, R61).
-/

namespace Sys2Proof.Machine
open Sys2Proof

/-! ### Journal holds as the lanes see them (R62, R170) -/

/-- The hold a ring is under: Table of RING[k].STATUS.HOLD; 0 for none. -/
def Ring.hold (r : Ring) : Nat :=
  if !r.online then 5 else if r.divergent then 4 else if r.resync || !r.restored then 3 else if r.pairHold || r.clash then 1
  else if r.closing then 6 else if r.full then 2 else 0
/-- JRN permits lane `n`'s commits (STATUS.COMMIT_OK). -/
def State.commitOk (s : State) (n : Nat) : Bool := (s.ring n).hold = 0

/-! ### Programs and threads -/

/-- The image that a bank's phases run (R68): an image that spans both banks stands in bank 0. -/
def Lane.image (l : Lane) (bank : Nat) : Bytes := if bank = 0 then l.image0 else l.image1
def Lane.loaded (l : Lane) : Bool := (l.image l.bank).length ≠ 0
/-- Idle threads among 1 to 7, lowest first. -/
def Lane.idleThreads (l : Lane) : List Nat :=
  ((List.range 8).drop 1).filter (fun t => (l.thr t).run = .idle)

/-- Thread 0 starts at the image's service entry (R81). -/
def Lane.startService (l : Lane) : Lane :=
  let img := l.image l.bank
  let th := l.thr 0
  l.setThr 0 { ({ th with run := .run, pc := BitVec.ofNat 32 (imgService img), mie := false, mcause := 0, phase := none,
                          kphase := 0, bank := l.bank } : Thread) with
      x := SMap.set 0 2 (BitVec.ofNat 32 (0x10000000 + scratchBase img 0 + imgScratch img))
            (SMap.set 0 4 (BitVec.ofNat 32 (0x10000000 + scratchBase img 0)) th.x) }

/-! ### Lane state transitions at a boundary (R51, Table KU-25) -/

/-- The end of a reset, and the moves that CTL drives. -/
def State.laneMove (s : State) (n : Nat) : State :=
  let l := s.lane n
  let ctl := s.lreg n 0
  let admitOn := bit ctl 0
  let drain := bit ctl 2
  match l.st with
  | 4 => match l.reset with
    | some r => if r.cleared then
        let s := s.setLreg n 0 (setBits ctl 1 1 0)
        match r.load with
        | some (img, adm) =>
          let s := s.modLane n (fun l => { l with st := 1, bank := 0, image0 := img, image1 := [], reset := some r })
          (s.setLreg n 0 (setBits (s.lreg n 0) 0 0 (b2n adm))).raiseIrq (laneBase n) 7
        | none =>
          let s := s.modLane n (fun l => { l with reset := none, st := if admitOn then 2 else 0 })
          let s := if admitOn then s.modLane n (·.startService) else s
          s.raiseIrq (laneBase n) 7
      else s
    | none => s
  | 1 => if l.loaded then
      let s := s.modLane n (fun l => { l with reset := none, st := if admitOn && !s.str.bootstrap then 2 else 0 })
      if admitOn && !s.str.bootstrap then s.modLane n (·.startService) else s
    else s
  | 0 => if l.loaded && admitOn && !drain && !s.str.bootstrap then s.modLane n (fun l => ({ l with st := 2 } : Lane).startService) else s
  | 2 => if drain then s.modLane n (fun l => { l with st := 3 }) else s
  | 3 => if !drain then s.modLane n (fun l => { l with st := 2 })
    else if !admitOn && l.inflight = 0 then s.modLane n (fun l => { l with st := 0 }) else s
  | _ => s

/-! ### Configuration apply (R39, R59, R69) -/

/-- The shadow value of a lane register: what stands in the register store. -/
def State.shadow (s : State) (n o : Nat) : Nat := s.lreg n o
def shelfOff (k : Nat) : Nat := if k < 8 then 0x2000 + 0x40 * k else 0x2200 + 0x40 * (k - 8)
def State.base64 (s : State) (n o : Nat) : Nat := s.shadow n o + s.shadow n (o + 4) * 2 ^ 32
/-- Step 1: an enabled shelf's slot area or tally word outside installed DRAM. -/
def State.applyDram (s : State) (n : Nat) : Bool :=
  (List.range 16).any (fun k =>
    let o := shelfOff k
    let cfg := s.shadow n (o + 8)
    let b := s.base64 n o
    let t := s.shadow n (o + 0x14) + s.shadow n (o + 0x18) * 2 ^ 32
    bit cfg 0 && (decide (b < dramBase ∨ b + shelfEntries cfg * shelfSlot cfg > s.dramTop)
      || decide (t < dramBase ∨ t + 8 > s.dramTop)))
/-- Step 2: ranges, shelves that change while not empty, codes of enabled classes, IN_MAX beyond a slot. -/
def State.applyRange (s : State) (n : Nat) : Bool :=
  let l := s.lane n
  let badShelf := (List.range 16).any (fun k =>
    let o := shelfOff k
    let cfg := s.shadow n (o + 8)
    let old := l.cfg (o + 8)
    let changed := l.cfg o ≠ s.shadow n o || l.cfg (o + 4) ≠ s.shadow n (o + 4) || bits old 7 1 ≠ bits cfg 7 1
    let notEmpty := s.shadow n (o + 0xC) ≠ s.shadow n (o + 0x10)
    let nt := s.shadow n (o + 0x1C)
    decide (bits cfg 4 1 > 10) || decide (bits cfg 7 5 > 4) || (changed && notEmpty) || (bit nt 31 && bits nt 18 8 = 0)
      || (bit cfg 0 && (decide (s.shadow n o % 4096 ≠ 0) || decide (s.shadow n (o + 0x14) % 64 ≠ 0))))
  let slots := ((List.range 8).filter (fun k => bit (s.shadow n (shelfOff k + 8)) 0)).map
    (fun k => shelfSlot (s.shadow n (shelfOff k + 8)))
  let badClass := (List.range 32).any (fun c =>
    let o := 0x1000 + 0x20 * c
    let ctl := s.shadow n o
    let stn := s.shadow n (o + 16)
    let ops := burOps (s.shadow n (o + 8)) ++ burOps (s.shadow n (o + 12))
    decide (bits ctl 18 11 = 0) || decide (bits ctl 10 7 = 0) || decide (s.shadow n (o + 4) = 0)
      || decide (bits stn 26 16 = 0 ∨ bits stn 26 16 > 1024)
      || (bit ctl 0 && (ops.any (fun p => (opCycles p.1).isNone || isService p.1)
            || slots.any (fun z => decide (bits stn 15 0 > z)))))
  badShelf || badClass
/-- Step 3: the limits of R59. -/
def State.applyBudget (s : State) (n : Nat) : Bool :=
  let b := s.shadow n 0x20
  decide (bits b 15 0 + bits (s.shadow n 0x24) 15 0 > 4000 ∨ bits b 31 16 > 1000)
/-- Step 4: one engine operation of a class longer than its phase's deadline (R39). -/
def State.applyDeadline (s : State) (n : Nat) : Bool :=
  (List.range 32).any (fun c =>
    let o := 0x1000 + 0x20 * c
    let ctl := s.shadow n o
    let stn := s.shadow n (o + 16)
    let late := fun (out : Bool) =>
      let dl := deadlineOf ctl out * 16000
      (burOps (s.shadow n (o + (if out then 12 else 8)))).any (fun p => decide ((opCycles p.1).getD 0 > dl))
        || decide (stnCycles 0 (outMaxOf stn out) > dl)
    late false || late true)
/-- The first failing check names the code (R69); 0 when the apply succeeds. -/
def State.applyCode (s : State) (n : Nat) : Nat :=
  if s.applyDram n then 0x1502 else if s.applyRange n then 0x1508 else if s.applyBudget n then 0x1507
  else if s.applyDeadline n then 0x1506 else 0
/-- The offsets of the shadowed registers. -/
def shadowOffs : List Nat :=
  [0x20, 0x24] ++ (List.range 32).flatMap (fun c => [0, 4, 8, 12, 16].map (fun o => 0x1000 + 0x20 * c + o))
    ++ (List.range 16).flatMap (fun k => [0, 4, 8, 0x14, 0x18, 0x1C].map (fun o => shelfOff k + o))
/-- A pending apply validates and applies the shadow values together, or refuses (R69). -/
def State.configApply (s : State) (n : Nat) : State :=
  if (s.lane n).applyPending then
    let c := s.applyCode n
    if c = 0 then
      let live := shadowOffs.foldl (fun (m : SMap W32) o =>
        SMap.set (regReset (laneBase 0 + o)) o (BitVec.ofNat 32 (s.shadow n o)) m) (s.lane n).live
      ((s.modLane n (fun l => { l with live := live, applyPending := false, admCode := 0 })).raiseIrq (laneBase n) 5).snapShelf n
    else (s.modLane n (fun l => { l with applyPending := false, admCode := c })).raiseIrq (laneBase n) 6
  else s

/-! ### Booking (R55) -/

/-- Units after the boundary at which an engine's tail ends. -/
def tailUnits (now tail : Nat) : Nat := cdiv (tail - now) 16
/-- The local engine that can start earliest after `t`; the lower number wins a tie. -/
def pickEngine (now t : Nat) (tails : List Nat) : Nat × Nat :=
  (tails.zip (List.range 4)).foldl (fun (b : Nat × Nat) p =>
    let st := max t (tailUnits now p.1)
    if st < b.2 then (p.2, st) else b) (0, max t (tailUnits now (tails.getD 0 0)))

/-- A tentative plan of one phase, in units after the boundary. -/
structure Plan where
  stnStart : Nat
  stnEnd : Nat
  bur : List (Nat × Nat × Nat × Nat × Bool)
  stop : Nat
  tails : List Nat
  units : Nat
  deriving DecidableEq, Repr

/-- Book the Burin operations of a phase in order. -/
def planBur (now slack : Nat) : List (Nat × Bool) → Nat → List Nat → List (Nat × Nat × Nat × Nat × Bool) × Nat × List Nat × Nat
  | [], prev, tails => ([], prev, tails, 0)
  | (c, cond) :: r, prev, tails =>
    let (e, st) := pickEngine now (prev + slack) tails
    let u := opUnits c
    let (bs, stop, ts, tot) := planBur now slack r (st + u) (tails.set e (now + 16 * (st + u)))
    ((e, c, st, st + u, cond) :: bs, stop, ts, tot + u)

/-- The booking of a phase of class `c` with `i` input bytes, at the boundary `now` (R55). -/
def Lane.plan (l : Lane) (now c : Nat) (outbound : Bool) (i : Nat) : Plan :=
  let ctl := l.cls c 0
  let slack := slackOf ctl
  let u := stnUnits i (outMaxOf (l.cls c 16) outbound)
  let st := max slack (tailUnits now l.stn.tail)
  let tails := (List.range 4).map (fun e => (l.burEng e).tail)
  let (bs, last, ts, tot) := planBur now slack (burOps (l.cls c (if outbound then 12 else 8))) (st + u) tails
  { stnStart := st, stnEnd := st + u, bur := bs, stop := last + slack, tails := ts, units := tot }

/-! ### Reserve work (R59, R131) -/

/-- Book an operation at the tail of Burin engine `e`: its interval enters the calendar and the tail moves (R58). -/
def BurEng.book (g : BurEng) (o : BurOp) : BurEng :=
  { g with q := g.q ++ [o], tail := o.stop, cal := g.cal ++ [(o.start, o.stop)] }
/-- Book a reserve request at the tail of the engine that can start it earliest. -/
def Lane.bookReserve (l : Lane) (now : Nat) (r : ReserveReq) : Lane :=
  let (e, st) := pickEngine now 0 ((List.range 4).map (fun e => (l.burEng e).tail))
  let op : BurOp := { src := .reserve r.unit r.ref, desc := r.input, opc := r.opc, key := r.key, start := now + 16 * st,
                      stop := now + 16 * (st + opUnits r.opc), early := true, aux := r.aux }
  l.setBurEng e ((l.burEng e).book op)
/-- Book from the head of the reserve queue for as long as the credit covers the head's cost. -/
def bookReserves (now : Nat) : List ReserveReq → Lane → Lane
  | [], l => { l with rsvq := [] }
  | r :: rs, l =>
    if opUnits r.opc ≤ l.credit then
      bookReserves now rs ({ l with credit := l.credit - opUnits r.opc }.bookReserve now r)
    else { l with rsvq := r :: rs }
/-- The boundary's reserve step: credit grows, up to 16 times ADM_RESERVE.BUR; the queue is booked. -/
def Lane.reserveStep (l : Lane) (now : Nat) : Lane :=
  let add := bits (l.cfg 0x24) 15 0
  let l := { l with credit := min (16 * add) (l.credit + add) }
  if l.st = 1 ∨ l.st = 4 then l else bookReserves now l.rsvq l

/-! ### Admission and dispatch (R56, R81) -/

/-- The class whose booking a candidate uses: SHED_CLASS for a shed path. -/
def candOrder (l : Lane) (cs : List Cand) : List Cand :=
  let key := fun (c : Cand) => (if c.shed then 0 else 2 * bits (l.cls c.cls 0) 2 1) + (if c.outbound then 0 else 1)
  (List.range 8).flatMap (fun k => cs.filter (fun c => key c = k))
/-- The return entry an admission must copy into tiles. -/
def Lane.entryOf (l : Lane) (c : Cand) : Option Bytes :=
  if c.outbound && (!c.shed || c.wasOut) then (match l.msg c.h with
    | some m => m.decision
    | none => none)
  else none

/-- Start a phase on thread `t` with its bookings (R81). -/
def Lane.dispatch (l : Lane) (now beat : Nat) (c : Cand) (p : Plan) (t : Nat) : Lane :=
  match l.msg c.h with
  | none => l
  | some m =>
    let ctl := l.cls c.cls 0
    let dl := deadlineOf ctl c.outbound
    let (l, dt) := match l.entryOf c with
      | some b =>
        if m.decTile = 0xFFFFFFFF then
          match l.alloc (cdiv b.length 256) with
          | some (i, l') => ((putChain l' ((l'.chain i).getD []) b).1, i)
          | none => (l, 0xFFFFFFFF)
        else (l, m.decTile)
      | none => (l, 0xFFFFFFFF)
    let a2 := if !c.outbound || (c.shed && !c.wasOut) then m.first else dt
    let fb := c.outbound && m.timedOut && !c.shed
    let kp := b2n fb * 2 ^ 19 + b2n c.shed * 2 ^ 18 + b2n c.outbound * 2 ^ 17 + c.cls * 2 ^ 12 + c.h
    let img := l.image l.bank
    let mk := fun (b : Nat × Nat × Nat × Nat × Bool) =>
      ({ eng := b.1, opc := b.2.1, start := now + 16 * b.2.2.1, stop := now + 16 * b.2.2.2.1, cond := b.2.2.2.2 } : Booking)
    let ph : Phase := {
      h := c.h, cls := c.cls, outbound := c.outbound, shed := c.shed, fallback := fb, dlBeat := beat + dl,
      dlCycles := dl * 16000, bank := l.bank, stnGen := l.stnGen,
      stn := { eng := 4, opc := 0, start := now + 16 * p.stnStart, stop := now + 16 * p.stnEnd }, bur := p.bur.map mk,
      outMax := outMaxOf (l.cls c.cls 16) c.outbound, stop := now + 16 * p.stop }
    let th := l.thr t
    let w := fun (x : Thread) (r v : Nat) => x.wr r (BitVec.ofNat 32 v)
    let sb := 0x10000000 + scratchBase img t
    let th := w (w (w (w (w (w th 10 c.h) 11 kp) 12 a2) 13 ((beat + dl) % 2 ^ 32)) 4 sb) 2 (sb + imgScratch img)
    let th := { th with run := .run, pc := BitVec.ofNat 32 (imgEntry img c.cls c.outbound), mie := false, mcause := 0,
                        phase := some ph, kphase := BitVec.ofNat 32 kp, bank := l.bank }
    let l := l.setThr t th
    let cal := fun (e : Nat) => (ph.bur.filter (fun b => b.eng = e)).map (fun b => (b.start, b.stop))
    let l := ((p.tails.zip (List.range 4)).foldl (fun (a : Lane) q =>
      let g := a.burEng q.2
      a.setBurEng q.2 { g with tail := q.1, cal := g.cal ++ cal q.2 }) l)
    let l := { l with stn := { l.stn with tail := ph.stn.stop, cal := l.stn.cal ++ [(ph.stn.start, ph.stn.stop)] } }
    let tr := m.trace.map (fun x => if x.eng = 0x400 ∧ x.tile = endTile then { x with tile := dt % 2 ^ 15 } else x)
    l.setMsg c.h { m with stage := if c.outbound then .runOut else .runIn, decTile := dt, trace := tr }

/-- What a scan leaves: the lane, the budgets, the candidates it may still examine, whether a candidate stopped it. -/
structure Scan where
  l : Lane
  bur : Int
  stn : Int
  lim : Nat
  stop : Bool := false

/-- Examine candidates in order; stop at the first that does not fit (R56). -/
def admitScan (now beat : Nat) : List Cand → Nat → Lane → Int → Int → Scan
  | [], lim, l, rb, rs => ⟨l, rb, rs, lim, false⟩
  | c :: cs, lim, l, rb, rs =>
    match lim with
    | 0 => ⟨l, rb, rs, 0, true⟩
    | lim + 1 =>
      if !bit (l.cls c.cls 0) 0 then admitScan now beat cs (lim + 1) l rb rs
      else
        let p := l.plan now c.cls c.outbound c.input
        let need := match l.entryOf c with
          | some b => cdiv b.length 256
          | none => 0
        match l.idleThreads with
        | [] => ⟨l, rb, rs, lim, true⟩
        | t :: _ =>
          if rb ≤ 0 ∨ rs ≤ 0 ∨ p.stop > deadlineOf (l.cls c.cls 0) c.outbound * 999 ∨ (l.freeTiles need).length < need then
            ⟨l, rb, rs, lim, true⟩
          else
            let l' := { (l.dispatch now beat c p t) with cands := l.cands.filter (fun x => x.h ≠ c.h) }
            let l' := { l' with lpmu := let i := if c.outbound then 2 else 1
                                        SMap.set 0 i ((SMap.get 0 i l'.lpmu + 1) % 2 ^ 48) l'.lpmu }
            admitScan now beat cs lim l' (rb - p.units) (rs - (p.stnEnd - p.stnStart))

/-- The lane after a scan: debts are the overdrawn budgets, and the rest stands for the shed paths of this boundary. -/
def Scan.lane (c : Scan) : Lane :=
  { c.l with debtBur := (-c.bur).toNat, debtStn := (-c.stn).toNat, scanBur := c.bur, scanStn := c.stn, scanLeft := c.lim }
/-- Booked intervals that lie in the past leave the calendars. -/
def Lane.pruneCal (l : Lane) (now : Nat) : Lane :=
  let keep := fun (c : List (Nat × Nat)) => c.filter (fun p => decide (now < p.2))
  { l with eng := l.eng.map (fun (p : Nat × BurEng) => (p.1, { p.2 with cal := keep p.2.cal }))
           stn := { l.stn with cal := keep l.stn.cal } }

/-- The whole admission of one lane at the boundary (R55, R56, R62). -/
def State.admitBoundary (s : State) (n : Nat) : State :=
  let l := ((s.lane n).pruneCal s.laneClk).reserveStep s.laneClk
  let rb : Int := bits (l.cfg 0x20) 15 0 - (l.debtBur + l.chargeBur : Nat)
  let rs : Int := bits (l.cfg 0x20) 31 16 - (l.debtStn + l.chargeStn : Nat)
  let l := { l with chargeBur := 0, chargeStn := 0 }
  let c : Scan := if l.st = 2 && s.commitOk n then admitScan s.laneClk s.btm.beat (candOrder l l.cands) 64 l rb rs
    else ⟨l, rb, rs, 64, false⟩
  let s := s.setLane n c.lane
  let s := if c.stop then s.lpmu n 27 1 else s
  if (s.lane n).debtBur = 0 then s else s.lpmu n 28 (s.lane n).debtBur

/-- A shed path that becomes eligible in the lane cycle of a boundary is examined at that boundary (R57), with what the
scan left of the budgets and of its 64 candidates, unless an enabled candidate of its own rank stands before it. -/
def State.admitShed (s : State) (n : Nat) (c : Cand) : State :=
  let l := s.lane n
  let ahead := l.cands.any (fun x => decide (x.h ≠ c.h) && bit (l.cls x.cls 0) 0 && x.outbound
    && (x.shed || decide (bits (l.cls x.cls 0) 2 1 = 0)))
  if s.btm.running && decide (s.btm.cyc = 0) && l.st = 2 && s.commitOk n && !ahead then
    let r := admitScan s.laneClk s.btm.beat [c] l.scanLeft l l.scanBur l.scanStn
    let more := (-r.bur).toNat - l.debtBur
    let s := s.setLane n r.lane
    if more = 0 then s else s.lpmu n 28 more
  else s

/-! ### Notifications (R65) -/

/-- A shelf advanced by `k` entries: signal once 2^COALESCE entries have accumulated. Shelves 0-7 hand-off, 8-15 return. -/
def State.shelfNotify (s : State) (n k cnt : Nat) : State :=
  let l := s.lane n
  let nt := l.cfg (shelfOff k + 0x1C)
  if !bit nt 31 then s
  else
    let u := SMap.get 0 k l.unsig + cnt
    if u ≥ 2 ^ bits nt 23 20 then
      (s.modLane n (fun l => { l with unsig := SMap.set 0 k 0 l.unsig })).sendTarget nt
    else s.modLane n (fun l => { l with unsig := SMap.set 0 k u l.unsig })
/-- At a boundary any entry still unsignalled is signalled. -/
def State.flushNotify (s : State) (n : Nat) : State :=
  (List.range 16).foldl (fun s k =>
    let l := s.lane n
    if SMap.get 0 k l.unsig = 0 then s
    else
      let nt := l.cfg (shelfOff k + 0x1C)
      let s := s.modLane n (fun l => { l with unsig := SMap.set 0 k 0 l.unsig })
      if bit nt 31 then s.sendTarget nt else s) s

/-- Threads asleep in BEAT.WAIT resume, and every thread's BEAT interrupt becomes pending (R87, Table STY-1). -/
def Lane.wakeBeat (l : Lane) : Lane :=
  (List.range 8).foldl (fun l t =>
    let th := l.thr t
    let th := if th.run = .waitBeat then { th with run := .run, pc := th.pc + 4, minstret := th.minstret + 1 } else th
    if th.run = .idle && th.mip = 0 && th.pc = 0 then l else l.setThr t { th with mip := th.mip ||| 0x10000#32 }) l

/-- One lane at a beat boundary. -/
def State.laneBoundary (s : State) (n : Nat) : State :=
  let s := s.laneMove n
  let s := s.configApply n
  let s := s.admitBoundary n
  let s := s.modLane n (·.wakeBeat)
  s.flushNotify n

/-! ### Decision timeouts and shedding (R42, R57) -/

/-- The message becomes an outbound candidate of its class at this boundary. -/
def State.timeoutFire (s : State) (n h : Nat) (m : Msg) : State :=
  let s := s.modLane n (fun l => { l.setMsg h { m with stage := .waitOut, timedOut := true } with
    cands := l.cands ++ [{ h := h, outbound := true, cls := m.cls, born := s.btm.beat + 1, input := m.canonLen }] })
  (s.raiseIrq (laneBase n) 3).lpmu n 9 1

/-- ROUTE of a message record: 3-bit codes of the link trace (R161, Table JRN-4). -/
def routeOf (n : Nat) (tr : List Link) : Nat :=
  let code := fun (e : Nat) => if e = 0x400 then 6 else if e = 0x100 + n then 4 else if e = 0x200 + n then 5 else e % 4
  (List.range 15).foldl (fun a i => a + (match tr[i]? with
    | some x => code x.eng
    | none => 7) * 2 ^ (3 * i)) 0
/-- A message record that the lane's own hardware appends, with the message's hallmark, trace and overrun flag (R160, R161). -/
def hwRec (n h : Nat) (m : Msg) (type code : Nat) : PortRec :=
  { src := .laneHw n h, agent := 256 + n, hw := true, overrun := m.overrun, route := routeOf m.hm.lane m.trace,
    bytes := recBytes type code 0 m.hm.bytes }
/-- A disposition record that the lane's own hardware appends (R57, R78). -/
def State.hwDisposition (s : State) (n h type code : Nat) : State :=
  match (s.lane n).msg h with
  | none => s
  | some m =>
    (s.present n (hwRec n h m type code)).modMsg n h (fun m => { m with disp := some type })

/-- Unused bookings of a message's phase are cancelled; its waiting descriptors are dropped (R58, R78). -/
def Lane.cancelMsg (l : Lane) (h : Nat) : Lane :=
  let thrs := (List.range 8).filter (fun t => match (l.thr t).phase with
    | some p => p.h = h
    | none => false)
  let l := thrs.foldl (fun l t => l.setThr t { l.thr t with phase := none }) l
  let mine := fun (o : BurOp) => match o.src with
    | .thread t _ => thrs.contains t
    | _ => false
  let l := { l with eng := l.eng.map (fun (p : Nat × BurEng) => (p.1, { p.2 with q := p.2.q.filter (fun o => !mine o) })) }
  { l with stn := { l.stn with q := l.stn.q.filter (fun o => !thrs.contains o.thr),
                               ctxs := l.stn.ctxs.filter (fun c => c.h ≠ h) },
           tags := l.tags.filter (fun g => !thrs.contains g.thr) }

/-- A candidate that reached its age limit is shed (R57). -/
def State.shed (s : State) (n : Nat) (c : Cand) : State :=
  let l := s.lane n
  let sc := bits (l.cls c.cls 0) 23 19
  let s := s.modLane n (fun l => { l with cands := l.cands.filter (fun x => x.h ≠ c.h) })
  let s := (s.raiseIrq (laneBase n) 2).lpmu n 7 1
  if sc ≠ 0 then
    let nc : Cand := {
      h := c.h, outbound := true, shed := true, cls := sc, born := s.btm.beat, input := c.input, wasOut := c.outbound }
    let s := s.modLane n (fun l => { l with cands := l.cands ++ [nc] })
    (s.modMsg n c.h (fun m => { m with stage := .waitOut })).admitShed n nc
  else
    let s := s.hwDisposition n c.h 0x84 0x1503
    let m := ((s.lane n).msg c.h).getD {}
    let s := s.modLane n (fun l => (l.freeMsgTiles m).cancelMsg c.h)
    s.modThr n 0 (fun t => { t with mip := t.mip ||| 0x80000#32 })

/-! ### Overruns (R60, R61) -/

/-- The phase's first overrun record, counters and interrupt; the storm threshold. -/
def State.overrun (s : State) (n t : Nat) (p : Phase) (tail : Bool) : State :=
  let s := s.incReg (laneBase n + 0x30) 1
  let s := s.incField (laneBase n + 0x34) 15 0
  let s := s.raiseIrq (laneBase n) 0
  let s := s.gMsg 3 n p.h 0x15C1 (p.cls + b2n p.outbound * 32 + p.dlBeat % 2 ^ 24 * 256)
  let p := { p with
    overrun := true, ovrClk := s.laneClk - s.btm.cyc - 16000 * (s.btm.beat - p.dlBeat), ovrTiles := (s.lane n).stn.ctxs.any (fun c => c.h = p.h) }
  let s := if tail then s.modMsg n p.h (fun m => { m with tail := some (t, p) })
    else s.modThr n t (fun th => { th with mip := th.mip ||| 0x20000#32, phase := some p })
  let s := s.modMsg n p.h (fun m => { m with overrun := true })
  let th := s.lreg n 0x38
  if th ≠ 0 ∧ s.lreg n 0x34 = th then
    let s := s.raiseIrq (laneBase n) 1
    if (s.lane n).stormReq then s
    else (s.modLane n (fun l => { l with stormReq := true })).gFreeze 4 n
  else s

end Sys2Proof.Machine
end

