-- ==== Sys2Proof/Machine/KeyUse.lean ====
section
/-!
DEFINITION. The Strongroom's rulings on key use: handles (Table BUR-5), classes (Table BUR-6), policies (R123, R360,
R451), reason bytes (Table STR-4) and the records of refusals (R124); the public MAC and hash results.
-/

namespace Sys2Proof.Machine
open Sys2Proof

def hdlSlot (k : Nat) : Nat := bits k 13 0
def hdlGen (k : Nat) : Nat := bits k 29 14
def hdlCls (k : Nat) : Nat := bits k 35 30
def hdlPol (k : Nat) : Nat := bits k 47 36
def mkHandle (pol cls gen slot : Nat) : Nat := pol * 2 ^ 36 + cls * 2 ^ 30 + gen * 2 ^ 14 + slot

/-- Whether a key class accepts an operation code (Table BUR-6). -/
def clsAccepts (cls c : Nat) : Bool :=
  let b := c / 4 * 4
  match cls with
  | 0x01 => b = 0x08 | 0x02 => b = 0x04 | 0x03 => b = 0x10 | 0x04 => b = 0x0C
  | 0x05 => b = 0x18 | 0x06 => b = 0x14
  | 0x07 => b = 0x2C | 0x08 => b = 0x30 | 0x09 => b = 0x34
  | 0x0A => b = 0x20 | 0x0B => b = 0x24 | 0x0C => b = 0x28
  | 0x0D => b = 0x3C | 0x0E => b = 0x38 | 0x0F => b = 0x44 | 0x10 => b = 0x40
  | 0x11 => b = 0x60 || b = 0x64 || b = 0x68
  | 0x12 => b = 0x6C || b = 0x70
  | 0x13 => b = 0x74 || b = 0x78
  | 0x14 => b = 0x7C | 0x15 => b = 0x7C
  | 0x16 => b = 0x80 | 0x18 => b = 0x80 | 0x17 => b = 0x84 | 0x19 => b = 0x84
  | _ => false
/-- What a transient key of a derived usage accepts (class 0x3F). -/
def transAccepts (t : TransKey) (c : Nat) : Bool :=
  let b := c / 4 * 4
  if t.usage = 0 then b = 0x7C
  else if t.usage = 3 then false
  else if t.aes then b = 0x6C || b = 0x70 else b = 0x74 || b = 0x78

/-- What the Strongroom answers for a key: its policy, class, material, uses, and whether it is AES. -/
structure KeyRef where
  pol : Nat
  cls : Nat := 0
  mat : Bytes := []
  uses : Nat := 0
  aes : Bool := false
  deriving DecidableEq, Repr

/-- The key a handle names: the checks of R123 steps 1 and 2. -/
def State.findKey (s : State) (n h opc k : Nat) : Option KeyRef :=
  if k / 2 ^ 48 ≠ 0 then none
  else if hdlCls k = 0x3F then
    match SMap.get none (bits k 5 0) (s.lane n).trans with
    | some t =>
      if bits k 9 6 = n ∧ t.h = h ∧ t.gen = hdlGen k ∧ t.policy = hdlPol k ∧ transAccepts t opc then
        some { pol := t.policy, cls := 0x3F, mat := t.material, uses := t.uses, aes := t.aes }
      else none
    | none => none
  else
    let z := s.slot (hdlSlot k)
    if z.held ∧ !z.damaged ∧ z.gen = hdlGen k ∧ z.cls = hdlCls k ∧ z.policy = hdlPol k ∧ clsAccepts z.cls opc then
      some { pol := z.policy, cls := z.cls, mat := z.material, uses := z.uses, aes := [0x12, 0x15, 0x17, 0x19].contains z.cls }
    else none

def State.policy (s : State) (i : Nat) : Option Policy := if i = 0 then none else SMap.get none i s.str.policies

/-- R123 step 3 (R451 for an inline key): the first applicable reason of Table STR-4; none when the policy grants the use. `unit` is the UNITS bit. -/
def State.polReason (s : State) (n unit pol uses : Nat) (inline : Bool) : Option Nat :=
  match s.policy pol with
  | none => some (if inline then 0x03 else 0x01)
  | some p =>
    if inline && !bit p.flags 0 then some 0x03
    else if !bit p.lanes n then some 0x01
    else if !bit p.units unit then some 0x02
    else if p.limit ≠ 0 ∧ uses ≥ p.limit then some 0x04
    else if s.epoch < p.validFrom then some 0x05
    else if p.validUntil ≠ 0 ∧ s.epoch > p.validUntil then some 0x06
    else if s.str.suspended.contains pol then some 0x08
    else none

/-- The condition a valid result reports (R126): 0x11C1 before 0x11C2. -/
def State.keyWarn (s : State) (pol uses : Nat) : Option Code :=
  match s.policy pol with
  | none => none
  | some p => if p.warn ≠ 0 ∧ uses ≥ p.warn then some 0x11C1
    else if p.validUntil ≠ 0 ∧ s.epoch = p.validUntil then some 0x11C2 else none

/-- Count a use of a slot's key (R360), of a lane's inline policy (R451) or of lane `n`'s transient key. -/
def State.countUse (s : State) (n k pol : Nat) : State :=
  let iu := SMap.set 0 pol (satAdd (SMap.get 0 pol s.str.inlineUses) 1 (2 ^ 32 - 1)) s.str.inlineUses
  if k = 0 then { s with str := { s.str with inlineUses := iu } }
  else if hdlCls k = 0x3F then
    let used := fun (l : Lane) =>
      (SMap.get none (bits k 5 0) l.trans).map (fun t => { t with uses := satAdd t.uses 1 (2 ^ 32 - 1) })
    s.modLane n (fun l => { l with trans := SMap.set none (bits k 5 0) (used l) l.trans })
  else
    let z := s.slot (hdlSlot k)
    { s with str := { s.str with slots := SMap.set {} (hdlSlot k) { z with uses := satAdd z.uses 1 (2 ^ 32 - 1) } s.str.slots } }

/-- A POLICY record for the shared ring (Table JRN-9), from the Cellarer's private port (R165). -/
def State.policyRecO (s : State) (event code epoch : Nat) (offs : List Nat) (cnt : Nat) (digest body : Bytes) : State :=
  let pl := Bytes.ofNatLE 2 event ++ Bytes.ofNatLE 2 code ++ Bytes.ofNatLE 8 epoch
    ++ Bytes.ofNatLE 1 (offs.getD 0 0xFF) ++ Bytes.ofNatLE 1 (offs.getD 1 0xFF)
    ++ Bytes.ofNatLE 2 cnt ++ (digest ++ Bytes.zeros (48 - digest.length)) ++ body
  s.present 16 { src := .cel, agent := 272, bytes := recBytes 0x05 code 2 pl }
/-- A POLICY record that names no officers. -/
def State.policyRec (s : State) (event code epoch cnt : Nat) (digest body : Bytes) : State :=
  s.policyRecO event code epoch [] cnt digest body

/-- The records of a refusal with 0x1102 (R124): the first in an epoch is recorded, later ones are counted. -/
def State.keyRefused (s : State) (n unit k reason : Nat) : State :=
  let s := (s.gEvt 2 0 0x1102 (256 + n) (k % 2 ^ 32) (k / 2 ^ 32) reason).lpmu n 19 1
  let same := fun (r : RefCount) => decide (r.key = k) && decide (r.lane = n) && decide (r.reason = reason)
  let e := s.epoch
  match s.str.refused.find? same with
  | some r =>
    if r.epoch = e then
      { s with str := { s.str with refused := s.str.refused.map (fun x => if same x then { x with count := satAdd x.count 1 0xFFFF } else x) } }
    else
      let s := { s with str := { s.str with refused := s.str.refused.map (fun x => if same x then { x with epoch := e, count := 0 } else x) } }
      s.policyRec 0x15 0x1102 0 r.count [] (Bytes.ofNatLE 8 k ++ Bytes.ofNatLE 1 n ++ Bytes.ofNatLE 1 unit ++ Bytes.ofNatLE 1 reason)
  | none =>
    let s := { s with str := { s.str with refused := s.str.refused ++ [(⟨k, n, reason, e, 0⟩ : RefCount)] } }
    s.policyRec 0x15 0x1102 0 0 [] (Bytes.ofNatLE 8 k ++ Bytes.ofNatLE 1 n ++ Bytes.ofNatLE 1 unit ++ Bytes.ofNatLE 1 reason)

/-! ### Results of hash and MAC codes (Table BUR-3) -/

def hashOf (c : Nat) (m : Bytes) : Bytes :=
  match c / 4 * 4 with
  | 0x48 => Crypto.sha256 m
  | 0x4C => Crypto.sha384 m
  | 0x50 => Crypto.sha512 m
  | 0x54 => Crypto.sha3 32 m
  | 0x58 => Crypto.sha3 48 m
  | _ => Crypto.sha3 64 m
def hashLen (c : Nat) : Nat :=
  match c / 4 * 4 with
  | 0x48 => 32 | 0x4C => 48 | 0x50 => 64 | 0x54 => 32 | 0x58 => 48 | _ => 64
def macOf (c : Nat) (key : Bytes) (pad : Nat) (m : Bytes) : Bytes :=
  match c / 4 * 4 with
  | 0x60 => Crypto.hmac Crypto.sha256 64 key m
  | 0x64 => Crypto.hmac Crypto.sha384 128 key m
  | 0x68 => Crypto.hmac Crypto.sha512 128 key m
  | 0x6C => Crypto.cmac key m
  | 0x70 => Crypto.macAlg1 (Crypto.aesEnc key) 16 pad m
  | 0x74 => Crypto.macAlg1 (Crypto.tdesEnc key) 8 pad m
  | _ => Crypto.macAlg3 key pad m
/-- MAC lengths a code allows (Table BUR-3). -/
def macLenOk (c len : Nat) : Bool :=
  match c / 4 * 4 with
  | 0x60 => decide (16 ≤ len ∧ len ≤ 32)
  | 0x64 => decide (16 ≤ len ∧ len ≤ 48)
  | 0x68 => decide (16 ≤ len ∧ len ≤ 64)
  | 0x6C => decide (4 ≤ len ∧ len ≤ 16)
  | 0x70 => decide (4 ≤ len ∧ len ≤ 16)
  | _ => decide (4 ≤ len ∧ len ≤ 8)

/-! ### Signature forms (R130, R453) -/

/-- Raw signature length of a signing or verification code (Table BUR-3). -/
def sigLen (c : Nat) : Nat :=
  match c / 4 * 4 with
  | 0x04 => 64 | 0x08 => 64 | 0x0C => 96 | 0x10 => 96 | 0x14 => 64 | 0x18 => 64 | 0x1C => 64
  | 0x20 => 2420 | 0x2C => 2420 | 0x24 => 3309 | 0x30 => 3309 | 0x28 => 4627 | 0x34 => 4627
  | 0x38 => 256 | 0x3C => 256 | _ => 512
def isEcdsa (c : Nat) : Bool := [0x04, 0x08, 0x0C, 0x10].contains (c / 4 * 4)
def derMax (c : Nat) : Nat := if c / 4 * 4 = 0x04 ∨ c / 4 * 4 = 0x08 then 72 else 104
/-- One DER INTEGER at the front: the bytes after it. -/
def derInt (b : Bytes) : Option Bytes :=
  match b with
  | t :: l :: r => if t = 0x02#8 ∧ 1 ≤ l.toNat ∧ l.toNat < 128 ∧ l.toNat ≤ r.length then some (r.drop l.toNat) else none
  | _ => none
/-- Exactly one DER SEQUENCE of two INTEGERs with nothing after it (R453). -/
def derSigOk (b : Bytes) : Bool :=
  match b with
  | t :: l :: r => t = 0x30#8 && decide (l.toNat < 128) && decide (l.toNat = r.length)
      && (match derInt r with
        | some r1 => (match derInt r1 with
          | some r2 => r2.isEmpty
          | none => false)
        | none => false)
  | _ => false

/-! ### PIN blocks (R119, ISO 9564-1) -/

def nibbles (b : Bytes) : List Nat := b.flatMap (fun x => [x.toNat / 16, x.toNat % 16])
def ofNibbles : List Nat → Bytes
  | [] => []
  | [a] => [BitVec.ofNat 8 (a * 16)]
  | a :: b :: r => BitVec.ofNat 8 (a * 16 + b) :: ofNibbles r
/-- The 8-byte PAN field of formats 0 and 3: the rightmost 12 digits without the check digit, padded on the left with zeros. -/
def panField (pan : List Nat) : Bytes :=
  let d := (pan.take (pan.length - 1)).drop (pan.length - 13)
  ofNibbles (List.replicate (16 - d.length) 0 ++ d)
/-- The 16-byte PAN field of format 4. -/
def panField4 (pan : List Nat) : Bytes :=
  let n := [pan.length - 12] ++ pan
  ofNibbles (n ++ List.replicate (32 - n.length) 0)
/-- The clear PIN of a block of the source format; none when the format check fails. -/
def pinParse (fmt : Nat) (pan : List Nat) (clear : Bytes) : Option (List Nat) :=
  let f := nibbles (if fmt = 0 ∨ fmt = 3 then Crypto.xorBytes clear (panField pan) else clear)
  let len := f.getD 1 0
  let pin := (f.drop 2).take len
  let fill := ((f.take 16).drop 2).drop len
  let okFill := if fmt = 0 then fill.all (· = 0xF) else if fmt = 3 then fill.all (fun x => decide (10 ≤ x)) else
    if fmt = 4 then fill.all (· = 0xA) else true
  if f.getD 0 0xFF = fmt ∧ 4 ≤ len ∧ len ≤ 12 ∧ pin.all (fun x => decide (x ≤ 9)) ∧ okFill then some pin else none
/-- The clear block of the target format, with random fill taken from `r`. -/
def pinBuild (fmt : Nat) (pan pin : List Nat) (r : Bytes) : Bytes :=
  let rn := nibbles r
  let fill := fun (k : Nat) => if fmt = 0 then List.replicate k 0xF else if fmt = 4 then List.replicate k 0xA
    else if fmt = 3 then (rn.take k).map (fun x => 10 + x % 6) else rn.take k
  let f := [fmt, pin.length] ++ pin ++ fill (14 - pin.length)
  if fmt = 0 ∨ fmt = 3 then Crypto.xorBytes (ofNibbles f) (panField pan)
  else if fmt = 4 then ofNibbles f ++ (r.drop 8).take 8 else ofNibbles f
def pinDecrypt (fmt : Nat) (key : Bytes) (pan : List Nat) (b : Bytes) : Bytes :=
  if fmt = 4 then Crypto.aesDec key (Crypto.xorBytes (Crypto.aesDec key b) (panField4 pan)) else Crypto.tdesDec key b
def pinEncrypt (fmt : Nat) (key : Bytes) (pan : List Nat) (b : Bytes) : Bytes :=
  if fmt = 4 then Crypto.aesEnc key (Crypto.xorBytes (Crypto.aesEnc key b) (panField4 pan)) else Crypto.tdesEnc key b
/-- Table BUR-4: 0 no, 1 yes, 2 by policy. -/
def pinConv (src dst : Nat) : Nat :=
  if src > 4 ∨ dst > 4 ∨ src = 2 ∨ dst = 2 then 0
  else if src = 4 then (if dst = 4 then 1 else if dst = 1 then 0 else 2)
  else if src = 1 then 1
  else if dst = 1 then 0 else 1

end Sys2Proof.Machine
end

