-- ==== Sys2Proof/Machine/Rv.lean ====
section
/-!
DEFINITION. The RISC-V integer instructions as both core kinds decode them (R71: RV32IMC; Table KU-37: RV64GC with Zba, Zbb,
Zbs and Zicond): the fields of an instruction word, the compressed forms, and the integer operations on words of `w` bits.
-/

namespace Sys2Proof.Machine
open Sys2Proof

namespace Rv

/-! ### Fields -/

def op (i : Nat) : Nat := bits i 6 0
def rd (i : Nat) : Nat := bits i 11 7
def f3 (i : Nat) : Nat := bits i 14 12
def rs1 (i : Nat) : Nat := bits i 19 15
def rs2 (i : Nat) : Nat := bits i 24 20
def f7 (i : Nat) : Nat := bits i 31 25
/-- `v`, a number of `n` bits, sign-extended to `w` bits. -/
def sx (w n v : Nat) : Nat := if bit v (n - 1) then v % 2 ^ n + (2 ^ w - 2 ^ n) else v % 2 ^ n
def immI (w i : Nat) : Nat := sx w 12 (bits i 31 20)
def immS (w i : Nat) : Nat := sx w 12 (f7 i * 32 + rd i)
def immB (w i : Nat) : Nat := sx w 13 (bits i 31 31 * 4096 + bits i 7 7 * 2048 + bits i 30 25 * 32 + bits i 11 8 * 2)
def immU (w i : Nat) : Nat := sx w 32 (bits i 31 12 * 4096)
def immJ (w i : Nat) : Nat := sx w 21 (bits i 31 31 * 2 ^ 20 + bits i 19 12 * 4096 + bits i 20 20 * 2048 + bits i 30 21 * 2)

/-! ### Compressed instructions -/

def encR (f7 rs2 rs1 f3 rd op : Nat) : Nat := f7 * 2 ^ 25 + rs2 * 2 ^ 20 + rs1 * 2 ^ 15 + f3 * 2 ^ 12 + rd * 2 ^ 7 + op
def encI (imm rs1 f3 rd op : Nat) : Nat := imm % 4096 * 2 ^ 20 + rs1 * 2 ^ 15 + f3 * 2 ^ 12 + rd * 2 ^ 7 + op
def encS (imm rs2 rs1 f3 op : Nat) : Nat := encR (imm / 32 % 128) rs2 rs1 f3 (imm % 32) op
def encJ (imm rd : Nat) : Nat :=
  bits imm 20 20 * 2 ^ 31 + bits imm 10 1 * 2 ^ 21 + bits imm 11 11 * 2 ^ 20 + bits imm 19 12 * 2 ^ 12 + rd * 2 ^ 7 + 0x6F
def encB (imm rs1 f3 : Nat) : Nat :=
  bits imm 12 12 * 2 ^ 31 + bits imm 10 5 * 2 ^ 25 + rs1 * 2 ^ 15 + f3 * 2 ^ 12 + bits imm 4 1 * 2 ^ 8 + bits imm 11 11 * 2 ^ 7 + 0x63

/-- The 32-bit instruction a compressed one stands for; none for a reserved or absent encoding. -/
def expand (rv64 : Bool) (c : Nat) : Option Nat :=
  let rp := bits c 4 2 + 8
  let sp := bits c 9 7 + 8
  let r := bits c 11 7
  let q := bits c 6 2
  let i6 := sx 32 6 (bits c 12 12 * 32 + q) 
  let uw := bits c 12 10 * 8 + bits c 6 6 * 4 + bits c 5 5 * 64
  let ud := bits c 12 10 * 8 + bits c 6 5 * 64
  let lwsp := bits c 12 12 * 32 + bits c 6 4 * 4 + bits c 3 2 * 64
  let ldsp := bits c 12 12 * 32 + bits c 6 5 * 8 + bits c 4 2 * 64
  let swsp := bits c 12 9 * 4 + bits c 8 7 * 64
  let sdsp := bits c 12 10 * 8 + bits c 9 7 * 64
  let j := sx 32 12 (bits c 12 12 * 2048 + bits c 11 11 * 16 + bits c 10 9 * 256 + bits c 8 8 * 1024 + bits c 7 7 * 64
    + bits c 6 6 * 128 + bits c 5 3 * 2 + bits c 2 2 * 32)
  let b := sx 32 9 (bits c 12 12 * 256 + bits c 11 10 * 8 + bits c 6 5 * 64 + bits c 4 3 * 2 + bits c 2 2 * 32)
  let sh := bits c 12 12 * 32 + q
  let shOk := rv64 || decide (sh < 32)
  match c % 4, bits c 15 13 with
  | 0, 0 =>
    let imm := bits c 12 11 * 16 + bits c 10 7 * 64 + bits c 6 6 * 4 + bits c 5 5 * 8
    if imm = 0 then none else some (encI imm 2 0 rp 0x13)
  | 0, 1 => some (encI ud sp 3 rp 0x07)
  | 0, 2 => some (encI uw sp 2 rp 0x03)
  | 0, 3 => some (if rv64 then encI ud sp 3 rp 0x03 else encI uw sp 2 rp 0x07)
  | 0, 5 => some (encS ud rp sp 3 0x27)
  | 0, 6 => some (encS uw rp sp 2 0x23)
  | 0, 7 => some (if rv64 then encS ud rp sp 3 0x23 else encS uw rp sp 2 0x27)
  | 1, 0 => some (encI i6 r 0 r 0x13)
  | 1, 1 => if rv64 then (if r = 0 then none else some (encI i6 r 0 r 0x1B)) else some (encJ j 1)
  | 1, 2 => some (encI i6 0 0 r 0x13)
  | 1, 3 =>
    if r = 2 then
      let imm := sx 32 10 (bits c 12 12 * 512 + bits c 6 6 * 16 + bits c 5 5 * 64 + bits c 4 3 * 128 + bits c 2 2 * 32)
      if imm = 0 then none else some (encI imm 2 0 2 0x13)
    else if i6 = 0 then none else some (i6 % 2 ^ 20 * 4096 + r * 128 + 0x37)
  | 1, 4 =>
    match bits c 11 10 with
    | 0 => if shOk then some (encI sh sp 5 sp 0x13) else none
    | 1 => if shOk then some (encI (sh + 0x400) sp 5 sp 0x13) else none
    | 2 => some (encI i6 sp 7 sp 0x13)
    | _ =>
      if !bit c 12 then
        (match bits c 6 5 with
          | 0 => some (encR 0x20 rp sp 0 sp 0x33)
          | 1 => some (encR 0 rp sp 4 sp 0x33)
          | 2 => some (encR 0 rp sp 6 sp 0x33)
          | _ => some (encR 0 rp sp 7 sp 0x33))
      else if rv64 then
        (match bits c 6 5 with
          | 0 => some (encR 0x20 rp sp 0 sp 0x3B)
          | 1 => some (encR 0 rp sp 0 sp 0x3B)
          | _ => none)
      else none
  | 1, 5 => some (encJ j 0)
  | 1, 6 => some (encB b sp 0)
  | 1, 7 => some (encB b sp 1)
  | 2, 0 => if shOk then some (encI sh r 1 r 0x13) else none
  | 2, 1 => some (encI ldsp 2 3 r 0x07)
  | 2, 2 => if r = 0 then none else some (encI lwsp 2 2 r 0x03)
  | 2, 3 => if rv64 then (if r = 0 then none else some (encI ldsp 2 3 r 0x03)) else some (encI lwsp 2 2 r 0x07)
  | 2, 4 =>
    if !bit c 12 then (if q = 0 then (if r = 0 then none else some (encI 0 r 0 0 0x67)) else some (encR 0 q 0 0 r 0x33))
    else if q = 0 then (if r = 0 then some 0x00100073 else some (encI 0 r 0 1 0x67))
    else some (encR 0 q r 0 r 0x33)
  | 2, 5 => some (encS sdsp q 2 3 0x27)
  | 2, 6 => some (encS swsp q 2 2 0x23)
  | 2, 7 => some (if rv64 then encS sdsp q 2 3 0x23 else encS swsp q 2 2 0x27)
  | _, _ => none

/-! ### Operations on words of `w` bits -/

def toS (w v : Nat) : Int := if bit v (w - 1) then (v : Int) - (2 : Int) ^ w else v
def ofI (w : Nat) (v : Int) : Nat := (v % (2 : Int) ^ w).toNat
def sub (w a b : Nat) : Nat := (a + 2 ^ w - b) % 2 ^ w
def not (w a : Nat) : Nat := 2 ^ w - 1 - a
def sra (w a n : Nat) : Nat := ofI w (toS w a >>> n)
def rol (w a n : Nat) : Nat := (a * 2 ^ (n % w) + a / 2 ^ (w - n % w)) % 2 ^ w
def clz (w a : Nat) : Nat := ((List.range w).find? (fun i => bit a (w - 1 - i))).getD w
def ctz (w a : Nat) : Nat := ((List.range w).find? (fun i => bit a i)).getD w
def cpop (w a : Nat) : Nat := ((List.range w).filter (fun i => bit a i)).length
def divS (w a b : Nat) : Nat := if b = 0 then 2 ^ w - 1 else ofI w ((toS w a).tdiv (toS w b))
def remS (w a b : Nat) : Nat := if b = 0 then a else ofI w ((toS w a).tmod (toS w b))
def divU (w a b : Nat) : Nat := if b = 0 then 2 ^ w - 1 else a / b
def remU (a b : Nat) : Nat := if b = 0 then a else a % b

/-- MUL to REMU (funct7 1). -/
def mulDiv (w f a b : Nat) : Nat :=
  match f with
  | 0 => a * b % 2 ^ w
  | 1 => ofI w ((toS w a * toS w b) >>> w)
  | 2 => ofI w ((toS w a * (b : Int)) >>> w)
  | 3 => a * b / 2 ^ w
  | 4 => divS w a b
  | 5 => divU w a b
  | 6 => remS w a b
  | _ => remU a b
/-- ADD to AND with funct7 0, SUB and SRA with funct7 0x20. -/
def base (w f7 f a b : Nat) : Option Nat :=
  match f7, f with
  | 0, 0 => some ((a + b) % 2 ^ w)
  | 0x20, 0 => some (sub w a b)
  | 0, 1 => some (a * 2 ^ (b % w) % 2 ^ w)
  | 0, 2 => some (if toS w a < toS w b then 1 else 0)
  | 0, 3 => some (if a < b then 1 else 0)
  | 0, 4 => some (a ^^^ b)
  | 0, 5 => some (a / 2 ^ (b % w))
  | 0x20, 5 => some (sra w a (b % w))
  | 0, 6 => some (a ||| b)
  | 0, 7 => some (a &&& b)
  | 1, _ => some (mulDiv w f a b)
  | _, _ => none
/-- Zba, Zbb, Zbs and Zicond in the OP opcode. -/
def bitR (w f7 f a b : Nat) : Option Nat :=
  match f7, f with
  | 0x10, 2 => some ((a * 2 + b) % 2 ^ w)
  | 0x10, 4 => some ((a * 4 + b) % 2 ^ w)
  | 0x10, 6 => some ((a * 8 + b) % 2 ^ w)
  | 0x20, 4 => some (not w (a ^^^ b))
  | 0x20, 6 => some (a ||| not w b)
  | 0x20, 7 => some (a &&& not w b)
  | 0x05, 4 => some (if toS w a < toS w b then a else b)
  | 0x05, 5 => some (min a b)
  | 0x05, 6 => some (if toS w a < toS w b then b else a)
  | 0x05, 7 => some (max a b)
  | 0x30, 1 => some (rol w a (b % w))
  | 0x30, 5 => some (rol w a (w - b % w))
  | 0x24, 1 => some (a &&& not w (2 ^ (b % w)))
  | 0x24, 5 => some (a / 2 ^ (b % w) % 2)
  | 0x34, 1 => some (a ^^^ 2 ^ (b % w))
  | 0x14, 1 => some (a ||| 2 ^ (b % w))
  | 0x07, 5 => some (if b = 0 then 0 else a)
  | 0x07, 7 => some (if b = 0 then a else 0)
  | _, _ => none
/-- The OP-IMM opcode on RV32 (w = 32) and RV64; `zb` admits Zbb and Zbs. -/
def opImm (w : Nat) (zb : Bool) (i a : Nat) : Option Nat :=
  let imm := immI w i
  let top := bits i 31 (if w = 64 then 26 else 25)
  let sh := bits i (if w = 64 then 25 else 24) 20
  let norm := if w = 64 then top * 2 else top
  match f3 i with
  | 1 =>
    if norm = 0 then some (a * 2 ^ sh % 2 ^ w)
    else if !zb then none
    else match bits i 31 20 with
      | 0x600 => some (clz w a)
      | 0x601 => some (ctz w a)
      | 0x602 => some (cpop w a)
      | 0x604 => some (sx w 8 (a % 256))
      | 0x605 => some (sx w 16 (a % 65536))
      | _ => if norm = 0x24 ∨ norm = 0x34 ∨ norm = 0x14 then bitR w norm 1 a sh else none
  | 5 =>
    if norm = 0 then some (a / 2 ^ sh)
    else if norm = 0x20 then some (sra w a sh)
    else if !zb then none
    else if norm = 0x30 then some (rol w a (w - sh))
    else if norm = 0x24 then some (a / 2 ^ sh % 2)
    else if bits i 31 20 = 0x287 then
      some ((List.range (w / 8)).foldl (fun v k => if a / 2 ^ (8 * k) % 256 = 0 then v else v + 255 * 2 ^ (8 * k)) 0)
    else if bits i 31 20 = (if w = 64 then 0x6B8 else 0x698) then
      some ((List.range (w / 8)).foldl (fun v k => v + a / 2 ^ (8 * k) % 256 * 2 ^ (w - 8 - 8 * k)) 0)
    else none
  | f => base w 0 f a imm
/-- OP-IMM-32 and OP-32 of RV64: the result is a 32-bit one, sign-extended, but for the .uw forms. -/
def opImm32 (i a : Nat) : Option Nat :=
  let lo := a % 2 ^ 32
  let sh := bits i 24 20
  match f3 i with
  | 0 => some (sx 64 32 ((lo + immI 32 i) % 2 ^ 32))
  | 1 =>
    if f7 i = 0 then some (sx 64 32 (lo * 2 ^ sh % 2 ^ 32))
    else if bits i 31 26 = 2 then some (lo * 2 ^ bits i 25 20 % 2 ^ 64)
    else match bits i 31 20 with
      | 0x600 => some (clz 32 lo)
      | 0x601 => some (ctz 32 lo)
      | 0x602 => some (cpop 32 lo)
      | _ => none
  | 5 =>
    if f7 i = 0 then some (sx 64 32 (lo / 2 ^ sh))
    else if f7 i = 0x20 then some (sx 64 32 (sra 32 lo sh))
    else if f7 i = 0x30 then some (sx 64 32 (rol 32 lo (32 - sh)))
    else none
  | _ => none
def op32 (i a b : Nat) : Option Nat :=
  let x := a % 2 ^ 32
  let y := b % 2 ^ 32
  let f := f3 i
  let w := fun (v : Option Nat) => v.map (sx 64 32)
  match f7 i with
  | 0 => if f = 0 ∨ f = 1 ∨ f = 5 then w (base 32 0 f x y) else none
  | 0x20 => if f = 0 ∨ f = 5 then w (base 32 0x20 f x y) else none
  | 1 => if f = 0 ∨ 4 ≤ f then w (some (mulDiv 32 f x y)) else none
  | 4 => if f = 0 then some ((x + b) % 2 ^ 64) else if f = 4 ∧ rs2 i = 0 then some (x % 65536) else none
  | 0x10 => if f = 2 ∨ f = 4 ∨ f = 6 then bitR 64 0x10 f x b else none
  | 0x30 => if f = 1 ∨ f = 5 then w (bitR 32 0x30 f x y) else none
  | _ => none
/-- Whether a branch is taken; none for a reserved funct3. -/
def branch (w f a b : Nat) : Option Bool :=
  match f with
  | 0 => some (decide (a = b))
  | 1 => some (decide (a ≠ b))
  | 4 => some (decide (toS w a < toS w b))
  | 5 => some (decide (toS w b ≤ toS w a))
  | 6 => some (decide (a < b))
  | 7 => some (decide (b ≤ a))
  | _ => none

end Rv

end Sys2Proof.Machine
end

