-- ==== Sys2Proof/Machine/Stylus.lean ====
section
/-!
DEFINITION. The Stylus sequencer: exceptions, interrupts and double faults (R76 to R78, R450), the end of a phase (R86),
tags, and one meaning for each Xklane operation of Table STY-5.
-/

namespace Sys2Proof.Machine
open Sys2Proof

/-! ### Exceptions and the end of a phase -/

/-- mtvec: the trap vector of the image the thread runs; 0 without an image. -/
def Lane.mtvec (l : Lane) (t : Nat) : Nat := imgTrap (l.image (l.thr t).bank)

/-- Whether a thread's phase is of message `h`. -/
def Lane.phaseOn (l : Lane) (h : Nat) : Bool :=
  (List.range 8).any (fun t => match (l.thr t).phase with
    | some p => decide (p.h = h)
    | none => false)
/-- A message is dropped once nothing of it is outstanding: no phase, no release, no report, no transfer (R50, R162). -/
def Lane.retireMsg (l : Lane) (h : Nat) : Lane :=
  match l.msg h with
  | none => l
  | some m =>
    if l.phaseOn h then l
    else if m.acked && !m.atPort && m.report.isNone && m.tail.isNone && !l.port.any (fun x => x.h = h) then
      { l with msgs := SMap.del h l.msgs }
    else l.setMsg h { m with stage := if m.stage = .awaiting ∨ m.stage = .waitOut then m.stage else .ended }

/-- Cycles are added to a phase's wait on cause `i` (R60). -/
def Phase.wait (p : Phase) (i w : Nat) : Phase := { p with waits := p.waits.set i (p.waits.getD i 0 + w) }
/-- The overrun cause of a phase that ends at `now` (Table KU-23): TILES when it waited for tiles at its deadline (R111),
LATE when a BUR.GO of it was rebooked (R83), else the longest wait. What no other cause explains of the time since its
booked end is PROGRAM's, with none of the others waiting longer (R60). -/
def Phase.cause (p : Phase) (now : Nat) : Nat :=
  if p.ovrTiles then 1
  else if p.burLate then 2
  else
    let w := p.waits.take 5
    (w.zip (List.range 5)).foldl (fun (b : Nat × Nat) q => if q.1 > b.1 then q else b)
      (now - p.stop - w.foldl (· + ·) 0, 5) |>.2

/-- An overrun phase ends: the second Garret record and the cause counter (R60). -/
def State.overrunEnd (s : State) (n : Nat) (p : Phase) : State :=
  if p.overrun then
    let s := s.gMsg 3 n p.h 0x15C1 (s.laneClk - p.ovrClk)
    s.incReg (laneBase n + 0x40 + 4 * p.cause s.laneClk) 1
  else s

/-- The phase has ended as admission counts it: posted and visible, or its release accepted by NET (R36, R60). -/
def State.phaseEnd (s : State) (n t : Nat) : State :=
  match (s.thr n t).phase with
  | some p => if p.ended then s
    else (s.overrunEnd n p).modThr n t (fun th => { th with phase := some { p with ended := true } })
  | none => s
/-- A thread leaves its phase: an outbound phase whose release waits for NET goes on with the message (R36). -/
def State.leavePhase (s : State) (n t : Nat) : State :=
  match (s.thr n t).phase with
  | none => s
  | some p =>
    if p.outbound && !p.ended && ((s.lane n).msg p.h).any (fun m => m.atPort) then
      s.modMsg n p.h (fun m => { m with tail := some (t, p) })
    else s.phaseEnd n t

/-- Free the old bank once no phase runs it any more (R68). -/
def Lane.bankCheck (l : Lane) : Lane :=
  if l.oldBusy && ((List.range 8).all (fun t => (l.thr t).phase.isNone || decide ((l.thr t).bank = l.bank))) then
    { l with oldBusy := false }
  else l

/-- A replaced stencil goes once no phase and no suspended run admitted before its replacement is left (R93). -/
def Lane.pruneStencils (l : Lane) : Lane :=
  let gens := (List.range 8).filterMap (fun t => (l.thr t).phase.map (·.stnGen)) ++ l.stn.ctxs.map (·.stnGen)
  { l with oldStencils := l.oldStencils.filter (fun p => gens.any (fun g => decide (g ≤ p.1 / 64))) }
/-- A thread goes idle: its unissued operations are cancelled and its tags retired. -/
def Lane.idle (l : Lane) (t : Nat) : Lane :=
  let h := match (l.thr t).phase with
    | some p => some p.h
    | none => none
  let l := match h with
    | some h => { l with stn := { l.stn with ctxs := l.stn.ctxs.filter (fun c => c.h ≠ h) } }
    | none => l
  let l := { l with tags := l.tags.filter (fun g => g.thr ≠ t), retired := l.retired.filter (fun g => g.thr ≠ t) }
  let l := l.setThr t { l.thr t with run := .idle, phase := none }
  (match h with
    | some h => l.retireMsg h
    | none => l).bankCheck.pruneStencils

/-- A double fault (R78): the thread stops; its message without a disposition is dropped with 0x1505. -/
def State.doubleFault (s : State) (n t : Nat) : State :=
  match (s.thr n t).phase with
  | none => s.modLane n (fun l => l.idle t)
  | some p =>
    let s := s.leavePhase n t
    match (s.lane n).msg p.h with
    | none => s.modLane n (fun l => l.idle t)
    | some m =>
      if m.disp.isNone && !p.posted then
        let s := (s.hwDisposition n p.h 0x85 0x1505)
        let s := s.modLane n (fun l => (l.freeMsgTiles m).cancelMsg p.h)
        s.modLane n (fun l => l.idle t)
      else s.modLane n (fun l => l.idle t)

/-- An exception at the thread's current instruction (R78, R450). -/
def State.trap (s : State) (n t : Nat) (cause tval : W32) : State :=
  let th := s.thr n t
  let tv := (s.lane n).mtvec t
  if (!th.mie && th.mcause ≠ 0) || tv = 0 then s.doubleFault n t
  else s.modThr n t (fun th => { th with
    mepc := th.pc, mcause := cause, mtval := tval, mpie := th.mie, mie := false, pc := BitVec.ofNat 32 tv, run := .run })

/-! ### Issue -/

/-- The instruction at the thread's pc and its length; none outside the image's code. -/
def Lane.fetch (l : Lane) (th : Thread) : Option (Nat × Nat) :=
  let img := l.image th.bank
  let n := imgCodeSize img
  let pc := th.pc.toNat
  if n < pc + 2 then none
  else
    let h := Bytes.le img (368 + pc) 2
    if h % 4 ≠ 3 then some (h, 2) else if n < pc + 4 then none else some (Bytes.le img (368 + pc) 4, 4)

/-- An Xklane operation as Table STY-5 encodes it: opcode, funct3, funct7, and the register fields the operation uses. -/
structure XOp where
  op : Nat
  f3 : Nat
  f7 : Nat
  rd : Option XReg := none
  rs1 : Option XReg := none
  rs2 : Option XReg := none
  deriving DecidableEq, Repr
/-- Whether an instruction word encodes the operation; the fields it does not use may hold anything. -/
def XOp.is (x : XOp) (i : Nat) : Bool :=
  decide (Rv.op i = x.op) && decide (Rv.f3 i = x.f3) && decide (Rv.f7 i = x.f7) && x.rd.all (fun r => Rv.rd i = r.val)
    && x.rs1.all (fun r => Rv.rs1 i = r.val) && x.rs2.all (fun r => Rv.rs2 i = r.val)
/-- Whether thread `t` runs and the word at its pc is the operation `x` (R82). -/
def Lane.atOp (l : Lane) (t : Nat) (x : XOp) : Bool :=
  decide ((l.thr t).run = .run) && (match l.fetch (l.thr t) with
    | some (i, 4) => x.is i
    | _ => false)
/-- A running thread issues an instruction; otherwise nothing happens. -/
def State.issueAny (s : State) (n t : Nat) (f : State → Thread → State) : Res :=
  if (s.thr n t).run = .run then .next ((f s (s.thr n t)).lpmu n 20 1) else .next s
/-- A running thread whose next instruction is the operation issues it; otherwise nothing happens. -/
def State.issue (s : State) (n t : Nat) (x : XOp) (f : State → Thread → State) : Res :=
  if (s.lane n).atOp t x then .next ((f s (s.thr n t)).lpmu n 20 1) else .next s

/-- Write a result and go on. -/
def State.retT (s : State) (n t rd : Nat) (v : Nat) : State := s.modThr n t (fun th => th.ret rd (BitVec.ofNat 32 v))
def noVal : Nat := 0xFFFFFFFF

/-- The lowest tag number that no tag of the lane uses and, while there is one, no retired digest. -/
def Lane.newTag (l : Lane) : Nat :=
  let free := (List.range 256).filter (fun i => !l.tags.any (fun g => g.id = i))
  (free.find? (fun i => !l.retired.any (fun g => g.id = i))).getD (free.headD 255)
/-- A wait or poll retires a completed tag; a digest stays for HM.DERIVE (R82, R85). -/
def Lane.retire (l : Lane) (g : Tag) : Lane :=
  { l with tags := l.tags.filter (fun x => x.id ≠ g.id)
           retired := if g.kind = .digest then l.retired.filter (fun x => x.id ≠ g.id) ++ [g] else l.retired }
/-- The tag of a thread that HM.DERIVE names: held, or retired. -/
def Lane.digestTag (l : Lane) (t id : Nat) : Option Tag := (l.tags ++ l.retired).find? (fun g => g.id = id ∧ g.thr = t)
/-- A thread with eight tags of which none has completed cannot issue another (R82). -/
def Lane.tagsFull (l : Lane) (t : Nat) : Bool :=
  let mine := l.tags.filter (fun g => g.thr = t)
  decide (mine.length ≥ 8) && mine.all (fun g => g.code.isNone)
/-- A thread holds at most eight unretired tags (R82): a ninth retires the oldest completed one. -/
def Lane.roomTag (l : Lane) (t : Nat) : Lane :=
  if (l.tags.filter (fun g => g.thr = t)).length < 8 then l
  else match l.tags.find? (fun g => g.thr = t ∧ g.code.isSome) with
    | some g => l.retire g
    | none => l
/-- A tag completes: its waiting thread resumes with the code, or the DONE interrupt becomes pending (Table STY-1). -/
def State.tagDone (s : State) (n id : Nat) (code : Code) (dg : Option (Nat × D64)) : State :=
  match (s.lane n).tags.find? (fun g => g.id = id) with
  | none => s
  | some g =>
    let th := s.thr n g.thr
    match th.run with
    | .waitTag rd w =>
      if w = id then
        let s := s.modLane n (fun l => l.retire { g with code := some code, digest := dg })
        s.modThr n g.thr (fun th => th.ret rd (code.setWidth 32))
      else
        let s := s.modLane n (fun l => { l with tags := l.tags.map (fun x => if x.id = id then { x with code := some code, digest := dg } else x) })
        s.modThr n g.thr (fun th => { th with mip := th.mip ||| 0x40000#32 })
    | r =>
      let s := s.modLane n (fun l => { l with tags := l.tags.map (fun x => if x.id = id then { x with code := some code, digest := dg } else x) })
      s.modThr n g.thr (fun th => { th with mip := th.mip ||| 0x40000#32, run := if r = .waitGo then .run else r })

/-! ### The encodings of Table STY-5 -/

/-- TILE.ALLOC. -/
def xTileAlloc (rd rs1 : XReg) : XOp := { op := 0x0B, f3 := 0, f7 := 0, rd := rd, rs1 := rs1 }
/-- TILE.FREE. -/
def xTileFree (rs1 : XReg) : XOp := { op := 0x0B, f3 := 0, f7 := 1, rs1 := rs1 }
/-- TILE.SEAL. -/
def xTileSeal (rs1 rs2 : XReg) : XOp := { op := 0x0B, f3 := 0, f7 := 2, rs1 := rs1, rs2 := rs2 }
/-- TILE.DIGEST. -/
def xTileDigest (rd rs1 : XReg) : XOp := { op := 0x0B, f3 := 0, f7 := 3, rd := rd, rs1 := rs1 }
/-- TILE.RELEASE. -/
def xTileRelease (rd rs1 : XReg) : XOp := { op := 0x0B, f3 := 0, f7 := 4, rd := rd, rs1 := rs1 }
/-- HM.FIELD. -/
def xHmField (rd rs1 rs2 : XReg) : XOp := { op := 0x0B, f3 := 1, f7 := 0, rd := rd, rs1 := rs1, rs2 := rs2 }
/-- HM.DERIVE. -/
def xHmDerive (rd rs1 rs2 : XReg) : XOp := { op := 0x0B, f3 := 1, f7 := 1, rd := rd, rs1 := rs1, rs2 := rs2 }
/-- STN.GO. -/
def xStnGo (rd rs1 : XReg) : XOp := { op := 0x2B, f3 := 0, f7 := 0, rd := rd, rs1 := rs1 }
/-- BUR.GO. -/
def xBurGo (rd rs1 : XReg) : XOp := { op := 0x2B, f3 := 0, f7 := 1, rd := rd, rs1 := rs1 }
/-- BUR.SKIP. -/
def xBurSkip (rs1 : XReg) : XOp := { op := 0x2B, f3 := 0, f7 := 2, rs1 := rs1 }
/-- ENG.WAIT. -/
def xEngWait (rd rs1 : XReg) : XOp := { op := 0x2B, f3 := 0, f7 := 3, rd := rd, rs1 := rs1 }
/-- ENG.POLL. -/
def xEngPoll (rd rs1 : XReg) : XOp := { op := 0x2B, f3 := 0, f7 := 4, rd := rd, rs1 := rs1 }
/-- SHELF.POST. -/
def xShelfPost (rd rs1 rs2 : XReg) : XOp := { op := 0x2B, f3 := 1, f7 := 0, rd := rd, rs1 := rs1, rs2 := rs2 }
/-- JRN.PUT. -/
def xJrnPut (rd rs1 : XReg) : XOp := { op := 0x2B, f3 := 1, f7 := 1, rd := rd, rs1 := rs1 }
/-- BEAT.READ. -/
def xBeatRead (rd : XReg) : XOp := { op := 0x2B, f3 := 2, f7 := 0, rd := rd }
/-- BEAT.READH. -/
def xBeatReadh (rd : XReg) : XOp := { op := 0x2B, f3 := 2, f7 := 1, rd := rd }
/-- BEAT.LEFT. -/
def xBeatLeft (rd : XReg) : XOp := { op := 0x2B, f3 := 2, f7 := 2, rd := rd }
/-- BEAT.WAIT. -/
def xBeatWait : XOp := { op := 0x2B, f3 := 2, f7 := 3 }
/-- THR.END. -/
def xThrEnd : XOp := { op := 0x2B, f3 := 3, f7 := 0 }
/-- THR.SIGNAL. -/
def xThrSignal (rs1 : XReg) : XOp := { op := 0x2B, f3 := 3, f7 := 1, rs1 := rs1 }

/-! ### Tile and hallmark operations (custom-0) -/

/-- TILE.ALLOC rd, rs1. -/
def execTileAlloc (n : LaneId) (t : ThreadId) (rd rs1 : XReg) (s : State) : Res := s.issue n t (xTileAlloc rd rs1) fun s th =>
  let k := (th.rd rs1).toNat
  if k = 0 ∨ k > 1024 then s.drew.retT n t rd (s.freeWord.toNat % 2 ^ 32)
  else match (s.lane n).alloc k with
    | some (i, l) => (s.setLane n l).retT n t rd i
    | none => (s.lpmu n 29 1).retT n t rd noVal

/-- TILE.FREE rs1 (R139): an index outside the region or a free tile raises exception 24. -/
def execTileFree (n : LaneId) (t : ThreadId) (rs1 : XReg) (s : State) : Res := s.issue n t (xTileFree rs1) fun s th =>
  let i := (th.rd rs1).toNat
  if i ≥ tileCount ∨ !sideAlloc ((s.lane n).sideW i) then s.trap n t 24 (th.rd rs1)
  else (s.modLane n (fun l => l.free i)).retT n t 0 0

/-- TILE.SEAL rs1, rs2 (R134): FILL and CRC-32C of the tile. -/
def execTileSeal (n : LaneId) (t : ThreadId) (rs1 rs2 : XReg) (s : State) : Res := s.issue n t (xTileSeal rs1 rs2) fun s th =>
  let i := (th.rd rs1).toNat
  let f := (th.rd rs2).toNat
  if i ≥ tileCount then s.trap n t 24 (th.rd rs1)
  else if f = 0 ∨ f > 256 then
    let v := s.freeWord.toNat
    (s.drew.modLane n (fun l => l.setSide i (setBits (setBits (l.sideW i) 40 32 (v / 2 ^ 32)) 31 0 v))).retT n t 0 0
  else (s.modLane n (fun l => l.seal i f)).retT n t 0 0

/-- TILE.DIGEST rd, rs1: the chain goes to the hallmark checker. -/
def execTileDigest (n : LaneId) (t : ThreadId) (rd rs1 : XReg) (s : State) : Res := s.issue n t (xTileDigest rd rs1) fun s th =>
  let i := (th.rd rs1).toNat
  let l := s.lane n
  if i ≥ tileCount then s.trap n t 24 (th.rd rs1)
  else if l.tagsFull t then s.modThr n t (fun th => { th with run := .waitGo })
  else
    let l := l.roomTag t
    let g := l.newTag
    (s.setLane n { l with tags := l.tags ++ [{ id := g, thr := t, kind := .digest }],
                          digests := l.digests ++ [(g, i)] }).retT n t rd g

/-- The hallmark key of a thread's message, or of this device's current epoch without one. -/
def State.thrKey (s : State) (n t : Nat) : Option Bytes :=
  match (s.thr n t).phase with
  | some p => match (s.lane n).msg p.h with
    | some m => s.hmKey m.hm
    | none => s.mintKey
  | none => s.mintKey

/-- The checker ends its oldest digest: every tile checked, then the digest (R137, R146). -/
def execTileDigestComplete (n : LaneId) (s : State) : Res :=
  let l := s.lane n
  match l.digests with
  | [] => .next s
  | (g, i) :: r =>
    let s := s.modLane n (fun l => { l with digests := r })
    match l.tags.find? (fun x => x.id = g) with
    | none => .next s
    | some tg =>
      let h := match (l.thr tg.thr).phase with
        | some p => p.h
        | none => 0xFFF
      match l.chain i with
      | none => .next ((s.hmFail n h 2 0x1201 i).tagDone n g 0x1201 none)
      | some ts => match l.badTile ts with
        | some b => .next ((s.hmFail n h 2 0x1201 b).tagDone n g 0x1201 none)
        | none => match s.thrKey n tg.thr with
          | none => .next ((s.hmFail n h 2 0x1204 i).tagDone n g 0x1204 none)
          | some k => .next (s.tagDone n g 0 (some (i, digestOf k (l.content ts))))

/-- TILE.RELEASE rd, rs1 (R43, R84): exception 25 without an acknowledged record. -/
def execTileRelease (n : LaneId) (t : ThreadId) (rd rs1 : XReg) (s : State) : Res := s.issue n t (xTileRelease rd rs1) fun s th =>
  let v := (th.rd rs1).toNat
  let h := v % 4096
  let dest := if v < 4096 then some none else (Config.xferDest v).map some
  match (s.lane n).msg h, dest with
  | some m, some d =>
    let other := match th.phase with
      | some p => decide (p.h ≠ h)
      | none => true
    if !m.acked || m.released || other then s.trap n t 25 (th.rd rs1)
    else
      let s := s.modLane n (fun l => l.setMsg h { m with released := true, atPort := true, xfer := d, relClk := s.laneClk })
      s.retT n t rd 0
  | _, _ => s.trap n t 25 (th.rd rs1)

/-- HM.FIELD rd, rs1, rs2. -/
def execHmField (n : LaneId) (t : ThreadId) (rd rs1 rs2 : XReg) (s : State) : Res := s.issue n t (xHmField rd rs1 rs2) fun s th =>
  match (s.lane n).msg (th.rd rs1).toNat with
  | none => s.drew.retT n t rd (s.freeWord.toNat % 2 ^ 32)
  | some m =>
    let x := m.hm
    match (th.rd rs2).toNat with
    | 0 => s.retT n t rd (x.origin.toNat % 2 ^ 32)
    | 1 => s.retT n t rd (x.origin.toNat / 2 ^ 32)
    | 2 => s.retT n t rd (x.chain.toNat % 2 ^ 32)
    | 3 => s.retT n t rd (x.chain.toNat / 2 ^ 32)
    | 4 => s.retT n t rd x.session
    | 5 => s.retT n t rd x.step
    | 6 => s.retT n t rd x.flags
    | 7 => s.retT n t rd (x.beat % 2 ^ 32)
    | _ => s.drew.retT n t rd (s.freeWord.toNat % 2 ^ 32)

/-- HM.DERIVE rd, rs1, rs2 (R85, R147): extends the chain over a completed digest, or leaves the hallmark and writes
0xFFFF_FFFF. -/
def execHmDerive (n : LaneId) (t : ThreadId) (rd rs1 rs2 : XReg) (s : State) : Res := s.issue n t (xHmDerive rd rs1 rs2) fun s th =>
  let h := (th.rd rs1).toNat
  let l := s.lane n
  let s := s.lpmu n 22 48
  let claimed := match l.msg h with
    | some m => m.claim.isSome
    | none => true
  match l.digestTag t (th.rd rs2).toNat with
  | none => s.retT n t rd noVal
  | some g => match g.digest with
    | none => s.retT n t rd noVal
    | some (i, d) =>
      if claimed then s.retT n t rd noVal
      else match s.extend n h (0x200 + n) d i false with
        | (s', some st) => s'.retT n t rd st
        | (s', none) => (s'.hmFail n h 2 (s.linkCode n h) endTile).retT n t rd noVal

/-! ### Engine operations (custom-1) -/

/-- The bytes of a descriptor at a Stylus tile-memory address; none outside tile memory. -/
def Lane.desc (l : Lane) (a k : Nat) : Option Bytes :=
  if 0x10000000 ≤ a ∧ a + k ≤ 0x10800000 then some (memRead l.tmem (a - 0x10000000) k) else none

/-- The phase reports a rebooking with 0x15C2 (R58), and the wait counts as LATE. -/
def Phase.late (p : Phase) (w : Nat) : Phase := { p.wait 2 w with report := 0x15C2 }
/-- Booked Burin operation `i` of the phase is issued or cancelled (R83). -/
def Phase.take (p : Phase) (i : Nat) : Phase :=
  let f := fun (q : Booking × Nat) => if q.2 = i then { q.1 with free := false } else q.1
  { p with bur := (p.bur.zip (List.range p.bur.length)).map f }

/-- Bytes of input in a Stencil descriptor's chains. -/
def Lane.stnInput (l : Lane) (d : Bytes) : Nat :=
  let sz := fun (i : Nat) => (l.content ((l.chain i).getD [])).length
  sz (Bytes.le d 4 4) + (if Bytes.le d 8 4 = noVal then 0 else sz (Bytes.le d 8 4))

/-- How a Stencil descriptor comes to its interval (R58, R92, R111). -/
inductive StnBook where
  /-- the phase's booked run -/
  | own
  /-- a RESUME inside the phase's booked interval -/
  | inside
  /-- at the engine's tail, charged to the next boundary -/
  | tail
  /-- at the engine's tail without a charge: ABORT, and a descriptor without a defined operation -/
  | free
  deriving DecidableEq, Repr
/-- Lane cycles a descriptor is booked for outside a booked run. -/
def Lane.stnTime (l : Lane) (ph : Option Phase) (d : Bytes) : Nat :=
  let op := Bytes.le d 0 1 % 16
  let cap := 256 * ((l.chain (Bytes.le d 16 4)).getD []).length
  let left := match ph.bind (fun p => l.stn.ctxs.find? (fun c => c.h = p.h)) with
    | some c => if c.bounded then min cap (c.outMax - c.written) else cap
    | none => cap
  if op = 3 then 16 + cdiv (left * 8) 15 else if op = 4 then 16
  else if op = 1 ∨ op = 2 then stnCycles (l.stnInput d) (match ph with
    | some p => p.outMax
    | none => cap)
  else 64
/-- The interval of a descriptor issued at `now`, and how it was booked. -/
def Lane.stnBook (l : Lane) (now : Nat) (ph : Option Phase) (d : Bytes) : StnBook × Nat × Nat :=
  let op := Bytes.le d 0 1 % 16
  let st := max now l.stn.tail
  let sp := st + 16 * cdiv (l.stnTime ph d) 16
  let at_ : StnBook := if op = 1 ∨ op = 2 ∨ op = 3 then .tail else .free
  match ph with
  | none => (at_, st, sp)
  | some p =>
    let bounded := (l.stn.ctxs.find? (fun c => c.h = p.h)).any (·.bounded)
    if (op = 1 ∨ op = 2) ∧ p.stn.free ∧ now ≤ p.stn.start then (.own, p.stn.start, p.stn.stop)
    else if op = 3 ∧ bounded ∧ now + l.stnTime ph d ≤ p.stn.stop then (.inside, now, now + l.stnTime ph d)
    else (at_, st, sp)
/-- What the phase keeps of the descriptor: its booking is used, the wait for tiles ends (R60), a rebooking is reported. -/
def Phase.stnIssued (p : Phase) (b : StnBook) (op now st : Nat) (ctx : Option StnCtx) : Phase :=
  let first := decide (op = 1 ∨ op = 2) && p.stn.free
  let p' := if first then { p with stn := { p.stn with free := false } } else p
  let p' := if op = 3 then p'.wait 1 (match ctx with
    | some c => now - c.suspClk
    | none => 0) else p'
  if b = .tail then p'.late (st - (if first then p.stn.start else now)) else p'
/-- STN.GO rd, rs1 (R83, R92): the descriptor takes the phase's booked run, or is booked at the tail. -/
def execStnGo (n : LaneId) (t : ThreadId) (rd rs1 : XReg) (s : State) : Res := s.issue n t (xStnGo rd rs1) fun s th =>
  if (s.lane n).tagsFull t then s.modThr n t (fun th => { th with run := .waitGo })
  else
    let l := (s.lane n).roomTag t
    let a := (th.rd rs1).toNat
    let d := if a % 32 = 0 then (l.desc a 32).getD (Bytes.zeros 32) else Bytes.zeros 32
    let g := l.newTag
    let tag : Tag := { id := g, thr := t, kind := .stn }
    if l.st ≠ 2 ∧ l.st ≠ 3 then
      (s.setLane n { l with tags := l.tags ++ [{ tag with code := some 0x1501 }] }).retT n t rd g
    else
      let (b, st, sp) := l.stnBook s.laneClk th.phase d
      let o : StnOp := {
        thr := t, tag := g, desc := d, start := st, stop := sp, early := decide (b ≠ .own), outMax := match th.phase with
          | some p => p.outMax
          | none => 0x40000 }
      let ph := th.phase.map (fun p => p.stnIssued b (Bytes.le d 0 1 % 16) s.laneClk st (l.stn.ctxs.find? (fun c => c.h = p.h)))
      let booked := decide (b = StnBook.tail ∨ b = StnBook.free)
      let l' := { (l.setThr t { l.thr t with phase := ph }) with
        tags := l.tags ++ [tag]
        stn := { l.stn with
          q := l.stn.q ++ [o]
          tail := if booked then sp else l.stn.tail
          cal := if booked then l.stn.cal ++ [(st, sp)] else l.stn.cal }
        chargeStn := l.chargeStn + (if b = StnBook.tail then (sp - st) / 16 else 0) }
      let s := if b = StnBook.tail ∧ th.phase.isSome then s.lpmu n 11 1 else s
      (s.setLane n { l' with lpmu := (s.lane n).lpmu }).retT n t rd g

/-- The engine and interval of a Burin descriptor issued at `now`: the phase's next booked operation when it comes in time
and fits it (R83), else a place at a tail (R58); and whether it was rebooked. -/
def Lane.burBook (l : Lane) (now : Nat) (ph : Option Phase) (opc : Nat) : Nat × Nat × Nat × Bool :=
  let cyc := (opCycles opc).getD 64
  match ph.bind (fun p => p.bur.find? (·.free)) with
  | some b =>
    if now ≤ b.start ∧ b.start + cyc ≤ b.stop then (b.eng, b.start, b.stop, false)
    else
      let st := max now (l.burEng b.eng).tail
      (b.eng, st, st + 16 * cdiv cyc 16, true)
  | none =>
    let (e, u) := pickEngine now 0 ((List.range 4).map (fun e => (l.burEng e).tail))
    (e, now + 16 * u, now + 16 * (u + cdiv cyc 16), true)
/-- What the phase keeps of a BUR.GO: its next booked operation is used, and a rebooking is reported. -/
def Phase.burIssued (p : Phase) (re : Bool) (now st : Nat) : Phase :=
  let p' := match p.bur.findIdx? (·.free) with
    | some i => p.take i
    | none => p
  if re then { p'.late (st - ((p.bur.find? (·.free)).map (·.start)).getD now) with burLate := true } else p'
/-- BUR.GO rd, rs1 (R83, R127): the descriptor is copied and takes the phase's next booked operation, or is rebooked. -/
def execBurGo (n : LaneId) (t : ThreadId) (rd rs1 : XReg) (s : State) : Res := s.issue n t (xBurGo rd rs1) fun s th =>
  if (s.lane n).tagsFull t then s.modThr n t (fun th => { th with run := .waitGo })
  else
    let s := s.lpmu n 15 1
    let l := (s.lane n).roomTag t
    let a := (th.rd rs1).toNat
    let d := if a % 64 = 0 then (l.desc a 64).getD (Bytes.zeros 64) else Bytes.zeros 64
    let g := l.newTag
    let tag : Tag := { id := g, thr := t, kind := .bur }
    if l.st ≠ 2 ∧ l.st ≠ 3 then
      (s.setLane n { l with tags := l.tags ++ [{ tag with code := some 0x1501 }] }).retT n t rd g
    else
      let opc := Bytes.le d 0 1
      let (e, st, sp, re) := l.burBook s.laneClk th.phase opc
      let o : BurOp := {
        src := .thread t g, desc := d, opc := opc, key := Bytes.le d 32 8, start := st, stop := sp, early := re,
        dl := match th.phase with
          | some p => p.dlCycles
          | none => 15 * 16000 }
      let ph := th.phase.map (fun p => p.burIssued re s.laneClk st)
      let eng := if re then (l.burEng e).book o else { l.burEng e with q := (l.burEng e).q ++ [o] }
      let s := if re ∧ th.phase.isSome then s.lpmu n 11 1 else s
      (s.setLane n { ((l.setThr t { l.thr t with phase := ph }).setBurEng e eng) with
        tags := l.tags ++ [tag]
        lpmu := (s.lane n).lpmu
        chargeBur := l.chargeBur + (if re then (sp - st) / 16 else 0) }).retT n t rd g

/-- BUR.SKIP rs1 (R83): the booked operation is cancelled; its interval stays as idle time. -/
def execBurSkip (n : LaneId) (t : ThreadId) (rs1 : XReg) (s : State) : Res := s.issue n t (xBurSkip rs1) fun s th =>
  let i := (th.rd rs1).toNat
  let skip := fun (th : Thread) => match th.phase with
    | some p => { th with phase := some (p.take i) }
    | none => th
  (s.modThr n t skip).retT n t 0 0

/-- ENG.WAIT rd, rs1: exception 26 on a tag the thread does not hold. -/
def execEngWait (n : LaneId) (t : ThreadId) (rd rs1 : XReg) (s : State) : Res := s.issue n t (xEngWait rd rs1) fun s th =>
  let id := (th.rd rs1).toNat
  match (s.lane n).tags.find? (fun g => g.id = id ∧ g.thr = t.val) with
  | none => s.trap n t 26 (th.rd rs1)
  | some g => match g.code with
    | some c => (s.modLane n (fun l => l.retire g)).retT n t rd c.toNat
    | none => s.modThr n t (fun th => { th with run := .waitTag rd id, waitClk := s.laneClk })

/-- ENG.POLL rd, rs1. -/
def execEngPoll (n : LaneId) (t : ThreadId) (rd rs1 : XReg) (s : State) : Res := s.issue n t (xEngPoll rd rs1) fun s th =>
  let id := (th.rd rs1).toNat
  match (s.lane n).tags.find? (fun g => g.id = id ∧ g.thr = t.val) with
  | none => s.trap n t 26 (th.rd rs1)
  | some g => match g.code with
    | some c => (s.modLane n (fun l => l.retire g)).retT n t rd c.toNat
    | none => s.retT n t rd noVal

/-! ### Shelf and journal operations -/

/-- A hand-off shelf's indices (HSH[k].PROD and CONS). -/
def State.hshFull (s : State) (n k : Nat) : Bool :=
  let p := s.lreg n (shelfOff k + 0xC)
  let c := s.lreg n (shelfOff k + 0x10)
  (p + 2 ^ 32 - c) % 2 ^ 32 = shelfEntries ((s.lane n).cfg (shelfOff k + 8))

/-- The slot or the tally word of a shelf lies outside installed DRAM (R29). Shelves 0-7 hand-off, 8-15 return. -/
def State.shelfGone (s : State) (n k : Nat) : Bool :=
  let l := s.lane n
  let o := shelfOff k
  let cfg := l.cfg (o + 8)
  let i := s.lreg n (o + (if k < 8 then 0xC else 0x10))
  let a := l.cfg o + l.cfg (o + 4) * 2 ^ 32 + i % shelfEntries cfg * shelfSlot cfg
  let w := l.cfg (o + 0x14) + l.cfg (o + 0x18) * 2 ^ 32
  decide (a < dramBase ∨ a + shelfSlot cfg > s.dramTop ∨ w < dramBase ∨ w + 8 > s.dramTop)
/-- The post itself: entry, then tally word, then the message awaits its decision (R42, R63). -/
def State.post (s : State) (n t rd k h : Nat) (m : Msg) : State :=
  let l := s.lane n
  let o := shelfOff k
  let cfg := l.cfg (o + 8)
  let p := s.lreg n (o + 0xC)
  let base := l.cfg o + l.cfg (o + 4) * 2 ^ 32
  let rec_ := m.hm.bytes ++ (l.content ((l.chain m.canonTile).getD [])).drop 32
  let s := s.dramWriteBy (256 + n) (base + p % shelfEntries cfg * shelfSlot cfg) rec_ false
  let p' := (p + 1) % 2 ^ 32
  let s := s.dramWriteBy (256 + n) (l.cfg (o + 0x14) + l.cfg (o + 0x18) * 2 ^ 32)
    (Bytes.ofNatLE 8 (p' + SMap.get 0 k l.hshGen % 65536 * 2 ^ 32)) false
  let s := (s.setLreg n (o + 0xC) p').lpmu n 23 1
  let s := s.shelfNotify n k 1
  let s := s.modMsg n h (fun m => { m with
    stage := .awaiting, posted := true, toBeat := s.btm.beat + bits (l.cls m.cls 4) 15 0, postClk := s.laneClk })
  let s := s.modThr n t (fun th => match th.phase with
    | some q => { th with phase := some { q with posted := true } }
    | none => th)
  (s.phaseEnd n t).retT n t rd 0

/-- SHELF.POST rd, rs1, rs2 (R40, R51). -/
def execShelfPost (n : LaneId) (t : ThreadId) (rd rs1 rs2 : XReg) (s : State) : Res := s.issue n t (xShelfPost rd rs1 rs2) fun s th =>
  let l := s.lane n
  let k := (th.rd rs1).toNat
  let h := (th.rd rs2).toNat
  if l.st ≠ 2 ∧ l.st ≠ 3 then s.retT n t rd 0x1501
  else match l.msg h with
    | none => s.retT n t rd 0x1508
    | some m =>
      let cfg := l.cfg (shelfOff k + 8)
      if k > 7 ∨ !bit cfg 0 ∨ m.canonTile = endTile ∨ m.canonLen > shelfSlot cfg then s.retT n t rd 0x1508
      else if s.shelfGone n k then s.retT n t rd 0x1502
      else if s.hshFull n k then s.modThr n t (fun th => { th with run := .waitPost rd k h, waitClk := s.laneClk })
      else s.post n t rd k h m

/-- An entry has freed: the waiting post is placed (R40). -/
def execShelfPostResume (n : LaneId) (t : ThreadId) (s : State) : Res :=
  let th := s.thr n t
  match th.run with
  | .waitPost rd k h =>
    if s.hshFull n k then .next s
    else match (s.lane n).msg h with
      | none => .next (s.retT n t rd 0x1508)
      | some m =>
        let w := s.laneClk - th.waitClk
        let s := s.modThr n t (fun th => { th with phase := th.phase.map (·.wait 0 w) })
        .next ((s.lpmu n 24 w).post n t rd k h m)
  | _ => .next s

/-- The checks of R162 for a lane program's record: 0 when it may be presented. -/
def Lane.putCheck (l : Lane) (th : Thread) (a : Nat) : Nat :=
  match l.desc a 64 with
  | none => 0x1302
  | some b =>
    let ty := Bytes.le b 21 1
    let w3 := Bytes.le b 24 8
    let sz := bits w3 55 54
    if a % 64 ≠ 0 ∨ bits w3 63 58 ≠ 0 ∨ sz = 3 ∨ (l.desc a (64 * 2 ^ sz)).isNone then 0x1302
    else if ¬(0x81 ≤ ty ∧ ty ≤ 0x85) then 0x1303
    else match th.phase with
      | none => 0x1305
      | some p => match l.msg p.h with
        | none => 0x1305
        | some m => if m.disp.isSome then 0x1304 else 0

/-- JRN.PUT rd, rs1 (R149, R163): refused at once, or presented to the lane's ring while the thread sleeps. -/
def execJrnPut (n : LaneId) (t : ThreadId) (rd rs1 : XReg) (s : State) : Res := s.issue n t (xJrnPut rd rs1) fun s th =>
  let l := s.lane n
  let a := (th.rd rs1).toNat
  let s := s.lpmu n 25 1
  let c := l.putCheck th a
  if c ≠ 0 then s.retT n t rd c
  else match th.phase with
    | none => s.retT n t rd 0x1305
    | some p =>
      let b := (l.desc a 64).getD []
      let sz := bits (Bytes.le b 24 8) 55 54
      let b := (l.desc a (64 * 2 ^ sz)).getD []
      let m := (l.msg p.h).getD {}
      let r : PortRec := {
        src := .thread n t p.h, agent := 256 + n, bytes := b.splice 32 m.hm.bytes, route := routeOf m.hm.lane m.trace }
      let s := (s.present n r).modMsg n p.h (fun m => { m with disp := some (Bytes.le b 21 1) })
      s.modThr n t (fun th => { th with run := .waitJrn rd, waitClk := s.laneClk })

/-! ### Beat and thread operations -/

/-- BEAT.READ rd: the low half; the high half is latched (R26, R87). -/
def execBeatRead (n : LaneId) (t : ThreadId) (rd : XReg) (s : State) : Res := s.issue n t (xBeatRead rd) fun s _ =>
  (s.modThr n t (fun th => { th with beatHi := BitVec.ofNat 32 (s.btm.beat / 2 ^ 32) })).retT n t rd s.btm.beat
/-- BEAT.READH rd. -/
def execBeatReadh (n : LaneId) (t : ThreadId) (rd : XReg) (s : State) : Res := s.issue n t (xBeatReadh rd) fun s th => s.retT n t rd th.beatHi.toNat
/-- BEAT.LEFT rd: signed lane cycles until the phase's deadline boundary. -/
def execBeatLeft (n : LaneId) (t : ThreadId) (rd : XReg) (s : State) : Res := s.issue n t (xBeatLeft rd) fun s th =>
  match th.phase with
  | none => s.drew.retT n t rd (s.freeWord.toNat % 2 ^ 32)
  | some p =>
    let left : Int := (s.btm.len - s.btm.cyc : Nat) + ((p.dlBeat : Int) - s.btm.beat - 1) * 16000
    s.modThr n t (fun th => th.ret rd (BitVec.ofInt 32 left))
/-- BEAT.WAIT: sleep until the next beat boundary; in a boundary's own lane cycle it returns at once (R87). -/
def execBeatWait (n : LaneId) (t : ThreadId) (s : State) : Res := s.issue n t xBeatWait fun s _ =>
  if s.btm.running ∧ s.btm.cyc = 0 then s.retT n t 0 0
  else s.modThr n t (fun th => { th with run := .waitBeat, waitClk := s.laneClk })

/-- THR.END (R86): permitted once the message is posted or its disposition acknowledged. -/
def execThrEnd (n : LaneId) (t : ThreadId) (s : State) : Res := s.issue n t xThrEnd fun s th =>
  match th.phase with
  | none => s.doubleFault n t
  | some p =>
    let ok := p.posted || (match (s.lane n).msg p.h with
      | some m => m.acked
      | none => true)
    if ok then (s.leavePhase n t).modLane n (fun l => l.idle t) else s.doubleFault n t
/-- THR.SIGNAL rs1: mip.MSI of the thread named. -/
def execThrSignal (n : LaneId) (t : ThreadId) (rs1 : XReg) (s : State) : Res := s.issue n t (xThrSignal rs1) fun s th =>
  let u := (th.rd rs1).toNat
  let s := if u < 8 then s.modThr n u (fun x => { x with mip := x.mip ||| 8#32 }) else s
  s.retT n t 0 0

/-! ### Events of a thread -/

/-- An interrupt is taken (R76, R77): the lowest enabled pending source, whose pending bit the entry clears. -/
def execStylusInterrupt (n : LaneId) (t : ThreadId) (s : State) : Res :=
  let th := s.thr n t
  let p := (th.mip &&& th.mieBits).toNat
  let able := match th.run with
    | .run => true
    | .waitBeat => true
    | .waitTag _ _ => true
    | _ => false
  match [3, 16, 17, 18, 19].find? (fun b => bit p b) with
  | none => .next s
  | some b =>
    if th.mie && able then
      .next (s.modThr n t (fun th => { th with
        mepc := th.pc, mcause := BitVec.ofNat 32 (2 ^ 31 + b), mtval := 0, mpie := th.mie, mie := false,
        mip := th.mip &&& ~~~BitVec.ofNat 32 (2 ^ b), pc := BitVec.ofNat 32 ((s.lane n).mtvec t), run := .run }))
    else .next s

/-- An exception of a thread (R78, R450): mtval holds the value its cause gives it, 0 for the others. -/
def execStylusException (n : LaneId) (t : ThreadId) (cause tval : W32) (s : State) : Res :=
  let th := s.thr n t
  if th.run = .run then
    .next (s.trap n t cause (if [1, 5, 7, 24, 25, 26].contains cause.toNat then tval else 0))
  else .next s

end Sys2Proof.Machine
end

