-- ==== Sys2Proof/Machine/Burin.lean ====
section
/-!
DEFINITION. The Burin engines: start checks (R132), the result of each operation (R113 to R122, R453), completion
(R127 to R131), and one meaning for each operation code's row and for BUR_OPERATION_COMPLETE.
-/

namespace Sys2Proof.Machine
open Sys2Proof

/-! ### Descriptor fields (Tables BUR-7, BUR-8) -/

def bBound (d : Bytes) : Bool := bit (Bytes.le d 1 1) 0
def bChain (d : Bytes) : Bool := bit (Bytes.le d 1 1) 1
def bAppend (d : Bytes) : Bool := bit (Bytes.le d 1 1) 2
def bAuxch (d : Bytes) : Bool := bit (Bytes.le d 1 1) 3
def bCheck (d : Bytes) : Bool := bit (Bytes.le d 1 1) 4
def bHandle (d : Bytes) : Nat := Bytes.le d 2 2 % 4096
def bIn (d : Bytes) : Nat := Bytes.le d 4 4
def bInLen (d : Bytes) : Nat := Bytes.le d 8 4
def bOff (d : Bytes) : Nat := Bytes.le d 12 4
def bLen (d : Bytes) : Nat := Bytes.le d 16 4
def bAux (d : Bytes) : Nat := Bytes.le d 20 4
def bAuxLen (d : Bytes) : Nat := Bytes.le d 24 2
def bOutMax (d : Bytes) : Nat := Bytes.le d 26 2
def bOut (d : Bytes) : Nat := Bytes.le d 28 4
def bKey (d : Bytes) : Nat := Bytes.le d 32 8
def bKey2 (d : Bytes) : Nat := Bytes.le d 40 8
def bCompl (d : Bytes) : Nat := Bytes.le d 48 4
def bParam (d : Bytes) (i : Nat) : Nat := Bytes.le d (52 + i) 1
def bPubAddr (d : Bytes) : Nat := Bytes.le d 56 4
def bPubLen (d : Bytes) : Nat := Bytes.le d 60 2

/-- Whether `n` bytes at a Stylus address lie in tile memory. -/
def inTileMem (a n : Nat) : Bool := decide (0x10000000 ≤ a) && decide (a + n ≤ 0x10800000)
/-- Bytes at a Stylus tile-memory address. -/
def Lane.at (l : Lane) (a n : Nat) : Bytes := memRead l.tmem (a - 0x10000000) n
/-- A descriptor's whole input as it stands. -/
def Lane.bInput (l : Lane) (d : Bytes) : Bytes :=
  if bChain d then l.content ((l.chain (bIn d)).getD []) else l.at (bIn d) (bInLen d)
/-- The AUX bytes: from the input when AUXCH is 1. -/
def Lane.bAuxBytes (l : Lane) (d : Bytes) (n : Nat) : Bytes :=
  if bAuxch d then Bytes.slice (l.bInput d) (bAux d) n else l.at (bAux d) n

/-! ### Start checks (R132) -/

/-- Output bytes the start check counts (R130). -/
def bOutNeed (c : Nat) (d : Bytes) : Nat :=
  if isHash c then hashLen c
  else if isMac c then (if bCheck d then 0 else bParam d 0)
  else if isSign c then (if isEcdsa c && bParam d 0 % 256 = 1 then derMax c else sigLen c)
  else if isPin c then (if bParam d 1 = 4 then 16 else 8)
  else 0
/-- 0x1106: undefined code, reserved bits, misalignment, BOUND without CHAIN, APPEND without BOUND. -/
def bBad (c : Nat) (d : Bytes) : Bool :=
  let p := fun i => bParam d i
  ((opCycles c).isNone && !isService c) || decide (Bytes.le d 1 1 ≥ 32) || decide (Bytes.le d 2 2 ≥ 4096) || decide (bCompl d % 32 ≠ 0)
    || (bBound d && !bChain d) || (bAppend d && !bBound d)
    || (if isVerify c || isSign c then decide (p 0 > 1) || (decide (p 0 = 1) && !isEcdsa c) || decide (p 1 > 1)
          || decide (p 2 > 2) || decide (p 3 ≠ 0) || decide (Bytes.le d 62 2 ≠ 0)
        else if isHash c || isMac c then decide (p 2 ≠ 0) || decide (p 3 ≠ 0) || decide (Bytes.le d 56 8 ≠ 0)
        else decide (p 2 ≠ 0) || decide (p 3 ≠ 0) || decide (Bytes.le d 56 8 ≠ 0) || (isDukpt c && (decide (p 0 > 3) || decide (p 1 ≠ 0))))
/-- Number of items a batch code allows. -/
def batchMax (c : Nat) : Nat := if c % 4 = 0 then 16 else if c % 4 = 1 then 32 else 64
/-- A translate from format 1 to format 1 without a PAN, which it does not need. -/
def noPan (c : Nat) (d : Bytes) : Bool := isPin c && decide (bParam d 0 = 1 ∧ bParam d 1 = 1 ∧ bAuxLen d = 0)
/-- 0x1107 at the start: class limits, batch count, PAN and key-serial-number lengths. -/
def Lane.bLimits (l : Lane) (c : Nat) (d : Bytes) : Bool :=
  let i := (l.bInput d).length
  if isBatch c then decide (bAuxLen d > batchMax c ∨ bAuxLen d = 0 ∨ i > 16384)
  else if isPin c then decide (i > 4096) || (!noPan c d && decide (bAuxLen d < 12 ∨ bAuxLen d > 19))
  else if isDukpt c then decide (i > 4096 ∨ bAuxLen d ≠ (if c = 0x80 then 10 else 12))
  else if isHash c || isMac c then decide (i > hashMax (c % 4)) || (isMac c && !macLenOk c (bParam d 0))
  else decide (i > asymMax (c % 4))
/-- 0x110C at the start: a descriptor address outside tile memory. -/
def Lane.bAddrs (l : Lane) (c : Nat) (d : Bytes) : Bool :=
  let auxN := if isBatch c then 16 * bAuxLen d else bAuxLen d
  let useAux := isVerify c || isPin c || isDukpt c || (isMac c && bCheck d)
  (!bChain d && !inTileMem (bIn d) (bInLen d)) || (bChain d && decide (bIn d ≥ tileCount))
    || (useAux && !noPan c d && !bAuxch d && !inTileMem (bAux d) auxN)
    || !inTileMem (bCompl d) 32
    || (isVerify c && !isBatch c && decide (bKey d = 0) && !inTileMem (bPubAddr d) (bPubLen d))
    || (if bAppend d then decide (bOut d ≠ noVal) && (l.chain (bOut d)).isNone
        else decide (bOutNeed c d ≠ 0) && !inTileMem (bOut d) (bOutNeed c d))
/-- 0x110D: output space. -/
def Lane.bSpace (l : Lane) (c : Nat) (d : Bytes) : Bool :=
  if bAppend d then
    let last := ((l.chain (bIn d)).getD []).getLast?.getD 0
    let freeLast := 256 - sideFill (l.sideW last)
    let ext := if bOut d = noVal then 0 else 256 * ((l.chain (bOut d)).getD []).length
    decide (freeLast + ext < bOutNeed c d)
  else decide (bOutMax d < bOutNeed c d)

/-- The requesting unit's UNITS bit (Table STR-5). -/
def OpSrc.unitBit : OpSrc → Nat
  | .thread _ _ => 0
  | .reserve .net _ => 1
  | .reserve .jrn _ => 2
  | .reserve .str _ => 3
def OpSrc.isThread : OpSrc → Bool
  | .thread _ _ => true
  | _ => false

/-- What the start checks answer: refusal, reason, key material, second key's material, warning, policy. -/
structure StartAns where
  code : Option Code := none
  reason : Nat := 0
  mat : Bytes := []
  mat2 : Bytes := []
  cls : Nat := 0
  warn : Option Code := none
  pol : Nat := 0
  /-- the key whose policy refused (R124) -/
  refused : Option Nat := none
  counted : List (Nat × Nat) := []
  /-- the bin a derive takes (R121) -/
  bin : Option Nat := none
  deriving DecidableEq, Repr

/-- The key a descriptor's KEY presents (R123): none where the handle or class fails, `some none` where no key is needed. -/
def State.firstKey (s : State) (n c h key : Nat) : Option (Option KeyRef) :=
  if key ≠ 0 then (s.findKey n h c key).map some
  else if isHash c then some none
  else if isVerify c then
    let i := SMap.get 0 n s.str.inline
    some (some { pol := i, uses := SMap.get 0 i s.str.inlineUses })
  else none
/-- The key KEY2 presents: a PIN translate's target key; elsewhere 0 presents none. -/
def State.secondKey (s : State) (n c h key2 : Nat) : Option (Option KeyRef) :=
  if key2 ≠ 0 then (s.findKey n h c key2).map some else if isPin c then none else some none
/-- Translation out of format 4 that KEY2's policy does not permit (R119). -/
def State.fmt4Refused (s : State) (c : Nat) (d : Bytes) (k2 : Option KeyRef) : Bool :=
  isPin c && decide (pinConv (bParam d 0) (bParam d 1) = 2)
    && (k2.bind (fun k => s.policy k.pol)).all (fun p => !bit p.flags 1)
/-- Checks 0x1104 and 0x1102 over KEY and KEY2 (R123, R451). -/
def State.keyChecks (s : State) (n c : Nat) (src : OpSrc) (d : Bytes) (h key key2 : Nat) : StartAns :=
  match s.firstKey n c h key, s.secondKey n c h key2 with
  | some k1, some k2 =>
    let r1 := k1.bind (fun k => s.polReason n src.unitBit k.pol k.uses (decide (key = 0)))
    let r2 := k2.bind (fun k => s.polReason n src.unitBit k.pol k.uses false)
    match r1, r2 with
    | some r, _ => { code := some 0x1102, reason := r, refused := some key }
    | none, some r => { code := some 0x1102, reason := r, refused := some key2 }
    | none, none =>
      if s.fmt4Refused c d k2 then { code := some 0x1102, reason := 0x07, refused := some key2 }
      else
        let used := (k1.map (fun k => (key, k))).toList ++ (if isPin c then (k2.map (fun k => (key2, k))).toList else [])
        let ws := used.map (fun p => s.keyWarn p.2.pol (p.2.uses + 1))
        { mat := (k1.map (·.mat)).getD [], mat2 := (k2.map (·.mat)).getD [], cls := (k1.map (·.cls)).getD 0,
          pol := (k1.map (·.pol)).getD 0, counted := used.map (fun p => (p.1, p.2.pol)),
          warn := if ws.contains (some 0x11C1) then some 0x11C1 else if ws.contains (some 0x11C2) then some 0x11C2 else none }
  | _, _ => { code := some 0x1104 }

/-- The start checks from 0x1106 to 0x110D (R132). -/
def Lane.burPre (l : Lane) (o : BurOp) : Option Code :=
  let c := o.opc
  let d := o.desc
  if bBad c d then some 0x1106
  else if isService c || decide ((opCycles c).getD 0 > o.dl) then some 0x1105
  else if l.bLimits c d then some 0x1107
  else if l.bAddrs c d then some 0x110C
  else if l.bSpace c d then some 0x110D
  else none
/-- The waiting operation of an engine whose booked start has come. -/
def BurEng.due (g : BurEng) (now : Nat) : Option BurOp :=
  (g.q.filter (fun o => decide (o.start ≤ now))).foldl (fun b o => match b with
    | none => some o
    | some x => if o.start < x.start then some o else some x) none
/-- Whether the chain of message `h` is claimed when engine `e` starts (R128): by a run, by a suspended Stencil run, or in the
same lane cycle by the Stencil engine or a lower local engine. -/
def Lane.claimed (l : Lane) (e h now : Nat) : Bool :=
  (l.msg h).any (fun m => m.claim.isSome) || l.stn.ctxs.any (fun x => x.h = h)
    || (l.stn.run.isNone && l.stn.q.any (fun o => decide (o.start ≤ now) && decide (Bytes.le o.desc 2 2 % 4096 = h)
          && decide (Bytes.le o.desc 0 1 % 16 ∈ [1, 2])))
    || (List.range e).any (fun i => (l.burEng i).run.isNone && ((l.burEng i).due now).any (fun o =>
          o.src.isThread && bBound o.desc && decide (bHandle o.desc = h) && (l.burPre o).isNone))
/-- The lowest transient bin that holds no key and that no running derive has reserved (R121). -/
def Lane.freeBin (l : Lane) : Option Nat :=
  (List.range 64).find? (fun i => (SMap.get none i l.trans).isNone
    && l.eng.all (fun p => p.2.run.all (fun r => decide (r.bin ≠ some i))))

/-- All start checks of a lane program's descriptor in the order of R132. -/
def State.startChecks (s : State) (n e : Nat) (o : BurOp) : StartAns :=
  let l := s.lane n
  let c := o.opc
  let d := o.desc
  let h := bHandle d
  match l.burPre o with
  | some code => { code := some code }
  | none =>
    if bBound d && l.claimed e h s.laneClk then { code := some 0x1108 }
    else
      let k := s.keyChecks n c o.src d h (bKey d) (bKey2 d)
      let aes := fun (kk : Nat) => (s.findKey n h c kk).any (·.aes)
      if k.code.isSome then k
      else if isPin c && (decide (pinConv (bParam d 0) (bParam d 1) = 0) || decide (bParam d 0 = 4) != aes (bKey d)
          || decide (bParam d 1 = 4) != aes (bKey2 d)) then { code := some 0x110B }
      else if isDukpt c then (match l.freeBin with
        | some i => { k with bin := some i }
        | none => { code := some 0x110E })
      else k

/-- Whether an operation of `cyc` lane cycles fits, from now on, an interval that the calendar leaves idle (R58): the engine is
inside a booked interval other than the operation's own, and the operation ends before the next booked start. -/
def calFits (cal : List (Nat × Nat)) (own : Nat × Nat) (now cyc : Nat) : Bool :=
  let o := cal.filter (· ≠ own)
  o.any (fun p => decide (p.1 ≤ now ∧ now < p.2)) && o.all (fun p => decide (p.1 ≤ now ∨ now + cyc ≤ p.1))
/-- The operation of one of the codes that an idle engine starts now: the one whose booked start has come, or else rebooked or
reserve work that fits an idle interval (R58, R131). -/
def BurEng.pick (g : BurEng) (now : Nat) (codes : List Nat) : Option BurOp :=
  match g.due now with
  | some o => if codes.contains o.opc then some o else none
  | none => g.q.find? (fun o => o.early && codes.contains o.opc
      && calFits g.cal (o.start, o.stop) now ((opCycles o.opc).getD 64))

/-- What the Strongroom gives a service operation: the key it names itself, as it stands at the start (R125, R452). -/
def State.serviceKey (s : State) (o : BurOp) : StartAns :=
  let z := s.slot (if o.opc = 0xE4 then 0 else if o.opc = 0xE8 then 8 else hdlSlot o.key)
  { mat := z.material, cls := z.cls }
/-- The start checks of a waiting operation by its source. -/
def State.opChecks (s : State) (n e : Nat) (o : BurOp) : StartAns :=
  if o.src.isThread then s.startChecks n e o
  else if isService o.opc then s.serviceKey o
  else s.keyChecks n o.opc o.src (Bytes.zeros 64) 0xFFFF o.key 0
/-- Engine `e` starts the operation that R58 and R131 let it start, when its code is one of the row's. -/
def State.burStart (s : State) (n e : Nat) (codes : List Nat) : State :=
  let l := s.lane n
  let g := l.burEng e
  match g.run, g.pick s.laneClk codes with
  | none, some o =>
    if !o.src.isThread && (decide (l.st = 1) || decide (l.st = 4)) then s
    else
      let a := s.opChecks n e o
      let s := match a.refused with
        | some k => s.keyRefused n o.src.unitBit k a.reason
        | none => s
      let s := a.counted.foldl (fun s p => s.countUse n p.1 p.2) s
      let run : BurRun := {
        op := o, startClk := s.laneClk, refusal := a.code, reason := a.reason, material := a.mat, material2 := a.mat2,
        warn := a.warn, cls := a.cls, bin := a.bin, polDerived := match s.policy a.pol with
          | some p => p.derived
          | none => [] }
      let s := s.modLane n (fun l => l.setBurEng e { l.burEng e with run := some run, q := (l.burEng e).q.erase o })
      if a.code.isNone && o.src.isThread && bBound o.desc then
        s.modMsg n (bHandle o.desc) (fun m => { m with claim := some e })
      else s
  | _, _ => s

/-! ### Results -/

/-- What an operation computes: a code, and its output bytes. -/
structure BurAns where
  code : Code
  out : Bytes := []
  count : Nat := 0
  deriving DecidableEq, Repr

/-- The data of a descriptor within its input; none when it lies beyond (0x1107). -/
def bData (d inp : Bytes) : Option Bytes :=
  if bLen d = noVal then (if bOff d ≤ inp.length then some (inp.drop (bOff d)) else none)
  else if bOff d + bLen d ≤ inp.length then some (Bytes.slice inp (bOff d) (bLen d)) else none

def isEd (c : Nat) : Bool := decide (c / 4 * 4 = 0x14)
/-- The scalar of an Ed25519 signature lies below the group order: S ≥ L is invalid, not malformed (R116). -/
def edScalarOk (sig : Bytes) : Bool :=
  decide (Bytes.le sig 32 32 < 2 ^ 252 + 27742317777372353535851937790883648493)
/-- A signature whose encoding the algorithm calls malformed; an ECDSA encoding is judged by R453 alone. -/
def sigMalformed (c : Nat) (sig : Bytes) : Bool := !isEcdsa c && (!isEd c || edScalarOk sig) && Config.sigMalformed c sig

/-- What one item of a batch answers (R122): 0x110C, 0x1107 and 0x1109 as R132 ranks them, 0x1103 where it does not
verify, 0 where it does. -/
def Lane.batchItem (l : Lane) (inp tab : Bytes) (i : Nat) : Code :=
  let f := fun j => Bytes.le tab (16 * i + 4 * j) 4
  let pub := l.at (f 3) 32
  if !inTileMem (f 3) 32 then 0x110C
  else if f 0 + f 1 > inp.length ∨ f 2 + 64 > inp.length then 0x1107
  else if Config.keyMalformed 0x14 pub || sigMalformed 0x14 (Bytes.slice inp (f 2) 64) then 0x1109
  else if edScalarOk (Bytes.slice inp (f 2) 64) && Config.sigValid 0x14 0 pub (Bytes.slice inp (f 0) (f 1)) (Bytes.slice inp (f 2) 64) then 0 else 0x1103

/-- The operation proper, once chain and offsets are good: 0x1109 and later codes in the order of R132. -/
def State.burCompute (s : State) (n : Nat) (r : BurRun) (inp dat : Bytes) (attemptsOk selfOk : Bool) : BurAns :=
  let l := s.lane n
  let d := r.op.desc
  let c := r.op.opc
  let prm := Bytes.le d 52 4
  if isBatch c then
    let tab := l.bAuxBytes d (16 * bAuxLen d)
    let items := (List.range (bAuxLen d)).map (l.batchItem inp tab)
    if items.contains 0x110C then { code := 0x110C }
    else if items.contains 0x1107 then { code := 0x1107 }
    else match items.findIdx? (fun a => a = 0x1109) with
    | some i => { code := 0x1109, count := i }
    | none => if items.all (fun a => a = 0) then { code := 0 } else { code := 0x1103 }
  else if isVerify c then
    let pub := if bKey d = 0 then l.at (bPubAddr d) (bPubLen d) else r.material
    let sig := l.bAuxBytes d (bAuxLen d)
    let der := isEcdsa c && bParam d 0 = 1
    let lenOk := if der then decide (8 ≤ bAuxLen d ∧ bAuxLen d ≤ derMax c) && derSigOk sig else bAuxLen d = sigLen c
    if !lenOk || Config.keyMalformed c pub || sigMalformed c sig then { code := 0x1109 }
    else if (!isEd c || edScalarOk sig) && Config.sigValid c prm pub dat sig then { code := 0 } else { code := 0x1101 }
  else if isSign c then
    if !attemptsOk && (c / 4 * 4 = 0x2C || c / 4 * 4 = 0x30 || c / 4 * 4 = 0x34) then { code := 0x1110 }
    else if !selfOk || s.str.lapsed then { code := 0x1111 }
    else
      let sig := Config.sign c prm r.material dat s.free
      { code := 0, out := if isEcdsa c && bParam d 0 = 1 then sig.take (derMax c) else Bytes.slice sig 0 (sigLen c) }
  else if isHash c then { code := 0, out := hashOf c dat }
  else if isMac c then
    let mac := (macOf c r.material (bParam d 1) dat).take (bParam d 0)
    if bCheck d then
      if bAuxLen d ≠ bParam d 0 then { code := 0x1109 }
      else if l.bAuxBytes d (bAuxLen d) = mac then { code := 0 } else { code := 0x1101 }
    else { code := 0, out := mac }
  else if isPin c then
    let pan := (l.bAuxBytes d (bAuxLen d)).map (fun x => x.toNat - 48)
    let blk := if bParam d 0 = 4 then 16 else 8
    match pinParse (bParam d 0) pan (pinDecrypt (bParam d 0) r.material pan (Bytes.slice inp (bOff d) blk)) with
    | none => { code := 0x110A }
    | some pin => { code := 0, out := pinEncrypt (bParam d 1) r.material2 pan (pinBuild (bParam d 1) pan pin (s.freeBytes 16)) }
  else
    let ksn := l.bAuxBytes d (bAuxLen d)
    let v := Bytes.toNatBE ksn
    let ctr := if c = 0x80 then v % 2 ^ 21 else v % 2 ^ 32
    let ones := ((List.range 32).filter (fun i => bit ctr i)).length
    if ctr = 0 ∨ ones > (if c = 0x80 then 10 else 16) then { code := 0x110F }
    else { code := 0, out := Config.dukpt (c = 0x84) (decide (r.cls = 0x18 ∨ r.cls = 0x19)) (bParam d 0) r.material ksn }

/-- The full-time outcome of a thread's operation: chain, CRC, chain check, offsets, then the operation (R132). -/
def State.burEval (s : State) (n : Nat) (r : BurRun) (attemptsOk selfOk : Bool) : BurAns × Option Nat :=
  let l := s.lane n
  let d := r.op.desc
  let inp := l.bInput d
  let bad : Option Nat := if bChain d then l.badTile ((l.chain (bIn d)).getD []) else none
  if bChain d && (l.chain (bIn d)).isNone then ({ code := 0x110C }, none)
  else match bad with
    | some t => ({ code := 0x1201 }, some t)
    | none =>
      let vc : Code := if bBound d then (match l.msg (bHandle d) with
        | some m => s.verifyChains l m [bIn d]
        | none => 0x1202) else 0
      if vc ≠ 0 then ({ code := vc }, none)
      else
        let c := r.op.opc
        let auxN := if isBatch c then 16 * bAuxLen d else bAuxLen d
        let auxBeyond := (bAuxch d && (isVerify c || isPin c || isDukpt c || (isMac c && bCheck d))
            && decide (bAux d + auxN > inp.length))
          || (isPin c && decide (bOff d + (if bParam d 0 = 4 then 16 else 8) > inp.length))
        match bData d inp with
        | none => ({ code := 0x1107 }, none)
        | some dat => if auxBeyond then ({ code := 0x1107 }, none) else (s.burCompute n r inp dat attemptsOk selfOk, none)

/-- Write the output: at OUT, or appended to the input chain with every written tile resealed (R130). Answers the first
unused tile of the extension chain. -/
def Lane.burWrite (l : Lane) (d out : Bytes) : Lane × Nat :=
  if out.isEmpty then (l, if bAppend d then bOut d else noVal)
  else if !bAppend d then (l.writeMem (bOut d - 0x10000000) out, noVal)
  else
    let ts := (l.chain (bIn d)).getD []
    let last := ts.getLast?.getD 0
    let f := sideFill (l.sideW last)
    let head := out.take (256 - f)
    let l := (l.writeMem (last * 256 + f) head).seal last (f + head.length)
    let rest := out.drop (256 - f)
    if rest.isEmpty then (l, bOut d)
    else
      let ext := (l.chain (bOut d)).getD []
      let used := ext.take (cdiv rest.length 256)
      let unused := ext.drop (cdiv rest.length 256)
      let l := (putChain l used rest).1
      let lastU := used.getLast?.getD 0
      let l := l.setSide last (setBits (l.sideW last) 55 41 (bOut d))
      let l := l.setSide (bOut d) (setBits (l.sideW (bOut d)) 57 57 0)
      let l := l.setSide lastU (setBits (l.sideW lastU) 55 41 endTile)
      match unused with
      | [] => (l, noVal)
      | u :: _ => (l.setSide u (setBits (l.sideW u) 57 57 1), u)

/-- The completion record (Table BUR-9). -/
def burRecord (code : Code) (count unused keyOut step e reason start cycles : Nat) : Bytes :=
  Bytes.ofNatLE 2 code.toNat ++ Bytes.ofNatLE 2 count ++ Bytes.ofNatLE 4 unused ++ Bytes.ofNatLE 8 keyOut
    ++ Bytes.ofNatLE 2 step ++ Bytes.ofNatLE 1 e ++ Bytes.ofNatLE 1 reason ++ Bytes.ofNatLE 4 start
    ++ Bytes.ofNatLE 4 cycles ++ Bytes.zeros 4

/-- A transient key takes the bin its derive reserved (R121): its handle. -/
def State.installTrans (s : State) (n : Nat) (r : BurRun) (mat : Bytes) : State × Nat :=
  let l := s.lane n
  let d := r.op.desc
  let bin := r.bin.getD 0
  let pol := r.polDerived.getD (bParam d 0) 0
  let gen := (l.transGen + 1) % 65536
  let t : TransKey := {
    h := bHandle d, usage := bParam d 0, aes := r.op.opc = 0x84, policy := pol, material := mat, gen := gen }
  let ended := (l.msg (bHandle d)).any (fun m => m.acked)
  (s.modLane n (fun l => { l with trans := if ended then l.trans else SMap.set none bin (some t) l.trans, transGen := gen }),
    mkHandle pol 0x3F gen (n * 64 + bin))

/-- The link a valid bound operation adds (R129). -/
def State.burLink (s : State) (n e : Nat) (r : BurRun) (a : BurAns) (inp : Bytes) : State × Option Nat :=
  let d := r.op.desc
  let c := r.op.opc
  let h := bHandle d
  if !bBound d || isDukpt c then (s, none)
  else match (s.lane n).msg h with
    | none => (s, none)
    | some m => match s.hmKey m.hm with
      | none => (s, none)
      | some k =>
        let l := s.lane n
        let isHm := (m.trace.reverse.find? (fun x => x.tile = bIn d)).any (fun x => x.isHm)
        if isSign c && bAppend d then
          s.extend n h (4 * n + e) (outDigest k isHm (l.content ((l.chain (bIn d)).getD []))) (bIn d) isHm
        else if isVerify c || (isMac c && bCheck d) then
          s.extend n h (4 * n + e) (digestOf k (inp ++ Bytes.ofNatLE 2 (r.warn.getD 0).toNat)) endTile false
        else s.extend n h (4 * n + e) (digestOf k a.out) (if bAppend d then bIn d else endTile) false

/-- A journal proof's signature completes: the PROOF record (R176, Table JRN-8). -/
def State.proofDone (s : State) (ref : Nat) (key opc : Nat) (code : Code) (sig : Bytes) : State :=
  let k := ref % 32
  let r := s.ring k
  match r.proofSeals.find? (fun x => x.seq = ref / 32) with
  | none => s
  | some sl =>
    let ok := code = 0 ∨ code.toNat % 256 ≥ 0xC0
    let sg := if ok then sig else []
    let pl := Bytes.ofNatLE 8 sl.seq ++ Bytes.ofNatLE 8 key ++ Bytes.ofNatLE 1 opc ++ Bytes.ofNatLE 1 sg.length
      ++ Bytes.ofNatLE 2 code.toNat ++ Bytes.zeros 12 ++ sg
    let s := s.present k { src := .jrn, agent := 0x1FF, hw := true, bytes := recBytes 0x04 code.toNat 2 pl }
    if ok then s else s.raiseIrq 0x30000000 5

/-- A reserve operation ends: its result goes to the unit that asked for it. -/
def State.reserveDone (s : State) (u : ReserveUnit) (ref key opc : Nat) (code : Code) (out : Bytes) : State :=
  match u with
  | .jrn => s.proofDone ref key opc code out
  | _ => { s with rsvDone := s.rsvDone ++ [(u, ref, code, out)] }

/-- The result of a reserve operation: signatures and verifications of NET and JRN, the Strongroom's services (R356). -/
def State.reserveEval (s : State) (r : BurRun) (attemptsOk selfOk : Bool) : BurAns :=
  let c := r.op.opc
  let o := r.op
  if isSign c then
    if !attemptsOk && (c / 4 * 4 = 0x2C || c / 4 * 4 = 0x30 || c / 4 * 4 = 0x34) then { code := 0x1110 }
    else if !selfOk || s.str.lapsed then { code := 0x1111 }
    else { code := 0, out := Bytes.slice (Config.sign c 0 r.material o.desc s.free) 0 (sigLen c) }
  else if isVerify c then
    let pub := if o.key = 0 then o.aux.drop (sigLen c) else r.material
    if Config.keyMalformed c pub then { code := 0x1109 }
    else if Config.sigValid c 0 pub o.desc (o.aux.take (sigLen c)) then { code := 0 } else { code := 0x1101 }
  else
    match c with
    | 0xE0 => if Config.sigValid 0x0C 0 (o.aux.drop 96) o.desc (o.aux.take 96) then { code := 0 } else { code := 0x1101 }
    | 0xE1 => if Config.sigValid 0x24 0 (o.aux.drop 3309) o.desc (o.aux.take 3309) then { code := 0 } else { code := 0x1101 }
    | 0xD4 => match Config.unwrapKey r.cls r.material o.desc with
      | some k => { code := 0, out := k }
      | none => { code := 0x1109 }
    | 0xD8 => { code := 0, out := Config.wrapKey r.cls r.material o.desc s.free }
    | 0xDC => { code := 0, out := Crypto.xorBytes (o.desc.take (o.desc.length / 2)) (o.desc.drop (o.desc.length / 2)) }
    | 0xE4 => { code := 0, out := Bytes.slice (Config.sign 0x10 0 r.material o.desc s.free) 0 96 }
    | 0xE8 => { code := 0, out := Config.ecdh r.material o.desc }
    | _ => if s.str.lapsed || !selfOk then { code := 0x1111 } else { code := 0, out := s.freeBytes 64 }

/-- The engine is free again. -/
def State.burClear (s : State) (n e : Nat) : State :=
  let s := s.modLane n (fun l => l.setBurEng e { l.burEng e with run := none })
  s.modLane n (fun l => { l with msgs := l.msgs.map (fun (p : Nat × Msg) =>
    if p.2.claim = some e then (p.1, { p.2 with claim := none }) else p) }.flushFrees)

/-- Whether a bound operation that answers validly can extend its message's chain (R129, R145). -/
def State.canLink (s : State) (n : Nat) (r : BurRun) : Bool :=
  let d := r.op.desc
  !bBound d || isDukpt r.op.opc || ((s.lane n).msg (bHandle d)).any (fun m => (s.hmKey m.hm).isSome && decide (m.trace.length < 15))
/-- The extension chain of an operation that wrote nothing: all of it is unused. -/
def bUnused (d : Bytes) : Nat := if bAppend d then bOut d else noVal
/-- The completion record is written, the engine is free and the tag completes. -/
def State.burEnd (s : State) (n e : Nat) (r : BurRun) (tag : Nat) (code : Code) (count unused keyOut step cycles : Nat) : State :=
  let d := r.op.desc
  let rec_ := burRecord code count unused keyOut step e r.reason ((r.startClk - (s.lane n).clk0) % 2 ^ 32) cycles
  let s := s.modLane n (fun l => if inTileMem (bCompl d) 32 then l.writeMem (bCompl d - 0x10000000) rec_ else l)
  (s.burClear n e).tagDone n tag code none
/-- A thread's operation ends with its full-time outcome (R127 to R130). -/
def State.burFinish (s : State) (n e tag : Nat) (r : BurRun) (attemptsOk selfOk : Bool) : State :=
  let d := r.op.desc
  let c := r.op.opc
  let full := (opCycles c).getD 64
  let (a, tile) := s.burEval n r attemptsOk selfOk
  let code : Code := if a.code = 0 && !s.canLink n r then s.linkCode n (bHandle d) else a.code
  let inp := (s.lane n).bInput d
  let s := s.drew.lpmu n 17 full
  let s := if 0x1201 ≤ code.toNat ∧ code.toNat ≤ 0x1204 then s.hmFail n (bHandle d) 1 code (tile.getD endTile) else s
  let s := if code = 0x1111 then s.gMsg 5 n (bHandle d) 0x1111 c else s
  if code ≠ 0 then s.burEnd n e r tag code a.count (bUnused d) 0 0xFFFF full
  else
    let (s, keyOut) := if isDukpt c then s.installTrans n r a.out else (s, 0)
    let out := if isDukpt c then [] else a.out
    let (l, unused) := (s.lane n).burWrite d out
    let (s, step) := (s.setLane n l).burLink n e r a inp
    s.burEnd n e r tag (r.warn.getD 0) out.length unused keyOut (step.getD 0xFFFF) full

/-- The time of a run in lane cycles: 64 after a refusal at the start (R132), else the code's own (R113). -/
def BurRun.time (r : BurRun) : Nat := if r.refusal.isSome then 64 else (opCycles r.op.opc).getD 64
/-- BUR_OPERATION_COMPLETE: the running operation ends once its time has passed (R113, R132); a lane in RESETTING discards the
result. An operation whose code no row can start is started here, when its start has come. -/
def State.burComplete (s : State) (n e : Nat) (attemptsOk selfOk : Bool) : State :=
  match ((s.lane n).burEng e).run with
  | none => match ((s.lane n).burEng e).due s.laneClk with
    | some o => if (opCycles o.opc).isNone || (isService o.opc && o.src.isThread) then s.burStart n e [o.opc] else s
    | none => s
  | some r =>
    let c := r.op.opc
    if s.laneClk < r.startClk + r.time then s
    else if (s.lane n).st = 4 then s.burClear n e
    else match r.op.src with
      | .reserve u ref =>
        let a : BurAns := match r.refusal with
          | some code => { code := code }
          | none => s.reserveEval r attemptsOk selfOk
        let code := if a.code = 0 then r.warn.getD 0 else a.code
        let s := if a.code = 0x1111 then s.gEvt 5 n 0x1111 (256 + n) 0 0 c else s
        let s := (s.drew.burClear n e).lpmu n 16 1
        (s.lpmu n 17 r.time).reserveDone u ref r.op.key c code a.out
      | .thread _ tag => match r.refusal with
        | some code => s.burEnd n e r tag code 0 (bUnused r.op.desc) 0 0xFFFF 64
        | none => s.burFinish n e tag r attemptsOk selfOk

def execBurOperationComplete (n : LaneId) (e : EngId) (attemptsOk selfOk : Bool) (s : State) : Res :=
  .next (s.burComplete n e attemptsOk selfOk)

/-! ### One row per operation code: the oldest waiting operation of that code starts -/

/-- ECDSA P-256 verify: codes 0x04, 0x05, 0x06. -/
def execEcdsaP256Verify (n : LaneId) (e : EngId) (s : State) : Res := .next (s.burStart n e [0x04, 0x05, 0x06])
/-- ECDSA P-256 sign: codes 0x08, 0x09, 0x0A. -/
def execEcdsaP256Sign (n : LaneId) (e : EngId) (s : State) : Res := .next (s.burStart n e [0x08, 0x09, 0x0A])
/-- ECDSA P-384 verify: codes 0x0C, 0x0D, 0x0E. -/
def execEcdsaP384Verify (n : LaneId) (e : EngId) (s : State) : Res := .next (s.burStart n e [0x0C, 0x0D, 0x0E])
/-- ECDSA P-384 sign: codes 0x10, 0x11, 0x12. -/
def execEcdsaP384Sign (n : LaneId) (e : EngId) (s : State) : Res := .next (s.burStart n e [0x10, 0x11, 0x12])
/-- Ed25519 verify: codes 0x14, 0x15, 0x16. -/
def execEd25519Verify (n : LaneId) (e : EngId) (s : State) : Res := .next (s.burStart n e [0x14, 0x15, 0x16])
/-- Ed25519 sign: codes 0x18, 0x19, 0x1A. -/
def execEd25519Sign (n : LaneId) (e : EngId) (s : State) : Res := .next (s.burStart n e [0x18, 0x19, 0x1A])
/-- Ed25519 batch verify: codes 0x1C, 0x1D, 0x1E. -/
def execEd25519BatchVerify (n : LaneId) (e : EngId) (s : State) : Res := .next (s.burStart n e [0x1C, 0x1D, 0x1E])
/-- ML-DSA-44 verify: codes 0x20, 0x21, 0x22. -/
def execMlDsa44Verify (n : LaneId) (e : EngId) (s : State) : Res := .next (s.burStart n e [0x20, 0x21, 0x22])
/-- ML-DSA-65 verify: codes 0x24, 0x25, 0x26. -/
def execMlDsa65Verify (n : LaneId) (e : EngId) (s : State) : Res := .next (s.burStart n e [0x24, 0x25, 0x26])
/-- ML-DSA-87 verify: codes 0x28, 0x29, 0x2A. -/
def execMlDsa87Verify (n : LaneId) (e : EngId) (s : State) : Res := .next (s.burStart n e [0x28, 0x29, 0x2A])
/-- ML-DSA-44 sign: codes 0x2C, 0x2D, 0x2E. -/
def execMlDsa44Sign (n : LaneId) (e : EngId) (s : State) : Res := .next (s.burStart n e [0x2C, 0x2D, 0x2E])
/-- ML-DSA-65 sign: codes 0x30, 0x31, 0x32. -/
def execMlDsa65Sign (n : LaneId) (e : EngId) (s : State) : Res := .next (s.burStart n e [0x30, 0x31, 0x32])
/-- ML-DSA-87 sign: codes 0x34, 0x35, 0x36. -/
def execMlDsa87Sign (n : LaneId) (e : EngId) (s : State) : Res := .next (s.burStart n e [0x34, 0x35, 0x36])
/-- RSA-2048 verify: codes 0x38, 0x39, 0x3A. -/
def execRsa2048Verify (n : LaneId) (e : EngId) (s : State) : Res := .next (s.burStart n e [0x38, 0x39, 0x3A])
/-- RSA-2048 sign: codes 0x3C, 0x3D, 0x3E. -/
def execRsa2048Sign (n : LaneId) (e : EngId) (s : State) : Res := .next (s.burStart n e [0x3C, 0x3D, 0x3E])
/-- RSA-4096 verify: codes 0x40, 0x41, 0x42. -/
def execRsa4096Verify (n : LaneId) (e : EngId) (s : State) : Res := .next (s.burStart n e [0x40, 0x41, 0x42])
/-- RSA-4096 sign: codes 0x44, 0x45, 0x46. -/
def execRsa4096Sign (n : LaneId) (e : EngId) (s : State) : Res := .next (s.burStart n e [0x44, 0x45, 0x46])
/-- PIN block translate (R119): codes 0x7C. -/
def execPinBlockTranslate (n : LaneId) (e : EngId) (s : State) : Res := .next (s.burStart n e [0x7C])
/-- DUKPT derive, TDES (R120): codes 0x80. -/
def execDukptDeriveTdes (n : LaneId) (e : EngId) (s : State) : Res := .next (s.burStart n e [0x80])
/-- DUKPT derive, AES (R120): codes 0x84. -/
def execDukptDeriveAes (n : LaneId) (e : EngId) (s : State) : Res := .next (s.burStart n e [0x84])
/-- SHA-256: codes 0x48, 0x49, 0x4A, 0x4B. -/
def execSha256 (n : LaneId) (e : EngId) (s : State) : Res := .next (s.burStart n e [0x48, 0x49, 0x4A, 0x4B])
/-- SHA-384: codes 0x4C, 0x4D, 0x4E, 0x4F. -/
def execSha384 (n : LaneId) (e : EngId) (s : State) : Res := .next (s.burStart n e [0x4C, 0x4D, 0x4E, 0x4F])
/-- SHA-512: codes 0x50, 0x51, 0x52, 0x53. -/
def execSha512 (n : LaneId) (e : EngId) (s : State) : Res := .next (s.burStart n e [0x50, 0x51, 0x52, 0x53])
/-- SHA3-256: codes 0x54, 0x55, 0x56, 0x57. -/
def execSha3256 (n : LaneId) (e : EngId) (s : State) : Res := .next (s.burStart n e [0x54, 0x55, 0x56, 0x57])
/-- SHA3-384: codes 0x58, 0x59, 0x5A, 0x5B. -/
def execSha3384 (n : LaneId) (e : EngId) (s : State) : Res := .next (s.burStart n e [0x58, 0x59, 0x5A, 0x5B])
/-- SHA3-512: codes 0x5C, 0x5D, 0x5E, 0x5F. -/
def execSha3512 (n : LaneId) (e : EngId) (s : State) : Res := .next (s.burStart n e [0x5C, 0x5D, 0x5E, 0x5F])
/-- HMAC-SHA-256: codes 0x60, 0x61, 0x62, 0x63. -/
def execHmacSha256 (n : LaneId) (e : EngId) (s : State) : Res := .next (s.burStart n e [0x60, 0x61, 0x62, 0x63])
/-- HMAC-SHA-384: codes 0x64, 0x65, 0x66, 0x67. -/
def execHmacSha384 (n : LaneId) (e : EngId) (s : State) : Res := .next (s.burStart n e [0x64, 0x65, 0x66, 0x67])
/-- HMAC-SHA-512: codes 0x68, 0x69, 0x6A, 0x6B. -/
def execHmacSha512 (n : LaneId) (e : EngId) (s : State) : Res := .next (s.burStart n e [0x68, 0x69, 0x6A, 0x6B])
/-- AES-CMAC: codes 0x6C, 0x6D, 0x6E, 0x6F. -/
def execAesCmac (n : LaneId) (e : EngId) (s : State) : Res := .next (s.burStart n e [0x6C, 0x6D, 0x6E, 0x6F])
/-- ISO 9797-1 MAC algorithm 1, AES: codes 0x70, 0x71, 0x72, 0x73. -/
def execIso9797Mac1Aes (n : LaneId) (e : EngId) (s : State) : Res := .next (s.burStart n e [0x70, 0x71, 0x72, 0x73])
/-- ISO 9797-1 MAC algorithm 1, TDES: codes 0x74, 0x75, 0x76, 0x77. -/
def execIso9797Mac1Tdes (n : LaneId) (e : EngId) (s : State) : Res := .next (s.burStart n e [0x74, 0x75, 0x76, 0x77])
/-- ISO 9797-1 MAC algorithm 3, TDES: codes 0x78, 0x79, 0x7A, 0x7B. -/
def execRetailMacTdes (n : LaneId) (e : EngId) (s : State) : Res := .next (s.burStart n e [0x78, 0x79, 0x7A, 0x7B])

/-! ### Strongroom services (Table STR-3, R452) -/

/-- Generate ECDSA P-256 pair: code 0xC0. -/
def execGenerateEcdsaP256Pair (n : LaneId) (e : EngId) (s : State) : Res := .next (s.burStart n e [0xC0])
/-- Generate ECDSA P-384 pair: code 0xC4. -/
def execGenerateEcdsaP384Pair (n : LaneId) (e : EngId) (s : State) : Res := .next (s.burStart n e [0xC4])
/-- Generate Ed25519 pair: code 0xC8. -/
def execGenerateEd25519Pair (n : LaneId) (e : EngId) (s : State) : Res := .next (s.burStart n e [0xC8])
/-- Generate ML-DSA-44 pair: code 0xCC. -/
def execGenerateMlDsa44Pair (n : LaneId) (e : EngId) (s : State) : Res := .next (s.burStart n e [0xCC])
/-- Generate ML-DSA-65 pair: code 0xCD. -/
def execGenerateMlDsa65Pair (n : LaneId) (e : EngId) (s : State) : Res := .next (s.burStart n e [0xCD])
/-- Generate ML-DSA-87 pair: code 0xCE. -/
def execGenerateMlDsa87Pair (n : LaneId) (e : EngId) (s : State) : Res := .next (s.burStart n e [0xCE])
/-- Generate AES, TDES or HMAC key, with KCV: code 0xD0. -/
def execGenerateSymmetricKey (n : LaneId) (e : EngId) (s : State) : Res := .next (s.burStart n e [0xD0])
/-- Unwrap key block or KWP: code 0xD4. -/
def execUnwrapKeyBlock (n : LaneId) (e : EngId) (s : State) : Res := .next (s.burStart n e [0xD4])
/-- Wrap for export: code 0xD8. -/
def execWrapForExport (n : LaneId) (e : EngId) (s : State) : Res := .next (s.burStart n e [0xD8])
/-- Decrypt and combine two components: code 0xDC. -/
def execCombineComponents (n : LaneId) (e : EngId) (s : State) : Res := .next (s.burStart n e [0xDC])
/-- Verify approval token, P-384: code 0xE0. -/
def execVerifyTokenP384 (n : LaneId) (e : EngId) (s : State) : Res := .next (s.burStart n e [0xE0])
/-- Verify approval token, ML-DSA-65: code 0xE1. -/
def execVerifyTokenMlDsa65 (n : LaneId) (e : EngId) (s : State) : Res := .next (s.burStart n e [0xE1])
/-- Sign pairing manifest with slot 0: code 0xE4. -/
def execSignPairingManifest (n : LaneId) (e : EngId) (s : State) : Res := .next (s.burStart n e [0xE4])
/-- ECDH P-384 component transport: code 0xE8. -/
def execEcdhComponentTransport (n : LaneId) (e : EngId) (s : State) : Res := .next (s.burStart n e [0xE8])

end Sys2Proof.Machine
end

