-- ==== Sys2Proof/Machine/HartBase.lean ====
section
/-!
DEFINITION. The Kuren harts: registers, CSRs (R229, Table KU-38; the privileged architecture's for the rest), traps,
the rights of vendor instructions (R230), address translation (R226 to R228, R253) and physical memory protection.
-/

namespace Sys2Proof.Machine
open Sys2Proof

/-! ### Harts and their registers -/

def State.hart (s : State) (h : Nat) : Hart := SMap.get {} h s.harts
def State.setHart (s : State) (h : Nat) (v : Hart) : State := { s with harts := SMap.set {} h v s.harts }
def State.modHart (s : State) (h : Nat) (f : Hart → Hart) : State := s.setHart h (f (s.hart h))
def Hart.rd (h : Hart) (r : Nat) : D64 := if r = 0 then 0 else SMap.get 0 r h.x
def Hart.wr (h : Hart) (r : Nat) (v : D64) : Hart := if r = 0 then h else { h with x := SMap.set 0 r v h.x }
/-- Count a 48-bit hart event of Table PMU-1 up; the wrap of counters 3 to 31 sets OF and interrupt 13 (R412). -/
def Hart.count (h : Hart) (i : Nat) : Hart :=
  let v := (SMap.get 0 i h.pmu + 1) % 2 ^ 48
  let h := { h with pmu := SMap.set 0 i v h.pmu }
  if v = 0 ∧ 3 ≤ i ∧ i ≤ 31 then
    let o := SMap.get 0 (0x320 + i) h.csr
    let h := { h with csr := SMap.put (0x320 + i) (o ||| 0x8000000000000000#64) h.csr }
    if o.getMsbD 0 then h else { h with csr := SMap.put 0x344 (SMap.get 0 0x344 h.csr ||| 0x2000#64) h.csr }
  else h
/-- An instruction of `k` bytes retires with a result. -/
def Hart.ret (h : Hart) (rd : Nat) (v : D64) (k : Nat) : Hart :=
  let h := { h.wr rd v with pc := h.pc + BitVec.ofNat 64 k, wait := .none }
  (h.count 2).count 4
/-- The hart runs an instruction only when it is released, not halted and not waiting. -/
def Hart.ready (h : Hart) : Bool := h.run && !h.halted && decide (h.wait = .none)

/-! ### CSRs -/

/-- Column, row, die and core of a hart as kbay shows them (R17, R18). -/
def kbay (h : Nat) : Nat := h / 2 % 16 + h / 32 * 16 + h / 2 % 16 / 4 * 2 ^ 7 + h % 2 * 2 ^ 9
/-- Vendor CSRs 0xCE0 to 0xCFF are the vendor counters (R409). -/
def isKpm (n : Nat) : Bool := decide (n = 0xCC1 ∨ 0xCE0 ≤ n ∧ n ≤ 0xCFF)

/-- The CSRs a hart has: number, reset value, writable bits. Bits that are not writable keep their reset value. -/
def csrTab : List (Nat × Nat × Nat) := [
  (0x001, 0, 0x1F), (0x002, 0, 7), (0x003, 0, 0xFF), (0x008, 0, 0xFF), (0x009, 0, 1), (0x00A, 0, 3), (0x00F, 0, 7),
  (0xC20, 0, 0), (0xC21, 0x8000000000000000, 0), (0xC22, 32, 0),
  (0x300, 0xA00000000, 0xC0007E7FAA), (0x301, 0x80000000003411AD, 0), (0x302, 0, 0xF0B3FF), (0x303, 0x1444, 0x2222),
  (0x304, 0, 0x3EEE), (0x305, 0, 0xFFFFFFFFFFFFFFFD), (0x306, 0, 0xFFFFFFFF), (0x30A, 0, 0xC0000000000000F1),
  (0x320, 0, 0), (0x340, 0, 0xFFFFFFFFFFFFFFFF), (0x341, 0, 0xFFFFFFFFFFFFFFFE), (0x342, 0, 0xFFFFFFFFFFFFFFFF),
  (0x343, 0, 0xFFFFFFFFFFFFFFFF), (0x344, 0, 0x2222), (0x34A, 0, 0xFFFFFFFFFFFFFFFF), (0x34B, 0, 0xFFFFFFFFFFFFFFFF),
  (0x350, 0, 0xFFFF), (0xF11, 0, 0), (0xF12, 0, 0), (0xF13, 0, 0), (0xF14, 0, 0), (0xF15, 0, 0)] ++ [
  (0x105, 0, 0xFFFFFFFFFFFFFFFD), (0x106, 0, 0xFFFFFFFF), (0x10A, 0, 0xF1), (0x140, 0, 0xFFFFFFFFFFFFFFFF),
  (0x141, 0, 0xFFFFFFFFFFFFFFFE), (0x142, 0, 0xFFFFFFFFFFFFFFFF), (0x143, 0, 0xFFFFFFFFFFFFFFFF),
  (0x14D, 0, 0xFFFFFFFFFFFFFFFF), (0x150, 0, 0xFFFF), (0x180, 0, 0xFFFFFFFFFFFFFFFF),
  (0x200, 0x200000000, 0xC6722), (0x204, 0, 0x222), (0x205, 0, 0xFFFFFFFFFFFFFFFD), (0x240, 0, 0xFFFFFFFFFFFFFFFF),
  (0x241, 0, 0xFFFFFFFFFFFFFFFE), (0x242, 0, 0xFFFFFFFFFFFFFFFF), (0x243, 0, 0xFFFFFFFFFFFFFFFF), (0x244, 0, 2),
  (0x24D, 0, 0xFFFFFFFFFFFFFFFF), (0x250, 0, 0xFFFF), (0x280, 0, 0xFFFFFFFFFFFFFFFF),
  (0x600, 0x200000000, 0x703F1C0), (0x602, 0, 0xB1FF), (0x603, 0, 0x444), (0x604, 0, 0x1444),
  (0x605, 0, 0xFFFFFFFFFFFFFFFF), (0x606, 0, 0xFFFFFFFF), (0x607, 0, 0xFFFE), (0x60A, 0, 0xC0000000000000F1),
  (0x643, 0, 0xFFFFFFFFFFFFFFFF), (0x644, 0, 4), (0x645, 0, 0x444), (0x64A, 0, 0xFFFFFFFFFFFFFFFF),
  (0x680, 0, 0xF3FFFFFFFFFFFFFF), (0xE12, 0, 0)] ++ [
  (0x7A0, 0, 7), (0x7A1, 0xF000000000000000, 0xFFFFFFFFFFFFFFFF), (0x7A2, 0, 0xFFFFFFFFFFFFFFFF), (0x7A3, 0, 0),
  (0x7A4, 0x1008078, 0), (0x7B0, 0x40000003, 0xFFFF), (0x7B1, 0, 0xFFFFFFFFFFFFFFFE),
  (0x308, 0, 0), (0x309, 0, 0), (0x608, 0, 0), (0x609, 0, 0), (0x646, 0, 0), (0x647, 0, 0), (0x7C0, 0, 0x10737), (0x5C0, 0, 1), (0x5C1, 0, 0xFFFFFFFF), (0x5C2, 0, 0xFFFFFFFF), (0xDC0, 0, 0), (0xCC0, 0, 0),
  (0xCC2, 0, 0)]
  ++ (List.range 2).map (fun i => (0x3A0 + 2 * i, 0, 0x9F9F9F9F9F9F9F9F))
  ++ (List.range 16).map (fun i => (0x3B0 + i, 0, 0x3FFFFFFFFFFE00))
  ++ (List.range 29).map (fun i => (0x323 + i, 3 + i, 0x8000000000000000))

def csrRow (n : Nat) : Option (Nat × Nat × Nat) := csrTab.find? (fun r => r.1 = n)
/-- The stored value of a CSR. -/
def Hart.csrV (h : Hart) (n : Nat) : Nat := (SMap.get (BitVec.ofNat 64 (match csrRow n with
  | some r => r.2.1
  | none => 0)) n h.csr).toNat
def Hart.setCsr (h : Hart) (n v : Nat) : Hart := { h with csr := SMap.put n (BitVec.ofNat 64 v) h.csr }
/-- Write the bits of `m`, keeping the others. -/
def Hart.maskCsr (h : Hart) (n m v : Nat) : Hart :=
  h.setCsr n ((h.csrV n) - (h.csrV n &&& m) + (v &&& m))

/-! ### Triggers and debug mode (R254, RISC-V Debug 1.0) -/

/-- Enter debug mode: dcsr takes the cause and the mode left; the pc stands for dpc. -/
def Hart.debugMode (x : Hart) (c : Nat) : Hart :=
  { (x.setCsr 0x7B0 (setBits (setBits (setBits (x.csrV 0x7B0) 8 6 c) 1 0 x.priv) 5 5 (b2n x.virt))) with halted := true }
/-- The word tdata1 (0x7A1) or tdata2 (0x7A2) of trigger `i`: each of the 8 keeps its own under its own key. -/
def Hart.tdata (x : Hart) (m i : Nat) : Nat :=
  (SMap.get (if m = 0x7A1 then 0xF000000000000000#64 else 0) (m + 0x1000 * i) x.csr).toNat
/-- The type of a trigger word: 3 icount, 4 itrigger, 5 etrigger, 6 mcontrol6. -/
def trigType (t : Nat) : Nat := bits t 63 60
/-- The action of a trigger word: 0 a breakpoint exception, 1 debug mode. -/
def trigAction (t : Nat) : Nat := if trigType t = 6 then bits t 15 12 else bits t 5 0
/-- Whether a trigger word watches the mode the hart is in: its M, S, U, VS and VU bits. -/
def Hart.watched (x : Hart) (t : Nat) : Bool :=
  let ty := trigType t
  let v := if ty = 6 then 23 else if ty = 3 then 25 else 11
  if x.priv = 3 then bit t (if ty = 6 then 6 else 9)
  else if x.virt then bit t (v + x.priv)
  else bit t ((if ty = 6 then 3 else 6) + x.priv)
/-- A breakpoint exception of a trigger is kept back where it would enter a handler that has not saved its state. -/
def Hart.canBreak (x : Hart) : Bool :=
  let md := bit (x.csrV 0x302) 3
  if x.priv = 3 then bit (x.csrV 0x300) 3
  else if x.priv = 0 then true
  else if x.virt then !(md && bit (x.csrV 0x602) 3) || bit (x.csrV 0x200) 1
  else !md || bit (x.csrV 0x300) 1
/-- The action of the triggers that watch the mode of `x` and that `p` picks by tdata1 and tdata2, for the hart as it is in
`y`; debug mode goes before a breakpoint. -/
def Hart.fired (x y : Hart) (p : Nat → Nat → Bool) : Option Nat :=
  let hit := (List.range 8).filterMap (fun i =>
    let t := x.tdata 0x7A1 i
    let a := trigAction t
    if x.watched t && p t (x.tdata 0x7A2 i) && (a = 1 || y.canBreak) then some a else none)
  if hit.isEmpty then none else some (hit.foldl max 0)

/-! ### Traps -/

/-- A trap to M, HS or VS mode as mideleg, medeleg and hedeleg say; `k` is the cause with the interrupt bit apart. -/
def Hart.trapEnter (h : Hart) (intr : Bool) (k tval gpa : Nat) : Hart :=
  let isG := [20, 21, 22, 23].contains k && !intr
  let deleg := decide (h.priv < 3) && bit (h.csrV (if intr then 0x303 else 0x302)) k
  let vdeleg := deleg && h.virt && !isG && bit (h.csrV (if intr then 0x603 else 0x602)) k
  let cause := (if intr then 2 ^ 63 else 0) + k
  let gva := h.virt && !intr && [0, 1, 3, 4, 5, 6, 7, 12, 13, 15, 20, 21, 23].contains k
  let vec := fun (tv : Nat) (c : Nat) => BitVec.ofNat 64 (tv / 4 * 4 + (if intr && tv % 4 = 1 then 4 * c else 0))
  let pc := h.pc.toNat
  let h := (h.count (if intr then 54 else 53))
  let h := { h with wait := .none, resv := none }
  if vdeleg then
    let st := h.csrV 0x200
    let c := if intr then cause - 1 else cause
    let st := setBits (setBits (setBits st 5 5 (bits st 1 1)) 1 1 0) 8 8 (b2n (h.priv = 1))
    let h := (((h.setCsr 0x200 st).setCsr 0x241 pc).setCsr 0x242 c).setCsr 0x243 tval
    { h with priv := 1, pc := vec (h.csrV 0x205) (if intr then k - 1 else k) }
  else if deleg then
    let st := h.csrV 0x300
    let st := setBits (setBits (setBits st 5 5 (bits st 1 1)) 1 1 0) 8 8 (b2n (h.priv = 1))
    let hs := h.csrV 0x600
    let hs := setBits (setBits hs 7 7 (b2n h.virt)) 6 6 (b2n gva)
    let hs := if h.virt then setBits hs 8 8 (b2n (h.priv = 1)) else hs
    let h := ((((((h.setCsr 0x300 st).setCsr 0x600 hs).setCsr 0x141 pc).setCsr 0x142 cause).setCsr 0x143 tval).setCsr 0x643
      (if isG then gpa / 4 else 0)).setCsr 0x64A 0
    { h with priv := 1, virt := false, pc := vec (h.csrV 0x105) k }
  else
    let st := h.csrV 0x300
    let st := setBits (setBits (setBits st 7 7 (bits st 3 3)) 3 3 0) 12 11 h.priv
    let st := setBits (setBits st 39 39 (b2n (h.virt && h.priv ≠ 3))) 38 38 (b2n gva)
    let h := (((((h.setCsr 0x300 st).setCsr 0x341 pc).setCsr 0x342 cause).setCsr 0x343 tval).setCsr 0x34B
      (if isG then gpa / 4 else 0)).setCsr 0x34A 0
    { h with priv := 3, virt := false, pc := vec (h.csrV 0x305) k }

/-- A trap, and what an itrigger or etrigger that watches the mode left does before the handler's first instruction. -/
def Hart.trapTo (h : Hart) (intr : Bool) (k tval gpa : Nat) : Hart :=
  let y := h.trapEnter intr k tval gpa
  match h.fired y (fun t m => decide (trigType t = if intr then 4 else 5) && bit m k) with
  | some 0 => y.trapEnter false 3 0 0
  | some _ => y.debugMode 2
  | none => y
/-- A hart takes a synchronous exception. -/
def State.hartTrap (s : State) (h k tval : Nat) : State := s.modHart h (fun x => x.trapTo false k tval 0)

/-! ### Issue of one instruction -/

/-- A trigger is set up, or the debugger has asked for a single step. -/
def Hart.armed (x : Hart) : Bool :=
  (List.range 8).any (fun i => [3, 4, 5, 6].contains (trigType (x.tdata 0x7A1 i))) || bit (x.csrV 0x7B0) 2
/-- Whether an mcontrol6 word with tdata2 `d` matches an access of `n` bytes at `a`: equal, in a naturally aligned
power-of-two range, not below, below. -/
def trigAddr (t d a n : Nat) : Bool := match bits t 10 7 with
  | 0 => decide (a ≤ d ∧ d < a + n)
  | 1 =>
    let z := (d ^^^ (d + 1)) + 1
    decide (d / z * z < a + n ∧ a < d / z * z + z)
  | 2 => decide (d < a + n)
  | _ => decide (a < d)
/-- What triggers do before an instruction that makes the data accesses `acc` (address, bytes, 1 load or 2 store or 3 both):
the action and the value of a breakpoint. A pending icount goes first, then the pc, then the data addresses. -/
def Hart.before (x : Hart) (acc : List (Nat × Nat × Nat)) : Option (Nat × Nat) :=
  let pc := x.pc.toNat
  match x.fired x (fun t _ => decide (trigType t = 3) && bit t 8) with
  | some a => some (a, 0)
  | none => match x.fired x (fun t d => decide (trigType t = 6) && bit t 2 && trigAddr t d pc 1) with
    | some a => some (a, pc)
    | none => acc.findSome? (fun c =>
        (x.fired x (fun t d => decide (trigType t = 6) && decide (t % 4 &&& c.2.2 ≠ 0) && trigAddr t d c.1 c.2.1)).map (fun a => (a, c.1)))
/-- The triggers fire: an icount that was pending no longer is. -/
def Hart.fire (x : Hart) (a tval : Nat) : Hart :=
  let x := (List.range 8).foldl (fun (x : Hart) i =>
    let t := x.tdata 0x7A1 i
    if trigType t = 3 ∧ bit t 8 ∧ x.watched t then x.setCsr (0x7A1 + 0x1000 * i) (setBits t 8 8 0) else x) x
  if a = 0 then x.trapTo false 3 tval 0 else x.debugMode 2
/-- An instruction that began in the mode and with the triggers of `x` has run: each icount that watches that mode counts. -/
def Hart.counted (y x : Hart) : Hart :=
  (List.range 8).foldl (fun (y : Hart) i =>
    let t := y.tdata 0x7A1 i
    let c := bits t 23 10
    if trigType t = 3 ∧ c ≠ 0 ∧ x.tdata 0x7A1 i = t ∧ x.watched t then
      y.setCsr (0x7A1 + 0x1000 * i) (setBits (setBits t 23 10 (c - 1)) 8 8 (if c = 1 then 1 else bits t 8 8))
    else y) y
/-- A single step ends in debug mode; a WFI then ends as a NOP. -/
def Hart.stepped (y x : Hart) : Hart :=
  if bit (x.csrV 0x7B0) 2 && !y.halted then (if y.wait = .wfi then y.ret 0 0 y.ilen else y).debugMode 4 else y
/-- A hart that is ready runs an instruction that makes the data accesses `acc`; triggers and a single step surround it. -/
def State.hartIssueOn (s : State) (h : Nat) (acc : Hart → List (Nat × Nat × Nat)) (f : State → Hart → State) : Res :=
  let x := s.hart h
  if !x.ready then .next s
  else if !x.armed then .next (f s x)
  else match x.before (acc x) with
    | some (a, tval) => .next (s.setHart h ((x.fire a tval).stepped x))
    | none => .next ((f s x).modHart h (fun y => (y.counted x).stepped x))
def State.hartIssue (s : State) (h : Nat) (f : State → Hart → State) : Res := s.hartIssueOn h (fun _ => []) f

/-! ### Rights of the vendor instructions (R230) -/

/-- The exception a vendor instruction raises in the hart's mode: none when it is permitted. `sb` 0 marks an
instruction always permitted in S-mode. -/
def Hart.vendor (h : Hart) (sb ub vb : Option Nat) : Option Nat :=
  if h.priv = 3 then none
  else
    let k := h.csrV 0x7C0
    let on := fun (b : Option Nat) => match b with
      | some i => bit k i
      | none => true
    let base := if h.priv = 1 then on sb else on ub
    if !base then some 2 else if h.virt && !on vb then some 22 else none

/-! ### Physical memory protection: 16 entries, granularity 4 KiB (R227) -/

def Hart.pmpCfg (h : Hart) (i : Nat) : Nat := bits (h.csrV (0x3A0 + i / 8 * 2)) (i % 8 * 8 + 7) (i % 8 * 8)
/-- The address range of entry `i`. -/
def Hart.pmpRange (h : Hart) (i : Nat) : Nat × Nat :=
  let a := h.csrV (0x3B0 + i)
  match bits (h.pmpCfg i) 4 3 with
  | 1 => ((if i = 0 then 0 else h.csrV (0x3B0 + i - 1) / 1024 * 4096), a / 1024 * 4096)
  | 3 =>
    let ones := ((List.range 54).find? (fun j => !bit (a ||| 0x1FF) j)).getD 54
    let z := 2 ^ (ones + 3)
    (a * 4 / z * z, a * 4 / z * z + z)
  | _ => (0, 0)
/-- Whether PMP permits an access of kind 0 fetch, 1 load, 2 store at privilege `p`. -/
def Hart.pmpOk (h : Hart) (p a kind : Nat) : Bool :=
  match (List.range 16).find? (fun i =>
      let r := h.pmpRange i
      decide (bits (h.pmpCfg i) 4 3 ≠ 0) && decide (r.1 ≤ a) && decide (a < r.2)) with
  | some i => (p = 3 && !bit (h.pmpCfg i) 7) || bit (h.pmpCfg i) (if kind = 0 then 2 else if kind = 1 then 0 else 1)
  | none => p = 3

/-! ### Translation -/

/-- The answer of a translation: the physical address, or a cause and the guest physical address it concerns. -/
inductive Xlat where
  | ok (pa : Nat)
  | bad (cause gpa : Nat)
  deriving DecidableEq, Repr

/-- What a page walk found. -/
inductive Walk where
  | leaf (pte level : Nat)
  | page
  | access
  /-- the G-stage failed on a table address -/
  | guest (cause gpa : Nat)
  deriving DecidableEq, Repr

/-- The page-fault, guest-page-fault and access-fault causes of an access kind. -/
def pfCause (k : Nat) : Nat := if k = 0 then 12 else if k = 1 then 13 else 15
def gfCause (k : Nat) : Nat := if k = 0 then 20 else if k = 1 then 21 else 23
def afCause (k : Nat) : Nat := if k = 0 then 1 else if k = 1 then 5 else 7

/-- A PTE as the walker reads it: DRAM and the boot ROM hold page tables; a poisoned line is a data error (R247). -/
def State.pte (s : State) (a : Nat) : Option Nat :=
  if dramBase ≤ a ∧ a + 8 ≤ s.dramTop ∧ !s.poisoned a 8 then some (s.dramLE a 8)
  else if a + 8 ≤ 0x40000 then some (Bytes.toNatLE (memRead s.rom a 8)) else none

/-- Walk from level `i`; `xl` translates a table address. -/
def walkFrom (rd : Nat → Option Nat) (xl : Nat → Xlat) (top va : Nat) : Nat → Nat → Walk
  | 0, _ => .page
  | i + 1, base =>
    let idx := if i + 1 = top / 16 then bits va (12 + 9 * i + 8 + top % 16) (12 + 9 * i) else bits va (12 + 9 * i + 8) (12 + 9 * i)
    match xl (base + idx * 8) with
    | .bad c g => .guest c g
    | .ok a => match rd a with
      | none => .access
      | some p =>
        let r := bit p 1
        let w := bit p 2
        let x := bit p 3
        if !bit p 0 || (w && !r) || bits p 62 54 ≠ 0 then .page
        else if r || x then
          if bits p (10 + 9 * i - 1 + (if i = 0 then 1 else 0)) 10 ≠ 0 ∧ i ≠ 0 then .page
          else if bit p 63 ∧ (i ≠ 0 ∨ bits p 13 10 ≠ 8) then .page
          else .leaf p i
        else if bit p 4 || bit p 6 || bit p 7 || bit p 63 then .page
        else walkFrom rd xl top va i (bits p 53 10 * 4096)

/-- The physical address of a leaf: superpages and 64 KiB NAPOT pages keep the low bits of the address. -/
def leafAddr (pte level va : Nat) : Nat :=
  let low := if bit pte 63 then 16 else 12 + 9 * level
  bits pte 53 10 * 4096 / 2 ^ low * 2 ^ low + va % 2 ^ low

def xlLevels (mode : Nat) : Nat := if mode = 8 then 3 else if mode = 9 then 4 else if mode = 10 then 5 else 0

/-- G-stage translation of a guest physical address under the hgatp value `g` (R253): user permission is needed, A and D must be
set (R228). -/
def State.gWalk (s : State) (g : Nat) (mxr : Bool) (kind gpa : Nat) : Xlat :=
  let lv := xlLevels (bits g 63 60)
  if lv = 0 then .ok gpa
  else if gpa ≥ 2 ^ (12 + 9 * lv + 2) then .bad (gfCause kind) gpa
  else match walkFrom s.pte .ok (lv * 16 + 2) gpa lv (bits g 43 2 * 16384) with
    | .leaf p i =>
      let perm := if kind = 0 then bit p 3 else if kind = 1 then bit p 1 || (mxr && bit p 3) else bit p 2
      if perm && bit p 4 && bit p 6 && (kind ≠ 2 || bit p 7) then .ok (leafAddr p i gpa) else .bad (gfCause kind) gpa
    | .access => .bad (afCause kind) 0
    | _ => .bad (gfCause kind) gpa

def State.gStage (s : State) (h : Hart) (kind gpa : Nat) : Xlat := s.gWalk (h.csrV 0x680) (bit (h.csrV 0x300) 19) kind gpa

/-- One translation at privilege `p` with virtualization `v`: kinds 0 fetch, 1 load, 2 store. -/
def State.xlateAt (s : State) (h : Hart) (p : Nat) (v : Bool) (kind va : Nat) : Xlat :=
  let last := fun (x : Xlat) => match x with
    | .ok a => if h.pmpOk p a kind then .ok a else .bad (afCause kind) 0
    | b => b
  let st := h.csrV 0x300
  let atp := h.csrV (if v then 0x280 else 0x180)
  let lv := if p = 3 then 0 else xlLevels (bits atp 63 60)
  let g := fun (a : Nat) => if v then s.gStage h kind a else .ok a
  if lv = 0 then last (g va)
  else
    let n := 12 + 9 * lv
    let top := va / 2 ^ (n - 1)
    if top ≠ 0 ∧ top ≠ 2 ^ (65 - n) - 1 then .bad (pfCause kind) 0
    else match walkFrom s.pte (fun a => if v then s.gStage h 1 a else .ok a) 0 va lv (bits atp 43 0 * 4096) with
      | .leaf pt i =>
        let sum := bit (if v then h.csrV 0x200 else st) 18
        let mxr := bit st 19 || (v && bit (h.csrV 0x200) 19)
        let perm := if kind = 0 then bit pt 3 else if kind = 1 then bit pt 1 || (mxr && bit pt 3) else bit pt 2
        let user := if bit pt 4 then p = 0 || (kind ≠ 0 && sum) else p ≠ 0
        if perm && user && bit pt 6 && (kind ≠ 2 || bit pt 7) then last (g (leafAddr pt i va)) else .bad (pfCause kind) 0
      | .access => .bad (afCause kind) 0
      | .guest c a => if c ≥ 20 then .bad (gfCause kind) a else .bad (afCause kind) 0
      | .page => .bad (pfCause kind) 0
/-- Translation of a data access or fetch in the hart's mode, with MPRV for data. -/
def State.xlate (s : State) (n kind va : Nat) : Xlat :=
  let h := s.hart n
  let st := h.csrV 0x300
  if kind ≠ 0 && h.priv = 3 && bit st 17 then s.xlateAt h (bits st 12 11) (bit st 39 && bits st 12 11 ≠ 3) kind va
  else s.xlateAt h h.priv h.virt kind va

end Sys2Proof.Machine
end

