-- ==== Sys2Proof/Machine/Journal.lean ====
section
/-!
DEFINITION. The journal unit: acceptance (R160 to R167), the commit and its reports (R168, R169), holds and modes
(R170 to R173), seals and proofs (R174 to R176), and the drain (R177, R178).
-/

namespace Sys2Proof.Machine
open Sys2Proof

def jrnBase : Nat := 0x30000000
/-- Capacity of a ring's home copy in bytes (Table JRN-1). -/
def ringCap (k : Nat) : Nat := if k = 16 then 4 * 2 ^ 20 else 7 * 2 ^ 18
def ringReg (k o : Nat) : Nat := jrnBase + 0x1000 + 0x40 * k + o
/-- Bytes of records held in the home copy. -/
def Ring.fill (r : Ring) : Nat := r.recs.foldl (fun a x => a + x.bytes.length) 0
def Ring.unconf (r : Ring) : Bool := r.recs.any (fun x => !x.committed)
/-- The witness device in force, or 0xFFFF_FFFF. -/
def State.witnessId (s : State) : Nat := match s.twin.dom with
  | some d => d.witness.getD s.twin.witness noVal
  | none => noVal

/-- A Rhax message leaves for a device. -/
def State.rhaxSend (s : State) (type dst mseq code : Nat) (body : RhaxBody := .none) : State :=
  { s with twin := { s.twin with
    sent := s.twin.sent ++ [{ type := type, dst := dst, mseq := mseq, code := code, body := body }] } }
/-- A Rhax message that needs no answer leaves under the next sequence number for its destination. -/
def State.rhaxTell (s : State) (type dst : Nat) (body : RhaxBody := .none) : State :=
  let q := SMap.get 0 dst s.twin.mseq
  let s : State := { s with twin := { s.twin with mseq := SMap.set 0 dst ((q + 1) % 2 ^ 32) s.twin.mseq } }
  s.rhaxSend type dst q 0 body
/-- A Rhax request leaves: a new sequence number, kept with its first transmission's time until it is answered (R200). -/
def State.rhaxReq (s : State) (type dst ref : Nat) (body : RhaxBody := .none) : State :=
  let q := SMap.get 0 dst s.twin.mseq
  let r : RhaxReq := { dst := dst, mseq := q, type := type, ref := ref, clk := s.laneClk, sent := s.laneClk, body := body }
  ({ s with twin := { s.twin with reqs := s.twin.reqs ++ [r] } } : State).rhaxTell type dst body
/-- The reference of a witness copy's request: its ring and sequence number. -/
def wcopyRef (k seq : Nat) : Nat := 32 * seq + k
/-- A record is sent to the witness as a copy (R170, R194). -/
def State.wcopySend (s : State) (k seq : Nat) (b : Bytes) : State :=
  if s.witnessId = noVal ∨ s.twin.reqs.any (fun q => decide (q.type = 0x10) && decide (q.ref = wcopyRef k seq)) then s
  else s.rhaxReq 0x10 s.witnessId (wcopyRef k seq) (.copy k b)
/-- The lease under which ring `k` commits apart from the twin (R196): the twin's for a lane of its home set, else this
device's own. -/
def State.ringLease (s : State) (k : Nat) : Bool := if k < 16 ∧ !bit s.twin.homeCfg k then s.twin.twinLease else s.twin.lease

/-! ### Acceptance -/

/-- A record takes its sequence number, stamps and place (R160, R166). -/
def State.acceptRec (s : State) (k : Nat) (p : PortRec) : State :=
  let r := s.ring k
  let ov := match p.src with
    | .thread n _ h => match (s.lane n).msg h with
      | some m => m.overrun
      | none => false
    | _ => p.overrun
  let w2 := setBits (Bytes.le p.bytes 16 8) 39 0 s.btm.beat
  let w3 := Bytes.le p.bytes 24 8
  let w3 := setBits (setBits (setBits (setBits w3 44 0 p.route) 53 45 p.agent) 56 56 (b2n ov)) 57 57 (b2n p.hw)
  let b := p.bytes.splice 0 (Bytes.ofNatLE 8 r.seqNext ++ Bytes.ofNatLE 8 s.tai ++ Bytes.ofNatLE 8 w2 ++ Bytes.ofNatLE 8 w3)
  let wit := s.jrn.mode = 2 && s.ringLease k
  let rc : Rec := { seq := r.seqNext, bytes := b, src := p.src, epoch := s.epoch, wit := wit, sentClk := s.laneClk }
  let hi := s.reg (ringReg k 0x2C)
  let before := cdiv r.fill 1024
  let s := s.setRing k { r with
    seqNext := r.seqNext + 1, recs := r.recs ++ [rc], epochRecs := r.epochRecs ++ [(r.seqNext, b)],
    epochWit := r.epochWit || wit }
  let s := if wit then s.wcopySend k r.seqNext b
    else if s.jrn.mode = 1 ∨ s.jrn.mode = 4 then s.linkSend (.record k r.seqNext false) else s
  if before < hi ∧ hi ≤ cdiv (s.ring k).fill 1024 then s.raiseIrq jrnBase 2 else s
/-- The port record of one of JRN's own records. JRN has no agent ID in Table KU-5: AGENT reads the marker 0x1FF (DEDUCED,
log 169). -/
def ownRec (type code size : Nat) (payload : Bytes) : PortRec :=
  { src := .jrn, agent := 0x1FF, hw := true, bytes := recBytes type code size payload }

/-- COMMIT_OK fell on a lane, or a ring entered a hold (R62, R170). -/
def State.holdIrq (s : State) (k : Nat) (was : Nat) : State :=
  if was = 0 ∧ (s.ring k).hold ≠ 0 then
    let s := (s.modRing k (fun r => { r with epochHeld := true })).raiseIrq jrnBase 1
    if k < 16 then s.raiseIrq (laneBase k) 8 else s
  else s
/-- Change a ring and report a hold it enters. -/
def State.holdRing (s : State) (k : Nat) (f : Ring → Ring) : State :=
  let was := (s.ring k).hold
  (s.modRing k f).holdIrq k was

/-- An accepted JRN.APPEND whose record stays unconfirmed in MODE HELD completes at once with bits 63 and 62 (R236). -/
def State.hartsUnconf (s : State) (k : Nat) : State :=
  (s.ring k).recs.foldl (fun s x => match x.src with
    | .hart h rd =>
      if x.committed then s
      else if (s.hart h).wait = .jrn rd then
        (s.modHart h (fun y => y.ret rd (BitVec.ofNat 64 (2 ^ 63 + 2 ^ 62 + x.seq % 2 ^ 40 * 2 ^ 16 + 0x1301)) 4)).modRing k
          (fun r => { r with recs := r.recs.map (fun y => if y.seq = x.seq then { y with src := .gone } else y) })
      else s
    | _ => s) s
/-- A hart is reset: its accepted records lose their result, and one not yet accepted is withdrawn (R164). -/
def Ring.loseHart (r : Ring) (h : Nat) : Ring :=
  let mine := fun (x : RecSrc) => match x with
    | .hart g _ => decide (g = h)
    | _ => false
  { r with recs := r.recs.map (fun x => if mine x.src then { x with src := .gone } else x)
           waiting := r.waiting.filter (fun x => !mine x.src) }

/-! ### Seals (R174, R175) -/

/-- D_e of a ring (R174). -/
def epochDigest (k dev e : Nat) (prev : Bytes) (recs : List (Nat × Bytes)) : Bytes :=
  Crypto.sha384 ([0x53#8] ++ Bytes.ofNatLE 1 k ++ Bytes.ofNatLE 4 dev ++ Bytes.ofNatLE 8 e
    ++ (if prev.isEmpty then Bytes.zeros 48 else prev) ++ recs.foldl (fun a p => a ++ p.2) [])
def sealPayload (e first cnt flags dev : Nat) (d : Bytes) : Bytes :=
  Bytes.ofNatLE 8 e ++ Bytes.ofNatLE 8 first ++ Bytes.ofNatLE 4 cnt ++ Bytes.ofNatLE 4 flags ++ Bytes.ofNatLE 4 dev
    ++ Bytes.zeros 4 ++ d ++ Bytes.zeros 16
/-- The bytes a record of JRN's own takes. -/
def LateRec.size : LateRec → Nat
  | .seal _ _ _ _ => 128
  | .own _ _ z _ => 64 * 2 ^ z
/-- Ring `k` takes one of JRN's own records: a seal's digest runs on from the ring's last seal (R174). -/
def State.takeOwn (s : State) (k : Nat) (x : LateRec) : State :=
  match x with
  | .own ty c z b => s.acceptRec k (ownRec ty c z b)
  | .seal e recs first flags =>
    let r := s.ring k
    let d := epochDigest k s.twin.deviceId e r.prevD recs
    (s.setRing k { r with prevD := d }).acceptRec k
      (ownRec 0x03 0 1 (sealPayload e (first.getD r.seqNext) recs.length flags s.twin.deviceId d))
/-- A record has room in its ring (R178). -/
def Ring.room (r : Ring) (k len : Nat) : Bool := decide (r.fill + len ≤ ringCap k)
/-- Ring `k` is open to JRN's own records: no hold, or CLOSING (R175). -/
def Ring.openOwn (r : Ring) : Bool := r.hold = 0 || r.hold = 6
/-- JRN's own records that waited are taken in order, as far as the ring has room; one without room holds it FULL (R178). -/
def lateLoop (k : Nat) : List LateRec → State → State
  | [], s => s.modRing k (fun r => { r with late := [] })
  | x :: xs, s =>
    if (s.ring k).room k x.size then lateLoop k xs (s.takeOwn k x)
    else s.holdRing k (fun r => { r with late := x :: xs, full := true })
/-- A hold has ended: JRN's own records that waited go before any waiting record (R175). -/
def State.acceptLate (s : State) (k : Nat) : State :=
  let r := s.ring k
  if r.openOwn && !r.late.isEmpty then lateLoop k r.late s else s
/-- One of JRN's own records is presented: accepted in this lane cycle when its ring is open, or, for a MODE record, whatever
hold the ring is under (R170). A ring whose counter is not restored or that has no room takes it afterwards (DEDUCED, log 170). -/
def State.giveOwn (s : State) (k : Nat) (x : LateRec) (force : Bool) : State :=
  let s := s.acceptLate k
  let r := s.ring k
  let room := r.room k x.size
  if r.restored && room && (force || (r.openOwn && r.late.isEmpty)) then s.takeOwn k x
  else s.holdRing k (fun r => { r with late := r.late ++ [x], full := r.full || (r.restored && !room) })
/-- The seal of epoch `e` of ring `k` (R175): appended at once, or marked late and appended when the hold that delays it ends. -/
def State.sealRing (s : State) (k e : Nat) : State :=
  let r := s.ring k
  if !r.online then s
  else
    let late2 := decide (0 < e) && r.proofs.contains (e - 1)
    let now := r.restored && r.openOwn && r.late.isEmpty && r.room k 128
    let flags := b2n r.epochWit + 2 * b2n (r.epochHeld || r.hold ≠ 0) + 4 * b2n late2 + 8 * b2n (!now)
    let first := match r.epochRecs with
      | p :: _ => some p.1
      | [] => if r.restored then some r.seqNext else none
    let s := s.setRing k { r with
      epochRecs := [], epochHeld := decide (r.hold ≠ 0), epochWit := false,
      closedOk := r.closing, drainEpochs := r.drainEpochs ++ [e],
      proofs := if s.jrn.proofEn then r.proofs ++ [e] else r.proofs }
    let s := if late2 then s.raiseIrq jrnBase 4 else s
    s.giveOwn k (.seal e r.epochRecs first flags) false
/-- An epoch has ended whose seals have not been appended yet. -/
def State.sealPending (s : State) : Bool := s.btm.running && decide (s.jrn.epochDone < s.epoch)
/-- The seals of the epoch that has ended go first (R166, R175). -/
def State.sealDue (s : State) : State :=
  if s.sealPending then
    (List.range 17).foldl (fun s k => s.sealRing k (s.epoch - 1)) { s with jrn := { s.jrn with epochDone := s.epoch } }
  else s
/-- JRN appends a record of its own to ring `k` (R167). -/
def State.acceptOwn (s : State) (k type code size : Nat) (payload : Bytes) : State :=
  s.sealDue.giveOwn k (.own type code size payload) false
/-- A MODE record on every ring that is not OFFLINE, in the lane cycle of the change (R170). -/
def State.modeRecs (s : State) : State :=
  (List.range 17).foldl (fun s k =>
    if (s.ring k).online then
      s.giveOwn k (.own 0x08 0 0 (Bytes.ofNatLE 2 s.jrn.mode ++ Bytes.ofNatLE 4 s.witnessId)) true
    else s) s
/-- A change of JRN.STATUS.MODE: the interrupt, the PAIR holds, and the MODE records (R170). In WITNESS a ring holds unless
the lease of its home set is held (R196). -/
def State.setMode (s : State) (m : Nat) : State :=
  if s.jrn.mode = m then s
  else
    let s := ({ s.sealDue with jrn := { s.sealDue.jrn with mode := m } } : State).raiseIrq jrnBase 3
    let s := (List.range 17).foldl (fun s k =>
      if !(s.ring k).online then s
      else
        let s := s.holdRing k (fun r => { r with
          pairHold := m = 3 || (m = 2 && !s.ringLease k), resync := r.resync && decide (m ≠ 2 ∧ m ≠ 3) })
        (if m = 3 then s.hartsUnconf k else s).acceptLate k) s
    s.modeRecs

/-! ### Reserve requests (R59, R116, R176) -/

/-- A unit asks a lane for a reserve operation: refused with 0x1105 beyond the credit cap, else queued. -/
def State.reserveReq (s : State) (n : Nat) (q : ReserveReq) : State :=
  let cap := 16 * bits ((s.lane n).cfg 0x24) 15 0
  if opUnits q.opc > cap then s.reserveDone q.unit q.ref q.key q.opc 0x1105 []
  else if (opCycles q.opc).isNone then s.reserveDone q.unit q.ref q.key q.opc 0x1106 []
  else s.modLane n (fun l => { l with rsvq := l.rsvq ++ [q] })

/-- A committed seal asks for its proof (R176). -/
def State.proofRequest (s : State) (k : Nat) (rc : Rec) : State :=
  if s.jrn.proofEn then
    let e := Bytes.le rc.bytes 32 8
    let lane := if k < 16 then k else e % 16
    let opc := if s.jrn.proofAlg = 0 then 0x08 else if s.jrn.proofAlg = 1 then 0x10 else 0x18
    let s := s.modRing k (fun r => { r with
      proofs := if r.proofs.contains e then r.proofs else r.proofs ++ [e], proofSeals := r.proofSeals ++ [rc] })
    s.reserveReq lane { unit := .jrn, opc := opc, key := s.jrn.proofKey, input := rc.bytes, aux := [], ref := 32 * rc.seq + k }
  else s.modRing k (fun r => { r with proofs := r.proofs.filter (fun e => e ≠ Bytes.le rc.bytes 32 8) })

/-- The proof of the seal with sequence number `seq` has committed: its epoch waits for none (R176). -/
def State.proofCommitted (s : State) (k seq : Nat) : State :=
  s.modRing k (fun r => match r.proofSeals.find? (fun x => x.seq = seq) with
    | some x => { r with
      proofs := r.proofs.filter (fun e => e ≠ Bytes.le x.bytes 32 8), proofSeals := r.proofSeals.filter (fun x => x.seq ≠ seq) }
    | none => r)

/-! ### Commit reports (R50, R121, R163, R164, R168) -/

/-- A message's disposition is acknowledged: its entry frees, its transient keys go (R50, R121). -/
def State.ackMsg (s : State) (n h : Nat) : State :=
  s.modLane n (fun l => match l.msg h with
    | some m => (l.dropTrans h).setMsg h { m with acked := true }
    | none => l)

def dispCounter (ty : Nat) : Option Nat :=
  match ty with
  | 0x81 => some 3 | 0x82 => some 4 | 0x83 => some 5 | 0x85 => some 6 | 0x86 => some 8 | _ => none

/-- Report one commit to its source with the journal outcome code. -/
def State.reportCommit (s : State) (k : Nat) (rc : Rec) (code : Code) : State :=
  let ty := Bytes.le rc.bytes 21 1
  let s := if code = 0x13C2 then s.incReg (jrnBase + 0x34) 1 else s
  match rc.src with
  | .thread n t h =>
    let s := match dispCounter ty with
      | some i => s.lpmu n i 1
      | none => s
    let s := if code ≠ 0 then s.lpmu n 26 1 else s
    let s := s.ackMsg n h
    let th := s.thr n t
    match th.run with
    | .waitJrn rd =>
      let w := s.laneClk - th.waitClk
      s.modThr n t (fun th =>
        let th := match th.phase with
          | some p => { th with phase := some { p.wait 3 (w - 64) with acked := true } }
          | none => th
        th.ret rd (code.setWidth 32))
    | _ => s
  | .laneHw n h =>
    let s := match dispCounter ty with
      | some i => s.lpmu n i 1
      | none => s
    if ty = 0x86 then s.modLane n (fun l => match l.msg h with
      | some m => (l.setMsg h { m with report := none, undelivered := true, atPort := false }).retireMsg h
      | none => l)
    else (s.ackMsg n h).modLane n (fun l => l.retireMsg h)
  | .hart h _ =>
    match (s.hart h).wait with
    | .jrn rd => s.modHart h (fun x => x.ret rd (BitVec.ofNat 64 rc.seq) 4)
    | _ => s
  | .cel => s
  | .gone => s
  | .jrn =>
    if ty = 0x03 then s.proofRequest k rc
    else if ty = 0x04 then s.proofCommitted k (Bytes.le rc.bytes 32 8)
    else s

/-- Commit, in sequence order, every acknowledged record whose predecessors are committed (R168). -/
def commitLoop (k : Nat) : Nat → State → State
  | 0, s => s
  | fuel + 1, s =>
    let r := s.ring k
    match r.recs.find? (fun x => !x.committed) with
    | none => s
    | some rc =>
      if !rc.acked then s
      else
        let recs := r.recs.map (fun x => if x.seq = rc.seq then { x with committed := true } else x)
        let s := s.setRing k { r with recs := recs, seqDone := rc.seq }
        let code : Code := if rc.wit then 0x13C2 else if rc.delayed then 0x13C1 else 0
        commitLoop k fuel (s.reportCommit k rc code)
def State.commit (s : State) (k : Nat) : State := commitLoop k ((s.ring k).recs.length + 1) s
def Ring.mark (r : Ring) (seq : Nat) (f : Rec → Rec) : Ring :=
  { r with recs := r.recs.map (fun x => if x.seq = seq ∧ !x.committed then f x else x) }

/-! ### Link failure (R170) -/

/-- The unconfirmed records of ring `k` go to the witness in sequence order; from now on they commit by its acknowledgments. -/
def State.witnessRing (s : State) (k : Nat) : State :=
  if s.ringLease k && (s.ring k).online then
    let s := ((s.ring k).recs.filter (fun x => !x.committed)).foldl (fun s x => s.wcopySend k x.seq x.bytes) s
    s.modRing k (fun r => { r with
      recs := r.recs.map (fun x => if x.committed then x else { x with wit := true, acked := false, sentClk := s.laneClk }) })
  else s
/-- The decision of R170 in the lane cycle in which the failure is reported: with this device's own lease WITNESS, else HELD.
What the twin has acknowledged of uncommitted records counts no longer. -/
def State.enterApart (s : State) : State :=
  if s.twin.lease then ((List.range 17).foldl (fun s k => s.witnessRing k) s).setMode 2
  else
    ((List.range 17).foldl (fun s k => s.modRing k (fun r =>
      { r with recs := r.recs.map (fun x => if x.committed then x else { x with acked := false }) })) s).setMode 3

/-! ### Meanings -/

/-- CELLARER_APPEND (R165). -/
def execCellarerAppend (event : Nat) (code : Code) (body : Bytes) (s : State) : Res :=
  .next (s.policyRec event code.toNat 0 0 [] body)

/-- Refuse a waiting append with 0x1301 (R158, R172). -/
def State.refuseWaiting (s : State) (p : PortRec) : State :=
  match p.src with
  | .thread n t h =>
    let s := s.modMsg n h (fun m => { m with disp := none })
    (match (s.thr n t).run with
      | .waitJrn rd => s.retT n t rd 0x1301
      | _ => s)
  | .hart h _ =>
    (match (s.hart h).wait with
      | .jrn rd => s.modHart h (fun x => x.ret rd (BitVec.ofNat 64 (2 ^ 63 + 0x1301)) 4)
      | _ => s)
  | _ => s

def RecSrc.isHart : RecSrc → Bool
  | .hart _ _ => true
  | _ => false
/-- RECORD_ACCEPT (R166, R167, R172, R178): the record at the head of ring `k`'s port; one a lane cycle, after the seals. -/
def execRecordAccept (k : RingId) (portWait : Nat) (s : State) : Res :=
  let s := s.acceptLate k
  let r := s.ring k
  match (if s.sealPending ∨ r.accClk = some s.laneClk then [] else r.waiting) with
  | [] => .next s
  | p :: ps =>
    let pop := s.modRing k (fun r => { r with waiting := ps })
    let hd := r.hold
    let own := p.src = .jrn
    if hd = 5 ∨ hd = 4 ∨ (hd = 6 ∧ !own) then
      .next (if p.src = .cel ∨ own then s else pop.refuseWaiting p)
    else if hd ≠ 0 ∧ hd ≠ 6 ∧ hd ≠ 2 then .next (if p.src.isHart then pop.refuseWaiting p else s)
    else if r.fill + p.bytes.length > ringCap k then
      .next ((if p.src.isHart then pop.refuseWaiting p else s).holdRing k (fun r => { r with full := true }))
    else
      let pop := pop.modRing k (fun r => { r with full := false, accClk := some s.laneClk })
      let a := jrnBase + 0x3C
      let pop := pop.setReg a (max (pop.reg a) (min portWait 0xFFFF))
      .next (pop.acceptRec k p)

/-- MIRROR_ACK_RECEIVE (R168, R169). -/
def execMirrorAckReceive (k : RingId) (seq delay : Nat) (s : State) : Res :=
  if s.twin.linkUp ∧ (s.jrn.mode = 1 ∨ s.jrn.mode = 4) then
    let a := jrnBase + 0x38
    let s := if (s.ring k).recs.any (fun x => x.seq = seq ∧ !x.committed) then s.setReg a (max (s.reg a) (min delay 0xFFFF)) else s
    .next ((s.modRing k (fun r => r.mark seq (fun x => { x with acked := true }))).commit k)
  else .next s

/-- One retransmission, or the link failure after the fourth (R169). -/
def State.retransmit (s : State) (k seq : Nat) : State × Bool :=
  match (s.ring k).recs.find? (fun x => x.seq = seq ∧ !x.committed ∧ !x.acked) with
  | none => (s, false)
  | some x =>
    if x.retx ≥ 4 then (s, true)
    else
      let s := s.modRing k (fun r => { r with recs := r.recs.map (fun y =>
        if y.seq = seq then { y with retx := y.retx + 1, delayed := true, sentClk := s.laneClk }
        else if y.seq > seq ∧ !y.committed then { y with delayed := true } else y) })
      ((s.incReg (jrnBase + 0x30) 1).raiseIrq jrnBase 0, false)

/-- WITNESS_ACK_TIMEOUT (R170): a copy unacknowledged for WIT_CFG.TIMEOUT microseconds moves the device to HELD; before that
time the timer has not run out. -/
def execWitnessAckTimeout (k : RingId) (seq : Nat) (s : State) : Res :=
  if s.jrn.mode = 2 ∧ (s.ring k).recs.any (fun x => x.seq = seq ∧ !x.committed ∧ !x.acked
    ∧ x.sentClk + bits (s.reg (jrnBase + 0x28)) 13 0 * 1600 ≤ s.laneClk) then .next (s.setMode 3)
  else .next s

/-! ### Drain (R177, R178) -/

/-- Area in 64-byte units of a valid DRAIN_CFG; none while the drain is off. -/
def State.drainArea (s : State) (k : Nat) : Option Nat :=
  let c := s.reg (ringReg k 0x20)
  let z := bits c 4 1
  if bit c 0 ∧ 4 ≤ z ∧ z ≤ 14 then some (2 ^ z * 2 ^ 14) else none

/-- Write a stream of 64-byte units into the wrapping drain area. -/
def State.drainWrite (s : State) (base area : Nat) (pos : Nat) (b : Bytes) : State :=
  (List.range (b.length / 64)).foldl (fun s i =>
    s.dramWrite (base + (pos + i) % area * 64) (Bytes.slice b (64 * i) 64)) s
/-- A slot of the records drained at `pos` that the journal SRAM reports (Table KU-49): corrected, fetched again from the twin's
copy, or without one drained as read with the poison mark. -/
def State.drainErr (s : State) (k base area pos : Nat) (err : SlotErr) : State :=
  let rec1 := fun (s : State) (code flags : Nat) => s.ras { code := code, source := 8, inst := k, flags := flags }
  match err with
  | .none => s
  | .single _ => rec1 s 0x40C2 1
  | .multi i b =>
    if s.twin.pair = 4 && s.twin.linkUp then rec1 s 0x40C4 1
    else rec1 (s.dramWriteBy 0x1FF (base + (pos + i) % area * 64) (Bytes.slice b 0 64) true) 0x4009 0

/-- DRAIN_COPY (R177): the oldest sealed epoch whose following seal has committed; a CLOSING ring, once sealed, drains every
remaining record, seal and proof included (R435). `err` is what the journal SRAM reports for one of the slots drained. -/
def execDrainCopy (k : RingId) (err : SlotErr) (s : State) : Res :=
  let r := s.ring k
  match r.drainEpochs, s.drainArea k with
  | e :: es, some area =>
    let all := r.closing && es.isEmpty && r.recs.any (fun x => Bytes.le x.bytes 21 1 = 0x03 && Bytes.le x.bytes 32 8 = e)
    let mine := if all then r.recs else r.recs.filter (fun x => x.epoch ≤ e)
    let sealOk := all || r.recs.any (fun x => x.committed && Bytes.le x.bytes 21 1 = 0x03 && Bytes.le x.bytes 32 8 = e + 1)
    let b := mine.foldl (fun a x => a ++ x.bytes) []
    let head := s.reg (ringReg k 0x24)
    let ret := s.reg (ringReg k 0x28)
    let used := (head + 2 ^ 32 - ret) % 2 ^ 32
    if bit (s.reg jrnBase) 0 || !sealOk || decide (used + b.length / 64 > area) || mine.any (fun x => !x.committed) then .next s
    else
      let base := s.reg (ringReg k 0x18) + s.reg (ringReg k 0x1C) * 2 ^ 32
      let s := (s.drainWrite base area head b).drainErr k base area head err
      let s := s.setReg (ringReg k 0x24) ((head + b.length / 64) % 2 ^ 32)
      let s := s.modRing k (fun r => { r with
        recs := if all then [] else r.recs.filter (fun x => x.epoch > e),
        drainEpochs := if all then [e] else es, full := false })
      .next ((s.linkSend (.drain k (mine.foldl (fun a x => max a x.seq) 0))).acceptLate k)
  | _, _ => .next s

/-- DRAIN_RETIRE (R177): a write beyond DRAIN_HEAD is ignored. -/
def execDrainRetire (_agent : Agent) (k : RingId) (val : W32) (s : State) : Res :=
  let head := s.reg (ringReg k 0x24)
  let ret := s.reg (ringReg k 0x28)
  if (head + 2 ^ 32 - val.toNat) % 2 ^ 32 ≤ (head + 2 ^ 32 - ret) % 2 ^ 32 then .next (s.setReg (ringReg k 0x28) val.toNat)
  else .next s

/-- DRAIN_PAUSE (R178): JRN.CTL.DRAIN_PAUSE. -/
def execDrainPause (_agent : Agent) (v : Bool) (s : State) : Res := .next (s.setField jrnBase 0 0 (b2n v))

end Sys2Proof.Machine
end

