-- ==== Sys2Proof/Machine/LaneCtl.lean ====
section
/-!
DEFINITION. Lane control: the lane firewall (R371), the CTL and ADM_CFG writes (R51, R66, R69), a lane reset
(Table KU-25, R67), the shelf indices (R63, R64), decisions (R41, R42), shedding and overruns as events, and the lane
counters' clears (R413, R414).
-/

namespace Sys2Proof.Machine
open Sys2Proof

/-! ### The lane firewall (R371) -/

/-- Whether an agent holds a right on a lane: 0 READ, 1 TILE_WRITE, 2 SHELF, 3 CONTROL. The Cellarer is never
restricted; a lane reads its own block. -/
def State.right (s : State) (agent lane k : Nat) : Bool :=
  if agent = 272 then true
  else if agent = 256 + lane then k = 0
  else match SMap.find agent s.firewall with
    | some f => bit (if k = 0 then f.read else if k = 1 then f.tileWrite else if k = 2 then f.shelf else f.control) lane
    | none => false
/-- An access is refused: a hart takes an access fault at the address, another requester a Completer Abort (R31). -/
def State.refuse (s : State) (agent addr : Nat) (store : Bool) : State :=
  if agent < 256 then s.hartTrap agent (if store then 7 else 5) addr
  else { s with readErr := SMap.set 0 agent 2 s.readErr }
/-- A control-block write behind its right. -/
def State.laneWrite (s : State) (agent : Agent) (n o k : Nat) (f : State → State) : Res :=
  if s.right agent n k then .next (f s) else .next (s.refuse agent (laneBase n + o) true)

/-! ### CTL and ADM_CFG -/

/-- Whether a record's acknowledgment goes to lane `n`. -/
def RecSrc.ofLane (n : Nat) : RecSrc → Bool
  | .thread m _ _ => m = n
  | .laneHw m _ => m = n
  | _ => false
/-- The acknowledgments of lane `n`'s accepted appends are discarded (Table KU-25): they name no message any more. -/
def State.discardAcks (s : State) (n : Nat) : State :=
  s.modRing n (fun r => { r with
    recs := r.recs.map (fun x => if x.src.ofLane n then { x with src := .laneHw n 4096 } else x)
    waiting := r.waiting.map (fun x => if x.src.ofLane n then { x with src := .laneHw n 4096 } else x) })
/-- RESETTING begins (R66): threads stop, undispatched descriptors and unaccepted appends of the lane's program drop. -/
def State.startReset (s : State) (n agent : Nat) : State :=
  let l := s.lane n
  if l.st = 0 ∨ l.st = 2 ∨ l.st = 3 then
    let mine := fun (o : BurOp) => o.src.isThread
    let s := s.setLane n { l with
      st := 4, reset := some { agent := agent },
      threads := l.threads.map (fun (p : Nat × Thread) => (p.1, { p.2 with run := .idle, phase := none })),
      tags := [], retired := [], digests := [],
      eng := l.eng.map (fun (p : Nat × BurEng) => (p.1, { p.2 with q := p.2.q.filter (fun o => !mine o) })),
      stn := { l.stn with q := [], ctxs := [] } }
    let s := s.modRing n (fun r => { r with waiting := r.waiting.filter (fun p => match p.src with
      | .thread m _ _ => m ≠ n
      | _ => true) })
    s.setLreg n 0 (setBits (s.lreg n 0) 1 1 1)
  else s

/-- DRAIN (R51). -/
def execDrain (agent : Agent) (n : LaneId) (v : Bool) (s : State) : Res :=
  s.laneWrite agent n 0 3 fun s => s.setLreg n 0 (setBits (s.lreg n 0) 2 2 (b2n v))
/-- ADMIT_EN (R51). -/
def execAdmitEn (agent : Agent) (n : LaneId) (v : Bool) (s : State) : Res :=
  s.laneWrite agent n 0 3 fun s => s.setLreg n 0 (setBits (s.lreg n 0) 0 0 (b2n v))
/-- RESET_REQ (R66). -/
def execResetReq (agent : Agent) (n : LaneId) (s : State) : Res :=
  s.laneWrite agent n 0 3 fun s => s.startReset n agent
/-- APPLY (R69). -/
def execApply (agent : Agent) (n : LaneId) (s : State) : Res :=
  s.laneWrite agent n 0x28 3 fun s => s.modLane n (fun l => { l with applyPending := true })

/-! ### The lane reset (Table KU-25, R67) -/

/-- Whether a record's source is message `h` of lane `n`. -/
def RecSrc.ofMsg (n h : Nat) : RecSrc → Bool
  | .thread a _ b => a = n && b = h
  | .laneHw a b => a = n && b = h
  | _ => false
/-- Whether a message has a disposition: one acknowledged, one accepted by JRN, or one that the lane's hardware has handed to
it. -/
def State.hasDisp (s : State) (n h : Nat) (m : Msg) : Bool :=
  m.acked || (s.ring n).recs.any (fun r => !r.committed && r.src.ofMsg n h)
    || (s.ring n).waiting.any (fun r => r.hw && r.src.ofMsg n h)
/-- Least and greatest beat stamp of a list of messages; 0 for none. -/
def beatSpan (ms : List Msg) : Nat × Nat :=
  match ms with
  | [] => (0, 0)
  | m :: r => r.foldl (fun (p : Nat × Nat) x => (min p.1 x.hm.beat, max p.2 x.hm.beat)) (m.hm.beat, m.hm.beat)
/-- The payload of Table JRN-5. -/
def resetPayload (disc unrel : List Msg) (who : Nat) : Bytes :=
  Bytes.ofNatLE 4 disc.length ++ Bytes.ofNatLE 4 unrel.length
    ++ Bytes.ofNatLE 8 (beatSpan disc).1 ++ Bytes.ofNatLE 8 (beatSpan disc).2
    ++ Bytes.ofNatLE 8 (beatSpan unrel).1 ++ Bytes.ofNatLE 8 (beatSpan unrel).2 ++ Bytes.ofNatLE 4 who
/-- The messages a reset or takeover discards, and the responses committed and not released (R67). -/
def State.lostMsgs (s : State) (n : Nat) : List Msg × List Msg :=
  let l := s.lane n
  (((l.msgs.filter (fun p => !s.hasDisp n p.1 p.2)).map (·.2)),
   ((l.msgs.filter (fun p => p.2.acked && !p.2.released && decide (p.2.disp = some 0x81))).map (·.2)))
/-- Tiles, in-flight table and shelves of a lane are cleared; scratch areas, larder and stencil store keep their contents. -/
def Lane.clear (l : Lane) (clk : Nat) : Lane :=
  let bump := fun (m : SMap Nat) => (List.range 8).foldl (fun m k => SMap.set 0 k ((SMap.get 0 k m + 1) % 65536) m) m
  { l with tmem := l.tmem.filter (fun (p : Nat × Byte) => decide (p.1 ≥ tileCount * 256)), side := [], msgs := [], cands := [],
           trans := [], hshGen := bump l.hshGen, rshGen := bump l.rshGen, unsig := [], lateFree := [], port := none,
           oldBusy := false, clk0 := clk }
/-- The indices of the lane's shelves become 0 and the tally words show the new generations. -/
def State.clearShelves (s : State) (n : Nat) : State :=
  (List.range 16).foldl (fun s k =>
    let o := shelfOff k
    let s := (s.setLreg n (o + 0xC) 0).setLreg n (o + 0x10) 0
    let l := s.lane n
    let g := if k < 8 then SMap.get 0 k l.hshGen else SMap.get 0 (k - 8) l.rshGen
    if bit (l.cfg (o + 8)) 0 then
      s.dramWriteBy (256 + n) (l.cfg (o + 0x14) + l.cfg (o + 0x18) * 2 ^ 32) (Bytes.ofNatLE 8 (g * 2 ^ 32)) false
    else s) s
/-- LANE_RESET_CLEAR: once no engine runs, the lane is cleared and the reset record is appended. -/
def execLaneResetClear (n : LaneId) (s : State) : Res :=
  let l := s.lane n
  let busy := l.stn.run.isSome || l.eng.any (fun p => p.2.run.isSome)
  match l.reset with
  | some r =>
    if l.st ≠ 4 ∨ r.cleared ∨ busy then .next s
    else
      let (disc, unrel) := s.lostMsgs n
      let code := if disc.isEmpty then 0 else 0x150A
      let s := s.discardAcks n
      let s := (s.modLane n (fun l => { l.clear s.laneClk with reset := some { r with cleared := true } })).clearShelves n
      .next (s.present n { src := .laneHw n 4096, agent := 256 + n, hw := true,
                           bytes := recBytes 0x01 code 1 (resetPayload disc unrel r.agent) })
  | none => .next s

/-! ### Shelf indices (R63, R64) -/

/-- A hand-off shelf that was full may resume its waiting posts; the resume is an event of its own. -/
def State.hshCons (s : State) (n k : Nat) (v : W32) : State := s.setLreg n (0x2010 + 0x40 * k) v.toNat
/-- A producer index further than ENTRIES ahead is ignored. -/
def State.rshProd (s : State) (n k : Nat) (v : W32) : State :=
  let c := s.lreg n (0x2210 + 0x40 * k)
  if (v.toNat + 2 ^ 32 - c) % 2 ^ 32 > shelfEntries ((s.lane n).cfg (0x2208 + 0x40 * k)) then s
  else s.setLreg n (0x220C + 0x40 * k) v.toNat
def execHshConsWrite (agent : Agent) (n : LaneId) (k : Fin 8) (val : W32) (s : State) : Res :=
  s.laneWrite agent n (0x2010 + 0x40 * k) 2 fun s => s.hshCons n k val
def execRshProdWrite (agent : Agent) (n : LaneId) (k : Fin 8) (val : W32) (s : State) : Res :=
  s.laneWrite agent n (0x220C + 0x40 * k) 2 fun s => s.rshProd n k val

/-! ### Decisions (R41, R42, R64) -/

/-- A decision for no held message: counted, interrupted and recorded. -/
def State.lateDecision (s : State) (n : Nat) (x : Hallmark) : State :=
  ((s.lpmu n 10 1).raiseIrq (laneBase n) 4).gEvt 3 n 0x1509 (256 + n) (x.beat % 2 ^ 32) (x.session + 0xFFFF0000) 0
/-- The checker's verdict on a return entry for a held message: 0, 0x1202, 0x1203 or 0x1204. -/
def State.decisionCheck (s : State) (m : Msg) (b : Bytes) (slot : Nat) : Code :=
  let len := 40 + Bytes.le b 32 2
  let x := Hallmark.ofBytes b
  if len > slot then 0x1202
  else if m.trace.length ≥ 15 then 0x1203
  else match s.hmKey m.hm with
    | none => 0x1204
    | some k =>
      if x.chain = linkTag k m.hm.chain (digestOf k (b.slice 32 (len - 32))) 0x400 (m.hm.step + 1) ∧ x.step = m.hm.step + 1
      then 0 else 0x1202
/-- The decision is accepted: the chain shows its link and the message is an outbound candidate (R57). -/
def State.acceptDecision (s : State) (n h : Nat) (m : Msg) (b : Bytes) : State :=
  let len := 40 + Bytes.le b 32 2
  let x := Hallmark.ofBytes b
  let d := match s.hmKey m.hm with
    | some k => digestOf k (b.slice 32 (len - 32))
    | none => 0
  let m' := { m with hm := { m.hm with chain := x.chain, step := m.hm.step + 1 },
                     trace := m.trace ++ [⟨0x400, d, endTile, true⟩], stage := .waitOut, decision := some (b.take len),
                     decClk := s.laneClk }
  (s.modLane n (fun l => { (l.setMsg h m').rewriteHm m' with
    cands := l.cands ++ [{ h := h, outbound := true, cls := m.cls, born := s.btm.beat, input := m.canonLen + len }] })).lpmu n 31 1
/-- DECISION_COLLECT. An entry whose slot lies outside installed DRAM is consumed and recorded with 0x1502 (R29). -/
def execDecisionCollect (n : LaneId) (k : Fin 8) (s : State) : Res :=
  let l := s.lane n
  let o := shelfOff (8 + k)
  let cfg := l.cfg (o + 8)
  let c := s.lreg n (o + 0x10)
  if (l.st ≠ 2 ∧ l.st ≠ 3) ∨ !bit cfg 0 ∨ c = s.lreg n (o + 0xC) then .next s
  else
    let slot := shelfSlot cfg
    let gone := s.shelfGone n (8 + k)
    let b := s.dramRead (l.cfg o + l.cfg (o + 4) * 2 ^ 32 + c % shelfEntries cfg * slot) slot
    let x := Hallmark.ofBytes b
    let c' := (c + 1) % 2 ^ 32
    let s := s.setLreg n (o + 0x10) c'
    let s := if gone then s else s.dramWriteBy (256 + n) (l.cfg (o + 0x14) + l.cfg (o + 0x18) * 2 ^ 32)
      (Bytes.ofNatLE 8 (c' + SMap.get 0 k.val l.rshGen * 2 ^ 32)) false
    let s := if gone then s.gEvt 3 n 0x1502 (256 + n) 0 0xFFFF0000 0
      else if s.poisoned (l.cfg o + l.cfg (o + 4) * 2 ^ 32 + c % shelfEntries cfg * slot) slot then
        s.hmFail n 4095 2 0x1202 endTile
      else match l.held x with
      | none => s.lateDecision n x
      | some (h, m) =>
        if m.stage ≠ Stage.awaiting then s.lateDecision n x
        else
          let code := s.decisionCheck m b slot
          if code = 0 then s.acceptDecision n h m b else s.hmFail n h 2 code endTile
    .next (s.shelfNotify n (8 + k) 1)

/-- An uncollected entry on an enabled return shelf names the message (R42). -/
def State.decisionWaits (s : State) (n : Nat) (m : Msg) : Bool :=
  let l := s.lane n
  (List.range 8).any (fun k =>
    let o := shelfOff (8 + k)
    let cfg := l.cfg (o + 8)
    let c := s.lreg n (o + 0x10)
    let cnt := (s.lreg n (o + 0xC) + 2 ^ 32 - c) % 2 ^ 32
    bit cfg 0 && (List.range (min cnt (shelfEntries cfg))).any (fun i =>
      let x := Hallmark.ofBytes (s.dramRead (l.cfg o + l.cfg (o + 4) * 2 ^ 32 + (c + i) % 2 ^ 32 % shelfEntries cfg * shelfSlot cfg) 32)
      decide (x.session = m.hm.session) && decide (x.beat = m.hm.beat) && decide (x.origin = m.hm.origin)))
/-- DECISION_TIMEOUT: at the TIMEOUT-th boundary, unless the decision is already on its shelf (R42). -/
def execDecisionTimeout (n : LaneId) (h : Handle) (s : State) : Res :=
  match (s.lane n).msg h with
  | some m =>
    if m.stage = Stage.awaiting ∧ s.btm.beat + 1 ≥ m.toBeat ∧ !s.decisionWaits n m then .next (s.timeoutFire n h m) else .next s
  | none => .next s
/-- MESSAGE_SHED: a candidate that stands at its age limit (R57). -/
def execMessageShed (n : LaneId) (h : Handle) (s : State) : Res :=
  let l := s.lane n
  match l.cands.find? (fun c => c.h = h.val) with
  | some c =>
    if !c.shed ∧ c.born + bits (l.cls c.cls 0) 18 11 ≤ s.btm.beat then .next (s.shed n c) else .next s
  | none => .next s
/-- Whether a phase has passed its deadline boundary without an end and has raised no overrun. -/
def Phase.overdue (p : Phase) (beat : Nat) : Bool := !p.ended && !p.overrun && decide (p.dlBeat ≤ beat)
/-- BEAT_OVERRUN: a phase that has not ended at its deadline boundary (R60): the thread's own, or one that the thread has left
while its release waits for NET (R36). -/
def execBeatOverrun (n : LaneId) (t : ThreadId) (s : State) : Res :=
  let due := fun (p : Phase) => p.overdue s.btm.beat
  match (s.thr n t).phase.filter due with
  | some p => .next (s.overrun n t p false)
  | none =>
    match (s.lane n).msgs.filterMap (fun q => (q.2.tail.filter (fun x => decide (x.1 = t.val) && due x.2)).map (·.2)) with
    | p :: _ => .next (s.overrun n t p true)
    | [] => .next s

/-! ### Counters -/

/-- CLR_HIST: both histograms are zeroed (R414). -/
def execClrHist (agent : Agent) (n : LaneId) (s : State) : Res :=
  s.laneWrite agent n 0x3100 3 fun s => s.modLane n (fun l => { l with hist0 := [], hist1 := [] })
/-- CLR_CTR: the lane's event counters are zeroed (R413). -/
def execClrCtr (agent : Agent) (n : LaneId) (s : State) : Res :=
  s.laneWrite agent n 0x3100 3 fun s => s.modLane n (fun l => { l with lpmu := [] })

/-- RESERVE_REQUEST: a unit asks the lane for a reserve operation (R59). -/
def execReserveRequest (n : LaneId) (req : ReserveReq) (s : State) : Res := .next (s.reserveReq n req)

end Sys2Proof.Machine
end

