-- ==== Sys2Proof/Machine/Ark.lean ====
section
/-!
DEFINITION. The archive compressors (R396 to R408): the block container, inflation, the descriptor ring.
-/

namespace Sys2Proof.Machine
open Sys2Proof

/-! ### DEFLATE (RFC 1951), read side -/

/-- The bits of a byte string, least significant first. -/
def bitsOf (b : Bytes) : List Bool := b.flatMap (fun x => (List.range 8).map (fun i => x.getLsbD i))
/-- `n` bits as a number, least significant first, and the rest. -/
def takeBits : Nat → List Bool → Option (Nat × List Bool)
  | 0, bs => some (0, bs)
  | _ + 1, [] => none
  | n + 1, b :: bs => (takeBits n bs).map (fun r => (b2n b + 2 * r.1, r.2))
/-- A canonical Huffman code: symbols by length 1 to 15, and the symbols in code order. -/
def huffman (lens : List Nat) : List Nat × List Nat :=
  let ls := (List.range 15).map (· + 1)
  let by_ := fun (l : Nat) => (lens.zip (List.range lens.length)).filterMap (fun p => if p.1 = l then some p.2 else none)
  (ls.map (fun l => (by_ l).length), ls.flatMap by_)
/-- More codes than their lengths allow. -/
def oversubscribed (cnt : List Nat) : Bool :=
  cnt.foldl (fun (p : Nat × Bool) c => (p.1 * 2 - c, p.2 || decide (c > p.1 * 2))) (1, false) |>.2
/-- Decode one symbol. -/
def huffSym (syms : List Nat) : List Nat → Nat → Nat → Nat → List Bool → Option (Nat × List Bool)
  | [], _, _, _, _ => none
  | _ :: _, _, _, _, [] => none
  | c :: cs, code, first, idx, b :: bs =>
    let code := code + b2n b
    if code < first + c then (syms[idx + (code - first)]?).map (fun s => (s, bs))
    else huffSym syms cs (code * 2) ((first + c) * 2) (idx + c) bs
def huffRead (h : List Nat × List Nat) (bs : List Bool) : Option (Nat × List Bool) := huffSym h.2 h.1 0 0 0 bs

def lenBase : List (Nat × Nat) :=
  (List.range 8).map (fun i => (3 + i, 0)) ++ [(11, 1), (13, 1), (15, 1), (17, 1), (19, 2), (23, 2), (27, 2), (31, 2), (35, 3),
    (43, 3), (51, 3), (59, 3), (67, 4), (83, 4), (99, 4), (115, 4), (131, 5), (163, 5), (195, 5), (227, 5), (258, 0)]
def distBase : List (Nat × Nat) := [(1, 0), (2, 0), (3, 0), (4, 0), (5, 1), (7, 1), (9, 2), (13, 2), (17, 3), (25, 3), (33, 4), (49, 4),
  (65, 5), (97, 5), (129, 6), (193, 6), (257, 7), (385, 7), (513, 8), (769, 8), (1025, 9), (1537, 9), (2049, 10), (3073, 10),
  (4097, 11), (6145, 11), (8193, 12), (12289, 12), (16385, 13), (24577, 13)]

/-- Append `n` bytes from `d` back; the output is held newest first. -/
def copyBack : Nat → Nat → List Byte → List Byte
  | 0, _, out => out
  | n + 1, d, out => copyBack n d (out.getD (d - 1) 0 :: out)
/-- One coded block; output newest first. -/
def inflateCodes (lit dist : List Nat × List Nat) : Nat → List Bool → List Byte → Option (List Bool × List Byte)
  | 0, _, _ => none
  | f + 1, bs, out => match huffRead lit bs with
    | none => none
    | some (s, bs) =>
      if s < 256 then inflateCodes lit dist f bs (BitVec.ofNat 8 s :: out)
      else if s = 256 then some (bs, out)
      else match lenBase[s - 257]? with
        | none => none
        | some (b, e) => match takeBits e bs with
          | none => none
          | some (x, bs) => match huffRead dist bs with
            | none => none
            | some (d, bs) => match distBase[d]? with
              | none => none
              | some (db, de) => match takeBits de bs with
                | none => none
                | some (y, bs) =>
                  if db + y > out.length then none else inflateCodes lit dist f bs (copyBack (b + x) (db + y) out)
/-- The code lengths of a dynamic block. -/
def codeLens (h : List Nat × List Nat) (n : Nat) : Nat → List Bool → List Nat → Option (List Bool × List Nat)
  | 0, _, _ => none
  | f + 1, bs, acc =>
    if acc.length ≥ n then (if acc.length = n then some (bs, acc) else none)
    else match huffRead h bs with
      | none => none
      | some (s, bs) =>
        if s < 16 then codeLens h n f bs (acc ++ [s])
        else
          let (e, base) := if s = 16 then (2, 3) else if s = 17 then (3, 3) else (7, 11)
          match takeBits e bs with
          | none => none
          | some (x, bs) =>
            if s = 16 ∧ acc.isEmpty then none
            else codeLens h n f bs (acc ++ List.replicate (base + x) (if s = 16 then acc.getLastD 0 else 0))
def clOrder : List Nat := [16, 17, 18, 0, 8, 7, 9, 6, 10, 5, 11, 4, 12, 3, 13, 2, 14, 1, 15]
/-- The tables of a dynamic block. -/
def dynTables (bs : List Bool) : Option ((List Nat × List Nat) × (List Nat × List Nat) × List Bool) := do
  let (hl, bs) ← takeBits 5 bs
  let (hd, bs) ← takeBits 5 bs
  let (hc, bs) ← takeBits 4 bs
  let rec cls : Nat → List Bool → List Nat → Option (List Bool × List Nat)
    | 0, bs, a => some (bs, a)
    | n + 1, bs, a => match takeBits 3 bs with
      | some (x, bs) => cls n bs (a ++ [x])
      | none => none
  let (bs, cl) ← cls (hc + 4) bs []
  let lens := (List.range 19).map (fun i => (cl[clOrder.idxOf i]?).getD 0)
  let h := huffman lens
  let (bs, ls) ← codeLens h (hl + 257 + hd + 1) 400 bs []
  let lit := huffman (ls.take (hl + 257))
  let dist := huffman (ls.drop (hl + 257))
  if oversubscribed h.1 || oversubscribed lit.1 || oversubscribed dist.1 || decide (hl > 29) then none else some (lit, dist, bs)
def fixedLitLens : List Nat := List.replicate 144 8 ++ List.replicate 112 9 ++ List.replicate 24 7 ++ List.replicate 8 8
def fixedLit : List Nat × List Nat := huffman fixedLitLens
def fixedDist : List Nat × List Nat := huffman (List.replicate 30 5)
/-- Inflate a stream whose length in bits is a whole number of bytes `tot` before the first block. -/
def inflateFrom (tot : Nat) : Nat → List Bool → List Byte → Option (List Bool × List Byte)
  | 0, _, _ => none
  | f + 1, bs, out => do
    let (fin, bs) ← takeBits 1 bs
    let (ty, bs) ← takeBits 2 bs
    let (bs, out) ← (match ty with
      | 0 => do
        let bs := bs.drop ((8 - (tot - bs.length) % 8) % 8)
        let (len, bs) ← takeBits 16 bs
        let (nlen, bs) ← takeBits 16 bs
        if len + nlen ≠ 65535 ∨ bs.length < 8 * len then none
        else
          let b := (List.range len).map (fun i => BitVec.ofNat 8 (((takeBits 8 (bs.drop (8 * i))).getD (0, [])).1))
          some (bs.drop (8 * len), b.reverse ++ out)
      | 1 => inflateCodes fixedLit fixedDist (bs.length + 1) bs out
      | 2 => match dynTables bs with
        | some (l, d, bs) => inflateCodes l d (bs.length + 1) bs out
        | none => none
      | _ => none)
    if fin = 1 then some (bs, out) else inflateFrom tot f bs out
/-- The bytes of a payload, when it decodes under R397: the last block ends in the last byte and its unused bits are 0. -/
def inflate (b : Bytes) : Option Bytes :=
  let bs := bitsOf b
  match inflateFrom bs.length (bs.length + 1) bs [] with
  | some (rest, out) => if rest.length < 8 ∧ rest.all (!·) then some out.reverse else none
  | none => none

/-! ### DEFLATE, write side (R397, R398) -/

/-- What the compressor emits: a byte, or a match of a length at a distance. -/
inductive Lz where
  | lit (b : Byte)
  | copy (len dist : Nat)

/-- Equal bytes of two positions, at most `n`. -/
def matchLen : Nat → Bytes → Bytes → Nat
  | 0, _, _ => 0
  | n + 1, a :: as, b :: bs => if a = b then matchLen n as bs + 1 else 0
  | _, _, _ => 0
/-- The best match at position `i` (R398): at most 16 earlier positions of its hash chain inside the 32 KiB window, nearest first;
the longest of 3 to 258 bytes, the nearest on a tie. -/
def bestMatch (inp : Bytes) (i : Nat) : Option (Nat × Nat) :=
  let here := inp.drop i
  let hash := fun (j : Nat) => Config.arkHash (Bytes.le inp j 3)
  if here.length < 3 then none
  else
    let chain := (((List.range (min i 32768)).map (fun d => i - 1 - d)).filter (fun j => decide (hash j = hash i))).take 16
    chain.foldl (fun b j =>
      let n := matchLen 258 (inp.drop j) here
      if 3 ≤ n ∧ (b.map (·.1)).getD 0 < n then some (n, i - j) else b) none
/-- The symbols of a block from position `i` on, each decision deferred by one position. -/
def lzFrom (inp : Bytes) : Nat → Nat → List Lz
  | 0, _ => []
  | f + 1, i =>
    match inp[i]? with
    | none => []
    | some b => match bestMatch inp i with
      | none => .lit b :: lzFrom inp f (i + 1)
      | some (n, d) =>
        if ((bestMatch inp (i + 1)).map (·.1)).getD 0 > n then .lit b :: lzFrom inp f (i + 1)
        else .copy n d :: lzFrom inp f (i + n)
/-- The last row of a base table that does not exceed `v`: its index, base and extra bits. -/
def baseRow (t : List (Nat × Nat)) (v : Nat) : Nat × Nat × Nat :=
  ((List.range t.length).zip t).foldl (fun a r => if r.2.1 ≤ v then r else a) (0, 0, 0)
/-- Bits of a number, least significant first. -/
def lsbBits (n v : Nat) : List Bool := (List.range n).map (fun i => v.testBit i)
/-- The literal or length symbol of an element with its extra bits, and its distance symbol with its own. -/
def Lz.syms : Lz → (Nat × List Bool) × Option (Nat × List Bool)
  | .lit b => ((b.toNat, []), none)
  | .copy n d =>
    let l := baseRow lenBase n
    let r := baseRow distBase d
    ((257 + l.1, lsbBits l.2.2 (n - l.2.1)), some (r.1, lsbBits r.2.2 (d - r.2.1)))
/-- The canonical code of a symbol, most significant bit first (RFC 1951, 3.2.2). -/
def codeOf (lens : List Nat) (x : Nat) : List Bool :=
  let n := lens.getD x 0
  let cnt := fun (l : Nat) => (lens.filter (· = l)).length
  let first := (List.range n).foldl (fun c l => (c + if l = 0 then 0 else cnt l) * 2) 0
  (lsbBits n (first + ((lens.take x).filter (· = n)).length)).reverse
/-- The body of one block under two codes, end-of-block included. -/
def lzBits (lit dist : List Nat) (ts : List Lz) : List Bool :=
  ts.flatMap (fun t => codeOf lit t.syms.1.1 ++ t.syms.1.2 ++ (match t.syms.2 with
    | some d => codeOf dist d.1 ++ d.2
    | none => [])) ++ codeOf lit 256
def bitsToBytes (bs : List Bool) : Bytes :=
  (List.range (cdiv bs.length 8)).map (fun i =>
    BitVec.ofNat 8 ((List.range 8).foldl (fun a j => a + b2n (bs.getD (8 * i + j) false) * 2 ^ j) 0))
/-- The payload of a block (R398): one DEFLATE block, with dynamic codes where they are shorter, else with the fixed ones. Dynamic
codes that did not restore the block would be no compressed payload (R397). -/
def deflate (inp : Bytes) : Bytes :=
  let ts := lzFrom inp inp.length 0
  let freq := fun (n : Nat) (xs : List Nat) => (List.range n).map (fun x => (xs.filter (· = x)).length)
  let lens := Config.arkLens (freq 286 (256 :: ts.map (·.syms.1.1))) (freq 30 (ts.filterMap (fun t => t.syms.2.map (·.1))))
  let fixed := bitsToBytes ([true, true, false] ++ lzBits fixedLitLens (List.replicate 30 5) ts)
  let dyn := bitsToBytes ([true, false, true] ++ Config.arkHead lens.1 lens.2 ++ lzBits lens.1 lens.2 ts)
  if dyn.length < fixed.length ∧ inflate dyn = some inp then dyn else fixed

/-! ### Blocks (Table ARK-1) -/

/-- A whole block: header, payload, trailer. -/
def arkBlock (raw fallback last : Bool) (seq : Nat) (inp pay : Bytes) : Bytes :=
  Bytes.ofNatLE 2 0x4B41 ++ [1#8, BitVec.ofNat 8 (b2n raw + 2 * b2n fallback + 4 * b2n last)] ++ Bytes.ofNatLE 4 seq
    ++ Bytes.ofNatLE 4 inp.length ++ Bytes.ofNatLE 4 pay.length ++ pay ++ Bytes.ofNatLE 4 (Crypto.crc32c inp).toNat

/-- How a descriptor stands after some of its blocks. -/
structure ArkAcc where
  code : Nat := 0
  blocks : Nat := 0
  inDone : Nat := 0
  outDone : Nat := 0
  raws : Nat := 0
  falls : Nat := 0
  badBlock : Nat := 0xFFFFFFFF
  stop : Bool := false

def arkBase (k : Nat) : Nat := 0x33000000 + k * 0x100000
def State.arkU (s : State) (k : Nat) : Ark := SMap.get {} k s.ark
def State.setArk (s : State) (k : Nat) (a : Ark) : State := { s with ark := SMap.set {} k a s.ark }
/-- Whether a range lies wholly in installed DRAM. -/
def State.inDram (s : State) (a n : Nat) : Bool := decide (dramBase ≤ a) && decide (a + n ≤ s.dramTop)

/-- The engine meets a block that fails a check (R404). -/
def State.arkBad (s : State) (k : Nat) (c : ArkAcc) (code i : Nat) : State × ArkAcc :=
  (((s.incReg (arkBase k + 0x4C) 1).gEvt 0xA k (BitVec.ofNat 16 code) 0x1FF i 0 0),
   { c with code := code, blocks := i, badBlock := i, stop := true })
/-- One block of COMPRESS (R398 to R402). -/
def State.arkComp (s : State) (k i : Nat) (r : ArkRun) (c : ArkAcc) : State × ArkAcc :=
  let n := min 65536 (r.inLen - i * 65536)
  let a := r.inA + i * 65536
  if s.poisoned a n then (s, { c with code := 0x2003, stop := true })
  else
    let inp := s.dramRead a n
    let pay := deflate inp
    let last := r.last && decide ((i + 1) * 65536 ≥ r.inLen)
    let seq := (r.seqBase + i) % 2 ^ 32
    let room := r.outMax - c.outDone
    let fails := r.failing.contains i
    let raw := r.forceRaw || decide (pay.length ≥ n) || fails || decide (pay.length + 20 > room)
    let fall := fails && !r.forceRaw && decide (pay.length < n) && decide (pay.length + 20 ≤ room)
    let blk := arkBlock raw fall last seq inp (if raw then inp else pay)
    if blk.length > room then (s, { c with code := if c.blocks = 0 then 0x2002 else 0x20C2, stop := true })
    else
      let s := s.dramWrite (r.outA + c.outDone) blk
      let s := if raw then s.incReg (arkBase k + 0x44) 1 else s
      let s := if fall then ((s.incReg (arkBase k + 0x48) 1).raiseIrq (arkBase k) 2).gEvt 0xA k 0x20C1 0x1FF i 0 0 else s
      (s, { c with blocks := i + 1, inDone := min r.inLen ((i + 1) * 65536), outDone := c.outDone + blk.length,
                   raws := c.raws + b2n raw, falls := c.falls + b2n fall, stop := decide ((i + 1) * 65536 ≥ r.inLen) })
/-- One block of DECOMPRESS or VERIFY (R403, R404): the checks in their order. -/
def State.arkDec (s : State) (k i : Nat) (r : ArkRun) (c : ArkAcc) : State × ArkAcc :=
  let left := r.inLen - c.inDone
  let a := r.inA + c.inDone
  if left < 16 then s.arkBad k c 0x2015 i
  else if s.poisoned a 16 then (s, { c with code := 0x2003, stop := true })
  else
    let h := s.dramRead a 16
    let fl := Bytes.le h 3 1
    let n := Bytes.le h 8 4
    let p := Bytes.le h 12 4
    let raw := bit fl 0
    if Bytes.le h 0 2 ≠ 0x4B41 ∨ Bytes.le h 2 1 ≠ 1 ∨ fl ≥ 8 ∨ n = 0 ∨ n > 65536 ∨ (if raw then p ≠ n else p = 0 ∨ p > 65535) then
      s.arkBad k c 0x2010 i
    else if r.seqBase ≠ 0xFFFFFFFF ∧ Bytes.le h 4 4 ≠ (r.seqBase + i) % 2 ^ 32 then s.arkBad k c 0x2011 i
    else if left < p + 20 then s.arkBad k c 0x2015 i
    else if r.op = 2 ∧ n > r.outMax - c.outDone then (s, { c with code := if c.blocks = 0 then 0x2002 else 0x20C2, stop := true })
    else if s.poisoned a (p + 20) then (s, { c with code := 0x2003, stop := true })
    else
      let pay := s.dramRead (a + 16) p
      match (if raw then some pay else inflate pay) with
      | none => s.arkBad k c 0x2012 i
      | some out =>
        if out.length ≠ n then s.arkBad k c 0x2013 i
        else if (Crypto.crc32c out).toNat ≠ s.dramLE (a + 16 + p) 4 then s.arkBad k c 0x2014 i
        else
          let s := if r.op = 2 then s.dramWrite (r.outA + c.outDone) out else s
          let fin := bit fl 2 || decide (c.inDone + p + 20 ≥ r.inLen) || (decide (r.maxBlocks ≠ 0) && decide (i + 1 ≥ r.maxBlocks))
          (s, { c with blocks := i + 1, inDone := c.inDone + p + 20, outDone := c.outDone + n, raws := c.raws + b2n raw, stop := fin })
/-- The blocks of a descriptor in order, at most `limit` of them where the descriptor was stopped. -/
def State.arkBlocks (s : State) (k : Nat) (r : ArkRun) (limit : Option Nat) : Nat → Nat → ArkAcc → State × ArkAcc
  | 0, _, c => (s, c)
  | f + 1, i, c =>
    if c.stop then (s, c)
    else if limit = some i then (s, { c with code := if r.dataError then 0x2003 else 0x2005, stop := true })
    else
      let (s, c) := if r.op = 1 then s.arkComp k i r c else s.arkDec k i r c
      s.arkBlocks k r limit f (i + 1) c

/-! ### Descriptors and rings (R405 to R407) -/

def State.arkEntries (s : State) (k : Nat) : Nat := 2 ^ (bits (s.reg (arkBase k + 0x28)) 3 0 + 4)
/-- The checks of R405. -/
def State.arkValid (s : State) (d : Bytes) : Bool :=
  let op := Bytes.le d 0 1
  let n := Bytes.le d 4 4
  let i := Bytes.le d 8 8
  let o := Bytes.le d 16 8
  let m := Bytes.le d 24 4
  let writes := op = 1 || op = 2
  (op = 1 || op = 2 || op = 3) && decide (Bytes.le d 1 1 < 8) && decide (Bytes.le d 2 2 = 0) && decide (Bytes.le d 36 4 = 0)
    && decide (Bytes.le d 48 16 = 0) && decide (n ≠ 0) && (!writes || decide (m ≠ 0)) && s.inDram i n
    && (!writes || (s.inDram o m && (decide (i + n ≤ o) || decide (o + m ≤ i))))
    && s.inDram (Bytes.le d 40 8) 32 && decide (Bytes.le d 40 8 % 32 = 0) && !(op = 1 && decide (Bytes.le d 32 4 ≠ 0))
/-- A descriptor at HEAD starts: the ring is read, the descriptor copied and checked. -/
def State.arkStart (s : State) (k op : Nat) (failing : List Nat) (dataError : Bool) : Res :=
  let b := arkBase k
  let a := s.arkU k
  let head := s.reg (b + 0x2C)
  if !bit (s.reg b) 0 ∨ a.halted ∨ a.cur.isSome ∨ head = s.reg (b + 0x30) then .next s
  else
    let p := s.reg (b + 0x20) + s.reg (b + 0x24) * 2 ^ 32 + head * 64
    if s.poisoned p 64 then .next ((s.setArk k { a with halted := true, code := 0x2003 }).raiseIrq b 3)
    else
      let d := s.dramRead p 64
      let dop := Bytes.le d 0 1
      if (dop = 1 ∨ dop = 2 ∨ dop = 3) ∧ dop ≠ op then .next s
      else
        let r : ArkRun := {
          op := op, irq := bit (Bytes.le d 1 1) 0, last := bit (Bytes.le d 1 1) 1, forceRaw := bit (Bytes.le d 1 1) 2,
          inLen := Bytes.le d 4 4, inA := Bytes.le d 8 8, outA := Bytes.le d 16 8, outMax := Bytes.le d 24 4,
          seqBase := Bytes.le d 28 4, maxBlocks := Bytes.le d 32 4, compl := Bytes.le d 40 8, bad := !s.arkValid d,
          failing := failing, dataError := dataError }
        .next (s.setArk k { a with cur := some r, abort := false })
/-- COMPRESS (R398, R405). -/
def execCompress (k : ArkId) (badBlocks : List Nat) (dataError : Bool) (s : State) : Res := s.arkStart k 1 badBlocks dataError
/-- DECOMPRESS (R403, R405). -/
def execDecompress (k : ArkId) (dataError : Bool) (s : State) : Res := s.arkStart k 2 [] dataError
/-- VERIFY (R403, R405). -/
def execVerify (k : ArkId) (dataError : Bool) (s : State) : Res := s.arkStart k 3 [] dataError
/-- The work of a descriptor. An abort, or a data error that the command names, stops it at a block that no rule fixes:
a free value. An abort stops it at the end of the last block at the latest. -/
def State.arkRun (s : State) (k : Nat) (r : ArkRun) (abort : Bool) : State × ArkAcc :=
  if r.bad then (s, { code := 0x2001 })
  else
    let fuel := r.inLen + 1
    let (s1, c1) := s.arkBlocks k r none fuel 0 {}
    let (s2, c2) := if abort ∨ r.dataError then
        let lim := s.freeWord.toNat % (if r.dataError then max 1 c1.blocks else c1.blocks + 1)
        let (s2, c2) := s.drew.arkBlocks k r (some lim) fuel 0 {}
        (s2, { c2 with code := if c2.code = 0 ∧ !r.dataError then 0x2005 else c2.code })
      else (s1, c1)
    (s2, { c2 with code := if c2.code = 0 ∧ c2.falls > 0 then 0x20C1 else c2.code })
/-- ARK_DESCRIPTOR_COMPLETE (R404, R406): the completion record, then HEAD, then the interrupt. -/
def execArkDescriptorComplete (k : ArkId) (s : State) : Res :=
  let b := arkBase k
  let a := s.arkU k
  match a.cur with
  | none => .next s
  | some r =>
    let (s, c) := s.arkRun k r a.abort
    let rec_ := Bytes.ofNatLE 2 c.code ++ Bytes.zeros 2 ++ Bytes.ofNatLE 4 c.blocks ++ Bytes.ofNatLE 4 c.inDone
      ++ Bytes.ofNatLE 4 c.outDone ++ Bytes.ofNatLE 4 c.raws ++ Bytes.ofNatLE 4 c.badBlock ++ Bytes.ofNatLE 8 s.tai
    let s := if s.inDram r.compl 32 then s.dramWrite r.compl rec_ else s
    let s := (s.setReg (b + 0x2C) ((s.reg (b + 0x2C) + 1) % s.arkEntries k)).incReg (b + 0x40) 1
    let s := s.setArk k { a with cur := none, abort := false, code := if c.code = 0 then a.code else c.code }
    let s := if c.code = 0 then s else s.raiseIrq b 1
    .next (if r.irq then s.raiseIrq b 0 else s)
/-- CTL.EN: clearing it lets the current descriptor finish; setting it again ends a halt (R407). -/
def State.arkEn (s : State) (k : Nat) (v : Bool) : State :=
  let b := arkBase k
  let a := s.arkU k
  let s := if v ∧ !bit (s.reg b) 0 then s.setArk k { a with halted := false } else s
  s.setField b 0 0 (b2n v)
def State.arkAbort (s : State) (k : Nat) : State :=
  let a := s.arkU k
  if a.cur.isSome then s.setArk k { a with abort := true } else s
/-- ARK_ENABLE. -/
def execArkEnable (_agent : Agent) (k : ArkId) (v : Bool) (s : State) : Res := .next (s.arkEn k v)
/-- ARK_ABORT: without a descriptor in progress it is discarded. -/
def execArkAbort (_agent : Agent) (k : ArkId) (s : State) : Res := .next (s.arkAbort k)
/-- The register view of an archive compressor (Table ARK-6). -/
def State.arkView (s : State) (k o : Nat) : Option Nat :=
  let a := s.arkU k
  match o with
  | 0 => some (b2n a.abort * 2 + bits (s.reg (arkBase k)) 0 0)
  | 4 => some (a.code * 2 ^ 16 + b2n a.halted * 2 + b2n a.cur.isSome)
  | _ => none

end Sys2Proof.Machine
end

