-- ==== Sys2Proof/Machine/LineCode.lean ====
section
/-!
DEFINITION. The line code of DRAM: a 64-byte line as a codeword of 40 symbols over GF(2¹⁶), its poison mark and its decoding
(R297 to R299, Table KU-47). Where the manual leaves the order of the symbols in the codeword open, log 177 settles it.
-/

namespace Sys2Proof.Machine
open Sys2Proof

/-! ### GF(2¹⁶) with x¹⁶ + x¹² + x³ + x + 1 -/

def gfDouble (a : Nat) : Nat := if 2 * a < 65536 then 2 * a else 2 * a ^^^ 0x1100B
def gfMul (a b : Nat) : Nat := (List.range 16).foldl (fun r i => gfDouble r ^^^ (if bit b (15 - i) then a else 0)) 0
def gfPow (a n : Nat) : Nat := (List.range 16).foldl (fun r i => let q := gfMul r r; if bit n (15 - i) then gfMul q a else q) 1
def gfInv (a : Nat) : Nat := gfPow a 65534
/-- The power αⁱ of the primitive element x. -/
def alpha (i : Nat) : Nat := gfPow 2 i
/-- The sum of two words of symbols. -/
def gfAdd (a b : List Nat) : List Nat := List.zipWith (· ^^^ ·) a b

/-! ### The codeword (R297) -/

/-- The generator with roots α⁰ to α⁷, lowest power first. -/
def rsGen : List Nat := (List.range 8).foldl (fun g i => gfAdd (0 :: g) (g.map (gfMul (alpha i)) ++ [0])) [1]
/-- The eight check symbols of a message given from its highest power: its remainder, lowest power first. -/
def rsCheck (m : List Nat) : List Nat :=
  m.foldl (fun r d => gfAdd (0 :: r.take 7) ((rsGen.take 8).map (gfMul (d ^^^ r.getD 7 0)))) (List.replicate 8 0)
/-- The 32 data symbols of a line, two bytes each; device `d` holds symbols 4d to 4d + 3. -/
def lineSymbols (b : Bytes) : List Nat := (List.range 32).map (fun i => Bytes.le b (2 * i) 2)
def symbolBytes (ws : List Nat) : Bytes := (ws.take 32).flatMap (Bytes.ofNatLE 2)
/-- The two index symbols, which are not stored: the channel-local line index. -/
def indexSymbols (k : Nat) : List Nat := [k % 65536, k / 65536 % 65536]
/-- The 40 stored symbols of a line: 32 of data, 8 of check, these exclusive-ORed with 0x9C3B under a poison mark (R299). -/
def codeword (data : Bytes) (k : Nat) (mark : Bool) : List Nat :=
  let ds := lineSymbols data
  let cs := rsCheck ((ds ++ indexSymbols k).reverse)
  ds ++ (if mark then cs.map (· ^^^ 0x9C3B) else cs)
/-- The eight syndromes of stored symbols read for line `k`: the word's values at α⁰ to α⁷. -/
def syndrome (ws : List Nat) (k : Nat) : List Nat :=
  let c := (ws.drop 32 ++ ws.take 32 ++ indexSymbols k).reverse
  (List.range 8).map (fun j => let a := alpha j; c.foldl (fun r x => gfMul r a ^^^ x) 0)
/-- The poison syndrome (R299). -/
def poisonSyndrome : List Nat := syndrome (List.replicate 32 0 ++ List.replicate 8 0x9C3B) 0

/-! ### Decoding (Table KU-47) -/

/-- The power of the codeword at which stored symbol `i` stands. -/
def symbolPower (i : Nat) : Nat := if i < 32 then 8 + i else i - 32
/-- The values at `xs` of the error that makes the first syndromes: Lagrange's polynomials applied to them. -/
def errorValues (xs syn : List Nat) : List Nat :=
  xs.map (fun x =>
    let others := xs.filter (· ≠ x)
    let num := others.foldl (fun g y => gfAdd (0 :: g) (g.map (gfMul y) ++ [0])) [1]
    let den := others.foldl (fun d y => gfMul d (x ^^^ y)) 1
    gfMul (gfInv den) ((num.zip syn).foldl (fun a p => a ^^^ gfMul p.1 p.2) 0))
/-- The four error symbols of device `d` that explain a syndrome, where there are such. -/
def deviceError (syn : List Nat) (d : Nat) : Option (List Nat) :=
  let xs := (List.range 4).map (fun j => alpha (symbolPower (4 * d + j)))
  let es := errorValues xs syn
  let made := ((List.range 8).foldl (fun (r : List Nat × List Nat) _ =>
    (r.1 ++ [r.2.foldl (· ^^^ ·) 0], (r.2.zip xs).map (fun p => gfMul p.1 p.2))) ([], es)).1
  if made = syn then some es else none
/-- What a read decodes to. -/
inductive Decoded where
  | clean (data : Bytes)
  | poisoned
  /-- an error of one device: that device, the symbols corrected, and the corrected data -/
  | corrected (dev syms : Nat) (data : Bytes)
  | uncorrectable
  deriving DecidableEq, Repr
/-- Decode the stored symbols read for line `k`. -/
def decodeLine (ws : List Nat) (k : Nat) : Decoded :=
  let syn := syndrome ws k
  if syn = List.replicate 8 0 then .clean (symbolBytes ws)
  else if syn = poisonSyndrome then .poisoned
  else match (List.range 10).findSome? (fun d => (deviceError syn d).map (fun es => (d, es))) with
    | some (d, es) =>
      .corrected d (es.filter (· ≠ 0)).length (symbolBytes (ws.take (4 * d) ++ gfAdd ((ws.drop (4 * d)).take 4) es ++ ws.drop (4 * d + 4)))
    | none => .uncorrectable

end Sys2Proof.Machine
end

