-- ==== Sys2Proof/Machine/Garret.lean ====
section
/-!
DEFINITION. The Garret recorder: writing (R415, R416), freezes (R418, R419) and the attic (R420, R421).
-/

namespace Sys2Proof.Machine
open Sys2Proof

/-- The 32 bytes of a record (Table GAR-1). -/
def GarRec.bytes (r : GarRec) (loss : Bool) (n : Nat) : Bytes :=
  Bytes.ofNatLE 8 r.time ++ Bytes.ofNatLE 2 r.code.toNat ++ Bytes.ofNatLE 1 r.src ++ Bytes.ofNatLE 1 r.inst
    ++ Bytes.ofNatLE 2 (r.agent % 512 + b2n r.freeRun * 2 ^ 9 + b2n loss * 2 ^ 10) ++ Bytes.ofNatLE 2 r.event
    ++ Bytes.ofNatLE 4 r.arg0 ++ Bytes.ofNatLE 4 r.arg1 ++ Bytes.ofNatLE 4 r.arg2 ++ Bytes.ofNatLE 4 n

def garSlots : Nat := 131072

/-- The queue served next: markers first, then the lowest SOURCE, then the lowest INSTANCE, oldest first (R416, R418). -/
def garPick : List GarRec → Option GarRec
  | [] => none
  | r :: rs => if r.src = 0 then some r else match garPick rs with
    | none => some r
    | some q => if q.src < r.src ∨ (q.src = r.src ∧ q.inst < r.inst) then some q else some r

/-- Write one record (R415). -/
def Gar.write (g : Gar) (r : GarRec) : Gar :=
  let loss := g.lossPorts.contains (r.src, r.inst)
  let b := r.bytes loss g.head
  { g with queue := g.queue.erase r, ring := SMap.put ((g.head - 1) % garSlots) b g.ring, head := g.head + 1,
           lossPorts := g.lossPorts.filter (fun p => p ≠ (r.src, r.inst)),
           freezeRec := if r.src = 0 ∧ r.event = 1 then g.head else g.freezeRec,
           freezing := g.freezing.map (· - 1) }

/-- What the ring's store reports for a slot (Table KU-49): a slot that cannot be corrected reads with DAMAGED set and its other
bytes as read (R417, Table GAR-1). -/
def State.garDamage (s : State) (err : SlotErr) : State := match err with
  | .none => s
  | .single _ => s.ras { code := 0x40C2, source := 9, flags := 1 }
  | .multi k b =>
    let b := (Bytes.slice b 0 32).splice 12 (Bytes.ofNatLE 2 (setBits (Bytes.le b 12 2) 11 11 1))
    ({ s with gar := { s.gar with ring := SMap.put (k % garSlots) b s.gar.ring } } : State).ras { code := 0x4009, source := 9 }
/-- GARRET_RECORD_WRITE: one record per Cellarer cycle, until the records after a FREEZE marker are written (R418); `err` is what
the ring's store reports in that cycle. -/
def execGarretRecordWrite (err : SlotErr) (s : State) : Res :=
  let s := s.garDamage err
  let g := s.gar
  if g.frozen ∨ g.freezing = some 0 then .next s
  else match garPick g.queue with
    | none => .next s
    | some r => .next { s with gar := g.write r }

/-- FREEZE_STOP: GAR_POST records after the marker have been written; waiting records are discarded and counted. -/
def execFreezeStop (s : State) : Res :=
  let g := s.gar
  if g.freezing = some 0 ∧ !g.frozen then
    .next { s with gar := { g with frozen := true, freezing := none, queue := [],
                                   drops := (g.drops + g.queue.length) % 2 ^ 32,
                                   lossPorts := g.queue.foldl (fun a r => (r.src, r.inst) :: a) g.lossPorts } }
  else .next s

/-- The records held, oldest first, with their numbers. -/
def Gar.held (g : Gar) : List (Nat × Bytes) :=
  let n := g.head - 1
  let first := if n > garSlots then n - garSlots + 1 else 1
  let key := fun (p : Nat × Bytes) => if p.1 ≥ (first - 1) % garSlots then p.1 - (first - 1) % garSlots
                                      else p.1 + garSlots - (first - 1) % garSlots
  (g.ring.filter (fun p => decide (p.1 ≥ (first - 1) % garSlots))
    ++ g.ring.filter (fun p => decide (p.1 < (first - 1) % garSlots))).map (fun p => (first + key p, p.2))

/-- The header of an attic slot (Table GAR-4). -/
def State.atticHeader (s : State) (img : List (Nat × Bytes)) : Bytes :=
  let g := s.gar
  let first := match img with
    | p :: _ => p.1
    | [] => 0
  let h := Bytes.ofNatLE 4 0x54544147 ++ Bytes.ofNatLE 2 1 ++ Bytes.ofNatLE 1 g.trigger ++ Bytes.ofNatLE 1 g.pendFirst
    ++ Bytes.ofNatLE 4 g.pendCount ++ Bytes.ofNatLE 4 (g.serial + 1) ++ Bytes.ofNatLE 4 s.twin.deviceId
    ++ Bytes.ofNatLE 4 s.cel.fw ++ Bytes.ofNatLE 8 g.trigEpoch ++ Bytes.ofNatLE 8 g.freezeRec ++ Bytes.ofNatLE 8 first
    ++ Bytes.ofNatLE 4 img.length ++ Bytes.ofNatLE 4 g.trigLost
  h ++ Bytes.ofNatLE 4 (Crypto.crc32c (h ++ img.foldl (fun a p => a ++ p.2) [])).toNat

/-- ATTIC_COPY_COMPLETE: the slot holds the ring, its header written last; the ring resumes with an UNFREEZE marker. -/
def execAtticCopyComplete (s : State) : Res :=
  let g := s.gar
  if g.frozen then
    let img := g.held
    let a : AtticSlot := {
      header := s.atticHeader img, image := img, trigger := g.trigger, epoch := g.trigEpoch, serial := g.serial + 1 }
    let mk := s.gStamp { src := 0, event := 2 }
    .next { s with gar := { g with attic := SMap.put g.slot (some a) g.attic, serial := g.serial + 1, frozen := false,
                                   queue := mk :: g.queue } }
  else .next s

/-- A byte of the attic: slots of 4 KiB of header and 4 MiB of image at a stride of 4,100 KiB (R319, R420); an empty
slot's bytes are erased flash. -/
def Gar.atticByte (g : Gar) (o : Nat) : Byte :=
  match SMap.get none (o / 4198400) g.attic with
  | none => 0xFF
  | some a =>
    let i := o % 4198400
    if i < 4096 then a.header.getD i 0
    else match a.image[(i - 4096) / 32]? with
      | some p => p.2.getD ((i - 4096) % 32) 0
      | none => 0
/-- ATTIC_READ: the JTAG register ATTIC captures the 32 bits at an offset (R421); no unlock is needed. The value stands
under reader 0x200 in `readRes`. -/
def execAtticRead (off : Nat) (s : State) : Res :=
  .next (s.answer 0x200 (Bytes.toNatLE ((List.range 4).map (fun i => s.gar.atticByte (off + i)))))

end Sys2Proof.Machine
end

