-- ==== Sys2Proof/Machine/Mailbox.lean ====
section
/-!
DEFINITION. Mailboxes and locks (R325 to R341), the resets of agents (R335), and the Cellarer core (R320 to R324).
-/

namespace Sys2Proof.Machine
open Sys2Proof

def State.mbx (s : State) (n : Nat) : Mbx := SMap.get {} n s.cel.mbx
def State.setMbx (s : State) (n : Nat) (m : Mbx) : State :=
  { s with cel := { s.cel with mbx := SMap.set {} n m s.cel.mbx } }
/-- 0 COMMAND, 1 NOTICE, 2 HOST, 3 TWIN (Table CEL-3). -/
def mbxKind (n : Nat) : Nat := if n < 48 then 0 else if n < 60 then 1 else if n < 63 then 2 else 3
def mbxMaySend (n a : Nat) : Bool :=
  match mbxKind n with
  | 0 => decide (a < 256 ∨ a = 273 ∨ a = 275)
  | 1 => a = 272
  | 2 => a = 273
  | _ => a = 274
def State.mbxReceiver (s : State) (n : Nat) : Nat := if mbxKind n = 1 then (s.mbx n).peer else 272
/-- The firewall's bit for a group of COMMAND mailboxes (R371). -/
def State.mbxRight (s : State) (a n : Nat) : Bool :=
  if mbxKind n = 0 ∧ a ≠ 272 then match SMap.find a s.firewall with
    | some f => bit f.mbx (n / 8)
    | none => false
  else true
def mbxAddr (n o : Nat) : Nat := 0x01000000 + n * 0x1000 + o
/-- A refused write: ignored, counted, recorded (R325). -/
def State.mbxRefuse (s : State) (n a : Nat) : State :=
  let m := s.mbx n
  (s.setMbx n { m with refused := (m.refused + 1) % 2 ^ 32 }).gEvt 1 n 0 a n 0 0
/-- Guard a mailbox access by the firewall. -/
def State.mbxAccess (s : State) (a : Agent) (n o : Nat) (st : Bool) (f : State → State) : Res :=
  if s.mbxRight a n then .next (f s) else .next (s.refuse a (mbxAddr n o) st)
/-- The interrupt of R337 when the mailbox enters DONE or EXPIRED. -/
def State.mbxIrq (s : State) (n : Nat) : State :=
  let m := s.mbx n
  if !bit m.irq 31 then s
  else if m.sender = 273 then s.msix 0 (1 + n) else s.sendTarget m.irq
/-- EXPIRED with a code: timer, or receiver reset (R330, R332). -/
def State.mbxExpire (s : State) (n code : Nat) : State :=
  let m := s.mbx n
  let s := s.setMbx n { m with st := 5, timeout := true, code := code, running := false }
  (s.gEvt 1 n (BitVec.ofNat 16 code) m.sender n 0 0).mbxIrq n
def Mbx.idle (m : Mbx) (code : Nat) : Mbx :=
  { m with st := 0, code := code, late := false, orphan := false, timeout := false, taken := false, lostSender := false,
           running := false }

/-! ### Meanings: the sender's side -/

def State.mbxData (s : State) (a n i : Nat) (v : W32) : State :=
  let m := s.mbx n
  let put := { m with data := SMap.set 0 i v m.data }
  if m.st = 0 ∧ mbxMaySend n a then s.setMbx n { put with st := 1, sender := a }
  else if m.st = 1 ∧ m.sender = a then s.setMbx n put
  else if m.st = 3 ∧ s.mbxReceiver n = a then s.setMbx n put
  else s.mbxRefuse n a
/-- MAILBOX_DATA_WRITE (R326, R328, R329). -/
def execMailboxDataWrite (agent : Agent) (n : MbxId) (i : Fin 16) (val : W32) (s : State) : Res :=
  s.mbxAccess agent n (4 * i) true fun s => s.mbxData agent n i val

def State.mbxGo (s : State) (a n seq : Nat) : State :=
  let m := s.mbx n
  if (m.st = 0 ∧ mbxMaySend n a) ∨ (m.st = 1 ∧ m.sender = a) then
    let m := { m.idle 0 with st := 2, sender := a, seq := seq % 256, goClk := s.laneClk, running := true, gone := true,
                             limit := m.us, goNo := s.cel.goCount }
    let s := { s.setMbx n m with cel := { (s.setMbx n m).cel with goCount := s.cel.goCount + 1 } }
    if mbxKind n = 1 ∧ bit m.rxTarget 31 ∧ m.peer ≠ 0x1FF then s.sendTarget m.rxTarget else s
  else s.mbxRefuse n a
/-- MAILBOX_GO (R327). -/
def execMailboxGo (agent : Agent) (n : MbxId) (seq : BitVec 8) (s : State) : Res :=
  s.mbxAccess agent n 0x40 true fun s => s.mbxGo agent n seq.toNat

def State.mbxClear (s : State) (a n : Nat) : State :=
  let m := s.mbx n
  if (m.st = 1 ∨ m.st = 2) ∧ m.sender = a then s.setMbx n (m.idle 0x0104)
  else if (m.st = 4 ∨ m.st = 5) ∧ (m.sender = a ∨ a = 272) then s.setMbx n (m.idle m.code)
  else if m.st = 0 ∧ (mbxMaySend n a ∨ a = 272) then s
  else s.mbxRefuse n a
/-- MAILBOX_CLEAR (R333). -/
def execMailboxClear (agent : Agent) (n : MbxId) (s : State) : Res :=
  s.mbxAccess agent n 0x40 true fun s => s.mbxClear agent n

/-! ### The receiver's side -/

/-- No message posted earlier waits for the Cellarer (R336). -/
def State.mbxNext (s : State) (n : Nat) : Bool :=
  mbxKind n = 1 || (s.cel.st = 3 && s.cel.mbx.all (fun p =>
    decide (p.2.st ≠ 2) || decide (mbxKind p.1 = 1) || decide ((s.mbx n).goNo ≤ p.2.goNo)))
def State.mbxRx (s : State) (a n : Nat) : State :=
  let m := s.mbx n
  if s.mbxReceiver n ≠ a then (s.mbxRefuse n a).answer a 0
  else if m.st = 2 ∧ s.mbxNext n then
    (s.setMbx n { m with st := 3, taken := true }).answer a (2 ^ 31 + m.sender * 2 ^ 16 + m.seq)
  else s.answer a 0
/-- MAILBOX_RX_READ (R328, R336). -/
def execMailboxRxRead (agent : Agent) (n : MbxId) (s : State) : Res :=
  s.mbxAccess agent n 0x80 false fun s => s.mbxRx agent n

def State.mbxAck (s : State) (a n seq code : Nat) : State :=
  let m := s.mbx n
  if s.mbxReceiver n ≠ a ∨ seq ≠ m.seq then s.mbxRefuse n a
  else
    let acked := { m with ackSeq := seq, ackCode := code, running := false }
    if m.st = 3 then
      if m.lostSender then
        ((s.setMbx n { acked with st := 4, orphan := true, code := 0x01C2 }).gEvt 1 n 0x01C2 m.sender n 0 0).mbxIrq n
      else (s.setMbx n { acked with st := 4, code := 0 }).mbxIrq n
    else if m.st = 5 ∧ m.code = 0x0102 then
      (s.setMbx n { acked with late := true, code := 0x01C1 }).gEvt 1 n 0x01C1 m.sender n 0 0
    else s.mbxRefuse n a
/-- MAILBOX_RX_ACK (R329, R333, R334). -/
def execMailboxRxAck (agent : Agent) (n : MbxId) (seq : BitVec 8) (code : Code) (s : State) : Res :=
  s.mbxAccess agent n 0x84 true fun s => s.mbxAck agent n seq.toNat code.toNat

def State.mbxExtend (s : State) (a n us : Nat) : State :=
  let m := s.mbx n
  if s.mbxReceiver n = a ∧ m.st = 3 then
    s.setMbx n { m with limit := (s.laneClk - m.goClk) / 1600 + max 10 (min us 10000000) }
  else s.mbxRefuse n a
/-- The Cellarer acknowledges a Skeid command: DATA holds the echoed command, RESC and the results, zeros after (R342). -/
def State.skeidAck (s : State) (n cmd code : Nat) (res : List Nat) : State :=
  let m := s.mbx n
  let put := fun (d : SMap W32) (i v : Nat) => SMap.set 0 i (BitVec.ofNat 32 v) d
  let d := (List.range 15).foldl (fun d i => put d (i + 1) (res.getD i 0)) (put [] 0 (cmd * 65536 + res.length))
  (s.setMbx n { m with data := d }).mbxAck 272 n m.seq code

/-- MAILBOX_RX_EXTEND (R330). -/
def execMailboxRxExtend (agent : Agent) (n : MbxId) (us : Nat) (s : State) : Res :=
  s.mbxAccess agent n 0x88 true fun s => s.mbxExtend agent n us

/-- MAILBOX_TIMEOUT (R330): the timer has reached its limit without an acknowledgment. -/
def execMailboxTimeout (n : MbxId) (s : State) : Res :=
  let m := s.mbx n
  if s.laneClk < m.goClk + m.limit * 1600 then .next s
  else if m.st = 2 then .next (s.mbxExpire n 0x0101)
  else if m.st = 3 then .next (s.mbxExpire n 0x0102) else .next s

/-! ### Locks (R338 to R341) -/

def lockAddr (n : Nat) : Nat := 0x01100000 + 4 * n
def State.lockHolder (s : State) (n : Nat) : Option Nat := SMap.find n s.cel.locks
def State.setLock (s : State) (n : Nat) (h : Option Nat) : State :=
  { s with cel := { s.cel with locks := match h with
    | some a => SMap.put n a s.cel.locks
    | none => SMap.del n s.cel.locks } }
/-- One read of a lock: the value it returns. -/
def State.lockRead (s : State) (n a : Nat) : State × Nat :=
  match s.lockHolder n with
  | none => (s.setLock n (some a), 0)
  | some h => (s, 2 ^ 31 + h)
/-- LOCK_READ (R16, R338, R339): the readers of one Cellarer cycle, served in agent-ID order. -/
def execLockRead (agents : List Agent) (n : LockId) (s : State) : Res :=
  .next (((agents.filter (·.named)).insertionSort (fun a b => a.val ≤ b.val)).foldl (fun s a =>
    let r := s.lockRead n a.val
    r.1.answer a.val r.2) s)
def State.lockWrite (s : State) (n a : Nat) : State :=
  if 275 < a then s else if s.lockHolder n = some a then s.setLock n none
  else (s.incReg 0x02000030 1).gEvt 1 0 0 a n 0 0
/-- LOCK_WRITE (R340). -/
def execLockWrite (agent : Agent) (n : LockId) (_val : W32) (s : State) : Res := .next (s.lockWrite n agent)
/-- A lock is released and marked abandoned (R341). -/
def State.abandonLock (s : State) (n : Nat) : State :=
  let a := 0x02000010 + 4 * (n / 32)
  (s.setLock n none).setReg a (s.reg a ||| (1 <<< (n % 32)))

/-! ### Agent resets (R332, R333, R335, R341) -/

/-- One mailbox when agent `a` is reset. -/
def State.mbxAgentReset (s : State) (a n : Nat) : State :=
  let m := s.mbx n
  let s := if m.st ≠ 0 ∧ m.sender = a then
      (if m.st = 1 ∨ m.st = 2 then s.setMbx n (m.idle 0x0104)
       else if m.st = 3 then s.setMbx n { m with lostSender := true } else s)
    else s
  let m := s.mbx n
  if s.mbxReceiver n = a ∧ (m.st = 2 ∨ m.st = 3) then s.mbxExpire n 0x0103 else s
/-- Every mailbox and lock sees the reset of an agent. -/
def State.agentReset (s : State) (a : Nat) : State :=
  let s := (List.range 64).foldl (fun s n => s.mbxAgentReset a n) s
  (s.cel.locks.filter (fun p => p.2 = a)).foldl (fun s p => s.abandonLock p.1) s

/-! ### The Cellarer core -/

/-- The core starts from flash, in machine mode with nothing stacked (R324). -/
def Cel.coreStart (c : Cel) : Cel :=
  { c with frames := [], longOp := none, user := false, changes := [], csr := [(0x305, 0x10000000)], mpu := [], pc := 0x20000000 }
/-- mstatus of the core: MIE 3, MPIE 7, MPP 12:11, MPRV 17. -/
def Cel.mstatus (c : Cel) : W32 := SMap.get 0 0x300 c.csr
def Cel.setCsr (c : Cel) (n : Nat) (v : W32) : Cel := { c with csr := SMap.set 0 n v c.csr }
/-- A change takes effect. -/
def Cel.change (c : Cel) : CelChange → Cel
  | .mpp u => c.setCsr 0x300 (BitVec.ofNat 32 (setBits c.mstatus.toNat 12 11 (if u then 0 else 3)))
  | .mprv on => c.setCsr 0x300 (BitVec.ofNat 32 (setBits c.mstatus.toNat 17 17 (b2n on)))
  | .region i v => { c with mpu := SMap.set 0 i v c.mpu }
  | .mode u => { c with user := u }
/-- One instruction issues: the changes whose fourth instruction it is take effect before it (R322). -/
def Cel.issue (c : Cel) : Cel :=
  let cs := c.changes.map (fun p => (p.1 - 1, p.2))
  (cs.filter (fun p => p.1 = 0)).foldl (fun c p => c.change p.2) { c with changes := cs.filter (fun p => p.1 ≠ 0) }
/-- A trap is entered: the changes under way complete (R322). -/
def Cel.settle (c : Cel) : Cel := c.changes.foldl (fun c p => c.change p.2) { c with changes := [] }
/-- A word of the Cellarer SRAM, by its address. -/
def Cel.sramWord (c : Cel) (a : Nat) : W32 :=
  BitVec.ofNat 32 (Bytes.toNatLE ((List.range 4).map (fun i => SMap.get 0 (a + i - 0x10000000) c.sram)))

/-- The restart of R324: 1 watchdog, 2 SRAM error, 3 firmware request. In card mode vector 0 tells the host (R383). -/
def State.celRestart (s : State) (cause : Nat) : State :=
  let trig := if cause = 1 then 2 else if cause = 2 then 1 else 6
  let s := s.gFreeze trig 272
  let s := if cause = 2 then s.ras { code := 0x4009, source := 10, requester := 272 } else s
  let s := { s with str := { s.str with reserved := [] }, cel := { s.cel with
    tickets := s.cel.tickets.filter (fun t => t.st ≥ 3),
    st := 4, cause := cause, restarts := min (s.cel.restarts + 1) 0xFFFF }.coreStart }
  let s := if bit s.pwr.straps 0 && s.pwr.mainUp then s.msix 0 0 else s
  s.agentReset 272
/-- CELLARER_WATCHDOG_EXPIRY. -/
def execCellarerWatchdogExpiry (s : State) : Res := .next (s.celRestart 1)
/-- CELLARER_RESTART: cause 0, a cold start, keeps what the cold reset left. -/
def execCellarerRestart (cause : Fin 4) (s : State) : Res :=
  if cause = 0 then .next { s with cel := { s.cel with st := 1, cause := 0 }.coreStart }
  else .next (s.celRestart cause)
/-- The registers that interrupt entry stacks: x1 and x5 to x19. -/
def celSaved : List Nat := 1 :: (List.range 15).map (· + 5)
/-- CELLARER_INTERRUPT (R320, R321): a request of higher priority than every one in service is taken; a long operation
is abandoned and runs again after the return; its vector stands in the table in SRAM that mtvec names (log 178). -/
def execCellarerInterrupt (irq : Nat) (prio : Nat) (s : State) : Res :=
  let c := s.cel
  let cur := c.frames.foldl (fun a f => max a (f.prio + 1)) 0
  if prio + 1 > cur then
    let c := c.settle
    let f : CelFrame := { prio := prio, pc := c.pc, regs := celSaved.map (fun r => (r, SMap.get 0 r c.x)), user := c.user, mstatus := c.mstatus }
    .next { s with cel := { c with
      frames := f :: c.frames, longOp := none, user := false,
      pc := c.sramWord ((SMap.get 0 0x305 c.csr).toNat + 4 * irq) } }
  else .next s

end Sys2Proof.Machine
end

