-- ==== Sys2Proof/Machine/Net.lean ====
section
/-!
DEFINITION. The network unit: ports (R204, R205), addresses (R206), TCP (R208), framing (R209), TLS sessions (R210 to
R214), the session table (R215 to R221), releases (R44, R45, R220) and the PTP counter (R224, R225).
-/

namespace Sys2Proof

/-- The ranges the spec states of the fields of a DOMAIN item: LEASE_LEN (R191), ticket lifetime (R213), port modes (Table NET-1). -/
def DomainCfg.inRange (c : DomainCfg) : Bool :=
  decide (2 ≤ c.leaseLen ∧ c.leaseLen ≤ 10) && decide (c.ticketLife ≤ 604800) && decide (c.portModes.length = 8)
    && c.portModes.all (fun m => m = 1 || m = 2)
/-- The MTU of R205; the home set of a PARTNER address within the HOME_CFG of one device of the pair (R206). -/
def LocalAddr.inRange (a : LocalAddr) (homeCfg : Nat) : Bool :=
  decide (1500 ≤ a.mtu ∧ a.mtu ≤ 9216)
    && (a.fabric || a.homeSet &&& homeCfg = 0 || a.homeSet &&& homeCfg = a.homeSet)
/-- The ranges of Table NET-2; framing mode 5 is for TLS sessions only (Table NET-4). -/
def Listener.inRange (l : Listener) (addrs : List (Nat × LocalAddr)) : Bool :=
  let within := fun (lo hi x : Nat) => decide (lo ≤ x ∧ x ≤ hi)
  let tls := bits l.flags 3 2
  l.addr = 255 || (decide (l.flags < 32) && decide (tls < 3) && decide (l.framing ≤ 5) && (l.framing ≠ 5 || tls ≠ 0)
    && decide (l.policy < 3) && addrs.any (fun p => p.1 = l.addr && l.lanes &&& p.2.homeSet = l.lanes)
    && within 16 512 l.rcvbuf && within 16 512 l.sndbuf && within 1 60 l.handshake && within 1 60 l.msg && decide (l.idle < 65536)
    && within 1 255 l.stall && within 1 255 l.linger && within 10 10000 l.rtoMin)
/-- The ranges of a NET_TABLES item. -/
def NetTables.inRange (t : NetTables) (homeCfg : Nat) : Bool :=
  t.addrs.all (fun p => p.2.inRange homeCfg) && t.listeners.all (fun p => p.2.inRange t.addrs)

end Sys2Proof

namespace Sys2Proof.Machine
open Sys2Proof

def netBase : Nat := 0x32000000
def portReg (q o : Nat) : Nat := netBase + 0x200 + 0x20 * q + o
/-- Counter `i` of 0x0400 + 4i: TLS_AUTH_FAIL, FRAMING_FAIL, UNDELIVERED, HS_FULL, HS_RESUMED, HS_FAIL, CONN_REFUSED, KEEPALIVES. -/
def State.netCount (s : State) (i : Nat) : State := s.incReg (netBase + 0x400 + 4 * i) 1
def State.sess (s : State) (i : Nat) : Session := SMap.get {} i s.net.sessions
def State.setSess (s : State) (i : Nat) (x : Session) : State :=
  { s with net := { s.net with sessions := SMap.set {} i x s.net.sessions } }
def State.modSess (s : State) (i : Nat) (f : Session → Session) : State := s.setSess i (f (s.sess i))
/-- What has waited for a PAUSE that has ended leaves, oldest first. -/
def State.pauseFlush (s : State) : State :=
  let held := fun (p : Nat × NetTx) => decide (s.laneClk < SMap.get 0 p.1 s.net.pauseEnd)
  (s.net.txHeld.filter (fun p => !held p)).foldl (fun s p =>
    ({ s with net := { s.net with tx := s.net.tx ++ [p.2] } } : State).incReg (portReg p.1 8) 1)
    { s with net := { s.net with txHeld := s.net.txHeld.filter held } }
/-- A frame or segment leaves the port; during a PAUSE it waits (R205). -/
def State.send (s : State) (q : Nat) (t : NetTx) : State :=
  ({ s with net := { s.net with txHeld := s.net.txHeld ++ [(q, t)] } } : State).pauseFlush
def State.listener (s : State) (i : Nat) : Option Listener := SMap.get none i s.net.listeners
def State.addr (s : State) (i : Nat) : Option LocalAddr := SMap.get none i s.net.addrs
/-- A PARTNER address is active where the lanes of its home set are in service, a draining or resetting lane included, which
keeps its sessions; a FABRIC address always (R206). -/
def State.addrActive (s : State) (i : Nat) : Bool :=
  match s.addr i with
  | none => false
  | some a => a.fabric || (List.range 16).all (fun k => !bit a.homeSet k || (decide (2 ≤ (s.lane k).st) && decide ((s.lane k).st ≤ 4)))
/-- Sessions homed on a lane: entries not FREE, MIRROR or RECLAIM. -/
def liveSess (x : Session) : Bool := decide (1 ≤ x.st) && decide (x.st ≤ 4)
def State.laneSess (s : State) (n : Nat) : Nat :=
  (s.net.sessions.filter (fun p => decide (p.1 / 4096 = n) && liveSess p.2)).length

/-! ### Session entries and snapshots (Table NET-6, R180, R222) -/

def Session.bytes (x : Session) (id : Nat) : Bytes :=
  Bytes.ofNatLE 2 id ++ Bytes.ofNatLE 1 x.st ++ Bytes.ofNatLE 1 x.flags ++ Bytes.ofNatLE 1 x.listener
    ++ Bytes.ofNatLE 1 x.port ++ Bytes.ofNatLE 1 x.framing ++ Bytes.ofNatLE 1 (x.suite + 16 * x.group)
    ++ Bytes.slice x.remote 0 16 ++ Bytes.ofNatLE 2 x.rport ++ Bytes.ofNatLE 2 x.lport ++ Bytes.ofNatLE 2 x.code
    ++ Bytes.ofNatLE 1 x.addr ++ [0#8] ++ Bytes.ofNatLE 8 x.created ++ Bytes.ofNatLE 4 x.msgs
    ++ Bytes.ofNatLE 4 x.ticketGen ++ Bytes.slice x.peer 0 16
/-- The entry that a snapshot leaves on the twin: STATE MIRROR. -/
def Session.ofBytes (b : Bytes) : Session :=
  { st := 5, flags := Bytes.le b 3 1, listener := Bytes.le b 4 1, port := Bytes.le b 5 1 % 16, framing := Bytes.le b 6 1,
    suite := Bytes.le b 7 1 % 16, group := Bytes.le b 7 1 / 16, remote := b.slice 8 16, rport := Bytes.le b 24 2,
    lport := Bytes.le b 26 2, code := Bytes.le b 28 2, addr := Bytes.le b 30 1, created := Bytes.le b 32 8,
    msgs := Bytes.le b 40 4, ticketGen := Bytes.le b 44 4, peer := b.slice 48 16 }
/-- A SNAP frame leaves when the link is up. -/
def State.snapSess (s : State) (i : Nat) : State :=
  s.linkSend (.snap (.session i ((s.sess i).bytes i)))
/-- A new ticket under the current ticket key, where the listener offers resumption (R213). -/
def State.issueTicket (s : State) (i : Nat) : State :=
  let x := s.sess i
  match s.listener x.listener with
  | some l => if bit l.flags 4 ∧ bit x.flags 0 then
      let g := (s.slot 6).gen
      (s.setSess i { x with ticketGen := g }).send x.port (.ticket i g)
    else s
  | none => s

/-! ### Undelivered responses (R44, R45, R220) -/

/-- NET reports a release: the lane appends the UNDELIVERED record and the tiles are freed. -/
def State.undeliver (s : State) (n h code : Nat) : State :=
  match (s.lane n).msg h with
  | none => s
  | some m =>
    let s := (s.netCount 2).gMsg 8 n h (BitVec.ofNat 16 code) 0
    let s := s.modLane n (fun l =>
      let l := l.setMsg h { m with atPort := false, report := some (BitVec.ofNat 16 code) }
      match m.trace.getLast? with
      | some x => l.free x.tile
      | none => l)
    s.present n (hwRec n h m 0x86 code)
/-- The outbound phase whose release NET accepted has ended (R36): the wait for NET counts as RELEASE (R60). -/
def State.releaseEnd (s : State) (n h : Nat) : State :=
  let w := match (s.lane n).msg h with
    | some m => s.laneClk - m.relClk
    | none => 0
  match (List.range 8).find? (fun t => match (s.thr n t).phase with
    | some p => p.h = h && p.outbound
    | none => false), ((s.lane n).msg h).bind (·.tail) with
  | some t, _ => (s.modThr n t (fun th => { th with phase := th.phase.map (·.wait 4 w) })).phaseEnd n t
  | none, some x => ((s.overrunEnd n (x.2.wait 4 w)).modMsg n h (fun m => { m with tail := none })).modLane n (fun l => l.retireMsg h)
  | none, none => s
/-- Releases of a session that wait while it closes are undelivered, in the order in which they were offered (R220). -/
def State.dropReleases (s : State) (i : Nat) : State :=
  ((s.lane (i / 4096)).msgs.filter (fun p => p.2.atPort && decide (p.2.hm.session = i))).foldl (fun s p =>
    (s.undeliver (i / 4096) p.1 0x1603).releaseEnd (i / 4096) p.1) s

/-! ### Closing -/

/-- The entry is freed with its outcome, the snapshot goes out, and waiting releases are undelivered. -/
def State.freeSess (s : State) (i code : Nat) : State :=
  let x := s.sess i
  let s := s.setSess i { x with st := 0, code := code, rx := [], ready := [], sndUsed := 0, hsSlot := false, shut := false }
  let s := s.modLane (i / 4096) (fun l => { l with msgs := l.msgs.map (fun (p : Nat × Msg) =>
    if p.2.hm.session = i then (p.1, { p.2 with sessGone := true }) else p) })
  let s := { s with net := { s.net with hsQ := s.net.hsQ.filter (fun q => q.1 ≠ i) } }
  let s := if code = 0 then s else s.gEvt 8 x.port (BitVec.ofNat 16 code) 0x1FF i 0 0
  (s.dropReleases i).snapSess i
/-- Close with RST. -/
def State.closeRst (s : State) (i code : Nat) : State := (s.send (s.sess i).port (.rst i)).freeSess i code
/-- Close with an alert on a TLS session, with RST on a plain one (R209, Table KU-20). -/
def State.closeAlert (s : State) (i code desc : Nat) : State :=
  let x := s.sess i
  if bit x.flags 0 then ((s.send x.port (.alert i desc)).send x.port (.fin i)).freeSess i code else s.closeRst i code
/-- close_notify (if TLS), then FIN. -/
def State.closeFin (s : State) (i code : Nat) : State :=
  let x := s.sess i
  let s := if bit x.flags 0 then s.send x.port (.closeNotify i) else s
  (s.send x.port (.fin i)).freeSess i code
def State.hsFail (s : State) (i code desc : Nat) : State :=
  let s := (s.netCount 5).raiseIrq netBase 4
  ((s.send (s.sess i).port (.alert i desc)).send (s.sess i).port (.fin i)).freeSess i code
/-- A timer event of a live session. -/
def State.liveEvt (s : State) (i : Nat) (f : State → State) : Res := if liveSess (s.sess i) then .next (f s) else .next s

/-! ### Framing (Table NET-4, R209) -/

/-- What the head of the byte stream holds. -/
inductive FrameHead where
  | more
  | bad
  | keepalive (used : Nat)
  | msg (hdr len : Nat)
  deriving DecidableEq, Repr

def decDigits (lo : Nat) (b : Bytes) : Option Nat :=
  b.foldl (fun a x => match a with
    | some v => if lo ≤ x.toNat ∧ x.toNat ≤ lo + 9 then some (v * 10 + (x.toNat - lo)) else none
    | none => none) (some 0)
/-- The header at the head of a stream in mode 0 to 4. -/
def frameHead (mode : Nat) (b : Bytes) : FrameHead :=
  let n := if mode = 0 ∨ mode = 4 then 2 else 4
  if b.length < n then .more
  else
    let v : Option Nat := if mode = 0 ∨ mode = 1 ∨ mode = 4 then some (Bytes.be b 0 n)
      else decDigits (if mode = 2 then 0x30 else 0xF0) (b.take 4)
    match v with
    | none => .bad
    | some v =>
      if mode = 4 then (if v = 2 then .keepalive 2 else if v < 3 then .bad else .msg 2 (v - 2))
      else if v = 0 then .keepalive n
      else if mode = 1 ∧ v > 262144 then .bad else .msg n v
/-- The most that a header can express. -/
def frameMax (mode : Nat) : Nat :=
  match mode with
  | 0 => 65535 | 1 => 262144 | 2 => 9999 | 3 => 9999 | 4 => 65533 | _ => 262144
/-- The header NET writes before a response. -/
def frameHdr (mode len : Nat) : Bytes :=
  let dig := fun (lo : Nat) => (List.range 4).map (fun i => BitVec.ofNat 8 (lo + len / 10 ^ (3 - i) % 10))
  match mode with
  | 0 => Bytes.ofNatBE 2 len | 1 => Bytes.ofNatBE 4 len | 2 => dig 0x30 | 3 => dig 0xF0
  | 4 => Bytes.ofNatBE 2 (len + 2) | _ => []
/-- Cut complete messages out of the stream: messages, keepalives, the rest, and whether the framing failed. -/
def cutFrames (mode : Nat) : Nat → Bytes → List Bytes × Nat × Bytes × Bool
  | 0, b => ([], 0, b, false)
  | fuel + 1, b =>
    match frameHead mode b with
    | .more => ([], 0, b, false)
    | .bad => ([], 0, [], true)
    | .keepalive k => let (m, n, r, e) := cutFrames mode fuel (b.drop k)
                      (m, n + 1, r, e)
    | .msg h len =>
      if b.length < h + len then ([], 0, b, false)
      else let (m, n, r, e) := cutFrames mode fuel (b.drop (h + len))
           ((b.drop h).take len :: m, n, r, e)
/-- The receive window of a session: the free part of RCVBUF, and 0 while the home lane has too few free tiles for the next
message (R35, R208). -/
def State.rcvWindow (s : State) (i : Nat) : Nat :=
  let x := s.sess i
  if x.shut then 0
  else ((s.listener x.listener).map (·.rcvbuf)).getD 288 * 1024 - (x.rx.length + x.ready.foldl (fun a m => a + m.length) 0)
/-- Plaintext arrives on a session: NET takes what its receive window holds. -/
def State.netData (s : State) (i : Nat) (b : Bytes) : State :=
  let x := s.sess i
  let b := b.take (s.rcvWindow i)
  if x.st ≠ 3 then s
  else if x.framing = 5 then
    if b.isEmpty then s
    else if b.length > 16384 then (s.netCount 1).closeAlert i 0x1602 50
    else s.setSess i { x with ready := x.ready ++ [b], rxClk := s.laneClk }
  else
    let buf := x.rx ++ b
    let (ms, ka, rest, bad) := cutFrames x.framing (buf.length + 1) buf
    let s := s.setSess i { x with
      rx := rest, ready := x.ready ++ ms, rxClk := s.laneClk,
      msgClk := if x.rx.isEmpty || !ms.isEmpty || decide (ka ≠ 0) then s.laneClk else x.msgClk }
    let s := s.incReg (netBase + 0x41C) ka
    if bad then (s.netCount 1).closeAlert i 0x1602 50 else s

/-- The partner's window opens by `w` bytes: queued bytes leave. -/
def Session.granted (x : Session) (w now : Nat) : Session :=
  { x with window := w - min w x.sndUsed, sndUsed := x.sndUsed - min w x.sndUsed, retx := 0,
           stallClk := if w = 0 then x.stallClk else now }
/-- `n` bytes are to go: what the partner's window does not take is queued. -/
def Session.queued (x : Session) (n now : Nat) : Session :=
  let m := min x.window n
  { x with window := x.window - m, sndUsed := x.sndUsed + (n - m), stallClk := if x.sndUsed = 0 then now else x.stallClk }

/-! ### Ports and frames -/

/-- The mode of logical port `q` as its STATUS shows it (Table NET-1, R204): 0 unused, 1 200GBASE-R, 2 100GBASE-R. -/
def State.portMode (s : State) (q : Nat) : Nat :=
  match s.twin.dom with
  | none => 0
  | some d =>
    let m := d.portModes.getD (q / 2) 0
    if m = 2 then 2 else if m = 1 ∧ q % 2 = 0 then 1 else 0
/-- The port's configuration honours PAUSE (R205). -/
def State.pauseOn (s : State) (q : Nat) : Bool := match s.twin.dom with
  | some d => bit d.pauseMask q
  | none => false
/-- A frame that passed the checks of R205 on logical port `q`. -/
def State.frameAct (s : State) (q : Nat) (k : FrameKind) : State :=
  let s := s.incReg (portReg q 4) 1
  let own := fun (a : Nat) => s.addrActive a && (match s.addr a with
    | some x => x.port = q
    | none => false)
  match k with
  | .arpRequest a => if own a then s.send q (.arpReply a) else s
  | .neighbourSolicit a => if own a then s.send q (.neighbourAdvert a) else s
  | .echo a =>
    let sec := s.tai / 1000000000
    let (t, c) := SMap.get (0, 0) a s.net.echo
    let c := if t = sec then c else 0
    if own a ∧ c < 1000 then ({ s with net := { s.net with echo := SMap.set (0, 0) a (sec, c + 1) s.net.echo } }).send q (.echoReply a)
    else s
  | .pause quanta =>
    if s.pauseOn q then
      let bits := if s.portMode q = 2 then 8192 else 4096
      ({ s with net := { s.net with pauseEnd := SMap.set 0 q (s.laneClk + cdiv (quanta % 65536 * bits) 1000) s.net.pauseEnd } } : State).pauseFlush
    else s
  | .urgentOrData i b => if bit (s.sess i).flags 0 then s else s.netData i b
  | .windowUpdate i w => s.modSess i (fun x => if liveSess x then x.granted w s.laneClk else x)
  | .ipOptions => s.incReg (portReg q 0xC) 1
  | .fragment => s.incReg (portReg q 0xC) 1
  | .fragNeeded a m => { s with net := { s.net with pmtu := SMap.set 0 a m s.net.pmtu } }
  | .other => s
/-- ETHERNET_FRAME_RECEIVE (R205). -/
def execEthernetFrameReceive (q : PortId) (f : EthFrame) (s : State) : Res :=
  if !bit (s.reg (portReg q 0)) 0 ∨ s.portMode q = 0 then .next s
  else if !f.fecOk then .next ((s.incReg (portReg q 0x14) 1).incReg (portReg q 0xC) 1)
  else if !f.fcsOk then .next ((s.incReg (portReg q 0x10) 1).incReg (portReg q 0xC) 1)
  else if f.tags > 1 ∨ f.len > 9216 then .next (s.incReg (portReg q 0xC) 1)
  else .next (s.frameAct q f.kind)
/-- PORT_LINK_CHANGE: a logical port that its mode leaves unused has no link (R204). -/
def execPortLinkChange (q : PortId) (up fec : Bool) (s : State) : Res :=
  let up := up && s.portMode q ≠ 0
  let fec := fec && s.portMode q ≠ 0
  let a := portReg q 0
  let v := s.reg a
  let s := s.setReg a (setBits (setBits v 0 0 (b2n up)) 1 1 (b2n fec))
  .next (if bit v 0 = up then s else s.raiseIrq netBase 2)
/-- GRATUITOUS_ARP: the next of three announcements of an activated address, 1 ms apart. -/
def execGratuitousArp (i : Fin 64) (s : State) : Res :=
  let k := SMap.get 0 i.val s.net.garp
  match s.addr i with
  | some a => if k = 0 then .next s
    else if s.laneClk < SMap.get 0 i.val s.net.garpClk then .next s
    else .next (({ s with net := { s.net with garp := SMap.set 0 i.val (k - 1) s.net.garp,
                                              garpClk := SMap.set 0 i.val (s.laneClk + 1600000) s.net.garpClk } }).send a.port (.announce i))
  | none => .next s

/-- What a change of the domain configuration or of the address table does to ports and sessions (R204, Table NET-8): a port
whose mode changed trains again, and its sessions and those of withdrawn addresses close with 0x160E. -/
def State.netAfter (s old : State) : State :=
  let ch := fun (q : Nat) => decide (s.portMode q ≠ old.portMode q)
  let s := (List.range 16).foldl (fun s q =>
    if ch q then
      let v := s.reg (portReg q 0)
      let s := s.setReg (portReg q 0) (setBits v 1 0 0)
      if bit v 0 then s.raiseIrq netBase 2 else s
    else s) s
  s.net.sessions.foldl (fun s p =>
    if liveSess p.2 && (ch p.2.port || decide ((s.addr p.2.addr).map (·.ip) ≠ (old.addr p.2.addr).map (·.ip))) then s.closeRst p.1 0x160E
    else s) s

/-! ### Connections (R207, R208, R216, R223) -/

def State.acceptEn (s : State) : Bool := bit (s.reg netBase) 0
/-- The lowest free entry of a lane's slice. -/
def State.freeEntry (s : State) (n : Nat) : Option Nat :=
  (List.range 4096).find? (fun e => (s.sess (n * 4096 + e)).st = 0) |>.map (fun e => n * 4096 + e)
/-- Lanes of a listener that may take a session. -/
def State.lanesFor (s : State) (l : Listener) : List Nat :=
  (List.range 16).filter (fun n => bit l.lanes n && (s.lane n).st = 2 && (s.freeEntry n).isSome)
/-- The choice of POLICY among the candidates. -/
def State.pickLane (s : State) (pol hash : Nat) (ls : List Nat) : Option Nat :=
  match ls with
  | [] => none
  | a :: r => some (if pol = 0 then r.foldl (fun b n => if s.laneSess n < s.laneSess b then n else b) a
      else if pol = 1 then ls.getD (hash % ls.length) a else a)
/-- The RECLAIM entry a connection may claim (R223). -/
def State.reclaim (s : State) (li : Nat) (c : ConnInfo) : Option Nat :=
  match c.ticket with
  | some (id, peer, _) => if (s.sess id).st = 6 ∧ (s.sess id).peer = peer then some id else none
  | none => (s.net.sessions.find? (fun p => decide (p.2.st = 6) && !bit p.2.flags 0 && decide (p.2.remote = c.remote)
      && decide (p.2.listener = li))).map (·.1)
/-- A connection that no session takes is reset and counted with 0x1606 (R216). -/
def State.refuseConn (s : State) (port li : Nat) : State :=
  (((s.netCount 6).raiseIrq netBase 3).gEvt 8 port 0x1606 0x1FF li 0 0).send port (.refuse li)
/-- TCP_CONNECTION_ESTABLISH (R208, R216, R223). -/
def execTcpConnectionEstablish (li : Fin 256) (c : ConnInfo) (s : State) : Res :=
  match s.listener li with
  | none => .next s
  | some l =>
    if !s.acceptEn ∨ !bit l.flags 0 ∨ !s.addrActive l.addr then .next s
    else
      let s := { s with net := { s.net with halfOpen := c.halfOpen } }
      let tls := bits l.flags 3 2
      let port := match s.addr l.addr with
        | some a => a.port
        | none => 0
      let mk := fun (x : Session) => { x with
        st := if tls = 0 then 3 else 2,
        flags := b2n (tls ≠ 0) + b2n c.ipv6 * 8 + b2n (bit l.flags 1) * 16, listener := li, port := port,
        framing := l.framing, remote := c.remote, rport := c.rport, lport := l.lport, code := 0, addr := l.addr,
        created := s.btm.beat, estClk := s.laneClk, rxClk := s.laneClk }
      match s.reclaim li c with
      | some i => .next (((s.modSess i mk).send port (.synAck i)).snapSess i)
      | none =>
        let cnt := (s.net.sessions.filter (fun p => liveSess p.2 && decide (p.2.listener = li.val))).length
        match (s.pickLane (bits l.policy 1 0) (Config.connHash c.remote c.rport) (s.lanesFor l)).bind s.freeEntry with
        | some i =>
          if l.maxSess ≠ 0 ∧ cnt ≥ l.maxSess then .next (s.refuseConn port li)
          else .next (((s.setSess i (mk {})).send port (.synAck i)).snapSess i)
        | none => .next (s.refuseConn port li)
/-- LISTENER_RECONNECT: a client listener opens its connection when it has none (R207). -/
def execListenerReconnect (li : Fin 256) (s : State) : Res :=
  match s.listener li with
  | some l => if s.acceptEn ∧ bit l.flags 0 ∧ bit l.flags 1 ∧ s.addrActive l.addr ∧
        s.net.sessions.all (fun p => !(liveSess p.2 && decide (p.2.listener = li.val))) then
      .next (s.send ((s.addr l.addr).map (·.port) |>.getD 0) (.connect li))
    else .next s
  | none => .next s
/-- TCP_RETRANSMIT_TIMEOUT (R208). -/
def execTcpRetransmitTimeout (i : SessId) (s : State) : Res :=
  s.liveEvt i fun s =>
    let x := s.sess i
    if x.retx ≥ 8 then s.closeRst i 0x160D else (s.setSess i { x with retx := x.retx + 1 }).send x.port (.retransmit i)
/-- TCP_RST_RECEIVE (R208). -/
def execTcpRstReceive (i : SessId) (s : State) : Res := s.liveEvt i fun s => s.freeSess i 0x160D
/-- A field of a session's listener; `d` is its default (Table NET-2). -/
def State.lisOf (s : State) (i : Nat) (f : Listener → Nat) (d : Nat) : Nat := ((s.listener (s.sess i).listener).map f).getD d
/-- A timer that started at `at0` and runs `ms` milliseconds has expired (R219); a second has 1.6 × 10⁹ lane cycles. -/
def State.expired (s : State) (at0 ms : Nat) : Bool := decide (at0 + ms * 1600000 ≤ s.laneClk)
/-- KEEPALIVE_PROBE: at IDLE ÷ 2 (Table NET-3). -/
def execKeepaliveProbe (i : SessId) (s : State) : Res :=
  s.liveEvt i fun s =>
    let idle := s.lisOf i (·.idle) 300
    if idle ≠ 0 ∧ s.expired (s.sess i).rxClk (idle * 500) then s.send (s.sess i).port (.probe i) else s

/-! ### TLS (R210 to R214) -/

/-- TLS_RECORD_RECEIVE (R214): application data, or a KeyUpdate and whether it asks for one in return. A record beyond the
receive window is not taken. -/
def execTlsRecordReceive (i : SessId) (authOk : Bool) (plain : Bytes) (keyUpdate : Option Bool) (s : State) : Res :=
  let x := s.sess i
  if (x.st ≠ 3 ∧ x.st ≠ 4) ∨ !bit x.flags 0 ∨ (x.st = 3 ∧ s.rcvWindow i < plain.length) then .next s
  else if !authOk then .next ((s.netCount 0).closeAlert i 0x1601 20)
  else match keyUpdate with
    | some asked =>
      let s := s.setSess i { x with rxClk := s.laneClk, rxRecs := 0, txRecs := if asked then 0 else x.txRecs }
      .next (if asked then s.send x.port (.keyUpdate i) else s)
    | none => .next ((s.setSess i { x with rxRecs := x.rxRecs + 1 }).netData i plain)
def State.handshakes (s : State) : Nat := (s.net.sessions.filter (fun p => p.2.hsSlot)).length
/-- Handshake operations a lane has outstanding. -/
def State.hsOut (s : State) (n : Nat) : Nat :=
  let l := s.lane n
  let isNet := fun (o : BurOp) => match o.src with
    | .reserve .net _ => true
    | _ => false
  (l.rsvq.filter (fun r => decide (r.unit = .net))).length
    + l.eng.foldl (fun a p => a + (p.2.q.filter isNet).length + (match p.2.run with
      | some r => b2n (isNet r.op)
      | none => 0)) 0
/-- Hand waiting handshake operations to the lanes, at most 8 outstanding per lane (R211). -/
def State.hsPump : List (Nat × ReserveReq) → State → State
  | [], s => s
  | q :: r, s =>
    if s.hsOut (q.1 / 4096) < 8 then
      State.hsPump r (({ s with net := { s.net with hsQ := s.net.hsQ.erase q } }).reserveReq (q.1 / 4096) q.2)
    else State.hsPump r s
/-- The signing code of a credential's class. -/
def credOpc (key : Nat) : Nat :=
  match hdlCls key with
  | 0x01 => 0x08 | 0x03 => 0x10 | 0x05 => 0x18 | 0x0D => 0x3C | 0x0F => 0x44 | _ => 0x08
/-- Whether a ticket is accepted (R213): it opens under the current or the previous generation of the ticket key, within the
domain's ticket lifetime. -/
def State.ticketOk (s : State) (t : TicketIn) : Bool :=
  let z := s.slot 6
  let life := match s.twin.dom with
    | some d => d.ticketLife
    | none => 86400
  t.opens && z.held && (t.gen = z.gen || (t.gen + 1 = z.gen && (s.slot 7).held)) && decide (t.age ≤ life)
/-- The reference of a handshake's Burin operation: 0 signs, 1 verifies the peer's CertificateVerify, 2 a certificate. -/
def hsRef (num kind : Nat) : Nat := 4 * num + kind
/-- HANDSHAKE_START (R210 to R213, Table NET-5): a certificate that the cache of its trust set holds costs no verification. -/
def execHandshakeStart (i : SessId) (h : ClientHello) (s : State) : Res :=
  let x := s.sess i
  if x.st ≠ 2 ∨ x.hsSlot ∨ s.handshakes ≥ 1024 then .next s
  else if !h.tls13 then .next (s.hsFail i 0x1607 70)
  else if h.suite = 0 ∨ h.suite > 3 ∨ h.group = 0 ∨ h.group > 4 ∨ !h.sigOk ∨ (!h.chain.isEmpty ∧ h.peerCv.isNone) then .next (s.hsFail i 0x1607 40)
  else
    let li := s.listener x.listener
    let tk := h.ticket.filter (fun t => s.ticketOk t && (li.map (fun l => bit l.flags 4)).getD false)
    let num := s.net.hsCount
    let fl := x.flags % 2 + x.flags / 8 * 8 + (match tk with
      | some t => 4 + b2n t.clientCert * 2
      | none => 0)
    let cred := (li.map (·.cred)).getD 0
    let cached := SMap.get [] ((li.map (·.trust)).getD 0) s.net.certCache
    let mk := fun (kind opc key : Nat) (inp aux : Bytes) =>
      ((i.val, { unit := .net, opc := opc, key := key, input := inp, aux := aux, ref := hsRef num kind }) : Nat × ReserveReq)
    let client := bit x.flags 4
    let mutl := decide ((li.map (fun l => bits l.flags 3 2)).getD 0 = 2)
    let rq := if tk.isSome then []
      else (if client && !mutl then [] else [mk 0 (credOpc cred) cred h.transcript []])
        ++ (match h.peerCv with
          | some v => [mk 1 v.opc 0 v.input v.aux]
          | none => [])
        ++ (h.chain.zip (List.range h.chain.length)).filterMap (fun p =>
          if p.2 ≠ 0 ∧ cached.contains p.1.1 then none else some (mk 2 p.1.2.opc 0 p.1.2.input p.1.2.aux))
    let s := s.setSess i { x with
      hsSlot := true, suite := h.suite, group := h.group, flags := fl, hsResumed := tk.isSome, hsNum := num, hsOps := rq.length,
      peer := match tk with
        | some t => t.peer.take 16
        | none => x.peer, hsChain := h.chain.map (·.1) }
    let s := if h.ticket.isSome && tk.isNone then s.gEvt 8 x.port 0x16C1 0x1FF i 0 0 else s
    let s := { s with net := { s.net with hsCount := num + 1, hsQ := s.net.hsQ ++ rq } }
    .next ((State.hsPump s.net.hsQ s).send x.port (.hello i))
/-- The certificates that have verified enter the cache of their trust set, non-leaf ones only, at most 1,024 (R212). -/
def State.cacheCerts (s : State) (x : Session) : State :=
  let ts := ((s.listener x.listener).map (·.trust)).getD 0
  let old := SMap.get [] ts s.net.certCache
  { s with net := { s.net with
    certCache := SMap.set [] ts ((old ++ x.hsChain.tail.filter (fun d => !old.contains d)).take 1024) s.net.certCache } }
/-- HANDSHAKE_COMPLETE (R211 to R213): when every Burin operation of the handshake has ended, or one has been refused. -/
def execHandshakeComplete (i : SessId) (r : HsResult) (s : State) : Res :=
  let x := s.sess i
  let mine := fun (d : ReserveUnit × Nat × Code × Bytes) => d.1 = ReserveUnit.net && d.2.1 / 4 = x.hsNum
  let done := s.rsvDone.filter mine
  let refused := done.find? (fun d => d.2.2.1 ≠ 0 && decide (d.2.2.1.toNat % 256 < 0xC0) && d.2.2.1 ≠ 0x1101 && d.2.2.1 ≠ 0x1109)
  let wrong := fun (k : Nat) => done.any (fun d => d.2.1 % 4 = k && (d.2.2.1 = 0x1101 || d.2.2.1 = 0x1109))
  if x.st ≠ 2 ∨ !x.hsSlot ∨ (done.length < x.hsOps ∧ refused.isNone) then .next s
  else
    let s := { s with rsvDone := s.rsvDone.filter (fun d => !mine d) }
    let need := bit x.flags 4 || decide (s.lisOf i (fun l => bits l.flags 3 2) 0 = 2)
    let chainOk := !(need && x.hsChain.isEmpty) && decide (x.hsChain.length ≤ 4) && decide (r.certBytes ≤ 16384) && r.anchorOk && r.validityOk && r.usageOk
      && r.criticalOk && !r.denied && r.nameOk && !wrong 2
    let s := match refused with
      | some d => (s.gEvt 8 x.port 0x1607 0x1FF i 0 d.2.2.1.toNat).hsFail i 0x1607 80
      | none =>
        if wrong 1 then s.hsFail i 0x1607 51
        else if !x.hsResumed && !chainOk then s.hsFail i 0x1607 42
        else
          let mtls := !x.hsResumed && !x.hsChain.isEmpty && !bit x.flags 4
          let s := s.setSess i { x with
            st := 3, hsSlot := false, flags := x.flags + b2n mtls * 2,
            peer := if x.hsResumed then x.peer else (x.hsChain.headD []).take 16 }
          (((s.cacheCerts x).netCount (if x.hsResumed then 4 else 3)).issueTicket i).snapSess i
    .next (State.hsPump s.net.hsQ s)
/-- KEY_UPDATE_SEND (R214). -/
def execKeyUpdateSend (i : SessId) (s : State) : Res :=
  s.liveEvt i fun s =>
    let x := s.sess i
    if bit x.flags 0 ∧ (2 ^ 23 ≤ x.txRecs ∨ 2 ^ 23 ≤ x.rxRecs) then
      (s.setSess i { x with txRecs := 0, rxRecs := 0 }).send x.port (.keyUpdate i)
    else s
/-- HANDSHAKE_TIMEOUT (Table NET-7). -/
def execHandshakeTimeout (i : SessId) (s : State) : Res :=
  let x := s.sess i
  if (x.st = 2 ∨ x.st = 1) ∧ s.expired x.estClk (s.lisOf i (·.handshake) 10 * 1000) then .next (((s.netCount 5).raiseIrq netBase 4).closeRst i 0x1608) else .next s

/-! ### Minting (R33 to R35) -/

/-- MESSAGE_MINT: the session's oldest complete message becomes a message of its home lane, under the lowest free handle (DESIGN
CHOICE, log 175). With too few free tiles the receive window closes; minting opens it again (R35). -/
def execMessageMint (i : SessId) (cls : Fin 32) (s : State) : Res :=
  let x := s.sess i
  let n := i.val / 4096
  let l := s.lane n
  match x.ready with
  | [] => .next s
  | b :: rest =>
    let k := cdiv b.length 256
    let moving : Bool := match s.net.move with
      | some (m, _) => decide (m = i.val)
      | none => false
    let free := l.freeTiles k
    match (List.range 4096).find? (fun h => (l.msg h).isNone), s.mintKey with
    | some h, some key =>
      if x.st ≠ 3 ∨ moving ∨ (l.st ≠ 2 ∧ l.st ≠ 3) ∨ l.inflight ≥ 4096 then .next s
      else if free.length < k then
        let s := s.lpmu n 30 1
        .next (if x.shut then s else (s.setSess i { x with shut := true }).send x.port (.window i 0))
      else
        let hm : Hallmark := {
          device := s.twin.deviceId, flags := x.flags % 16, lane := n, session := i.val, beat := s.btm.beat % 2 ^ 46 }
        let t := originTag key b hm
        let hm := { hm with origin := t, chain := t }
        let l := (putChain (linkNew l true true free) free b).1
        let m : Msg := { hm := hm, cls := cls, first := free.getD 0 endTile, len := b.length, mintClk := s.laneClk }
        let l := { (l.dropTrans h).setMsg h m with
          cands := l.cands ++ [{ h := h, outbound := false, cls := cls, born := s.btm.beat, input := b.length }] }
        let s := ((s.setLane n l).lpmu n 0 1).setSess i { x with ready := rest, msgs := (x.msgs + 1) % 2 ^ 32, shut := false }
        .next (s.send x.port (.window i (s.rcvWindow i)))
    | _, _ => .next s

/-! ### Timers and closes (Table NET-7, R219 to R221) -/

/-- MSG_TIMEOUT: a message has begun and not ended. -/
def execMsgTimeout (i : SessId) (s : State) : Res :=
  let x := s.sess i
  if x.st = 3 ∧ !x.rx.isEmpty ∧ s.expired x.msgClk (s.lisOf i (·.msg) 5 * 1000) then .next (s.closeRst i 0x1605) else .next s
/-- IDLE_TIMEOUT. -/
def execIdleTimeout (i : SessId) (s : State) : Res :=
  let idle := s.lisOf i (·.idle) 300
  if (s.sess i).st = 3 ∧ idle ≠ 0 ∧ s.expired (s.sess i).rxClk (idle * 1000) then .next (s.closeFin i 0x1609) else .next s
/-- STALL_TIMEOUT: the partner's window is closed with data queued. -/
def execStallTimeout (i : SessId) (s : State) : Res :=
  let x := s.sess i
  if liveSess x ∧ x.sndUsed ≠ 0 ∧ s.expired x.stallClk (s.lisOf i (·.stall) 30 * 1000) then .next (s.closeRst i 0x1604) else .next s
/-- LINGER_TIMEOUT (R221). -/
def execLingerTimeout (i : SessId) (s : State) : Res :=
  if (s.sess i).st = 4 ∧ s.expired (s.sess i).lingerClk (s.lisOf i (·.linger) 10 * 100) then .next (s.closeFin i 0) else .next s
/-- RECLAIM_TIMEOUT (R223). -/
def execReclaimTimeout (i : SessId) (s : State) : Res :=
  if (s.sess i).st = 6 ∧ s.expired (s.sess i).reclaimClk 60000 then .next (s.freeSess i 0x160D) else .next s
/-- PARTNER_CLOSE (R221). -/
def execPartnerClose (i : SessId) (s : State) : Res :=
  let x := s.sess i
  if x.st = 3 then .next (s.setSess i { x with st := 4, ready := [], rx := [], lingerClk := s.laneClk })
  else if x.st = 1 ∨ x.st = 2 then .next (s.freeSess i 0x160D) else .next s

/-! ### Releases (R44, R45, R148, R220, R414) -/

/-- The histogram bin of an interval in lane cycles (R414): bin b ≥ 1 begins at ⌊1,600 × 2^((b − 1)/4)⌋, which a value
reaches exactly when its fourth power reaches 1600⁴ × 2^(b − 1). -/
def histBin (v : Nat) : Nat :=
  if v < 1600 then 0 else
  if v ≥ 74145520 then 63 else
  ((List.range 62).filter (fun i => decide (1600 ^ 4 * 2 ^ i < (v + 1) ^ 4))).length
def bump32 (b : Nat) (m : SMap Nat) : SMap Nat := SMap.set 0 b (satAdd (SMap.get 0 b m) 1 (2 ^ 32 - 1)) m
/-- A release is accepted: both histograms count the message (R414). -/
def State.histEntry (s : State) (n : Nat) (m : Msg) : State :=
  let c := s.lreg n 0x3100
  if bit c 5 ∧ bits c 4 0 ≠ m.cls then s
  else
    let len := s.laneClk - m.mintClk
    let off := if m.posted ∧ m.decision.isSome then m.decClk - m.postClk else 0
    s.modLane n (fun l => { l with hist0 := bump32 (histBin len) l.hist0, hist1 := bump32 (histBin (len - off)) l.hist1 })
/-- The tile port's check of the released chain (R148): 0, or 0x1201 with the tile, or 0x1202. -/
def State.portCheck (s : State) (n : Nat) (m : Msg) : Code × Nat :=
  let l := s.lane n
  match m.trace.getLast? with
  | none => (0x1202, endTile)
  | some x => match l.chain x.tile with
    | none => (0x1202, endTile)
    | some ts => match l.badTile ts with
      | some t => (0x1201, t)
      | none => match s.hmKey m.hm with
        | none => (0x1204, endTile)
        | some k => if m.trace.length = m.hm.step ∧ outDigest k x.isHm (l.content ts) = x.digest then (0, 0) else (0x1202, endTile)
/-- The Rhax request a lane transfer begins with (R201). -/
def State.offer (s : State) (n h dst : Nat) (m : Msg) : State :=
  let prev := (s.hmKey m.hm).map (fun k => recompute k m.hm.origin m.trace.dropLast)
  s.rhaxReq 0x20 dst (n * 4096 + h) (.offer m.hm.bytes (routeOf m.hm.lane m.trace) (prev.getD 0))
/-- RELEASE_ACCEPT. -/
def execReleaseAccept (n : LaneId) (h : Handle) (s : State) : Res :=
  match (s.lane n).msg h with
  | none => .next s
  | some m =>
    let i := m.hm.session
    let x := s.sess i
    if !m.released ∨ !m.atPort ∨ (s.lane n).port.isSome then .next s
    else
      let l := s.lane n
      let first := (m.trace.getLast?.map (·.tile)).getD endTile
      let body := l.content ((l.chain first).getD [])
      match m.xfer with
      | some dst =>
        let (code, t) := s.portCheck n m
        if code ≠ 0 then .next (((s.hmFail n h 3 code t).undeliver n h code.toNat).releaseEnd n h)
        else .next (((s.offer n h dst m).modLane n (fun l => { l with port := some { h := h, first := first, ok := true } })).releaseEnd n h)
      | none =>
        if m.sessGone ∨ (x.st ≠ 3 ∧ x.st ≠ 4) then .next ((s.undeliver n h 0x1603).releaseEnd n h)
        else if body.length > frameMax x.framing ∨ (x.framing = 5 ∧ body.length > 16384) then
          .next (s.closeAlert i 0x1602 80)
        else
          let buf := ((s.listener x.listener).map (·.sndbuf)).getD 256 * 1024
          let need := body.length + (frameHdr x.framing body.length).length + (if bit x.flags 0 then 22 * cdiv (body.length + 4) 16384 else 0)
          if x.sndUsed + need > buf then .next s
          else
            let (code, t) := s.portCheck n m
            if code ≠ 0 then .next (((s.hmFail n h 3 code t).undeliver n h code.toNat).releaseEnd n h)
            else
              let s := s.histEntry n m
              let recs := if bit x.flags 0 then cdiv (body.length + 4) 16384 else 0
              let s := s.setSess i { x.queued need s.laneClk with txRecs := x.txRecs + recs }
              let s := s.send x.port (.data i (frameHdr x.framing body.length ++ body))
              let s := s.modLane n (fun l => { l.setMsg h { m with atPort := false } with
                port := some { h := h, first := first, ok := true } })
              .next (s.releaseEnd n h)
/-- TILE_PORT_TRANSFER_END (R139, R148): the chain's tiles are freed, deferred frees complete. -/
def execTilePortTransferEnd (n : LaneId) (h : Handle) (s : State) : Res :=
  let l := s.lane n
  match l.port with
  | some p => if p.h = h.val then
      .next (s.setLane n ((({ l with port := none }.free p.first).flushFrees).retireMsg h))
    else .next s
  | none => .next s

/-! ### Reassignment (R217) -/

/-- A committed disposition whose response the phase may still release (R162, R217). -/
def Msg.mayRelease (m : Msg) : Bool := !m.released && decide (m.disp = some 0x81 ∨ m.disp = some 0x82 ∨ m.disp = some 0x84)
/-- The session has no message without a committed disposition, no waiting release and no partial message. -/
def State.quiescent (s : State) (i : Nat) : Bool :=
  (s.sess i).rx.isEmpty && (s.lane (i / 4096)).msgs.all (fun p =>
    decide (p.2.hm.session ≠ i) || (p.2.acked && !p.2.atPort && !(p.2.mayRelease && (s.lane (i / 4096)).phaseOn p.1)))
def State.moveDone (s : State) (code : Nat) : State :=
  ({ s with net := { s.net with move := none, moveCode := code } }).raiseIrq netBase 5
def State.reassign (s : State) (agent v : Nat) : State :=
  let i := bits v 15 0
  let n := bits v 19 16
  if s.net.move.isSome then ({ s with net := { s.net with moveCode := 0x160A } }).raiseIrq netBase 5
  else if !s.right agent (i / 4096) 3 ∨ !s.right agent n 3 ∨ (s.sess i).st ≠ 3 ∨ (s.lane n).st ≠ 2 ∨ (s.freeEntry n).isNone then
    s.moveDone 0x160A
  else { s with net := { s.net with move := some (i, n), moveClk := s.laneClk } }
/-- REASSIGN_REQ. -/
def execReassignReq (agent : Agent) (val : W32) (s : State) : Res := .next (s.reassign agent val.toNat)
/-- REASSIGN_MOVE. -/
def execReassignMove (s : State) : Res :=
  match s.net.move with
  | none => .next s
  | some (i, n) =>
    if !s.quiescent i then .next s
    else match s.freeEntry n with
      | none => .next (s.moveDone 0x160A)
      | some j =>
        if (s.lane n).st ≠ 2 then .next (s.moveDone 0x160A)
        else
          let x := s.sess i
          let s := (s.setSess i {}).snapSess i
          let s := (s.setSess j { x with created := s.btm.beat }).snapSess j
          .next ((s.issueTicket j).moveDone 0)
/-- REASSIGN_TIMEOUT: 10 ms after the request. -/
def execReassignTimeout (s : State) : Res := if s.net.move.isSome ∧ s.expired s.net.moveClk 10 then .next (s.moveDone 0x160A) else .next s

/-! ### PTP (R224, R225) -/

/-- NET's lock state changes: the beat timer enters or leaves holdover, and every lane hears of holdover (R53). -/
def State.ptpState (s : State) (st : Nat) : State :=
  let was := s.net.ptp
  let s := { s with net := { s.net with ptp := st }, btm := { s.btm with ptpLocked := decide (st = 2) } }
  if st = 2 ∧ was ≠ 2 then ({ s with btm := { s.btm with holdover := false } }).raiseIrq netBase 1
  else if was = 2 ∧ st ≠ 2 then
    let s := ({ s with btm := { s.btm with holdover := true } }).raiseIrq netBase 0
    if s.btm.running then (List.range 16).foldl (fun s n => s.raiseIrq (laneBase n) 9) s else s
  else s
/-- PTP_MESSAGE_RECEIVE. -/
def execPtpMessageReceive (q : PortId) (m : PtpMsg) (s : State) : Res :=
  match s.twin.dom with
  | none => .next s
  | some d =>
    if m.domain ≠ d.ptpDomain ∨ (q.val ≠ d.ptpPrimary ∧ q.val ≠ d.ptpBackup) ∨ !m.isSync then .next s
    else
      let a := m.offset.natAbs
      let good := if a < 200 then s.net.ptpGood + 1 else 0
      let s := { s with net := { s.net with
        ptpOffset := m.offset, ptpGm := m.gm, ptpPort := q, ptpBackup := decide (q.val ≠ d.ptpPrimary), ptpGood := good,
        ptpShift := if a > 1000000 then s.net.ptpShift - m.offset else s.net.ptpShift } }
      if good ≥ 16 then .next (s.ptpState 2)
      else if a > 1000 then .next (s.ptpState 3)
      else if s.net.ptp = 2 then .next s
      else .next (s.ptpState 1)
/-- PTP_SYNC_LOSS. -/
def execPtpSyncLoss (s : State) : Res :=
  if s.net.ptp = 0 then .next s
  else .next (({ s with net := { s.net with ptpGood := 0 } }).ptpState 3)

end Sys2Proof.Machine
end

