-- ==== Sys2Proof/Machine/StnText.lean ====
section
/-!
DEFINITION. The values of the Stencil engine's field store and their conversions (Tables STN-5, STN-9, STN-11; R98 to
R100). The currency table is ISO 4217's.
-/

namespace Sys2Proof.Machine
open Sys2Proof

/-- Where and how a run fails (R108). -/
structure SErr where
  kind : Nat
  field : Nat := 0
  item : Nat := 0
  depth : Nat := 0
  off : Nat := 0
  pc : Nat := 0
  /-- 0x1015: a fault of the stencil at run time -/
  fault : Bool := false
  deriving DecidableEq, Repr

/-- A date and time as held: civil day number, seconds of the day, fraction in ns, fraction digits, offset in minutes. -/
structure DtVal where
  day : Option Int := none
  sec : Option Int := none
  frac : Nat := 0
  digits : Nat := 0
  off : Option Int := none
  deriving DecidableEq, Repr

/-- A value of the field store (Table STN-11). An amount holds mantissa, fraction digits and whether it still awaits
the currency's exponent. -/
inductive SVal where
  | int (v : Int)
  | amt (a : Option (Int × Nat × Bool)) (c : Option (Nat × Nat))
  | dt (d : DtVal)
  | str (b : Bytes)
  | bin (b : Bytes)
  deriving DecidableEq, Repr

/-- Text: code points with the offset each came from. -/
abbrev Text := List (Nat × Nat)

/-- ISO 4217: alpha code (three ASCII bytes), numeric code, exponent. -/
def isoCurrencies : List (Nat × Nat × Nat) :=
  [
  (0x414544, 784, 2), (0x41464E, 971, 2), (0x414C4C, 8, 2), (0x414D44, 51, 2), (0x414E47, 532, 2), (0x414F41, 973, 2),
  (0x415253, 32, 2), (0x415544, 36, 2), (0x415747, 533, 2), (0x415A4E, 944, 2), (0x42414D, 977, 2), (0x424244, 52, 2),
  (0x424454, 50, 2), (0x42474E, 975, 2), (0x424844, 48, 3), (0x424946, 108, 0), (0x424D44, 60, 2), (0x424E44, 96, 2),
  (0x424F42, 68, 2), (0x424F56, 984, 2), (0x42524C, 986, 2), (0x425344, 44, 2), (0x42544E, 64, 2), (0x425750, 72, 2),
  (0x42594E, 933, 2), (0x425A44, 84, 2), (0x434144, 124, 2), (0x434446, 976, 2), (0x434845, 947, 2), (0x434846, 756, 2),
  (0x434857, 948, 2), (0x434C46, 990, 4), (0x434C50, 152, 0), (0x434E59, 156, 2), (0x434F50, 170, 2), (0x434F55, 970, 2),
  (0x435243, 188, 2), (0x435550, 192, 2), (0x435645, 132, 2), (0x435A4B, 203, 2), (0x444A46, 262, 0), (0x444B4B, 208, 2),
  (0x444F50, 214, 2), (0x445A44, 12, 2), (0x454750, 818, 2), (0x45524E, 232, 2), (0x455442, 230, 2), (0x455552, 978, 2),
  (0x464A44, 242, 2), (0x464B50, 238, 2), (0x474250, 826, 2), (0x47454C, 981, 2), (0x474853, 936, 2), (0x474950, 292, 2),
  (0x474D44, 270, 2), (0x474E46, 324, 0), (0x475451, 320, 2), (0x475944, 328, 2), (0x484B44, 344, 2), (0x484E4C, 340, 2)] ++ [
  (0x485447, 332, 2), (0x485546, 348, 2), (0x494452, 360, 2), (0x494C53, 376, 2), (0x494E52, 356, 2), (0x495144, 368, 3),
  (0x495252, 364, 2), (0x49534B, 352, 0), (0x4A4D44, 388, 2), (0x4A4F44, 400, 3), (0x4A5059, 392, 0), (0x4B4553, 404, 2),
  (0x4B4753, 417, 2), (0x4B4852, 116, 2), (0x4B4D46, 174, 0), (0x4B5057, 408, 2), (0x4B5257, 410, 0), (0x4B5744, 414, 3),
  (0x4B5944, 136, 2), (0x4B5A54, 398, 2), (0x4C414B, 418, 2), (0x4C4250, 422, 2), (0x4C4B52, 144, 2), (0x4C5244, 430, 2),
  (0x4C534C, 426, 2), (0x4C5944, 434, 3), (0x4D4144, 504, 2), (0x4D444C, 498, 2), (0x4D4741, 969, 2), (0x4D4B44, 807, 2),
  (0x4D4D4B, 104, 2), (0x4D4E54, 496, 2), (0x4D4F50, 446, 2), (0x4D5255, 929, 2), (0x4D5552, 480, 2), (0x4D5652, 462, 2),
  (0x4D574B, 454, 2), (0x4D584E, 484, 2), (0x4D5856, 979, 2), (0x4D5952, 458, 2), (0x4D5A4E, 943, 2), (0x4E4144, 516, 2),
  (0x4E474E, 566, 2), (0x4E494F, 558, 2), (0x4E4F4B, 578, 2), (0x4E5052, 524, 2), (0x4E5A44, 554, 2), (0x4F4D52, 512, 3),
  (0x504142, 590, 2), (0x50454E, 604, 2), (0x50474B, 598, 2), (0x504850, 608, 2), (0x504B52, 586, 2), (0x504C4E, 985, 2),
  (0x505947, 600, 0), (0x514152, 634, 2), (0x524F4E, 946, 2), (0x525344, 941, 2), (0x525542, 643, 2), (0x525746, 646, 0)] ++ [
  (0x534152, 682, 2), (0x534244, 90, 2), (0x534352, 690, 2), (0x534447, 938, 2), (0x53454B, 752, 2), (0x534744, 702, 2),
  (0x534850, 654, 2), (0x534C45, 925, 2), (0x534F53, 706, 2), (0x535244, 968, 2), (0x535350, 728, 2), (0x53544E, 930, 2),
  (0x535643, 222, 2), (0x535950, 760, 2), (0x535A4C, 748, 2), (0x544842, 764, 2), (0x544A53, 972, 2), (0x544D54, 934, 2),
  (0x544E44, 788, 3), (0x544F50, 776, 2), (0x545259, 949, 2), (0x545444, 780, 2), (0x545744, 901, 2), (0x545A53, 834, 2),
  (0x554148, 980, 2), (0x554758, 800, 0), (0x555344, 840, 2), (0x55534E, 997, 2), (0x555949, 940, 0), (0x555955, 858, 2),
  (0x555957, 927, 4), (0x555A53, 860, 2), (0x564553, 928, 2), (0x564E44, 704, 0), (0x565556, 548, 0), (0x575354, 882, 2),
  (0x584146, 950, 0), (0x584344, 951, 2), (0x584F46, 952, 0), (0x585046, 953, 0), (0x594552, 886, 2), (0x5A4152, 710, 2),
  (0x5A4D57, 967, 2)]

/-! ### Characters (R100) -/

def isDigit (c : Nat) : Bool := decide (48 ≤ c) && decide (c ≤ 57)
def isLetter (c : Nat) : Bool := (decide (65 ≤ c) && decide (c ≤ 90)) || (decide (97 ≤ c) && decide (c ≤ 122))
/-- Membership in a character class of Table STN-4. -/
def inClass (k c : Nat) : Bool :=
  match k with
  | 0 => true
  | 1 => isDigit c
  | 2 => isLetter c
  | 3 => isDigit c || isLetter c
  | 4 => decide (32 ≤ c) && decide (c < 127) || decide (160 ≤ c)
  | 5 => isDigit c || c = 61 || c = 68
  | 6 => isDigit c || (decide (65 ≤ c) && decide (c ≤ 70))
  | _ => false

/-- The UTF-8 bytes of a code point. -/
def utf8Enc (c : Nat) : Bytes :=
  let b := fun (n : Nat) => BitVec.ofNat 8 n
  if c < 0x80 then [b c]
  else if c < 0x800 then [b (0xC0 + c / 64), b (0x80 + c % 64)]
  else if c < 0x10000 then [b (0xE0 + c / 4096), b (0x80 + c / 64 % 64), b (0x80 + c % 64)]
  else [b (0xF0 + c / 262144), b (0x80 + c / 4096 % 64), b (0x80 + c / 64 % 64), b (0x80 + c % 64)]
def utf8 (t : List Nat) : Bytes := t.flatMap utf8Enc

/-- One UTF-8 character: its code point and length. -/
def utf8Head (b : Bytes) : Option (Nat × Nat) :=
  let cont := fun (i : Nat) => let x := (b.getD i 0).toNat; if x / 64 = 2 then some (x % 64) else none
  match b with
  | [] => none
  | h :: _ =>
    let x := h.toNat
    if x < 0x80 then some (x, 1)
    else if x / 32 = 6 then (cont 1).bind (fun a => let c := x % 32 * 64 + a; if c < 0x80 then none else some (c, 2))
    else if x / 16 = 14 then (cont 1).bind (fun a => (cont 2).bind (fun d =>
      let c := x % 16 * 4096 + a * 64 + d
      if c < 0x800 ∨ (0xD800 ≤ c ∧ c ≤ 0xDFFF) then none else some (c, 3)))
    else if x / 8 = 30 then (cont 1).bind (fun a => (cont 2).bind (fun d => (cont 3).bind (fun e =>
      let c := x % 8 * 262144 + a * 4096 + d * 64 + e
      if c < 0x10000 ∨ c > 0x10FFFF then none else some (c, 4))))
    else none
/-- Decode at most `n` UTF-8 characters: the text and the rest's offset; the bad offset on failure. -/
def utf8Text : Nat → Bytes → Nat → Except Nat (Text × Nat)
  | 0, _, o => .ok ([], o)
  | _ + 1, [], o => .ok ([], o)
  | n + 1, x :: xs, o => match utf8Head (x :: xs) with
    | none => .error o
    | some (c, k) => match utf8Text n ((x :: xs).drop k) (o + k) with
      | .ok (t, e) => .ok ((c, o) :: t, e)
      | .error e => .error e

/-- The code point of one byte in a one-byte encoding; `cs` is the stencil's CHARSET entry list. -/
def charOf (enc : Nat) (cs : List Nat) (b : Byte) : Option Nat :=
  match enc with
  | 0 => if b.toNat < 128 then some b.toNat else none
  | 1 => some (Config.ebcdic 0 b)
  | 2 => some (Config.ebcdic 1 b)
  | 3 => match cs[b.toNat]? with
    | some c => if c = 0xFFFF then none else some c
    | none => none
  | _ => some b.toNat
/-- The byte that stands for a code point in a one-byte encoding. -/
def byteOf (enc : Nat) (cs : List Nat) (c : Nat) : Option Byte :=
  ((List.range 256).find? (fun i => charOf enc cs (BitVec.ofNat 8 i) = some c)).map (BitVec.ofNat 8 ·)

/-- Decode a run of bytes in encoding `enc` as `n` units from offset `o` (Table STN-5). -/
def decodeUnits (enc : Nat) (cs : List Nat) (n : Nat) (b : Bytes) (o : Nat) : Except (Nat × Nat) Text :=
  let nib := fun (v : Nat) => if v < 10 then 48 + v else 55 + v
  if enc = 6 ∨ enc = 7 then
    let ns := ((b.zip (List.range b.length)).flatMap (fun (p : Byte × Nat) =>
      [(nib (p.1.toNat / 16), o + p.2), (nib (p.1.toNat % 16), o + p.2)]))
    if n % 2 = 1 then
      if enc = 6 then (if (ns.headD (48, 0)).1 = 48 then .ok (ns.drop 1) else .error (1, o))
      else if (ns.getLastD (70, 0)).1 = 70 then .ok ns.dropLast else .error (1, o + b.length - 1)
    else .ok ns
  else if enc = 5 then match utf8Text b.length b o with
    | .ok (t, _) => .ok t
    | .error e => .error (0x12, e)
  else (b.zip (List.range b.length)).foldr (fun (p : Byte × Nat) r => match charOf enc cs p.1, r with
      | some c, .ok t => .ok ((c, o + p.2) :: t)
      | none, _ => .error (0x12, o + p.2)
      | _, .error e => .error e) (.ok [])
/-- Encode characters; 63 (?) stands for one that cannot be written when `subst`. Answers the bytes and whether a
substitution was made. -/
def encodeText (enc : Nat) (cs : List Nat) (subst : Bool) (t : List Nat) : Option (Bytes × Bool) :=
  if enc = 6 ∨ enc = 7 then
    let d := t.map (fun c => if isDigit c then some (c - 48) else if 65 ≤ c ∧ c ≤ 70 then some (c - 55) else none)
    if d.any (·.isNone) then none
    else
      let d := d.map (·.getD 0)
      let d := if d.length % 2 = 0 then d else if enc = 6 then 0 :: d else d ++ [15]
      some ((List.range (d.length / 2)).map (fun i => BitVec.ofNat 8 (d.getD (2 * i) 0 * 16 + d.getD (2 * i + 1) 0)), false)
  else if enc = 5 then some (utf8 t, false)
  else t.foldr (fun c r => match r with
    | none => none
    | some (b, f) => match byteOf enc cs c with
      | some x => some (x :: b, f)
      | none => if subst then (match byteOf enc cs 63 with
          | some x => some (x :: b, true)
          | none => none) else none) (some ([], false))

/-! ### Numbers and dates -/

/-- The number a digit string spells. -/
def digitsNat (t : List Nat) : Nat := t.foldl (fun a c => a * 10 + (c - 48)) 0
/-- Decimal digits of a number, at least `w` of them. -/
def stnDecDigits (w n : Nat) : List Nat :=
  let s := (Nat.toDigits 10 n).map (fun c => c.toNat)
  List.replicate (w - s.length) 48 ++ s

/-- Days from 1970-01-01 of a civil date, and back. -/
def daysFromCivil (y m d : Int) : Int :=
  let y := if m ≤ 2 then y - 1 else y
  let era := y / 400
  let yoe := y - era * 400
  let doy := (153 * (if m > 2 then m - 3 else m + 9) + 2) / 5 + d - 1
  era * 146097 + (yoe * 365 + yoe / 4 - yoe / 100 + doy) - 719468
def civilFromDays (z : Int) : Int × Int × Int :=
  let z := z + 719468
  let era := z / 146097
  let doe := z - era * 146097
  let yoe := (doe - doe / 1460 + doe / 36524 - doe / 146096) / 365
  let doy := doe - (365 * yoe + yoe / 4 - yoe / 100)
  let mp := (5 * doy + 2) / 153
  let m := if mp < 10 then mp + 3 else mp - 9
  (yoe + era * 400 + (if m ≤ 2 then 1 else 0), m, doy - (153 * mp + 2) / 5 + 1)
/-- A possible civil date's day number. -/
def civilDay (y m d : Int) : Option Int :=
  let z := daysFromCivil y m d
  if 1 ≤ m ∧ m ≤ 12 ∧ 1 ≤ d ∧ civilFromDays z = (y, m, d) then some z else none
def clockSec (h m s : Nat) : Option Int := if h < 24 ∧ m < 60 ∧ s < 60 then some (h * 3600 + m * 60 + s : Nat) else none

/-- The day among candidate years that lies nearest to the beat stamp, the earlier winning a tie (R99). -/
def nearest (beatSec : Int) (sec : Int) (cands : List (Option Int)) : Option Int :=
  cands.foldl (fun (best : Option Int) c => match best, c with
    | some b, some d => if (d * 86400 + sec - beatSec).natAbs < (b * 86400 + sec - beatSec).natAbs then some d else some b
    | none, c => c
    | b, none => b) none
def yearOf (beatSec : Int) : Int := (civilFromDays (beatSec / 86400)).1
/-- MMDD with the year the beat stamp gives. -/
def dayNoYear (bs sec : Int) (m d : Nat) : Option Int :=
  let y := yearOf bs
  nearest bs sec [civilDay (y - 1) m d, civilDay y m d, civilDay (y + 1) m d]
/-- YYMMDD with the century the beat stamp gives. -/
def dayYY (bs sec : Int) (yy m d : Nat) : Option Int :=
  let c := yearOf bs / 100
  nearest bs sec [civilDay ((c - 1) * 100 + yy) m d, civilDay (c * 100 + yy) m d, civilDay ((c + 1) * 100 + yy) m d]

/-! ### Conversions to canonical values (Table STN-9, R98, R99) -/

/-- Index of the first character that is no digit; 0 when all are. -/
def badDigit (t : List Nat) : Nat := if t.all isDigit then 0 else (t.takeWhile isDigit).length
/-- Whether the two digits at `i` spell a value from `lo` to `hi`. -/
def pairIn (t : List Nat) (p : Nat × Nat × Nat) : Bool :=
  let v := digitsNat ((t.drop p.1).take 2)
  decide (p.2.1 ≤ v ∧ v ≤ p.2.2)
/-- Where a date or time of two-digit parts first goes wrong (R108): a character that is no digit, one too many, a part out of
its range, else the day. `ps` gives the parts as index, least and greatest value; `n` is the form's length. -/
def badPart (n day : Nat) (ps : List (Nat × Nat × Nat)) (t : List Nat) : Nat :=
  if !t.all isDigit then badDigit t
  else if t.length ≠ n then (if n < t.length then n else 0)
  else match ps.find? (fun p => !pairIn t p) with
    | some p => p.1
    | none => day
/-- The clock parts hh, mm, ss from index `i`. -/
def clockParts (i : Nat) : List (Nat × Nat × Nat) := [(i, 0, 23), (i + 2, 0, 59), (i + 4, 0, 59)]
/-- The characters of an ISO 8601 date-time without its fraction; 0 stands for a digit. -/
def isoForm : List Nat := [0, 0, 0, 0, 45, 0, 0, 45, 0, 0, 84, 0, 0, 58, 0, 0, 58, 0, 0]
/-- Where an ISO 8601 date (`n` = 10) or date-time (`n` = 19) first goes wrong. -/
def badIso (n : Nat) (t : List Nat) : Nat :=
  let bad := fun (i : Nat) => let c := t.getD i 0; let f := isoForm.getD i 0; if f = 0 then !isDigit c else decide (c ≠ f)
  match (List.range n).find? bad with
  | some i => min i (t.length - 1)
  | none => match ([(5, 1, 12), (8, 1, 31)] ++ (if n = 19 then [(11, 0, 23), (14, 0, 59), (17, 0, 59)] else [])).find? (fun p => !pairIn t p) with
    | some p => p.1
    | none =>
      if (civilDay (digitsNat (t.take 4)) (digitsNat ((t.drop 5).take 2)) (digitsNat ((t.drop 8).take 2))).isNone then 8 else n
/-- Index of the first digit beyond 18 significant ones. -/
def badSig (t : List Nat) : Nat := (t.takeWhile (· = 48)).length + 18

/-- A side form's text converted under CONV: a part of a value, or an error kind with the index of the first offending
character (R108). `cur` is the currency table. -/
def convIn (conv : Nat) (asBin : Bool) (cur : List (Nat × Nat × Nat)) (bs : Int) (t : List Nat) : Except (Nat × Nat) SVal :=
  let num := t.all isDigit && !t.isEmpty
  let two := fun (i : Nat) => digitsNat ((t.drop i).take 2)
  let long := fun (x : List Nat) => decide (18 < (x.dropWhile (· = 48)).length)
  let dt := fun (v : Option DtVal) (at_ : Nat) => match v with
    | some d => Except.ok (SVal.dt d)
    | none => .error (0x07, at_)
  match conv with
  | 0 => if asBin then .ok (.bin (t.map (BitVec.ofNat 8 ·))) else .ok (.str (utf8 t))
  | 1 => if !num then .error (0x01, badDigit t) else if long t then .error (0x0E, badSig t) else .ok (.int (digitsNat t))
  | 2 => if !num then .error (0x01, badDigit t) else if long t then .error (0x06, badSig t) else .ok (.amt (some (digitsNat t, 0, false)) none)
  | 3 => match t with
    | c :: r =>
      if c ≠ 67 && c ≠ 68 then .error (0x01, 0)
      else if !(r.all isDigit) || r.isEmpty then .error (0x01, 1 + badDigit r)
      else if long r then .error (0x06, 1 + badSig r)
      else .ok (.amt (some ((if c = 68 then -(digitsNat r : Int) else digitsNat r), 0, false)) none)
    | [] => .error (0x01, 0)
  | 4 =>
    let ip := t.takeWhile (· ≠ 46)
    let fp := (t.drop ip.length).drop 1
    if !ip.all isDigit then .error (0x01, badDigit ip)
    else if !fp.all isDigit then .error (0x01, ip.length + 1 + badDigit fp)
    else if (ip ++ fp).isEmpty then .error (0x01, 0)
    else if long (ip ++ fp) then
      let k := badSig (ip ++ fp)
      .error (0x06, if k < ip.length then k else k + 1)
    else .ok (.amt (some (digitsNat (ip ++ fp), fp.length, true)) none)
  | 5 =>
    if !num then .error (0x01, badDigit t)
    else match cur.find? (fun r => r.2.1 = digitsNat t) with
      | some r => .ok (.amt none (some (r.2.1, r.2.2)))
      | none => .error (0x08, 0)
  | 6 => match cur.find? (fun r => r.1 = t.foldl (fun a c => a * 256 + c % 256) 0) with
    | some r => .ok (.amt none (some (r.2.1, r.2.2)))
    | none => .error (0x08, 0)
  | 7 => dt (if !num || t.length ≠ 10 then none
      else (clockSec (two 4) (two 6) (two 8)).bind (fun c => (dayNoYear bs c (two 0) (two 2)).map (fun d =>
        { day := some d, sec := some c, off := some 0 }))) (badPart 10 2 ([(0, 1, 12), (2, 1, 31)] ++ clockParts 4) t)
  | 8 => dt (if !num || t.length ≠ 12 then none
      else (clockSec (two 6) (two 8) (two 10)).bind (fun c => (dayYY bs c (two 0) (two 2) (two 4)).map (fun d =>
        { day := some d, sec := some c }))) (badPart 12 4 ([(2, 1, 12), (4, 1, 31)] ++ clockParts 6) t)
  | 9 => dt (if !num || t.length ≠ 6 then none else (clockSec (two 0) (two 2) (two 4)).map (fun c => { sec := some c }))
      (badPart 6 0 (clockParts 0) t)
  | 10 => dt (if !num || t.length ≠ 4 then none else (dayNoYear bs 0 (two 0) (two 2)).map (fun d => { day := some d }))
      (badPart 4 2 [(0, 1, 12), (2, 1, 31)] t)
  | 11 => dt (if !num || t.length ≠ 4 then none else (dayYY bs 0 (two 0) (two 2) 1).map (fun d => { day := some d }))
      (badPart 4 2 [(2, 1, 12)] t)
  | 12 | 13 =>
    let f := fun (i n : Nat) => digitsNat ((t.drop i).take n)
    let at_ := fun (i : Nat) => t.getD i 0
    let form := fun (n : Nat) => (List.range n).all (fun i => let g := isoForm.getD i 0; if g = 0 then isDigit (at_ i) else decide (at_ i = g))
    let day := if form 10 then civilDay (f 0 4) (f 5 2) (f 8 2) else none
    if conv = 13 then dt (if t.length = 10 then day.map (fun d => { day := some d }) else none) (badIso 10 t)
    else
      let fr := if at_ 19 = 46 then (t.drop 20).takeWhile isDigit else []
      let k := if at_ 19 = 46 then 20 + fr.length else 19
      let off : Option (Option Int) := match t.drop k with
        | [] => some none
        | [90] => some (some 0)
        | [g, a, b, 58, c, e] =>
          if (g = 43 || g = 45) && [a, b, c, e].all isDigit && decide (digitsNat [a, b] < 24 ∧ digitsNat [c, e] < 60) then
            let m : Int := digitsNat [a, b] * 60 + digitsNat [c, e]
            some (some (if g = 45 then -m else m))
          else none
        | _ => none
      let frOk := fr.length ≤ 9 && (at_ 19 ≠ 46 || !fr.isEmpty)
      match (if form 19 then day else none), clockSec (f 11 2) (f 14 2) (f 17 2), off with
      | some d, some c, some o =>
        dt (if frOk then some { day := some d, sec := some c, frac := digitsNat fr * 10 ^ (9 - fr.length), digits := fr.length, off := o }
          else none) (if fr.isEmpty then 20 else 29)
      | some _, some _, none => .error (0x07, if frOk then k else if fr.isEmpty then 20 else 29)
      | _, _, _ => .error (0x07, badIso 19 t)
  | 14 =>
    let hex := fun (c : Nat) => isDigit c || (decide (65 ≤ c) && decide (c ≤ 70)) || (decide (97 ≤ c) && decide (c ≤ 102))
    let v := fun (c : Nat) => if isDigit c then c - 48 else if c ≥ 97 then c - 87 else c - 55
    if !t.all hex then .error (0x01, (t.takeWhile hex).length)
    else if t.length % 2 = 1 then .error (0x01, t.length - 1)
    else .ok (.bin ((List.range (t.length / 2)).map (fun i => BitVec.ofNat 8 (v (t.getD (2 * i) 0) * 16 + v (t.getD (2 * i + 1) 0)))))
  | _ => .error (0x01, 0)

/-- Merge a part into a value already held; none for two values of one part (R98, R99). -/
def SVal.merge : SVal → SVal → Option SVal
  | .amt none c, .amt a none => some (.amt a c)
  | .amt a none, .amt none c => some (.amt a c)
  | .dt x, .dt y =>
    if (x.day.isSome && y.day.isSome) || (x.sec.isSome && y.sec.isSome) then none
    else some (.dt { day := x.day.or y.day, sec := x.sec.or y.sec, frac := x.frac + y.frac, digits := max x.digits y.digits,
                     off := x.off.or y.off })
  | _, _ => none
/-- An amount with both parts is scaled by the currency's exponent; error kind AMOUNT when a digit would be lost. -/
def SVal.scale : SVal → Except Nat SVal
  | .amt (some (m, f, true)) (some (c, e)) =>
    if f > e then .error 0x06
    else
      let v := m * 10 ^ (e - f)
      if v.natAbs ≥ 2 ^ 63 then .error 0x06 else .ok (.amt (some (v, 0, false)) (some (c, e)))
  | v => .ok v

/-- Whether a value just read equals the one held, part by part (EQ). -/
def SVal.agrees (held v : SVal) : Bool :=
  match held, v with
  | .amt a c, .amt x y =>
    (match x with
      | none => true
      | some (m, f, false) => decide (a = some (m, f, false))
      | some (m, f, true) => match a, c with
        | some (n, 0, false), some (_, e) => decide (f ≤ e) && decide (n = m * 10 ^ (e - f))
        | a, _ => decide (a = some (m, f, true)))
      && (y.isNone || decide (c = y))
  | .dt d, .dt e =>
    if e.day.isSome && e.sec.isSome then decide (d = e)
    else (e.day.isNone || decide (d.day = e.day)) && (e.sec.isNone || decide (d.sec = e.sec ∧ d.frac = e.frac))
  | a, b => decide (a = b)
/-- An amount has both its parts, and its currency is in the table (R98). -/
def SVal.currencyOk (cur : List (Nat × Nat × Nat)) : SVal → Bool
  | .amt (some _) (some (c, _)) => cur.any (fun r => r.2.1 = c)
  | .amt _ _ => false
  | _ => true

/-! ### Conversions to side forms -/

/-- The text of a value under CONV, unpadded; an error kind when it cannot be written. -/
def convOut (conv : Nat) (cur : List (Nat × Nat × Nat)) (v : SVal) : Except Nat (List Nat) :=
  let d2 := fun (n : Int) => stnDecDigits 2 n.toNat
  let hms := fun (s : Int) => d2 (s / 3600) ++ d2 (s / 60 % 60) ++ d2 (s % 60)
  match conv, v with
  | 0, .str b => match utf8Text b.length b 0 with
    | .ok (t, _) => .ok (t.map (·.1))
    | .error _ => .error 0x12
  | 0, .bin b => .ok (b.map (·.toNat))
  | 1, .int n => if n < 0 then .error 0x0E else .ok (stnDecDigits 1 n.toNat)
  | 2, .amt (some (m, _, _)) _ => if m < 0 then .error 0x06 else .ok (stnDecDigits 1 m.toNat)
  | 3, .amt (some (m, _, _)) _ => .ok ((if m < 0 then 68 else 67) :: stnDecDigits 1 m.natAbs)
  | 4, .amt (some (m, _, _)) (some (c, _)) =>
    if m < 0 then .error 0x06
    else match cur.find? (fun r => r.2.1 = c) with
      | some (_, _, e) =>
        let ds := stnDecDigits (e + 1) m.toNat
        .ok (if e = 0 then ds else ds.take (ds.length - e) ++ [46] ++ ds.drop (ds.length - e))
      | none => .error 0x08
  | 5, .amt _ (some (c, _)) => if cur.any (fun r => r.2.1 = c) then .ok (stnDecDigits 3 c) else .error 0x08
  | 6, .amt _ (some (c, _)) => match cur.find? (fun r => r.2.1 = c) with
    | some r => .ok [r.1 / 65536 % 256, r.1 / 256 % 256, r.1 % 256]
    | none => .error 0x08
  | 7, .dt d => match d.day, d.sec, d.off with
    | some z, some c, some o =>
      let u := z * 86400 + c - o * 60
      let (_, m, dd) := civilFromDays (u / 86400)
      .ok (d2 m ++ d2 dd ++ hms (u % 86400))
    | _, _, _ => .error 0x07
  | 8, .dt d => match d.day, d.sec with
    | some z, some c =>
      let (y, m, dd) := civilFromDays z
      .ok (d2 (y % 100) ++ d2 m ++ d2 dd ++ hms c)
    | _, _ => .error 0x07
  | 9, .dt d => match d.sec with
    | some c => .ok (hms c)
    | none => .error 0x07
  | 10, .dt d => match d.day with
    | some z =>
      let (_, m, dd) := civilFromDays z
      .ok (d2 m ++ d2 dd)
    | none => .error 0x07
  | 11, .dt d => match d.day with
    | some z =>
      let (y, m, _) := civilFromDays z
      .ok (d2 (y % 100) ++ d2 m)
    | none => .error 0x07
  | 12, .dt d => match d.day, d.sec with
    | some z, some c =>
      let (y, m, dd) := civilFromDays z
      let fr := if d.digits = 0 then [] else 46 :: (stnDecDigits 9 d.frac).take d.digits
      let zone := match d.off with
        | none => []
        | some 0 => [90]
        | some o => (if o < 0 then 45 else 43) :: (d2 (o.natAbs / 60 : Nat) ++ [58] ++ d2 (o.natAbs % 60 : Nat))
      .ok (stnDecDigits 4 y.toNat ++ [45] ++ d2 m ++ [45] ++ d2 dd ++ [84] ++ d2 (c / 3600) ++ [58] ++ d2 (c / 60 % 60) ++ [58]
        ++ d2 (c % 60) ++ fr ++ zone)
    | _, _ => .error 0x07
  | 13, .dt d => match d.day with
    | some z =>
      let (y, m, dd) := civilFromDays z
      .ok (stnDecDigits 4 y.toNat ++ [45] ++ d2 m ++ [45] ++ d2 dd)
    | none => .error 0x07
  | 14, .bin b => .ok (b.flatMap (fun x =>
      let h := fun (n : Nat) => if n < 10 then 48 + n else 55 + n
      [h (x.toNat / 16), h (x.toNat % 16)]))
  | _, _ => .error 0x01

/-! ### Canonical forms of values (Table STN-11) -/

def SVal.type : SVal → Nat
  | .int _ => 1 | .amt _ _ => 2 | .dt _ => 3 | .str _ => 4 | .bin _ => 5
def SVal.bytes : SVal → Bytes
  | .int v => Bytes.ofNatLE 8 (BitVec.ofInt 64 v).toNat
  | .amt a c => Bytes.ofNatLE 8 (BitVec.ofInt 64 (match a with
      | some (m, _, _) => m
      | none => 0)).toNat ++ Bytes.ofNatLE 2 (c.getD (0, 0)).1 ++ Bytes.ofNatLE 1 (c.getD (0, 0)).2
      ++ Bytes.ofNatLE 1 (b2n c.isSome) ++ Bytes.zeros 4
  | .dt d =>
    let ns := ((d.day.getD 0) * 86400 + d.sec.getD 0 - (d.off.getD 0) * 60) * 1000000000 + d.frac
    Bytes.ofNatLE 8 (BitVec.ofInt 64 ns).toNat ++ Bytes.ofNatLE 2 (match d.off with
      | some o => (BitVec.ofInt 16 o).toNat
      | none => 0x8000) ++ Bytes.ofNatLE 1 (b2n d.day.isSome + 2 * b2n d.sec.isSome + 4 * b2n (d.digits ≠ 0))
      ++ Bytes.ofNatLE 1 d.digits ++ Bytes.zeros 4
  | .str b => b
  | .bin b => b
/-- Read a canonical value; none when its form is wrong. -/
def SVal.ofBytes (type : Nat) (b : Bytes) : Option SVal :=
  match type with
  | 1 => if b.length = 8 then some (.int (BitVec.ofNat 64 (Bytes.toNatLE b)).toInt) else none
  | 2 =>
    if b.length ≠ 16 ∨ Bytes.le b 12 4 ≠ 0 ∨ Bytes.le b 11 1 > 1 then none
    else some (.amt (some ((BitVec.ofNat 64 (Bytes.le b 0 8)).toInt, 0, false))
      (if Bytes.le b 11 1 = 1 then some (Bytes.le b 8 2, Bytes.le b 10 1) else none))
  | 3 =>
    if b.length ≠ 16 ∨ Bytes.le b 12 4 ≠ 0 then none
    else
      let off : Option Int := if Bytes.le b 8 2 = 0x8000 then none else some (BitVec.ofNat 16 (Bytes.le b 8 2)).toInt
      let ns := (BitVec.ofNat 64 (Bytes.le b 0 8)).toInt
      let c := ns / 1000000000 + off.getD 0 * 60
      let p := Bytes.le b 10 1
      some (.dt { day := if bit p 0 then some (c / 86400) else none, sec := if bit p 1 then some (c % 86400) else none,
                  frac := (ns % 1000000000).toNat, digits := Bytes.le b 11 1, off := off })
  | 4 => if b.isEmpty then none else some (.str b)
  | 5 => if b.isEmpty then none else some (.bin b)
  | _ => none

end Sys2Proof.Machine
end

