-- ==== Sys2Proof/Machine/StnGrammar.lean ====
section
/-!
DEFINITION. The stencil binary (Tables STN-3, STN-4), the loader's checks (R95), and the parse of an external format
under a grammar (R96, R97, R101 to R103, R105).
-/

namespace Sys2Proof.Machine
open Sys2Proof

/-! ### The binary -/

def stnN (b : Bytes) (o n : Nat) : Nat := Bytes.le b o n
/-- Instruction `i` of the code. -/
def stnInstr (b : Bytes) (i : Nat) : Nat := stnN b (stnN b 28 4 + 8 * i) 8
def iOp (w : Nat) : Nat := bits w 63 56
def iEnc (w : Nat) : Nat := bits w 55 52
def iLenc (w : Nat) : Nat := bits w 51 48
def iConv (w : Nat) : Nat := bits w 47 44
def iCls (w : Nat) : Nat := bits w 43 41
def iM (w : Nat) : Bool := bit w 40
def iField (w : Nat) : Nat := bits w 39 24
def iOpnd (w : Nat) : Nat := bits w 23 0
def iSize (w : Nat) : Nat := bits w 15 0
/-- String `i`: a walk over the length-prefixed entries. -/
def stnStrAt : Nat → Bytes → Option Bytes
  | _, [] => none
  | 0, n :: r => if n = 0 ∨ r.length < n.toNat then none else some (r.take n.toNat)
  | i + 1, n :: r => if n = 0 then none else stnStrAt i (r.drop n.toNat)
def stnStr (b : Bytes) (i : Nat) : Option Bytes := stnStrAt i ((b.take (stnN b 24 4)).drop (stnN b 20 4))
/-- Table `i`: kind, key length, count, and its entries' offset. -/
def stnTab (b : Bytes) (i : Nat) : Nat × Nat × Nat × Nat :=
  let o := stnN b 24 4 + 8 * i
  (stnN b o 1, stnN b (o + 1) 1, stnN b (o + 2) 2, stnN b (o + 4) 4)
/-- The dictionary entry of a field: type, flags, MAXLEN. -/
def stnDict (b : Bytes) (f : Nat) : Option (Nat × Nat × Nat) :=
  ((List.range (stnN b 12 2)).find? (fun i => stnN b (stnN b 16 4 + 8 * i) 2 = f)).map (fun i =>
    let o := stnN b 16 4 + 8 * i
    (stnN b (o + 2) 1, stnN b (o + 3) 1, stnN b (o + 4) 2))
/-- The type of a field: the dictionary's, or for a local field what its conversion gives. -/
def stnType (b : Bytes) (w : Nat) : Nat :=
  match stnDict b (iField w) with
  | some (t, _, _) => t
  | none => match iConv w with
    | 0 => if iEnc w = 8 then 5 else 4
    | 1 => 1
    | 14 => 5
    | c => if c ≤ 6 then 2 else 3
/-- The first table of a kind. -/
def stnTabOf (b : Bytes) (kind : Nat) : Option (Nat × Nat × Nat × Nat) :=
  ((List.range (stnN b 14 2)).find? (fun i => (stnTab b i).1 = kind)).map (stnTab b)
/-- The currency table in force (R98). -/
def stnCur (b : Bytes) : List (Nat × Nat × Nat) :=
  match stnTabOf b 4 with
  | some (_, _, n, o) => (List.range n).map (fun i => (Bytes.be b (o + 6 * i) 3, stnN b (o + 6 * i + 3) 2, stnN b (o + 6 * i + 5) 1))
  | none => isoCurrencies
def stnCharset (b : Bytes) : List Nat :=
  match stnTabOf b 5 with
  | some (_, _, n, o) => (List.range (min n 256)).map (fun i => stnN b (o + 2 * i) 2)
  | none => []
def entryOf (b : Bytes) (side : Nat) : Nat := stnN b (if side = 1 then 36 else 38) 2
def hasSide (b : Bytes) (side : Nat) : Bool := side = 0 || (bit (stnN b 6 2) (side - 1) && entryOf b side ≠ 0xFFFF)

/-- Field-binding operations: FLD, TAG, ATTR, EMITN, SET. -/
def binds (op : Nat) : Bool := [0x01, 0x05, 0x09, 0x0B, 0x42].contains op
def opDefined (op : Nat) : Bool :=
  (1 ≤ op && op ≤ 0x0C) || (0x20 ≤ op && op ≤ 0x28) || (0x40 ≤ op && op ≤ 0x43)
/-- The first field-binding instruction of the block from `i` to before `j`. -/
def blockField (b : Bytes) (i j : Nat) : Option Nat :=
  ((List.range (j - i)).find? (fun k => binds (iOp (stnInstr b (i + k))) && iOp (stnInstr b (i + k)) ≠ 0x42)).map (fun k => stnInstr b (i + k))
/-- The NEXT that ends the loop whose body starts at `i`. -/
def loopEnd (b : Bytes) : Nat → Nat → Nat → Nat
  | 0, i, _ => i
  | fuel + 1, i, d =>
    let op := iOp (stnInstr b i)
    if op = 0x24 then (if d = 0 then i else loopEnd b fuel (i + 1) (d - 1))
    else loopEnd b fuel (i + 1) (if op = 0x23 then d + 1 else d)
def loopEndOf (b : Bytes) (i : Nat) : Nat := loopEnd b (stnN b 32 4) i 0
/-- The instructions that can follow instruction `i` within its routine; a CALL is followed by its return. -/
def stnSucc (b : Bytes) (i : Nat) : List Nat :=
  let w := stnInstr b i
  match iOp w with
  | 0x03 | 0x21 => [i + 1, iOpnd w]
  | 0x20 =>
    let (_, kl, n, o) := stnTab b (iOpnd w)
    (List.range n).map (fun k => stnN b (o + k * (kl + 4) + kl) 2)
  | 0x22 => [iOpnd w]
  | 0x23 => [i + 1, loopEndOf b (i + 1) + 1]
  | 0x26 | 0x27 | 0x28 => []
  | _ => [i + 1]
/-- The instructions reached from those of the list by `next`. -/
def reachLoop (n : Nat) (next : Nat → List Nat) : Nat → List Nat → List Nat → List Nat
  | 0, _, seen => seen
  | _, [], seen => seen
  | fuel + 1, i :: r, seen => if n ≤ i ∨ seen.contains i then reachLoop n next fuel r seen else reachLoop n next fuel (next i ++ r) (i :: seen)
def stnReach (b : Bytes) (next : Nat → List Nat) (from_ : List Nat) : List Nat :=
  let n := stnN b 32 4
  reachLoop n next ((List.range n).foldl (fun a i => a + (next i).length) (from_.length + n)) from_ []
/-- The bits of the IFB instructions that can run after `i`, and where those stand: through calls and jumps, up to the next BMAP
and the grammar's end. `rets` are the returns pending at `i`. -/
def ifbBits (b : Bytes) (i : Nat) (rets : List Nat) : List (Nat × Nat) :=
  let next := fun (k : Nat) =>
    let w := stnInstr b k
    if iOp w = 0x02 then [] else stnSucc b k ++ (if iOp w = 0x25 then [iOpnd w] else [])
  ((stnReach b next (i :: rets)).filter (fun k => iOp (stnInstr b k) = 0x03)).map (fun k => (iField (stnInstr b k), k))
/-- An encoding that Tables STN-4 to STN-6 and STN-9 reserve, in an instruction that uses it. -/
def codeReserved (w : Nat) : Bool :=
  (binds (iOp w) && (decide (9 ≤ iEnc w) || decide (11 ≤ iLenc w) || iConv w = 15 || iCls w = 7)) || (iOp w = 0x02 && decide (9 ≤ iEnc w))
/-- A prefix, which acts on the instruction that follows it (Table STN-8). -/
def isPrefix (op : Nat) : Bool := op = 0x40 || op = 0x41 || op = 0x43

/-! ### The loader's checks (R95) -/

/-- Entry size of a table. -/
def tabEntry (t : Nat × Nat × Nat × Nat) : Nat :=
  match t.1 with
  | 1 => 2 * t.2.1 | 2 => t.2.1 + 4 | 3 => 16 | 4 => 6 | _ => 2
def stnRefs (b : Bytes) (i w : Nat) : Bool :=
  let n := stnN b 32 4
  let tgt := fun (t : Nat) => decide (t < n)
  let str := fun (k : Nat) => (stnStr b k).isSome
  let tab := fun (k kind : Nat) => decide (k < stnN b 14 2) && decide ((stnTab b k).1 = kind)
  let fld := fun (f : Nat) => decide (0xF000 ≤ f) || (stnDict b f).isSome
  match iOp w with
  | 0x01 | 0x05 | 0x0B => fld (iField w)
  | 0x03 => tgt (iOpnd w)
  | 0x07 | 0x08 => str (iOpnd w)
  | 0x09 => fld (iField w) && str (iSize w)
  | 0x0A => str (iOpnd w)
  | 0x0C => iOpnd w ≥ 0x10000 || str (iOpnd w)
  | 0x20 => tab (iOpnd w) 2 && (List.range (stnTab b (iOpnd w)).2.2.1).all (fun k =>
      let t := stnTab b (iOpnd w)
      tgt (stnN b (t.2.2.2 + k * (t.2.1 + 4) + t.2.1) 2))
  | 0x21 => tgt (iOpnd w) && str (iField w)
  | 0x22 | 0x25 => tgt (iOpnd w)
  | 0x23 => decide (loopEndOf b (i + 1) < n) && iOp (stnInstr b (loopEndOf b (i + 1))) = 0x24
  | 0x40 => tab (iOpnd w) 1
  | 0x41 => tab (iOpnd w) 3
  | 0x42 => fld (iField w) && str (iOpnd w)
  | _ => true
/-- The greatest CALL depth reachable from instruction `i`, cut off at `fuel`. -/
def callDepth (b : Bytes) : Nat → Nat → Nat
  | 0, _ => 0
  | fuel + 1, i =>
    ((stnReach b (stnSucc b) [i]).filter (fun k => iOp (stnInstr b k) = 0x25)).foldl
      (fun a k => max a (1 + callDepth b fuel (iOpnd (stnInstr b k)))) 0
/-- LOOPs open at instruction `k`, counted along the code. -/
def loopsAt (b : Bytes) (k : Nat) : Nat :=
  (List.range k).foldl (fun d i => if iOp (stnInstr b i) = 0x23 then d + 1 else if iOp (stnInstr b i) = 0x24 then d - 1 else d) 0
/-- The deepest nest of LOOPs that running from instruction `i` can enter, through calls too, cut off at `fuel`. -/
def loopNest (b : Bytes) : Nat → Nat → Nat
  | 0, _ => 0
  | fuel + 1, i =>
    (stnReach b (stnSucc b) [i]).foldl (fun a k =>
      max a (loopsAt b k - loopsAt b i + (if iOp (stnInstr b k) = 0x25 then loopNest b fuel (iOpnd (stnInstr b k)) else 0))) 0
/-- An instruction that consumes or emits at least one byte (R95). -/
def consumes (w : Nat) : Bool :=
  match iOp w with
  | 0x01 | 0x0B => !(iLenc w = 0 && iSize w = 0)
  | 0x02 | 0x05 | 0x07 | 0x08 | 0x09 | 0x0A | 0x20 => true
  | 0x0C => iOpnd w ≠ 0x10000
  | _ => false
/-- Whether ELEM and ELEND balance, counted along the code: never below zero, zero at each END and where the code ends; and
whether each root element's namespace is a string. -/
def elemBalance (b : Bytes) (ws : List Nat) : Bool × Bool :=
  let r := ws.foldl (fun (a : Nat × Bool × Bool) w =>
    if iOp w = 0x07 then (a.1 + 1, a.2.1, a.2.2 && (a.1 ≠ 0 || (stnStr b (iField w)).isSome))
    else if iOp w = 0x08 then (a.1 - 1, a.2.1 && a.1 ≠ 0, a.2.2)
    else if iOp w = 0x27 then (a.1, a.2.1 && a.1 = 0, a.2.2)
    else a) (0, true, true)
  (r.2.1 && r.1 = 0, r.2.2)
/-- The loader's checks of R95: the refusal code of a stencil (Table SKD-4), 0 when it is accepted. -/
def stnLoad (b : Bytes) : Nat :=
  let n := stnN b 32 4
  let ws := (List.range n).map (stnInstr b)
  let idx := ws.zip (List.range n)
  let limits := stnN b 0 4 ≠ 0x4E54534B || stnN b 4 2 ≠ 1 || stnN b 8 4 ≠ b.length || b.length > 262144 || stnN b 12 2 > 4096
    || stnN b 14 2 > 64 || n > 16384 || stnN b 28 4 % 8 ≠ 0 || stnN b 6 2 > 3 || stnN b 42 2 ≠ 0
    || stnN b 40 1 > 2 || stnN b 41 1 > 2 || stnN b 28 4 + 8 * n > b.length
    || stnN b 16 4 + 8 * stnN b 12 2 > b.length || stnN b 20 4 > b.length || stnN b 24 4 + 8 * stnN b 14 2 > b.length
    || (List.range (stnN b 14 2)).any (fun i =>
      let t := stnTab b i
      decide (t.1 = 0 ∨ t.1 > 5 ∨ t.2.1 = 0 ∨ t.2.1 > 32 ∨ t.2.2.1 > 4096 ∨ t.2.2.2 + tabEntry t * t.2.2.1 > b.length))
  if limits then 0x219
  else if Crypto.sha384 (b.take 48 ++ b.drop 96) ≠ (b.drop 48).take 48 then 0x218
  else if ws.any (fun w => !opDefined (iOp w) || (!binds (iOp w) && ((iEnc w ≠ 0 && iOp w ≠ 0x02) || bits w 51 44 ≠ 0 || iCls w ≠ 0
      || (iM w && iOp w ≠ 0x06)))) then 0x21A
  else if idx.any (fun p => !stnRefs b p.2 p.1) || ([1, 2].any (fun sd => bit (stnN b 6 2) (sd - 1) && decide (entryOf b sd ≥ n)))
      || !(elemBalance b ws).2 then 0x21B
  else
    let deep := [1, 2].any (fun sd => hasSide b sd && decide (callDepth b 18 (entryOf b sd) > 16))
    let nest := [1, 2].any (fun sd => hasSide b sd && decide (loopNest b 18 (entryOf b sd) > 8))
    if deep || nest then 0x21C
    else if !(elemBalance b ws).1 then 0x21D
    else if idx.any (fun p => iOp p.1 = 0x23 && !((List.range (loopEndOf b (p.2 + 1) - (p.2 + 1))).any (fun k =>
        consumes (stnInstr b (p.2 + 1 + k))))) then 0x21E
    else 0

/-! ### The field store (R105) -/

structure FInst where
  id : Nat
  inst : Nat
  val : SVal
  second : Bool := false
  deriving DecidableEq, Repr

/-- An open BER-TLV container: the outer limit, and its values by tag, start, length, and whether bound. -/
structure TlvCont where
  lim : Nat
  item : Nat
  tags : List (Nat × Nat × Nat × Bool)
  /-- opened over a constructed tag, not over the outer field -/
  nested : Bool
  deriving DecidableEq, Repr

/-- The state of a parse. -/
structure PSt where
  pos : Nat := 0
  pc : Nat := 0
  lim : Nat := 0
  store : List FInst := []
  msg : Nat := 0
  calls : List Nat := []
  loops : List (Nat × Nat) := []
  conts : List TlvCont := []
  opens : List (Bytes × Nat) := []
  ns : List (Nat × Bytes × Bytes) := []
  rootNs : Bytes := []
  attrs : List (Bytes × Text) := []
  empty : Bool := false
  xml : Bool := false
  bset : List Nat := []
  last : Nat × Nat := (0, 0)
  item : Nat := 0
  pmap : Option Nat := none
  prange : Option Nat := none
  luhn : Bool := false
  counts : List (Nat × Nat × Nat) := []
  deriving DecidableEq, Repr

abbrev PRes := Except SErr PSt

def PSt.err {α : Type} (s : PSt) (kind off fld : Nat) : Except SErr α :=
  .error { kind := kind, field := fld, item := s.item % 65536, depth := s.opens.length + s.conts.length, off := off, pc := s.pc }
def PSt.fault {α : Type} (s : PSt) : Except SErr α := .error { kind := 0, pc := s.pc, fault := true }
/-- The instance the innermost loop binds. -/
def PSt.inst (s : PSt) : Nat := match s.loops with
  | (_, i) :: _ => i
  | [] => 0
def storeGet (st : List FInst) (f i : Nat) : Option SVal := (st.find? (fun x => x.id = f ∧ x.inst = i)).map (·.val)
def storeBytes (st : List FInst) : Nat := st.foldl (fun a x => a + x.val.bytes.length) 0

/-- Store a value: merged with a part already held, refused when the field is held (DUPLICATE) or the store is full. -/
def PSt.put (s : PSt) (f off : Nat) (v : SVal) : PRes :=
  match storeGet s.store f s.inst with
  | some old => match old.merge v with
    | some m => match m.scale with
      | .ok m => .ok { s with store := s.store.map (fun x => if x.id = f ∧ x.inst = s.inst then { x with val := m } else x) }
      | .error k => s.err k off f
    | none => s.err 0x0F off f
  | none =>
    let st := s.store ++ [({ id := f, inst := s.inst, val := v } : FInst)]
    if st.length > 1024 ∨ storeBytes st > 65536 then s.err 0x11 off f else .ok { s with store := st }

/-- The Luhn check over digits (LUHN). -/
def luhnOk (t : List Nat) : Bool :=
  t.all isDigit &&
  let d := (t.map (· - 48)).reverse
  ((d.zip (List.range d.length)).foldl (fun a p =>
    let v := if p.2 % 2 = 1 then 2 * p.1 else p.1
    a + v / 10 + v % 10) 0) % 10 = 0
/-- MAP: the entry whose first (or second) half equals the value; keys shorter than KEYLEN are zero-filled. -/
def mapFind (b : Bytes) (t : Nat) (rev : Bool) (v : Bytes) : Option Bytes :=
  let (_, kl, n, o) := stnTab b t
  let pad := fun (x : Bytes) => x ++ Bytes.zeros (kl - x.length)
  let strip := fun (x : Bytes) => (x.reverse.dropWhile (· = 0)).reverse
  if v.length > kl then none
  else ((List.range n).find? (fun i => Bytes.slice b (o + 2 * kl * i + (if rev then kl else 0)) kl = pad v)).map (fun i =>
    strip (Bytes.slice b (o + 2 * kl * i + (if rev then 0 else kl)) kl))
def rangeOk (b : Bytes) (t : Nat) (v : SVal) : Bool :=
  let (_, _, _, o) := stnTab b t
  let lo := (BitVec.ofNat 64 (stnN b o 8)).toInt
  let hi := (BitVec.ofNat 64 (stnN b (o + 8) 8)).toInt
  match v with
  | .int n => decide (lo ≤ n ∧ n ≤ hi)
  | .amt (some (n, _, _)) _ => decide (lo ≤ n ∧ n ≤ hi)
  | .str s => let t := s.map (·.toNat)
    t.all isDigit && decide (lo ≤ (digitsNat t : Int) ∧ (digitsNat t : Int) ≤ hi)
  | _ => false

/-- Store a value of instruction `w`, whose text starts at `off` and has its last character at `last`: type, MAP, MAXLEN, RANGE,
LUHN, EQ (Tables STN-4, STN-8). -/
def PSt.bindVal (s : PSt) (b : Bytes) (w off last : Nat) (cps : List Nat) (v : SVal) : PRes :=
  let f := iField w
  let ty := stnType b w
  let mapped : Option SVal := match s.pmap, v with
    | none, v => some v
    | some t, .str x => (mapFind b t false x).map .str
    | some t, .bin x => (mapFind b t false x).map .bin
    | some _, _ => none
  if v.type ≠ ty then s.fault
  else match mapped with
    | none => s.err 0x0D off f
    | some v =>
      if (ty = 4 ∨ ty = 5) ∧ (stnDict b f).any (fun d => decide (d.2.2 < v.bytes.length)) then s.err 0x02 off f
      else if s.prange.any (fun r => !rangeOk b r v) then s.err 0x0E off f
      else if s.luhn && !luhnOk cps then s.err 0x0E last f
      else if bit w 23 && (iOp w = 0x01 || iOp w = 0x09) then
        (if (storeGet s.store f s.inst).any (fun h => h.agrees v) then .ok s else s.err 0x10 off f)
      else s.put f off v
/-- Bind a decoded text to the instruction's field: class, conversion, and the store. -/
def PSt.bind (s : PSt) (b : Bytes) (bs : Int) (w off : Nat) (t : Text) : PRes :=
  let f := iField w
  if t.isEmpty then (if iM w then s.err 0x04 off f else .ok s)
  else match t.find? (fun c => !inClass (iCls w) c.1) with
    | some c => s.err 0x01 c.2 f
    | none =>
      let cps := t.map (·.1)
      match convIn (iConv w) (stnType b w = 5) (stnCur b) bs cps with
      | .error (k, i) => s.err k (t.getD i (0, off)).2 f
      | .ok v => s.bindVal b w off (t.getLastD (0, off)).2 cps v

/-! ### Input pieces -/

/-- Decimal length digits in the side's prefix encoding. -/
def prefixLen (pfx n : Nat) (b : Bytes) : Option Nat :=
  let t := (b.take n).map (charOf pfx [])
  if b.length < n ∨ t.any (fun c => match c with
    | some x => !isDigit x
    | none => true) then none else some (digitsNat (t.map (·.getD 48)))
def bcdLen (n : Nat) (b : Bytes) : Option Nat :=
  let d := (b.take n).flatMap (fun x => [x.toNat / 16, x.toNat % 16])
  if b.length < n ∨ d.any (· > 9) then none else some (d.foldl (fun a x => a * 10 + x) 0)
/-- Units that whole bytes of an encoding hold: a trailing 0xF nibble of left-justified BCD is no digit. -/
def bytesUnits (enc : Nat) (b : Bytes) : Nat :=
  if enc = 6 then 2 * b.length
  else if enc = 7 then 2 * b.length - b2n ((b.getLastD 0).toNat % 16 = 15)
  else b.length
/-- Bytes that `n` units of an encoding take. -/
def unitBytes (enc n : Nat) : Nat := if enc = 6 ∨ enc = 7 then (n + 1) / 2 else n
/-- The units of a field at `s.pos`: number of units and where they start. -/
def PSt.extent (s : PSt) (inp : Bytes) (pfx w : Nat) : Except SErr (Nat × Nat) :=
  let r := (inp.take s.lim).drop s.pos
  let bad {α : Type} : Except SErr α := s.err 0x02 s.pos (iField w)
  let of := fun (o : Option Nat) (k : Nat) => match o with
    | some n => if n > iSize w then bad else .ok (n, s.pos + k)
    | none => bad
  match iLenc w with
  | 0 => .ok (iSize w, s.pos)
  | 1 => of (prefixLen pfx 2 r) 2
  | 2 => of (prefixLen pfx 3 r) 3
  | 3 => of (prefixLen pfx 4 r) 4
  | 4 => of (bcdLen 1 r) 1
  | 5 | 6 => of (bcdLen 2 r) 2
  | 7 => of (if r.isEmpty then none else some (Bytes.be r 0 1)) 1
  | 8 => of (if r.length < 2 then none else some (Bytes.be r 0 2)) 2
  | 10 =>
    let n := bytesUnits (iEnc w) r
    if iEnc w ≠ 5 ∧ n > iSize w then bad else .ok (n, s.pos)
  | _ => s.fault

/-! ### XML (R103) -/

def isWs (b : Byte) : Bool := b = 0x20 || b = 0x09 || b = 0x0A || b = 0x0D
def startsWith (b : Bytes) (p : Bytes) : Bool := b.take p.length = p
/-- Offset just after the first occurrence of `p`. -/
def after (p : Bytes) : Bytes → Nat → Option Nat
  | [], _ => none
  | x :: xs, o => if startsWith (x :: xs) p then some (o + p.length) else after p xs (o + 1)
def ascii (t : String) : Bytes := Bytes.ascii t
/-- Offset of the first byte that is no UTF-8. -/
def utf8Bad (b : Bytes) (o : Nat) : Option Nat := match utf8Text b.length b o with
  | .error e => some e
  | .ok _ => none
/-- A character that XML 1.0 permits. -/
def xmlChar (c : Nat) : Bool :=
  c = 9 || c = 10 || c = 13 || (decide (0x20 ≤ c) && decide (c < 0xD800)) || (decide (0xE000 ≤ c) && decide (c < 0xFFFE))
    || (decide (0x10000 ≤ c) && decide (c < 0x110000))
/-- Bytes of the comment or processing instruction that starts the rest `r` at offset `o`, if one does; a document type
declaration, or an XML declaration out of its place, is an error of kind XML_WF, a byte that is no UTF-8 one of TRANSCODE. -/
def xmlPiece (r : Bytes) (o : Nat) : Except (Nat × Nat) (Option Nat) :=
  let fin := fun (k : Option Nat) => match k with
    | none => Except.error (0x0A, o)
    | some k => match utf8Bad (r.take k) o with
      | some e => .error (0x12, e)
      | none => .ok (some k)
  if startsWith r (ascii "<!--") then fin (after (ascii "-->") (r.drop 4) 4)
  else if startsWith r (ascii "<?") then
    (if ((r.drop 2).take 3).map (fun x => x.toNat % 32) = [24, 13, 12] ∧ (isWs (r.getD 5 0) ∨ r.getD 5 0 = 0x3F) then .error (0x0A, o)
     else fin (after (ascii "?>") (r.drop 2) 2))
  else if startsWith r (ascii "<!DOCTYPE") then .error (0x0A, o)
  else .ok none
/-- Skip whitespace, comments and processing instructions from the rest `r` at offset `o`. -/
def skipMisc : Nat → Bytes → Nat → Except (Nat × Nat) Nat
  | 0, _, o => .ok o
  | fuel + 1, r, o =>
    match r with
    | [] => .ok o
    | x :: xs =>
      if isWs x then skipMisc fuel xs (o + 1)
      else match xmlPiece r o with
        | .error e => .error e
        | .ok (some k) => skipMisc fuel (r.drop k) (o + k)
        | .ok none => .ok o
def isNameEnd (b : Byte) : Bool := isWs b || b = 0x3E || b = 0x2F || b = 0x3D || b = 0x3C
/-- One entity or character reference after `&`: code point and bytes used after the `&`. -/
def entity (r : Bytes) : Option (Nat × Nat) :=
  let body := r.takeWhile (· ≠ 0x3B)
  let n := body.map (·.toNat)
  let used := body.length + 1
  let hex := fun (c : Nat) => if isDigit c then some (c - 48) else if 65 ≤ c ∧ c ≤ 70 then some (c - 55)
    else if 97 ≤ c ∧ c ≤ 102 then some (c - 87) else none
  let char := fun (c : Nat) => if xmlChar c then some (c, used) else none
  if body.length = r.length ∨ body.length > 10 then none
  else if body = ascii "amp" then some (38, used) else if body = ascii "lt" then some (60, used)
  else if body = ascii "gt" then some (62, used) else if body = ascii "quot" then some (34, used)
  else if body = ascii "apos" then some (39, used)
  else match n with
    | 35 :: 120 :: d => if d.isEmpty || d.any (fun c => (hex c).isNone) then none
        else char (d.foldl (fun a c => a * 16 + (hex c).getD 0) 0)
    | 35 :: d => if d.isEmpty || !d.all isDigit then none else char (digitsNat d)
    | _ => none
/-- Text up to the stop byte (`<` for content, the quote for an attribute), entities resolved, CDATA and comments handled
in content. Answers the text and the offset of the stop; an error is a kind and an offset. -/
def xmlText (stop : Byte) : Nat → Bytes → Nat → Except (Nat × Nat) (Text × Nat)
  | 0, _, o => .error (0x0A, o)
  | fuel + 1, r, o =>
    match r with
    | [] => .error (0x0A, o)
    | x :: xs =>
      let go := fun (c k : Nat) => match xmlText stop fuel (r.drop k) (o + k) with
        | .ok (t, e) => .ok ((c, o) :: t, e)
        | .error e => .error e
      if x = 0x3C ∧ stop = 0x3C then
        match xmlPiece r o with
        | .error e => .error e
        | .ok (some k) => xmlText stop fuel (r.drop k) (o + k)
        | .ok none =>
          if startsWith r (ascii "<![CDATA[") then match after (ascii "]]>") (r.drop 9) 9 with
            | some k => match utf8Text r.length ((r.take (k - 3)).drop 9) (o + 9), xmlText stop fuel (r.drop k) (o + k) with
              | .ok (t, _), .ok (u, e) => (match t.find? (fun c => !xmlChar c.1) with
                | some c => .error (0x0A, c.2)
                | none => .ok (t ++ u, e))
              | .error e, _ => .error (0x12, e)
              | _, .error e => .error e
            | none => .error (0x0A, o)
          else .ok ([], o)
      else if x = stop then .ok ([], o)
      else if x = 0x3C ∨ (stop = 0x3C ∧ startsWith r (ascii "]]>")) then .error (0x0A, o)
      else if x = 0x26 then match entity xs with
        | some (c, k) => go c (k + 1)
        | none => .error (0x0A, o)
      else match utf8Head r with
        | some (c, k) => if xmlChar c then go c k else .error (0x0A, o)
        | none => .error (0x12, o)
/-- The attributes of a start tag: names with their text; then the offset after `>` and whether the element is empty. -/
def xmlAttrs : Nat → Bytes → Nat → Except (Nat × Nat) (List (Bytes × Text) × Nat × Bool)
  | 0, _, o => .error (0x0A, o)
  | fuel + 1, r, o =>
    match r with
    | [] => .error (0x0A, o)
    | x :: xs =>
      if isWs x then xmlAttrs fuel xs (o + 1)
      else if x = 0x3E then .ok ([], o + 1, false)
      else if startsWith r (ascii "/>") then .ok ([], o + 2, true)
      else
        let nm := r.takeWhile (fun c => !isNameEnd c)
        let r2 := (r.drop nm.length).dropWhile isWs
        let o2 := o + (r.length - r2.length)
        let r3 := (r2.drop 1).dropWhile isWs
        let o3 := o2 + (r2.length - r3.length)
        if nm.isEmpty ∨ r2.headD 0 ≠ 0x3D then .error (0x0A, o)
        else if nm.length > 64 then .error (0x11, o)
        else if (utf8Bad nm o).isSome then .error (0x12, (utf8Bad nm o).getD o)
        else
          let q := r3.headD 0
          if q ≠ 0x22 ∧ q ≠ 0x27 then .error (0x0A, o3)
          else match xmlText q r3.length (r3.drop 1) (o3 + 1) with
            | .error e => .error e
            | .ok (t, e) =>
            let sep := r3.getD (e + 1 - o3) 0
            if !isWs sep ∧ sep ≠ 0x3E ∧ sep ≠ 0x2F then .error (0x0A, e + 1)
            else match xmlAttrs fuel (r3.drop (e + 1 - o3)) (e + 1) with
              | .ok (as_, f) => if as_.any (fun p => p.1 = nm) then .error (0x0A, o) else .ok ((nm, t) :: as_, f)
              | .error e => .error e
/-- Split a qualified name at its colon. -/
def qname (b : Bytes) : Bytes × Bytes :=
  let p := b.takeWhile (· ≠ 0x3A)
  if p.length = b.length then ([], b) else (p, b.drop (p.length + 1))
/-- The start tag at offset `o`: raw name, attributes, end offset, empty. -/
def startTag (inp : Bytes) (o : Nat) : Except (Nat × Nat) (Option (Bytes × List (Bytes × Text) × Nat × Bool)) :=
  let r := inp.drop o
  if r.headD 0 ≠ 0x3C ∨ r.getD 1 0 = 0x2F ∨ r.getD 1 0 = 0x21 then .ok none
  else
    let nm := (r.drop 1).takeWhile (fun c => !isNameEnd c)
    if nm.isEmpty then .error (0x0A, o)
    else if nm.length > 64 then .error (0x11, o)
    else if (utf8Bad nm (o + 1)).isSome then .error (0x12, (utf8Bad nm (o + 1)).getD o)
    else match xmlAttrs (r.length + 1) (r.drop (1 + nm.length)) (o + 1 + nm.length) with
      | .ok (as_, e, f) => if as_.length > 8 then .error (0x11, o) else .ok (some (nm, as_, e, f))
      | .error e => .error e
/-- The namespace a prefix stands for: the innermost binding. -/
def PSt.nsOf (ns : List (Nat × Bytes × Bytes)) (p : Bytes) : Bytes := match ns.find? (fun x => x.2.1 = p) with
  | some x => x.2.2
  | none => []
/-- The bindings a start tag adds at a depth. -/
def nsAdd (d : Nat) (ns : List (Nat × Bytes × Bytes)) (as_ : List (Bytes × Text)) : List (Nat × Bytes × Bytes) :=
  (as_.filterMap (fun a =>
    if a.1 = ascii "xmlns" then some (d, [], utf8 (a.2.map (·.1)))
    else if startsWith a.1 (ascii "xmlns:") then some (d, a.1.drop 6, utf8 (a.2.map (·.1))) else none)) ++ ns
/-- Bytes of the XML declaration that starts `r`: version 1.0, then encoding UTF-8 or none, then perhaps standalone. -/
def xmlDecl (r : Bytes) : Option Nat :=
  (after (ascii "?>") r 0).bind fun k =>
    let c := (r.take (k - 2)).drop 5
    match xmlAttrs (c.length + 3) (c ++ ascii "/>") 0 with
    | .error _ => none
    | .ok (as_, e, _) =>
      let up := fun (x : Nat) => if 97 ≤ x ∧ x ≤ 122 then x - 32 else x
      let val : Bytes × Text → List Nat := fun a => a.2.map (·.1)
      let str : String → List Nat := fun t => (ascii t).map (·.toNat)
      let ok := fun (a : Bytes × Text) =>
        if a.1 = ascii "version" then decide (val a = str "1.0")
        else if a.1 = ascii "encoding" then decide ((val a).map up = str "UTF-8")
        else a.1 = ascii "standalone" && (decide (val a = str "yes") || decide (val a = str "no"))
      let order := [[ascii "version"], [ascii "version", ascii "encoding"], [ascii "version", ascii "standalone"],
        [ascii "version", ascii "encoding", ascii "standalone"]]
      if e = c.length + 2 ∧ order.contains (as_.map (·.1)) ∧ as_.all ok then some k else none
/-- Position after a byte-order mark and an XML declaration at the start, and any skipped pieces. -/
def PSt.misc (s : PSt) (inp : Bytes) : Except SErr Nat :=
  let p := if s.pos = 0 ∧ startsWith inp [0xEF, 0xBB, 0xBF] then 3 else s.pos
  let r := inp.drop p
  let start := if s.pos = 0 ∧ startsWith r (ascii "<?xml") ∧ isWs (r.getD 5 0) then (xmlDecl r).map (· + p) else some p
  match start with
  | none => s.err 0x0A p 0
  | some p => match skipMisc (inp.length + 1) (inp.drop p) p with
    | .ok o => .ok o
    | .error (k, o) => s.err k o 0
/-- A start tag: where it begins and ends, its name as written and resolved, its attributes, the bindings in force, and whether
the element is empty. -/
structure XStart where
  at_ : Nat
  end_ : Nat
  raw : Bytes
  loc : Bytes
  uri : Bytes
  attrs : List (Bytes × Text)
  ns : List (Nat × Bytes × Bytes)
  empty : Bool
  deriving DecidableEq, Repr
/-- The start tag that comes next, if one does. -/
def PSt.nextElem (s : PSt) (inp : Bytes) : Except SErr (Option XStart) :=
  if s.empty then .ok none
  else match s.misc inp with
    | .error e => .error e
    | .ok o => match startTag inp o with
      | .error (k, e) => s.err k e 0
      | .ok none => .ok none
      | .ok (some (nm, as_, e, f)) =>
        let ns := nsAdd s.opens.length s.ns as_
        .ok (some { at_ := o, end_ := e, raw := nm, loc := (qname nm).2, uri := PSt.nsOf ns (qname nm).1, attrs := as_, ns := ns,
                    empty := f })
/-- The next element has the name, in the namespace of the root once that is open (R103). -/
def PSt.isNext (s : PSt) (x : Option XStart) (name : Bytes) : Bool := x.any (fun x =>
  decide (x.loc = name) && (s.opens.isEmpty || decide (x.uri = s.rootNs)))
/-- Skip one element, from its start tag's offset; `st` are the names open within it, above `d` elements. -/
def skipElem (d : Nat) : Nat → Bytes → Nat → List Bytes → Except (Nat × Nat) Nat
  | 0, _, o, _ => .error (0x0A, o)
  | fuel + 1, inp, o, st =>
    if startsWith (inp.drop o) (ascii "</") then
      let nm := ((inp.drop (o + 2)).takeWhile (fun c => !isNameEnd c))
      let r := (inp.drop (o + 2 + nm.length)).dropWhile isWs
      let e := inp.length - r.length + 1
      match st with
      | t :: ts => if t = nm ∧ r.headD 0 = 0x3E then (if ts.isEmpty then .ok e else skipElem d fuel inp e ts) else .error (0x0A, o)
      | [] => .error (0x0A, o)
    else match startTag inp o with
      | .error e => .error e
      | .ok (some (nm, _, e, f)) =>
        if d + st.length ≥ 32 then .error (0x11, o)
        else if f then (if st.isEmpty then .ok e else skipElem d fuel inp e st) else skipElem d fuel inp e (nm :: st)
      | .ok none => match xmlText 0x3C (inp.length + 1) (inp.drop o) o with
        | .ok (_, e) => if e = o then .error (0x0A, o) else skipElem d fuel inp e st
        | .error e => .error e

/-! ### BER-TLV (R102) -/

/-- The values of a container: tag, start and length of each. On failure the offset of the first offending byte, and the tag where
it is one that came before (`seen`). -/
def tlvList (seen : List Nat) : Nat → Bytes → Nat → Except (Nat × Option Nat) (List (Nat × Nat × Nat × Bool))
  | 0, _, _ => .ok []
  | fuel + 1, r, o =>
    match r with
    | [] => .ok []
    | h :: _ =>
      let more := h.toNat % 32 = 31
      let tl := if !more then 1 else if (r.getD 1 0).toNat < 128 then 2 else 3
      let tag := Bytes.be r 0 tl
      let l0 := (r.getD tl 0).toNat
      if tl = 3 ∧ (r.getD 2 0).toNat ≥ 128 then .error (o + 2, none)
      else if seen.contains tag then .error (o, some tag)
      else if r.length < tl + 1 then .error (o, none)
      else
        let (ll, n) := if l0 < 128 then (1, l0) else if l0 = 0x81 then (2, Bytes.be r (tl + 1) 1) else (3, Bytes.be r (tl + 1) 2)
        if (l0 ≥ 128 ∧ l0 ≠ 0x81 ∧ l0 ≠ 0x82) ∨ r.length < tl + ll + n then .error (o + tl, none)
        else match tlvList (tag :: seen) fuel (r.drop (tl + ll + n)) (o + tl + ll + n) with
          | .ok ts => .ok ((tag, o + tl + ll, n, false) :: ts)
          | .error e => .error e

/-! ### The parse of one instruction -/

/-- The bytes of a bitmap under its encoding: 8 binary, or 16 hexadecimal characters. -/
def bitmapBits (enc : Nat) (cs : List Nat) (r : Bytes) : Option (List Nat × Nat) :=
  if enc = 8 then
    (if r.length < 8 then none else some ((List.range 64).filter (fun i => bit (Bytes.be r 0 8) (63 - i)), 8))
  else
    let t := (r.take 16).map (charOf enc cs)
    let v := fun (c : Nat) => if isDigit c then some (c - 48) else if 65 ≤ c ∧ c ≤ 70 then some (c - 55)
      else if 97 ≤ c ∧ c ≤ 102 then some (c - 87) else none
    let d := t.map (fun c => c.bind v)
    if r.length < 16 ∨ d.any (·.isNone) then none
    else
      let n := d.foldl (fun a x => a * 16 + x.getD 0) 0
      some ((List.range 64).filter (fun i => bit n (63 - i)), 16)
/-- The first byte that keeps a bitmap from being read: a character that is no hexadecimal digit, else its start. -/
def bitmapBad (enc : Nat) (cs : List Nat) (r : Bytes) : Nat :=
  let hex := fun (x : Byte) => match charOf enc cs x with
    | some c => isDigit c || (decide (65 ≤ c) && decide (c ≤ 70)) || (decide (97 ≤ c) && decide (c ≤ 102))
    | none => false
  let k := ((r.take 16).takeWhile hex).length
  if enc = 8 ∨ k = (r.take 16).length then 0 else k
/-- BMAP: the bitmaps that are present, and the position after them. -/
def PSt.bmap (s : PSt) (b inp : Bytes) (w : Nat) : PRes :=
  let cs := stnCharset b
  let at_ := fun (p : Nat) => (inp.take s.lim).drop p
  let rd := fun (p : Nat) => bitmapBits (iEnc w) cs (at_ p)
  -- the byte that holds bit `n`
  let byteOfBit := fun (n : Nat) => s.pos + (n - 1) / (if iEnc w = 8 then 8 else 4)
  -- the bitmaps from the `k`-th at `p`, `more` of them at most, each called for by the first bit of the one before
  let rec go : Nat → Nat → Nat → Except SErr (List Nat × Nat)
    | 0, k, _ => s.err 0x03 (byteOfBit (64 * (k - 1) + 1)) 0
    | more + 1, k, p => match rd p with
      | none => s.err 0x03 (p + bitmapBad (iEnc w) cs (at_ p)) 0
      | some (ps, n) =>
        let here := ps.map (· + 64 * k + 1)
        if ps.contains 0 ∧ k < 2 then match go more (k + 1) (p + n) with
          | .ok (r, o) => .ok (here ++ r, o)
          | .error e => .error e
        else .ok (here, p + n)
  match go (min 3 (iOpnd w)) 0 s.pos with
  | .error e => .error e
  | .ok (ps, o) =>
    let set_ := ps.filter (fun n => n ≠ 1 ∧ n ≠ 65)
    let known := (ifbBits b (s.pc + 1) s.calls).map (·.1)
    match set_.find? (fun n => !known.contains n) with
    | some n => ({ s with item := n }).err 0x03 (byteOfBit n) 0
    | none => .ok { s with bset := set_, pos := o, pc := s.pc + 1 }

/-- FLD and EMITN: read the field's text. -/
def PSt.fieldText (s : PSt) (b inp : Bytes) (pfx w : Nat) : Except SErr (Text × PSt) :=
  if iLenc w = 9 then
    if s.empty then .ok ([], s)
    else match xmlText 0x3C (inp.length + 1) (inp.drop s.pos) s.pos with
      | .ok (t, e) => if t.length > iSize w then s.err 0x02 s.pos (iField w) else .ok (t, { s with pos := e, last := (s.pos, e - s.pos) })
      | .error (k, e) => s.err k e (iField w)
  else match s.extent inp pfx w with
    | .error e => .error e
    | .ok (n, o) =>
      let bad := s.err 0x02 s.pos (iField w)
      let r := (inp.take s.lim).drop o
      if iEnc w = 5 then match utf8Text n r o with
        | .ok (t, e) =>
          if (iLenc w ≠ 10 ∧ t.length < n) ∨ (iLenc w = 10 ∧ iSize w < t.length) then bad else .ok (t, { s with pos := e, last := (o, e - o) })
        | .error e => s.err 0x12 e (iField w)
      else
        let k := unitBytes (iEnc w) n
        if o + k > s.lim then bad
        else match decodeUnits (iEnc w) (stnCharset b) n (r.take k) o with
          | .ok t => .ok (t, { s with pos := o + k, last := (o, k) })
          | .error (kd, e) => s.err kd e (iField w)

/-- A grammar that reaches END: no input is left, and the counts read agree (Table STN-8). -/
def PSt.finish (s : PSt) (inp : Bytes) : PRes :=
  match (if s.xml then s.misc inp else .ok s.pos) with
  | .error e => .error e
  | .ok o =>
    if o ≠ inp.length then s.err 0x0C o 0
    else match s.counts.find? (fun c => (s.store.filter (fun x => x.id = c.1)).length ≠ c.2.1) with
      | some c => s.err 0x10 c.2.2 c.1
      | none => .ok { s with pos := o }
/-- Index of the first place where two lists differ. -/
def firstDiff : List Nat → List Nat → Option Nat
  | [], [] => none
  | x :: xs, y :: ys => if x = y then (firstDiff xs ys).map (· + 1) else some 0
  | _, _ => some 0

/-- One instruction in parse mode; true at END. -/
def PSt.stepOp (s : PSt) (b inp : Bytes) (pfx : Nat) (bs : Int) : Except SErr (PSt × Bool) :=
  let w := stnInstr b s.pc
  if s.pc ≥ stnN b 32 4 ∨ codeReserved w then s.fault
  else
    let nx := fun (s : PSt) => (.ok ({ s with pc := s.pc + 1 }, false) : Except SErr (PSt × Bool))
    let jmp := fun (s : PSt) (p : Nat) => (.ok ({ s with pc := p }, false) : Except SErr (PSt × Bool))
    let andThen := fun (r : PRes) => match r with
      | .ok s => nx s
      | .error e => .error e
    let strOf := fun (i : Nat) => (stnStr b i).getD []
    match iOp w with
    | 0x01 => match s.fieldText b inp pfx w with
      | .ok (t, s') => andThen (s'.bind b bs w s'.last.1 t)
      | .error e => .error e
    | 0x02 => match s.bmap b inp w with
      | .ok s => .ok (s, false)
      | .error e => .error e
    | 0x03 =>
      if s.bset.contains (iField w) then nx { s with item := iField w }
      else match blockField b (s.pc + 1) (iOpnd w) with
        | some fw => if iM fw then ({ s with item := iField w }).err 0x04 s.pos (iField fw) else jmp s (iOpnd w)
        | none => jmp s (iOpnd w)
    | 0x04 =>
      let nested := iOp (stnInstr b (s.pc - 1)) = 0x05
      if nested ∧ (s.conts.filter (·.nested)).length ≥ 8 then s.err 0x11 s.last.1 0
      else match tlvList [] (inp.length + 1) ((inp.drop s.last.1).take s.last.2) s.last.1 with
        | .ok ts => nx { s with conts := { lim := s.lim, item := s.item, tags := ts, nested := nested } :: s.conts, lim := s.last.1 + s.last.2 }
        | .error (o, t) => ({ s with item := t.getD s.item % 65536 }).err 0x09 o 0
    | 0x05 => match s.conts with
      | [] => s.fault
      | c :: cs =>
        let s := { s with item := iOpnd w % 65536 }
        match c.tags.find? (fun t => t.1 = iOpnd w) with
        | none => if iM w then s.err 0x04 s.pos (iField w) else nx s
        | some (_, o, n, _) =>
          let c' := { c with tags := c.tags.map (fun t => if t.1 = iOpnd w then (t.1, t.2.1, t.2.2.1, true) else t) }
          let v := (inp.drop o).take n
          match decodeUnits (iEnc w) (stnCharset b) (bytesUnits (iEnc w) v) v o with
          | .ok t => andThen (({ s with conts := c' :: cs, last := (o, n) }).bind b bs w o t)
          | .error (k, e) => s.err k e (iField w)
    | 0x06 => match s.conts with
      | [] => s.fault
      | c :: cs =>
        match c.tags.find? (fun t => !t.2.2.2) with
        | some t => if iM w then ({ s with item := t.1 % 65536 }).err 0x09 t.2.1 0 else nx { s with conts := cs, lim := c.lim, item := c.item }
        | none => nx { s with conts := cs, lim := c.lim, item := c.item }
    | 0x07 => match s.nextElem inp with
      | .error e => .error e
      | .ok none => ({ s with item := iOpnd w % 65536 }).err 0x0B s.pos 0
      | .ok (some x) =>
        let s := { s with item := iOpnd w % 65536 }
        let d := s.opens.length
        let root := if d = 0 then strOf (iField w) else s.rootNs
        if x.loc ≠ strOf (iOpnd w) ∨ x.uri ≠ root then s.err 0x0B x.at_ 0
        else if d ≥ 32 then s.err 0x11 x.at_ 0
        else nx { s with opens := (x.raw, iOpnd w % 65536) :: s.opens, ns := x.ns, rootNs := root, attrs := x.attrs, empty := x.empty,
                         xml := true, pos := x.end_ }
    | 0x08 => match s.opens with
      | [] => s.fault
      | (nm, _) :: os =>
        let it := match os with
          | (_, i) :: _ => i
          | [] => s.item
        let pop := { s with opens := os, ns := s.ns.filter (fun x => x.1 < os.length), attrs := [], empty := false, item := it }
        if s.empty then nx pop
        else match s.misc inp with
          | .error e => .error e
          | .ok o =>
            let r := inp.drop o
            let got := (r.drop 2).takeWhile (fun c => !isNameEnd c)
            let r2 := (r.drop (2 + got.length)).dropWhile isWs
            if !startsWith r (ascii "</") then s.err 0x0B o 0
            else if got ≠ nm ∨ r2.headD 0 ≠ 0x3E then s.err 0x0A o 0
            else nx { pop with pos := inp.length - r2.length + 1 }
    | 0x09 =>
      let name := strOf (iSize w)
      match s.attrs.find? (fun a => (qname a.1).2 = name ∧ (qname a.1).1 = []) with
      | some (_, t) => andThen (s.bind b bs w (match t with
          | (_, o) :: _ => o
          | [] => s.pos) t)
      | none => if iM w then s.err 0x04 s.pos (iField w) else nx s
    | 0x0A =>
      let l := strOf (iOpnd w)
      if s.xml then
        if s.empty then s.err 0x05 s.pos 0
        else match xmlText 0x3C (inp.length + 1) (inp.drop s.pos) s.pos with
          | .ok (t, e) => (match utf8Text l.length l 0 with
            | .ok (lt, _) => match firstDiff (t.map (·.1)) (lt.map (·.1)) with
              | none => nx { s with pos := e }
              | some i => s.err 0x05 (t.getD i (0, e)).2 0
            | .error _ => s.err 0x05 s.pos 0)
          | .error (k, e) => s.err k e 0
      else
        let r := ((inp.take s.lim).drop s.pos).take l.length
        match firstDiff (r.map (·.toNat)) (l.map (·.toNat)) with
        | none => nx { s with pos := s.pos + l.length }
        | some i => s.err 0x05 (s.pos + i) 0
    | 0x0B => match s.fieldText b inp pfx w with
      | .error e => .error e
      | .ok (t, s') =>
        let d := t.map (·.1)
        if d.isEmpty || !d.all isDigit then s.err 0x01 (t.getD (badDigit d) (0, s.pos)).2 (iField w)
        else nx { s' with counts := s'.counts ++ [(iField w, digitsNat d, s.pos)] }
    | 0x0C =>
      if iOpnd w ≥ 0x10000 then
        (if s.pos + (iOpnd w - 0x10000) > s.lim then s.err 0x02 s.pos 0 else nx { s with pos := s.pos + (iOpnd w - 0x10000) })
      else match s.nextElem inp with
        | .error e => .error e
        | .ok none => s.err 0x0B s.pos 0
        | .ok (some x) =>
          if !s.isNext (some x) (strOf (iOpnd w)) then s.err 0x0B x.at_ 0
          else match skipElem s.opens.length (inp.length + 1) inp x.at_ [] with
            | .ok e => nx { s with pos := e }
            | .error (k, e) => s.err k e 0
    | 0x20 =>
      let (_, kl, n, o) := stnTab b (iOpnd w)
      match (List.range n).find? (fun i => Bytes.slice b (o + i * (kl + 4)) kl = (inp.drop s.pos).take kl) with
      | some i =>
        jmp { s with pos := s.pos + kl, msg := stnN b (o + i * (kl + 4) + kl + 2) 2 } (stnN b (o + i * (kl + 4) + kl) 2)
      | none => s.err 0x13 s.pos 0
    | 0x21 => match s.nextElem inp with
      | .error e => .error e
      | .ok x => if s.isNext x (strOf (iField w)) then nx s else jmp s (iOpnd w)
    | 0x22 => jmp s (iOpnd w)
    | 0x23 =>
      let body := blockElem b (s.pc + 1)
      let i := match s.loops with
        | (p, i) :: _ => if p = s.pc then i + 1 else 0
        | [] => 0
      let rest := match s.loops with
        | (p, _) :: r => if p = s.pc then r else s.loops
        | [] => []
      (match s.nextElem inp with
      | .error e => .error e
      | .ok x =>
        if body.any (fun q => s.isNext x (strOf q)) ∧ i < iOpnd w then nx { s with loops := (s.pc, i) :: rest }
        else jmp { s with loops := rest } (loopEndOf b (s.pc + 1) + 1))
    | 0x24 => match s.loops with
      | (p, _) :: _ => jmp s p
      | [] => s.fault
    | 0x25 => if s.calls.length ≥ 16 then s.fault else jmp { s with calls := (s.pc + 1) :: s.calls } (iOpnd w)
    | 0x26 => match s.calls with
      | p :: r => jmp { s with calls := r } p
      | [] => s.fault
    | 0x27 => match s.finish inp with
      | .ok s => .ok (s, true)
      | .error e => .error e
    | 0x28 => s.err (iOpnd w % 256) s.pos 0
    | 0x40 => nx { s with pmap := some (iOpnd w) }
    | 0x41 => nx { s with prange := some (iOpnd w) }
    | 0x42 =>
      let cps := (strOf (iOpnd w)).map (·.toNat)
      match convIn (iConv w) (stnType b w = 5) (stnCur b) bs cps with
      | .ok v => andThen (s.bindVal b w s.pos s.pos cps v)
      | .error (k, _) => s.err k s.pos (iField w)
    | 0x43 => nx { s with luhn := true }
    | _ => s.fault
where
  /-- The element name index of a loop body's first ELEM. -/
  blockElem (b : Bytes) (i : Nat) : Option Nat :=
    ((List.range (loopEndOf b i - i)).find? (fun k => iOp (stnInstr b (i + k)) = 0x07)).map (fun k => iOpnd (stnInstr b (i + k)))

/-- One instruction in parse mode. A prefix acts on the instruction that follows it and no further (Table STN-8). -/
def PSt.step (s : PSt) (b inp : Bytes) (pfx : Nat) (bs : Int) : Except SErr (PSt × Bool) :=
  match s.stepOp b inp pfx bs with
  | .error e => .error e
  | .ok (t, e) => .ok (if isPrefix (iOp (stnInstr b s.pc)) then t else { t with pmap := none, prange := none, luhn := false }, e)
/-- Run a grammar in parse mode. -/
def parseLoop (b inp : Bytes) (pfx : Nat) (bs : Int) : Nat → PSt → PRes
  | 0, s => s.fault
  | fuel + 1, s => match s.step b inp pfx bs with
    | .error e => .error e
    | .ok (s, true) => .ok s
    | .ok (s, false) => parseLoop b inp pfx bs fuel s
def stnFuel : Nat := 1048576
/-- Parse a side of the stencil into a field store. -/
def parseSide (b : Bytes) (side : Nat) (inp : Bytes) (bs : Int) : PRes :=
  parseLoop b inp (stnN b (39 + side) 1) bs stnFuel { pc := entryOf b side, lim := inp.length }

end Sys2Proof.Machine
end

