-- ==== Sys2Proof/Machine/Items.lean ====
section
/-!
DEFINITION. The items of the protection set-up (Table STR-7): PROT (R366), the checks made before a ticket opens (R88,
R95, R358), phase one (R368), and what each item does at its epoch of effect (R349, R357, R359, R361, R367, R369, R373).
-/

namespace Sys2Proof.Machine
open Sys2Proof

/-! ### The protection set-up as PROT sees it (R366) -/

/-- An officer's role as a number. -/
def roleNum : Role → Nat
  | .security => 0
  | .operations => 1
  | .audit => 2
  | .service => 3
/-- The content of each item of Table STR-7 that PROT covers, as numbers in a fixed order. -/
def State.itemNums (s : State) (kind : Nat) : List Nat :=
  let bs := fun (b : Bytes) => b.length :: b.map (·.toNat)
  match kind with
  | 0x01 => s.firewall.flatMap (fun (p : Nat × FirewallEntry) => [p.1, p.2.read, p.2.tileWrite, p.2.shelf, p.2.control, p.2.mbx])
  | 0x02 => s.windows.flatMap (fun w => [w.port, w.ridLo, w.ridHi, w.base, w.limit, b2n w.r, b2n w.w])
  | 0x03 => (s.str.policies.flatMap (fun (p : Nat × Option Policy) => match p.2 with
      | some q => [p.1, q.lanes, q.units, q.flags] ++ q.derived ++ [q.limit, q.warn, q.validFrom, q.validUntil]
      | none => [])) ++ s.str.inline.flatMap (fun (p : Nat × Nat) => [p.1, p.2])
  | 0x05 => s.str.slots.flatMap (fun (p : Nat × KeySlot) => if p.2.held ∧ p.2.route = 2 then [p.1, p.2.cls, p.2.policy] ++ bs p.2.kcv else [])
  | 0x06 => s.str.slots.flatMap (fun (p : Nat × KeySlot) => if p.2.held ∧ p.2.route = 3 then [p.1, p.2.cls, p.2.policy] ++ bs p.2.kcv else [])
  | 0x10 => [s.str.rootGen]
  | 0x11 => match s.twin.dom with
    | some d => [d.domain] ++ bs d.membershipRoot ++ [d.config, d.configMin, d.configMax, d.leaseLen, d.rhaxPort] ++ d.witness
        ++ [b2n d.pairEn, b2n d.takeoverEn] ++ bs d.ticketKey ++ [d.ticketLife, d.ptpDomain, d.ptpPrimary, d.ptpBackup, d.pauseMask] ++ d.portModes
    | none => []
  | 0x12 => (s.net.addrs.flatMap (fun (p : Nat × Option LocalAddr) => match p.2 with
      | some a => p.1 :: (bs a.ip ++ [a.prefixLen, a.port, (a.vlan.map (· + 1)).getD 0, a.mtu, b2n a.fabric, a.homeSet] ++ bs a.gateway)
      | none => [])) ++ (s.net.listeners.flatMap (fun (p : Nat × Option Listener) => match p.2 with
      | some l => [p.1, l.addr, l.flags, l.framing, l.policy, l.lport, l.lanes, l.cred, l.trust, l.rcvbuf, l.sndbuf, l.handshake,
          l.msg, l.idle, l.stall, l.linger, l.rtoMin, l.maxSess]
      | none => [])) ++ s.net.trust.flatMap (fun (p : Nat × Bytes) => p.1 :: bs p.2)
  | 0x15 => s.str.roster.flatMap (fun o => [o.slot, roleNum o.role, o.alg] ++ bs o.pub)
  | 0x16 => s.str.admin
  | _ => []
/-- PROT: SHA-384 over the marked items in kind order, each preceded by kind and length; a KEY_DESTROY holds nothing once it is
applied. -/
def State.prot (s : State) : Bytes :=
  Crypto.sha384 ([0x01, 0x02, 0x03, 0x05, 0x06, 0x07, 0x10, 0x11, 0x12, 0x15, 0x16].flatMap (fun k =>
    let b := Config.itemBytes k (s.itemNums k)
    Bytes.ofNatLE 2 k ++ Bytes.ofNatLE 4 b.length ++ b))
/-! ### Homes (R158, R179) -/

/-- The rings and lanes of a home mask: home rings and ring 16 go on line, the other lanes become mirrors. -/
def State.applyHome (s : State) (mask : Nat) : State :=
  let s := { s with twin := { s.twin with home := mask } }
  let s := s.modRing 16 (fun r => { r with online := true })
  (List.range 16).foldl (fun s k =>
    let own := bit mask k
    let s := s.modRing k (fun r => { r with online := own })
    s.modLane k (fun l => { l with st := if own then (if l.st = 5 then 0 else l.st) else (if l.st = 0 ∨ l.st = 1 then 5 else l.st) })) s

/-! ### Lane programs and stencils (R88, R319, R349) -/

/-- An offset in code is even and inside it. -/
def imgOffOk (img : Bytes) (o : Nat) : Bool := decide (o < imgCodeSize img) && o % 2 = 0
/-- The class runs shed paths alone, which are outbound phases (R57): another enabled class names it in SHED_CLASS. -/
def Lane.shedOnly (l : Lane) (c : Nat) : Bool :=
  c ≠ 0 && (List.range 32).any (fun d => d ≠ c && bit (l.cls d 0) 0 && bits (l.cls d 0) 23 19 = c)
/-- The refusal code of an image for lane `n` (R88); 0 when it is accepted. An enabled class uses its outbound phase, and its
inbound phase unless it runs shed paths alone (log 62). -/
def State.imageCode (s : State) (n : Nat) (staged : Bool) (img : Bytes) : Nat :=
  let entries := (List.range 32).flatMap (fun c => [imgEntry img c false, imgEntry img c true])
  let win := fun (i : Nat) =>
    let w := imgWin img i
    w.2.1 = 0 || (decide (dramBase ≤ w.1) && decide (w.1 + w.2.1 ≤ s.dramTop) && w.1 % 4096 = 0)
  if Bytes.le img 0 4 ≠ 0x5954534B ∨ Bytes.le img 4 2 ≠ 1 ∨ img.length ≠ 368 + imgCodeSize img + imgLarder img
      ∨ Crypto.sha384 (img.take 320 ++ img.drop 368) ≠ img.slice 320 48 then 0x0210
  else if !imgOffOk img (imgTrap img) ∨ !imgOffOk img (imgService img)
      ∨ entries.any (fun e => decide (e ≠ 0xFFFFFFFF) && !imgOffOk img e) then 0x0211
  else if (List.range 32).any (fun c => bit ((s.lane n).cls c 0) 0
      && ((imgEntry img c false = 0xFFFFFFFF && !(s.lane n).shedOnly c) || imgEntry img c true = 0xFFFFFFFF)) then 0x0212
  else if imgLarder img + 8 * imgScratch img > 2 ^ 21 then 0x0213
  else if !win 0 ∨ !win 1 then 0x0214
  else if imgBoth img ∧ staged then 0x0215 else 0
/-- The distinct images and stencils in use by any lane. -/
def State.storeItems (s : State) : List Bytes :=
  (s.lanes.foldl (fun a (p : Nat × Lane) =>
    a ++ [p.2.image0, p.2.image1] ++ p.2.stencils.map (·.2) ++ p.2.oldStencils.map (·.2)) []).eraseDups
/-- The lane store in flash has room for one more image or stencil (R319). -/
def State.storeFits (s : State) (b : Bytes) : Bool :=
  let xs := s.storeItems
  xs.contains b || decide (xs.foldl (fun a x => a + x.length) 0 + b.length ≤ 8 * 2 ^ 20)
/-- The stencil store of a lane, at the top of its larder, has room for one more stencil (R93). -/
def Lane.stnFits (l : Lane) (b : Bytes) : Bool :=
  let used := (l.stencils.map (·.2) ++ l.oldStencils.map (·.2)).foldl (fun a x => a + x.length) 0
  decide (used + b.length ≤ min (2 ^ 20) (imgLarder (l.image l.bank)))

def maskLanes (m : Nat) : List Nat := (List.range 16).filter (fun k => bit m k)

/-! ### Keys (R352 to R358) -/

/-- Bytes of key material of a class as the pool holds it (R352); symmetric keys as they come. -/
def poolUnits (m : Bytes) : Nat := cdiv m.length 32
def isAsymCls (c : Nat) : Bool := (decide (1 ≤ c) && decide (c ≤ 0x10)) || c = 0x22 || c = 0x2B || c = 0x2C
def isPublicCls (c : Nat) : Bool := [0x02, 0x04, 0x06, 0x0A, 0x0B, 0x0C, 0x0E, 0x10, 0x2C].contains c
def isTdesCls (c : Nat) : Bool := [0x13, 0x14, 0x16, 0x18].contains c
/-- The KCV of a key (R358). No rule states an HMAC key's: it is a free value. -/
def keyKcv (c : Nat) (m : Bytes) : Bytes :=
  if isAsymCls c then (Crypto.sha256 (if isPublicCls c then m else Config.publicOf c m)).take 4
  else if isTdesCls c then (Crypto.tdesEnc m (Bytes.zeros 8)).take 3
  else if c = 0x11 ∨ c = 0x29 then (Config.itemBytes 0x11 (m.map (·.toNat))).take 3
  else (Crypto.cmac m (Bytes.zeros 16)).take 3
/-- Bytes of key material a generated key has. -/
def genLen (c : Nat) : Nat := if c = 0x03 ∨ c = 0x22 then 48 else if c = 0x13 ∨ c = 0x14 ∨ c = 0x16 ∨ c = 0x18 then 24 else 32
def State.setSlot (s : State) (i : Nat) (k : KeySlot) : State :=
  { s with str := { s.str with slots := SMap.set {} i k s.str.slots } }
/-- Free units of the key pool: the slots from 16 and the reservations take theirs (R352, R358). -/
def State.poolFree (s : State) : Nat :=
  10240 - s.str.slots.foldl (fun a (p : Nat × KeySlot) => if p.1 ≥ 16 ∧ p.2.held then a + poolUnits p.2.material else a) 0
    - s.str.reserved.foldl (fun a p => a + p.2) 0
/-- The reason a slot does not take a key (Table STR-4); 0 when it does. -/
def State.slotReason (s : State) (i cls pol : Nat) (replace : Bool) (units : Nat) : Nat :=
  let z := s.slot i
  if i < 16 then 0x21
  else if (z.held ∧ !replace) ∨ s.str.reserved.any (fun p => p.1 = i) ∨ z.gen ≥ 65535 then 0x20
  else if s.poolFree < units then 0x21
  else if !((decide (1 ≤ cls) && decide (cls ≤ 0x19)) || cls = 0x20 || cls = 0x21) then 0x22
  else if (s.policy pol).isNone then 0x25 else 0
/-- A key takes its slot: the old one is erased and GEN rises (R352, R357). -/
def State.installKey (s : State) (i cls pol route : Nat) (mat : Bytes) : State :=
  let z := s.slot i
  let g := z.gen + 1
  let kcv := keyKcv cls mat
  let s := s.setSlot i { gen := g, cls := cls, policy := pol, material := mat, held := true, uses := 0, kcv := kcv, route := route }
  let s : State := { s with str := { s.str with reserved := s.str.reserved.filter (fun p => p.1 ≠ i) } }
  s.policyRec (0x0F + route) 0 0 0 [] (Bytes.ofNatLE 8 (mkHandle pol cls g i) ++ kcv)
/-- A slot's own key set by a route of Table STR-2. -/
def State.setOwn (s : State) (i cls : Nat) (mat : Bytes) : State :=
  let z := s.slot i
  s.setSlot i { gen := z.gen + 1, cls := cls, material := mat, held := true, kcv := keyKcv cls mat }
def State.moveSlot (s : State) (i j : Nat) : State :=
  let z := s.slot i
  let o := s.slot j
  if z.held then s.setSlot j { z with gen := o.gen + 1 } else s
/-- A slot's material is erased (R359); its GEN stays for the next key. -/
def State.eraseSlot (s : State) (i : Nat) : State := s.setSlot i { gen := (s.slot i).gen }

/-! ### Phase one (R368) -/

/-- The first refusal a lane or unit answers to PREPARE: the lane mask and the code; none when all are ready. -/
def State.phaseOne (s : State) (it : Item) : Option (Nat × Nat) :=
  let pick := fun (m : Nat) (bad : Nat → Bool) (code : Nat) =>
    let f := (maskLanes m).foldl (fun a k => if bad k then a + 2 ^ k else a) 0
    if f = 0 then none else some (f, code)
  match it with
  | .laneLoad m staged _ _ => if staged then pick m (fun k => (s.lane k).oldBusy) 0x0224 else none
  | .stencil m _ b => pick m (fun k => !(s.lane k).stnFits b) 0x021F
  | .keyGen _ => if s.str.lapsed then some (0, 0x1111) else none
  | _ => none

/-! ### The epoch of effect (R349, R357, R359, R361, R369) -/

/-- One lane takes a new program: a staged load switches banks (R68), a reset load resets the lane (R349). -/
def State.loadLane (s : State) (n : Nat) (staged admitOn : Bool) (img : Bytes) : State :=
  let larder := fun (l : Lane) => { l with
    tmem := memWrite l.tmem (larderBase img) (img.drop (368 + imgCodeSize img)) }
  if staged then
    s.modLane n (fun l =>
      let b := 1 - l.bank
      let busy := (List.range 8).any (fun t => decide ((l.thr t).run ≠ .idle))
      larder { l with bank := b, oldBusy := busy, image0 := if b = 0 then img else l.image0,
                      image1 := if b = 0 then l.image1 else img })
  else
    let st := (s.lane n).st
    if st = 5 ∨ st = 6 then s.modLane n (fun l => larder { l with bank := 0, image0 := img, image1 := [], oldBusy := false })
    else
      let s := s.startReset n 272
      s.modLane n (fun l => match l.reset with
        | some r => larder { l with reset := some { r with load := some (img, admitOn) } }
        | none => l)
/-- One lane takes a stencil: earlier phases keep the replaced copy (R93). -/
def Lane.loadStencil (l : Lane) (id : Nat) (b : Bytes) : Lane :=
  let old := SMap.get [] id l.stencils
  { l with stencils := SMap.set [] id b l.stencils, stnGen := l.stnGen + 1,
           oldStencils := if old.isEmpty then l.oldStencils else SMap.put (l.stnGen * 64 + id) old l.oldStencils : Lane }.pruneStencils
/-- Firewall entries replace the agents' earlier ones. -/
def firewallSet (m : SMap FirewallEntry) (c : FirewallChange) : SMap FirewallEntry :=
  c.foldl (fun m e => if e.read = 0 ∧ e.tileWrite = 0 ∧ e.shelf = 0 ∧ e.control = 0 ∧ e.mbx = 0 then SMap.del e.agent m
    else SMap.put e.agent e m) m
def listTable {α : Type} (xs : List (Nat × α)) : SMap (Option α) :=
  xs.foldl (fun m p => SMap.put p.1 (some p.2) m) []
def bytesTable (xs : List (Nat × Bytes)) : SMap Bytes := xs.foldl (fun m p => SMap.set [] p.1 p.2 m) []
/-- The DOMAIN item takes effect. -/
def State.applyDomain (s : State) (c : DomainCfg) : State :=
  let oldTicket := match s.twin.dom with
    | some d => d.ticketKey
    | none => []
  let s := if (s.slot 1).material = c.membershipRoot then s else s.setOwn 1 0x2C c.membershipRoot
  let s := if oldTicket = c.ticketKey then s else (s.moveSlot 6 7).setOwn 6 0x2A c.ticketKey
  let follow := s.twin.home = s.twin.homeCfg
  let s : State := { s with twin := { s.twin with dom := some c, deviceId := c.device, homeCfg := c.homeCfg, noRetry := false } }
  if follow ∧ s.twin.home ≠ c.homeCfg ∧ s.twin.pair ≠ 4 then s.applyHome c.homeCfg else s
/-- ZEROIZE (R367): every slot's key but those of 0 and 8 (GEN stays, so that no handle comes back), every policy, the roster and every item are erased; COMMISSION. -/
def State.zeroize (s : State) : State :=
  let s := (s.setReg 0x30000020 0).setReg 0x30000024 0
  { s with
    str := { s.str with
      slots := (s.str.slots.map (fun (p : Nat × KeySlot) => if p.1 = 0 ∨ p.1 = 8 then p else (p.1, { gen := p.2.gen }))).filter
        (fun p => p.2 ≠ {}), policies := [], inlineUses := [], inline := [], rootGen := 0,
      rootFrom := 0, prevFrom := 0, suspended := [], roster := [], bootstrap := true, admin := [], reserved := [],
      unlockHarts := [], unlockSysbus := false, unlockExpiry := 0 },
    firewall := [], windows := [],
    twin := { s.twin with dom := none, deviceId := 0, homeCfg := 0 },
    net := { s.net with addrs := [], listeners := [], trust := [] },
    jrn := { s.jrn with proofEn := false, proofKey := 0, proofAlg := 0 },
    cel := { s.cel with tickets := s.cel.tickets.map (fun t => if t.st = 3 then { t with st := 6 } else t) } }
/-- An applied change of the protection set-up, or a load that alters a lane digest, lets pairing be tried again (R181). -/
def State.retry (s : State) (it : Item) : State :=
  let again := match it with
    | .fw _ _ => false
    | .laneRelease _ _ => false
    | .laneLoad m _ _ img => (maskLanes m).any (fun k => decide (((s.lane k).image (s.lane k).bank).slice 320 48 ≠ img.slice 320 48))
    | .stencil m id b => (maskLanes m).any (fun k => decide (SMap.get [] id (s.lane k).stencils ≠ b))
    | _ => true
  if again then { s with twin := { s.twin with noRetry := false } } else s
/-- An item switches from shadow state (R369). -/
def State.applyItem (s : State) (it : Item) : State :=
  let s := s.retry it
  match it with
  | .firewall c => { s with firewall := firewallSet s.firewall c }
  | .windows c => { s with windows := c }
  | .policy c =>
    let s : State := { s with str := { s.str with
      policies := c.entries.foldl (fun m p => SMap.put p.1 (some p.2) m) s.str.policies,
      suspended := s.str.suspended.filter (fun i => !c.entries.any (fun p => p.1 = i)),
      inline := c.inline.foldl (fun m p => SMap.set 0 p.1 p.2 m) s.str.inline } }
    c.repolicy.foldl (fun s p => s.setSlot p.1 { s.slot p.1 with policy := p.2 }) s
  | .keyGen c => (s.installKey c.slot c.cls c.policy 1 (s.freeBytes (genLen c.cls))).drew
  | .keyImport c m => s.installKey c.slot c.cls c.policy 2 m
  | .keyComponent c m => s.installKey c.slot c.cls c.policy 3 m
  | .keyDestroy i =>
    let z := s.slot i
    (s.eraseSlot i).policyRec 0x13 0 0 0 [] (Bytes.ofNatLE 8 (mkHandle z.policy z.cls z.gen i) ++ z.kcv)
  | .keyExport c =>
    let z := s.slot c.slot
    let w := s.slot c.wrapSlot
    let s := (s.dramWrite c.buffer (Config.wrapKey w.cls w.material z.material s.free)).drew
    s.policyRec 0x14 0 0 0 [] (Bytes.ofNatLE 8 (mkHandle z.policy z.cls z.gen c.slot) ++ z.kcv)
  | .root c =>
    let s := ((s.moveSlot 2 3).moveSlot 4 5)
    let s := (s.setOwn 2 0x28 c.root).setOwn 4 0x29 c.fabric
    let g := s.str.rootGen + 1
    let s : State := { s with str := { s.str with rootGen := g, prevFrom := s.str.rootFrom, rootFrom := cdiv s.btm.beat 100 } }
    s.policyRec 0x20 0 0 0 [] (Bytes.ofNatLE 4 g)
  | .domain c => s.applyDomain c
  | .nets c =>
    let ts := bytesTable c.trust
    { s with net := { s.net with
      addrs := listTable c.addrs, listeners := listTable c.listeners, trust := ts,
      certCache := s.net.certCache.filter (fun p => decide (SMap.get [] p.1 s.net.trust = SMap.get [] p.1 ts)) } }
  | .journal c =>
    let s : State := { s with jrn := { s.jrn with proofKey := c.proofKey, proofAlg := c.proofAlg, proofEn := c.proofEn } }
    (s.setReg 0x30000020 (c.proofKey % 2 ^ 32)).setReg 0x30000024 (c.proofKey / 2 ^ 32)
  | .unlock c =>
    let s : State := { s with str := { s.str with
      unlockHarts := c.harts.map (·.val), unlockSysbus := c.sysbus, unlockExpiry := c.expiry } }
    s.policyRec 0x30 0 0 0 [] (Bytes.ofNatLE 32 (c.harts.foldl (fun a h => a ||| 2 ^ h.val) 0) ++ Bytes.ofNatLE 1 (b2n c.sysbus)
      ++ Bytes.ofNatLE 8 c.expiry)
  | .officers c => { s with str := { s.str with
      roster := c, admin := if s.str.bootstrap then [] else s.str.admin, bootstrap := false } }
  | .adminSet c => { s with str := { s.str with admin := c } }
  | .zeroize => s.zeroize
  | .laneLoad m staged admitOn img => (maskLanes m).foldl (fun s k => s.loadLane k staged admitOn img) s
  | .stencil m id b => (maskLanes m).foldl (fun s k => s.modLane k (fun l => l.loadStencil id b)) s
  | .laneRelease m keep => (maskLanes m).foldl (fun s k =>
      if (s.ring k).clash then s.holdRing k (fun r => { r with clash := false })
      else if (s.ring k).divergent then
        s.modRing k (fun r => { r with divergent := false, resync := true, release := if keep then 1 else 2 })
      else s) s
  | .fw _ act => if act then s.celRestart 3 else s

/-- The kind of an item: Table STR-7's number, 0 for loads, firmware and releases. -/
def itemKind : Item → Nat
  | .firewall _ => 0x01 | .windows _ => 0x02 | .policy _ => 0x03 | .keyGen _ => 0x04 | .keyImport _ _ => 0x05
  | .keyComponent _ _ => 0x06 | .keyDestroy _ => 0x07 | .keyExport _ => 0x08 | .root _ => 0x10 | .domain _ => 0x11
  | .nets _ => 0x12 | .journal _ => 0x13 | .unlock _ => 0x14 | .officers _ => 0x15 | .adminSet _ => 0x16 | .zeroize => 0x17
  | .laneLoad _ _ _ _ => 0 | .stencil _ _ _ => 0 | .laneRelease _ _ => 0 | .fw _ _ => 0
/-- The lanes an item names. -/
def itemLanes : Item → Nat
  | .laneLoad m _ _ _ => m | .stencil m _ _ => m | .laneRelease m _ => m | _ => 0
/-- Whether the change alters PROT or a lane digest, so that both twins of a pair take it (R188, Table STR-7). -/
def itemShared : Item → Bool
  | .keyGen _ => false | .keyExport _ => false | .journal _ => false | .unlock _ => false | .laneRelease _ _ => false
  | .fw _ _ => false | .zeroize => false | _ => true
/-- The event-specific bytes that name a ticket: number, originating device, item kind, lane mask (Table STR-8). -/
def ticketBody (num dev : Nat) (it : Item) : Bytes :=
  Bytes.ofNatLE 4 num ++ Bytes.ofNatLE 2 (itemKind it) ++ Bytes.ofNatLE 4 (itemLanes it) ++ Bytes.ofNatLE 4 dev

end Sys2Proof.Machine
end

