-- ==== Sys2Proof/Machine/Twin.lean ====
section
/-!
DEFINITION. The mirror link and the pair: link layer (R181 to R185), pairing (R186 to R188, R171), beat lock (R189,
R190), homes and takeover (R179, R180, R197, R198).
-/

namespace Sys2Proof
open Machine

/-- The fields of a frame (Table TWN-1). -/
def LinkFrame.ftype (f : LinkFrame) : Nat := Bytes.le f.bytes 0 1
def LinkFrame.ring (f : LinkFrame) : Nat := Bytes.le f.bytes 1 1 % 32
def LinkFrame.sizeCode (f : LinkFrame) : Nat := Bytes.le f.bytes 1 1 / 64
def LinkFrame.lseq (f : LinkFrame) : Nat := Bytes.le f.bytes 2 2
def LinkFrame.ackLseq (f : LinkFrame) : Nat := Bytes.le f.bytes 4 2
def LinkFrame.ackMap (f : LinkFrame) : Nat := Bytes.le f.bytes 6 1
/-- The header's HCRC is correct (R182). -/
def LinkFrame.hdrOk (f : LinkFrame) : Bool :=
  decide (16 ≤ f.bytes.length) && decide (Bytes.le f.bytes 8 4 = (Crypto.crc32c (f.bytes.take 8)).toNat)
/-- The record a RECORD frame carries. -/
def LinkFrame.record (f : LinkFrame) : Bytes := f.bytes.slice 12 (64 * 2 ^ f.sizeCode)
/-- A frame of type `ty` is received good: whole symbols of 48 to 272 bytes, the RING its type calls for, a RECORD as long as
its SIZE says, and the CRC-32C that ends it correct (R182, Table TWN-2). -/
def LinkFrame.good (f : LinkFrame) (ty : Nat) : Bool :=
  let n := f.bytes.length
  f.ftype = ty && n % 16 = 0 && decide (48 ≤ n) && decide (n ≤ 272)
    && (if ty = 1 then decide (f.ring ≤ 16) && decide (n = 16 + 64 * 2 ^ f.sizeCode) else f.ring = 31)
    && decide (Bytes.le f.bytes (n - 4) 4 = (Crypto.crc32c (f.bytes.take (n - 4))).toNat)
/-- Bytes 0 to 895 of a manifest (Table TWN-3). -/
def Manifest.bytes (m : Manifest) : Bytes :=
  Bytes.ofNatLE 4 0x4E57544B ++ Bytes.ofNatLE 2 m.version ++ Bytes.zeros 2 ++ Bytes.ofNatLE 4 m.device ++ Bytes.ofNatLE 4 m.domain
    ++ Bytes.ofNatLE 4 m.fw ++ Bytes.ofNatLE 4 m.fwMin ++ Bytes.ofNatLE 4 m.config ++ Bytes.ofNatLE 2 m.home
    ++ Bytes.ofNatLE 2 m.homeCfg ++ Bytes.ofNatLE 8 m.beat ++ Bytes.ofNatLE 4 m.phase ++ Bytes.ofNatLE 4 m.keyEpoch
    ++ m.witness.flatMap (Bytes.ofNatLE 4) ++ m.prot ++ m.laneDigests.flatMap id ++ m.nonce

end Sys2Proof

namespace Sys2Proof.Machine
open Sys2Proof

def twnBase : Nat := 0x31000000
def pairEn (s : State) : Bool := match s.twin.dom with
  | some d => d.pairEn
  | none => false
def takeoverEn (s : State) : Bool := match s.twin.dom with
  | some d => d.takeoverEn
  | none => false
def State.setPairCode (s : State) (c : Nat) : State := s.setReg (twnBase + 0x14) c

/-- The lane digest: the program's digest and the loaded stencils' digests in ID order (Table TWN-3). -/
def Lane.digest (l : Lane) : Bytes :=
  Crypto.sha384 ((l.image l.bank).slice 320 48 ++ l.stencils.flatMap (fun (p : Nat × Bytes) => p.2.slice 48 48))

/-- A PAIR_START waits for the end of the manifest checks, or of a training that failed: it is acknowledged. -/
def State.pairAck (s : State) : State :=
  match s.twin.startMbx with
  | some n =>
    let s : State := { s with twin := { s.twin with startMbx := none } }
    let c := s.reg (twnBase + 0x14)
    s.skeidAck n 0x0020 (if s.twin.pair = 3 then 0 else c) [c]
  | none => s
/-! ### The end of a link -/

/-- Ask the witness for a lease, unless FAR forbids it (R191). -/
def State.leaseReq (s : State) (home : Nat) : State :=
  if s.btm.far ∨ s.witnessId = noVal then s else s.rhaxReq 0x01 s.witnessId home (.home home)
/-- The mirror link has failed or a pair fault is declared (R170, R197): `fault` keeps PAIR at FAULT. A handover that the peer
has announced does not take place, and its lanes stay where they are. -/
def State.linkDown (s : State) (fault : Bool) : State :=
  let s := { s with twin := { s.twin with
    linkUp := false, paired := false, pair := if fault then 5 else 0, rxLseq := 0, rxMap := 0, fault := fault, handover := none,
    takeover := if s.twin.takeAt.isSome then .none else s.twin.takeover, takeAt := none, beatMiss := 0 } }
  let s := s.enterApart
  let s := s.agentReset 274
  if takeoverEn s ∧ s.twin.peer ≠ 0 ∧ s.twin.takeover = .none then
    ({ s with twin := { s.twin with takeover := .wantLease } }).leaseReq s.twin.peer
  else s
/-- R169, R181: the link fails. -/
def State.linkFail (s : State) (code : Nat) : State :=
  if s.twin.linkUp then ((s.setPairCode code).raiseIrq jrnBase 7).linkDown false else s
/-- R190: a pair fault. -/
def State.pairFault (s : State) (code : Nat) (tell : Bool) : State :=
  if s.twin.linkUp then
    let s := if tell then s.linkSend (.ctl (.pairFault (BitVec.ofNat 16 code))) else s
    let s := (s.setPairCode code).gEvt 7 0 (BitVec.ofNat 16 code) 0x1FF s.twin.peer 0 0
    ((s.gFreeze 3 274).raiseIrq twnBase 2).linkDown true
  else s

/-! ### The link layer (R181 to R184) -/

/-- A frame's LSEQ enters the acknowledgment vector, good or bad. -/
def Twin.rx (t : Twin) (q : Nat) (good : Bool) : Twin :=
  let d := (q + 65536 - t.rxLseq) % 65536
  if d < 32768 then { t with rxLseq := q, rxMap := (t.rxMap * 2 ^ min d 8 / 1) % 256 / 2 * 2 + b2n good }
  else if (65536 - d) < 8 ∧ good then { t with rxMap := t.rxMap ||| (1 <<< (65536 - d)) } else t
/-- The distance of a sent frame behind the newest one an acknowledgment vector names; none for a newer one. -/
def ackDist (ackLseq lseq : Nat) : Option Nat :=
  let d := (ackLseq + 65536 - lseq) % 65536
  if d < 8 then some d else none
/-- The frame in the transmitter's store has been received good by the peer: the store lets go of it, and a record it carried
is acknowledged (R168, R183). -/
def State.frameAcked (s : State) (f : TxFrame) : State :=
  let s : State := { s with twin := { s.twin with txStore := s.twin.txStore.filter (fun x => x.lseq ≠ f.lseq) } }
  match f.body with
  | .record k q _ => (s.modRing k (fun r => r.mark q (fun x => { x with acked := true }))).commit k
  | _ => s
/-- A frame leaves again; after the fourth retransmission the link has failed (R169). -/
def State.frameBad (s : State) (f : TxFrame) : State :=
  match f.body with
  | .record k q _ =>
    let r := s.retransmit k q
    if r.2 then r.1.linkFail 0x1409 else r.1
  | _ =>
    if f.retx ≥ 4 then s.linkFail 0x1409
    else ({ s with twin := { s.twin with txStore := s.twin.txStore.map (fun x =>
      if x.lseq = f.lseq then { x with retx := x.retx + 1, bad := true } else x) } } : State).incReg (jrnBase + 0x30) 1 |>.raiseIrq jrnBase 0
/-- The acknowledgment vector of an arriving header (R183): each stored frame it names is acknowledged, or sent again when the
vector reports it bad for the first time; a later report of the same frame comes as REPLAY_REQUEST_RECEIVE (DEDUCED, log 171). -/
def State.ackVector (s : State) (ackLseq ackMap : Nat) : State :=
  s.twin.txStore.foldl (fun s f => match ackDist ackLseq f.lseq with
    | some d =>
      if bit ackMap d then s.frameAcked f
      else if f.bad then s
      else State.frameBad { s with twin := { s.twin with txStore := s.twin.txStore.map (fun x =>
        if x.lseq = f.lseq then { x with bad := true } else x) } } f
    | none => s) s
/-- A frame of type `ty` arrives on the link. The receiver acts on its header only when the HCRC is correct; a bad header is
counted. The frame's own effect happens when it is received good. -/
def State.frameRx (s : State) (f : LinkFrame) (ty : Nat) (g : State → State) : Res :=
  if !s.twin.linkUp then .next s
  else if !f.hdrOk then .next (s.incReg (twnBase + 0x30) 1)
  else
    let s : State := { s with twin := s.twin.rx f.lseq (f.good ty) }
    let s := s.ackVector f.ackLseq f.ackMap
    .next (if f.good ty && s.twin.linkUp then g s else s)

/-- LINK_FAILURE (R170). -/
def execLinkFailure (code : Code) (s : State) : Res := .next (s.linkFail code.toNat)
/-- HEADER_TIMEOUT (R181). -/
def execHeaderTimeout (s : State) : Res := .next (s.linkFail 0x1409)
/-- SYMBOL_LOCK_LOSS (R181). -/
def execSymbolLockLoss (_linkLane : Fin 16) (s : State) : Res := .next (s.linkFail 0x1409)
/-- IDLE_ACK_SEND (R181, R183): an ACK symbol carries the newest acknowledgment vector. -/
def execIdleAckSend (s : State) : Res :=
  if s.twin.linkUp then .next { s with twin := { s.twin with ackSent := (s.twin.rxLseq, s.twin.rxMap) } } else .next s
/-- HEADER_HCRC_FAILURE (R182): counted; the symbols up to the next valid header, whose LSEQ is `lseq`, are discarded, and every
frame up to it that has not been received good stands clear in the acknowledgment vector, which reports it bad. -/
def execHeaderHcrcFailure (lseq : Nat) (s : State) : Res :=
  if s.twin.linkUp then
    .next { s.incReg (twnBase + 0x30) 1 with twin := s.twin.rx (lseq % 65536) false }
  else .next s
/-- REPLAY_REQUEST_RECEIVE (R169). -/
def execReplayRequestReceive (k : RingId) (seq : Nat) (s : State) : Res :=
  if s.twin.linkUp then
    let r := s.retransmit k seq
    .next (if r.2 then r.1.linkFail 0x1409 else r.1)
  else .next s
/-- REPLAY_TIMEOUT (R169). -/
def execReplayTimeout (k : RingId) (seq : Nat) (s : State) : Res :=
  if s.twin.linkUp ∧ (s.ring k).recs.any (fun x => x.seq = seq ∧ !x.committed ∧ !x.acked ∧ x.sentClk + 80 ≤ s.laneClk) then
    let r := s.retransmit k seq
    .next (if r.2 then r.1.linkFail 0x1409 else r.1)
  else .next s

/-- Insert a record by its sequence number. -/
def insertRec (x : Rec) : List Rec → List Rec
  | [] => [x]
  | y :: r => if x.seq < y.seq then x :: y :: r else y :: insertRec x r
/-- Insert a numbered record by its sequence number. -/
def insertPair (x : Nat × Bytes) : List (Nat × Bytes) → List (Nat × Bytes)
  | [] => [x]
  | y :: r => if x.1 < y.1 then x :: y :: r else y :: insertPair x r
/-- The full beat number of a stored record (R160): congruent to BEAT modulo 2^40 and nearest to TIME ÷ 10,000. -/
def recBeat (b : Bytes) : Nat :=
  let t := Bytes.le b 8 8 / 10000
  let back := (t + 2 ^ 40 - Bytes.le b 16 5) % 2 ^ 40
  if back ≤ 2 ^ 39 then t - back else t + (2 ^ 40 - back)
/-- The sequence number after the longest run of records of a sorted list that starts at `c`. -/
def runOn (c : Nat) (xs : List Rec) : Nat := xs.foldl (fun c x => if x.seq = c then c + 1 else c) c
/-- A record enters the mirror copy of ring `k` (R185): none when its SEQ is held with different bytes. -/
def Ring.mirrorPut (r : Ring) (b : Bytes) : Option Ring :=
  let q := Bytes.le b 0 8
  match r.mirror.find? (fun x => x.seq = q) with
  | some x => if x.bytes = b then some r else none
  | none =>
    let isSealed := Bytes.le b 21 1 = 0x03
    let late := r.mEpochRecs.any (fun p => Bytes.le p.2 21 1 = 0x03 && decide (q < p.1))
    let x : Rec := { seq := q, bytes := b, src := .jrn, committed := true, acked := true, epoch := recBeat b / 100 }
    let m := insertRec x r.mirror
    some { r with mirror := m, mSeqNext := max r.mSeqNext (q + 1), mCount := runOn r.mCount m,
                  mPrevD := if isSealed && !late then b.slice 64 48 else r.mPrevD,
                  mEpochRecs := if late then r.mEpochRecs
                    else if isSealed then (q, b) :: r.mEpochRecs.filter (fun p => decide (q < p.1))
                    else insertPair (q, b) r.mEpochRecs }
/-- RECORD_FRAME_RECEIVE (R185, R169). -/
def execRecordFrameReceive (f : LinkFrame) (s : State) : Res :=
  s.frameRx f 1 fun s => match (s.ring f.ring).mirrorPut f.record with
    | some r => s.setRing f.ring r
    | none => s.pairFault 0x1408 true
/-- DRAIN_FRAME_RECEIVE (Table TWN-2, R177): the twin has drained up to a sequence number; the mirror copy lets go of it. -/
def execDrainFrameReceive (f : LinkFrame) (k : RingId) (lastSeq : Nat) (s : State) : Res :=
  s.frameRx f 4 fun s => s.modRing k (fun r => { r with
    mirror := r.mirror.filter (fun x => decide (x.seq > lastSeq)), mCount := max r.mCount (lastSeq + 1) })

/-! ### Training and pairing -/

/-- A training attempt has failed: PAIR reads FAULT after a pair fault, else SOLO (R181, R447). -/
def State.trainFail (s : State) (code : Bool) : State :=
  let s := if code then s.setPairCode 0x1409 else s
  ({ s with twin := { s.twin with pair := if s.twin.fault then 5 else 0 } } : State).pairAck
/-- LINK_TRAINING (R181, R447). -/
def execLinkTraining (flights : List Nat) (deskew : Nat) (locked : Bool) (s : State) : Res :=
  if s.twin.linkUp ∨ !pairEn s then .next s
  else if !locked then .next (s.trainFail s.twin.startMbx.isSome)
  else
    let lat := flights.foldl max 0
    let s := s.setReg (twnBase + 0x28) (min lat 0xFFFF)
    if lat > 1500 ∨ deskew > 400 then .next (s.trainFail true)
    else
      let n := s.freeBytes 16
      let s := s.drew
      let s : State := { s with twin := { s.twin with
        linkUp := true, pair := 2, nonce := n, txLseq := 0, txStore := [], rxLseq := 0, rxMap := 0, beatMiss := 0 } }
      .next (s.linkSend (.ctl (.nonce n)))
/-- LINK_RETRAIN_TIMER (R181). -/
def execLinkRetrainTimer (s : State) : Res :=
  if !s.twin.linkUp ∧ pairEn s ∧ !s.twin.noRetry then .next { s with twin := { s.twin with pair := 1 } } else .next s

/-- The lanes this device holds as IN_SERVICE. -/
def State.serviceMask (s : State) : Nat := (List.range 16).foldl (fun a k => if (s.lane k).st = 2 then a + 2 ^ k else a) 0
/-- The first failing check of R186: code and the differing lanes; 0 when every check passes. -/
def State.manifestCode (s : State) (d : DomainCfg) (m : Manifest) : Nat × Nat :=
  let diff := (List.range 16).foldl (fun a k => if m.laneDigests.getD k [] = (s.lane k).digest then a else a + 2 ^ k) 0
  let own := s.tai
  let peer := m.beat * 10000 + m.phase + s.reg (twnBase + 0x28) / 1000
  if !m.certOk ∨ !m.sigOk ∨ m.digest ≠ Crypto.sha384 m.bytes ∨ m.nonce ≠ s.twin.nonce ∨ m.version ≠ 1 then (0x1401, 0)
  else if m.device = s.twin.deviceId ∨ m.pairedElsewhere then (0x140A, 0)
  else if m.domain ≠ d.domain then (0x1402, 0)
  else if m.fw < d.fwMin ∨ s.cel.fw < m.fwMin ∨ m.fw / 2 ^ 24 ≠ s.cel.fw / 2 ^ 24 then (0x1405, 0)
  else if m.prot ≠ s.prot then (0x1403, 0)
  else if diff ≠ 0 then (0x1404, diff)
  else if m.homeCfg + s.twin.homeCfg ≠ 0xFFFF ∨ m.homeCfg &&& s.twin.homeCfg ≠ 0 ∨ (m.inService &&& s.serviceMask) ≠ 0
 then (0x1406, 0)
  else if m.config < d.configMin ∨ m.config > d.configMax then (0x1410, 0)
  else if m.keyEpoch ≠ s.str.rootGen ∧ m.keyEpoch + 1 ≠ s.str.rootGen then (0x1411, 0)
  else if (max own peer) - (min own peer) > 20000 then (0x1407, 0)
  else (0, 0)

/-- Pairing has ended (R428): the device asks for its own lease (R191). -/
def State.pairingEnded (s : State) : State :=
  let s := s.pairAck
  ({ s with twin := { s.twin with leaseAsked := true } }).leaseReq s.twin.deviceId

/-- The mirror copy of ring `k` becomes the active copy: sequence numbers continue from its last committed record (R158), and
what lies beyond a missing record is no part of it. -/
def State.activateMirror (s : State) (k : Nat) : State :=
  s.modRing k (fun r =>
    let recs := r.mirror.filter (fun x => decide (x.seq < r.mCount))
    { r with
      recs := recs, mirror := [], seqNext := r.mCount, seqDone := r.mCount - 1, prevD := r.mPrevD,
      epochRecs := r.mEpochRecs.filter (fun p => decide (p.1 < r.mCount)), mEpochRecs := [],
      drainEpochs := (recs.filter (fun x => Bytes.le x.bytes 21 1 = 0x03)).map (fun x => Bytes.le x.bytes 32 8),
      online := true, resync := false, pairHold := false, late := [] })
/-- The number of the first record of an active ring that is not committed. -/
def Ring.firstOpen (r : Ring) : Nat := ((r.recs.find? (fun x => !x.committed)).map (·.seq)).getD r.seqNext
/-- This device gives a drained lane to its twin: its copy of the ring becomes the mirror. -/
def State.giveLane (s : State) (k : Nat) : State :=
  let s := s.modRing k (fun r => { r with
    mirror := r.recs, recs := [], mSeqNext := r.seqNext, mCount := r.firstOpen, mPrevD := r.prevD, mEpochRecs := r.epochRecs,
    epochRecs := [], online := false, late := [] })
  s.modLane k (fun l => { l with st := 5 })
/-- The effective home after pairing (R187): where the two views of a lane differ, the device that holds it IN_SERVICE
keeps it; with neither, the view of the device with the lower ID holds. -/
def State.adoptHome (s : State) (m : Manifest) : Nat :=
  (List.range 16).foldl (fun a k =>
    let mine := bit s.twin.home k
    let theirs := bit m.home k
    let keep := if mine != theirs then mine
      else if bit s.serviceMask k then true
      else if bit m.inService k then false
      else if s.twin.deviceId < m.device then mine else !theirs
    if keep then a + 2 ^ k else a) 0
/-- A lane this device has lost is TAKEN_OVER, or MIRROR where its configured home is the twin; the copies of its ring
exchange roles. A lane it gains is OFFLINE on its active ring (R187, R198). -/
def State.takeHomes (s : State) (mask : Nat) : State :=
  let old := s.twin.home
  let s := (List.range 16).foldl (fun s k =>
    if bit old k && !bit mask k then
      (s.giveLane k).modLane k (fun l => { l with st := if bit s.twin.homeCfg k then 6 else 5 })
    else if bit mask k && !bit old k then
      (s.activateMirror k).modLane k (fun l => { l with st := if l.st = 5 then 0 else l.st })
    else s) s
  { s with twin := { s.twin with home := mask } }
/-- MANIFEST_RECEIVE (R186, R187). A refusal takes the link down until an attempt of R181 trains it again; lanes that both
claim in service hold with reason PAIR until an operator acts. -/
def execManifestReceive (m : Manifest) (s : State) : Res :=
  match s.twin.dom with
  | none => .next s
  | some d =>
    if s.twin.pair ≠ 2 then .next s
    else
      let (code, diff) := s.manifestCode d m
      if code ≠ 0 then
        let s := (s.setPairCode code).setField (twnBase + 0x18) 15 0 diff
        let clash := if code = 0x1406 then m.inService &&& s.serviceMask else 0
        let s := (List.range 16).foldl (fun s k => if bit clash k then s.holdRing k (fun r => { r with clash := true }) else s) s
        let s := (s.raiseIrq twnBase 0).policyRec 0x40 code 0 0 [] (Bytes.ofNatLE 4 m.device ++ Bytes.ofNatLE 2 code)
        .next ({ s with twin := { s.twin with pair := 0, linkUp := false, noRetry := true, fault := false } }).pairingEnded
      else
        let s := (s.setPairCode (if m.fw = s.cel.fw then 0 else 0x14C1)).setField (twnBase + 0x18) 15 0 0
        let s := s.takeHomes (s.adoptHome m)
        let s := { s with twin := { s.twin with pair := 3, peer := m.device, peerFw := m.fw, peerFwMin := m.fwMin, noRetry := false, fault := false, takeover := .none } }
        let s := (List.range 17).foldl (fun s k => s.holdRing k (fun r => { r with resync := true })) s
        .next (s.setMode 4).pairingEnded

/-- The records of ring `k` that this device compares: the active copy where it appends, the mirror copy elsewhere. -/
def Ring.activeRecs (r : Ring) : List Rec := if r.online then r.recs else r.mirror
/-- Every ring has ended its resynchronisation: the pair is formed. -/
def State.pairFormed (s : State) : State :=
  if (List.range 17).all (fun k => !(s.ring k).resync) then
    let s := { s with twin := { s.twin with pair := 4, paired := true, wDrops := [] } }
    let s := if s.witnessId = noVal then s else s.rhaxTell 0x14 s.witnessId
    (s.setMode 1).raiseIrq twnBase 1
  else s
/-- A divergent ring: held on both devices, reported as a fatal lane event (R171, R196). -/
def State.diverge (s : State) (k : Nat) : State :=
  let s := (s.holdRing k (fun r => { r with divergent := true, resync := false })).raiseIrq jrnBase 6
  ((s.gEvt 7 k 0x140B (256 + k) k 0 0).raiseIrq twnBase 5).gFreeze 1 (256 + k)
/-- The divergent records of a ring that yields go to its drain area behind a RESYNC record; none is deleted (R349). -/
def State.drainYield (s : State) (k : Nat) (xs : List Rec) : State :=
  match xs, s.drainArea k with
  | x :: _, some area =>
    let last := xs.foldl (fun a (y : Rec) => max a y.seq) x.seq
    let b := recBytes 0x07 0 0 (Bytes.ofNatLE 8 x.seq ++ Bytes.ofNatLE 8 last) ++ xs.flatMap (·.bytes)
    let head := s.reg (ringReg k 0x24)
    let base := s.reg (ringReg k 0x18) + s.reg (ringReg k 0x1C) * 2 ^ 32
    (s.drainWrite base area head b).setReg (ringReg k 0x24) ((head + b.length / 64) % 2 ^ 32)
  | _, _ => s
/-- What is left of a ring's own side after the comparison: JRN's late seals lose the records that are discarded (R174). -/
def LateRec.without (gone : List Nat) : LateRec → LateRec
  | .seal e recs first flags => .seal e (recs.filter (fun p => !gone.contains p.1)) first flags
  | x => x
/-- A committed record received for a ring. -/
def peerRec (p : Nat × Bytes) : Rec :=
  { seq := p.1, bytes := p.2, src := .jrn, committed := true, acked := true, epoch := recBeat p.2 / 100 }
/-- The Cellarer's policy records among those discarded wait at ring 16 again: it holds each until it commits (R165). -/
def State.rePresent (s : State) (gone : List Rec) : State :=
  (gone.filter (fun x => x.src = .cel)).foldl (fun s x => s.present 16 { src := .cel, agent := 272, bytes := x.bytes }) s
/-- The comparison of an active ring: records the peer has committed come in, unconfirmed ones it lacks go, and a RESYNC record
names their range with the peer's own that this device lacks (R171). A cold reset's counter and digest are restored (R159). -/
def State.resyncActive (s : State) (k : Nat) (peer : PeerRing) (lost : List (Nat × Bytes)) (yields : List Rec) : State :=
  let r := s.ring k
  let has := fun (x : Rec) => peer.committed.contains (x.seq, x.bytes) || peer.held.contains (x.seq, x.bytes)
    || peer.copies.contains (x.seq, x.bytes)
  let keep := fun (x : Rec) => !yields.any (fun y => decide (y.seq = x.seq)) && (x.committed || has x)
  let gone := r.recs.filter (fun x => !keep x)
  let kept := r.recs.filter keep
  let add := (lost ++ peer.mine.filter (fun p => !lost.any (fun q => q.1 = p.1))).filter
    (fun p => !kept.any (fun x => decide (x.seq = p.1)))
  let recs := (add.map peerRec).foldl (fun a x => insertRec x a) kept
  let recs := recs.map (fun x => if x.committed then x else { x with acked := true })
  let ids := gone.map (·.seq)
  let theirs := (peer.held.filter (fun p => !recs.any (fun x => decide (x.seq = p.1) && decide (x.bytes = p.2)))).map (·.1)
  let s := s.setRing k { r with
    recs := recs, resync := false, pairHold := false, release := 0, restored := true,
    prevD := if r.restored then r.prevD else peer.prevD,
    late := r.late.map (LateRec.without ids),
    epochRecs := (add.filter (fun p => decide (s.epoch ≤ recBeat p.2 / 100))).foldl (fun a p => insertPair p a)
      (r.epochRecs.filter (fun p => !ids.contains p.1)),
    seqNext := recs.foldl (fun a x => max a (x.seq + 1)) (max r.seqNext peer.next) }
  let s := (s.commit k).acceptLate k
  let s := match ids ++ theirs with
    | [] => s
    | q :: qs => s.acceptOwn k 0x07 0 0 (Bytes.ofNatLE 8 (qs.foldl min q) ++ Bytes.ofNatLE 8 (qs.foldl max q))
  s.rePresent gone
/-- The comparison of a mirror copy: committed records of the peer's active copy come in, unconfirmed ones that it lacks go. -/
def Ring.resyncMirror (r : Ring) (peer : PeerRing) : Ring :=
  let keep := fun (x : Rec) => x.committed || peer.committed.contains (x.seq, x.bytes) || peer.held.contains (x.seq, x.bytes)
  let gone := (r.mirror.filter (fun x => !keep x)).map (·.seq)
  let r : Ring := { r with
    mirror := (r.mirror.filter keep).map (fun x => { x with committed := true, acked := true }),
    mEpochRecs := r.mEpochRecs.filter (fun p => !gone.contains p.1) }
  let r := peer.committed.foldl (fun r p => (r.mirrorPut p.2).getD r) r
  let top := peer.committed.foldl (fun a p => max a (p.1 + 1)) 0
  { r with resync := false, restored := true, mCount := runOn (max r.mCount top) r.mirror }
/-- RING_RESYNC_COMPLETE (R171, R198, R349). -/
def execRingResyncComplete (k : RingId) (peer : PeerRing) (s : State) : Res :=
  let r := s.ring k
  if (s.twin.pair ≠ 3 ∧ s.twin.pair ≠ 4) ∨ !r.resync then .next s
  else
    let act := r.activeRecs
    let base := match peer.committed with
      | p :: _ => p.1
      | [] => 0
    let has := fun (x : Rec) => peer.committed.contains (x.seq, x.bytes) || peer.held.contains (x.seq, x.bytes)
      || peer.copies.contains (x.seq, x.bytes)
    let extra := act.filter (fun x => x.committed && decide (base ≤ x.seq) && !has x)
    let lost := peer.committed.filter (fun p => !(act.any (fun x => decide (x.seq = p.1) && decide (x.bytes = p.2)))
      && !peer.mine.contains p)
    if !extra.isEmpty ∧ !lost.isEmpty ∧ r.release = 0 then .next ((s.diverge k).pairFormed)
    else if r.release = 1 then
      .next (s.modRing k (fun r => { r with resync := false, pairHold := false, release := 0 })).pairFormed
    else if r.online then
      let s := if r.release = 2 then s.drainYield k extra else s
      .next (s.resyncActive k peer lost (if r.release = 2 then extra else [])).pairFormed
    else
      let s := s.modRing k (fun r => r.resyncMirror peer)
      let s := if k.val < 16 ∧ (s.lane k).st = 6 then s.modLane k (fun l => { l with st := 5 }) else s
      .next s.pairFormed

/-! ### The Cellarer channel (R188) -/

def State.ctlSend (s : State) (m : CtlMsg) : State := s.linkSend (.ctl m)
/-- The operation digest of a change that came in at device `dev` (R364). -/
def opDigestOf (c : ChangeSrc) (dev : Nat) : Bytes :=
  Crypto.sha384 (Bytes.ascii "SKD1" ++ Bytes.ofNatLE 2 c.cmd ++ c.args.flatMap (Bytes.ofNatLE 4) ++ Bytes.ofNatLE 4 dev
    ++ (match c.buf with
      | some b => Crypto.sha384 b
      | none => Bytes.zeros 48))
/-- The change of a ticket and its device. -/
def Twin.ctl (t : Twin) (num dev : Nat) : Option CtlChange := t.ctls.find? (fun c => c.ticket = num && c.dev = dev)
def State.modCtl (s : State) (num dev : Nat) (f : CtlChange → CtlChange) : State :=
  { s with twin := { s.twin with ctls := s.twin.ctls.map (fun c => if c.ticket = num ∧ c.dev = dev then f c else c) } }
/-- A change enters the two-phase apply. -/
def State.addCtl (s : State) (c : CtlChange) : State :=
  { s with twin := { s.twin with ctls := s.twin.ctls.filter (fun x => !(x.ticket = c.ticket && x.dev = c.dev)) ++ [c] } }
/-- CTL_FRAME_RECEIVE. `tokensOk` is the check of the two approval tokens (R188). -/
def State.ctlRx (s : State) (m : CtlMsg) (tokensOk : State → CtlMsg → Bool) : State :=
  match m with
  | .nonce n => { s with twin := { s.twin with peerNonce := n } }
  | .pairFault c => s.pairFault c.toNat false
  | .prepare t dev item _ _ epoch =>
    if s.twin.pair = 4 ∧ tokensOk s m ∧ (s.phaseOne item).isNone ∧ (s.ring 16).hold = 0 then
      let s := s.addCtl { ticket := t, dev := dev, item := item, epoch := epoch }
      let s := (s.policyRec 0x04 0 epoch 0 [] (ticketBody t dev item)).ctlSend (.prepared t dev true)
      if s.twin.deviceId < s.twin.peer then s.ctlSend (.commit t dev) else s
    else s.ctlSend (.prepared t dev false)
  | .prepared t dev ok =>
    let s := s.modCtl t dev (fun c => { c with prepared := ok })
    if ok ∧ (s.twin.ctl t dev).isSome ∧ s.twin.deviceId < s.twin.peer then s.ctlSend (.commit t dev) else s
  | .commit t dev =>
    match s.twin.ctl t dev with
    | some c => if c.prepared then (s.modCtl t dev (fun c => { c with committed := true })).ctlSend (.commitAck t dev) else s
    | none => s
  | .commitAck t dev => s.modCtl t dev (fun c => { c with acked := true, committed := true })
  | .witnessPropose i => ({ s with twin := { s.twin with witProposed := some i, witAcked := true } }).ctlSend (.witnessAck i)
  | .witnessAck i => if s.twin.witProposed = some i then { s with twin := { s.twin with witAcked := true } } else s
  | .takeover lanes e =>
    if s.twin.pair = 4 then { s with twin := { s.twin with takeover := .ready, takeLanes := lanes, takeAt := some e } } else s

/-! ### Beat lock (R189) -/

/-- A signed value saturated to 32 bits. -/
def sat32 (v : Int) : Nat := (BitVec.ofInt 32 (max (-2147483648) (min 2147483647 v))).toNat
/-- BEAT_FRAME_RECEIVE: its payload is the beat number and the TAI ns of the boundary at the sender. -/
def execBeatFrameReceive (f : LinkFrame) (s : State) : Res :=
  s.frameRx f 3 fun s =>
    let skew : Int := (s.tai : Int) - (s.reg (twnBase + 0x28) / 1000 : Nat) - Bytes.le f.bytes 20 8
    let a := skew.natAbs
    let s := ({ s with twin := { s.twin with beatMiss := 0 } } : State).setReg (twnBase + 0x20) (sat32 skew)
    let s := if a > bits (s.reg (twnBase + 0x24)) 15 0 then (s.raiseIrq twnBase 3).gEvt 7 0 0x14C2 274 (sat32 skew) 0 0 else s
    if a > 20000 then s.pairFault 0x1407 true else s
/-- BEAT_FRAME_MISSING: no BEAT frame for 3 beats while the link is up. -/
def execBeatFrameMissing (s : State) : Res :=
  if 3 ≤ s.twin.beatMiss then .next (s.pairFault 0x1407 true) else .next s
/-- At a beat boundary each device sends a BEAT frame (R189). -/
def State.beatSend (s : State) : State :=
  ({ s with twin := { s.twin with beatMiss := if s.twin.linkUp then s.twin.beatMiss + 1 else 0 } } : State).linkSend
    (.beat s.btm.beat s.tai)

/-- SNAP_FRAME_RECEIVE (R180, R222). -/
def execSnapFrameReceive (f : LinkFrame) (b : SnapBody) (s : State) : Res :=
  s.frameRx f 5 fun s => match b with
    | .session i e =>
      let x := Session.ofBytes e
      if (s.sess i).st = 0 ∨ (s.sess i).st = 5 then
        s.setSess i (if Bytes.le e 2 1 = 0 then {} else x)
      else s
    | .shelf n regs gens =>
      { s with twin := { s.twin with snapShelf := (n, regs, gens) :: s.twin.snapShelf.filter (fun p => p.1 ≠ n) } }

/-! ### Takeover at a beat boundary (R197 step 2 and 3) -/

/-- One lane of the set moves from MIRROR to IN_SERVICE with the shelf state of R180 and a TAKEOVER record. Its tile memory is
cleared as a lane reset clears it (R136), and no transient key is left (R121). -/
def State.takeLane (s : State) (k prev : Nat) : State :=
  if (s.lane k).st ≠ 5 then s
  else
    let (live, gens) := match s.twin.snapShelf.find? (fun p => p.1 = k) with
      | some (_, r, g) => (r, g)
      | none => ((s.lane k).live, [])
    let s := live.foldl (fun s (p : Nat × W32) => s.setLreg k p.1 p.2.toNat) s
    let nx := fun (o : Nat) => (List.range 8).foldl (fun (m : SMap Nat) i => SMap.set 0 i ((gens.getD (o + i) 0 + 1) % 65536) m) []
    let s := s.modLane k (fun l =>
      ({ l.clear s.laneClk with st := 2, live := live, hshGen := nx 0, rshGen := nx 8 } : Lane).startService)
    let s := s.clearShelves k
    let s := s.acceptOwn k 0x02 0 1 (resetPayload [] [] prev)
    { s with net := { s.net with sessions := s.net.sessions.map (fun (p : Nat × Session) =>
        if p.1 / 4096 = k ∧ p.2.st = 5 then (p.1, { p.2 with st := 6, created := s.btm.beat, reclaimClk := s.laneClk }) else p) } }
/-- The takeover stops: its witness copies are unobtainable, or a lane of the set is not MIRROR (R197). -/
def State.takeoverStop (s : State) : State :=
  (({ s with twin := { s.twin with takeover := .none, takeLanes := 0, takeAt := none } }).setPairCode 0x140C).gEvt 7 0 0x140C 0x1FF s.twin.peer 0 0
/-- The switch at the boundary after the copies have been fetched, or, for a handover, at the epoch boundary the peer named.
Every ring of the set becomes active first, so that a seal of this cycle goes before the TAKEOVER records (R166). -/
def State.takeoverSwitch (s : State) : State :=
  let due := match s.twin.takeAt with
    | some e => s.btm.beat % 100 = 0 && decide (e ≤ s.epoch)
    | none => true
  if s.twin.takeover = .ready && due then
    let lanes := (List.range 16).filter (fun k => if s.twin.takeLanes = 0 then !bit s.twin.home k else bit s.twin.takeLanes k)
    if lanes.any (fun k => (s.lane k).st ≠ 5) then s.takeoverStop
    else
    let s := lanes.foldl (fun s k => s.activateMirror k) s
    let s := lanes.foldl (fun s k => s.takeLane k s.twin.peer) s
    let garp := s.net.addrs.foldl (fun (m : SMap Nat) (p : Nat × Option LocalAddr) => match p.2 with
      | some a => if !a.fabric ∧ lanes.any (fun k => bit a.homeSet k) then SMap.set 0 p.1 3 m else m
      | none => m) s.net.garp
    let s := { s with net := { s.net with garp := garp },
                      twin := { s.twin with takeover := .none, takeLanes := 0, takeAt := none,
                                            home := lanes.foldl (fun a k => a ||| (1 <<< k)) s.twin.home } }
    s.raiseIrq twnBase 6
  else s

/-! ### Lane handover (R198) -/

/-- At the epoch boundary before the one named, or later, once every lane has drained, the peer is told; at the next both
devices switch, before the seals of that boundary, which then belong to the peer. -/
def State.handoverSwitch (s : State) : State :=
  match s.twin.handover with
  | some (m, e, told) =>
    let ks := (List.range 16).filter (fun k => bit m k)
    match told with
    | some a =>
      if a ≤ s.epoch then
        let s := ks.foldl (fun s k => s.giveLane k) s
        { s with twin := { s.twin with handover := none, home := s.twin.home &&& (0xFFFF - m) } }
      else s
    | none =>
      if s.twin.pair = 4 ∧ e ≤ s.epoch + 1 ∧ ks.all (fun k => (s.lane k).inflight = 0 && !(s.ring k).unconf) then
        ({ s with twin := { s.twin with handover := some (m, e, some (s.epoch + 1)) } } : State).ctlSend (.takeover m (s.epoch + 1))
      else s
  | none => s

end Sys2Proof.Machine
end

