-- ==== Sys2Proof/Machine/Rhax.lean ====
section
/-!
DEFINITION. The Rhax fabric (R199 to R203), witness leases and copies (R191 to R197), and takeover by lease (R197).
-/

namespace Sys2Proof.Machine
open Sys2Proof

/-! ### Checks of a received message (R199, R200) -/

/-- A refusal of R199: counted; the first for a sender and code in an epoch is a POLICY record. -/
def State.rhaxRefused (s : State) (src type code : Nat) : State :=
  let s := s.incReg (twnBase + 0x34) 1
  let same := fun (r : RefCount) => decide (r.key = src) && decide (r.reason = code)
  let rec_ := fun (s : State) (cnt : Nat) => s.policyRec 0x41 code 0 cnt []
    (Bytes.ofNatLE 4 src ++ Bytes.ofNatLE 1 type ++ Bytes.ofNatLE 2 code ++ Bytes.ofNatLE 2 cnt)
  match s.twin.refusedLog.find? same with
  | some r =>
    let up := fun (e c : Nat) => { s with twin := { s.twin with refusedLog := s.twin.refusedLog.map (fun x =>
      if same x then { x with epoch := e, count := c } else x) } }
    if r.epoch = s.epoch then up r.epoch (satAdd r.count 1 0xFFFF) else rec_ (up s.epoch 0) r.count
  | none => rec_ { s with twin := { s.twin with refusedLog := s.twin.refusedLog ++ [(⟨src, 0, code, s.epoch, 0⟩ : RefCount)] } } 0

/-- The fabric key of a generation: slot 4 for the current, slot 5 for the one before (R361). -/
def State.fabricKey (s : State) (g : Nat) : Bool :=
  if g = s.str.rootGen then (s.slot 4).held
  else if g + 1 = s.str.rootGen then (s.slot 5).held else false
/-- The code with which R199 refuses a message; 0 when it passes. -/
def State.rhaxCode (s : State) (h : RhaxHdr) (exempt : Bool) : Nat :=
  match s.twin.dom with
  | none => 0x1416
  | some d =>
    if !h.tagOk ∨ !s.fabricKey h.keyEpoch then 0x1416
    else if h.domain ≠ d.domain ∨ h.config < d.configMin ∨ h.config > d.configMax then 0x1410
    else if h.keyEpoch ≠ s.str.rootGen ∧ h.keyEpoch + 1 ≠ s.str.rootGen then 0x1411
    else if !exempt ∧ s.twin.outliers.contains h.src then 0x1415 else 0
/-- Answer a request and remember the answer for a repeated MSEQ (R200). -/
def State.rhaxAnswer (s : State) (h : RhaxHdr) (type code : Nat) (body : RhaxBody := .none) : State :=
  let o : RhaxOut := { type := type, dst := h.src, mseq := h.mseq, code := code, body := body }
  let s : State := { s with twin := { s.twin with answered := s.twin.answered ++ [(h.src, h.mseq, o)] } }
  s.rhaxSend type h.src h.mseq code body
/-- The messages that are requests, which an answer closes (Table TWN-5). -/
def isRequest (type : Nat) : Bool := [0x01, 0x10, 0x12, 0x20, 0x23, 0x30].contains type
/-- A message acts only after the checks; a request whose MSEQ has been answered gets its first answer again. -/
def State.rhaxRx (s : State) (h : RhaxHdr) (type : Nat) (exempt : Bool) (f : State → State) : Res :=
  let code := s.rhaxCode h exempt
  if code = 0x1416 then .next (s.rhaxRefused h.src type code)
  else if code ≠ 0 then .next ((s.rhaxRefused h.src type code).rhaxSend 0x7F h.src h.mseq code)
  else match (if isRequest type then s.twin.answered.find? (fun a => decide (a.1 = h.src) && decide (a.2.1 = h.mseq)) else none) with
    | some a => .next { s with twin := { s.twin with sent := s.twin.sent ++ [a.2.2] } }
    | none => .next (f s)
/-- An answer ends the request it answers; a message that answers no request of ours does nothing. -/
def State.rhaxReply (s : State) (h : RhaxHdr) (types : List Nat) (f : State → RhaxReq → State) : State :=
  match s.twin.reqs.find? (fun r => decide (r.dst = h.src) && decide (r.mseq = h.mseq) && types.contains r.type) with
  | some r => f { s with twin := { s.twin with reqs := s.twin.reqs.filter (fun q => !(decide (q.dst = h.src) && decide (q.mseq = h.mseq))) } } r
  | none => s

/-! ### Leases: the witness (R191, R192) -/

def State.wLease (s : State) (home : Nat) : Option WitLease := s.twin.wLeases.find? (fun l => l.home = home)
def State.setWLease (s : State) (l : WitLease) : State :=
  { s with twin := { s.twin with wLeases := l :: s.twin.wLeases.filter (fun x => x.home ≠ l.home) } }
/-- The witness's decision on a request: 0 grants, else the refusal's code. The pair of a home set is the home device
and the first other device that asks for its lease. -/
def State.leaseCode (s : State) (home src : Nat) : Nat :=
  if s.btm.far ∨ s.twin.farDevs.contains src then 0x1415
  else if s.twin.wQuiet ≠ 0 then 0x1413
  else match s.wLease home with
    | none => 0
    | some l =>
      let twin := decide (src = home) || (match l.other with
        | some o => o = src
        | none => true)
      if !twin then 0x1413
      else match l.holder with
        | none => 0
        | some x => if x = src then 0 else if l.expired ∨ l.until_ ≤ s.laneClk then 0 else 0x1412
/-- LEASE_LEN of the domain configuration, in epochs. -/
def State.leaseLen (s : State) : Nat := match s.twin.dom with
  | some d => d.leaseLen
  | none => 3
/-- Lane cycles of an epoch of 100 beats. -/
def epochCycles : Nat := 1600000
/-- A request whose CONFIG or KEY_EPOCH lies outside the window is refused with 0x1413 (R192), before R199 names its own code
for them (DEDUCED, log 172). -/
def State.leaseWindow (s : State) (h : RhaxHdr) : Bool :=
  let c := s.rhaxCode h false
  c = 0x1411 || (c = 0x1410 && (match s.twin.dom with
    | some d => d.domain = h.domain
    | none => false))
/-- LEASE_REQ (R192): a grant's count at the witness runs for LEASE_LEN and one epoch. -/
def execLeaseReq (h : RhaxHdr) (home : Nat) (s : State) : Res :=
  if s.leaseWindow h then .next ((s.rhaxRefused h.src 0x01 0x1413).rhaxAnswer h 0x03 0x1413 (.home home))
  else s.rhaxRx h 0x01 false fun s =>
    let c := s.leaseCode home h.src
    let l := (s.wLease home).getD { home := home }
    let l := if h.src ≠ home ∧ l.other.isNone ∧ c ≠ 0x1413 ∧ c ≠ 0x1415 then { l with other := some h.src } else l
    if c = 0 then
      (s.setWLease { l with holder := some h.src, expired := false, until_ := s.laneClk + (s.leaseLen + 1) * epochCycles }).rhaxAnswer
        h 0x02 0 (.home home)
    else (if c = 0x1412 then s.setWLease l else s).rhaxAnswer h 0x03 c (.home home)
/-- LEASE_RELEASE: the lease becomes free at once. -/
def execLeaseRelease (h : RhaxHdr) (home : Nat) (s : State) : Res :=
  s.rhaxRx h 0x04 false fun s => match s.wLease home with
    | some l => if l.holder = some h.src then s.setWLease { l with holder := none, expired := false } else s
    | none => s
/-- WITNESS_LEASE_EXPIRY: the witness's count ends. -/
def execWitnessLeaseExpiry (home : Nat) (s : State) : Res :=
  match s.wLease home with
  | some l => .next (if l.holder.isSome ∧ l.until_ ≤ s.laneClk then s.setWLease { l with expired := true } else s)
  | none => .next s

/-! ### Leases: the holder (R191, R193, R197) -/

/-- This device's own grant returns a HELD device to WITNESS while the pair is apart (R170, R193). -/
def State.granted (s : State) : State := if s.jrn.mode = 3 ∧ s.twin.pair ≠ 4 then s.enterApart else s
/-- In WITNESS, the twin's lease opens the rings of its home set that this device has taken over, or its loss holds them
(R196). -/
def State.twinRings (s : State) : State :=
  if s.jrn.mode = 2 then
    (List.range 16).foldl (fun s k =>
      if bit s.twin.homeCfg k || !(s.ring k).online then s
      else ((s.witnessRing k).holdRing k (fun r => { r with pairHold := !s.twin.twinLease })).acceptLate k) s
  else s
/-- LEASE_GRANT: the lease counts from the granted request's first transmission for LEASE_LEN, through the lane cycle in which
that count ends (R191). -/
def execLeaseGrant (h : RhaxHdr) (home : Nat) (s : State) : Res :=
  s.rhaxRx h 0x02 false fun s => s.rhaxReply h [0x01] fun s r =>
    let end_ := r.clk + s.leaseLen * epochCycles
    if r.ref ≠ home ∨ end_ < s.laneClk then s
    else if home = s.twin.deviceId then ({ s with twin := { s.twin with lease := true, leaseUntil := end_ } }).granted
    else
      let s := ({ s with twin := { s.twin with twinLease := true, twinUntil := end_ } }).twinRings
      if s.twin.takeover = .wantLease then
        ({ s with twin := { s.twin with takeover := .fetching } }).rhaxReq 0x12 s.witnessId home (.home home)
      else s
/-- LEASE_REFUSE: retried at every epoch boundary, for a takeover every 100 µs. -/
def execLeaseRefuse (h : RhaxHdr) (home : Nat) (_code : Code) (s : State) : Res :=
  s.rhaxRx h 0x03 false fun s => s.rhaxReply h [0x01] fun s r =>
    if r.ref ≠ home then s
    else s.raiseIrq twnBase 4
/-- LEASE_EXPIRY: the holder's count ends. A device in WITNESS that loses its own lease enters HELD; the loss of the twin's
holds the lanes taken over under it (R193, R196). -/
def execLeaseExpiry (ownHome : Bool) (s : State) : Res :=
  let held := if ownHome then s.twin.lease && decide (s.twin.leaseUntil ≤ s.laneClk)
    else s.twin.twinLease && decide (s.twin.twinUntil ≤ s.laneClk)
  if !held then .next s
  else if ownHome then
    let s := ({ s with twin := { s.twin with lease := false } } : State).raiseIrq twnBase 4
    .next (if s.jrn.mode = 2 then s.setMode 3 else s)
  else .next ((({ s with twin := { s.twin with twinLease := false } } : State).raiseIrq twnBase 4).twinRings)
/-- TAKEOVER_LEASE_RETRY: every 100 µs while the twin's lease is refused. -/
def execTakeoverLeaseRetry (s : State) : Res :=
  if s.twin.takeover = .wantLease ∧ takeoverEn s ∧ !s.twin.reqs.any (fun r => r.type = 0x01 ∧ r.ref = s.twin.peer) then
    .next (s.leaseReq s.twin.peer)
  else .next s

/-! ### Witness copies (R194, R197) -/

/-- The witness area: its first byte and its size, 1 GiB unless the domain membership sets another. -/
def State.witArea (s : State) : Nat × Nat := match s.twin.dom with
  | some d => (d.witnessBase, if d.witnessArea = 0 then 2 ^ 30 else d.witnessArea)
  | none => (0, 0)
/-- The lowest place in the witness area for `len` bytes among the copies held; none when the area is full. The order of copies
in the area is the model's (DESIGN CHOICE, log 173). -/
def witPlace (held : List (Nat × Nat)) (size len : Nat) : Option Nat :=
  ((0 :: held.map (fun p => p.1 + p.2)).filter (fun o =>
    decide (o + len ≤ size) && held.all (fun p => decide (o + len ≤ p.1 ∨ p.1 + p.2 ≤ o)))).min?
/-- WCOPY: the copy is in the witness area in DRAM before the answer leaves. A copy held already is acknowledged again. -/
def execWcopy (h : RhaxHdr) (k : RingId) (b : Bytes) (s : State) : Res :=
  s.rhaxRx h 0x10 false fun s =>
    let (base, size) := s.witArea
    let s : State := { s with twin := { s.twin with wDrops := s.twin.wDrops.filter (fun d => d.1 ≠ h.src) } }
    if s.twin.wCopies.any (fun c => c.1 = h.src && c.2.1 = k.val && s.dramRead (base + c.2.2.1) c.2.2.2 = b) then s.rhaxAnswer h 0x11 0
    else match witPlace (s.twin.wCopies.map (fun c => (c.2.2.1, c.2.2.2))) size b.length with
      | none => s.drew.rhaxAnswer h 0x7F (s.freeFail 0x14)
      | some o =>
        let s := s.dramWrite (base + o) b
        ({ s with twin := { s.twin with wCopies := s.twin.wCopies ++ [(h.src, k.val, o, b.length)] } } : State).rhaxAnswer h 0x11 0
/-- WCOPY_ACK: the record commits with 0x13C2 once its predecessors have (R170). -/
def execWcopyAck (h : RhaxHdr) (k : RingId) (seq : Nat) (s : State) : Res :=
  s.rhaxRx h 0x11 false fun s =>
    let s : State := { s with twin := { s.twin with
      reqs := s.twin.reqs.filter (fun q => !(decide (q.type = 0x10) && decide (q.ref = wcopyRef k seq))) } }
    if s.jrn.mode = 2 then
      (s.modRing k (fun r => r.mark seq (fun x => { x with acked := true, wit := true }))).commit k
    else s
/-- The devices of a pair as the witness knows them. -/
def State.pairOf (s : State) (d : Nat) : List Nat :=
  d :: s.twin.wLeases.flatMap (fun l => match l.other with
    | some o => if l.home = d then [o] else if o = d then [l.home] else []
    | none => [])
/-- The copies the witness holds for the rings of a home set's device, read from its area. -/
def State.copiesOf (s : State) (dev : Nat) : List (Nat × Bytes) :=
  (s.twin.wCopies.filter (fun c => c.1 = dev)).map (fun c => (c.2.1, s.dramRead (s.witArea.1 + c.2.2.1) c.2.2.2))
/-- WCOPY_FETCH: the copies that the device of the home set sent are returned, as many to a message as its 8,960 bytes of
payload hold; a repeated request gets the last message's answer. -/
def execWcopyFetch (h : RhaxHdr) (home : Nat) (s : State) : Res :=
  s.rhaxRx h 0x12 false fun s =>
    let cs := s.copiesOf home
    let parts := (List.range (cs.length / 34)).map (fun i => (cs.drop (34 * i)).take 34)
    let s := parts.foldl (fun s p => s.rhaxSend 0x13 h.src h.mseq 0 (.copies p false)) s
    s.rhaxAnswer h 0x13 0 (.copies (cs.drop (34 * (cs.length / 34))) true)
/-- WCOPY_DATA: fetched copies are appended to the mirror copies; after the last one the takeover switches at the next
boundary. -/
def execWcopyData (h : RhaxHdr) (copies : List (Nat × Bytes)) (last : Bool) (s : State) : Res :=
  s.rhaxRx h 0x13 false fun s =>
    if s.twin.takeover ≠ .fetching then s
    else
      let s := copies.foldl (fun s p => match (s.ring p.1).mirrorPut p.2 with
        | some r => s.setRing p.1 r
        | none => s) s
      if last then s.rhaxReply h [0x12] fun s _ => { s with twin := { s.twin with takeover := .ready } } else s
/-- WCOPY_DROP: a pair's copies go once both twins have dropped them. -/
def execWcopyDrop (h : RhaxHdr) (s : State) : Res :=
  s.rhaxRx h 0x14 false fun s =>
    let ds := h.src :: s.twin.wDrops.map (·.1)
    let pr := s.pairOf h.src
    if pr.length > 1 ∧ pr.all (fun d => ds.contains d) then
      { s with twin := { s.twin with wCopies := s.twin.wCopies.filter (fun c => !pr.contains c.1), wDrops := s.twin.wDrops.filter (fun d => !pr.contains d.1) } }
    else { s with twin := { s.twin with wDrops := (h.src, 0) :: s.twin.wDrops } }
/-- WITNESS_SILENCE: the lower-ID twin of a PAIRED pair proposes the next candidate (R195). -/
def execWitnessSilence (s : State) : Res :=
  let i := s.twin.witness + 1
  let cand := match s.twin.dom with
    | some d => d.witness.getD i noVal
    | none => noVal
  if s.twin.pair = 4 ∧ s.twin.deviceId < s.twin.peer ∧ cand ≠ noVal then
    .next (({ s with twin := { s.twin with witProposed := some i, witAcked := false } }).ctlSend (.witnessPropose i))
  else .next s

/-! ### Lane transfers (R201) -/

/-- A transfer failed: NET reports 0x1603 to the lane, the reason goes to Garret. -/
def State.xferFail (s : State) (r : RhaxReq) (code : Nat) : State :=
  (s.undeliver (r.ref / 4096) (r.ref % 4096) 0x1603).gEvt 8 0 (BitVec.ofNat 16 code) 0x1FF r.dst r.ref 0
/-- XFER_OFFER: the target keeps the hallmark, the route and the chain tag before the last link; it refuses with 0x1414 when no
lane serves. -/
def execXferOffer (h : RhaxHdr) (hallmark : Bytes) (route : Nat) (prev : D64) (s : State) : Res :=
  s.rhaxRx h 0x20 false fun s =>
    if (List.range 16).any (fun n => (s.lane n).st = 2) then
      ({ s with twin := { s.twin with xfersIn := s.twin.xfersIn ++ [({ src := h.src, mseq := h.mseq, hallmark := hallmark, route := route, prev := prev } : XferIn)] } }).rhaxAnswer h 0x21 0
    else s.rhaxAnswer h 0x22 0x1414
/-- XFER_ACCEPT: the source sends the tiles. -/
def execXferAccept (h : RhaxHdr) (s : State) : Res :=
  s.rhaxRx h 0x21 false fun s => s.rhaxReply h [0x20] fun s r =>
    let l := s.lane (r.ref / 4096)
    let first := ((l.msg (r.ref % 4096)).bind (fun m => m.trace.getLast?.map (·.tile))).getD endTile
    s.rhaxReq 0x23 h.src r.ref (.tiles (l.content ((l.chain first).getD [])))
/-- XFER_REFUSE. -/
def execXferRefuse (h : RhaxHdr) (code : Code) (s : State) : Res :=
  s.rhaxRx h 0x22 false fun s => s.rhaxReply h [0x20, 0x23] fun s r => s.xferFail r code.toNat
/-- The oldest transfer pending from a device gets more of its bytes: no rule names a transfer in XFER_TILES (DESIGN CHOICE,
log 174). -/
def xferGrow (src mseq : Nat) (body : Bytes) : List XferIn → List XferIn
  | [] => []
  | x :: xs => if x.src = src then { x with body := x.body ++ body, mseq := mseq } :: xs else x :: xferGrow src mseq body xs
/-- XFER_TILES: the target receives tiles. -/
def execXferTiles (h : RhaxHdr) (body : Bytes) (s : State) : Res :=
  s.rhaxRx h 0x23 false fun s => { s with twin := { s.twin with xfersIn := xferGrow h.src h.mseq body s.twin.xfersIn } }
/-- The engine a route code names on the lane of a hallmark (Table JRN-4). -/
def routeEng (n c : Nat) : Nat := if c = 6 then 0x400 else if c = 4 then 0x100 + n else if c = 5 then 0x200 + n else 4 * n + c
/-- The last link of a transferred chain: its unit by ROUTE, its digest over the transferred bytes, and CHAIN from the tag
before it (R201 step 3, R144); the tag before the first link is ORIGIN. -/
def xferLinkOk (key : Bytes) (hm : Hallmark) (x : XferIn) : Bool :=
  let isHm := decide (x.body.take 8 = Bytes.ofNatLE 8 hm.origin.toNat)
  decide (1 ≤ hm.step ∧ hm.step ≤ 15) && (decide (hm.step ≠ 1) || x.prev = hm.origin)
    && linkTag key x.prev (outDigest key isHm x.body) (routeEng hm.lane (bits x.route (3 * hm.step - 1) (3 * hm.step - 3))) hm.step = hm.chain
/-- The target mints the transferred message: the source hallmark followed by its bytes, with FLAGS TRANSFER. -/
def State.xferMint (s : State) (h : RhaxHdr) (x : XferIn) (n cls sess : Nat) : State :=
  let drop : State := { s with twin := { s.twin with xfersIn := s.twin.xfersIn.erase x } }
  let hm := Hallmark.ofBytes x.hallmark
  let b := x.hallmark ++ x.body
  let l := s.lane n
  let k := cdiv b.length 256
  let free := l.freeTiles k
  let linkOk := match s.hmKey hm with
    | some k => xferLinkOk k hm x
    | none => false
  match (List.range 4096).find? (fun i => (l.msg i).isNone), s.mintKey with
  | some hd, some key =>
    if !linkOk ∨ (l.st ≠ 2 ∧ l.st ≠ 3) ∨ free.length < k ∨ l.inflight ≥ 4096 then drop.rhaxAnswer h 0x22 0x1414
    else
      let m0 : Hallmark := { device := s.twin.deviceId, flags := 16, lane := n, session := sess, beat := s.btm.beat % 2 ^ 46 }
      let t := originTag key b m0
      let m : Msg := { hm := { m0 with origin := t, chain := t }, cls := cls, first := free.getD 0 endTile, len := b.length, mintClk := s.laneClk }
      let l := (putChain (linkNew l true true free) free b).1
      let cd : Cand := { h := hd, outbound := false, cls := cls, born := s.btm.beat, input := b.length }
      let l : Lane := { (l.setMsg hd m) with cands := l.cands ++ [cd] }
      ((drop.setLane n l).lpmu n 0 1).rhaxAnswer h 0x24 0
  | _, _ => drop.rhaxAnswer h 0x22 0x1414
/-- XFER_DONE: at the target the last tiles have arrived; at the source the transfer has ended. -/
def execXferDone (h : RhaxHdr) (n : LaneId) (cls : Fin 32) (sess : SessId) (s : State) : Res :=
  s.rhaxRx h 0x24 false fun s => match s.twin.xfersIn.find? (fun x => x.src = h.src) with
    | some x => s.xferMint h x n cls sess
    | none => s.rhaxReply h [0x23] fun s r => s.modLane (r.ref / 4096) (fun l =>
        (match l.msg (r.ref % 4096) with
          | some m => l.setMsg (r.ref % 4096) { m with atPort := false }
          | none => l).retireMsg (r.ref % 4096))

/-! ### Verification and time (R157, R202, R203) -/

/-- Replay a chain from its route and the output of each step (R157): 0x0000 match, 0x1202 mismatch. -/
def replayChain (key : Bytes) (hm : Hallmark) (route : Nat) (outs : List Bytes) : Nat :=
  let tr := (outs.zip (List.range outs.length)).map (fun p =>
    let isHm := decide (p.1.take 8 = Bytes.ofNatLE 8 hm.origin.toNat)
    (⟨routeEng hm.lane (bits route (3 * p.2 + 2) (3 * p.2)), outDigest key isHm p.1, endTile, isHm⟩ : Link))
  if outs.length = hm.step ∧ recompute key hm.origin tr = hm.chain then 0 else 0x1202
/-- VERIFY_REQ: at most 64 KiB of outputs; a longer message is no VERIFY_REQ and is dropped. -/
def execVerifyReq (h : RhaxHdr) (hallmark : Bytes) (route : Nat) (outs : List Bytes) (s : State) : Res :=
  if outs.foldl (fun a b => a + b.length) 0 > 65536 then .next s
  else s.rhaxRx h 0x30 true fun s =>
    let hm := Hallmark.ofBytes hallmark
    match s.hmKey hm with
    | some k => s.rhaxAnswer h 0x31 (replayChain k hm route outs)
    | none => s.rhaxAnswer h 0x31 0x1411
/-- VERIFY_RESP. -/
def execVerifyResp (h : RhaxHdr) (code : Code) (s : State) : Res :=
  s.rhaxRx h 0x31 false fun s => s.rhaxReply h [0x30] fun s _ => { s with twin := { s.twin with verifyAns := some code } }
/-- TIME_ANNOUNCE: more than 100 µs apart marks the sender, an announcement within clears the mark; BTM_STATUS shows whether
its FAR is set (R191). -/
def execTimeAnnounce (h : RhaxHdr) (_gm : D64) (_off : Int) (st : W32) (ns : Nat) (s : State) : Res :=
  s.rhaxRx h 0x40 true fun s =>
    let out := decide ((max ns s.tai) - (min ns s.tai) > 100000)
    let mark := fun (on : Bool) (xs : List Nat) => (xs.filter (fun d => d ≠ h.src)) ++ (if on then [h.src] else [])
    { s with twin := { s.twin with outliers := mark out s.twin.outliers, farDevs := mark (bit st.toNat 3) s.twin.farDevs } }

/-! ### Refusals and retries (R199, R200) -/

/-- What the failure of a request means for the unit that made it. -/
def State.reqFailed (s : State) (r : RhaxReq) (code : Nat) : State :=
  if r.type = 0x20 ∨ r.type = 0x23 then s.xferFail r code
  else if r.type = 0x12 then
    s.takeoverStop
  else if r.type = 0x01 then s.raiseIrq twnBase 4
  else if r.type = 0x10 then (if s.jrn.mode = 2 then s.setMode 3 else s)
  else s
/-- REFUSE. -/
def execRefuse (h : RhaxHdr) (_rtype : Nat) (code : Code) (s : State) : Res :=
  s.rhaxRx h 0x7F false fun s => (s.incReg (twnBase + 0x34) 1).rhaxReply h [0x01, 0x10, 0x12, 0x20, 0x23, 0x30] fun s r => s.reqFailed r code.toNat
/-- RHAX_RETRY_TIMER: resent with the same MSEQ up to 5 times, then 0x1417. -/
def execRhaxRetryTimer (dst mseq : Nat) (s : State) : Res :=
  let hit := fun (r : RhaxReq) => decide (r.dst = dst) && decide (r.mseq = mseq)
  match s.twin.reqs.find? hit with
  | none => .next s
  | some r =>
    if s.laneClk < r.sent + 32000 then .next s
    else if r.tries ≤ 5 then
      .next (({ s with twin := { s.twin with reqs := s.twin.reqs.map (fun x => if hit x then { x with tries := x.tries + 1, sent := s.laneClk } else x) } }).rhaxSend r.type r.dst r.mseq 0 r.body)
    else
      .next (({ s with twin := { s.twin with reqs := s.twin.reqs.filter (fun x => !hit x) } }).reqFailed r 0x1417)

end Sys2Proof.Machine
end

