-- ==== Sys2Proof/Machine/Beat.lean ====
section
/-!
DEFINITION. The beat timer: its start and restart (R53, R54), the beat boundary (R26, R51 to R56, R197, R239) and the
epoch boundary (R61, R141, R175, R191, R195, R203, R362).
-/

namespace Sys2Proof.Machine
open Sys2Proof

/-- NET's PTP counter in ns: the lane clock and the steps applied to it (R225). -/
def State.ptpNs (s : State) : Nat := ((s.laneClk * 5 / 8 : Nat) + s.net.ptpShift : Int).toNat
/-- The epochs before the beat timer's beat need no seal: its first epoch boundary ends the partial epoch (R175). -/
def Jrn.startEpoch (j : Jrn) (beat : Nat) : Jrn := { j with epochDone := beat / 100 }
/-- BEAT_TIMER_START (R54): once PTP has locked, at the next boundary of the PTP counter. -/
def execBeatTimerStart (s : State) : Res :=
  if s.btm.running ∨ !s.btm.ptpLocked then .next s
  else
    let b := cdiv s.ptpNs 10000
    let wait := cdiv ((b * 10000 - s.ptpNs) * 8) 5
    let s : State := { s with pwr := { s.pwr with boot := if s.pwr.boot = 3 then 4 else s.pwr.boot } }
    .next { s with laneClk := s.laneClk + wait, jrn := s.jrn.startEpoch b, btm := {
      s.btm with running := true, beat := b, cyc := 0, len := 16000, offset := 0, far := false, holdover := false,
                 locked := true } }
/-- BEAT_TIMER_RESTART (R53): accepted only while every lane is OFFLINE. -/
def execBeatTimerRestart (s : State) : Res :=
  if s.btm.running ∧ (List.range 16).all (fun n => (s.lane n).st = 0) then
    let p := s.ptpNs
    .next { s with jrn := s.jrn.startEpoch (p / 10000), btm := { s.btm with
      beat := p / 10000, cyc := p % 10000 * 8 / 5, len := 16000, offset := 0, far := false, locked := true } }
  else .next s

/-- The next beat's length: 16,000 lane cycles and an adjustment of at most 16 that reduces the offset (R52, R53). -/
def beatLen (holdover : Bool) (offset : Int) : Nat :=
  if holdover then 16000 else (16000 + max (-16) (min 16 ((offset * 8).tdiv 5)) : Int).toNat
/-- The beat timer at a boundary. -/
def Btm.boundary (b : Btm) (offset : Int) : Btm :=
  { b with
    beat := b.beat + 1, cyc := 0, offset := offset, holdover := !b.ptpLocked, len := beatLen (!b.ptpLocked) offset,
    locked := decide (offset.natAbs < 100), far := decide (offset.natAbs > 10000) }
/-- A hart in BEAT.WAIT observes a beat at least its target and retires (R239). -/
def Hart.beatWake (h : Hart) (beat : Nat) : Hart :=
  match h.wait with
  | .beat rd t => if t ≤ beat ∧ h.run ∧ !h.halted then h.ret rd (BitVec.ofNat 64 beat) 4 else h
  | _ => h
/-- BEAT_BOUNDARY: all lanes observe the boundary in the same lane cycle (R26, R52). -/
def execBeatBoundary (offset : Int) (s : State) : Res :=
  if !s.btm.running then .next s
  else
    let s : State := { s with laneClk := s.laneClk + (s.btm.len - s.btm.cyc), btm := s.btm.boundary offset }
    let s : State := { s with mem := s.mem.partApply }
    let s := s.beatSend
    let s := (if s.btm.beat % 100 = 0 then s.handoverSwitch else s).takeoverSwitch
    let s := (List.range 16).foldl (fun s n => s.laneBoundary n) s
    let s : State := { s with gar := { s.gar with standby := s.tai } }
    .next { s with harts := s.harts.map (fun (p : Nat × Hart) => (p.1, p.2.beatWake s.btm.beat)) }

/-! ### Epochs -/

/-- Both twins move to the acknowledged witness proposal: fresh leases, and a MODE record with its ID (R195). -/
def State.witnessMove (s : State) : State :=
  match s.twin.witProposed with
  | some i =>
    if s.twin.witAcked ∧ s.twin.pair = 4 then
      let s : State := { s with twin := { s.twin with
        witness := i, witProposed := none, witAcked := false, lease := false, twinLease := false } }
      s.sealDue.modeRecs
    else s
  | none => s
/-- A device that has asked for a lease renews it, or asks again for a lost one (R191, R193). -/
def State.renew (s : State) : State :=
  if !s.twin.leaseAsked then s
  else
    let s := s.leaseReq s.twin.deviceId
    let taken := s.twin.pair ≠ 4 && (List.range 16).any (fun k => bit s.twin.home k && !bit s.twin.homeCfg k)
    if s.twin.twinLease || taken then s.leaseReq s.twin.peer else s
/-- TIME_ANNOUNCE to the twin and the witness: the grandmaster, BTM_OFFSET, BTM_STATUS and the time (R203). -/
def State.announce (s : State) : State :=
  if s.twin.dom.isNone then s
  else
    let b : RhaxBody := .announce s.net.ptpGm s.btm.offset s.btmStatus s.tai
    let s := if s.twin.peer = 0 then s else s.rhaxTell 0x40 s.twin.peer b
    if s.witnessId = noVal then s else s.rhaxTell 0x40 s.witnessId b
/-- The root before the current one is erased 1,000 epochs after the current one took effect (R141). -/
def State.dropRoot (s : State) : State :=
  if s.str.rootFrom + 1000 ≤ s.epoch ∧ (s.slot 3).held then s.eraseSlot 3 else s
/-- EPOCH_BOUNDARY: ends the epoch before the current beat, which is a multiple of 100. -/
def execEpochBoundary (s : State) : Res :=
  if !s.btm.running ∨ s.btm.beat % 100 ≠ 0 then .next s
  else
    let e := s.btm.beat / 100
    let s := s.sealDue
    let s := (List.range 16).foldl (fun s n =>
      (s.setLreg n 0x34 0).modLane n (fun l => { l with stormReq := false })) s
    let s := s.witnessMove.renew.announce.dropRoot
    .next { s with
      twin := { s.twin with wQuiet := s.twin.wQuiet - 1 },
      str := if s.str.entFail then s.str else { s.str with lastReseed := e, lapsed := false },
      cel := if s.cel.st = 3 then { s.cel with heartbeat := (s.cel.heartbeat + 1) % 2 ^ 32 } else s.cel }

end Sys2Proof.Machine
end

