-- ==== Sys2Proof/Machine/View.lean ====
section
/-!
DEFINITION. Status registers that show state rather than hold it: lanes, journal, twin link, NET, mailboxes, Cellarer,
Garret, Strongroom (the bit tables of chapters "Lanes and beats" to "Performance counters and the Garret recorder").
-/

namespace Sys2Proof.Machine
open Sys2Proof

/-- CEL.STATUS. -/
def State.celStatus (s : State) : Nat := s.cel.restarts * 2 ^ 16 + s.cel.cause * 2 ^ 8 + s.cel.st
/-- LANE[n].STATUS. A lane without a program has no threads to count (its reset value is 0). -/
def State.laneStatus (s : State) (n : Nat) : Nat :=
  let l := s.lane n
  let idle := if l.loaded then ((List.range 8).filter (fun t => decide ((l.thr t).run = .idle))).length else 0
  l.inflight * 2 ^ 16 + idle * 2 ^ 12 + b2n (s.commitOk n) * 2 ^ 5 + l.bank * 2 ^ 4 + l.st
/-- JRN.STATUS. -/
def State.jrnStatus (s : State) : Nat := b2n s.twin.lease * 32 + b2n s.twin.linkUp * 16 + s.jrn.mode
/-- JRN.RING[k].STATUS. -/
def State.ringStatus (s : State) (k : Nat) : Nat :=
  let r := s.ring k
  min 4096 (cdiv r.fill 1024) * 2 ^ 16 + b2n r.unconf * 16 + r.hold
/-- JRN.MIRROR[k].STATUS in the layout of RING[k].STATUS. -/
def State.mirrorStatus (s : State) (k : Nat) : Nat :=
  let r := s.ring k
  min 4096 (cdiv (r.mirror.foldl (fun a x => a + x.bytes.length) 0) 1024) * 2 ^ 16 + (if r.resync then 3 else 0)
/-- TWN.STATUS. -/
def State.twnStatus (s : State) : Nat :=
  b2n s.twin.twinLease * 128 + b2n s.twin.lease * 64 + b2n s.twin.linkUp * 32 + s.twin.witness % 4 * 8 + s.twin.pair
/-- The register view of a lane block; none where the stored register itself is read. -/
def State.laneView (s : State) (n o : Nat) : Option Nat :=
  let l := s.lane n
  if o = 0x4 then some (s.laneStatus n)
  else if o = 0x24 then some (min l.credit 0xFFFF * 2 ^ 16 + bits (s.lreg n 0x24) 15 0)
  else if o = 0x28 then some (l.admCode * 2 ^ 16 + b2n l.applyPending * 3)
  else if o = 0x80 then some (s.btm.beat % 2 ^ 32)
  else if o = 0x84 then some (s.btm.beat / 2 ^ 32 % 2 ^ 32)
  else if o = 0x88 then some s.btmStatus
  else if o = 0x8C then some (sat32 s.btm.offset)
  else if o = 0x3100 then some (s.lreg n 0x3100 % 64)
  else if 0x3000 ≤ o ∧ o < 0x3100 then
    let i := (o - 0x3000) / 8
    let v := if i = 18 ∨ i = 21 then (Config.lpmuFree n i s.laneClk).toNat else SMap.get 0 i l.lpmu
    some (if o % 8 = 0 then v % 2 ^ 32 else v / 2 ^ 32)
  else if 0x3200 ≤ o ∧ o < 0x3300 then some (SMap.get 0 ((o - 0x3200) / 4) l.hist0 % 2 ^ 32)
  else if 0x3300 ≤ o ∧ o < 0x3400 then some (SMap.get 0 ((o - 0x3300) / 4) l.hist1 % 2 ^ 32)
  else none
/-- The register view of the journal block. -/
def State.jrnView (s : State) (o : Nat) : Option Nat :=
  if o = 0 then some (s.jrn.proofAlg % 4 * 4 + b2n s.jrn.proofEn * 2 + s.reg jrnBase % 2)
  else if o = 4 then some s.jrnStatus
  else if 0x1000 ≤ o ∧ o < 0x1000 + 17 * 0x40 then
    let k := (o - 0x1000) / 0x40
    let r := s.ring k
    match (o - 0x1000) % 0x40 with
    | 0 => some (s.ringStatus k)
    | 4 => some (r.seqNext % 2 ^ 32)
    | 8 => some (r.seqNext / 2 ^ 32)
    | 12 => some (r.seqDone % 2 ^ 32)
    | 16 => some (r.seqDone / 2 ^ 32)
    | _ => none
  else if 0x2000 ≤ o ∧ o < 0x2000 + 17 * 0x40 then
    let k := (o - 0x2000) / 0x40
    let r := s.ring k
    match (o - 0x2000) % 0x40 with
    | 0 => some (s.mirrorStatus k)
    | 4 => some (r.mSeqNext % 2 ^ 32)
    | 8 => some (r.mSeqNext / 2 ^ 32)
    | 12 => some ((r.mCount - 1) % 2 ^ 32)
    | 16 => some ((r.mCount - 1) / 2 ^ 32)
    | _ => some 0
  else none
/-- The register view of the twin block (Table TWN-7). -/
def State.twnView (s : State) (o : Nat) : Option Nat :=
  match o with
  | 0 => some (b2n (takeoverEn s) * 2 + b2n (pairEn s))
  | 4 => some s.twnStatus
  | 0x18 => some (s.reg 0x31000018 % 65536
      + (List.range 16).foldl (fun a k => if (s.ring k).divergent then a + 2 ^ (16 + k) else a) 0)
  | 0x1C => some (s.twin.homeCfg * 2 ^ 16 + s.twin.home)
  | 0x2C => some s.twin.peer
  | _ => none
/-- A listener entry in the layout of Table NET-2; an unused one has ADDR 0xFF. -/
def listenerBytes : Option Listener → Bytes
  | some l => Bytes.ofNatLE 1 l.addr ++ Bytes.ofNatLE 1 l.flags ++ Bytes.ofNatLE 1 l.framing ++ Bytes.ofNatLE 1 l.policy
      ++ Bytes.ofNatLE 2 l.lport ++ Bytes.ofNatLE 2 l.lanes ++ Bytes.ofNatLE 8 l.cred ++ Bytes.ofNatLE 2 l.trust
      ++ Bytes.ofNatLE 2 l.rcvbuf ++ Bytes.ofNatLE 2 l.sndbuf ++ Bytes.ofNatLE 1 l.handshake ++ Bytes.ofNatLE 1 l.msg
      ++ Bytes.ofNatLE 2 l.idle ++ Bytes.ofNatLE 1 l.stall ++ Bytes.ofNatLE 1 l.linger ++ Bytes.ofNatLE 2 l.rtoMin
      ++ Bytes.ofNatLE 2 l.maxSess
  | none => [0xFF#8]
/-- The register view of the network block (Table NET-9). -/
def State.netView (s : State) (o : Nat) : Option Nat :=
  let live := fun (p : Nat × Session) => p.2.st ≠ 0 && p.2.st ≠ 5 && p.2.st ≠ 6
  if o = 4 then some ((s.net.sessions.filter live).length * 2 ^ 15 + (s.net.sessions.filter (fun p => p.2.hsSlot)).length)
  else if o = 0x20 then
    let dom := match s.twin.dom with
      | some d => d.ptpDomain
      | none => 0
    some (dom * 2 ^ 16 + s.net.ptpPort * 2 ^ 8 + b2n s.net.ptpBackup * 4 + s.net.ptp)
  else if o = 0x24 then some (sat32 s.net.ptpOffset)
  else if o = 0x28 then some (s.ptpNs % 2 ^ 32)
  else if o = 0x2C then some (s.ptpNs / 2 ^ 32 % 2 ^ 32)
  else if o = 0x30 then some (s.net.ptpGm.toNat % 2 ^ 32)
  else if o = 0x34 then some (s.net.ptpGm.toNat / 2 ^ 32)
  else if o = 0x40 then some 0
  else if o = 0x44 then some (b2n s.net.move.isSome * 2 ^ 31 + s.net.moveCode)
  else if 0x200 ≤ o ∧ o < 0x400 ∧ o % 0x20 = 0 then
    let q := (o - 0x200) / 0x20
    some (s.reg (0x32000000 + o) % 4 + b2n (s.pauseOn q) * 4 + s.portMode q * 16)
  else if 0x100 ≤ o ∧ o < 0x140 then
    some ((s.net.sessions.filter (fun p => live p && decide (p.1 / 4096 = (o - 0x100) / 4))).length)
  else if 0x1000 ≤ o ∧ o < 0x3000 then some (Bytes.le (listenerBytes (SMap.get none ((o - 0x1000) / 32) s.net.listeners)) (o % 32) 4)
  else if 0x400000 ≤ o ∧ o < 0x800000 then some (Bytes.le ((s.sess ((o - 0x400000) / 64)).bytes ((o - 0x400000) / 64)) (o % 64) 4)
  else none
/-- The register view of a mailbox (Table CEL-6). -/
def State.mbxView (s : State) (n o : Nat) : Option Nat :=
  let m := s.mbx n
  if o < 0x40 then some (SMap.get 0 (o / 4) m.data).toNat
  else match o with
  | 0x40 => some (b2n (m.st = 2 || m.st = 3) * 256 + m.seq)
  | 0x44 => some (m.code * 2 ^ 16 + m.sender * 2 ^ 7 + b2n m.late * 64 + b2n m.orphan * 32 + b2n m.timeout * 16
      + b2n m.taken * 8 + m.st)
  | 0x48 => some (m.ackSeq * 2 ^ 16 + m.ackCode)
  | 0x4C => some m.us
  | 0x50 => some (if m.gone then min (2 ^ 24 - 1) ((s.laneClk - m.goClk) / 1600) else 0)
  | 0x54 => some m.irq
  | 0x58 => some m.refused
  | 0x5C => some (mbxKind n * 2 ^ 30 + (if mbxKind n = 1 then m.peer else 0x110) * 2 ^ 16)
  | 0x8C => some m.rxTarget
  | _ => none
/-- The register view of the Cellarer status block (Tables CEL-8, GAR-5). -/
def State.celView (s : State) (o : Nat) : Option Nat :=
  let posted := fun (lo : Nat) => (List.range 32).foldl (fun a i => if (s.mbx (lo + i)).st = 2 then a + 2 ^ i else a) 0
  match o with
  | 0 => some s.celStatus
  | 4 => some s.cel.fw
  | 8 => some s.cel.heartbeat
  | 0x20 => some (posted 0)
  | 0x24 => some (posted 32)
  | 0x100 => some (s.gar.trigger * 256 + s.gar.slot * 2 + b2n s.gar.frozen)
  | 0x104 => some (s.gar.head % 2 ^ 32)
  | 0x108 => some (s.gar.head / 2 ^ 32)
  | 0x10C => some s.gar.lost
  | 0x110 => some s.gar.drops
  | 0x114 => some s.gar.post
  | _ => none
/-- The Strongroom service page (Table STR-9). -/
def State.strView (s : State) (o : Nat) : Option Nat :=
  match o with
  | 0 => some (b2n (!s.str.suspended.isEmpty) * 8 + b2n s.str.entFail * 4 + b2n (!s.str.bootstrap))
  | 4 => some s.str.rootGen
  | 8 => some s.poolFree
  | 0xC => some ((s.str.slots.filter (fun p => p.2.held)).length)
  | 0x10 => some (b2n s.str.qDone * 2 ^ 31 + s.str.qSlot)
  | 0x14 => some (s.str.qHandle % 2 ^ 32)
  | 0x18 => some (s.str.qHandle / 2 ^ 32)
  | 0x1C => some s.str.qKcv
  | 0x20 => some s.str.qCount
  | _ => none

end Sys2Proof.Machine
end

