-- ==== Sys2Proof/Machine/Skeid.lean ====
section
/-!
DEFINITION. The Skeid commands (R342 to R351, R421, R157): the checks of R344, tickets and tokens (R346 to R348, R363 to
R368), and the changes' effect at their epoch (R369, R370).
-/

namespace Sys2Proof.Machine
open Sys2Proof

/-! ### The shape of a command (R342 to R344) -/

/-- Class (0 OPEN, 1 ADMIN and DUAL, 2 LANE) and argument count of a command code (Tables CEL-9, CEL-11). -/
def cmdInfo (c : Nat) : Option (Nat × Nat) :=
  match c with
  | 0x01 => some (0, 2) | 0x02 => some (0, 0) | 0x03 => some (0, 1) | 0x04 => some (0, 3) | 0x05 => some (1, 1)
  | 0x10 => some (2, 1) | 0x11 => some (1, 7) | 0x12 => some (1, 7) | 0x13 => some (1, 3) | 0x14 => some (1, 2)
  | 0x20 => some (1, 0) | 0x30 => some (1, 6) | 0x31 => some (0, 4) | 0x32 => some (0, 1) | 0x33 => some (1, 1)
  | 0x40 => some (1, 2) | 0x41 => some (1, 3) | 0x42 => some (1, 2) | 0x50 => some (1, 6) | 0x60 => some (1, 0)
  | 0x61 => some (1, 5) | 0x62 => some (1, 0) | 0x70 => some (1, 3) | _ => none
/-- The item kinds of Table STR-7. -/
def kindDefined (k : Nat) : Bool := (decide (1 ≤ k) && decide (k ≤ 8)) || (decide (0x10 ≤ k) && decide (k ≤ 0x17))
/-- The words of a command that name a buffer address (Table CEL-11). -/
def bufWord (c : Nat) : Nat := match c with
  | 0x11 => 3 | 0x12 => 3 | 0x30 => 2 | 0x31 => 2 | 0x50 => 1 | 0x61 => 4 | 0x70 => 1 | _ => 0
/-- DATA[i] of mailbox `n`. -/
def State.arg (s : State) (n i : Nat) : Nat := (SMap.get 0 i (s.mbx n).data).toNat
def State.arg64 (s : State) (n i : Nat) : Nat := s.arg n i + s.arg n (i + 1) * 2 ^ 32
/-- A buffer is aligned to 64 bytes and lies wholly in installed DRAM (R343). -/
def State.bufOk (s : State) (a len : Nat) : Bool :=
  a % 64 = 0 && decide (dramBase ≤ a) && decide (a + len ≤ s.dramTop)
/-- The administrator set: in COMMISSION every hart and the host (R367). -/
def State.isAdmin (s : State) (a : Nat) : Bool :=
  if s.str.bootstrap then decide (a < 256) || a = 273 else s.str.admin.contains a
/-- The sender satisfies the command's class (Table CEL-10); `lanes` are those the command names. -/
def State.classOk (s : State) (a cls lanes : Nat) : Bool :=
  if cls = 0 then true else if cls = 1 then s.isAdmin a else (maskLanes lanes).all (fun k => s.right a k 3)
/-- The Cellarer holds the message of mailbox `n`: taken already, or posted and next in order, and then taken now (R336). -/
def State.celTake (s : State) (n : Nat) : Option State :=
  let m := s.mbx n
  if mbxKind n = 1 ∨ s.cel.st ≠ 3 then none
  else if m.st = 3 then some s
  else if m.st = 2 ∧ s.mbxNext n then some (s.setMbx n { m with st := 3, taken := true }) else none

/-- The answer of a command: the state, the acknowledgment code and the result words. -/
structure Ans where
  st : State
  code : Nat := 0
  res : List Nat := []
/-- Run one Skeid command; with BOOT at DRAM_FAIL the Cellarer answers HEALTH and VERSION only (R427). Steps 1 to 5 of R344, then `f`. `kind` is the row's item kind for SETUP_CHANGE, `argOk` the
range check of its arguments, `len` the bytes of its buffer. A message of another command leaves the state as it is. -/
def State.skeid (s : State) (n cmd : Nat) (kind : Option Nat) (argOk : Bool) (lanes len : Nat) (f : State → Ans) : Res :=
  match (if s.pwr.boot = 6 ∧ cmd ≠ 1 ∧ cmd ≠ 2 then none else s.celTake n) with
  | none => .next s
  | some t =>
    let w := t.arg n 0
    let c := w / 65536
    let ack := fun (code : Nat) => Host.Outcome.next (t.skeidAck n c code [])
    match (if mbxKind n = 3 then none else cmdInfo c) with
    | none => ack 0x0201
    | some (cls, argc) =>
      if c ≠ cmd ∨ kind.any (fun k => k ≠ t.arg n 1 ∧ kindDefined (t.arg n 1)) then .next s
      else if w % 16 ≠ argc ∨ bits w 15 4 ≠ 0 ∨ !argOk ∨ kind.any (fun k => k ≠ t.arg n 1) then ack 0x0202
      else if !t.classOk (t.mbx n).sender cls lanes then ack 0x0203
      else if bufWord c ≠ 0 ∧ !t.bufOk (t.arg64 n (bufWord c)) len then ack 0x0204
      else
        let a := f t
        .next (a.st.skeidAck n c a.code a.res)
/-- The sender of the message in mailbox `n`. -/
def State.sender (s : State) (n : Nat) : Nat := (s.mbx n).sender

/-! ### Short commands -/

/-- HEALTH (Table CEL-11). -/
def execHealth (n : MbxId) (s : State) : Res :=
  let k := s.arg n 2
  s.skeid n 0x01 none (decide (s.arg n 1 = 0) || (decide (s.arg n 1 = 1) && decide (k < 16))) 0 0 fun s =>
    if s.arg n 1 = 0 then
      let held := (List.range 16).foldl (fun a k => if (s.ring k).hold ≠ 0 then a + 2 ^ k else a) 0
      { st := s, res := [s.celStatus, s.serviceMask + held * 2 ^ 16, s.twnStatus, s.jrnStatus, s.epoch % 2 ^ 32] }
    else
      { st := s, res := [s.laneStatus k, s.lreg k 8, s.lreg k 0x34, s.lreg k 0xC0, s.ringStatus k] }
/-- VERSION: firmware version, stepping B1, device ID, domain ID. -/
def execVersion (n : MbxId) (s : State) : Res :=
  s.skeid n 0x02 none true 0 0 fun s =>
    { st := s, res := [s.cel.fw, 0xB1, s.twin.deviceId, match s.twin.dom with
      | some d => d.domain
      | none => 0] }
/-- MBX_BIND: a NOTICE mailbox is bound to the sender, or unbound by its holder. -/
def execMbxBind (n : MbxId) (s : State) : Res :=
  let m := s.arg n 1
  s.skeid n 0x04 none (decide (48 ≤ m) && decide (m ≤ 59) && decide (s.arg n 3 ≤ 1)) 0 0 fun s =>
    let a := s.sender n
    let x := s.mbx m
    if s.arg n 3 = 1 then
      if x.peer = a then { st := s.setMbx m { x with peer := 0x1FF, rxTarget := 0 } } else { st := s, code := 0x0224 }
    else if x.peer = 0x1FF ∨ x.peer = a then
      { st := s.setMbx m { x with peer := a, rxTarget := s.arg n 2 &&& 0x800FFFFF } }
    else { st := s, code := 0x0224 }
/-- LOCK_RELEASE: the former holder, and the abandoned bit (R341). -/
def execLockRelease (n : MbxId) (s : State) : Res :=
  let k := s.arg n 1
  s.skeid n 0x05 none (decide (k < 128)) 0 0 fun s =>
    { st := s.abandonLock k, res := [(s.lockHolder k).getD 0x1FF] }
/-- LANE_RESET (R66): refused for a lane that is MIRROR, TAKEN_OVER or divergent. -/
def execLaneReset (n : MbxId) (s : State) : Res :=
  let m := s.arg n 1
  s.skeid n 0x10 none (decide (m < 65536)) m 0 fun s =>
    if (maskLanes m).any (fun k => (s.lane k).st = 5 || (s.lane k).st = 6 || (s.ring k).divergent) then
      { st := s, code := 0x0224 }
    else { st := (maskLanes m).foldl (fun s k => s.startReset k (s.sender n)) s }
/-- PAIR_START (R181): training starts at once; the acknowledgment comes when the manifest checks end. -/
def execPairStart (n : MbxId) (s : State) : Res :=
  match s.celTake n with
  | none => .next s
  | some t =>
    if t.arg n 0 = 0x00200000 ∧ mbxKind n ≠ 3 ∧ t.isAdmin (t.sender n) ∧ pairEn t ∧ !t.str.bootstrap ∧ !t.twin.linkUp then
      .next { t with twin := { t.twin with pair := 1, noRetry := false, startMbx := some n } }
    else t.skeid n 0x20 none true 0 0 fun s => { st := s, code := 0x0224, res := [s.reg (twnBase + 0x14)] }
/-- LANE_HANDOVER (R198): the lanes drain and switch to the peer at an epoch boundary. -/
def execLaneHandover (n : MbxId) (s : State) : Res :=
  let m := s.arg n 1
  s.skeid n 0x13 none (decide (m < 65536)) 0 0 fun s =>
    let e := if s.arg64 n 2 = 0 then s.epoch + 2 else s.arg64 n 2
    if s.twin.pair ≠ 4 ∨ s.twin.handover.isSome ∨ (maskLanes m).any (fun k => (s.lane k).st ≠ 2) then { st := s, code := 0x0224 }
    else if e < s.epoch + 2 ∨ e > s.epoch + 3600000 then { st := s, code := 0x020A }
    else
      let s := (maskLanes m).foldl (fun s k => s.setLreg k 0 (setBits (s.lreg k 0) 2 2 1)) s
      { st := { s with twin := { s.twin with handover := some (m, e, none) } }, res := [e % 2 ^ 32, e / 2 ^ 32] }

/-! ### Garret and replay -/

/-- GARRET_LIST (R421). -/
def execGarretList (n : MbxId) (s : State) : Res :=
  s.skeid n 0x60 none true 0 0 fun s =>
    let sl := (List.range 8).map (fun i => SMap.get none i s.gar.attic)
    let mask := (List.range 8).foldl (fun a i => if (sl.getD i none).isSome then a + 2 ^ i else a) 0
    { st := s, res := mask :: sl.map (fun a => match a with
      | some x => x.trigger * 2 ^ 24 + x.epoch % 2 ^ 24
      | none => 0) }
/-- GARRET_READ (R421): records of an attic freeze or the live ring, counted from the oldest held, go to DRAM. -/
def execGarretRead (n : MbxId) (s : State) : Res :=
  let c := s.arg n 3
  s.skeid n 0x61 none (decide (s.arg n 1 ≤ 8) && decide (1 ≤ c) && decide (c ≤ 131072)) 0 (32 * c) fun s =>
    let src := if s.arg n 1 = 8 then some s.gar.held else (SMap.get none (s.arg n 1) s.gar.attic).map (·.image)
    match src with
    | none => { st := s, code := 0x0222 }
    | some img =>
      let out := (img.drop (s.arg n 2)).take c
      { st := s.dramWrite (s.arg64 n 4) (out.flatMap (·.2)), res := [out.length] }
/-- GARRET_FREEZE (R419): the slot its freeze will fill; refused while frozen. -/
def execGarretFreeze (n : MbxId) (s : State) : Res :=
  s.skeid n 0x62 none true 0 0 fun s =>
    if s.gar.frozen then { st := s, code := 0x0224 }
    else
      let s := s.gFreeze 5 (s.sender n)
      { st := s, res := [s.gar.slot] }
/-- HM_REPLAY (R157): a request in the layout of VERIFY_REQ. -/
def execHmReplay (n : MbxId) (s : State) : Res :=
  let len := s.arg n 3
  s.skeid n 0x70 none (decide (40 ≤ len) && decide (len ≤ 65600)) 0 len fun s =>
    let b := s.dramRead (s.arg64 n 1) len
    let hm := Hallmark.ofBytes (b.take 32)
    let c := match s.hmKey hm with
      | some k => replayChain k hm (Bytes.le b 32 8) (Config.replayOutputs (b.drop 40))
      | none => 0x1411
    { st := s, res := [c] }

/-! ### Tickets (R346, R347, R364) -/

/-- The command in mailbox `n` as its operation digest takes it (R364): the words of a buffer address count as 0. -/
def State.changeSrc (s : State) (n argc : Nat) (buf : Option Bytes) (nonce : Nat) : ChangeSrc :=
  let c := s.arg n 0 / 65536
  let w := bufWord c
  { cmd := c, args := (List.range argc).map (fun i => if w ≠ 0 ∧ (i + 1 = w ∨ i = w) then 0 else s.arg n (i + 1)), buf := buf,
    nonce := nonce }
/-- The key slot an item changes. -/
def itemSlot : Item → Option Nat
  | .keyGen c => some c.slot.val | .keyImport c _ => some c.slot.val | .keyComponent c _ => some c.slot.val
  | .keyDestroy i => some i | .keyExport c => some c.slot.val | _ => none
def isZeroize : Item → Bool
  | .zeroize => true
  | _ => false
/-- Two changes touch the same item (R346). -/
def itemOverlap (a b : Item) : Bool :=
  isZeroize a || isZeroize b || (match itemSlot a, itemSlot b with
    | some i, some j => i = j
    | none, none =>
      if itemLanes a = 0 ∧ itemLanes b = 0 then decide (itemKind a = itemKind b)
      else decide (itemLanes a &&& itemLanes b ≠ 0)
    | _, _ => false)
/-- The Cellarer keeps every open and staged ticket and the 64 most recent ended ones. -/
def trimTickets (ts : List Ticket) : List Ticket :=
  let ended := (ts.filter (fun t => t.st ≥ 4)).length
  (ts.foldl (fun (a : List Ticket × Nat) t =>
    if t.st ≥ 4 ∧ a.2 > 64 then (a.1, a.2 - 1) else (a.1 ++ [t], a.2)) ([], ended)).1
def State.ticket (s : State) (num : Nat) : Option Ticket := s.cel.tickets.find? (fun t => t.num = num)
def State.setTicket (s : State) (t : Ticket) : State :=
  { s with cel := { s.cel with tickets := trimTickets (s.cel.tickets.map (fun u => if u.num = t.num then t else u)) } }
/-- A ticket's reservation of slot and pool space ends. -/
def State.freeReserve (s : State) (it : Item) : State :=
  { s with str := { s.str with reserved := s.str.reserved.filter (fun p => some p.1 ≠ itemSlot it) } }
/-- 300 s in lane cycles. -/
def ticketLife : Nat := 480000000000
/-- A DUAL command opens a ticket (R346), or is refused with 0x0205. -/
def State.openTicket (s : State) (n argc : Nat) (buf : Option Bytes) (target : Nat) (it : Item) (units : Option Nat) : Ans :=
  let live := s.cel.tickets.filter (fun t => t.st = 1 || t.st = 2)
  if live.length ≥ 8 ∨ s.cel.tickets.any (fun t => (t.st = 1 || t.st = 2 || t.st = 3) && itemOverlap t.item it) then
    { st := s, code := 0x0205 }
  else
    let num := s.cel.nextTicket
    let nonce := s.freeWord.toNat
    let s := s.drew
    let src := s.changeSrc n argc buf nonce
    let d := opDigestOf src s.twin.deviceId
    let cmd := s.arg n 0 / 65536
    let t : Ticket := { num := num, nonce := nonce, digest := d, cmd := cmd, kind := itemKind it, item := it, target := target,
                        opened := s.laneClk, src := src }
    let s := s.policyRec 0x01 0 0 0 d (Bytes.ofNatLE 2 cmd ++ Bytes.ofNatLE 2 (itemKind it) ++ Bytes.ofNatLE 4 num ++ Bytes.ofNatLE 8 nonce)
    let s : State := { s with
      cel := { s.cel with tickets := s.cel.tickets ++ [t], nextTicket := num + 1 },
      str := { s.str with reserved := match itemSlot it, units with
        | some i, some u => s.str.reserved ++ [(i, u)]
        | _, _ => s.str.reserved } }
    { st := s, res := [num, nonce % 2 ^ 32, nonce / 2 ^ 32] ++ (List.range 12).map (fun i => Bytes.le d (4 * i) 4) }

/-! ### DUAL commands -/

/-- In COMMISSION no change is accepted but OFFICERS (R367). -/
def State.dual (s : State) (n cmd : Nat) (kind : Option Nat) (argOk : Bool) (len : Nat) (f : State → Ans) : Res :=
  s.skeid n cmd kind argOk 0 len fun s => if s.str.bootstrap then { st := s, code := 0x0224 } else f s
/-- LANE_LOAD (R349). -/
def execLaneLoad (n : MbxId) (s : State) : Res :=
  let m := s.arg n 1
  let len := s.arg n 5
  s.dual n 0x11 none (decide (m < 65536) && decide (s.arg n 2 < 4)) len fun s =>
    let img := s.dramRead (s.arg64 n 3) len
    let staged := bit (s.arg n 2) 0
    let c := (maskLanes m).foldl (fun c k => if c = 0 then s.imageCode k staged img else c) 0
    if c ≠ 0 then { st := s, code := c }
    else if !s.storeFits img then { st := s, code := 0x0216 }
    else s.openTicket n 7 (some img) (s.arg64 n 6) (.laneLoad m staged (bit (s.arg n 2) 1) img) none
/-- STENCIL_LOAD (R349). -/
def execStencilLoad (n : MbxId) (s : State) : Res :=
  let m := s.arg n 1
  let len := s.arg n 5
  s.dual n 0x12 none (decide (m < 65536) && decide (s.arg n 2 < 64)) len fun s =>
    let b := s.dramRead (s.arg64 n 3) len
    let c := stnLoad b
    if c ≠ 0 then { st := s, code := c }
    else if (maskLanes m).any (fun k => !(s.lane k).stnFits b) then { st := s, code := 0x021F }
    else if !s.storeFits b then { st := s, code := 0x0216 }
    else s.openTicket n 7 (some b) (s.arg64 n 6) (.stencil m (s.arg n 2) b) none
/-- LANE_RELEASE (R349): of divergent lanes, and of lanes that both twins claimed in service (R187). -/
def execLaneRelease (n : MbxId) (s : State) : Res :=
  let m := s.arg n 1
  s.dual n 0x14 none (decide (m < 65536) && decide (s.arg n 2 < 2)) 0 fun s =>
    if (maskLanes m).any (fun k => !(s.ring k).divergent && !(s.ring k).clash) then { st := s, code := 0x0224 }
    else s.openTicket n 2 none 0 (.laneRelease m (bit (s.arg n 2) 0)) none
/-- One component of a bundle: type, offset, length, version, digest (Table CEL-15). -/
def fwComp (b : Bytes) (i : Nat) : Nat × Nat × Nat × Nat × Bytes :=
  let o := 16 + 64 * i
  (Bytes.le b o 4, Bytes.le b (o + 4) 4, Bytes.le b (o + 8) 4, Bytes.le b (o + 12) 4, b.slice (o + 16) 48)
/-- Limits, signature and digests of a bundle (R350, R351). -/
def bundleOk (b : Bytes) : Bool :=
  let cnt := Bytes.le b 6 2
  let cs := (List.range cnt).map (fwComp b)
  let comp := fun (c : Nat × Nat × Nat × Nat × Bytes) =>
    (c.1 = 1 || c.1 = 2) && c.2.1 % 4096 = 0 && decide (4096 ≤ c.2.1) && decide (c.2.1 + c.2.2.1 ≤ b.length)
      && decide (c.2.2.1 ≤ (if c.1 = 1 then 4 else 16) * 2 ^ 20) && decide (Crypto.sha384 (b.slice c.2.1 c.2.2.1) = c.2.2.2.2)
  decide (Bytes.le b 0 4 = 0x444E424B) && decide (Bytes.le b 4 2 = 1) && (cnt = 1 || cnt = 2) && cs.all comp
    && !(cnt = 2 && decide ((fwComp b 0).1 = (fwComp b 1).1)) && Config.sigValid 0x0C 0x41 [] (b.take 144) (b.slice 144 96)
/-- The firmware version a bundle carries, if it holds a firmware component. -/
def bundleFw (b : Bytes) : Option Nat :=
  (((List.range (Bytes.le b 6 2)).map (fwComp b)).find? (fun c => c.1 = 1)).map (fun c => c.2.2.2.1)
/-- FW_STAGE (R350). -/
def execFwStage (n : MbxId) (s : State) : Res :=
  let len := s.arg n 3
  s.dual n 0x50 none (decide (4096 ≤ len) && decide (len ≤ 21 * 2 ^ 20) && decide (s.arg n 4 < 2)) len fun s =>
    let b := s.dramRead (s.arg64 n 1) len
    if !bundleOk b then { st := s, code := 0x0220 }
    else
      let low := match bundleFw b with
        | some v => decide (v < s.str.floor) || (s.twin.pair = 4 && (decide (v < s.twin.peerFwMin) || decide (v / 2 ^ 24 ≠ s.twin.peerFw / 2 ^ 24)))
        | none => false
      if low then { st := s, code := 0x0221 }
      else s.openTicket n 6 (some b) (s.arg64 n 5) (.fw b (bit (s.arg n 4) 0)) none
/-- A SETUP_CHANGE of one kind (Table STR-7): `check` answers 0 or the reason byte of Table STR-4, and the item. A block with a
field outside its table's range (`range` false) is refused as an argument out of range (R344; log 176). -/
def State.setup (s : State) (n kind : Nat) (range : Bool) (check : State → Nat × Item × Option Nat) : Res :=
  let len := s.arg n 4
  s.skeid n 0x30 (some kind) (range && decide (len ≤ 65536)) 0 len fun s =>
    if s.str.bootstrap ∧ kind ≠ 0x15 then { st := s, code := 0x0224 }
    else
      let (r, it, u) := check s
      if r ≠ 0 then { st := s, code := 0x0202, res := [r] }
      else if s.str.bootstrap then
        -- COMMISSION: the roster is applied without tokens at E + 2 (R367)
        let num := s.cel.nextTicket
        let t : Ticket := { num := num, nonce := 0, cmd := 0x30,
                            digest := opDigestOf (s.changeSrc n 6 (some (s.dramRead (s.arg64 n 2) len)) 0) s.twin.deviceId, kind := kind, item := it, target := 0, opened := s.laneClk, st := 3, effect := s.epoch + 2 }
        { st := { s with cel := { s.cel with tickets := s.cel.tickets ++ [t], nextTicket := num + 1 } },
          res := [num, 0, 0] ++ (List.range 12).map (fun i => Bytes.le t.digest (4 * i) 4) }
      else s.openTicket n 6 (some (s.dramRead (s.arg64 n 2) len)) (s.arg64 n 5) it u
/-- LANE_FIREWALL (R371). -/
def execLaneFirewall (n : MbxId) (c : FirewallChange) (s : State) : Res := s.setup n 0x01 true fun _ => (0, .firewall c, none)
/-- PCIE_WINDOWS (R372): up to 64 windows below 0x8000_0000. -/
def execPcieWindows (n : MbxId) (c : List PcieWindow) (s : State) : Res :=
  s.setup n 0x02 (decide (c.length ≤ 64) && c.all (fun w => decide (w.base ≤ w.limit ∧ w.limit < 0x80000000))) fun _ => (0, .windows c, none)
/-- KEY_POLICY (R360, R451): policy index 0 is fixed (R353). -/
def execKeyPolicy (n : MbxId) (c : PolicyChange) (s : State) : Res :=
  s.setup n 0x03 true fun s =>
    let ok := c.entries.all (fun p => decide (1 ≤ p.1) && decide (p.1 < 4096))
      && c.repolicy.all (fun p => (s.policy p.2).isSome || c.entries.any (fun e => e.1 = p.2))
    (if ok then 0 else 0x25, .policy c, none)
/-- The generation code that fits a class (Table STR-3). -/
def genCode (cls : Nat) : Nat :=
  match cls with
  | 0x01 => 0xC0 | 0x03 => 0xC4 | 0x05 => 0xC8 | 0x07 => 0xCC | 0x08 => 0xCD | 0x09 => 0xCE
  | _ => if 0x11 ≤ cls ∧ cls ≤ 0x19 then 0xD0 else 0
/-- KEY_GEN (R357). -/
def execKeyGen (n : MbxId) (c : KeyGenChange) (s : State) : Res :=
  s.setup n 0x04 true fun s =>
    let r := s.slotReason c.slot c.cls c.policy c.replace (cdiv (genLen c.cls) 32)
    (if r = 0 ∧ (genCode c.cls = 0 ∨ genCode c.cls ≠ c.opc) then 0x22 else r, .keyGen c, some (cdiv (genLen c.cls) 32))
/-- KEY_IMPORT (R358): unwrapped and checked before a ticket opens; public keys come in clear. -/
def execKeyImport (n : MbxId) (c : KeyImportChange) (s : State) : Res :=
  s.setup n 0x05 true fun s =>
    let w := s.slot c.wrapSlot
    let isPub := isPublicCls c.cls
    let want := if isAsymCls c.cls then 0x20 else 0x21
    match (if isPub then some c.wrapped else Config.unwrapKey w.cls w.material c.wrapped) with
    | none => (0x23, .keyImport c [], none)
    | some m =>
      let r := s.slotReason c.slot c.cls c.policy c.replace (poolUnits m)
      let r := if r ≠ 0 then r
        else if !isPub && (!w.held || decide (w.cls ≠ want) || !c.blockClassOk) then 0x22
        else if keyKcv c.cls m ≠ c.kcv then 0x24 else 0
      (r, .keyImport c m, some (poolUnits m))
/-- KEY_COMPONENT (R357, R358): each component is opened with the transport key of slot 8; they combine by exclusive-OR. -/
def execKeyComponent (n : MbxId) (c : KeyComponentChange) (s : State) : Res :=
  s.setup n 0x06 true fun s =>
    let z := s.slot 8
    match Config.unwrapKey 0x22 z.material c.compA, Config.unwrapKey 0x22 z.material c.compB with
    | some a, some b =>
      let m := Crypto.xorBytes a b
      let r := s.slotReason c.slot c.cls c.policy c.replace (poolUnits m)
      let r := if r ≠ 0 then r else if isAsymCls c.cls ∨ z.cls ≠ 0x22 then 0x22 else if keyKcv c.cls m ≠ c.kcv then 0x24 else 0
      (r, .keyComponent c m, some (poolUnits m))
    | _, _ => (0x23, .keyComponent c [], none)
/-- KEY_DESTROY (R359). -/
def execKeyDestroy (n : MbxId) (slot : SlotId) (s : State) : Res :=
  s.setup n 0x07 true fun _ => (if slot.val < 16 then 0x21 else 0, .keyDestroy slot, none)
/-- KEY_EXPORT (R359): the key's policy must set EXPORT; the device's own classes are never exported. The buffer lies in DRAM. -/
def execKeyExport (n : MbxId) (c : KeyExportChange) (s : State) : Res :=
  s.setup n 0x08 (s.bufOk c.buffer 64) fun s =>
    let z := s.slot c.slot
    let w := s.slot c.wrapSlot
    let ok := match s.policy z.policy with
      | some p => bit p.flags 2
      | none => false
    let r := if [0x22, 0x28, 0x29, 0x2B].contains z.cls || !ok then 0x26
      else if !z.held || !w.held || decide (w.cls ≠ 0x20 ∧ w.cls ≠ 0x21) then 0x22 else 0
    (r, .keyExport c, none)
/-- ROOT_ROTATE (R361). -/
def execRootRotate (n : MbxId) (c : RootChange) (s : State) : Res := s.setup n 0x10 true fun _ => (0, .root c, none)
/-- DOMAIN (Table STR-7). -/
def execDomain (n : MbxId) (c : DomainChange) (s : State) : Res := s.setup n 0x11 c.inRange fun _ => (0, .domain c, none)
/-- NET_TABLES (R206, R207): 64 addresses and 256 listeners. -/
def execNetTables (n : MbxId) (c : NetTables) (s : State) : Res :=
  s.setup n 0x12 (c.inRange s.twin.homeCfg && c.addrs.all (fun p => decide (p.1 < 64)) && c.listeners.all (fun p => decide (p.1 < 256)))
    fun _ => (0, .nets c, none)
/-- JOURNAL (R176). -/
def execJournal (n : MbxId) (c : JournalChange) (s : State) : Res := s.setup n 0x13 true fun _ => (0, .journal c, none)
/-- DEBUG_UNLOCK (R373): it expires at most 3,600,000 epochs after its epoch of effect, the target or the earliest. -/
def execDebugUnlock (n : MbxId) (c : UnlockChange) (s : State) : Res :=
  let e := if s.arg64 n 5 = 0 then s.epoch + 2 else s.arg64 n 5
  s.setup n 0x14 (decide (c.expiry ≤ e + 3600000)) fun _ => (0, .unlock c, none)
/-- The roster's role rule (R363). -/
def rosterOk (c : List Officer) : Bool :=
  let k := fun (r : Role) => (c.filter (fun o => o.role = r)).length
  decide (2 ≤ k .security) && decide (2 ≤ k .operations) && decide (1 ≤ k .audit) && c.all (fun o => decide (o.slot < 32))
/-- OFFICERS (R363, R367). -/
def execOfficers (n : MbxId) (c : List Officer) (s : State) : Res :=
  s.setup n 0x15 true fun _ => (if rosterOk c then 0 else 0x27, .officers c, none)
/-- ADMIN_SET (Table CEL-10). -/
def execAdminSet (n : MbxId) (c : List Agent) (s : State) : Res := s.setup n 0x16 true fun _ => (0, .adminSet (c.map (·.val)), none)
/-- ZEROIZE (R367). -/
def execZeroize (n : MbxId) (s : State) : Res := s.setup n 0x17 true fun _ => (0, .zeroize, none)

/-! ### Tokens (R347, R348, R364, R365) -/

/-- The role pairs Table STR-7 permits for a command and item kind. -/
def rolePairs (cmd kind : Nat) : List (Role × Role) :=
  if cmd = 0x14 then [(.operations, .audit)]
  else if cmd ≠ 0x30 then [(.security, .operations)]
  else match kind with
  | 0x03 => [(.security, .security), (.security, .operations)]
  | 0x06 => [(.security, .security)]
  | 0x07 => [(.security, .operations), (.security, .audit)]
  | 0x08 => [(.security, .audit)] | 0x13 => [(.security, .audit)] | 0x15 => [(.security, .audit)] | 0x17 => [(.security, .audit)]
  | 0x14 => [(.security, .service)]
  | _ => [(.security, .operations)]
def custodians : Item → List Nat
  | .keyComponent c _ => c.custodians
  | _ => []
def State.officer (s : State) (i : Nat) : Option Officer := s.str.roster.find? (fun o => o.slot = i)
/-- The outcome of a token for a ticket of device `dev`, and its officer (R365): 0x0207, 0x0208, or 0 when it is accepted. -/
def State.tokenCode (s : State) (dev : Nat) (t : Ticket) (tok : Bytes) : Nat × Nat :=
  let off := Bytes.le tok 6 1
  let alg := Bytes.le tok 7 1
  match s.officer off with
  | none => (0x0207, off)
  | some o =>
    if (tok.length ≠ 176 ∨ alg ≠ 0) ∧ (tok.length ≠ 3389 ∨ alg ≠ 1) then (0x0207, off)
    else if Bytes.le tok 0 4 ≠ 0x4E4B5441 ∨ Bytes.le tok 4 2 ≠ 1 ∨ off ≥ 32 ∨ alg ≠ o.alg ∨ Bytes.le tok 8 4 ≠ dev
        ∨ Bytes.le tok 12 4 ≠ t.num ∨ Bytes.le tok 16 8 ≠ t.nonce ∨ tok.slice 24 48 ≠ t.digest ∨ Bytes.le tok 72 8 ≠ 0
        ∨ !Config.sigValid (if alg = 0 then 0x0C else 0x24) 0 o.pub (tok.take 80) (tok.drop 80) then (0x0207, off)
    else
      let ps := rolePairs t.cmd t.kind
      let named := custodians t.item
      let inPair := ps.any (fun p => p.1 = o.role || p.2 = o.role) && (named.isEmpty || named.contains off)
      match t.officers with
      | [] => (if inPair then 0 else 0x0208, off)
      | f :: _ =>
        match s.officer f with
        | none => (0x0208, off)
        | some g =>
          let completes := ps.any (fun p => (p.1 = o.role && p.2 = g.role) || (p.2 = o.role && p.1 = g.role))
          (if f ≠ off ∧ inPair ∧ completes then 0 else 0x0208, off)
/-- The first epoch boundary at least one epoch from now (R368). -/
def State.earliest (s : State) : Nat := cdiv (s.btm.beat + (if s.btm.cyc = 0 then 0 else 1)) 100 + 1
/-- The epoch in which a message's GO fell (R348). -/
def State.goEpoch (s : State) (n : Nat) : Nat := (s.btm.beat - (s.laneClk - (s.mbx n).goClk) / 16000) / 100
/-- A refused change: the ticket ends in state 5 with a REFUSED record (R348). -/
def State.refuseTicket (s : State) (t : Ticket) (mask code : Nat) : State :=
  let s := s.policyRecO 0x06 code 0 t.officers 0 t.digest (Bytes.ofNatLE 4 t.num ++ Bytes.ofNatLE 4 mask ++ Bytes.ofNatLE 2 code)
  (s.setTicket { t with st := 5, code := code }).freeReserve t.item
/-- Phase one (R348, R368), once the second token is valid. -/
def State.stageTicket (s : State) (n : Nat) (t : Ticket) (peerOk : Bool) : Ans :=
  let e := s.goEpoch n
  if t.target ≠ 0 ∧ (t.target < e + 2 ∨ t.target > e + 3600000) then { st := s, code := 0x020A }
  else
    let wide := s.twin.pair = 4 && itemShared t.item
    match s.phaseOne t.item with
    | some (mask, code) =>
      { st := s.refuseTicket t mask code, code := 0x0209, res := [2, 0, 0, mask, code] }
    | none =>
      if wide ∧ !peerOk then { st := s.refuseTicket t 0 0x0209, code := 0x0209, res := [2, 0, 0, 0, 0x0209] }
      else if (s.ring 16).hold ≠ 0 then { st := s.refuseTicket t 0 0x1301, code := 0x0209, res := [2, 0, 0, 0, 0x1301] }
      else
        let eff := max (if t.target = 0 then e + 2 else t.target) s.earliest
        let s := s.policyRecO 0x04 0 eff t.officers 0 t.digest (ticketBody t.num s.twin.deviceId t.item)
        let s := s.setTicket { t with st := 3, effect := eff, pairWide := wide }
        let s : State := match t.item with
          | .fw b act => { s with cel := { s.cel with stage := some (b, act) } }
          | _ => s
        let s := if wide then
            (s.addCtl { ticket := t.num, dev := s.twin.deviceId, item := t.item, epoch := eff }).ctlSend
              (.prepare t.num s.twin.deviceId t.item t.src t.tokens eff)
          else s
        { st := s, res := [2, eff % 2 ^ 32, eff / 2 ^ 32] }
/-- APPROVE: `units.peerOk` says whether the peer's units prepared the change. -/
def execApprove (n : MbxId) (units : PhaseOne) (s : State) : Res :=
  let len := s.arg n 4
  s.skeid n 0x31 none true 0 len fun s =>
    match s.ticket (s.arg n 1) with
    | none => { st := s, code := 0x0206 }
    | some t =>
      if (t.st ≠ 1 ∧ t.st ≠ 2) ∨ (s.mbx n).goClk > t.opened + ticketLife then { st := s, code := 0x0206 }
      else
        let tok := s.dramRead (s.arg64 n 2) len
        let (c, off) := s.tokenCode s.twin.deviceId t tok
        let body := fun (c : Nat) => Bytes.ofNatLE 4 t.num ++ Bytes.ofNatLE 1 off ++ Bytes.ofNatLE 2 c
        if c ≠ 0 then { st := s.policyRecO 0x03 c 0 t.officers 0 t.digest (body c), code := c }
        else
          let t' := { t with officers := t.officers ++ [off], tokens := t.tokens ++ [tok], st := 2 }
          if t.officers.isEmpty then
            { st := (s.policyRecO 0x02 0x02C1 0 t'.officers 0 t.digest (body 0x02C1)).setTicket t', code := 0x02C1, res := [1, 0, 0] }
          else
            let a := (s.policyRecO 0x02 0 0 t'.officers 0 t.digest (body 0)).stageTicket n t' units.peerOk
            a
/-- TICKET_STATUS (Table CEL-12). -/
def execTicketStatus (n : MbxId) (s : State) : Res :=
  s.skeid n 0x32 none true 0 0 fun s =>
    match s.ticket (s.arg n 1) with
    | none => { st := s, res := [0, 0, 0, 0] }
    | some t => { st := s, res := [t.st, t.code, t.effect % 2 ^ 32, t.effect / 2 ^ 32] }
/-- TICKET_CANCEL (R347): only while the ticket waits for a token. -/
def execTicketCancel (n : MbxId) (s : State) : Res :=
  s.skeid n 0x33 none true 0 0 fun s =>
    match s.ticket (s.arg n 1) with
    | none => { st := s, code := 0x0206 }
    | some t =>
      if t.st = 1 ∨ t.st = 2 then
        { st := ((s.setTicket { t with st := 6 }).freeReserve t.item).policyRecO 0x07 0 0 t.officers 0 t.digest (Bytes.ofNatLE 4 t.num) }
      else { st := s, code := 0x0224 }
/-- TICKET_EXPIRY (R347): 300 s after opening; the ticket reads state 0 afterwards. -/
def execTicketExpiry (num : Nat) (s : State) : Res :=
  match s.ticket num with
  | some t =>
    if (t.st = 1 ∨ t.st = 2) ∧ t.opened + ticketLife ≤ s.laneClk then
      .next ((({ s with cel := { s.cel with tickets := s.cel.tickets.filter (fun u => u.num ≠ num) } } : State).freeReserve t.item).policyRecO
        0x07 0 0 t.officers 0 t.digest (Bytes.ofNatLE 4 num))
    else .next s
  | none => .next s

/-- The check of a change that the peer originated (R188): two tokens under this device's roster, which name the originating
device, its ticket and the change's digest. -/
def State.prepareOk (s : State) (m : CtlMsg) : Bool :=
  match m with
  | .prepare num dev item src [a, b] _ =>
    let t : Ticket := { num := num, nonce := src.nonce, digest := opDigestOf src dev, cmd := src.cmd, kind := itemKind item,
                        item := item, target := 0, opened := 0 }
    let (c, off) := s.tokenCode dev t a
    c = 0 && (s.tokenCode dev { t with officers := [off] } b).1 = 0
  | _ => false
/-- CTL_FRAME_RECEIVE (R188). -/
def execCtlFrameReceive (f : LinkFrame) (m : CtlMsg) (s : State) : Res := s.frameRx f 6 fun s => s.ctlRx m State.prepareOk

/-! ### The epoch of effect (R188, R369, R370) -/

/-- Whether the coordinator's COMMIT lets this device apply a pair-wide change (R188): the coordinator needs the peer's
acknowledgment, the other device the COMMIT. -/
def State.ctlMay (s : State) (num dev : Nat) : Bool :=
  match s.twin.ctl num dev with
  | some c => c.prepared && (if s.twin.deviceId < s.twin.peer then c.acked else c.committed)
  | none => false
/-- A change has been applied: the APPLIED record names ticket, kind and PROT after it. -/
def State.appliedRec (s : State) (num dev : Nat) (it : Item) (offs : List Nat) (d : Bytes) : State :=
  s.policyRecO 0x05 0 (cdiv s.btm.beat 100) offs 0 d
    (Bytes.ofNatLE 4 num ++ Bytes.ofNatLE 2 (itemKind it) ++ s.prot ++ Bytes.ofNatLE 4 dev)
/-- The sealed image is rewritten with the usage counts (R355). -/
def State.sealStore (s : State) : State :=
  { s with str := { s.str with sealedUses := (s.str.slots.filter (fun p => p.2.uses ≠ 0)).map (fun p => (p.1, p.2.uses)),
                               sealedInline := s.str.inlineUses } }
/-- One staged ticket switches. -/
def State.applyTicket (s : State) (t : Ticket) : State :=
  let may := s.ctlMay t.num s.twin.deviceId
  let s : State := { s with twin := { s.twin with
    ctls := s.twin.ctls.filter (fun c => !(c.ticket = t.num && c.dev = s.twin.deviceId)) } }
  if t.pairWide ∧ !may then s.refuseTicket t 0 0x0209
  else
    let s := (((s.setTicket { t with st := 4 }).applyItem t.item).netAfter s).sealStore
    s.appliedRec t.num s.twin.deviceId t.item t.officers t.digest
/-- An item as the device that did not originate it takes it: DEVICE and HOME_CFG stay its own (R188, Table TWN-3). -/
def State.peerItem (s : State) : Item → Item
  | .domain c => .domain { c with device := s.twin.deviceId, homeCfg := s.twin.homeCfg }
  | it => it
/-- A change the peer originated. -/
def State.applyPeer (s : State) (c : CtlChange) : State :=
  let go := s.ctlMay c.ticket c.dev
  let s : State := { s with twin := { s.twin with ctls := s.twin.ctls.filter (fun x => !(x.ticket = c.ticket && x.dev = c.dev)) } }
  if go then ((s.applyItem (s.peerItem c.item)).netAfter s).sealStore.appliedRec c.ticket c.dev c.item [] [] else s
/-- STAGED_CHANGE_APPLY: the boundary of an epoch of effect. It comes before the boundary's own BEAT_BOUNDARY, whose
admission then runs under the new set-up; time moves to the boundary's lane cycle. Changes apply in ticket order. -/
def execStagedChangeApply (s : State) : Res :=
  let due := s.cel.tickets.filter (fun t => t.st = 3 && decide (t.effect * 100 ≤ s.btm.beat + 1))
  let peer := s.twin.ctls.filter (fun c => c.dev ≠ s.twin.deviceId && decide (c.epoch * 100 ≤ s.btm.beat + 1))
  if s.cel.st ≠ 3 ∨ !s.btm.running ∨ (due.isEmpty ∧ peer.isEmpty) then .next s
  else
    let s := if due.any (fun t => decide (t.effect * 100 > s.btm.beat)) then
        { s with laneClk := s.laneClk + (s.btm.len - 1 - s.btm.cyc), btm := { s.btm with cyc := s.btm.len - 1 } }
      else s
    .next (peer.foldl (fun s c => s.applyPeer c) (due.foldl (fun s t => s.applyTicket t) s))

/-! ### The Strongroom's own events -/

/-- What the Strongroom's store reports for a slot: one that cannot be corrected is unusable from then on (Table KU-49). -/
def State.slotErr (s : State) (i : Nat) (err : StoreErr) : State := match err with
  | .none => s
  | .single => s.ras { code := 0x40C2, source := 11, flags := 1, requester := 272 }
  | .multi =>
    ((s.setSlot i { s.slot i with damaged := true }).policyRec 0x16 0 0 0 [] (Bytes.ofNatLE 2 i)).ras
      { code := 0x4009, source := 11, requester := 272 }
/-- QUERY (R374): a slot's current handle, KCV and count; `err` is what the slot's check reports as it is read (log 180). -/
def execQuery (agent : Agent) (slot : SlotId) (err : StoreErr) (s : State) : Res :=
  if !(decide (agent.val < 256) || decide (272 ≤ agent.val ∧ agent.val ≤ 275 ∧ agent.val ≠ 274)) then .next (s.refuse agent 0x3F000010 true)
  else
  let s := s.slotErr slot err
  let z := s.slot slot
  .next { s with str := { s.str with
    qSlot := slot, qDone := true, qHandle := if z.held then mkHandle z.policy z.cls z.gen slot else 0,
    qKcv := if z.held then Bytes.toNatBE z.kcv else 0, qCount := if z.held then z.uses else 0 } }
/-- ENTROPY_HEALTH_FAILURE (R362): ENT_FAIL, a Garret freeze, and no more reseeds. -/
def execEntropyHealthFailure (s : State) : Res :=
  .next (({ s with str := { s.str with entFail := true } } : State).gFreeze 1 272)
/-- RESEED_LAPSE (R362): after 16 epochs without a reseed. -/
def execReseedLapse (s : State) : Res :=
  if s.str.entFail ∧ s.str.lastReseed + 16 ≤ s.epoch then .next { s with str := { s.str with lapsed := true } } else .next s

end Sys2Proof.Machine
end

