-- ==== Sys2Proof/Machine/Dmc.lean ====
section
/-!
DEFINITION. The memory controllers: reads and writes (R281 to R283, R297 to R306), refresh (R284 to R287), training and
frequency changes (R288 to R294), failure (R291), the scrubber (R307 to R309), remapping (R310), and the Skeid commands
of the memory system (R273 to R276, R310, R345).
-/

namespace Sys2Proof.Machine
open Sys2Proof

/-! ### Register views (Tables DMC-6, KU-52) -/

def Dmc.status (d : Dmc) : Nat :=
  let hot := d.hot.any (·.2)
  b2n hot * 2 ^ 15 + d.owed.foldl (fun a p => max a p.2) 0 * 2 ^ 8 + b2n d.pass * 8 + d.st
def Dmc.poisonCnt (d : Dmc) : Nat := (d.plist.filter (fun p => p.2.isSome)).length
def State.dmcView (s : State) (c o : Nat) : Option Nat :=
  let d := s.dmc c
  if o = 4 then some d.status
  else if o = 0x20 then some (d.cap * 2 ^ 8 + d.density * 2 ^ 4 + d.ranks * 4 + d.dimms)
  else if o = 0x24 then
    some (b2n d.member * 2 ^ 17 + b2n s.mem.gran * 2 ^ 16 + (if d.member then d.slot * 2 ^ 8 + s.mem.set.length else 0))
  else if o = 0x30 then some 0
  else if o = 0x34 then some (b2n d.busy * 2 ^ 31 + b2n d.deferred.isSome * 2 ^ 30 + d.cur * 2 ^ 16 + d.freqCode)
  else if 0x40 ≤ o ∧ o < 0x50 then
    match d.tsets[(o - 0x40) / 4]? with
    | some t => some (b2n t.2.1 * 2 ^ 31 + b2n t.2.2 * 2 ^ 30 + t.1)
    | none => some 0
  else if o = 0x64 then some (d.passes % 65536 * 65536 + min d.errs 0xFFFF)
  else if 0x180 ≤ o ∧ o < 0x200 then some (SMap.get 0 ((o - 0x180) / 4) d.hist)
  else if o = 0x1110 then some d.scrubPos
  else if 0x1200 ≤ o ∧ o < 0x1280 then
    match SMap.get none ((o - 0x1200) / 8) d.remap with
    | some r => some (if o % 8 = 0 then r.src else 2 ^ 31 + b2n r.poisoned * 2 ^ 30 + r.spare)
    | none => some 0
  else if 0x1300 ≤ o ∧ o < 0x1500 then
    match SMap.get none ((o - 0x1300) / 8) d.plist with
    | some p => some (if o % 8 = 0 then p.1 else 2 ^ 31 + p.2)
    | none => some 0
  else if o = 0x1500 then some d.poisonCnt
  else none

/-! ### Counting and listing -/

def Dmc.cfg (d : Dmc) : Nat := d.dimms + 4 * d.ranks + 16 * d.density
/-- An error event counts in the current window (R290). -/
def State.dmcEvent (s : State) (c k : Nat) : State := s.modDmc c (fun d => { d with errs := min (d.errs + k) 0xFFFF })
/-- The bin of a latency in ns: bin 0 below BASE, then steps of 2^WIDTH ns, bin 31 for the rest (R296). -/
def latBin (base width ns : Nat) : Nat := if ns < base then 0 else min 31 (1 + (ns - base) / 2 ^ width)
/-- A latency counts in its bin; no rule gives a request's latency, so the latency is a free value (R296). -/
def State.dmcHist (s : State) (c : Nat) (sel : Nat) : State :=
  let cfg := s.reg (dmcBase c + 0x100)
  if bits cfg 1 0 = sel then
    let i := latBin (bits cfg 23 12) (bits cfg 11 8) (s.freeWord.toNat % 2 ^ 32)
    (s.drew).modDmc c (fun d => { d with hist := SMap.set 0 i (satAdd (SMap.get 0 i d.hist) 1 (2 ^ 32 - 1)) d.hist })
  else s
def Dmc.remapped (d : Dmc) (k : Nat) : Bool := d.remap.any (fun p => match p.2 with
  | some r => r.src = k
  | none => false)
/-- A line enters the poison list (R306); a full list is reported with 0x4006 and LIST_FULL. -/
def State.listLine (s : State) (c k reason code flags dev : Nat) : State :=
  let d := s.dmc c
  let pa := s.mem.lineAt c k * 64
  match (List.range 64).find? (fun i => (SMap.get none i d.plist).isNone) with
  | some i =>
    (s.setDmc c { d with plist := SMap.put i (some (k, reason)) d.plist }).ras
      { code := code, inst := c, flags := flags + 4, requester := if reason = 1 then 0x1FE else 0x1FF, pa := pa, device := dev, line := k }
  | none =>
    (s.raiseIrq (dmcBase c) 7).ras
      { code := 0x4006, inst := c, flags := flags, requester := if reason = 1 then 0x1FE else 0x1FF, pa := pa, device := dev, line := k }
/-- The rank of a line among the channel's ranks, and its row with that rank as `openRow` lists it. -/
def Dmc.rankOf (d : Dmc) (k : Nat) : Nat := Config.dramMap d.cfg k 5 % 2 * d.ranks + Config.dramMap d.cfg k 4 % max 1 d.ranks
def Dmc.rowOf (d : Dmc) (k : Nat) : Nat := Config.dramMap d.cfg k 0 * 4 + d.rankOf k % 4
/-- A line's row is open in its bank. -/
def Dmc.rowHit (d : Dmc) (k : Nat) : Bool := decide (SMap.find (Config.dramMap d.cfg k 7) d.openRow = some (d.rowOf k))
/-- An access opens its row: an activate may be sampled for a neighbour refresh (R286, R287). -/
def State.activate (s : State) (c k : Nat) : State :=
  let d := s.dmc c
  let bank := Config.dramMap d.cfg k 7
  let row := Config.dramMap d.cfg k 0
  if d.rowHit k then s
  else
    let kk := max 8 (min 16 (bits (s.reg (dmcBase c + 0x50)) 4 0))
    let hit := s.freeWord.toNat % 2 ^ kk = 0
    let s := s.drew
    let q := SMap.get [] bank d.nq
    let full := hit && decide (q.length ≥ 4)
    let q' := if hit then (if full then q.drop 1 else q) ++ [row] else q
    let s := s.setDmc c { d with openRow := SMap.put bank (d.rowOf k) d.openRow, nq := SMap.set [] bank q' d.nq }
    if full then s.incReg (dmcBase c + 0x88) 1 else s
/-- A queued write reaches the DRAM: cells and poison mark. -/
def State.issueWrite (s : State) (w : WEntry) : State :=
  { s with
    dram := memWrite s.dram (w.line * 64) (Bytes.slice w.data 0 64),
    poison := if w.poisoned then SMap.put w.line () s.poison else SMap.del w.line s.poison,
    mem := { s.mem with wq := s.mem.wq.filter (fun x => x.line ≠ w.line) } }
/-- The controller issues a write: it opens the row and its latency is counted. -/
def State.dmcIssue (s : State) (c : Nat) (w : WEntry) : State := (s.activate c (s.mem.place w.line).2).dmcHist c 2
/-- The rank's read queue is empty: the refreshes that it owes are issued as one burst (R285). -/
def State.payOwed (s : State) (c rank : Nat) : State := s.modDmc c (fun d =>
  if (SMap.find rank d.owed).isSome then
    { d with owed := SMap.del rank d.owed, openRow := d.openRow.filter (fun p => p.2 % 4 ≠ rank % 4) }
  else d)
/-- A corrected read (R298, R300, R315): counted; recorded unless the line and device were within the last second. -/
def State.dmcCorrected (s : State) (c k dev syms requester flags : Nat) : State :=
  let d := s.dmc c
  let a := dmcBase c
  let sub := Config.dramMap d.cfg k 3 % 2
  let s := (s.incReg (a + 0x1000) 1).incReg (a + 0x1040 + 4 * (sub * 10 + dev % 10)) 1
  let s := s.dmcEvent c 1
  let now := s.tai
  let recent := d.ceLog.any (fun x => x.1 = k && x.2.1 = dev && decide (now < x.2.2 + 1000000000))
  let log := d.ceLog.filter (fun x => decide (now < x.2.2 + 1000000000))
  let times := d.ceTimes.filter (fun x => decide (now < x + 1000000000)) ++ [now]
  let s := s.modDmc c (fun d => { d with
    corrNow := if d.corrNow.contains (k, dev) then d.corrNow else d.corrNow ++ [(k, dev)],
    ceLog := if recent then log else log ++ [(k, dev, now)], ceTimes := times })
  let hi := bits (s.reg (a + 0x100C)) 15 0
  let s := if hi ≠ 0 ∧ times.length ≥ hi then s.raiseIrq a 6 else s
  if recent then s
  else s.ras { code := 0x40C2, inst := c, flags := 1 + flags + (if d.remapped k then 8 else 0), requester := requester,
               pa := s.mem.lineAt c k * 64, device := dev, symbols := syms, line := k }
/-- A read returns a data error with its record (R301). -/
def State.dmcDataErr (s : State) (c k code requester flags : Nat) : State :=
  let s := s.incReg (dmcBase c + (if code = 0x4001 then 0x1004 else 0x1008)) 1
  let s := s.modDmc c (fun d => { d with lastData := [], lastCode := code })
  s.ras { code := code, inst := c, flags := 2 + flags + (if (s.dmc c).remapped k then 8 else 0), requester := requester,
          pa := s.mem.lineAt c k * 64, line := k }
/-- The stored symbols that a read of line `k` finds, and what they decode to (R297, R298). -/
def State.decodeAt (s : State) (c k : Nat) (err : DramErr) : Decoded :=
  let j := err.cells.getD k
  let l := s.mem.lineAt c j
  let cw := codeword (memRead s.dram (l * 64) 64) j (SMap.find l s.poison).isSome
  decodeLine (gfAdd cw (err.flips ++ List.replicate (40 - err.flips.length) 0)) k
/-- The controller serves one read: the poison list, a matching write first (R282), then the decode (Table KU-47). -/
def State.dmcRead (s : State) (c k requester : Nat) (err : DramErr) : State :=
  let d := s.dmc c
  if d.listed k then s.dmcDataErr c k 0x4003 requester 4
  else
    let l := s.mem.lineAt c k
    let (s, raw) := match s.mem.wq.find? (fun w => w.line = l) with
      | some w => (((s.dmcIssue c w).issueWrite w).incReg (dmcBase c + 0x80) 1, true)
      | none => (s, false)
    let s := (s.activate c k).dmcHist c (if raw then 1 else 0)
    let s := if raw then s.dmcHist c 0 else s
    let ok := fun (s : State) (b : Bytes) => s.modDmc c (fun d => { d with lastData := b, lastCode := 0 })
    match s.decodeAt c k err with
    | .clean b => ok s b
    | .poisoned => s.dmcDataErr c k 0x4002 requester 0
    | .corrected dev syms b => ok (s.dmcCorrected c k dev syms requester 0) b
    | .uncorrectable => s.dmcDataErr c k 0x4001 requester 0

/-! ### Requests -/

/-- MEMORY_READ (R282, R285, R291, R293, R301); `last` tells that the rank's read queue empties with it. -/
def execMemoryRead (c : ChanId) (line : Nat) (requester : Agent) (err : DramErr) (last : Bool) (s : State) : Res :=
  let d := s.dmc c
  let go := fun (s : State) =>
    let s := s.dmcRead c line requester err
    if last then s.payOwed c (d.rankOf line) else s
  match d.st with
  | 2 => .next (go s)
  | 3 => .next (go s)
  | 4 => if d.rq.length < 64 then .next (s.setDmc c { d with rq := d.rq ++ [(line, requester.val, err)] }) else .next s
  | 5 => .next (s.setDmc c { d with lastData := [], lastCode := 0x4030 })
  | _ => .next s
/-- Writes queued at one channel. -/
def Mem.wcount (m : Mem) (c : Nat) : Nat := (m.wq.filter (fun w => w.ch = c)).length
/-- MEMORY_WRITE (R281): queued and acknowledged, in the place of a queued write to the same line. -/
def execMemoryWrite (c : ChanId) (line : Nat) (data : Bytes) (poisoned : Bool) (requester : Agent) (s : State) : Res :=
  let d := s.dmc c
  let l := s.mem.lineAt c line
  if d.st = 0 ∨ d.st = 1 ∨ (s.mem.wcount c ≥ 64 ∧ !s.mem.wq.any (fun w => w.line = l)) then .next s
  else
    let s := s.queueWrite l (Bytes.slice data 0 64) poisoned requester
    let hi := bits (s.reg (dmcBase c + 0x70)) 23 16
    .next (if s.mem.wcount c ≥ hi then s.modDmc c (fun d => { d with draining := true }) else s)
/-- A write has waited AGE_MAX (units of 100 ns) in its queue. -/
def State.aged (s : State) (c : Nat) (w : WEntry) : Bool :=
  decide (w.clk + 160 * max 1 (bits (s.reg (dmcBase c + 0x70)) 15 8) ≤ s.laneClk)
/-- The write a controller issues next (R282, R283): one that a read waits for; else one that hits an open row, or the oldest, but
none younger than an aged write to the same rank. -/
def State.nextWrite (s : State) (c : Nat) : Option WEntry :=
  let d := s.dmc c
  let q := s.mem.wq.filter (fun w => w.ch = c)
  let k := fun (w : WEntry) => (s.mem.place w.line).2
  match q.find? (fun w => w.urgent) with
  | some w => some w
  | none => match (q.find? (fun w => d.rowHit (k w))).or q.head? with
    | some w => (q.find? (fun x => s.aged c x && decide (d.rankOf (k x) = d.rankOf (k w)))).or (some w)
    | none => none
/-- QUEUED_WRITE_ISSUE (R283, R311): `tries` attempts failed write CRC or parity; after the fourth the line is listed. -/
def execQueuedWriteIssue (c : ChanId) (tries : Fin 5) (s : State) : Res :=
  let d := s.dmc c
  if d.st ≠ 2 ∧ d.st ≠ 3 then .next s
  else match s.nextWrite c with
    | none => .next s
    | some w =>
      let k := (s.mem.place w.line).2
      let s := (s.dmcIssue c w).dmcEvent c tries
      let s := if tries.val = 4 then
          ({ s with mem := { s.mem with wq := s.mem.wq.filter (fun x => x.line ≠ w.line) } } : State).listLine c k 2 0x400A 0 0xFF
        else s.issueWrite w
      .next (s.modDmc c (fun d => { d with draining := d.draining && decide (s.mem.wcount c > bits (s.reg (dmcBase c + 0x70)) 31 24) }))

/-! ### Refresh -/

/-- REFRESH_DUE (R285): postponed while the rank's read queue holds a request and fewer than eight are owed; otherwise it and
every owed refresh are issued, with eight owed as a burst of nine. A rank in self-refresh (R293), or that the channel does not
have, has none due. -/
def execRefreshDue (c : ChanId) (rank : Fin 4) (queued : Bool) (s : State) : Res :=
  let d := s.dmc c
  if (d.st ≠ 2 ∧ d.st ≠ 3) ∨ d.dimms * d.ranks ≤ rank.val then .next s
  else
    let o := SMap.get 0 rank.val d.owed
    let strict := bit (s.reg (dmcBase c)) 1
    if queued ∧ !strict ∧ o < 8 then .next (s.setDmc c { d with owed := SMap.set 0 rank (o + 1) d.owed })
    else
      let s := s.setDmc c { d with owed := SMap.del rank d.owed, openRow := d.openRow.filter (fun p => p.2 % 4 ≠ rank.val) }
      .next (if o = 8 then s.incReg (dmcBase c + 0x84) 1 else s)
/-- DIMM_TEMPERATURE_READ (R284): above 85 °C the rank runs at 0.975 µs and STATUS.HOT is set. -/
def execDimmTemperatureRead (c : ChanId) (temps : List Nat) (s : State) : Res :=
  let d := s.dmc c
  if d.st < 2 then .next s
  else
    let hot := (List.range (d.dimms * d.ranks)).foldl (fun m r =>
      SMap.set false r (decide (temps.getD (r / max 1 d.ranks) 0 > 85)) m) []
    let was := d.hot.any (·.2)
    let s := s.setDmc c { d with hot := hot, temps := temps }
    .next (if hot.any (·.2) && !was then s.raiseIrq (dmcBase c) 4 else s)
/-- DQS_DRIFT_TRACK (R288): tracking is not a pass and defers nothing. -/
def execDqsDriftTrack (c : ChanId) (drift : Int) (s : State) : Res :=
  .next (s.modDmc c (fun d => if d.st < 2 then d else { d with drift := d.drift + drift }))
/-- NEIGHBOUR_REFRESH (R287): the bank's oldest sampled row. -/
def execNeighbourRefresh (c : ChanId) (bank : Nat) (s : State) : Res :=
  let d := s.dmc c
  match SMap.get [] bank d.nq with
  | [] => .next s
  | _ :: q => .next ((s.setDmc c { d with nq := SMap.set [] bank q d.nq }).incReg (dmcBase c + 0x88) 1)

/-! ### Training, failure and frequency (R289 to R294) -/

/-- A DMC register accepts a write from harts, the Cellarer and the debug module; others take Completer Abort (R280). -/
def State.dmcAccess (s : State) (a : Agent) (c o : Nat) (f : State → State) : Res :=
  if a.val < 256 ∨ a.val = 272 ∨ (a.val = 275 ∧ s.str.unlockSysbus) then .next (f s) else .next (s.refuse a (dmcBase c + o) true)
def Dmc.startPass (d : Dmc) : Dmc := if (d.st = 2 ∨ d.st = 3) ∧ !d.pass then { d with pass := true } else d
/-- TRAIN_NOW: CTL.TRAIN_NOW reads 1 until the pass ends; during a frequency change, until the pass that follows it. -/
def execTrainNow (agent : Agent) (c : ChanId) (s : State) : Res :=
  s.dmcAccess agent c 0 fun s =>
    if 2 ≤ (s.dmc c).st ∧ (s.dmc c).st ≤ 4 then (s.setField (dmcBase c) 0 0 1).modDmc c (·.startPass) else s
/-- Whether a temperature has moved by DRIFT since the last pass. -/
def State.drifted (s : State) (c : Nat) : Bool :=
  let d := s.dmc c
  let lim := bits (s.reg (dmcBase c + 0x60)) 11 8
  (d.temps.zip d.passTemps).any (fun p => decide (max p.1 p.2 - min p.1 p.2 ≥ lim))
/-- INTERVAL seconds have passed since the last pass. -/
def State.passDue (s : State) (c : Nat) : Bool :=
  decide ((s.dmc c).passAt + max 1 (bits (s.reg (dmcBase c + 0x60)) 7 0) * 1600000000 ≤ s.laneClk)
/-- TRAINING_PASS_START (R289): on its interval, a drift of temperature, software's request or a completed change. -/
def execTrainingPassStart (c : ChanId) (why : PassCause) (s : State) : Res :=
  if (why = .drift ∧ !s.drifted c) ∨ (why = .interval ∧ !s.passDue c) then .next s else .next (s.modDmc c (·.startPass))
/-- A frequency request runs, or is refused (R294). -/
def State.freqStart (s : State) (c t : Nat) (deferred : Bool) : State :=
  let d := s.dmc c
  let (rate, trained, _) := d.tsets.getD t (0, false, false)
  let refuse := fun (code : Nat) => (s.setDmc c { d with freqCode := code, deferred := none }).raiseIrq (dmcBase c) 2
  if !trained then refuse 0x4020
  else if !ratePermitted d.dimms d.rateMax rate then refuse 0x4021
  else s.setDmc c { d with busy := true, target := t, back := d.st, st := 4, owed := [], deferred := none, wasDeferred := deferred }
/-- FREQ_REQ. -/
def execFreqReq (agent : Agent) (c : ChanId) (val : W32) (s : State) : Res :=
  s.dmcAccess agent c 0x30 fun s =>
    let d := s.dmc c
    let refuse := fun (code : Nat) => (s.setDmc c { d with freqCode := code }).raiseIrq (dmcBase c) 2
    if d.busy then refuse 0x4023
    else if d.st = 0 ∨ d.st = 1 ∨ d.st = 5 then refuse 0x4022
    else if d.pass then s.setDmc c { d with deferred := some (val.toNat % 4) }
    else s.freqStart c (val.toNat % 4) false
/-- TRAINING_PASS_END (R290): working settings make the channel ACTIVE, none leaves it DEGRADED; a deferred request follows. -/
def execTrainingPassEnd (c : ChanId) (found : Bool) (s : State) : Res :=
  let d := s.dmc c
  if !d.pass then .next s
  else
    let s := s.setDmc c { d with pass := false, passes := d.passes + 1, passTemps := d.temps, passAt := s.laneClk, st := if found then 2 else 3 }
    let s := s.setField (dmcBase c) 0 0 0
    let s := if found then s else
      let s := s.raiseIrq (dmcBase c) 3
      if d.st = 3 then s else s.raiseIrq (dmcBase c) 1
    .next (match d.deferred with
      | some t => s.freqStart c t true
      | none => s)
/-- A failure (R290, R291): a DEGRADED channel whose window has reached ERR_MAX; a frequency request held behind a pass finds
the channel FAILED (R294). -/
def State.channelFail (s : State) (c : Nat) : State :=
  let d := s.dmc c
  let mx := max 1 (bits (s.reg (dmcBase c + 0x60)) 31 16)
  if d.st ≠ 3 ∨ d.errs < mx then s
  else
    let s := s.setDmc c { d with
      st := 5, pass := false, rq := [], lastData := [], lastCode := 0x4030, deferred := none,
      freqCode := if d.deferred.isSome then 0x4022 else d.freqCode }
    let s := s.setField (dmcBase c) 0 0 0
    let s := if d.deferred.isSome then s.raiseIrq (dmcBase c) 2 else s
    let s : State := { s with mem := { s.mem with wq := s.mem.wq.filter (fun w => w.ch ≠ c) } }
    let s := s.raiseIrq (dmcBase c) 0
    let s := s.ras { code := 0x4030, inst := c, detail := d.slot + 16 * s.mem.set.length + 512 * b2n s.mem.gran }
    s.gEvt 0xB c 0x4030 0x1FF c d.slot s.mem.set.length
/-- CHANNEL_FAILURE (R291). -/
def execChannelFailure (c : ChanId) (s : State) : Res := .next (s.channelFail c)
/-- ERROR_WINDOW_END (R290): a window that has reached ERR_MAX ends with the failure, any other leaves the state as it is. -/
def execErrorWindowEnd (c : ChanId) (s : State) : Res := .next ((s.channelFail c).modDmc c (fun d => { d with errs := 0 }))
/-- FREQ_CHANGE_COMPLETE (R293): the waiting reads are issued at the new rate and a pass on the new set follows. -/
def execFreqChangeComplete (c : ChanId) (s : State) : Res :=
  let d := s.dmc c
  if !d.busy then .next s
  else
    let s := s.setDmc c { d with
      busy := false, cur := d.target, st := d.back, freqCode := if d.wasDeferred then 0x40C1 else 0, rq := [], openRow := [] }
    let s := s.raiseIrq (dmcBase c) 2
    let s := d.rq.foldl (fun s r => s.dmcRead c r.1 r.2.1 r.2.2) s
    .next (s.modDmc c (·.startPass))
/-- HIST_CLEAR (R296). -/
def execHistClear (agent : Agent) (c : ChanId) (s : State) : Res :=
  s.dmcAccess agent c 0x100 fun s => s.modDmc c (fun d => { d with hist := [] })

/-! ### The scrubber (R307 to R309) -/

/-- Lines of the channel-local space, spare region included. -/
def Dmc.lines (d : Dmc) : Nat := d.cap * 2 ^ 24
/-- SCRUB_READ: only in an idle cycle, with both queues empty and no refresh owed, and at most one per GAP. -/
def execScrubRead (c : ChanId) (err : DramErr) (s : State) : Res :=
  let d := s.dmc c
  if bit (s.reg (dmcBase c + 0x1100)) 0 && (d.st = 2 || d.st = 3) && d.scrub.isNone && d.rq.isEmpty && s.mem.wcount c = 0
      && d.owed.isEmpty && decide (d.scrubAt + 160 * max 1 (bits (s.reg (dmcBase c + 0x1100)) 15 8) ≤ s.laneClk) then
    .next (s.setDmc c { d with scrub := some err, scrubCancel := false, scrubAt := s.laneClk })
  else .next s
/-- The scrubber goes on to the next line; a lap may end. -/
def State.scrubNext (s : State) (c : Nat) : State :=
  let d := s.dmc c
  let a := dmcBase c
  if d.scrubPos + 1 < d.lines then s.setDmc c { d with scrub := none, scrubPos := d.scrubPos + 1 }
  else
    let now := s.tai
    let s := s.setDmc c { d with
      scrub := none, scrubPos := 0, lapStart := now, lapClk := s.laneClk, scrubSlow := false, corrPrev := d.corrNow, corrNow := [] }
    ((s.setReg (a + 0x1104) ((now - d.lapStart) / 1000000000)).setReg (a + 0x1108) now).setReg (a + 0x110C) (now / 2 ^ 32)
/-- SCRUB_RESULT: a corrected line is repaired, an uncorrectable one listed, unless a write cancelled the result; a listed or
poison-marked line is recorded as any read of it is (R301, R305; log 179). -/
def execScrubResult (c : ChanId) (s : State) : Res :=
  let d := s.dmc c
  match d.scrub with
  | none => .next s
  | some err =>
    let k := d.scrubPos
    let l := s.mem.lineAt c k
    let note := fun (s : State) (code flags : Nat) => (s.incReg (dmcBase c + 0x1008) 1).ras
      { code := code, inst := c, flags := flags + (if d.remapped k then 8 else 0), requester := 0x1FE, pa := l * 64, line := k }
    let s := if d.listed k then note s 0x4003 36 else match s.decodeAt c k err with
      | .clean _ => s
      | .poisoned => note s 0x4002 32
      | .corrected dev syms b =>
        let s := s.dmcCorrected c k dev syms 0x1FE 32
        if bit (s.reg (dmcBase c + 0x1100)) 1 ∧ !d.scrubCancel then
          let s := (s.queueWrite l b false 0x1FE).incReg (dmcBase c + 0x1114) 1
          s.ras { code := 0x40C5, inst := c, flags := 33, requester := 0x1FE, pa := l * 64, device := dev, symbols := syms, line := k }
        else s
      | .uncorrectable =>
        if d.scrubCancel then s else (s.incReg (dmcBase c + 0x1004) 1).listLine c k 1 0x4005 32 0xFF
    .next (s.scrubNext c)
/-- SCRUB_SLOW_WARNING: WARN hours without a lap's end; set once until the next lap has ended. -/
def execScrubSlowWarning (c : ChanId) (s : State) : Res :=
  let d := s.dmc c
  let warn := max 1 (bits (s.reg (dmcBase c + 0x1100)) 31 24)
  if d.scrubSlow ∨ d.st < 2 ∨ s.laneClk < d.lapClk + warn * 5760000000000 then .next s else .next ((s.setDmc c { d with scrubSlow := true }).raiseIrq (dmcBase c) 5)

/-! ### Remapping (R310) -/

/-- Install a remap entry: the line's queued write drains, the line is decoded with `err`, and the spare line takes it.
Answers the spare line, or none with a full table. -/
def State.remapLine (s : State) (c k : Nat) (err : DramErr) : State × Option Nat :=
  let d := s.dmc c
  match (List.range 16).find? (fun i => (SMap.get none i d.remap).isNone) with
  | none => (s, none)
  | some i =>
    let l := s.mem.lineAt c k
    let s := match s.mem.wq.find? (fun w => w.line = l) with
      | some w => s.issueWrite w
      | none => s
    let copy : Option Bytes := match s.decodeAt c k err with
      | .clean b => some b
      | .corrected _ _ b => some b
      | _ => none
    let bad := copy.isNone
    let used := fun (j : Nat) => d.remap.any (fun p => match p.2 with
      | some r => r.spare = j
      | none => false)
    let spare := ((List.range 17).find? (fun j => !used j)).getD 0
    let s : State := { s with dram := memWrite s.dram (l * 64) (copy.getD []), poison := if bad then SMap.put l () s.poison else s.poison,
                              mem := { s.mem with rowLog := s.mem.rowLog ++ [(c, k)] } }
    let s := s.modDmc c (fun d => { d with remap := SMap.put i (some { src := k, spare := spare, poisoned := bad }) d.remap })
    (s.ras { code := 0x40C3, inst := c, flags := 8, pa := l * 64, line := k, detail := spare }, some spare)
/-- REMAP_INSTALL: the Cellarer's own policy, a line corrected on the same device in two successive laps. -/
def execRemapInstall (c : ChanId) (line : Nat) (err : DramErr) (s : State) : Res :=
  let d := s.dmc c
  if (d.st = 2 ∨ d.st = 3) ∧ !d.remapped line ∧ d.corrNow.any (fun x => x.1 = line && d.corrPrev.contains x) then
    .next (s.remapLine c line err).1
  else .next s

/-! ### Skeid commands of the memory system -/

/-- RAS_QUERY (Table CEL-11). -/
def execRasQuery (n : MbxId) (s : State) : Res :=
  let c := s.arg n 1
  s.skeid n 0x03 none (decide (c < 16)) 0 0 fun s =>
    let d := s.dmc c
    let a := dmcBase c
    { st := s, res := [d.status, s.reg (a + 0x1000), s.reg (a + 0x1004),
        d.poisonCnt + 256 * (d.remap.filter (fun p => p.2.isSome)).length, s.reg (a + 0x1104),
        (s.reg rasCtl + 2 ^ 32 - s.reg (rasCtl + 4)) % 2 ^ 32] }
/-- CACHE_PART (R273, R274). -/
def execCachePart (n : MbxId) (s : State) : Res :=
  let w1 := s.arg n 1
  let w2 := s.arg n 2
  let ok := bits w1 15 5 = 0 && !bit w1 3 && bits w2 30 19 = 0 && bits w2 15 9 = 0
    && !(bit w1 4 && bits w1 31 16 = 0) && (decide (bits w2 8 0 < 276) || bits w2 8 0 = 0x1FF)
  s.skeid n 0x40 none ok 0 0 fun s =>
    let chg := (b2n (bit w1 4) + 2 * bits w1 2 0, bits w1 31 16, b2n (bit w2 31) + 2 * bits w2 8 0, bits w2 18 16)
    { st := { s with mem := { s.mem with ppend := s.mem.ppend ++ [chg] } } }
/-- MEM_CONFIG (R276): the memory configuration record for the next cold boot. -/
def execMemConfig (n : MbxId) (s : State) : Res :=
  let m := s.arg n 1
  let rs := (List.range 4).map (fun i => bits (s.arg n 2) (8 * i + 7) (8 * i))
  s.skeid n 0x41 none (decide (m < 65536) && rs.all (fun r => decide (r ≤ 5)) && decide (s.arg n 3 ≤ 1)) 0 0 fun s =>
    { st := { s with cel := { s.cel with
        memRates := (maskLanes m).foldl (fun t c => SMap.put c rs t) s.cel.memRates, memGran := bit (s.arg n 3) 0 } } }
/-- MEM_REMAP (R310): the spare line, or 0x4007 with every entry in use. -/
def execMemRemap (n : MbxId) (err : DramErr) (s : State) : Res :=
  let c := s.arg n 1
  s.skeid n 0x42 none (decide (c < 16)) 0 0 fun s =>
    let d := s.dmc c
    if d.st ≠ 2 ∧ d.st ≠ 3 then { st := s, code := 0x0224 }
    else if s.arg n 2 ≥ d.lines then { st := s, code := 0x0202 }
    else match s.remapLine c (s.arg n 2) err with
      | (s, some sp) => { st := s, res := [sp] }
      | (s, none) => { st := s, code := 0x4007 }

end Sys2Proof.Machine
end

