-- ==== Sys2Proof/Machine/Pcie.lean ====
section
/-!
DEFINITION. The PCIe links (R375, R376, R392), host DMA channels (R387 to R390), address translation (R389), resets of
functions (R391), timeouts and tags (R393), and the card functions' configuration (R382, R383, R427).
-/

namespace Sys2Proof.Machine
open Sys2Proof

/-! ### Links and functions -/

def State.cardMode (s : State) : Bool := bit s.pwr.straps 0
/-- The width a sub-port trains at under its port's straps (Table KU-54): 0 x4, 1 x8, 2 x16; none where no link starts. -/
def State.subWidth (s : State) (p sub : Nat) : Option Nat :=
  if p = 4 ∧ s.cardMode then (if sub = 0 then some 2 else none)
  else match bits s.pwr.straps (3 * p + 3) (3 * p + 1), sub with
    | 0, 0 => some 2
    | 1, 0 => some 1
    | 1, 2 => some 1
    | 2, 0 => some 1
    | 2, 2 => some 0
    | 2, 3 => some 0
    | 3, 0 => some 0
    | 3, 1 => some 0
    | 3, 2 => some 1
    | 4, _ => some 0
    | _, _ => none
def State.plink (s : State) (k : Nat) : PLink := SMap.get {} k s.pcie.links
def State.setPlink (s : State) (k : Nat) (l : PLink) : State := { s with pcie := { s.pcie with links := SMap.set {} k l s.pcie.links } }
def State.pfn (s : State) (f : Nat) : PFn := SMap.get {} f s.pcie.fns
def State.setPfn (s : State) (f : Nat) (v : PFn) : State := { s with pcie := { s.pcie with fns := SMap.set {} f v s.pcie.fns } }
def State.hd (s : State) (k : Nat) : Hdma := SMap.get {} k s.pcie.hdma
def State.setHd (s : State) (k : Nat) (v : Hdma) : State := { s with pcie := { s.pcie with hdma := SMap.set {} k v s.pcie.hdma } }
def State.ptag (s : State) (t : Nat) : Option PTag := SMap.get none t s.pcie.tags
def State.setPtag (s : State) (t : Nat) (v : Option PTag) : State := { s with pcie := { s.pcie with tags := SMap.set none t v s.pcie.tags } }
def State.pcieSend (s : State) (x : PcieTx) : State := { s with pcie := { s.pcie with out := s.pcie.out ++ [x] } }
/-- A tag that link `k` may use: 1,024 requests stand at a link at most (Table HST-1); tag `t` of link `k` is 1,024 k + t. -/
def State.freeTag (s : State) (k : Nat) : Option Nat := ((List.range 1024).map (fun t => 1024 * k + t)).find? (fun t => (s.ptag t).isNone)
def hdmaReg (k o : Nat) : Nat := 0x34501000 + 0x40 * k + o
/-- A port's error is counted, signalled to its hart and recorded (R395). -/
def State.portErr (s : State) (p code : Nat) : State :=
  let b := 0x34000000 + 0x100000 * p
  ((s.incReg (b + 0x20) 1).sendTarget (s.reg (b + 0x10))).gEvt 9 p (BitVec.ofNat 16 code) 0x1FF 0 0 0
/-- An error of the card-mode endpoint goes to the host while the link is up; it is recorded too (R395). -/
def State.cardErr (s : State) (fn code : Nat) : State :=
  (if (s.plink 16).up then s.pcieSend (.err fn code) else s).gEvt 9 4 (BitVec.ofNat 16 code) 0x111 fn 0 0
/-- A channel may issue: its owner has Bus Master Enable, is in D0 and not in FLR, and the link is up (R390 to R392). -/
def State.hdRuns (s : State) (k : Nat) : Bool :=
  let h := s.hd k
  let f := s.pfn h.owner
  s.cardMode && (s.plink 16).up && !h.linkHeld && f.bme && !f.d3hot && !f.flr
/-- Send the vectors of a function whose pending bit is set and which nothing blocks any more (R383). -/
def State.msixFlush (s : State) (fn : Nat) : State :=
  (s.pfn fn).vecs.foldl (fun s p =>
    if p.2.pend && !p.2.masked then
      let f := s.pfn fn
      let s' := (s.setPfn fn { f with vecs := SMap.set {} p.1 { p.2 with pend := false } f.vecs }).msix fn p.1
      s'
    else s) s

/-! ### Ownership of channels (R382) -/

def Pcie.want (p : Pcie) (k : Nat) : Nat := if p.vfEn ∧ k < p.numVfs then k + 1 else 0
/-- An idle channel moves to the function the configuration gives it; that VF is then enabled. -/
def State.reown (s : State) (k : Nat) : State :=
  let h := s.hd k
  let w := s.pcie.want k
  if h.cur.isSome then s
  else
    let s := if h.owner = w then s else s.setHd k { h with owner := w }
    if w = 0 then s else s.setPfn w { s.pfn w with on := true }

/-! ### Channels (R387 to R389) -/

def State.hdEntries (s : State) (k : Nat) : Nat := 2 ^ (bits (s.reg (hdmaReg k 8)) 19 16 + 4)
def HDesc.ofBytes (d : Bytes) : HDesc :=
  let f := Bytes.le d 0 4
  { toHost := bit f 0, ro := bit f 1, translated := bit f 2, irq := bit f 3, len := Bytes.le d 4 4, host := Bytes.le d 8 8,
    loc := Bytes.le d 16 8, compl := Bytes.le d 24 8 }
/-- The descriptor at ring index `i`. -/
def State.hdDesc (s : State) (k i : Nat) : Bytes :=
  s.dramRead (s.reg (hdmaReg k 0) + s.reg (hdmaReg k 4) * 2 ^ 32 + 32 * i) 32
/-- The checks of R387. -/
def State.hdValid (s : State) (k : Nat) (d : Bytes) : Bool :=
  let x := HDesc.ofBytes d
  decide (Bytes.le d 0 4 < 16) && decide (1 ≤ x.len) && decide (x.len ≤ 16777216) && decide (x.host % 4 = 0) && decide (x.loc % 4 = 0)
    && decide (x.compl % 16 = 0) && s.inDram x.loc x.len && s.inDram x.compl 16 && (!x.translated || (s.pfn (s.hd k).owner).ats)
/-- The completion record is written, HEAD and DONE advance and the vector is signalled (R387, R383). -/
def State.hdRetire (s : State) (k : Nat) (d : HDesc) (code moved : Nat) : State :=
  let h := s.hd k
  let r := Bytes.ofNatLE 2 code ++ Bytes.zeros 2 ++ Bytes.ofNatLE 4 moved ++ Bytes.ofNatLE 8 s.tai
  let s := if s.inDram d.compl 16 ∧ d.compl % 16 = 0 then s.dramWrite d.compl r else s
  let s := (s.setReg (hdmaReg k 0xC) ((s.reg (hdmaReg k 0xC) + 1) % s.hdEntries k)).incReg (hdmaReg k 0x18) 1
  let s := s.setHd k { h with cur := none, code := 0, moved := 0, asked := 0, waitAts := false, last := if code = 0 then h.last else code }
  let s := if code = 0 then s else s.setReg (hdmaReg k 0x14) 2
  let s := if d.irq then s.msix h.owner (if h.owner = 0 then 65 + k else 0) else s
  s.reown k
/-- The translation in force for a host page. -/
def Pcie.xlat (p : Pcie) (fn page : Nat) : Option Nat := (p.atc.find? (fun e => e.1 = fn && e.2.1 = page)).map (·.2.2)
/-- A host address as the channel sends it; none waits for a Translation Request. -/
def State.hdHost (s : State) (k : Nat) (d : HDesc) (a : Nat) : Option Nat :=
  let fn := (s.hd k).owner
  if (s.pfn fn).ats && !d.translated then (s.pcie.xlat fn (a / 4096)).map (fun p => p * 4096 + a % 4096) else some a
/-- Send the requests of a descriptor: at most 512 bytes each and none across 4 KiB; reads while a tag is free (R387). -/
def State.hdIssue (k : Nat) (d : HDesc) : Nat → State → State
  | 0, s => s
  | f + 1, s =>
    let h := s.hd k
    if !s.hdRuns k ∨ h.code ∉ [0, 0x300A] ∨ h.asked ≥ d.len then s
    else
      let a := d.host + h.asked
      let n := min 512 (min (d.len - h.asked) (4096 - a % 4096))
      match s.hdHost k d a with
      | none => (s.setHd k { h with waitAts := true }).pcieSend (.transReq h.owner (a / 4096 * 4096))
      | some x =>
        if d.toHost then
          let ep := s.poisoned (d.loc + h.asked) n
          let s := s.pcieSend (.write h.owner x (s.dramRead (d.loc + h.asked) n) ep d.ro)
          (s.setHd k { h with asked := h.asked + n, moved := h.moved + n, code := if ep then 0x300A else h.code }).hdIssue k d f
        else match s.freeTag 16 with
          | none => s
          | some t =>
            let page := if (s.pfn h.owner).ats && !d.translated then some (a / 4096) else none
            let s := s.setPtag t (some { user := .chan k, off := h.asked, len := n, page := page, clk := s.laneClk })
            ((s.pcieSend (.read t x n)).setHd k { h with asked := h.asked + n }).hdIssue k d f
def State.hdGo (s : State) (k : Nat) : State :=
  match (s.hd k).cur with
  | some d => if (s.hd k).waitAts then s else State.hdIssue k d (d.len / 4 + 2) s
  | none => s
/-- HDMA_DESCRIPTOR: the next descriptor is copied, checked and started. -/
def execHdmaDescriptor (k : HdmaId) (s : State) : Res :=
  let h := s.hd k
  let head := s.reg (hdmaReg k 0xC)
  if !bit (s.reg (hdmaReg k 8)) 31 ∨ h.cur.isSome ∨ head = s.reg (hdmaReg k 0x10) ∨ !s.hdRuns k then .next s
  else
    let d := s.hdDesc k head
    let x := HDesc.ofBytes d
    let code := if s.hdValid k d then 0 else 0x3008
    .next ((s.setHd k { h with cur := some x, code := code, moved := 0, asked := 0, waitAts := false }).hdGo k)
/-- Reads of channel `k` still outstanding. -/
def State.hdReads (s : State) (k : Nat) : Bool := s.pcie.tags.any (fun p => match p.2 with
  | some t => t.user = .chan k && !t.quar
  | none => false)
/-- HDMA_DESCRIPTOR_COMPLETE: every transfer of the descriptor has ended; in a function-level reset FLR_COMPLETE ends it. -/
def execHdmaDescriptorComplete (k : HdmaId) (s : State) : Res :=
  let h := s.hd k
  match h.cur with
  | some d =>
    if s.hdReads k ∨ h.waitAts ∨ (s.pfn h.owner).flr ∨ (h.code = 0 ∧ h.moved < d.len) ∨ (h.code = 0x300A ∧ h.moved < d.len) then .next s
    else .next (s.hdRetire k d h.code h.moved)
  | none => .next s
/-- ATS_TRANSLATION_RESPONSE (R389). -/
def execAtsTranslationResponse (k : HdmaId) (granted : Bool) (host : Nat) (s : State) : Res :=
  let h := s.hd k
  match h.cur with
  | some d =>
    if !h.waitAts then .next s
    else if granted then
      let p := s.pcie
      let e := (h.owner, (d.host + h.asked) / 4096, host / 4096)
      let s := { s with pcie := { p with atc := (e :: p.atc).take 512 } }
      .next ((s.setHd k { h with waitAts := false }).hdGo k)
    else .next (s.setHd k { h with waitAts := false, code := if h.code = 0 then 0x3007 else h.code })
  | none => .next s
/-- INVALIDATE_REQUEST: the entries go at once; reads issued under them are remembered. -/
def execInvalidateRequest (fn : Fin 65) (base len : Nat) (s : State) : Res :=
  let p := s.pcie
  let hit := fun (e : Nat × Nat × Nat) => e.1 = fn.val && decide (base ≤ e.2.1 * 4096) && decide (e.2.1 * 4096 < base + len)
  let tags := p.tags.map (fun t => (t.1, t.2.map (fun x => match x.user with
    | .chan k => { x with stale := x.stale || (decide ((s.hd k).owner = fn.val) && x.page.any (fun g => p.atc.any (fun e => e.2.1 = g && hit e))) }
    | .hart _ _ => x)))
  .next { s with pcie := { p with atc := p.atc.filter (fun e => !hit e), tags := tags, inval := p.inval ++ [fn.val] } }
/-- INVALIDATE_COMPLETION: every such read has completed or timed out. -/
def execInvalidateCompletion (fn : Fin 65) (s : State) : Res :=
  let p := s.pcie
  let left := p.tags.any (fun t => match t.2 with
    | some x => x.stale && !x.quar && (match x.user with
      | .chan k => decide ((s.hd k).owner = fn.val)
      | .hart _ _ => false)
    | none => false)
  if left ∨ !p.inval.contains fn.val then .next s
  else .next (({ s with pcie := { p with inval := p.inval.erase fn.val } } : State).pcieSend (.invalDone fn))

/-! ### Completions and timeouts (R378, R393) -/

/-- A hart's load from a PCIe window ends with the bytes `b`. -/
def State.hartLoadEnd (s : State) (n : Nat) (b : Bytes) : State :=
  let h := s.hart n
  match h.wait with
  | .pcie rd size signed =>
    let v := Bytes.toNatLE (Bytes.slice b 0 size)
    let v := if signed && bit v (8 * size - 1) then v + (2 ^ 64 - 2 ^ (8 * size)) else v
    s.setHart n (h.ret rd (BitVec.ofNat 64 v) h.ilen)
  | _ => s
def ones8 : Bytes := List.replicate 8 0xFF#8
/-- PCIE_COMPLETION_RECEIVE. -/
def execPcieCompletionReceive (tag : Nat) (c : PcieCpl) (s : State) : Res :=
  let code := if c.poisoned then 0x3004 else if c.status = 0 then 0 else if c.status = 4 then 0x3003 else 0x3002
  match s.ptag tag with
  | none => .next (if tag / 1024 = 16 ∧ s.cardMode then s.cardErr 0 0x3010 else s.portErr (tag / 4096) 0x3010)
  | some t =>
    let s := s.setPtag tag none
    if t.quar then
      (if t.silent then .next s else match t.user with
        | .chan _ => .next (s.cardErr 0 0x3010)
        | .hart _ l => .next (s.portErr (l / 4) 0x3010))
    else match t.user with
      | .chan k =>
        let h := s.hd k
        if (s.pfn h.owner).flr then .next s
        else match h.cur with
          | none => .next s
          | some d =>
            if code ≠ 0 then .next ((s.setHd k { h with code := if h.code = 0 then code else h.code }).cardErr h.owner code)
            else
              let s := s.dramWriteBy 0x1FF (d.loc + t.off) (Bytes.slice c.data 0 t.len) false
              .next ((s.setHd k { h with moved := h.moved + t.len }).hdGo k)
      | .hart n l =>
        if code = 0 then .next (s.hartLoadEnd n c.data) else .next ((s.hartLoadEnd n ones8).portErr (l / 4) code)
/-- Lane cycles after which a channel's read times out: its function's completion timeout, capped at 90 ms in an FLR (R391) and at
4 s under an invalidation (R389). -/
def State.ctoClk (s : State) (k : Nat) (t : PTag) : Nat :=
  let f := s.pfn (s.hd k).owner
  1600 * (if f.flr then min 90000 f.timeout else if t.stale then min 4000000 f.timeout else f.timeout)
/-- COMPLETION_TIMEOUT: 0x3001 or all ones at once, and the tag is quarantined. A channel's read has its function's timeout to
wait for; no rule gives a root port's. -/
def execCompletionTimeout (tag : Nat) (s : State) : Res :=
  match s.ptag tag with
  | none => .next s
  | some t =>
    if t.quar then .next s
    else match t.user with
      | .chan k =>
        let h := s.hd k
        let flr := (s.pfn h.owner).flr
        if s.laneClk < t.clk + s.ctoClk k t then .next s
        else
          let s := s.setPtag tag (some { t with quar := true, silent := flr, clk := s.laneClk })
          if flr then .next s
          else .next ((s.setHd k { h with code := if h.code = 0 then 0x3001 else h.code }).cardErr h.owner 0x3001)
      | .hart n l =>
        .next (((s.setPtag tag (some { t with quar := true, clk := s.laneClk })).hartLoadEnd n ones8).portErr (l / 4) 0x3001)
/-- TAG_QUARANTINE_EXPIRY: 4 s after the quarantine began. -/
def execTagQuarantineExpiry (tag : Nat) (s : State) : Res :=
  match s.ptag tag with
  | some t => if t.quar ∧ t.clk + 6400000000 ≤ s.laneClk then .next (s.setPtag tag none) else .next s
  | none => .next s

/-! ### Link changes (R376, R392) -/

/-- PCIE_LINK_UP: a sub-port that its straps let start trains at a speed and width; 64 GT/s is always Flit mode. -/
def execPcieLinkUp (port : Fin 5) (sub : Fin 4) (speed : Fin 7) (width : Fin 3) (partnerFlit : Bool) (s : State) : Res :=
  match s.subWidth port sub with
  | some w =>
    if speed.val = 0 ∨ width.val > w then .next s
    else
      let k := port.val * 4 + sub
      let s := s.setPlink k { s.plink k with up := true, speed := speed, width := width, flit := speed.val = 6 || partnerFlit }
      if port.val = 4 ∧ s.cardMode then
        .next { s with pcie := { s.pcie with hdma := s.pcie.hdma.map (fun p => (p.1, { p.2 with linkHeld := false })) } }
      else .next s
  | none => .next s
/-- What port 4's link going down does in card mode. -/
def State.cardLinkDown (s : State) : State :=
  let s := { s with pcie := { s.pcie with tags := s.pcie.tags.filter (fun t => match t.2 with
    | some x => (match x.user with
      | .chan _ => false
      | .hart _ _ => true)
    | none => false) } }
  let s := (List.range 64).foldl (fun s k =>
    let h := s.hd k
    let s := match h.cur with
      | some d => s.hdRetire k d (if h.code = 0 then 0x3005 else h.code) h.moved
      | none => s
    s.setHd k { s.hd k with linkHeld := true }) s
  s.agentReset 273
/-- PCIE_LINK_DOWN. -/
def execPcieLinkDown (port : Fin 5) (sub : Fin 4) (s : State) : Res :=
  let k := port.val * 4 + sub
  let l := s.plink k
  if !l.up then .next s
  else
    let s := s.setPlink k { l with up := false, speed := 0, width := 0, flit := false, fell := true }
    if port.val = 4 ∧ s.cardMode then .next (s.cardLinkDown.cardErr 0 0x3005)
    else
      let mine := fun (t : Nat × Option PTag) => match t.2 with
        | some x => (match x.user with
          | .hart n l => if l = k ∧ !x.quar then some n else none
          | .chan _ => none)
        | none => none
      let hs := s.pcie.tags.filterMap mine
      let s := { s with pcie := { s.pcie with tags := s.pcie.tags.filter (fun t => (mine t).isNone) } }
      .next ((hs.foldl (fun s n => s.hartLoadEnd n ones8) s).portErr port 0x3005)
/-- PRESENCE_DETECT_CHANGE. -/
def execPresenceDetectChange (port : Fin 4) (sub : Fin 4) (present : Bool) (s : State) : Res :=
  let k := port.val * 4 + sub
  let l := s.plink k
  .next (if l.present = present then s else s.setPlink k { l with present := present, changed := true })

/-! ### Function state (R382, R383, R390, R391) -/

/-- The channels of a function stop: a descriptor in progress will complete with `code`. -/
def State.fnStop (s : State) (fn code : Nat) : State :=
  (List.range 64).foldl (fun s k =>
    let h := s.hd k
    if h.owner = fn ∧ h.cur.isSome then
      s.setHd k { h with waitAts := false, code := if h.code = 0 ∨ h.code = 0x300A then code else h.code }
    else s) s
def State.bmeClear (s : State) (fn : Nat) (d3hot : Bool) : State :=
  let f := s.pfn fn
  (s.setPfn fn (if d3hot then { f with d3hot := true } else { f with bme := false })).fnStop fn 0x3006
/-- BUS_MASTER_ENABLE_CLEAR (R390). -/
def execBusMasterEnableClear (fn : Fin 65) (d3hot : Bool) (s : State) : Res := .next (s.bmeClear fn d3hot)
/-- An FLR begins; one of the PF resets every VF too and counts as a host reset. -/
def State.flrStart (s : State) (fn : Nat) : State :=
  if !s.cardMode then s
  else
    let set_ := fun (s : State) (f : Nat) => (List.range 64).foldl (fun s k =>
      let h := s.hd k
      if h.owner = f then s.setHd k { h with waitAts := false } else s) (s.setPfn f { s.pfn f with flr := true, flrAt := s.laneClk })
    if fn = 0 then ((List.range 65).foldl (fun s f => if f = 0 ∨ (s.pfn f).on then set_ s f else s) s).agentReset 273
    else set_ s fn
/-- FUNCTION_LEVEL_RESET (R391). -/
def execFunctionLevelReset (fn : Fin 65) (s : State) : Res := .next (s.flrStart fn)
/-- Every descriptor from HEAD up to TAIL is discarded with 0x3009. -/
def State.hdDiscard (k : Nat) : Nat → State → State
  | 0, s => s
  | f + 1, s =>
    let head := s.reg (hdmaReg k 0xC)
    if head = s.reg (hdmaReg k 0x10) then s
    else (s.hdRetire k (HDesc.ofBytes (s.hdDesc k head)) 0x3009 0).hdDiscard k f
/-- The end of one function's reset. -/
def State.flrEnd (s : State) (fn : Nat) : State :=
  let s := (List.range 64).foldl (fun s k =>
    if (s.hd k).owner = fn then
      let s := { s with pcie := { s.pcie with tags := s.pcie.tags.map (fun (t : Nat × Option PTag) => (t.1, t.2.map (fun (x : PTag) =>
        if x.user = TagUser.chan k && !x.quar then { x with quar := true, silent := true, clk := s.laneClk } else x))) } }
      let s := match (s.hd k).cur with
        | some d => s.hdRetire k d 0x3009 (s.hd k).moved
        | none => s
      s.hdDiscard k (s.hdEntries k)
    else s) s
  let s := s.setPfn fn { on := (s.pfn fn).on && decide (fn ≠ 0) }
  { s with pcie := { s.pcie with atc := s.pcie.atc.filter (fun e => e.1 ≠ fn) } }
/-- The wait of R391 has ended: no read of the function's channel is outstanding, or 90 ms have passed. -/
def State.flrWaited (s : State) (fn : Nat) : Bool :=
  decide ((s.pfn fn).flrAt + 144000000 ≤ s.laneClk) || (List.range 64).all (fun k => decide ((s.hd k).owner ≠ fn) || !s.hdReads k)
/-- FLR_COMPLETE: descriptors complete with 0x3009 and the function's state returns to its reset values; a reset of the PF ends for
every function at once. -/
def execFlrComplete (fn : Fin 65) (s : State) : Res :=
  if !(s.pfn fn).flr ∨ !(if fn.val = 0 then (List.range 65).all (fun f => !(s.pfn f).flr || s.flrWaited f) else s.flrWaited fn) then
    .next s
  else if fn.val = 0 then
    let s := (List.range 65).foldl (fun s f => if (s.pfn f).flr then s.flrEnd f else s) s
    let s := { s with pcie := { s.pcie with vfEn := false, numVfs := 0, fns := s.pcie.fns.map (fun p => (p.1, { p.2 with on := false })) } }
    .next ((List.range 64).foldl (fun s k => s.reown k) s)
  else .next (s.flrEnd fn)
/-- VF_ENABLE (R382): NumVFs changes only while VF Enable is 0; idle channels move. -/
def execVfEnable (enable : Bool) (numVfs : Fin 65) (s : State) : Res :=
  if !s.cardMode then .next s
  else
    let p := s.pcie
    let p := { p with numVfs := if p.vfEn then p.numVfs else numVfs.val, vfEn := enable,
                      fns := if enable then p.fns else p.fns.map (fun q => (q.1, if q.1 = 0 then q.2 else { q.2 with on := false })) }
    .next ((List.range 64).foldl (fun s k => s.reown k) { s with pcie := p })
/-- MSIX_UNMASK (R383). -/
def execMsixUnmask (fn : Fin 65) (vec : Nat) (s : State) : Res :=
  let f := s.pfn fn
  .next ((s.setPfn fn { f with vecs := SMap.set {} vec { SMap.get {} vec f.vecs with masked := false } f.vecs }).msixFlush fn)

/-! ### Configuration requests (R427, Table HST-3) -/

/-- Completion timeout in µs of a Device Control 2 value: the least of its PCIe range, as in the example of R394. -/
def ctoOf (v : Nat) : Nat :=
  match v % 16 with
  | 1 => 50 | 2 => 1000 | 5 => 16000 | 6 => 65000 | 9 => 260000 | 10 => 1000000 | 13 => 4000000 | 14 => 17000000 | _ => 50
/-- The value a configuration read of an existing function returns. -/
def State.cfgRead (s : State) (fn off : Nat) : Nat :=
  let f := s.pfn fn
  if off = 0 then (if fn = 0 then 0x42001F2E else 0x42011F2E)
  else if off = 8 then 0x0B4000B1
  else if off = 4 then bits (SMap.get 0 4 f.cfg).toNat 15 0 / 8 * 8 + b2n f.bme * 4 + b2n f.mse * 2
  else (match SMap.find off f.cfg with
    | some v => v
    | none => Config.pcieCfg fn off).toNat
/-- A configuration write: the fields that the manual gives an effect act. -/
def State.cfgWrite (s : State) (fn off : Nat) (v : W32) : State :=
  let f := s.pfn fn
  let s := s.setPfn fn { f with cfg := SMap.put off v f.cfg }
  let f := s.pfn fn
  let n := v.toNat
  if off = 4 then
    let s := s.setPfn fn { f with mse := bit n 1, bme := bit n 2 }
    if f.bme && !bit n 2 then s.bmeClear fn false
    else (List.range 64).foldl (fun s k => if (s.hd k).owner = fn then s.hdGo k else s) (s.msixFlush fn)
  else if off = Config.pcieCap 0 then (s.setPfn fn { f with msixEn := bit n 31, msixMask := bit n 30 }).msixFlush fn
  else if off = Config.pcieCap 1 then
    (if n % 4 = 3 then s.bmeClear fn true else (s.setPfn fn { f with d3hot := false }).msixFlush fn)
  else if off = Config.pcieCap 2 then (if bit n 15 then s.flrStart fn else s)
  else if off = Config.pcieCap 3 then s.setPfn fn { f with timeout := ctoOf n }
  else if off = Config.pcieCap 4 then s.setPfn fn { f with ats := bit n 31 }
  else s
/-- PCIE_CONFIG_REQUEST: Request Retry Status until CEL.STATUS.STATE first reads READY. -/
def execPcieConfigRequest (fn : Fin 65) (off : Nat) (w : Option W32) (s : State) : Res :=
  if !s.cardMode ∨ !(s.plink 16).up then .next s
  else if !s.cel.descBuilt then .next (s.pcieSend (.cpl fn 2 [] false))
  else if fn.val ≠ 0 ∧ !(s.pfn fn).on then .next (s.pcieSend (.cpl fn 1 [] false))
  else match w with
    | some v => .next ((s.cfgWrite fn (off / 4 * 4) v).pcieSend (.cpl fn 0 [] false))
    | none => .next (s.pcieSend (.cpl fn 0 (Bytes.ofNatLE 4 (s.cfgRead fn (off / 4 * 4))) false))

/-! ### Register views (Table HST-9) -/

/-- The card port registers, the port blocks and the channels. -/
def State.pcieView (s : State) (o : Nat) : Option Nat :=
  let l := s.plink 16
  let f := s.pfn 0
  if o < 0x500000 then
    let p := o / 0x100000
    if o % 0x100000 = 0 then
      some (Config.rootStatus p ((List.range 4).map (fun i =>
        let l := s.plink (p * 4 + i)
        b2n l.up + 2 * b2n l.fell + 4 * b2n l.present + 8 * b2n l.changed + 16 * l.speed + 256 * l.width + 1024 * b2n l.flit))).toNat
    else none
  else if o = 0x500000 then
    some (((List.range 65).filter (fun v => v ≠ 0 && (s.pfn v).on)).length * 2 ^ 16 + b2n f.flr * 2 ^ 15 + b2n f.d3hot * 2 ^ 14 + b2n f.bme * 2 ^ 13 + b2n f.mse * 2 ^ 12
      + b2n s.cardMode * (l.speed * 2 ^ 4 + l.width * 4 + b2n l.flit * 2 + b2n l.up))
  else if 0x501000 ≤ o ∧ o < 0x502000 then
    let k := (o - 0x501000) / 0x40
    let h := s.hd k
    match (o - 0x501000) % 0x40 with
    | 8 => some (s.reg (0x34000000 + o) + h.owner)
    | 0x14 =>
      let fo := s.pfn h.owner
      some (h.last * 2 ^ 16 + b2n (h.linkHeld || !fo.bme || fo.d3hot) * 4 + bits (s.reg (0x34000000 + o)) 1 1 * 2 + b2n h.cur.isSome)
    | _ => none
  else none

end Sys2Proof.Machine
end

