-- ==== Sys2Proof/Machine/Power.lean ====
section
/-!
DEFINITION. Power, reset and boot: the resets of Table KU-55 (R422 to R426, R442, R444), the boot sequence of Table KU-56
(R427 to R429, R350), the power and thermal limits (R430 to R433, R439, R443), the standby port (R434) and orderly
shutdown (R435).
-/

namespace Sys2Proof.Machine
open Sys2Proof

/-! ### What the resets clear and keep -/

/-- Registers of the standby domain: the Cellarer status block (Tables CEL-8, GAR-5, KU-58). -/
def standbyReg (a : Nat) : Bool := decide (0x02000000 ≤ a) && decide (a ≤ 0x0200FFFF)
/-- The journal's ring registers, which a warm reset keeps (R173). -/
def jrnRingReg (a : Nat) : Bool := decide (0x30001000 ≤ a) && decide (a < 0x30003000)
/-- A lane as the Cellarer reloads it from the lane store: OFFLINE, program in bank 0, larder and stencils (R319). -/
def Lane.reload (l : Lane) : Lane :=
  let img := l.image l.bank
  { image0 := img, stencils := l.stencils,
    tmem := if img.isEmpty then [] else memWrite [] (larderBase img) (img.drop (368 + imgCodeSize img)) }
/-- The reset of every agent that `p` names, as mailboxes and locks count it (R335). -/
def State.massReset (s : State) (p : Nat → Bool) : State :=
  let s := (List.range 64).foldl (fun s n =>
    let m := s.mbx n
    let s := if decide (m.st ≠ 0) && p m.sender then s.mbxAgentReset m.sender n else s
    if p (s.mbxReceiver n) then s.mbxAgentReset (s.mbxReceiver n) n else s) s
  (s.cel.locks.filter (fun q => p q.2)).foldl (fun s q => s.abandonLock q.1) s
/-- Agents that stand in the main domain: the harts, the host, the twin link and the debug module. -/
def mainAgent (a : Nat) : Bool := decide (a < 256) || decide (273 ≤ a ∧ a ≤ 275)
/-- The main domain's power state at a reset of it. -/
def Pwr.mainReset (p : Pwr) : Pwr :=
  { p with mainUp := false, boot := if p.pwrgd then 1 else 0, sd := 0, sdCode := 0, sdLanes := 0, prochotOut := false,
           hotBays := [], avsDies := [], ceil := [], psteps := 0, belowBase := false, corePower := 0, pkgPower := 0,
           bayTemps := [], warm := false, dramReady := false, released := false, dmactive := false, haltGrp := [],
           resGrp := [], progbuf := [] }
/-- The policy records that have not committed, which the Cellarer holds and presents to ring 16 again (R165). -/
def State.celHeld (s : State) : List PortRec :=
  let r := s.ring 16
  ((r.recs.filter (fun x => !x.committed && x.src = .cel)).map (fun x => ({ src := .cel, agent := 272, bytes := x.bytes } : PortRec)))
    ++ r.waiting.filter (fun p => p.src = .cel)
/-- The main domain is reset as by a cold reset: what is left is the standby domain, flash, and the protection set-up and
lane programs that are reloaded from it. -/
def State.mainReset (s : State) : State :=
  let s := s.massReset mainAgent
  let t : State := {
    pending := s.pending, readRes := s.readRes, free := s.free, laneClk := s.laneClk, rom := s.rom,
    regs := s.regs.filter (fun r => standbyReg r.1),
    lanes := (s.lanes.map (fun (p : Nat × Lane) => (p.1, p.2.reload))).filter (fun p => p.2 ≠ {}),
    jrn := { rings := if s.celHeld.isEmpty then [] else [(16, { waiting := s.celHeld })], proofEn := s.jrn.proofEn, proofAlg := s.jrn.proofAlg, proofKey := s.jrn.proofKey },
    mem := { rowLog := s.mem.rowLog }, gar := s.gar, str := s.str, firewall := s.firewall, windows := s.windows, cel := s.cel,
    twin := { deviceId := s.twin.deviceId, dom := s.twin.dom, homeCfg := s.twin.homeCfg,
              wQuiet := match s.twin.dom with
                | some d => d.leaseLen + 1
                | none => 0 },
    net := { addrs := s.net.addrs, listeners := s.net.listeners, trust := s.net.trust },
    pwr := s.pwr.mainReset }
  let t := (t.setReg 0x30000020 (s.jrn.proofKey % 2 ^ 32)).setReg 0x30000024 (s.jrn.proofKey / 2 ^ 32)
  if t.twin.dom.isSome then t.applyHome t.twin.homeCfg else t
/-- The Strongroom as its sealed image restores it (R355): counts as last sealed, transient state gone, keys with a LIMIT
suspended unless the last seal was an orderly shutdown's. -/
def Str.restore (z : Str) (staged : List Nat) : Str :=
  { z with
    slots := z.slots.map (fun (p : Nat × KeySlot) => (p.1, { p.2 with uses := SMap.get 0 p.1 z.sealedUses })),
    inlineUses := z.sealedInline, refused := [], entFail := false, lapsed := false, lastReseed := 0, orderly := false,
    reserved := z.reserved.filter (fun r => staged.contains r.1),
    suspended := if z.orderly then z.suspended
      else (z.policies.filterMap (fun (p : Nat × Option Policy) => match p.2 with
        | some q => if q.limit ≠ 0 then some p.1 else none
        | none => none)),
    qHandle := 0, qKcv := 0, qCount := 0, qDone := false, qSlot := 0 }
/-- The Cellarer's flash: what a full cold reset keeps of it. -/
def Cel.flash (c : Cel) : Cel :=
  { tickets := c.tickets.filter (fun t => t.st = 3), nextTicket := c.nextTicket, fwCur := c.fwCur, fwPrev := c.fwPrev,
    platCur := c.platCur, platPrev := c.platPrev, stage := c.stage, memRates := c.memRates, memGran := c.memGran }
/-- Both domains are reset: only flash contents stay (Table KU-55); an attic slot whose copy had not ended is empty (R420). -/
def State.fullReset (s : State) : State :=
  let copying := s.gar.frozen
  let s := s.mainReset
  let c := s.cel.flash
  { s with
    regs := s.regs.filter (fun r => !standbyReg r.1), readRes := [],
    gar := { attic := if copying then SMap.del s.gar.slot s.gar.attic else s.gar.attic, serial := s.gar.serial }, cel := c,
    str := s.str.restore (c.tickets.filterMap (fun t => itemSlot t.item)),
    pwr := { mtime0 := s.laneClk } }

/-! ### Cold resets (R422 to R424, R442) -/

/-- A full cold reset with PWRGD at `up`: the mask ROM starts. Outputs that R444 holds stay asserted. -/
def State.fullCold (s : State) (straps : Nat) (up : Bool) : State :=
  let p := s.pwr
  let s := s.fullReset
  { s with
    cel := { s.cel with st := 1 },
    pwr := { s.pwr with standby := true, pwrgd := up, straps := straps, boot := if up then 1 else 0,
                        mainOff := p.mainOff && p.pwrgd, thermTrip := p.thermTrip && p.pwrgd } }
/-- FULL_COLD_RESET: SB_PWRGD rises, PWRGD with it or later (R422). -/
def execFullColdReset (straps : BitVec 16) (pwrgd : Bool) (s : State) : Res := .next (s.fullCold straps.toNat pwrgd)
/-- COLD_RST_N (R442): a low level of at least 320 Cellarer cycles. -/
def execColdRstN (lowCycles : Nat) (straps : BitVec 16) (s : State) : Res :=
  if s.pwr.standby ∧ 320 ≤ lowCycles then .next (s.fullCold straps.toNat s.pwr.pwrgd) else .next s
/-- Training begins: every channel shows TRAINING until it ends. -/
def State.trainStart (s : State) : State :=
  { s with
    pwr := { s.pwr with mainUp := true, boot := 2 },
    mem := { s.mem with dmc := (List.range 16).map (fun c => (c, ({ st := 1 } : Dmc))) } }
/-- MAIN_COLD_START: PWRGD rises with the standby domain up. -/
def execMainColdStart (straps : BitVec 16) (s : State) : Res :=
  if !s.pwr.standby ∨ s.pwr.pwrgd ∨ s.pwr.mainOff ∨ s.pwr.thermTrip then .next s
  else
    let s : State := { s with pwr := { s.pwr with pwrgd := true } }
    let s := s.mainReset
    let s : State := { s with
      pwr := { s.pwr with straps := straps.toNat, cause := s.pwr.nextCause, nextCause := 6, mtime0 := s.laneClk },
      str := { s.str with orderly := false } }
    if s.pwr.fwOk then .next ({ s with cel := { s.cel with st := 2, descBuilt := false } } : State).trainStart else .next s
/-- PWRGD_FALL: journal SRAM and the rest of the main domain are lost. -/
def execPwrgdFall (s : State) : Res :=
  if !s.pwr.pwrgd then .next s
  else
    let c := if s.pwr.sd = 3 then 1 else if s.pwr.nextCause = 4 ∨ s.pwr.nextCause = 5 then s.pwr.nextCause else 6
    let s : State := { s with pwr := { s.pwr with pwrgd := false, nextCause := c, fallClk := s.laneClk } }
    .next s.mainReset
/-- SIDEBAND_RELEASE (R444): 1 ms after PWRGD has fallen. -/
def execSidebandRelease (s : State) : Res :=
  if s.pwr.pwrgd ∨ s.laneClk < s.pwr.fallClk + 1600000 then .next s
  else .next { s with pwr := { s.pwr with mainOff := false, thermTrip := false } }
/-- STANDBY_POWER_LOSS: both domains end (R420). -/
def execStandbyPowerLoss (s : State) : Res :=
  let s := s.fullReset
  .next { s with pwr := { s.pwr with standby := false } }

/-! ### Warm reset (R425, R426) -/

/-- The Cellarer prepares staged changes again after a restart or reset (R370): an epoch of effect that has gone by moves on
with a new STAGED record; a refused preparation ends the change. -/
def State.rePrepare (s : State) : State :=
  (s.cel.tickets.filter (fun t => t.st = 3)).foldl (fun s t =>
    match s.phaseOne t.item with
    | some (mask, code) => s.refuseTicket t mask code
    | none =>
      if s.btm.running ∧ t.effect < s.earliest then
        (s.policyRecO 0x04 0 s.earliest t.officers 0 t.digest (ticketBody t.num s.twin.deviceId t.item)).setTicket
          { t with effect := s.earliest }
      else s) s
/-- A lane that is not OFFLINE is reset with agent 272 as its cause; its reset record is accepted by JRN. -/
def State.warmLane (s : State) (n : Nat) : State :=
  let l := s.lane n
  if l.st = 0 then s
  else
    let (disc, unrel) := s.lostMsgs n
    let s := if (s.ring n).online then
        s.acceptRec n { src := .laneHw n 4096, agent := 256 + n, hw := true,
                        bytes := recBytes 0x01 (if disc.isEmpty then 0 else 0x150A) 1 (resetPayload disc unrel 272) }
      else s
    s.setLane n (l.clear s.laneClk)
/-- What a controller keeps through a warm reset: its DIMMs, trained settings, remap table and poison list. -/
def Dmc.warm (d : Dmc) : Dmc :=
  { st := if d.st = 4 then d.back else d.st, dimms := d.dimms, ranks := d.ranks, density := d.density, rateMax := d.rateMax, cap := d.cap,
    member := d.member, slot := d.slot, tsets := d.tsets, cur := d.cur, remap := d.remap, plist := d.plist }
/-- Every ring holds with reason PAIR after a warm reset; appends that were not accepted are gone, but the Cellarer's. -/
def Ring.warm (r : Ring) : Ring :=
  { r with waiting := r.waiting.filter (fun p => p.src = .cel), pairHold := true, resync := false, closing := false, accClk := none }
/-- The warm reset: `cause` 2 by the pin, 3 by the register. -/
def State.warmReset (s : State) (cause : Nat) : State :=
  let s : State := { s with twin := { s.twin with lease := false, twinLease := false } }
  let s := (List.range 16).foldl (fun s n => s.warmLane n) s.sealDue
  let s := s.mem.wq.foldl (fun s w => s.issueWrite w) s
  let s := (s.linkFail 0x1409).setMode 3
  let t := s.mainReset
  { t with
    regs := t.regs ++ s.regs.filter (fun r => jrnRingReg r.1),
    lanes := (t.lanes.map (fun (p : Nat × Lane) => (p.1, { p.2 with hshGen := (s.lane p.1).hshGen, rshGen := (s.lane p.1).rshGen }))).filter
      (fun p => p.2 ≠ {}),
    jrn := { s.jrn with mode := 3,
                        rings := s.jrn.rings.map (fun (p : Nat × Ring) => (p.1, p.2.warm)) },
    mem := { pmask := s.mem.pmask, passign := s.mem.passign, set := s.mem.set, gran := s.mem.gran, cap := s.mem.cap,
             rowLog := s.mem.rowLog, dmc := s.mem.dmc.map (fun (p : Nat × Dmc) => (p.1, p.2.warm)) },
    dram := s.dram, poison := s.poison, dramTop := s.dramTop,
    twin := { t.twin with wCopies := s.twin.wCopies },
    pwr := { t.pwr with warm := true, warmCount := satAdd t.pwr.warmCount 1 0xFFFF, cause := cause } }
/-- A warm reset request: ignored and counted before hart release and during a warm reset. -/
def State.warmRequest (s : State) (cause : Nat) : State :=
  if !s.pwr.pwrgd ∨ (s.pwr.mainOff ∧ !s.pwr.mainUp) then s
  else if s.pwr.warm ∨ !s.pwr.released then { s with pwr := { s.pwr with ignored := satAdd s.pwr.ignored 1 0xFF } }
  else s.warmReset cause
/-- WARM_RST_N (R442). -/
def execWarmRstN (lowCycles : Nat) (s : State) : Res :=
  if s.pwr.standby ∧ 320 ≤ lowCycles then .next (s.warmRequest 2) else .next s
/-- A write of the power block: harts and the debug module may write it; others see it read-only. -/
def State.pwrWrite (s : State) (a : Agent) (f : State → State) : Res :=
  if a.val < 256 ∨ a.val = 275 then .next (f s) else .next s
/-- WARM_REQ. -/
def execWarmReq (agent : Agent) (s : State) : Res := s.pwrWrite agent fun s => s.warmRequest 3
/-- WARM_RESET_EXIT: boot goes on from the DRAM step without training. -/
def execWarmResetExit (s : State) : Res :=
  if s.pwr.warm then
    .next { s with pwr := { s.pwr with warm := false, mainUp := true, boot := 3, dramReady := true, dramClk := s.laneClk } }
  else .next s

/-! ### Boot (Table KU-56) -/

/-- Activation of the staged bundle (R350): current partitions that it replaces become the previous ones. -/
def Cel.activate (c : Cel) (b : Bytes) : Cel :=
  ((List.range (Bytes.le b 6 2)).map (fwComp b)).foldl (fun c (x : Nat × Nat × Nat × Nat × Bytes) =>
    let part := (x.2.2.2.1, b.slice x.2.1 x.2.2.1)
    if x.1 = 1 then { c with fwPrev := c.fwCur, fwCur := part }
    else { c with platPrev := c.platCur, platCur := part }) { c with stage := none }
/-- The bundle to activate at this start: any at a cold reset, one with ACTIVATE at a firmware request's restart. -/
def Cel.toActivate (c : Cel) : Option Bytes :=
  match c.stage with
  | some (b, act) => if c.st = 1 ∨ (act ∧ c.cause = 3) then some b else none
  | none => none
/-- FIRMWARE_VERIFY_COMPLETE (R350, R427): what the mask ROM found of the current, the previous and the staged image. -/
def execFirmwareVerifyComplete (current previous staged : Bool) (s : State) : Res :=
  if s.cel.st ≠ 1 ∧ s.cel.st ≠ 4 then .next s
  else
    let cold := s.cel.st = 1
    let fall := fun (s : State) (v : Nat) => s.policyRec 0x50 0 0 0 [] (Bytes.ofNatLE 4 v)
    let (s, fresh) := match s.cel.toActivate with
      | some b =>
        if staged then (({ s with cel := s.cel.activate b } : State), (bundleFw b).isSome)
        else (fall s ((bundleFw b).getD 0), false)
      | none => (s, false)
    let run := fun (s : State) (v : Nat) =>
      let s : State := { s with cel := { s.cel with fw := v, st := if cold then 2 else s.cel.st }.coreStart,
                                pwr := { s.pwr with fwOk := true } }
      if cold ∧ s.pwr.pwrgd ∧ !s.pwr.mainOff then s.trainStart else s
    if fresh ∨ current then .next (run s s.cel.fwCur.1)
    else if previous then .next (fall (run s s.cel.fwPrev.1) s.cel.fwCur.1)
    else .next { s with cel := { s.cel with st := 1 }, pwr := { s.pwr with boot := 7, fwOk := false } }
/-- CELLARER_READY: the Description Table is built and mailboxes take messages (R336, R386). -/
def execCellarerReady (s : State) : Res :=
  if s.cel.st = 2 ∨ s.cel.st = 4 then
    let again := s.cel.st = 4
    let s : State := { s with cel := { s.cel with st := 3, descBuilt := true } }
    let s := if s.pwr.mainUp ∧ s.cardMode then s.msix 0 0 else s
    .next (if again then s.rePrepare else s)
  else .next s
/-- Capacity in GiB of a channel (Table DMC-2). -/
def dimmGib (d : DimmInfo) : Nat := d.dimms * d.ranks * (if d.density = 1 then 32 else if d.density = 2 then 48 else 64)
/-- The rates named for a channel: the record's, or those training used where no record stands. -/
def State.ratesOf (s : State) (c : Nat) (d : DimmInfo) : List Nat :=
  match SMap.find c s.cel.memRates with
  | some rs => (rs.filter (· ≠ 0)).map (fun r => [4800, 5200, 5600, 6000, 6400].getD (r - 1) 4800)
  | none => d.trained.take 4
/-- The combinations of the trained channels with how many share them; the most shared and earliest found wins (R277). -/
def bestCfg (xs : List (Nat × Nat × Nat)) : Option (Nat × Nat × Nat) :=
  xs.foldl (fun (b : Option (Nat × Nat × Nat)) x => match b with
    | none => some x
    | some y => if xs.count x > xs.count y then some x else b) none
/-- After training, the remap table is rebuilt for logged lines whose row could not be repaired; which rows have a repair
resource left is a free value (R310, R312). -/
def State.ppr (s : State) : State :=
  (s.mem.rowLog.eraseDups).foldl (fun s r =>
    let w := s.freeWord.toNat
    let s := s.drew
    if w % 2 = 0 then s
    else s.modDmc r.1 (fun d => match (List.range 16).find? (fun i => (SMap.get none i d.remap).isNone) with
      | some i => { d with remap := SMap.put i (some { src := r.2, spare := i, poisoned := false }) d.remap }
      | none => d)) s
/-- DRAM_TRAINING_COMPLETE (R276 to R279, R312). -/
def execDramTrainingComplete (found : List DimmInfo) (s : State) : Res :=
  if s.pwr.boot ≠ 2 ∨ s.pwr.dramReady then .next s
  else
    let chans : List (Nat × DimmInfo) := (List.range 16).map (fun c => (c, found.getD c { dimms := 0, ranks := 0, density := 0, supported := false, trained := [] }))
    let good := fun (x : Nat × DimmInfo) => decide (x.2.dimms ≠ 0) && x.2.supported &&
      (match s.ratesOf x.1 x.2 with
        | r :: _ => x.2.trained.contains r && ratePermitted x.2.dimms x.2.rateMax r
        | [] => false)
    let cfg := fun (d : DimmInfo) => (d.dimms, d.density, d.ranks)
    match bestCfg ((chans.filter good).map (fun x => cfg x.2)) with
    | none =>
      .next { s with pwr := { s.pwr with boot := 6 }, mem := { s.mem with dmc := [] } }
    | some best =>
      let member := fun (x : Nat × DimmInfo) => good x && decide (cfg x.2 = best)
      let set := (chans.filter member).map (·.1)
      let gib := (((chans.filter member).map (fun x => (dimmGib x.2))).headD 0)
      let dmc := (chans.filter (fun x => x.2.dimms ≠ 0)).map (fun (x : Nat × DimmInfo) =>
        let rs := s.ratesOf x.1 x.2
        (x.1, ({ st := if member x then 2 else 0, dimms := x.2.dimms, ranks := x.2.ranks, density := x.2.density, rateMax := x.2.rateMax,
                 cap := (dimmGib x.2), passAt := s.laneClk, lapClk := s.laneClk,
                 member := member x, slot := if member x then set.idxOf x.1 else 0,
                 tsets := rs.map (fun r => (r, x.2.trained.contains r && ratePermitted x.2.dimms x.2.rateMax r, true)) } : Dmc)))
      let s : State := { s with
        mem := { s.mem with dmc := dmc, set := set, gran := s.cel.memGran, cap := gib * 2 ^ 30 },
        dramTop := dramBase + set.length * (gib * 2 ^ 30 - 2 ^ 20),
        pwr := { s.pwr with dramReady := true, boot := 3, dramClk := s.laneClk } }
      let out := chans.filter (fun x => decide (x.2.dimms ≠ 0) && !member x)
      .next (out.foldl (fun s (x : Nat × DimmInfo) =>
        (s.drew).ras { code := s.freeFail 0x40, inst := x.1 }) s.ppr)
/-- A hart at the reset vector, in M-mode, with a0 and a1 (R429). -/
def bootHart (h : Nat) : Hart :=
  { x := SMap.set 0 10 (BitVec.ofNat 64 h) [(11, 0x400000#64)], run := true }
/-- The harts are released with the platform image `img` in DRAM, and NET may accept. -/
def State.releaseHarts (s : State) (img : Bytes) : State :=
  let s := s.dramWriteBy 272 dramBase img false
  let s := s.setField netBase 0 0 1
  { s with harts := (List.range 256).map (fun h => (h, bootHart h)), pwr := { s.pwr with released := true, boot := 5 } }
/-- Which image boots: the current, the previous with a POLICY record, or none (IMAGE_FAIL). -/
def State.bootImage (s : State) (current previous : Bool) : State :=
  let s := s.rePrepare
  if current then s.releaseHarts s.cel.platCur.2
  else if previous then
    (s.policyRec 0x50 0 0 0 [] (Bytes.ofNatLE 4 s.cel.platCur.1)).releaseHarts s.cel.platPrev.2
  else { s with pwr := { s.pwr with boot := 8 } }
/-- HART_RELEASE (R428, R429): once pairing has ended. -/
def execHartRelease (current previous : Bool) (s : State) : Res :=
  if s.pwr.dramReady ∧ s.pwr.boot = 4 ∧ (!pairEn s ∨ s.twin.pair ≥ 3 ∨ s.twin.noRetry) then .next (s.bootImage current previous)
  else .next s
/-- PAIRING_TIMEOUT: 30 s after DRAM was ready pairing has not ended; the images' checks as at HART_RELEASE. -/
def execPairingTimeout (current previous : Bool) (s : State) : Res :=
  if s.pwr.dramReady ∧ (s.pwr.boot = 3 ∨ s.pwr.boot = 4) ∧ s.pwr.dramClk + 48000000000 ≤ s.laneClk then
    .next (s.bootImage current previous)
  else .next s
/-- One hart is reset (R232, R335, R411, R426): it restarts at the reset vector; its caches stay coherent. -/
def State.hartReset (s : State) (h : Nat) : State :=
  let s := (List.range 17).foldl (fun s k => s.modRing k (·.loseHart h)) (s.agentReset h)
  let s : State := { s with
    msis := s.msis.filter (fun m => m.1 / 2 ≠ h ∧ ¬(512 ≤ m.1 ∧ (m.1 - 512) / 16 = h)),
    mem := { s.mem with fills := s.mem.fills.map (fun f => if f.hart = h then { f with acc := none } else f) } }
  s.setHart h (bootHart h)
/-- HART_RST. -/
def execHartRst (agent : Agent) (hart : HartId) (s : State) : Res :=
  s.pwrWrite agent fun s => if s.pwr.released then s.hartReset hart else s

/-! ### Power limit (R430, R431) -/

/-- The configured TDP in W. -/
def State.tdp (s : State) : Nat := bits (s.reg 0x02000208) 9 0
/-- All-core base frequency in MHz at a configured TDP (Table KU-57). -/
def baseMhz (w : Nat) : Nat :=
  (if w ≤ 600 then 1900 + 300 * (w - 520) / 80 else if w ≤ 700 then 2200 + 400 * (w - 600) / 100
   else 2600 + 200 * (w - 700) / 60) / 50 * 50
def Pwr.ceilOf (p : Pwr) (b : Nat) : Nat := SMap.get 3600 b p.ceil
def Pwr.setCeil (p : Pwr) (f : Nat → Nat → Nat) : Pwr :=
  { p with ceil := (List.range 128).foldl (fun m b => SMap.set 3600 b (f b (p.ceilOf b)) m) [] }
/-- The compute die of a bay. -/
def bayDie (b : Nat) : Nat := b % 16 / 4
/-- A ceiling that another limit holds: a hot die, a failed regulator, or the board's PROCHOT_N. -/
def Pwr.held (p : Pwr) (b : Nat) : Bool :=
  p.prochotIn || p.avsDies.contains (bayDie b) || p.hotBays.any (fun h => bayDie h = bayDie b)
/-- An event of the standby domain in Garret. -/
def State.pwrEvent (s : State) (e : Nat) : State := s.gRec { src := 1, event := e }
/-- One step of the power manager over the ceilings. -/
def Pwr.powerStep (p : Pwr) (core budget base : Nat) : Pwr :=
  let all := List.range 128
  if core > budget then
    if all.any (fun b => decide (p.ceilOf b > base)) then
      { p.setCeil (fun _ c => if c > base then max base (c - 50) else c) with psteps := p.psteps + 1, throttles := (p.throttles + 1) % 2 ^ 32 }
    else if all.any (fun b => decide (p.ceilOf b > 1200)) then
      { p.setCeil (fun _ c => max 1200 (c - 50)) with
        psteps := p.psteps + 1, throttles := (p.throttles + 1) % 2 ^ 32, belowBase := true }
    else { p with belowBase := true }
  else if core * 100 < budget * 97 then
    let low := all.any (fun b => decide (p.ceilOf b < base) && !p.held b)
    let top := if low then base else 3600
    if all.any (fun b => decide (p.ceilOf b < top) && !p.held b) then
      let q := { p.setCeil (fun b c => if c < top ∧ !p.held b then c + 50 else c) with
        psteps := p.psteps - 1, throttles := (p.throttles + 1) % 2 ^ 32 }
      { q with belowBase := q.belowBase && all.any (fun b => decide (q.ceilOf b < base) && !q.held b) }
    else { p with psteps := 0, belowBase := false }
  else p
/-- POWER_MANAGER_INTERVAL: each transition of BELOW_BASE is recorded, at most one of each per epoch. -/
def execPowerManagerInterval (corePower pkgPower : Nat) (s : State) : Res :=
  if !s.pwr.mainUp then .next s
  else
    let was := s.pwr.belowBase
    let w := s.tdp
    let p := ({ s.pwr with corePower := corePower, pkgPower := pkgPower }).powerStep corePower (w - 290) (baseMhz w)
    let s : State := { s with pwr := p }
    let e := s.epoch
    if !was ∧ p.belowBase ∧ p.belowRec.1 ≠ some e then
      .next (({ s with pwr := { p with belowRec := (some e, p.belowRec.2) } } : State).pwrEvent 0x110)
    else if was ∧ !p.belowBase ∧ p.belowRec.2 ≠ some e then
      .next (({ s with pwr := { p with belowRec := (p.belowRec.1, some e) } } : State).pwrEvent 0x111)
    else .next s
/-- A write of PWR_TDP: a value outside 520 to 760 W is ignored. -/
def State.setTdp (s : State) (v : Nat) : State :=
  let w := v % 1024
  if 520 ≤ w ∧ w ≤ 760 then s.setReg 0x02000208 w else s
/-- PWR_TDP. -/
def execPwrTdp (agent : Agent) (val : W32) (s : State) : Res := s.pwrWrite agent fun s => s.setTdp val.toNat

/-! ### Thermal limits and the core rails (R432, R433, R439, R443) -/

/-- BAY_THERMAL_LIMIT: each 100 µs while the sensor has not fallen below 88 °C, its die's ceilings fall by 100 MHz. -/
def execBayThermalLimit (bay : SliceId) (temp : Nat) (s : State) : Res :=
  let p := { s.pwr with bayTemps := SMap.set 0 bay.val temp s.pwr.bayTemps }
  if temp ≥ 90 ∨ (temp ≥ 88 ∧ p.hotBays.contains bay.val) then
    let mine := fun (b : Nat) => bayDie b = bayDie bay
    let q := p.setCeil (fun b c => if mine b then max 1200 (c - 100) else c)
    let moved := (List.range 128).any (fun b => decide (mine b) && decide (1200 < p.ceilOf b))
    .next { s with pwr := { q with
      hotBays := if q.hotBays.contains bay.val then q.hotBays else q.hotBays ++ [bay.val],
      throttles := (q.throttles + b2n moved) % 2 ^ 32 } }
  else .next { s with pwr := { p with hotBays := p.hotBays.filter (· ≠ bay.val) } }
/-- PROCHOT_SENSOR: the hottest sensor's reading; the pin is sampled again 1 µs after its release. -/
def execProchotSensor (temp : Nat) (s : State) : Res :=
  if temp ≥ 95 then
    if s.pwr.prochotOut then .next s
    else .next (({ s with pwr := { s.pwr with prochotOut := true } } : State).pwrEvent 0x112)
  else if s.pwr.prochotOut then
    .next { s with pwr := { s.pwr with prochotOut := false, prochotRel := s.laneClk + 1600 } }
  else .next s
/-- PROCHOT_N_INPUT: ignored while the device drives the pin and until 1 µs after its release. -/
def execProchotNInput (low : Bool) (s : State) : Res :=
  if s.pwr.prochotOut ∨ s.laneClk < s.pwr.prochotRel then .next s
  else if low then .next { s with pwr := ({ s.pwr with prochotIn := true }).setCeil (fun _ _ => 1200) }
  else .next { s with pwr := { s.pwr with prochotIn := false } }
/-- The main domain is held in reset and MAIN_OFF_N is asserted; the next cold start shows `cause`. -/
def State.holdMain (s : State) (event cause : Nat) (trip : Bool) : State :=
  let s := (s.pwrEvent event)
  let s : State := { s with pwr := { s.pwr with mainOff := true, thermTrip := s.pwr.thermTrip || trip, nextCause := cause } }
  s.mainReset
/-- THERMAL_TRIP. -/
def execThermalTrip (temp : Nat) (iod : Bool) (heldMs : Nat) (s : State) : Res :=
  let s : State := { s with pwr := { s.pwr with tempIod := if iod then temp else s.pwr.tempIod } }
  if s.pwr.standby ∧ (temp ≥ 105 ∨ (iod ∧ temp ≥ 95 ∧ heldMs ≥ 10)) then .next (s.holdMain 0x113 4 true) else .next s
/-- REFERENCE_CLOCK_LOSS: for more than 1 µs while PWRGD is high. -/
def execReferenceClockLoss (lostNs : Nat) (s : State) : Res :=
  if s.pwr.pwrgd ∧ lostNs > 1000 then .next (s.holdMain 0x114 5 false) else .next s
/-- AVSBUS_FAILURE: the retries of a die's regulator have failed. -/
def execAvsbusFailure (die : Fin 4) (s : State) : Res :=
  let p := if s.pwr.avsDies.contains die.val then s.pwr else { s.pwr with avsDies := s.pwr.avsDies ++ [die.val] }
  .next (({ s with pwr := p.setCeil (fun b c => if bayDie b = die.val then 1200 else c) } : State).pwrEvent 0x115)
/-- AVSBUS_RETRY. -/
def execAvsbusRetry (die : Fin 4) (ok : Bool) (s : State) : Res :=
  if ok then .next { s with pwr := { s.pwr with avsDies := s.pwr.avsDies.filter (· ≠ die.val) } } else .next s

/-! ### Orderly shutdown (R435) -/

/-- The shutdown stage: DRAINING becomes DRAINED when every ring has sealed and journal SRAM is empty. -/
def State.sdStage (s : State) : Nat :=
  if s.pwr.sd = 1 ∧ (List.range 17).all (fun k =>
      let r := s.ring k
      !r.closing || (r.recs.isEmpty && r.waiting.isEmpty && r.closedOk)) then 2
  else s.pwr.sd
/-- SD_REQ. -/
def execSdReq (agent : Agent) (s : State) : Res :=
  s.pwrWrite agent fun s =>
    let bad := (List.range 16).foldl (fun a n =>
      let st := (s.lane n).st
      if st = 0 ∨ st = 5 ∨ st = 6 then a else a + 2 ^ n) 0
    if s.pwr.sd = 1 ∨ s.pwr.sd = 3 then s
    else if bad ≠ 0 then { s with pwr := { s.pwr with sd := 4, sdCode := 0x1501, sdLanes := bad } }
    else
      let s : State := { s with pwr := { s.pwr with sd := 1, sdCode := 0, sdLanes := 0 } }
      (List.range 17).foldl (fun s k =>
        if (s.ring k).online then s.holdRing k (fun r => { r with closing := true, closedOk := false }) else s) s
/-- POWER_OFF: only in stage DRAINED. -/
def execPowerOff (agent : Agent) (s : State) : Res :=
  s.pwrWrite agent fun s =>
    if s.sdStage = 2 then
      let s := s.sealStore
      let s := s.mem.wq.foldl (fun s w => s.issueWrite w) s
      { s with str := { s.str with orderly := true }, pwr := { s.pwr with sd := 3, mainOff := true } }
    else s

/-! ### Register views and the standby port (Table KU-58, R434) -/

/-- STATUS.STRAP_ERR: a reserved bifurcation strap; port 4's is ignored in card mode. -/
def State.strapErr (s : State) : Bool :=
  (List.range (if s.cardMode then 4 else 5)).any (fun p => decide (bits s.pwr.straps (3 * p + 3) (3 * p + 1) ≥ 5))
/-- The register view of the power block. -/
def State.pwrView (s : State) (o : Nat) : Option Nat :=
  let p := s.pwr
  match o with
  | 0x200 => some 0
  | 0x204 => some (p.boot * 2 ^ 28 + s.sdStage * 2 ^ 24 + b2n s.strapErr * 32 + b2n p.mainOff * 16
      + b2n (p.prochotOut || p.prochotIn) * 8 + b2n (!p.hotBays.isEmpty) * 4 + b2n p.belowBase * 2
      + b2n (decide (p.psteps ≠ 0) || !p.avsDies.isEmpty))
  | 0x208 => some (baseMhz s.tdp * 2 ^ 16 + s.tdp)
  | 0x20C => some (if p.mainUp then p.corePower % 2 ^ 16 * 2 ^ 16 + p.pkgPower % 2 ^ 16 else 0)
  | 0x210 =>
    let dimm := s.mem.dmc.foldl (fun a (d : Nat × Dmc) => d.2.temps.foldl max a) 0
    some (min dimm 255 * 2 ^ 16 + min p.tempIod 255 * 256
      + (if p.mainUp then min (p.bayTemps.foldl (fun a (b : Nat × Nat) => max a b.2) 0) 255 else 0))
  | 0x214 => some p.throttles
  | 0x218 => some (p.warmCount * 2 ^ 16 + p.ignored * 256 + p.cause)
  | 0x21C => some p.straps
  | 0x220 => some 0
  | 0x224 => some (p.sdCode * 2 ^ 16 + p.sdLanes)
  | _ => none
/-- I3C_ACCESS: `reg` is an offset in the Cellarer status block; the port reaches six registers only. -/
def execI3cAccess (reg : Nat) (w : Option W32) (s : State) : Res :=
  if !s.pwr.standby then .next s
  else match w with
  | some v => if reg = 0x208 then .next (s.setTdp v.toNat) else .next { s with readErr := SMap.set 0 0x201 1 s.readErr }
  | none =>
    if reg = 0 then .next (s.answer 0x201 s.celStatus)
    else if reg = 0x204 ∨ reg = 0x20C ∨ reg = 0x210 ∨ reg = 0x218 then .next (s.answer 0x201 ((s.pwrView reg).getD 0))
    else .next { s with readErr := SMap.set 0 0x201 1 s.readErr }

end Sys2Proof.Machine
end

