-- ==== Sys2Proof/Machine/Iommu.lean ====
section
/-!
DEFINITION. The IOMMU (R380): its registers, the device directory, both stages of translation, MSI translation in flat mode, the
command queue and the fault queue, as the RISC-V IOMMU specification, version 1.0, lays them out (log 181). It holds no cached
translation: every request walks the tables.
-/

namespace Sys2Proof.Machine
open Sys2Proof

/-- The write of a register without effects of its own: each bit by its access type (Table KU-3). -/
def State.plainWrite (s : State) (a v : Nat) : State :=
  match regRow a with
  | some r => s.setReg a (r.write (BitVec.ofNat 32 (s.reg a)) (BitVec.ofNat 32 v)).toNat
  | none => s
/-- A write of an IMSIC page: an identity to the file's seteipnum register (R249, R250). Guest file `g` of a hart is named by
512 + 16 × hart + g. -/
def State.imsicWrite (s : State) (a v : Nat) : State :=
  if a < 0x09000000 then (if a % 0x1000 = 0 then s.sendMsi ((a - 0x08000000) / 0x1000) 1 (v % 2048) else s)
  else
    let h := (a - 0x09000000) / 0x10000
    let g := a / 0x1000 % 16
    if a % 0x1000 ≠ 0 ∨ v % 2048 = 0 then s
    else if g = 0 then s.sendMsi h 0 (v % 2048)
    else
      let k := (512 + 16 * h + g, v % 2048)
      if s.msis.contains k then s else { s with msis := s.msis ++ [k] }

/-! ### Registers and interrupts -/

def iommuBase : Nat := 0x34800000
def State.iom (s : State) (o : Nat) : Nat := s.reg (iommuBase + o)
def State.setIom (s : State) (o v : Nat) : State := s.setReg (iommuBase + o) v
/-- The address in a register pair that holds a page number in bits 53:10. -/
def State.iomPage (s : State) (o : Nat) : Nat := bits (s.iom o + s.iom (o + 4) * 2 ^ 32) 53 10 * 4096
/-- Entries of a queue whose base register is `o`. -/
def State.iomLen (s : State) (o : Nat) : Nat := 2 ^ (bits (s.iom o) 4 0 + 1)
/-- The message of vector `v`: a write to an interrupt file or to DRAM; a masked vector holds it. -/
def State.iomMsi (s : State) (v : Nat) : State :=
  let o := 0x300 + 16 * v
  let a := s.iom o + s.iom (o + 4) * 2 ^ 32
  if bit (s.iom (o + 12)) 0 then
    { s with pcie := { s.pcie with iommuPend := if s.pcie.iommuPend.contains v then s.pcie.iommuPend else s.pcie.iommuPend ++ [v] } }
  else if 0x08000000 ≤ a ∧ a < 0x0A000000 then s.imsicWrite a (s.iom (o + 8))
  else if s.inDram a 4 then s.dramWrite a (Bytes.ofNatLE 4 (s.iom (o + 8))) else s
/-- Bit `b` of ipsr becomes 1: 0 the command queue's, 1 the fault queue's. -/
def State.iomIrq (s : State) (b : Nat) : State :=
  if bit (s.iom 0x54) b then s
  else (s.setIom 0x54 (setBits (s.iom 0x54) b b 1)).iomMsi (bits (s.iom 0x2F8) (4 * b + 3) (4 * b))

/-! ### The fault queue -/

/-- A fault record: cause, transaction type, device, and the two address words. -/
def State.iomFault (s : State) (cause ttyp did iotval iotval2 : Nat) : State :=
  let csr := s.iom 0x4C
  let n := s.iomLen 0x28
  let t := s.iom 0x34
  let irq := fun (s : State) => if bit csr 1 then s.iomIrq 1 else s
  if !bit csr 16 ∨ bits csr 9 8 ≠ 0 then s
  else if (t + 1) % n = s.iom 0x30 % n then irq (s.setIom 0x4C (setBits csr 9 9 1))
  else
    let a := s.iomPage 0x28 + 32 * (t % n)
    if !s.inDram a 32 then irq (s.setIom 0x4C (setBits csr 8 8 1))
    else irq ((s.dramWrite a (Bytes.ofNatLE 8 (cause + ttyp * 2 ^ 34 + did * 2 ^ 40) ++ Bytes.zeros 8 ++ Bytes.ofNatLE 8 iotval
      ++ Bytes.ofNatLE 8 iotval2)).setIom 0x34 ((t + 1) % n))

/-! ### The device directory -/

/-- A device context in the extended format. -/
structure DevCtx where
  tc : Nat
  gatp : Nat
  fsc : Nat
  msiptp : Nat
  mask : Nat
  pattern : Nat
/-- The outcome of a walk step: a value, or a fault cause with the guest physical address it concerns. -/
inductive Iom (α : Type) where
  | ok (v : α)
  | bad (cause gpa : Nat)
/-- A doubleword of a table: `access` where it cannot be read, `corrupt` where it meets a data error. -/
def State.iomRead (s : State) (a access corrupt : Nat) : Iom Nat :=
  match s.pte a with
  | some v => .ok v
  | none => if s.inDram a 8 then .bad corrupt 0 else .bad access 0
/-- The part of a device ID that indexes level `l` of the directory. -/
def devIndex (did l : Nat) : Nat := if l = 0 then did % 64 else bits did (9 * l + 5) (9 * l - 3)
/-- The address of a device's context: `l` levels of the directory above the context tables. -/
def State.ddtWalk (s : State) (did : Nat) : Nat → Nat → Iom Nat
  | 0, base => .ok (base + 64 * devIndex did 0)
  | l + 1, base => match s.iomRead (base + 8 * devIndex did (l + 1)) 257 268 with
    | .bad c g => .bad c g
    | .ok e =>
      if !bit e 0 then .bad 258 0
      else if bits e 9 1 ≠ 0 ∨ bits e 63 54 ≠ 0 then .bad 259 0
      else s.ddtWalk did l (bits e 53 10 * 4096)
def atpMode (v : Nat) : Bool := decide (bits v 63 60 ∈ [0, 8, 9, 10]) && decide (bits v 59 44 = 0)
/-- The checks of a device context: no process contexts, no hardware update of A and D, little-endian tables. -/
def DevCtx.good (d : DevCtx) (ta last : Nat) : Bool :=
  let ats := bit d.tc 1
  let pdtv := bit d.tc 5
  decide (d.tc < 2 ^ 12) && (ats || !bit d.tc 2) && !bit d.tc 3 && (bit d.tc 2 || !bit d.tc 6) && !bit d.tc 7 && !bit d.tc 8
    && (pdtv || !bit d.tc 9) && !bit d.tc 10 && !bit d.tc 11
    && (if pdtv then decide (bits d.fsc 63 60 = 0) else atpMode d.fsc)
    && decide (bits d.gatp 63 60 ∈ [0, 8, 9, 10]) && (decide (bits d.gatp 63 60 = 0) || decide (d.gatp % 4 = 0))
    && decide (bits ta 11 0 = 0) && decide (bits ta 63 32 = 0) && decide (bits d.msiptp 63 60 ≤ 1) && decide (bits d.msiptp 59 44 = 0)
    && decide (d.mask < 2 ^ 52) && decide (d.pattern < 2 ^ 52) && decide (last = 0)
/-- The context of a device. -/
def State.devCtx (s : State) (did : Nat) : Iom DevCtx :=
  let l := s.iom 0x10 % 16 - 2
  if did ≥ 2 ^ (9 * l + 6) then .bad 260 0
  else match s.ddtWalk did l (s.iomPage 0x10) with
    | .bad c g => .bad c g
    | .ok a =>
      let rd := fun (i : Nat) => s.iomRead (a + 8 * i) 257 268
      match rd 0, rd 1, rd 2, rd 3, rd 4, rd 5, rd 6, rd 7 with
      | .ok tc, .ok g, .ok ta, .ok f, .ok m, .ok k, .ok p, .ok z =>
        let d : DevCtx := { tc := tc, gatp := g, fsc := f, msiptp := m, mask := k, pattern := p }
        if !bit tc 0 then .bad 258 0 else if d.good ta z then .ok d else .bad 259 0
      | .bad c g, _, _, _, _, _, _, _ => .bad c g
      | _, _, _, _, _, _, _, _ => .bad 257 0

/-! ### Translation -/

/-- The bits of `v` that `m` selects, closed up. -/
def extractBits (v m : Nat) : Nat :=
  ((List.range 52).foldl (fun (a : Nat × Nat) i => if bit m i then (a.1 + b2n (bit v i) * 2 ^ a.2, a.2 + 1) else a) (0, 0)).1
/-- MSI translation in flat mode (R249, R250): none where the address is no virtual interrupt file of the device. -/
def State.iomMsiPte (s : State) (d : DevCtx) (gpa : Nat) : Option (Iom Nat) :=
  let keep := fun (x : Nat) => x - (x &&& d.mask)
  if bits d.msiptp 63 60 ≠ 1 ∨ keep (gpa / 4096 % 2 ^ 52) ≠ keep d.pattern then none
  else
    let a := bits d.msiptp 43 0 * 4096 + 16 * extractBits (gpa / 4096) d.mask
    some (match s.iomRead a 261 270, s.iomRead (a + 8) 261 270 with
      | .ok e, .ok z =>
        if !bit e 0 then .bad 262 0
        else if bits e 2 1 ≠ 3 ∨ bits e 9 3 ≠ 0 ∨ bits e 63 54 ≠ 0 ∨ z ≠ 0 then .bad 263 0
        else .ok (bits e 53 10 * 4096 + gpa % 4096)
      | .bad c g, _ => .bad c g
      | _, .bad c g => .bad c g)
def Xlat.iom : Xlat → Iom Nat
  | .ok a => .ok a
  | .bad c g => .bad c g
/-- Second stage, after MSI translation; `kind` 1 read, 2 write. -/
def State.iomSecond (s : State) (d : DevCtx) (kind gpa : Nat) : Iom Nat :=
  match s.iomMsiPte d gpa with
  | some r => r
  | none => (s.gWalk d.gatp false kind gpa).iom
/-- Both stages of a device's address: a request without a process ID has user rights. -/
def State.iomStages (s : State) (d : DevCtx) (kind va : Nat) : Iom Nat :=
  let lv := xlLevels (bits d.fsc 63 60)
  if lv = 0 then s.iomSecond d kind va
  else
    let n := 12 + 9 * lv
    let top := va / 2 ^ (n - 1)
    if top ≠ 0 ∧ top ≠ 2 ^ (65 - n) - 1 then .bad (pfCause kind) 0
    else match walkFrom s.pte (s.gWalk d.gatp false 1) 0 va lv (bits d.fsc 43 0 * 4096) with
      | .leaf pt i =>
        if (if kind = 1 then bit pt 1 else bit pt 2) && bit pt 4 && bit pt 6 && (kind ≠ 2 || bit pt 7) then
          s.iomSecond d kind (leafAddr pt i va)
        else .bad (pfCause kind) 0
      | .access => .bad (afCause kind) 0
      | .guest c a => if c ≥ 20 then .bad (gfCause kind) (a + 1) else .bad (afCause kind) 0
      | .page => .bad (pfCause kind) 0

/-- What the IOMMU answers a request. -/
inductive IomAns where
  /-- a request may go to this physical address -/
  | go (pa : Nat)
  /-- Unsupported Request, or Completer Abort for a Translation Request that the tables stop -/
  | ur
  | ca
  /-- a Translation Completion's doubleword -/
  | xlat (v : Nat)
  deriving DecidableEq, Repr
/-- A Translation Request's page: the address with what the device may do there (PCIe: R bit 0, W bit 1). -/
def State.iomAts (s : State) (d : DevCtx) (va : Nat) : Iom Nat :=
  match s.iomStages d 1 va with
  | .bad c g => .bad c g
  | .ok pa => .ok (pa / 4096 * 4096 + 1 + (match s.iomStages d 2 va with
    | .ok _ => 2
    | .bad _ _ => 0))
/-- One inbound request: address type 0 untranslated, 1 Translation Request, 2 translated (R379, R380). -/
def State.iommu (s : State) (did aty va : Nat) (write : Bool) : State × IomAns :=
  let ttyp := if aty = 1 then 8 else (if aty = 2 then 6 else 2) + b2n write
  let mode := s.iom 0x10 % 16
  let stop := fun (c : Nat) => (s.iomFault c ttyp did va 0, IomAns.ur)
  if mode = 0 then stop 256
  else if mode = 1 then (if aty = 0 then (s, .go va) else stop 260)
  else match s.devCtx did with
    | .bad c _ => stop c
    | .ok d =>
      let fault := fun (c g : Nat) => if bit d.tc 4 then s else s.iomFault c ttyp did va g
      if aty ≠ 0 ∧ !bit d.tc 1 then (fault 260 0, .ur)
      else if aty = 2 then (s, .go va)
      else if aty = 1 then match s.iomAts d va with
        | .ok v => (s, .xlat v)
        | .bad c g => if c ∈ [12, 13, 15, 20, 21, 23, 262] then (s, .xlat 0) else (fault c g, .ca)
      else match s.iomStages d (if write then 2 else 1) va with
        | .ok pa => (s, .go pa)
        | .bad c g => (fault c g, .ur)

/-! ### The command queue -/

/-- One command; none where it is illegal. IOTINVAL and IODIR commands find nothing cached; what IOFENCE waits for has happened. -/
def State.iomCmd (s : State) (d0 d1 : Nat) : Option State :=
  let f := bits d0 9 7
  match bits d0 6 0 with
  | 1 => if f ≤ 1 then some s else none
  | 2 =>
    if f ≠ 0 ∨ bit d0 11 then none
    else if bit d0 10 then
      (let a := bits d1 61 0 * 4
       some (if s.inDram a 4 then s.dramWrite a (Bytes.ofNatLE 4 (d0 / 2 ^ 32)) else s.setIom 0x48 (setBits (s.iom 0x48) 8 8 1)))
    else some s
  | 3 => if f ≤ 1 then some s else none
  | 4 => if f = 0 then some (s.pcieSend (.atsInval (bits d0 55 40) d1)) else none
  | _ => none
/-- The queue runs from cqh towards cqt until an error bit is set. -/
def State.iomRun : Nat → State → State
  | 0, s => s
  | k + 1, s =>
    let csr := s.iom 0x48
    let n := s.iomLen 0x18
    let h := s.iom 0x20 % n
    let stop := fun (s : State) (b : Nat) =>
      let s := s.setIom 0x48 (setBits (s.iom 0x48) b b 1)
      if bit csr 1 then s.iomIrq 0 else s
    if !bit csr 16 ∨ bits csr 10 8 ≠ 0 ∨ h = s.iom 0x24 % n then s
    else
      let a := s.iomPage 0x18 + 16 * h
      if !s.inDram a 16 ∨ s.poisoned a 16 then stop s 8
      else match s.iomCmd (s.dramLE a 8) (s.dramLE (a + 8) 8) with
        | none => stop s 10
        | some t => if bit (t.iom 0x48) 8 then stop t 8 else State.iomRun k (t.setIom 0x20 ((h + 1) % n))
def State.iomGo (s : State) : State :=
  let n := s.iomLen 0x18
  State.iomRun ((s.iom 0x24 + n - s.iom 0x20 % n) % n) s
/-- A write of an IOMMU register. -/
def State.iommuWrite (s : State) (o v : Nat) : State :=
  let a := iommuBase + o
  let t := s.plainWrite a v
  if o = 0x10 then (if v % 16 ≤ 4 then t else t.setIom 0x10 (setBits (t.iom 0x10) 3 0 (s.iom 0x10)))
  else if o = 0x24 then (s.setIom o (v % s.iomLen 0x18)).iomGo
  else if o = 0x30 then s.setIom o (v % s.iomLen 0x28)
  else if o = 0x48 then
    let on := bit v 0
    let t := t.setIom o (setBits (t.iom o) 16 16 (b2n on))
    (if on ∧ !bit (s.iom o) 16 then (t.setIom 0x20 0).setIom o (setBits (t.iom o) 11 8 0) else t).iomGo
  else if o = 0x4C then
    let on := bit v 0
    let t := t.setIom o (setBits (t.iom o) 16 16 (b2n on))
    if on ∧ !bit (s.iom o) 16 then (t.setIom 0x34 0).setIom o (setBits (t.iom o) 9 8 0) else t
  else if o = 0x54 then
    let t := if bit (t.iom 0x48) 1 ∧ bits (t.iom 0x48) 11 8 ≠ 0 then t.iomIrq 0 else t
    if bit (t.iom 0x4C) 1 ∧ bits (t.iom 0x4C) 9 8 ≠ 0 then t.iomIrq 1 else t
  else if 0x300 ≤ o ∧ o % 16 = 12 ∧ !bit v 0 ∧ t.pcie.iommuPend.contains ((o - 0x300) / 16) then
    ({ t with pcie := { t.pcie with iommuPend := t.pcie.iommuPend.filter (· ≠ (o - 0x300) / 16) } } : State).iomMsi ((o - 0x300) / 16)
  else t

end Sys2Proof.Machine
end

