-- ==== Sys2Proof/Machine/Regs.lean ====
section
/-!
DEFINITION. Register accesses: the address map (R28 to R31), the register access rules (R4 to R12), rights of requesters
(R280, R325, R371), the Description Table (R385, R386), and reads and writes of every range below DRAM that is not a PCIe
window.
-/

namespace Sys2Proof.Machine
open Sys2Proof

/-! ### The address map (Table KU-13) -/

/-- What stands at a physical address. -/
inductive Region where
  | rom | desc | regs | garret | tile | pcie | dram | unassigned
  deriving DecidableEq, Repr

/-- The register ranges of Table KU-13: base, limit. -/
def regRanges : List (Nat × Nat) := [
  (0x01000000, 0x0103FFFF), (0x01100000, 0x011001FF), (0x02000000, 0x0200FFFF), (0x02800000, 0x028FFFFF),
  (0x04000000, 0x07FFFFFF), (0x08000000, 0x080FFFFF), (0x09000000, 0x09FFFFFF), (0x0C000000, 0x0C007FFF),
  (0x0D000000, 0x0D007FFF), (0x0E000000, 0x0E00FFFF), (0x10000000, 0x1FFFFFFF), (0x30000000, 0x333FFFFF),
  (0x34000000, 0x34FFFFFF), (0x3F000000, 0x3F000FFF)]
/-- The region of an address; DRAM above the installed top is unassigned. -/
def State.region (s : State) (a : Nat) : Region :=
  if a < 0x40000 then .rom
  else if dramBase ≤ a then (if a < s.dramTop then .dram else .unassigned)
  else if 0x80000000 ≤ a then .pcie
  else if 0x20000000 ≤ a ∧ a < 0x28000000 then .tile
  else if 0x400000 ≤ a ∧ a < 0x410000 then .desc
  else if 0x2400000 ≤ a ∧ a < 0x2800000 then .garret
  else if regRanges.any (fun r => decide (r.1 ≤ a) && decide (a ≤ r.2)) then .regs
  else .unassigned

/-- The answer of an access: the bytes read, a refusal (access fault, Completer Abort), or nothing there (access fault,
Unsupported Request). -/
inductive IoAns where
  | ok (b : Bytes)
  | refused
  | unassigned
  deriving DecidableEq, Repr

/-! ### The Description Table (Tables HST-5, HST-6) -/

/-- Base of the host staging area (R381): 128 MiB, aligned to 1 MiB, inside installed DRAM. -/
def State.staging (s : State) : Option Nat :=
  let m := (s.dramTop - dramBase) / 2 ^ 20
  if m < 128 then none else some (dramBase + Config.stagingMiB m % (m - 127) * 2 ^ 20)
def descEntry (ty len : Nat) (b : Bytes) : Bytes := Bytes.slice (Bytes.ofNatLE 2 ty ++ Bytes.ofNatLE 2 len ++ b) 0 len
def descWindow (kind port base size : Nat) : Bytes :=
  descEntry 2 24 (Bytes.ofNatLE 2 kind ++ Bytes.ofNatLE 2 port ++ Bytes.ofNatLE 8 base ++ Bytes.ofNatLE 8 size)
/-- The functions of card mode: the PF and 64 VFs. -/
def State.descFns (s : State) : List Bytes :=
  if !s.cardMode then []
  else (List.range 65).map (fun f =>
    let own := (List.range 64).foldl (fun a k => if (s.hd k).owner = f then a + 2 ^ k else a) 0
    descEntry 1 24 (Bytes.ofNatLE 2 f ++ (if f = 0 then [28#8, 29#8, 21#8] else [12#8, 0#8, 0#8]) ++ [0#8]
      ++ Bytes.ofNatLE 2 (if f = 0 then 64 else 0) ++ Bytes.ofNatLE 8 own))
/-- Windows: ECAM and the ports' in root mode, port 4's left out in card mode, and the DRAM areas. -/
def State.descWins (s : State) : List Bytes :=
  let ports := if s.cardMode then 4 else 5
  [descWindow 1 0 0x80000000 0x10000000]
    ++ (List.range ports).map (fun p => descWindow 2 p (0xC0000000 + p * 0x8000000) 0x8000000)
    ++ (List.range ports).map (fun p => descWindow 3 p (0x1000000000 + p * 0x3000000000) 0x3000000000)
    ++ (match s.cardMode, s.staging with
      | true, some b => [descWindow 4 4 b 0x8000000]
      | _, _ => [])
    ++ (let m := (s.dramTop - dramBase) / 2 ^ 20
        if m = 0 then []
        else [descWindow 5 0xFFFF (dramBase + (Config.netPool m).1 % m * 2 ^ 20) ((Config.netPool m).2 % m * 2 ^ 20)])
    ++ (List.range 17).filterMap (fun k => (s.drainArea k).map (fun z =>
      descWindow 6 k (s.reg (ringReg k 0x18) + s.reg (ringReg k 0x1C) * 2 ^ 32) (z * 64)))
/-- All entries, in the order of their types. -/
def State.descEntries (s : State) : List Bytes :=
  s.descFns ++ s.descWins
    ++ [descEntry 3 32 (Bytes.ofNatLE 8 0x01000000 ++ Bytes.ofNatLE 2 64
        ++ Bytes.ofNatLE 16 ((List.range 64).foldl (fun a n => a + mbxKind n * 4 ^ n) 0))]
    ++ (List.range 16).map (fun n => descEntry 4 40 (Bytes.ofNatLE 1 n ++ Bytes.ofNatLE 1 (s.lane n).st
        ++ Bytes.ofNatLE 1 (b2n (bit s.twin.home n)) ++ [0#8] ++ Bytes.ofNatLE 8 (laneBase n)
        ++ Bytes.ofNatLE 8 (0x20000000 + n * 0x800000) ++ ((s.lane n).image (s.lane n).bank).slice 320 16))
    ++ [(1, 0xB1), (2, s.cel.fw), (3, 1), (4, 1), (5, 1)].map (fun (v : Nat × Nat) =>
        descEntry 5 16 (Bytes.ofNatLE 2 v.1 ++ Bytes.ofNatLE 4 v.2))
    ++ (List.range 16).map (fun c =>
        let d := s.dmc c
        descEntry 6 16 (Bytes.ofNatLE 1 c ++ Bytes.ofNatLE 1 d.st ++ Bytes.ofNatLE 1 d.cfg ++ [0#8] ++ Bytes.ofNatLE 4 d.cap))
/-- The table apart from GEN and CRC: header bytes 0 to 15, header bytes 20 to 43, entries. -/
def State.descBody (s : State) : Bytes × Bytes × Bytes :=
  let es := s.descEntries
  let e := es.flatten
  let mask := fun (f : Dmc → Bool) => (List.range 16).foldl (fun a c => if f (s.dmc c) then a + 2 ^ c else a) 0
  let dom := match s.twin.dom with
    | some d => d.domain
    | none => 0
  (Bytes.ofNatLE 4 0x54444B41 ++ Bytes.ofNatLE 2 1 ++ Bytes.ofNatLE 2 es.length ++ Bytes.ofNatLE 4 (64 + e.length) ++ [0xB1#8]
      ++ Bytes.ofNatLE 1 (b2n s.cardMode) ++ Bytes.zeros 2,
   Bytes.ofNatLE 4 (if s.str.bootstrap then 0 else s.twin.deviceId) ++ Bytes.ofNatLE 4 dom ++ Bytes.ofNatLE 4 s.cel.fw
      ++ Bytes.ofNatLE 8 s.dramTop ++ Bytes.ofNatLE 2 (mask (·.member)) ++ Bytes.ofNatLE 2 (mask (fun d => decide (d.dimms ≠ 0) && !d.member)),
   e)
/-- The Cellarer rewrites the table when what it shows has changed; GEN, even between rewrites, moves on by two (R386). -/
def State.descUpdate (s : State) : State :=
  if !s.cel.descBuilt then s
  else
    let (a, b, e) := s.descBody
    if a ++ b ++ e = s.cel.descBody then s
    else { s with cel := { s.cel with descBody := a ++ b ++ e, descGen := (s.cel.descGen + 2) % 2 ^ 32 } }
/-- The 64 KiB image (R385). -/
def State.descImage (s : State) : Bytes :=
  let (a, b, e) := s.descBody
  let gen := Bytes.ofNatLE 4 s.cel.descGen
  let h := fun (crc : Nat) => a ++ gen ++ b ++ Bytes.ofNatLE 4 crc ++ Bytes.zeros 16
  let table := if s.cel.descBuilt then h (Crypto.crc32c (h 0 ++ e)).toNat ++ e else []
  let pci := Bytes.ascii "PCIR" ++ Bytes.ofNatLE 2 0x1F2E ++ Bytes.ofNatLE 2 0x4200 ++ Bytes.zeros 2 ++ Bytes.ofNatLE 2 24
    ++ Bytes.zeros 1 ++ Bytes.ofNatLE 3 0x0B4000 ++ Bytes.ofNatLE 2 128 ++ Bytes.zeros 3 ++ [0x80#8] ++ Bytes.zeros 2
  [0x55#8, 0xAA#8] ++ Bytes.zeros 22 ++ Bytes.ofNatLE 2 0x20 ++ Bytes.zeros 6 ++ pci ++ Bytes.zeros (0x100 - 0x20 - pci.length) ++ table

/-! ### Rights -/

/-- Whether a requester may read or write a register (R280, R325, R371); 0x1FF stands for a PCIe requester without an agent. -/
def State.regMay (s : State) (ag a : Nat) (store : Bool) : Bool :=
  if ag = 272 then true
  else if 0x01000000 ≤ a ∧ a < 0x01040000 then
    (decide (ag < 256) || ag = 273 || ag = 275) && s.mbxRight ag ((a - 0x01000000) / 0x1000)
  else if 0x01100000 ≤ a ∧ a < 0x01100200 then decide (ag < 256) || ag = 273 || ag = 275
  else if 0x04000000 ≤ a ∧ a < 0x08000000 then (if ag = 275 then s.str.unlockSysbus else !store || decide (ag < 256))
  else if 0x10000000 ≤ a ∧ a < 0x20000000 then
    let n := (a - 0x10000000) / 0x1000000
    let o := a % 0x1000000
    if !store then s.right ag n 0
    else
      let cons := decide (0x2000 ≤ o ∧ o < 0x2200) && o % 0x40 = 0x10
      let prod := decide (0x2200 ≤ o ∧ o < 0x2400) && o % 0x40 = 0xC
      s.right ag n (if cons || prod then 2 else 3)
  else true

/-! ### Reading -/

/-- The low word of a 64-bit value exposed as two registers (R11). -/
def isLow (a : Nat) : Bool :=
  if 0x10000000 ≤ a ∧ a < 0x20000000 then
    let o := a % 0x1000000
    o = 0x80 || (decide (0x2000 ≤ o ∧ o < 0x2400) && (o % 0x40 = 0 || o % 0x40 = 0x14)) || (decide (0x3000 ≤ o ∧ o < 0x3100) && o % 8 = 0)
  else if 0x30000000 ≤ a ∧ a < 0x31000000 then
    let o := a % 0x1000000
    o = 0x20 || (decide (0x1000 ≤ o ∧ o < 0x1440) && (o % 0x40 = 4 || o % 0x40 = 0xC || o % 0x40 = 0x18))
      || (decide (0x2000 ≤ o ∧ o < 0x2440) && (o % 0x40 = 4 || o % 0x40 = 0xC))
  else if 0x04000000 ≤ a ∧ a < 0x08000000 then
    let o := a % 0x400000
    o = 0x1108
  else if 0x33000000 ≤ a ∧ a < 0x33400000 then a % 0x100000 = 0x20
  else if 0x34501000 ≤ a ∧ a < 0x34502000 then a % 0x40 = 0
  else if 0x0E000000 ≤ a ∧ a < 0x0E010000 then (decide (a % 0x10000 < 0x800) && a % 8 = 0) || a % 0x10000 = 0x7FF8
  else a = 0x02000020 || a = 0x02000104 || a = 0x32000028 || a = 0x32000030 || a = 0x3F000014
/-- An MSI-X structure at offset `o` from the table: `pba` offset, number of vectors, function (Table HST-3). -/
def State.msixWord (s : State) (fn n pba o : Nat) : Option Nat :=
  let f := s.pfn fn
  if o < 16 * n then
    let v := SMap.get {} (o / 16) f.vecs
    some (match o % 16 with
      | 0 => v.addr % 2 ^ 32
      | 4 => v.addr / 2 ^ 32
      | 8 => v.data
      | _ => b2n v.masked)
  else if pba ≤ o ∧ o < pba + cdiv n 64 * 8 then
    some ((List.range 32).foldl (fun a i =>
      if (SMap.get {} ((o - pba) * 8 + i) f.vecs).pend then a + 2 ^ i else a) 0)
  else none
/-- Write a word of an MSI-X table; clearing a mask sends what is pending (R383). -/
def State.setMsixWord (s : State) (fn o v : Nat) : State :=
  let f := s.pfn fn
  let x := SMap.get {} (o / 16) f.vecs
  let y := match o % 16 with
    | 0 => { x with addr := x.addr / 2 ^ 32 * 2 ^ 32 + v }
    | 4 => { x with addr := x.addr % 2 ^ 32 + v * 2 ^ 32 }
    | 8 => { x with data := v }
    | _ => { x with masked := bit v 0 }
  (s.setPfn fn { f with vecs := SMap.set {} (o / 16) y f.vecs }).msixFlush fn
/-- mtime (R251): 100 MHz from cold reset. -/
def State.mtime (s : State) : Nat := (s.laneClk - s.pwr.mtime0) / 16
/-- The value a register shows; 0 where no register stands (R6). -/
def State.regVal (s : State) (a : Nat) : Nat :=
  let v : Option Nat :=
    if a < 0x01040000 then s.mbxView ((a - 0x01000000) / 0x1000) (a % 0x1000)
    else if a < 0x02010000 then (match s.celView (a - 0x02000000) with
      | some v => some v
      | none => s.pwrView (a - 0x02000000))
    else if a < 0x028FF000 then
      some (Bytes.le (SMap.get [] ((a - 0x02800000) / 64) s.mem.ras) (a % 64) 4)
    else if a < 0x04000000 then none
    else if a < 0x08000000 then s.dmcView ((a - 0x04000000) / 0x400000) (a % 0x400000)
    else if a < 0x0C000000 then some 0
    else if a = 0x0E007FF8 then some (s.mtime % 2 ^ 32)
    else if a = 0x0E007FFC then some (s.mtime / 2 ^ 32 % 2 ^ 32)
    else if a < 0x10000000 then none
    else if a < 0x20000000 then s.laneView ((a - 0x10000000) / 0x1000000) (a % 0x1000000)
    else if a < 0x31000000 then s.jrnView (a - 0x30000000)
    else if a < 0x32000000 then s.twnView (a - 0x31000000)
    else if a < 0x33000000 then s.netView (a - 0x32000000)
    else if a < 0x34000000 then s.arkView ((a - 0x33000000) / 0x100000) (a % 0x100000)
    else if 0x34504000 ≤ a ∧ a < 0x34508000 then s.msixWord 0 129 0x2000 (a - 0x34504000)
    else if a < 0x35000000 then s.pcieView (a - 0x34000000)
    else s.strView (a - 0x3F000000)
  v.getD (s.reg a)
/-- A read of a register by an agent, with what the read itself does: the locks and RX (R328, R338), RC fields (R9), the
latch of R11. `ev` are the events that an RC field counts in the same cycle. -/
def State.regRead (s : State) (ag a : Nat) (ev : Nat) : State × Nat :=
  if 0x01100000 ≤ a ∧ a < 0x01100200 then s.lockRead ((a - 0x01100000) / 4) ag
  else if a < 0x01040000 ∧ a % 0x1000 < 0x40 then
    let m := s.mbx ((a - 0x01000000) / 0x1000)
    (s, if (m.st ≠ 0 ∧ m.sender = ag) ∨ s.mbxReceiver ((a - 0x01000000) / 0x1000) = ag then s.regVal a else 0)
  else if a < 0x01040000 ∧ a % 0x1000 = 0x80 then
    let t := s.mbxRx ag ((a - 0x01000000) / 0x1000)
    (t, if s.mbxReceiver ((a - 0x01000000) / 0x1000) = ag then SMap.get 0 ag t.readRes else 0)
  else match s.latch.find? (fun l => l.1 = ag && l.2.1 = a) with
    | some l => ({ s with latch := s.latch.filter (fun x => !(x.1 = ag && x.2.1 = a)) }, l.2.2.toNat)
    | none =>
      let v := s.regVal a
      let rc := match regRow a with
        | some r => r.rc
        | none => 0
      let s := if rc = 0 then s else s.setReg a (v - (v &&& rc) + (ev &&& rc))
      let s := if isLow a then
          { s with latch := (ag, a + 4, BitVec.ofNat 32 (s.regVal (a + 4))) ::
                            s.latch.filter (fun x => !(x.1 = ag && x.2.1 = a + 4)) }
        else s
      (s, v)

/-! ### Writing -/

/-- What a step leaves; the state itself where it ended otherwise. -/
def Res.st (r : Res) (s : State) : State := match r with
  | .next t => t
  | _ => s
/-- Mailbox registers (Table CEL-6, R325 to R330). -/
def State.mbxWrite (s : State) (ag n o v : Nat) : State :=
  let m := s.mbx n
  let mine := (m.st = 0 ∧ mbxMaySend n ag) ∨ (m.st = 1 ∧ m.sender = ag)
  if o < 0x40 then s.mbxData ag n (o / 4) (BitVec.ofNat 32 v)
  else match o with
  | 0x40 =>
    if bit v 31 then s.mbxClear ag n
    else if bit v 8 then s.mbxGo ag n (v % 256)
    else if mine then s.setMbx n { m with st := 1, sender := ag, seq := v % 256 }
    else if m.st ≠ 0 ∧ m.sender = ag then s
    else s.mbxRefuse n ag
  | 0x4C => if mine then s.setMbx n { m with us := max 10 (min 10000000 (v % 2 ^ 24)) } else s.mbxRefuse n ag
  | 0x54 =>
    if (m.st = 0 ∧ mbxMaySend n ag) ∨ (m.st ≠ 0 ∧ m.sender = ag) then
      s.setMbx n { m with irq := bits v 31 31 * 2 ^ 31 + bits v 19 0 }
    else s.mbxRefuse n ag
  | 0x84 => s.mbxAck ag n (bits v 23 16) (bits v 15 0)
  | 0x88 => s.mbxExtend ag n (bits v 23 0)
  | _ => s
/-- Registers of the Cellarer status block: harts and the debug module may write the power registers (Table KU-58). -/
def State.celWrite (s : State) (ag o v : Nat) : State :=
  if !(decide (ag < 256) || ag = 272 || ag = 275) then s
  else if 0x10 ≤ o ∧ o < 0x20 then s.plainWrite (0x02000000 + o) v
  else if ag = 272 then s
  else if o = 0x200 then
    let a : Agent := Fin.ofNat 512 ag
    let s := if bit v 0 then (execWarmReq a s).st s else s
    let s := if bit v 30 then (execSdReq a s).st s else s
    if bit v 31 then (execPowerOff a s).st s else s
  else if o = 0x208 then s.setTdp v
  else if o = 0x220 then (if s.pwr.released then s.hartReset (v % 256) else s)
  else s.plainWrite (0x02000000 + o) v
/-- Registers of a lane (Table KU-27, R69, R413, R414). -/
def State.laneCtlWrite (s : State) (ag n o v : Nat) : State :=
  let a := laneBase n + o
  if o = 0 then
    let s := s.setReg a (setBits (setBits (s.reg a) 0 0 (bits v 0 0)) 2 2 (bits v 2 2))
    if bit v 1 then s.startReset n ag else s
  else if o = 0x28 then (if bit v 0 then s.modLane n (fun l => { l with applyPending := true }) else s)
  else if 0x2000 ≤ o ∧ o < 0x2200 ∧ o % 0x40 = 0x10 then s.hshCons n ((o - 0x2000) / 0x40) (BitVec.ofNat 32 v)
  else if 0x2200 ≤ o ∧ o < 0x2400 ∧ o % 0x40 = 0xC then s.rshProd n ((o - 0x2200) / 0x40) (BitVec.ofNat 32 v)
  else if o = 0x3100 then
    let clr := bit v 31 || decide (v % 64 ≠ s.reg a % 64)
    let s := s.modLane n (fun l => { l with hist0 := if clr then [] else l.hist0, hist1 := if clr then [] else l.hist1,
                                            lpmu := if bit v 30 then [] else l.lpmu })
    s.setReg a (v % 64)
  else s.plainWrite a v
/-- JRN registers (Table JRN-12). -/
def State.jrnWrite (s : State) (o v : Nat) : State :=
  let a := 0x30000000 + o
  if o = 0 then s.setField a 0 0 (bits v 0 0)
  else if o = 0x28 then s.setReg a (max 10 (min 10000 (v % 2 ^ 14)))
  else if 0x1000 ≤ o ∧ o < 0x1440 then
    let k := (o - 0x1000) / 0x40
    let en := bit (s.reg (ringReg k 0x20)) 0
    match o % 0x40 with
    | 0x18 => if en then s else s.plainWrite a v
    | 0x1C => if en then s else s.plainWrite a v
    | 0x20 =>
      let z := bits v 4 1
      s.setReg a (z * 2 + (if 4 ≤ z ∧ z ≤ 14 then v % 2 else 0))
    | 0x28 => (execDrainRetire 272 (Fin.ofNat 17 k) (BitVec.ofNat 32 v) s).st s
    | _ => s.plainWrite a v
  else s.plainWrite a v
/-- DMC registers (Tables DMC-6, KU-52). -/
def State.dmcWrite (s : State) (ag c o v : Nat) : State :=
  let a := dmcBase c + o
  let g : Agent := Fin.ofNat 512 ag
  let ch : ChanId := Fin.ofNat 16 c
  if o = 0 then
    let s := s.setField a 1 1 (bits v 1 1)
    if bit v 0 then (execTrainNow g ch s).st s else s
  else if o = 0x30 then (execFreqReq g ch (BitVec.ofNat 32 v) s).st s
  else if o = 0x50 then s.setReg a (max 8 (min 16 (v % 32)))
  else if o = 0x70 then (if bits v 23 16 ≤ bits v 31 24 then s else s.plainWrite a v)
  else if o = 0x100 then
    let chg := decide ((v ^^^ s.reg a) &&& 0xFFFF03 ≠ 0)
    let s := if bit v 31 || chg then s.modDmc c (fun d => { d with hist := [] }) else s
    s.plainWrite a (v % 2 ^ 31)
  else s.plainWrite a v
/-- Archive compressor registers (Table ARK-6). -/
def State.arkWrite (s : State) (k o v : Nat) : State :=
  let a := arkBase k + o
  let en := bit (s.reg (arkBase k)) 0
  if o = 0 then
    let s := s.arkEn k (bit v 0)
    if bit v 1 then s.arkAbort k else s
  else if o = 0x20 ∨ o = 0x24 then (if en then s else s.plainWrite a v)
  else if o = 0x28 then (if en then s else s.setReg a (min 12 (v % 16)))
  else if o = 0x30 then (if v % 2 ^ 16 < s.arkEntries k then s.setReg a (v % 2 ^ 16) else s)
  else s.plainWrite a v
/-- A channel's registers (Table HST-9): BASE and CFG are the harts', TAIL also the owning function's. -/
def State.hdmaWrite (s : State) (ag k o v : Nat) : State :=
  let a := hdmaReg k o
  match o with
  | 0 => if ag < 256 then s.plainWrite a v else s
  | 4 => if ag < 256 then s.plainWrite a v else s
  | 8 => if ag < 256 then s.setReg a (bits v 31 31 * 2 ^ 31 + min 12 (bits v 19 16) * 2 ^ 16) else s
  | 0x10 => if v % 2 ^ 16 < s.hdEntries k then s.setReg a (v % 2 ^ 16) else s
  | _ => s.plainWrite a v
/-- A write of a register by an agent that may write it. -/
def State.regWrite (s : State) (ag a v : Nat) : State :=
  if a < 0x01040000 then s.mbxWrite ag ((a - 0x01000000) / 0x1000) (a % 0x1000) v
  else if a < 0x01100200 then s.lockWrite ((a - 0x01100000) / 4) ag
  else if a < 0x02010000 then s.celWrite ag (a - 0x02000000) v
  else if a = 0x028FF004 then
    let prod := s.reg rasCtl
    let cons := s.reg (rasCtl + 4)
    if (v + 2 ^ 32 - cons) % 2 ^ 32 ≤ (prod + 2 ^ 32 - cons) % 2 ^ 32 then s.setReg a v else s
  else if a < 0x04000000 then s.plainWrite a v
  else if a < 0x08000000 then s.dmcWrite ag ((a - 0x04000000) / 0x400000) (a % 0x400000) v
  else if a < 0x0C000000 then s.imsicWrite a v
  else if a < 0x10000000 then s.plainWrite a v
  else if a < 0x20000000 then s.laneCtlWrite ag ((a - 0x10000000) / 0x1000000) (a % 0x1000000) v
  else if a < 0x31000000 then s.jrnWrite (a - 0x30000000) v
  else if a = 0x32000040 then s.reassign ag v
  else if a < 0x33000000 then s.plainWrite a v
  else if a < 0x34000000 then s.arkWrite ((a - 0x33000000) / 0x100000) (a % 0x100000) v
  else if 0x34501000 ≤ a ∧ a < 0x34502000 then s.hdmaWrite ag ((a - 0x34501000) / 0x40) (a % 0x40) v
  else if 0x34504000 ≤ a ∧ a < 0x34504000 + 16 * 129 then s.setMsixWord 0 (a - 0x34504000) v
  else if 0x34800000 ≤ a ∧ a < 0x34801000 then s.iommuWrite (a - 0x34800000) v
  else if a < 0x35000000 then s.plainWrite a v
  else if a = 0x3F000010 then (execQuery (Fin.ofNat 512 ag) (Fin.ofNat 16384 v) .none s).st s
  else s

/-! ### Reads and writes of the ranges below the PCIe windows -/

/-- Natural alignment. -/
def aligned (a n : Nat) : Bool := a % n = 0
/-- The lane and offset of a tile-window address, and whether an outside requester can reach it (R133, R136). -/
def tileSpot (a : Nat) : Nat × Nat := ((a - 0x20000000) / 0x800000, a % 0x800000)
def State.tileBytes (s : State) (n o k : Nat) : Bytes :=
  if o < 0x5D0000 then memRead (s.lane n).tmem o k
  else Bytes.slice (Bytes.ofNatLE 8 ((s.lane n).sideW ((o - 0x5D0000) / 8))) (o % 8) k
/-- A read of `n` bytes by an agent. -/
def State.ioRead (s : State) (ag a n : Nat) (vec : Bool) : State × IoAns :=
  match s.region a with
  | .rom => if a + n ≤ 0x40000 then (s, .ok (memRead s.rom a n)) else (s, .unassigned)
  | .desc =>
    if vec || !aligned a n then (s, .refused)
    else
      let s := s.descUpdate
      (s, .ok (s.descImage.slice (a - 0x400000) n))
  | .garret =>
    if !vec && (n = 4 || n = 8) && aligned a n then
      (s, .ok (Bytes.slice (SMap.get [] ((a - 0x2400000) / 32) s.gar.ring) (a % 32) n))
    else (s, .refused)
  | .tile =>
    let (l, o) := tileSpot a
    if (!vec && (!aligned a n || 8 < n)) || o + n > 0x5FE800 || !s.right ag l 0 then (s, .refused)
    else (s, .ok ((List.range n).flatMap (fun i => s.tileBytes l (o + i) 1)))
  | .regs =>
    let table := decide (0x32400000 ≤ a ∧ a < 0x32800000) && n = 8
    if vec || !(n = 4 || table) || !aligned a n || !s.regMay ag a false then (s, .refused)
    else if table then (s, .ok (Bytes.ofNatLE 4 (s.regVal a) ++ Bytes.ofNatLE 4 (s.regVal (a + 4))))
    else
      let (s, v) := s.regRead ag a 0
      (s, .ok (Bytes.ofNatLE 4 v))
  | _ => (s, .unassigned)
/-- A write by an agent. -/
def State.ioWrite (s : State) (ag a : Nat) (b : Bytes) (vec : Bool) : State × IoAns :=
  let n := b.length
  match s.region a with
  | .rom => (s, .refused)
  | .desc => (s, .refused)
  | .garret => (s, .refused)
  | .tile =>
    let (l, o) := tileSpot a
    if (!vec && (!aligned a n || 8 < n)) || o + n > 0x5D0000 || !s.right ag l 1 then (s, .refused)
    else (s.modLane l (fun x => { x with tmem := memWrite x.tmem o b }), .ok [])
  | .regs =>
    if vec || n ≠ 4 || !aligned a n || !s.regMay ag a true then (s, .refused)
    else (s.regWrite ag a (Bytes.toNatLE b), .ok [])
  | _ => (s, .unassigned)

/-! ### Meanings -/

/-- The requester learns how its access ended: an access fault for a hart; 1 Unsupported Request, 2 Completer Abort for another. -/
def State.ioEnd (s : State) (ag a : Nat) (store : Bool) (r : IoAns) : State :=
  match r with
  | .ok _ => { s with readErr := SMap.del ag s.readErr }
  | .refused => s.refuse ag a store
  | .unassigned => if ag < 256 then s.refuse ag a store else { s with readErr := SMap.set 0 ag 1 s.readErr }
/-- What hardware does to a register in the cycle of a software write. A W1C bit it sets is set after the write (R8), with the
interrupt that setting it sends. An update of RW bits is lost when the software write took effect: no register description
holds one pending (R10). -/
def State.hwUpdate (s : State) (a : Nat) (u : HwUpdate) (wrote : Bool) : State :=
  match regRow a with
  | none => s
  | some r =>
    let m := u.mask &&& BitVec.ofNat 32 r.rw
    let s := if wrote then s else s.setReg a ((BitVec.ofNat 32 (s.reg a) &&& ~~~m) ||| (u.val &&& m)).toNat
    let w := (u.sets &&& BitVec.ofNat 32 r.w1c).toNat
    if r.name = "IRQ_STATUS" then (List.range 32).foldl (fun s i => if bit w i then s.raiseIrq (a - 8) i else s) s
    else if w = 0 then s else s.setReg a (s.reg a ||| w)
/-- REGISTER_WRITE (R4 to R8, R10, Table KU-3), with what hardware does to the register in the same cycle. -/
def execRegisterWrite (agent : Agent) (addr size : Nat) (val : W32) (hw : HwUpdate) (s : State) : Res :=
  let (t, r) := if s.region addr = .regs then s.ioWrite agent addr (Bytes.ofNatLE size val.toNat) false else (s, .unassigned)
  .next ((t.ioEnd agent addr true r).hwUpdate addr hw (match r with
    | .ok _ => true
    | _ => false))
/-- A register read whose value the agent receives. -/
def State.readTo (s : State) (ag a ev : Nat) : State :=
  if s.region a ≠ .regs then s.ioEnd ag a false .unassigned
  else if !aligned a 4 || !s.regMay ag a false then s.ioEnd ag a false .refused
  else
    let (t, v) := s.regRead ag a ev
    t.answer ag v
/-- REGISTER_READ_CLEAR (R9). -/
def execRegisterReadClear (agent : Agent) (addr : Nat) (events : W32) (s : State) : Res :=
  .next (s.readTo agent addr events.toNat)
/-- LOW_WORD_READ (R11). -/
def execLowWordRead (agent : Agent) (addr : Nat) (s : State) : Res := .next (s.readTo agent addr 0)

end Sys2Proof.Machine
end

