-- ==== Sys2Proof/Machine/Bar.lean ====
section
/-!
DEFINITION. Requests that reach the device over PCIe: inbound requests of root ports (R29, R372, R379) and the host's
accesses through card-mode BARs (R381, R382, Tables HST-3, HST-4).
-/

namespace Sys2Proof.Machine
open Sys2Proof

/-- A PCIe access window grants a request (R372). -/
def State.windowOk (s : State) (port rid a n : Nat) (w : Bool) : Bool :=
  s.windows.any (fun x => x.port = port && decide (x.ridLo ≤ rid) && decide (rid ≤ x.ridHi) && decide (x.base ≤ a)
    && decide (a + n ≤ x.limit + 1) && (if w then x.w else x.r))
/-- A completion leaves: a posted write that succeeded has none. -/
def State.complete (s : State) (rid : Nat) (write : Bool) (r : IoAns) (ep : Bool) : State :=
  match r with
  | .ok b => if write then s else s.pcieSend (.cpl rid 0 b ep)
  | .refused => s.pcieSend (.cpl rid 4 [] false)
  | .unassigned => s.pcieSend (.cpl rid 1 [] false)
/-- A root port's inbound request at its physical address (R379): where it ends, with EP of a read's data. -/
def State.inbound (s : State) (port : Nat) (r : PcieReq) (a : Nat) : State × IoAns × Bool :=
  match s.region a, s.region (a + r.size - 1) with
  | .dram, .dram =>
    if r.write then (s.dramWriteBy 0x1FF a (Bytes.slice r.data 0 r.size) r.ep, .ok [], false)
    else (s, .ok (s.dramRead a r.size), r.dataError || s.poisoned a r.size)
  | .unassigned, _ => (s, .unassigned, false)
  | .dram, _ => (s, .unassigned, false)
  | .pcie, _ => (s, .unassigned, false)
  | _, _ =>
    if !s.windowOk port r.rid a r.size r.write then (s, .refused, false)
    else
      let (s, ans) := if r.write then s.ioWrite 0x1FF a (Bytes.slice r.data 0 r.size) false else s.ioRead 0x1FF a r.size false
      (s, ans, false)
/-- A port reports a request that it did not serve, and a poisoned one (R395). -/
def State.inboundErr (s : State) (port : Nat) (r : PcieReq) (ans : IoAns) : State :=
  match ans with
  | .ok _ => if r.write && r.ep then s.portErr port 0 else s
  | _ => s.portErr port 0
/-- A root port's device may send: one of the port's links is up (R392), and the port is no endpoint. -/
def State.rootUp (s : State) (port : Nat) : Bool :=
  (List.range 4).any (fun i => (s.plink (4 * port + i)).up) && !(decide (port = 4) && s.cardMode)
/-- PCIE_INBOUND_REQUEST: the IOMMU answers it or gives it an address. -/
def execPcieInboundRequest (port : Fin 5) (r : PcieReq) (s : State) : Res :=
  if !s.rootUp port then .next s
  else match s.iommu r.rid r.aty r.addr r.write with
    | (s, .go a) =>
      let (s, ans, ep) := s.inbound port r a
      .next ((s.inboundErr port r ans).complete r.rid r.write ans ep)
    | (s, .ur) => .next ((s.portErr port 0).complete r.rid r.write .unassigned false)
    | (s, .ca) => .next ((s.portErr port 0).complete r.rid r.write .refused false)
    | (s, .xlat v) => .next (s.complete r.rid false (.ok (Bytes.ofNatLE 8 v)) false)

/-- The physical address that a BAR offset maps onto; none where nothing is mapped. -/
def State.barMap (s : State) (fn bar off : Nat) : Option Nat :=
  if fn = 0 then
    match bar with
    | 0 =>
      if off < 0x10000 then some (0x34500000 + off)
      else if off < 0x20000 then some (0x02000000 + (off - 0x10000))
      else if off < 0x21000 then some (0x3F000000 + (off - 0x20000))
      else if 0x100000 ≤ off ∧ off < 0x200000 then some (0x02800000 + (off - 0x100000))
      else if 0x8000000 ≤ off ∧ off < 0x10000000 then s.staging.map (· + (off - 0x8000000))
      else none
    | 2 => if off < 0x20000000 then some (0x10000000 + off) else none
    | 4 => if off < 0x200000 then some (0x01000000 + off) else none
    | 6 => if off < 0x10000 then some (0x400000 + off) else none
    | _ => none
  else if bar = 0 ∧ off < 0x40 then some (hdmaReg (fn - 1) off) else none
/-- A VF's own MSI-X table and PBA. -/
def State.vfMsix (s : State) (fn off : Nat) (r : BusOp) : State × IoAns :=
  if r.size ≠ 4 ∨ off % 4 ≠ 0 then (s, .refused)
  else match s.msixWord fn 1 0x400 (off - 0x800) with
    | none => (s, .unassigned)
    | some v =>
      if r.write then (if off < 0x810 then s.setMsixWord fn (off - 0x800) (r.data.toNat % 2 ^ 32) else s, .ok [])
      else (s, .ok (Bytes.ofNatLE 4 v))
/-- The access behind a mapped address, as agent 273; TAIL of a channel takes writes of its owning function only. -/
def State.barAccess (s : State) (fn bar a : Nat) (r : BusOp) : State × IoAns :=
  let b := Bytes.ofNatLE r.size r.data.toNat
  match s.region a with
  | .dram =>
    if s.region (a + r.size - 1) ≠ .dram then (s, .unassigned)
    else if r.write then (s.dramWriteBy 273 a b false, .ok []) else (s, .ok (s.dramRead a r.size))
  | .unassigned => (s, .unassigned)
  | .pcie => (s, .unassigned)
  | _ =>
    if bar ≠ 6 ∧ !s.windowOk 4 fn a r.size r.write then (s, .refused)
    else if r.write ∧ r.size = 4 ∧ 0x34501000 ≤ a ∧ a < 0x34502000 ∧ a % 0x40 = 0x10 ∧ (s.hd ((a - 0x34501000) / 0x40)).owner ≠ fn then
      (s, .ok [])
    else if r.write then s.ioWrite 273 a b false else s.ioRead 273 a r.size false
/-- HOST_BAR_ACCESS. -/
def execHostBarAccess (fn : Fin 65) (bar : Fin 8) (off : Nat) (r : BusOp) (s : State) : Res :=
  let f := s.pfn fn
  if !s.cardMode ∨ !(s.plink 16).up then .next s
  else if !f.mse ∨ f.flr ∨ f.d3hot ∨ (fn.val ≠ 0 ∧ !f.on) then .next (s.complete fn r.write .unassigned false)
  else
    let vf := fn.val ≠ 0 ∧ bar.val = 0 ∧ 0x800 ≤ off ∧ off < 0x1000
    let ep := match s.barMap fn bar off with
      | some a => s.region a = .dram && s.poisoned a r.size
      | none => false
    let (t, ans) := if vf then s.vfMsix fn off r
      else match s.barMap fn bar off with
        | some a => s.barAccess fn bar a r
        | none => (s, .unassigned)
    let t := match ans with
      | .ok b => if r.write then t else t.answer 273 (Bytes.toNatLE b)
      | _ => t.ioEnd 273 0 r.write ans
    let t := match ans with
      | .ok _ => t
      | _ => t.cardErr fn 0
    .next (t.complete fn r.write ans ep)

end Sys2Proof.Machine
end

