-- ==== Sys2Proof/Machine/Cache.lean ====
section
/-!
DEFINITION. The caches of a hart and the home slices (R256 to R268, Tables KU-41 to KU-43): sets in exact LRU order,
fills and evictions, snoops, the snoop filter, the L2 writeback and L3 eviction buffers, and the requests a slice serves.
-/

namespace Sys2Proof.Machine
open Sys2Proof

/-! ### Sets (R256 to R258) -/

def findLine (set : List CLine) (l : Nat) : Option CLine := set.find? (fun x => x.line = l)
/-- A demand hit makes the line MRU. -/
def touchLine (set : List CLine) (l : Nat) : List CLine := match findLine set l with
  | some x => x :: set.filter (fun y => y.line ≠ l)
  | none => set
def restate (set : List CLine) (l st : Nat) : List CLine := set.map (fun x => if x.line = l then { x with st := st } else x)
/-- A fill into a set of `n` ways: the new set and the line driven out; a line already there keeps its way. -/
def fillLine (set : List CLine) (n l st : Nat) (mru : Bool) : List CLine × Option CLine :=
  let put := fun (rest : List CLine) (me : CLine) => if mru then me :: rest else rest ++ [me]
  match findLine set l with
  | some x => (put (set.filter (fun y => y.line ≠ l)) { x with st := max st x.st }, none)
  | none => match victim set (List.range n) with
    | none => (set, none)
    | some (w, v) => (put (match v with
        | some x => set.filter (fun y => y.way ≠ x.way)
        | none => set) ⟨l, w, st⟩, v)

def l1Key (h l : Nat) : Nat := h * 128 + l % 128
def l2Key (h l : Nat) : Nat := h * 1024 + l % 1024
def Mem.l1 (m : Mem) (i : Bool) (h l : Nat) : List CLine := SMap.get [] (l1Key h l) (if i then m.l1i else m.l1d)
def Mem.setL1 (m : Mem) (i : Bool) (h l : Nat) (s : List CLine) : Mem :=
  if i then { m with l1i := SMap.set [] (l1Key h l) s m.l1i } else { m with l1d := SMap.set [] (l1Key h l) s m.l1d }
def Mem.l2Set (m : Mem) (h l : Nat) : List CLine := SMap.get [] (l2Key h l) m.l2
def Mem.setL2 (m : Mem) (h l : Nat) (s : List CLine) : Mem := { m with l2 := SMap.set [] (l2Key h l) s m.l2 }
/-- State of a line in a hart's L2 (Table KU-42); 0 when it is not there. -/
def Mem.l2St (m : Mem) (h l : Nat) : Nat := match findLine (m.l2Set h l) l with
  | some x => x.st
  | none => 0
/-- A hart's copies of a line take a state. -/
def Mem.restateAt (m : Mem) (h l st : Nat) : Mem :=
  (m.setL2 h l (restate (m.l2Set h l) l st)).setL1 false h l (restate (m.l1 false h l) l st)
/-- A hart's copies of a line go. -/
def Mem.dropAt (m : Mem) (h l : Nat) : Mem :=
  let no := fun (s : List CLine) => s.filter (fun x => x.line ≠ l)
  ((m.setL2 h l (no (m.l2Set h l))).setL1 false h l (no (m.l1 false h l))).setL1 true h l (no (m.l1 true h l))
/-- The harts whose L2 holds a line. -/
def Mem.holders (m : Mem) (l : Nat) : List Nat :=
  (m.l2.filter (fun p => p.2.any (fun x => x.line = l))).map (fun p => p.1 / 1024)

def State.hcount (s : State) (h i : Nat) : State := s.modHart h (fun x => x.count i)
/-- An event of a bay's slice is counted alike by both harts of the bay (Table PMU-1). -/
def State.sliceCount (s : State) (b i : Nat) : State := (s.hcount (2 * b) i).hcount (2 * b + 1) i
def State.withMem (s : State) (f : Mem → Mem) : State := { s with mem := f s.mem }

/-! ### Evictions of an L2 (R258, R268) -/

/-- A line leaves a hart's L2, and with it the hart's L1s; a dirty one goes to the writeback buffer, or to its slice when
the buffer's eight entries are in use. -/
def State.l2Evict (s : State) (h : Nat) (x : CLine) : State :=
  let s := s.withMem (fun m => m.dropAt h x.line)
  if x.st = 4 then
    let s := s.hcount h 43
    if (s.mem.wbbuf.filter (fun p => p.1 = h)).length < 8 then s.withMem (fun m => { m with wbbuf := m.wbbuf ++ [(h, x.line)] })
    else s.l3Place x.line h 4 true
  else s
/-- A line is installed in a hart's L2. -/
def State.l2Install (s : State) (h l st : Nat) (mru : Bool) : State :=
  let (set, v) := fillLine (s.mem.l2Set h l) 16 l st mru
  let s := s.withMem (fun m => m.setL2 h l set)
  match v with
  | some x => s.l2Evict h x
  | none => s
/-- A line of the L2 is installed in an L1. -/
def State.l1Install (s : State) (i : Bool) (h l : Nat) (mru : Bool) : State :=
  s.withMem (fun m => m.setL1 i h l (fillLine (m.l1 i h l) 8 l (if i then 1 else m.l2St h l) mru).1)

/-! ### Snoops (Table KU-42) -/

/-- A read snoop: a modified or exclusive copy, or the forwarding one, becomes shared; the L3 takes dirty data. -/
def State.snoopRead (s : State) (l : Nat) (keep : Option Nat) : State :=
  let hs := (s.mem.holders l).filter (fun h => keep ≠ some h)
  hs.foldl (fun s h =>
    let was := s.mem.l2St h l
    let s := (s.withMem (fun m => m.restateAt h l 1)).hcount h 41
    if was = 4 then s.l3Place l h 4 true else s) s
/-- An ownership snoop: every other copy is invalidated, and dirty data becomes the owner's. -/
def State.snoopOwn (s : State) (l : Nat) (keep : Option Nat) : State :=
  let hs := (s.mem.holders l).filter (fun h => keep ≠ some h)
  let s := hs.foldl (fun s h => s.hcount h 41) s
  (s.snoopOut l keep).withMem (fun m => m.setL3 l (restate (m.l3Set l) l 1))

/-! ### The snoop filter (R262) -/

/-- The lines that L2s hold in the filter set of line `l`. -/
def Mem.filterSet (m : Mem) (l : Nat) : List Nat :=
  (m.l2.flatMap (fun p => (p.2.map (fun x => x.line)).filter (fun y =>
    sliceOf y = sliceOf l && Config.sfSet y % 4096 = Config.sfSet l % 4096))).eraseDups
/-- A new entry needs room: a free choice among the others of a full set is invalidated in every L2 that holds it, its
dirty copy written back to the slice first. -/
def State.filterRoom (s : State) (l : Nat) : State :=
  let others := (s.mem.filterSet l).filter (fun y => y ≠ l)
  if (s.mem.holders l).isEmpty ∧ others.length ≥ 12 then
    let y := others.getD (s.freeWord.toNat % others.length) 0
    let s := s.drew.sliceCount (sliceOf l) 61
    let hs := s.mem.holders y
    let s := hs.foldl (fun s h =>
      let s := s.hcount h 42
      if s.mem.l2St h y = 4 then s.l3Place y h 4 true else s) s
    s.snoopOut y none
  else s

/-! ### Requests at a home slice (R263, R264, R267, Table KU-43) -/

def State.respond (s : State) (ag l : Nat) (b : Bytes) (err : Bool) : State := s.withMem (fun m => { m with resp := (ag, l, b, err) })
/-- A fill needs a dirty victim while the slice's eviction buffer is full. -/
def State.mustWait (s : State) (ag l : Nat) : Bool :=
  !s.mem.evRoom (sliceOf l) && (findLine (s.mem.l3Set l) l).isNone
    && (match victim (s.mem.l3Set l) ((List.range 16).filter (fun w => bit (s.mem.wayMask ag) w)) with
      | some (_, some v) => v.st = 4
      | _ => false)
/-- The copy of a line in the slice is uncorrectable (Table KU-49): a clean one is invalidated; a dirty one is lost, each with
its record, the latter and written back with the poison mark. True when it was lost. -/
def State.l3LineError (s : State) (l ag : Nat) : State × Bool :=
  match findLine (s.mem.l3Set l) l with
  | none => (s, false)
  | some x =>
    let s := s.withMem (fun m => m.setL3 l ((m.l3Set l).filter (fun y => y.line ≠ l)))
    if x.st = 4 then
      let b := s.dramRead (l * 64) 64
      let s := s.withMem (fun m => { m with dirty := SMap.del l m.dirty })
      let s := (s.queueWrite l b true 0x1FD).ras { code := 0x4008, source := 4, inst := sliceOf l, flags := 2, requester := ag, pa := l * 64 }
      (s, true)
    else (s.ras { code := 0x40C2, source := 4, inst := sliceOf l, flags := 1, requester := ag, pa := l * 64 }, false)
/-- What a single-bit error of the slice's copy and an error of the snoop-filter set leave (Table KU-49): records, and every line of
an uncorrectable set back-invalidated (R262). -/
def State.sliceErrs (s : State) (req : L3Req) : State :=
  let l := req.line
  let fixed := fun (s : State) (src : Nat) => s.ras { code := 0x40C2, source := src, inst := sliceOf l, flags := 1, requester := req.agent, pa := l * 64 }
  let s := if req.single && (findLine (s.mem.l3Set l) l).isSome then fixed s 4 else s
  match req.filter with
  | .none => s
  | .single => fixed s 5
  | .multi =>
    let s := (s.mem.filterSet l).foldl (fun s y =>
      ((s.mem.holders y).foldl (fun (s : State) h =>
        let s := s.hcount h 42
        if s.mem.l2St h y = 4 then s.l3Place y h 4 true else s) s).snoopOut y none) s
    s.ras { code := 0x40C6, source := 5, inst := sliceOf l, flags := 1, requester := 0x1FD }
/-- The slice looks a line up for a reader: a hit, its eviction buffer (the line is reinstalled clean), or a miss that
allocates where Table KU-43 says so; answers whether the read meets a data error. -/
def State.l3Read (s : State) (ag l : Nat) (hart alloc mru : Bool) : State × Bool :=
  let b := sliceOf l
  let s := s.sliceCount b 59
  let tell := fun (s : State) (i : Nat) => if hart && mru then s.hcount ag i else s
  if (findLine (s.mem.l3Set l) l).isSome then
    let s := if mru then s.withMem (fun m => m.setL3 l (touchLine (m.l3Set l) l)) else s
    (tell s (if ag / 2 = b then 20 else 21), false)
  else if s.mem.evbuf.any (fun p => p.2 = l) then
    (tell ((s.sliceCount b 62).l3Place l ag 1 true) 23, false)
  else
    let s := tell (s.sliceCount b 60) 22
    if s.linePoisoned l then (s, true)
    else if alloc then (s.l3Place l ag 1 mru, false) else (s, false)
/-- L3_REQUEST: a request for one line at its home slice. One that must wait for an eviction-buffer entry changes nothing. -/
def execL3Request (req : L3Req) (s : State) : Res :=
  let l := req.line
  let ag := req.agent.val
  let hart := decide (ag < 256)
  let data := fun (s : State) => s.dramRead (l * 64) 64
  if s.region (l * 64) ≠ .dram ∨ req.sealedWrongPath then .next s
  else
    let s := s.sliceErrs req
    let (s, lost) := if req.lineError then s.l3LineError l ag else (s, false)
    match req.kind with
    | .evictClean =>
      .next (if hart && s.mem.l2St ag l ≠ 4 then s.withMem (fun m => m.dropAt ag l) else s)
    | .zero => .next (if hart then (s.filterRoom l).snoopOwn l (some ag) else s)
    | .writebackL2 =>
      if !s.mem.wbbuf.any (fun p => p.1 = ag && p.2 = l) then .next s
      else if req.poisoned then
        let s := s.withMem (fun m => { m with wbbuf := m.wbbuf.filter (fun p => p ≠ (ag, l)), dirty := SMap.del l m.dirty })
        .next (s.queueWrite l (Bytes.slice req.data 0 64) true ag)
      else if s.mustWait ag l then .next s
      else .next ((s.withMem (fun m => { m with wbbuf := m.wbbuf.filter (fun p => p ≠ (ag, l)) })).l3Place l ag 4 true)
    | .fullWrite => if s.mustWait ag l then .next s else .next (s.lineWrite ag l 0 (Bytes.slice req.data 0 64) req.poisoned)
    | .partialWrite =>
      if s.mustWait ag l then .next s
      else .next (s.lineWrite ag l (req.off % 64) (req.data.take (64 - req.off % 64)) req.poisoned)
    | .readDev =>
      let s := s.snoopRead l none
      let (s, err) := s.l3Read ag l false false true
      .next (s.respond ag l (data s) (err || lost))
    | .readHart =>
      if s.mustWait ag l then .next s
      else
        let s := (s.filterRoom l).snoopRead l (some ag)
        let (s, err) := s.l3Read ag l hart true true
        .next (s.respond ag l (data s) (err || lost))
    | .prefetch =>
      if s.mustWait ag l then .next s
      else
        let s := (s.filterRoom l).snoopRead l (some ag)
        let (s, err) := s.l3Read ag l hart true false
        .next (s.respond ag l (data s) (err || lost))
    | .ownHart =>
      if s.mustWait ag l then .next s
      else
        let (s, err) := (s.filterRoom l).l3Read ag l hart true true
        .next ((s.snoopOwn l (some ag)).respond ag l (data s) (err || lost))

/-! ### Maintenance (R265 to R267) -/

/-- A hart's CBO is complete. -/
def State.cboDone (s : State) (h : Nat) : State :=
  s.modHart h (fun x => (({ x with wait := .none, pc := x.pc + BitVec.ofNat 64 x.ilen } : Hart).count 2).count 4)
/-- A CBO acts on its line: 0 clean, 1 flush, 2 inval as flush, 3 inval discarding. Dirty data goes to the controller's
write queue, and the hart waits for its acknowledgment; without a dirty copy the operation is complete. -/
def State.cboAct (s : State) (h op l : Nat) : State :=
  let inBuf := s.mem.evbuf.any (fun p => p.2 = l)
  let held := s.mem.dirtyHeld l
  let data := s.dramRead (l * 64) 64
  let isDirty := (SMap.find l s.mem.dirty).isSome
  let clean := fun (s : State) =>
    (s.mem.holders l).foldl (fun s k => if s.mem.l2St k l = 4 then s.withMem (fun m => m.restateAt k l 3) else s)
      (s.withMem (fun m => m.setL3 l (restate (m.l3Set l) l 1)))
  let drop := fun (s : State) => (s.snoopOut l none).withMem (fun m => { m with l3 := dropLine l m.l3 })
  let noBuf := fun (s : State) => s.withMem (fun m => { m with wbbuf := m.wbbuf.filter (fun p => p.2 ≠ l) })
  if op = 3 then
    let s := noBuf (drop s)
    let s := if inBuf && !held then s else s.withMem (fun m => { m with dirty := SMap.del l m.dirty })
    s.cboDone h
  else
    let t := noBuf (if op = 0 then clean s else drop s)
    if isDirty && (held || !inBuf) then
      let t := (t.withMem (fun m => { m with dirty := SMap.del l m.dirty })).queueWrite l data false h
      (t.withMem (fun m => { m with cbo := m.cbo ++ [(h, l)] })).modHart h (fun x => { x with wait := .cbo op l })
    else if inBuf then
      (t.withMem (fun m => { m with cbo := m.cbo ++ [(h, l)] })).modHart h (fun x => { x with wait := .cbo op l })
    else t.cboDone h
/-- WRITEBACK_ACK: the controller has queued the write of a line of this slice. Its eviction-buffer entry frees, and the
CBOs that wait for the line complete. -/
def execWritebackAck (slice : SliceId) (line : Nat) (s : State) : Res :=
  let had := s.mem.evbuf.contains (slice.val, line)
  let s := if had then s.sliceCount slice 63 else s
  let s := if had && !s.mem.dirtyHeld line then
      match SMap.find line s.mem.dirty with
      | some b => (s.withMem (fun m => { m with dirty := SMap.del line m.dirty })).queueWrite line b false 0x1FD
      | none => s
    else s
  let s := s.withMem (fun m => { m with evbuf := m.evbuf.filter (fun p => p ≠ (slice.val, line)) })
  if sliceOf line = slice.val then
    let hs := (s.mem.cbo.filter (fun p => p.2 = line)).map (·.1)
    let s := s.withMem (fun m => { m with cbo := m.cbo.filter (fun p => p.2 ≠ line) })
    .next (hs.foldl (fun s h => match (s.hart h).wait with
      | .cbo _ l => if l = line then s.cboDone h else s
      | _ => s) s)
  else .next s

end Sys2Proof.Machine
end

