-- ==== Sys2Proof/Machine/HartMem.lean ====
section
/-!
DEFINITION. Hart loads, stores, fetches, AMOs and their faults (R228 to R230, R242 to R248), the PCIe windows as harts see
them (R377, R378), fills (R259, R266) and the Zicbom and Zicboz operations.
-/

namespace Sys2Proof.Machine
open Sys2Proof

/-! ### Faults of an access -/

/-- The memory system has recorded a data error for a hart: kerrrec names the newest record (R247). -/
def State.errRec (s : State) (h : Nat) : State :=
  let v := 2 ^ 31 + (if s.mem.overflow then 0xFFFF else (s.reg rasCtl + 2 ^ 32 - 1) % 2 ^ 32 % 16320)
  s.modHart h (fun x => { (x.count 55) with csr := SMap.put 0xDC0 (BitVec.ofNat 64 v) x.csr })
/-- A trap with a guest physical address. -/
def State.hartFault (s : State) (h k tval gpa : Nat) : State := s.modHart h (fun x => x.trapTo false k (tval % 2 ^ 64) gpa)
/-- An access fault that a data error causes. -/
def State.dataFault (s : State) (h kind va : Nat) : State := (s.errRec h).hartFault h (afCause kind) va 0
/-- The state without any data error a page walk could meet. -/
def State.noPoison (s : State) : State :=
  { s with poison := [], mem := { s.mem with dmc := [], wq := s.mem.wq.map (fun w => { w with poisoned := false }) } }

/-- The translation of a range: its physical parts in order, or the fault of the lowest page that faults (R246). -/
inductive Rng where
  | ok (parts : List (Nat × Nat))
  | bad (cause tval gpa : Nat)
  deriving DecidableEq, Repr
/-- The parts of `n` bytes at `va` by 4 KiB page: virtual address and length. -/
def pageParts (va n : Nat) : List (Nat × Nat) :=
  (List.range ((va % 4096 + n + 4095) / 4096)).map (fun i =>
    let lo := max va ((va / 4096 + i) * 4096)
    let hi := min (va + n) ((va / 4096 + i + 1) * 4096)
    (lo % 2 ^ 64, hi - lo))
def State.xlRange (s : State) (h kind va n : Nat) : Rng :=
  (pageParts va n).foldl (fun r p => match r with
    | .ok ps => match s.xlate h kind p.1 with
      | .ok a => .ok (ps ++ [(a, p.2)])
      | .bad c g => .bad c p.1 g
    | b => b) (.ok [])
/-- A translation that faulted: a walk that met a data error also sets kerrrec (R247). -/
def State.xlFault (s : State) (h kind c tval gpa : Nat) : State :=
  let fromErr := c = afCause kind && s.noPoison.xlate h kind tval ≠ s.xlate h kind tval
  (if fromErr then s.errRec h else s).hartFault h c tval gpa

/-! ### Reading and writing through the hierarchy -/

/-- 0 fetch, 1 load, 2 store: what an access needs of a translation. -/
def accK : AccKind → Nat
  | .fetch => 0
  | .load => 1
  | .lr => 1
  | _ => 2
/-- The bytes of the physical parts: DRAM coherently, the boot ROM as it stands. -/
def State.partsRead (s : State) (ps : List (Nat × Nat)) : Bytes :=
  ps.flatMap (fun p => if p.1 < 0x40000 then memRead s.rom p.1 p.2 else s.dramRead p.1 p.2)
/-- The cache lines of the parts, in order. -/
def partLines (ps : List (Nat × Nat)) : List Nat :=
  ps.flatMap (fun p => (List.range ((p.1 + p.2 + 63) / 64 - p.1 / 64)).map (fun i => p.1 / 64 + i))
/-- A hart's bytes merge into one line of which it has ownership: the line is modified. -/
def State.lineStore (s : State) (h l o : Nat) (b : Bytes) : State :=
  let old := s.dramRead (l * 64) 64
  let s := s.evOrder l
  s.withMem (fun m => ({ m with dirty := SMap.put l (old.splice o b) m.dirty }).restateAt h l 4)
/-- Store the bytes into the physical parts, line by line. -/
def State.partsWrite (s : State) (h : Nat) (ps : List (Nat × Nat)) (b : Bytes) : State :=
  (ps.foldl (fun (a : State × Nat) (p : Nat × Nat) =>
    ((List.range ((p.1 + p.2 + 63) / 64 - p.1 / 64)).foldl (fun (s : State) i =>
      let l := p.1 / 64 + i
      let lo := max p.1 (l * 64)
      let hi := min (p.1 + p.2) (l * 64 + 64)
      s.lineStore h l (lo - l * 64) ((b.drop (a.2 + lo - p.1)).take (hi - lo))) a.1, a.2 + p.2)) (s, 0)).1
/-- Bring a line into a hart's L2 and L1 with the rights asked for; the state it takes follows Table KU-42. -/
def State.obtain (s : State) (h l : Nat) (i own mru : Bool) : State :=
  let others := s.mem.holders l |>.filter (fun k => k ≠ h)
  let s := if own then s.snoopOwn l (some h) else s.snoopRead l (some h)
  let st := if own then (if (SMap.find l s.mem.dirty).isSome && !s.mem.evbuf.any (fun p => p.2 = l) then 4 else 3) else if others.isEmpty && decide (dramBase ≤ l * 64) then 3 else 2
  ((s.l2Install h l st mru).l1Install i h l mru)
/-- Ownership of a line at once, and the bytes stored: what a store does whose fill raises no question of its own. -/
def State.storeAt (s : State) (h : Nat) (ps : List (Nat × Nat)) (b : Bytes) : State :=
  ((partLines ps).foldl (fun (s : State) l => s.obtain h l false true true) s).partsWrite h ps b

/-- What a lookup of one line by a hart finds: a hit in the L1 or the L2 (which then fills the L1), the L2's writeback buffer
(R268), or a miss. `own` asks for the right to write. -/
def State.lookup (s : State) (h l : Nat) (i own : Bool) : State × Bool :=
  let s := if s.mem.wbbuf.contains (h, l) then
      (s.withMem (fun m => { m with wbbuf := m.wbbuf.filter (fun p => p ≠ (h, l)) })).l2Install h l 4 true
    else s
  let st := s.mem.l2St h l
  if st = 0 ∨ (own ∧ st < 3) then (s, false)
  else if (findLine (s.mem.l1 i h l) l).isSome then (s.withMem (fun m => m.setL1 i h l (touchLine (m.l1 i h l) l)), true)
  else ((s.withMem (fun m => m.setL2 h l (touchLine (m.l2Set h l) l))).l1Install i h l true, true)

/-! ### Registers of an access -/

def Hart.wrV (h : Hart) (r : Nat) (v : BitVec 256) : Hart := { h with v := SMap.set 0 r v h.v }
def Hart.wrF (h : Hart) (r : Nat) (v : D64) : Hart := { h with f := SMap.set 0 r v h.f }
/-- Count one of the exactly counted events. -/
def Hart.counts (h : Hart) (is : List Nat) : Hart := is.foldl (fun h i => h.count i) h
/-- Sign-extend the low `n` bytes. -/
def sext (v n : Nat) : D64 := BitVec.ofNat 64 (if bit v (8 * n - 1) then v + (2 ^ 64 - 2 ^ (8 * n)) else v)
/-- A load's bytes reach its register and it retires: a narrower value in a floating-point register is boxed in ones. -/
def Hart.loadEnd (h : Hart) (a : MemAccess) (b : Bytes) : Hart :=
  let v := Bytes.toNatLE b
  let h := h.counts [11]
  if a.vector then
    let old := (SMap.get 0 a.rd.val h.v).toNat
    (h.wrV a.rd.val (BitVec.ofNat 256 (old / 2 ^ (8 * a.size) * 2 ^ (8 * a.size) + v))).ret 0 0 h.ilen |>.counts [13]
  else if a.fp then (h.wrF a.rd.val (BitVec.ofNat 64 (2 ^ 64 - 2 ^ (8 * a.size) + v))).ret 0 0 h.ilen |>.counts [14]
  else h.ret a.rd.val (if a.signed then sext v a.size else BitVec.ofNat 64 v) h.ilen
/-- The bytes a store writes. -/
def Hart.storeBytes (h : Hart) (a : MemAccess) : Bytes :=
  let v := if a.vector then (SMap.get 0 a.rs2.val h.v).toNat else if a.fp then (SMap.get 0 a.rs2.val h.f).toNat else (h.rd a.rs2).toNat
  Bytes.ofNatLE a.size v
def Hart.storeEnd (h : Hart) (a : MemAccess) : Hart :=
  (h.ret 0 0 h.ilen).counts (if a.vector then [12, 13] else if a.fp then [12, 14] else [12])
/-- The result of an AMO on `n` bytes. -/
def amoResult (op : AmoOp) (n x y : Nat) : Nat :=
  let m : Nat := 2 ^ (8 * n)
  let sg := fun (v : Nat) => if bit v (8 * n - 1) then (v : Int) - (m : Int) else (v : Int)
  match op with
  | .swap => y
  | .add => (x + y) % m
  | .xor => x ^^^ y
  | .and => x &&& y
  | .or => x ||| y
  | .min => if sg x ≤ sg y then x else y
  | .max => if sg x ≤ sg y then y else x
  | .minu => min x y
  | .maxu => max x y

/-- The access itself, its lines being present with the rights it needs. -/
def State.accDo (s : State) (h : Nat) (a : MemAccess) (ps : List (Nat × Nat)) : State :=
  let x := s.hart h
  let line := (ps.headD (0, 0)).1 / 64
  match a.kind with
  | .fetch => s
  | .load => s.setHart h (x.loadEnd a (s.partsRead ps))
  | .lr => s.setHart h { ((x.ret a.rd.val (sext (Bytes.toNatLE (s.partsRead ps)) a.size) x.ilen).counts [15]) with resv := some line }
  | .store => (s.partsWrite h ps (x.storeBytes a)).modHart h (fun x => x.storeEnd a)
  | .sc =>
    (s.partsWrite h ps (x.storeBytes a)).modHart h (fun x => { ((x.ret a.rd.val 0 x.ilen).counts [15]) with resv := none })
  | .amo =>
    let old := Bytes.toNatLE (s.partsRead ps)
    let new := amoResult a.op a.size old (Bytes.toNatLE (x.storeBytes a))
    (s.partsWrite h ps (Bytes.ofNatLE a.size new)).modHart h (fun x => (x.ret a.rd.val (sext old a.size) x.ilen).counts [15])

/-! ### The PCIe windows (Table HST-2, R377, R378) -/

/-- The type-1 header word of a root port's bridge at `off`; stored plainly, its reset value is not the manual's. -/
def bridgeAddr (k off : Nat) : Nat := 0x80000000 + (k + 1) * 0x8000 + off
def State.bridgeWord (s : State) (k off : Nat) : Nat :=
  (match SMap.find (bridgeAddr k off) s.regs with
    | some v => v
    | none => Config.pcieCfg (512 + k) off).toNat
/-- Where an address of the PCIe range leads. -/
inductive PciDst where
  /-- a bridge's own configuration word -/
  | bridge (k off : Nat)
  /-- sub-port `k` (4 × port + sub) -/
  | link (k : Nat)
  /-- no bridge claims it: the load returns all ones -/
  | nobody (port : Nat)
  | unassigned
  | badSize
  deriving DecidableEq, Repr
def State.pciRoute (s : State) (a n : Nat) : PciDst :=
  let card := s.cardMode
  let find := fun (p : Nat) (f : Nat → Bool) => match (List.range 4).find? (fun i => (s.subWidth p i).isSome && f (4 * p + i)) with
    | some i => PciDst.link (4 * p + i)
    | none => .nobody p
  if a < 0x90000000 then
    if 4 < n then .badSize
    else
      let bus := bits a 27 20
      let dev := bits a 19 15
      if bus = 0 then
        (if 1 ≤ dev ∧ dev ≤ 20 ∧ bits a 14 12 = 0 ∧ (s.subWidth ((dev - 1) / 4) ((dev - 1) % 4)).isSome ∧ !(card && decide (17 ≤ dev)) then
          .bridge (dev - 1) (a % 4096) else .nobody 0)
      else match (List.range 20).find? (fun k => (s.subWidth (k / 4) (k % 4)).isSome && !(card && decide (16 ≤ k))
          && decide (bits (s.bridgeWord k 0x18) 15 8 ≤ bus) && decide (bus ≤ bits (s.bridgeWord k 0x18) 23 16)) with
        | some k => .link k
        | none => .nobody 0
  else if 0xC0000000 ≤ a ∧ a < 0xC0000000 + 5 * 0x8000000 then
    let p := (a - 0xC0000000) / 0x8000000
    if p = 4 ∧ card then .unassigned
    else find p (fun k => decide (bits (s.bridgeWord k 0x20) 15 4 ≤ a / 2 ^ 20) && decide (a / 2 ^ 20 ≤ bits (s.bridgeWord k 0x20) 31 20))
  else if 0x1000000000 ≤ a then
    let p := (a - 0x1000000000) / 0x3000000000
    if 4 < p ∨ (p = 4 ∧ card) then .unassigned
    else find p (fun k =>
      decide (bits (s.bridgeWord k 0x24) 15 4 + s.bridgeWord k 0x28 * 4096 ≤ a / 2 ^ 20)
        && decide (a / 2 ^ 20 ≤ bits (s.bridgeWord k 0x24) 31 20 + s.bridgeWord k 0x2C * 4096))
  else .unassigned
/-- A hart's access to the PCIe range. -/
def State.pciAccess (s : State) (h : Nat) (a : MemAccess) (va pa : Nat) : State :=
  let store := a.kind = .store
  let no := s.hartTrap h (if store then 7 else 5) va
  if a.vector ∨ !aligned pa a.size ∨ 8 < a.size then no
  else
    let dst := s.pciRoute pa a.size
    let x := s.hart h
    let b := x.storeBytes a
    let fin := fun (s : State) (v : Bytes) =>
      s.modHart h (fun x => if store then (x.storeEnd a) else (x.counts [46]).loadEnd a (Bytes.slice v 0 a.size))
    match dst with
    | .badSize => no
    | .unassigned => no
    | .nobody p => fin (s.portErr p 0x3002) ones8
    | .bridge k off =>
      let w := off / 4 * 4
      if store then
        let v := Bytes.toNatLE ((Bytes.ofNatLE 4 (s.bridgeWord k w)).splice (off % 4) b)
        fin { s with regs := SMap.put (bridgeAddr k w) (BitVec.ofNat 32 v) s.regs } []
      else fin s (Bytes.slice (Bytes.ofNatLE 4 (s.bridgeWord k w)) (off % 4) a.size)
    | .link k =>
      if !(s.plink k).up then fin (s.portErr (k / 4) 0x3005) ones8
      else if store then fin (s.pcieSend (.hartWrite pa b)) []
      else match s.freeTag k with
        | none => s
        | some t =>
          let s := (s.setPtag t (some { user := .hart h k, len := a.size, clk := s.laneClk })).pcieSend (.read t pa a.size)
          s.modHart h (fun x => { (x.counts [11, 46]) with wait := .pcie a.rd a.size a.signed })

/-! ### One access (R242 to R248) -/

/-- An access of the wrong path leaves at most the traces of Table KU-40. -/
def State.wrongPath (s : State) (h : Nat) (a : MemAccess) (va : Nat) : State :=
  let x := s.hart h
  let sealedMode := bit (x.csrV 0x5C0) 0 || bit (x.csrV 0x7C0) 16
  let i := decide (a.kind = .fetch)
  match a.kind, s.xlRange h (accK a.kind) va a.size with
  | .load, .ok ps =>
    (partLines ps).foldl (fun s l =>
      if sealedMode || !(s.region (l * 64) = .dram || s.region (l * 64) = .rom) || a.vector then s
      else if (findLine (s.mem.l1 i h l) l).isSome then s.withMem (fun m => m.setL1 i h l (touchLine (m.l1 i h l) l))
      else (s.hcount h 17).withMem (fun m => if m.fills.any (fun f => f.hart = h && f.line = l) then m else
        { m with fills := m.fills ++ [{ hart := h, line := l, own := false }] })) s
  | .fetch, .ok ps =>
    (partLines ps).foldl (fun s l =>
      if sealedMode || !(s.region (l * 64) = .dram || s.region (l * 64) = .rom) then s
      else if (findLine (s.mem.l1 true h l) l).isSome then s.withMem (fun m => m.setL1 true h l (touchLine (m.l1 true h l) l))
      else (s.hcount h 18).withMem (fun m => if m.fills.any (fun f => f.hart = h && f.line = l) then m else
        { m with fills := m.fills ++ [{ hart := h, line := l, own := false, insn := true }] })) s
  | _, _ => s

/-- The access meets a data error on line `l` (R247, R302, R303, Table KU-48). -/
def State.accError (s : State) (h : Nat) (a : MemAccess) (va l : Nat) : State :=
  match a.kind with
  | .store => (s.rasDropped h l).modHart h (fun x => x.storeEnd a)
  | .sc => ((s.rasDropped h l).modHart h (fun x => { ((x.ret a.rd.val 0 x.ilen).counts [15]) with resv := none }))
  | k => s.dataFault h (if k = .amo then 2 else accK k) va
/-- What the hart's own cache reports for a line that an access finds there (Table KU-49): the L1I, or a clean copy, is invalidated
and fetched again; a dirty copy is lost and written back with the poison mark (R299, R313). True when it was lost. -/
def State.cacheErr (s : State) (h : Nat) (a : MemAccess) (l : Nat) : State × Bool :=
  let i := decide (a.kind = .fetch)
  let inL1 := (findLine (s.mem.l1 i h l) l).isSome
  let src := if i && inL1 then 1 else if inL1 then 2 else 3
  let rec1 := fun (s : State) (code flags : Nat) =>
    s.ras { code := code, source := src, inst := h / 2, flags := flags, requester := h, pa := l * 64 }
  if a.store = .none ∨ s.mem.l2St h l = 0 then (s, false)
  else if src = 1 then (rec1 (s.withMem (fun m => m.setL1 true h l ((m.l1 true h l).filter (fun x => x.line ≠ l)))) 0x40C2 1, false)
  else if a.store = .single then (rec1 s 0x40C2 1, false)
  else if s.mem.l2St h l = 4 then
    let b := s.dramRead (l * 64) 64
    let s := s.withMem (fun m => { (m.dropAt h l) with dirty := SMap.del l m.dirty })
    (rec1 (s.queueWrite l b true 0x1FD) 0x4008 2, true)
  else (rec1 (s.withMem (fun m => m.dropAt h l)) 0x40C2 1, false)
/-- A cacheable access: performed when its lines are present with the rights it needs; else the first missing line is
requested and the hart waits. `again` marks the continuation of an access after a fill. -/
def State.cached (s : State) (h : Nat) (a : MemAccess) (va : Nat) (ps : List (Nat × Nat)) (again : Bool) : State :=
  let i := decide (a.kind = .fetch)
  let own := accK a.kind = 2
  let (s, lost) := if again then (s, none) else (partLines ps).foldl (fun (r : State × Option Nat) l =>
    let (s, bad) := r.1.cacheErr h a l
    (s, if bad then r.2.or (some l) else r.2)) (s, none)
  let (s, miss) := (partLines ps).foldl (fun (r : State × Option Nat) l => match r.2 with
    | some _ => r
    | none => let (s, hit) := r.1.lookup h l i own
              (s, if hit then none else some l)) (s, none)
  match lost, miss with
  | some l, _ => s.accError h a va l
  | none, none => s.accDo h a ps
  | none, some l =>
    let s := if again then s else s.modHart h (fun x => x.counts (if i then [18, 19] else if a.kind = .load then [16, 19] else [19]))
    if a.dataError && !again then s.accError h a va l
    else
      let s := s.withMem (fun m => { m with fills := m.fills.filter (fun f => !(f.hart = h && f.line = l))
        ++ [{ hart := h, line := l, own := own || m.fills.any (fun f => f.hart = h && f.line = l && f.own), acc := some a, insn := i }] })
      s.modHart h (fun x => { x with wait := .line va })
/-- The lowest virtual address of the part that faults where an access of parts `ps` at `va` meets a region that does not take
it: the second page's start when only that page lies outside DRAM and the boot ROM (R244, R246). -/
def State.faultAt (s : State) (va : Nat) (ps : List (Nat × Nat)) : Nat :=
  let good := fun (p : Nat × Nat) => s.region p.1 = .dram || s.region p.1 = .rom
  match ps with
  | [p, q] => if good p && !good q then (va + p.2) % 2 ^ 64 else va
  | _ => va
/-- A translated access to neither DRAM nor boot ROM: registers, tile windows and PCIe windows, whole and naturally aligned
(R18, R28, R378); vector accesses reach only the tile windows (Table KU-37). -/
def State.accessIo (s : State) (h : Nat) (a : MemAccess) (va : Nat) (ps : List (Nat × Nat)) : State :=
  let n := max 1 a.size
  let pa := (ps.headD (0, 0)).1
  let store := a.kind = .store
  let all := fun (r : Region) => ps.all (fun p => s.region p.1 = r && s.region (p.1 + p.2 - 1) = r)
  let af := s.hartFault h (if store then 7 else 5) (s.faultAt va ps) 0
  let tile := if all .tile then [48] else []
  if va % n ≠ 0 then af
  else if all .pcie then s.pciAccess h a va pa
  else if a.vector ∧ !all .tile then af
  else if store then
    match s.ioWrite h pa ((s.hart h).storeBytes a) a.vector with
    | (s, .ok _) => s.modHart h (fun x => (x.storeEnd a).counts tile)
    | _ => af
  else if (a.dataError || a.store = .multi) && all .tile && s.right h (tileSpot pa).1 0 then
    (s.ras { code := 0x4009, source := 6, inst := (tileSpot pa).1, flags := 2, requester := h, pa := pa / 64 * 64 }).dataFault h 1 va
  else
    let s := if a.store = .single && all .tile && s.right h (tileSpot pa).1 0 then
        s.ras { code := 0x40C2, source := 6, inst := (tileSpot pa).1, flags := 1, requester := h, pa := pa / 64 * 64 }
      else s
    match s.ioRead h pa n a.vector with
    | (s, .ok b) => s.modHart h (fun x => (x.counts (46 :: tile)).loadEnd a b)
    | _ => af
/-- One access of a hart, at the privilege and translation of its mode. -/
def State.access (s : State) (h : Nat) (a : MemAccess) (again : Bool) : State :=
  let x := s.hart h
  let va := if a.kind = .fetch then x.pc.toNat else (((x.rd a.rs1).toNat + a.imm) % (2 : Int) ^ 64).toNat
  let k := accK a.kind
  let n := max 1 a.size
  if a.wrongPath then s.wrongPath h a va
  else if a.kind = .lr ∧ va % n ≠ 0 then s.hartFault h 4 va 0
  else if (a.kind = .sc ∨ a.kind = .amo) ∧ va % n ≠ 0 then s.hartFault h 6 va 0
  else match s.xlRange h k va n with
    | .bad c t g => s.xlFault h k c t g
    | .ok ps =>
      let s := if again then s else s.modHart h (fun x => x.counts ((if va / 64 ≠ (va + n - 1) / 64 then [27] else [])
        ++ (if va / 4096 ≠ (va + n - 1) / 4096 then [28] else [])))
      let pa := (ps.headD (0, 0)).1
      let regs := ps.flatMap (fun p => [s.region p.1, s.region (p.1 + p.2 - 1)])
      let all := fun (r : Region) => regs.all (fun x => x = r)
      let af := s.hartFault h (afCause k) (s.faultAt va ps) 0
      if a.kind = .fetch then
        (if all .dram || all .rom then s.cached h a va ps again else af)
      else if a.kind = .lr ∨ a.kind = .sc ∨ a.kind = .amo then
        if all .dram then
          (if a.kind = .sc ∧ x.resv ≠ some (pa / 64) then
            s.setHart h { (((s.hart h).ret a.rd.val 1 x.ilen).counts [15]) with resv := none }
          else s.cached h a va ps again)
        else if a.kind = .lr ∧ regs.any (fun x => x = .unassigned) then s.hartFault h 5 va 0
        else s.hartFault h 7 va 0
      else if all .dram then s.cached h a va ps again
      else if all .rom then
        (if k = 2 ∨ a.vector then af else s.cached h a va ps again)
      else s.accessIo h a va ps
/-- The data access a trigger sees of one access: its address, bytes, and whether it loads (1), stores (2) or both. -/
def Hart.dataAcc (x : Hart) (a : MemAccess) : List (Nat × Nat × Nat) := match a.kind with
  | .fetch => []
  | k => [((((x.rd a.rs1).toNat + a.imm) % (2 : Int) ^ 64).toNat, max 1 a.size,
      if k = .amo then 3 else if k = .store ∨ k = .sc then 2 else 1)]
/-- HART_MEMORY_ACCESS (R242 to R248). A fetch and an access of the wrong path are no instructions of their own. -/
def execHartMemoryAccess (hart : HartId) (a : MemAccess) (s : State) : Res :=
  let go := fun (s : State) (x : Hart) => (s.setHart hart { x with ilen := 4 }).access hart a false
  if a.wrongPath ∨ a.kind = .fetch then (if (s.hart hart).ready then .next (go s (s.hart hart)) else .next s)
  else s.hartIssueOn hart (fun x => x.dataAcc a) go

/-! ### Fills (R257, R259, R266) -/

/-- CACHE_FILL: a line asked for by the hart, or by its prefetcher, arrives. It is installed unless it carries a data error,
and a prefetched line that the L2 holds changes no order (R256); the access that waits for it goes on, and so does a waiting CBO. -/
def execCacheFill (hart : HartId) (line : Nat) (prefetch dataError : Bool) (s : State) : Res :=
  let h := hart.val
  let f := s.mem.fills.find? (fun f => f.hart = h && f.line = line)
  let s := s.withMem (fun m => { m with fills := m.fills.filter (fun f => !(f.hart = h && f.line = line)) })
  let good := s.region (line * 64) = .dram || (s.region (line * 64) = .rom && f.isSome)
  if !good ∨ (f.isNone ∧ !prefetch) then .next s
  else
    let err := dataError || (s.region (line * 64) = .dram && s.linePoisoned line)
    let own := match f with
      | some f => f.own
      | none => false
    let acc := match f with
      | some f => f.acc
      | none => none
    let i := match f with
      | some f => f.insn
      | none => false
    let s := if err then s
      else if f.isNone then
        (if s.mem.l2St h line ≠ 0 then s
         else (s.snoopRead line (some h)).l2Install h line (if ((s.mem.holders line).filter (fun k => k ≠ h)).isEmpty then 3 else 2) false)
      else s.obtain h line i own true
    let s := match (s.hart h).wait, acc with
      | .line va, some a =>
        let s := s.modHart h (fun x => { x with wait := .none })
        if err then s.accError h a va line else s.access h a true
      | .cbo op l, _ =>
        if l = line ∧ !s.mem.cbo.contains (h, l) then (s.modHart h (fun x => { x with wait := .none })).cboAct h op l else s
      | _, _ => s
    .next s

/-! ### Zicbom and Zicboz (R226, R264 to R266) -/

/-- The exception a cache-block instruction raises in the hart's mode, by the envcfg bit (or field) that permits it. -/
def Hart.cboTrap (h : Hart) (hi lo : Nat) : Option Nat :=
  let ok := fun (c : Nat) => decide (bits (h.csrV c) hi lo ≠ 0)
  if h.priv = 3 then none
  else if !ok 0x30A then some 2
  else if h.virt then
    (if !ok 0x60A || (h.priv = 0 && !ok 0x10A) then some 22 else none)
  else if h.priv = 0 && !ok 0x10A then some 2 else none
/-- The line a cache-block instruction names, or the trap it takes; `zero` needs permission to store. -/
def State.cboLine (s : State) (h : Nat) (va : Nat) (zero : Bool) : Rng :=
  let t := fun (r : Rng) => match r with
    | .ok ps => if s.region ((ps.headD (0, 0)).1) = .dram then Rng.ok ps else .bad 7 va 0
    | b => b
  match s.xlRange h 2 va 1 with
  | .ok ps => t (.ok ps)
  | .bad c tv g =>
    if zero then .bad c tv g
    else match s.xlRange h 1 va 1 with
      | .ok ps => t (.ok ps)
      | .bad _ _ _ => .bad c tv g
/-- CBO.CLEAN, CBO.FLUSH and CBO.INVAL: `op` as `cboAct` counts it. -/
def State.cbo (s : State) (h rs1 op : Nat) (x : Hart) : State :=
  let cbie := fun (c : Nat) => bits (x.csrV c) 5 4
  match (if op = 2 then x.cboTrap 5 4 else x.cboTrap 6 6) with
  | some c => s.hartTrap h c 0
  | none =>
    let op := if op ≠ 2 then op
      else if (x.priv ≠ 3 && cbie 0x30A = 1) || (x.priv = 0 && cbie 0x10A = 1) || (x.virt && cbie 0x60A = 1) then 2 else 3
    let va := (x.rd rs1).toNat
    match s.cboLine h va false with
    | .bad c t g => s.xlFault h 2 c t g
    | .ok ps =>
      let l := (ps.headD (0, 0)).1 / 64
      let s := (s.hcount h 44).modHart h (fun x => { x with ilen := 4 })
      if s.mem.fills.any (fun f => f.hart = h && f.line = l) then
        (s.hcount h 45).modHart h (fun x => { x with wait := .cbo op l })
      else s.cboAct h op l
/-- CBO_CLEAN (R265). -/
def execCboClean (hart : HartId) (rs1 : XReg) (s : State) : Res := s.hartIssue hart fun s x => s.cbo hart rs1 0 x
/-- CBO_FLUSH (R265). -/
def execCboFlush (hart : HartId) (rs1 : XReg) (s : State) : Res := s.hartIssue hart fun s x => s.cbo hart rs1 1 x
/-- CBO_INVAL (R265). -/
def execCboInval (hart : HartId) (rs1 : XReg) (s : State) : Res := s.hartIssue hart fun s x => s.cbo hart rs1 2 x
/-- CBO.ZERO: the hart owns the line, zeroed, without reading it (R264). -/
def State.cboZero (s : State) (h rs1 : Nat) (x : Hart) : State :=
  match x.cboTrap 7 7 with
  | some c => s.hartTrap h c 0
  | none =>
    let va := (x.rd rs1).toNat / 64 * 64
    match s.cboLine h va true with
    | .bad c t g => s.xlFault h 2 c (if t = va then (x.rd rs1).toNat else t) g
    | .ok ps =>
      let l := (ps.headD (0, 0)).1 / 64
      let s := (s.hcount h 44).evOrder l
      let s := ((s.snoopOwn l (some h)).l2Install h l 4 true).l1Install false h l true
      let s := s.withMem (fun m => { m with dirty := SMap.put l (Bytes.zeros 64) m.dirty })
      s.modHart h (fun x => x.ret 0 0 4)
/-- CBO_ZERO (R264). -/
def execCboZero (hart : HartId) (rs1 : XReg) (s : State) : Res := s.hartIssue hart fun s x => s.cboZero hart rs1 x

end Sys2Proof.Machine
end

