-- ==== Sys2Proof/Machine/Hart.lean ====
section
/-!
DEFINITION. The vendor instructions and CSRs of the harts: Xkhall (R150 to R154), Xkjrn and Xkbeat (R233 to R239), kseal
(R231, R232), kerrrec (R247), the vendor counters (R409 to R412), and interrupts (R249 to R252).
-/

namespace Sys2Proof.Machine
open Sys2Proof

/-! ### Xkhall -/

/-- A vendor instruction that the hart's mode permits, by the kcfg bits given; else the trap of R230. -/
def State.vendorDo (s : State) (h : Nat) (sb ub vb : Option Nat) (f : State → Hart → State) : State :=
  match (s.hart h).vendor sb ub vb with
  | some c => s.hartTrap h c 0
  | none => f s (s.hart h)
def State.hartRet (s : State) (h rd : Nat) (v : Nat) : State := s.modHart h (fun x => x.ret rd (BitVec.ofNat 64 v) 4)
/-- The parts of `n` bytes of DRAM at `va` that a vendor instruction reads, or its fault; `bad` is the cause outside DRAM. -/
def State.vendorRange (s : State) (h kind va n bad : Nat) : Rng :=
  match s.xlRange h kind va n with
  | .ok ps =>
    if ps.all (fun p => s.region p.1 = .dram && s.region (p.1 + p.2 - 1) = .dram) then .ok ps
    else .bad bad ((ps.foldl (fun (a : Nat × Option Nat) p =>
      (a.1 + p.2, a.2.or (if s.region p.1 = .dram && s.region (p.1 + p.2 - 1) = .dram then none else some a.1))) (va, none)).2.getD va) 0
  | b => b
/-- A line of the parts meets a data error. -/
def State.partsBad (s : State) (ps : List (Nat × Nat)) : Bool := (partLines ps).any s.linePoisoned

/-- What the checker of the hallmark's lane answers (R152). -/
def State.hmJudge (s : State) (m : Hallmark) (k : Bytes) (d : D64) : Nat × Option Nat :=
  let n := m.lane % 16
  if m.device ≠ s.twin.deviceId then (0x1205, none)
  else match (s.lane n).held m with
    | none => (0x1205, none)
    | some (h, x) =>
      let tr := x.trace.take m.step
      if m.step ≤ x.trace.length && m.chain = recompute k m.origin tr && tr.any (fun l => l.isHm && l.digest = d) then (0, none)
      else (0x1202, some h)
/-- The effect of HM_CHECK rd, rs1, rs2 (R152, R154). -/
def State.hmCheck (s : State) (hart : HartId) (rd rs1 rs2 : XReg) : State :=
  s.vendorDo hart (some 8) (some 9) (some 10) fun s x =>
    let va := (x.rd rs1).toNat
    let len := (x.rd rs2).toNat
    let s := s.hcount hart 51
    if va % 8 ≠ 0 then s.hartTrap hart 4 va
    else if len < 33 ∨ 2048 < len then s.hartRet hart rd 0x1206
    else match s.vendorRange hart 1 va len 5 with
      | .bad c t g => s.xlFault hart 1 c t g
      | .ok ps =>
        if s.partsBad ps then s.dataFault hart 1 va
        else
          let b := s.partsRead ps
          let m := Hallmark.ofBytes b
          if !s.right hart (m.lane % 16) 2 then s.hartTrap hart 5 va
          else match s.hmKey m with
            | none => s.hartRet hart rd 0x1204
            | some k =>
              let (c, f) := s.hmJudge m k (digestOf k (b.drop 32))
              let s := match f with
                | some h => s.hmFail (m.lane % 16) h 2 0x1202 endTile
                | none => s
              s.hartRet hart rd c
/-- HM_CHECK rd, rs1, rs2 (R152, R154). -/
def execHmCheck (hart : HartId) (rd rs1 rs2 : XReg) (s : State) : Res := s.hartIssue hart fun s _ => s.hmCheck hart rd rs1 rs2
/-- The effect of HM_STEP rd, rs1 (R151, R154). -/
def State.hmStep (s : State) (hart : HartId) (rd rs1 : XReg) : State :=
  s.vendorDo hart (some 8) (some 9) (some 10) fun s x =>
    let va := (x.rd rs1).toNat
    let s := s.hcount hart 51
    if va % 8 ≠ 0 then s.hartTrap hart 6 va
    else match s.vendorRange hart 1 va 40 7 with
      | .bad c t g => s.xlFault hart 1 c t g
      | .ok ps =>
        if s.partsBad ps then s.dataFault hart 1 va
        else
          let b := s.partsRead ps
          let m := Hallmark.ofBytes b
          let len := Bytes.le b 32 2
          if 2008 < len ∨ m.step = 15 then s.hartRet hart rd 0x1206
          else match s.vendorRange hart 1 va (40 + len) 7, s.vendorRange hart 2 (va + 8) 16 7 with
            | .bad c t g, _ => s.xlFault hart 1 c t g
            | _, .bad c t g => s.xlFault hart 2 c t g
            | .ok ps, .ok ws =>
              if s.partsBad ps then s.dataFault hart 1 va
              else match s.hmKey m with
                | none => s.hartRet hart rd 0x1204
                | some k =>
                  let d := digestOf k ((s.partsRead ps).drop 32)
                  let c := linkTag k m.chain d 0x400 (m.step + 1)
                  let w := setBits (Bytes.le b 16 8) 27 20 (m.step + 1)
                  (s.storeAt hart ws (Bytes.ofNatLE 8 c.toNat ++ Bytes.ofNatLE 8 w)).hartRet hart rd 0
/-- HM_STEP rd, rs1 (R151, R154). -/
def execHmStep (hart : HartId) (rd rs1 : XReg) (s : State) : Res := s.hartIssue hart fun s _ => s.hmStep hart rd rs1
/-- The effect of TILE_CHECK rd, rs1 (R153, R154). -/
def State.tileCheck (s : State) (hart : HartId) (rd rs1 : XReg) : State :=
  s.vendorDo hart (some 8) (some 9) (some 10) fun s x =>
    let va := (x.rd rs1).toNat
    let s := s.hcount hart 51
    if va % 8 ≠ 0 then s.hartTrap hart 4 va
    else match s.xlRange hart 1 va 256 with
      | .bad c t g => s.xlFault hart 1 c t g
      | .ok ps =>
        let a := (ps.headD (0, 0)).1
        let (n, o) := tileSpot a
        if s.region a ≠ .tile ∨ a % 256 ≠ 0 ∨ 0x5D0000 ≤ o ∨ !s.right hart n 0 then s.hartTrap hart 5 va
        else
          let l := s.lane n
          let w := l.sideW (o / 256)
          let c := if !sideAlloc w ∨ sideFill w = 0 then 0x1206 else if l.tileOk (o / 256) then 0 else 0x1201
          s.hartRet hart rd (bits w 63 56 * 2 ^ 40 + sideNext w * 2 ^ 25 + sideFill w * 2 ^ 16 + c)

/-- TILE_CHECK rd, rs1 (R153, R154). -/
def execTileCheck (hart : HartId) (rd rs1 : XReg) (s : State) : Res := s.hartIssue hart fun s _ => s.tileCheck hart rd rs1
/-! ### Xkjrn and Xkbeat -/

/-- The checks of R162 on a core record. -/
def coreCheck (b : Bytes) : Nat :=
  let w3 := Bytes.le b 24 8
  if bits w3 63 58 ≠ 0 ∨ bits w3 55 54 = 3 then 0x1302
  else if Bytes.le b 21 1 ≠ 0x06 then 0x1303 else 0
/-- The effect of JRN_APPEND rd, rs1 (R162, R164, R172, R235 to R237). -/
def State.jrnAppend (s : State) (hart : HartId) (rd rs1 : XReg) : State :=
  s.vendorDo hart (some 0) (some 1) (some 2) fun s x =>
    let va := (x.rd rs1).toNat
    let s := s.hcount hart 49
    let refuse := fun (s : State) (c : Nat) => s.hartRet hart rd (2 ^ 63 + c)
    let dram := fun (ps : List (Nat × Nat)) => ps.all (fun p => s.region p.1 = .dram && s.region (p.1 + p.2 - 1) = .dram)
    match s.xlRange hart 1 va 64 with
    | .bad c t g => s.xlFault hart 1 c t g
    | .ok ps =>
      if va % 64 ≠ 0 ∨ !dram ps then refuse s 0x1302
      else if s.partsBad ps then s.dataFault hart 1 va
      else
        let sz := bits (Bytes.le (s.partsRead ps) 24 8) 55 54
        match s.xlRange hart 1 va (64 * 2 ^ (if sz = 3 then 0 else sz)) with
        | .bad c t g => s.xlFault hart 1 c t g
        | .ok qs =>
          if !dram qs then refuse s 0x1302
          else if s.partsBad qs then s.dataFault hart 1 va
          else
            let b := s.partsRead qs
            let c := coreCheck b
            if c ≠ 0 then refuse s c
            else if (s.ring 16).hold ≠ 0 then refuse s 0x1301
            else (s.present 16 { src := .hart hart rd, agent := hart, bytes := b }).modHart hart (fun x => { x with wait := .jrn rd })
/-- JRN_APPEND rd, rs1 (R162, R164, R172, R235 to R237). -/
def execJrnAppend (hart : HartId) (rd rs1 : XReg) (s : State) : Res := s.hartIssue hart fun s _ => s.jrnAppend hart rd rs1
/-- The effect of HART_BEAT_READ rd (R238). -/
def State.beatRead (s : State) (hart : HartId) (rd : XReg) : State :=
  s.vendorDo hart none (some 4) (some 5) fun s _ => s.hartRet hart rd s.btm.beat

/-- HART_BEAT_READ rd (R238). -/
def execHartBeatRead (hart : HartId) (rd : XReg) (s : State) : Res := s.hartIssue hart fun s _ => s.beatRead hart rd
/-! ### Interrupts (R249 to R252) -/

/-- The lowest identity of an interrupt file that is pending and enabled, with delivery on and above the threshold.
`key` names the file in `msis`, `lvl` its registers in `ireg`. -/
def State.fileTop (s : State) (x : Hart) (key lvl : Nat) : Option Nat :=
  let r := fun (sel : Nat) => (SMap.get 0 (lvl * 4096 + sel) x.ireg).toNat
  let on := (s.msis.filter (fun p => p.1 = key && bit (r (0xC0 + p.2 / 64 * 2)) (p.2 % 64)
    && (r 0x72 = 0 || decide (p.2 < r 0x72)))).map (·.2)
  if r 0x70 % 2 = 1 then on.foldl (fun b i => match b with
    | none => some i
    | some j => some (min i j)) none else none
def guestKey (h g : Nat) : Nat := 512 + 16 * h + g
/-- hgeip: the guest files with something to take. -/
def State.hgeip (s : State) (h : Nat) (x : Hart) : Nat :=
  (List.range 16).foldl (fun a g => if g ≠ 0 ∧ (s.fileTop x (guestKey h g) (2 + g)).isSome then a + 2 ^ g else a) 0
/-- The interrupt-pending bits of a hart: what software set, the files, the timers and the guest bits. -/
def State.mip (s : State) (h : Nat) : Nat :=
  let x := s.hart h
  let v := x.csrV 0x344
  let hv := x.csrV 0x645
  let gein := bits (x.csrV 0x600) 17 12
  let g := s.hgeip h x
  let cmp := s.reg (0x0E000000 + 8 * h) + s.reg (0x0E000004 + 8 * h) * 2 ^ 32
  let sstc := bit (x.csrV 0x30A) 63
  let vstc := sstc && bit (x.csrV 0x60A) 63
  let set := fun (v i : Nat) (b : Bool) => setBits v i i (b2n b)
  let v := set v 11 (s.fileTop x (h * 2 + 1) 1).isSome
  let v := set v 9 (bit v 9 || (s.fileTop x (h * 2) 0).isSome)
  let v := set v 7 (decide (cmp ≤ s.mtime))
  let v := if sstc then set v 5 (decide (x.csrV 0x14D ≤ s.mtime)) else v
  let v := set v 6 (bit hv 6 || (vstc && decide (x.csrV 0x24D ≤ (s.mtime + x.csrV 0x605) % 2 ^ 64)))
  let v := set v 10 (bit hv 10 || bit g gein)
  let v := set v 2 (bit hv 2)
  set v 12 (g &&& x.csrV 0x607 ≠ 0)
/-- Priority order of the interrupts. -/
def intrOrder : List Nat := [11, 3, 7, 9, 1, 5, 12, 10, 2, 6, 13]
/-- The interrupt a hart takes now, if any: machine level, then supervisor, then virtual supervisor; none in a single step
that dcsr lets no interrupt into. -/
def State.takeable (s : State) (h : Nat) : Option Nat :=
  let x := s.hart h
  let p := s.mip h &&& x.csrV 0x304
  let md := x.csrV 0x303
  let hd := x.csrV 0x603
  let pick := fun (m : Nat → Bool) => intrOrder.find? (fun i => bit p i && m i)
  let mOn := decide (x.priv < 3) || bit (x.csrV 0x300) 3
  let sOn := decide (x.priv < 3) && (x.virt || x.priv = 0 || bit (x.csrV 0x300) 1)
  let vOn := x.virt && (x.priv = 0 || bit (x.csrV 0x200) 1)
  if bit (x.csrV 0x7B0) 2 && !bit (x.csrV 0x7B0) 11 then none
  else ((if mOn then pick (fun i => !bit md i) else none).or (if sOn then pick (fun i => bit md i && !bit hd i) else none)).or
    (if vOn then pick (fun i => bit md i && bit hd i) else none)
/-- An interrupt is pending and locally enabled. -/
def State.localPend (s : State) (h : Nat) : Bool := decide (s.mip h &&& (s.hart h).csrV 0x304 ≠ 0)
/-- Drop what a hart's discarded instruction was waiting for. -/
def State.discard (s : State) (h : Nat) : State :=
  (s.withMem (fun m => { m with cbo := m.cbo.filter (fun p => p.1 ≠ h),
                                fills := m.fills.map (fun f => if f.hart = h then { f with acc := none } else f) })).modHart h
    (fun x => { x with wait := .none })
/-- HART_INTERRUPT (R239, R252): a pending enabled interrupt is taken; a JRN.APPEND or an access that has left the hart
completes first. -/
def execHartInterrupt (hart : HartId) (s : State) : Res :=
  let x := s.hart hart
  let able := match x.wait with
    | .jrn _ => false
    | .pcie _ _ _ => false
    | _ => true
  if !x.run ∨ x.halted ∨ !able then .next s
  else match s.takeable hart with
    | some i =>
      let s := if x.wait = .wfi then s.modHart hart (fun x => x.ret 0 0 x.ilen) else s
      .next ((s.discard hart).modHart hart (fun x => (x.trapTo true i 0 0).stepped x))
    | none =>
      if !s.localPend hart then .next s
      else match x.wait with
        | .beat rd _ => .next (s.hartRet hart rd s.btm.beat)
        | .wfi => .next (s.modHart hart (fun x => x.ret 0 0 x.ilen))
        | _ => .next s
/-- The effect of HART_BEAT_WAIT rd, rs1 (R239): the first event decides. -/
def State.beatWait (s : State) (hart : HartId) (rd rs1 : XReg) : State :=
  s.vendorDo hart none (some 4) (some 5) fun s x =>
    let t := (x.rd rs1).toNat
    if t ≤ s.btm.beat then s.hartRet hart rd s.btm.beat
    else match s.takeable hart with
      | some i => s.modHart hart (fun x => x.trapTo true i 0 0)
      | none =>
        if s.localPend hart then s.hartRet hart rd s.btm.beat
        else s.modHart hart (fun x => { x with wait := .beat rd t })

/-- HART_BEAT_WAIT rd, rs1 (R239): the first event decides. -/
def execHartBeatWait (hart : HartId) (rd rs1 : XReg) (s : State) : Res := s.hartIssue hart fun s _ => s.beatWait hart rd rs1
/-! ### Vendor CSRs (R229 to R232, R247) -/

/-- The exception of an access to kseal, kpmuen, kpmuenh or kerrrec: S-mode is the lowest privilege, and V = 1 traps. -/
def Hart.sVendorTrap (h : Hart) : Option Nat := if h.priv = 3 then none else if h.virt then some 22 else if h.priv = 0 then some 2 else none
/-- A flush of the predictor state (R232, R241). -/
def Hart.flushPredictors (h : Hart) : Hart := { h with ras := [], trained := false }
/-- The value kseal shows: SEAL reads 1 while SEAL_FORCE is 1. -/
def Hart.kseal (h : Hart) : Nat := b2n (bit (h.csrV 0x5C0) 0 || bit (h.csrV 0x7C0) 16)
/-- A write of kseal: SEAL is ignored while SEAL_FORCE is 1; BPFLUSH flushes. -/
def Hart.ksealWrite (h : Hart) (v : Nat) : Hart :=
  let h := if bit (h.csrV 0x7C0) 16 then h else h.setCsr 0x5C0 (v % 2)
  if bit v 1 then h.flushPredictors else h
/-- KSEAL_WRITE (R231). -/
def execKsealWrite (hart : HartId) (val : W32) (s : State) : Res := s.hartIssue hart fun s x =>
  match x.sVendorTrap with
  | some c => s.hartTrap hart c 0
  | none => s.modHart hart (fun x => (x.ksealWrite val.toNat).ret 0 0 4)
/-- BPFLUSH (R232): kseal.BPFLUSH is set, SEAL left as it is. -/
def execBpflush (hart : HartId) (s : State) : Res := s.hartIssue hart fun s x =>
  match x.sVendorTrap with
  | some c => s.hartTrap hart c 0
  | none => s.modHart hart (fun x => x.flushPredictors.ret 0 0 4)
/-- The value of kerrrec, and the hart with VALID cleared. -/
def Hart.kerrrec (h : Hart) : Nat × Hart := let v := h.csrV 0xDC0; (v, h.setCsr 0xDC0 (v % 2 ^ 31))
/-- KERRREC_READ rd (R229, R247). -/
def execKerrrecRead (hart : HartId) (rd : XReg) (s : State) : Res := s.hartIssue hart fun s x =>
  match x.sVendorTrap with
  | some c => s.hartTrap hart c 0
  | none => s.modHart hart (fun x => x.kerrrec.2.ret rd (BitVec.ofNat 64 x.kerrrec.1) 4)

/-! ### Counters (R409 to R412) -/

/-- Counters of Table PMU-1 whose events are commands of this model; the others count time or speculative work, and read
free values. -/
def countedEvents : List Nat := [2, 4, 5, 11, 12, 13, 14, 15, 16, 17, 18, 19, 20, 21, 22, 23, 27, 28] ++ [41, 42, 43, 44, 45, 46, 48, 49, 51,
  53, 54, 55, 59, 60, 61, 62, 63]
/-- The 48 bits of counter `i`. -/
def State.counter (s : State) (h i : Nat) : State × Nat :=
  if countedEvents.contains i then (s, SMap.get 0 i (s.hart h).pmu) else (s.drew, s.freeWord.toNat % 2 ^ 48)
/-- The exception of a vendor counter's read (R410). -/
def Hart.vcTrap (h : Hart) (i : Nat) : Option Nat :=
  if h.priv = 3 then none
  else if h.virt then some 22
  else if h.priv = 1 then none
  else if (if i = 1 then bit (h.csrV 0x5C1) 1 else bit (h.csrV 0x5C2) (i - 32)) then none else some 2
/-- A vendor counter's low bits; bits [47:32] and the index are latched into kpmhi. -/
def State.vcRead (s : State) (h i : Nat) : State × Nat :=
  let (s, v) := s.counter h i
  (s.modHart h (fun x => x.setCsr 0xCC2 (2 ^ 31 + i * 2 ^ 16 + v / 2 ^ 32)), v % 2 ^ 32)
/-- The counter a vendor CSR reads. -/
def vcIndex (csr : Nat) : Option Nat := if csr = 0xCC1 then some 1 else if 0xCE0 ≤ csr ∧ csr ≤ 0xCFF then some (csr - 0xCE0 + 32) else none
/-- VENDOR_COUNTER_READ rd, csr (R409, R410). -/
def execVendorCounterRead (hart : HartId) (rd : XReg) (csr : Nat) (s : State) : Res := s.hartIssue hart fun s x =>
  match vcIndex csr with
  | none => s.hartTrap hart 2 0
  | some i => match x.vcTrap i with
    | some c => s.hartTrap hart c 0
    | none =>
      let (s, v) := s.vcRead hart i
      s.hartRet hart rd v
/-- COUNTER_OVERFLOW (R412): counter `i` wraps to 0; counters 3 to 31 set OF and, where it was 0, make interrupt 13 pending. -/
def execCounterOverflow (hart : HartId) (i : Fin 32) (s : State) : Res :=
  .next (s.modHart hart (fun x => { x with pmu := SMap.set 0 i (2 ^ 48 - 1) x.pmu }.count i))

end Sys2Proof.Machine
end

