-- ==== Sys2Proof/Machine/HartCsr.lean ====
section
/-!
DEFINITION. CSR accesses of a hart: which CSR an instruction names in its mode, who may access it (R229, R410 and the
privileged architecture), what it reads and what a write leaves (R230 to R232, R249, R251, R411).
-/

namespace Sys2Proof.Machine
open Sys2Proof

/-! ### Which CSR, and whether the mode may access it -/

/-- With V = 1 the supervisor CSRs stand for the virtual ones. -/
def Hart.csrNum (h : Hart) (n : Nat) : Nat :=
  if !h.virt then n
  else if [0x100, 0x104, 0x105, 0x140, 0x141, 0x142, 0x143, 0x144, 0x14D, 0x150, 0x151, 0x15C, 0x180].contains n then n + 0x100
  else if n = 0xDB0 then 0xEB0 else n
/-- CSRs whose values are made from other state. -/
def madeCsrs : List Nat := [0x100, 0x104, 0x144, 0x644, 0x645, 0x351, 0x35C, 0xFB0, 0x151, 0x15C, 0xDB0, 0x251, 0x25C, 0xEB0, 0xDA0]
def isCounterCsr (n : Nat) : Bool := decide (0xC00 ≤ n ∧ n ≤ 0xC1F) || (decide (0xB00 ≤ n ∧ n ≤ 0xB1F) && n ≠ 0xB01)
/-- The guest interrupt file in use, from hstatus.VGEIN; none when it names none. -/
def Hart.vgein (h : Hart) : Option Nat := let g := bits (h.csrV 0x600) 17 12; if 1 ≤ g ∧ g ≤ 15 then some g else none
/-- A select value of the indirect registers that names a register (R249). -/
def iregOk (sel : Nat) : Bool :=
  (decide (0x30 ≤ sel ∧ sel ≤ 0x3F) || decide (0x80 ≤ sel ∧ sel ≤ 0xFF)) && sel % 2 = 0 || sel = 0x70 || sel = 0x72
/-- The trap of reading counter `i` below M-mode (R410). -/
def Hart.counterTrap (h : Hart) (i : Nat) : Option Nat :=
  if h.priv = 3 then none
  else if !bit (h.csrV 0x306) i then some 2
  else if h.virt ∧ !bit (h.csrV 0x606) i then some 22
  else if h.priv = 0 ∧ !bit (h.csrV 0x106) i then some (if h.virt then 22 else 2)
  else if h.priv = 0 ∧ i ≠ 1 ∧ !bit (h.csrV 0x5C1) i then some 2
  else none
/-- The exception of accessing CSR `n` (as the instruction names it); none when the hart has it and may access it. -/
def Hart.csrTrap (h : Hart) (n : Nat) (write : Bool) : Option Nat :=
  let lvl := bits n 9 8
  let vt := fun (b : Bool) => if b then some 22 else some 2
  let known := (csrRow n).isSome || madeCsrs.contains n || isCounterCsr n || isKpm n
  let off := fun (f : Nat) => bits (h.csrV 0x300) (f + 1) f = 0 || (h.virt && bits (h.csrV 0x200) (f + 1) f = 0)
  if !known ∨ (bits n 11 10 = 3 ∧ write) ∨ (0x7A0 ≤ n ∧ n ≤ 0x7AF ∧ h.priv ≠ 3) ∨ (0x7B0 ≤ n ∧ n ≤ 0x7BF) then some 2
  else if [0x5C0, 0x5C1, 0x5C2, 0xDC0].contains n then h.sVendorTrap
  else if lvl = 3 ∧ h.priv ≠ 3 then some 2
  else if lvl = 2 ∧ h.priv ≠ 3 ∧ (h.virt ∨ h.priv = 0) then vt h.virt
  else if lvl = 1 ∧ h.priv = 0 then vt h.virt
  else if n = 0x180 ∧ h.priv = 1 ∧ (if h.virt then bit (h.csrV 0x600) 20 else bit (h.csrV 0x300) 20) then vt h.virt
  else if n = 0x680 ∧ h.priv = 1 ∧ bit (h.csrV 0x300) 20 then some 2
  else if (n = 0x14D ∨ n = 0x24D) ∧ h.priv ≠ 3 ∧ (!bit (h.csrV 0x30A) 63 ∨ !bit (h.csrV 0x306) 1) then some 2
  else if n = 0x14D ∧ h.virt ∧ (!bit (h.csrV 0x60A) 63 ∨ !bit (h.csrV 0x606) 1) then some 22
  else if 1 ≤ n ∧ n ≤ 3 ∧ off 13 then some 2
  else if ((8 ≤ n ∧ n ≤ 0xF) ∨ (0xC20 ≤ n ∧ n ≤ 0xC22)) ∧ off 9 then some 2
  else if 0xC00 ≤ n ∧ n ≤ 0xC1F then h.counterTrap (n - 0xC00)
  else match vcIndex n with
    | some i => h.vcTrap i
    | none =>
      let m := h.csrNum n
      let sel := if m = 0x351 then some (h.csrV 0x350) else if m = 0x151 then some (h.csrV 0x150)
        else if m = 0x251 then some (h.csrV 0x250) else none
      match sel with
      | some v => if !iregOk v ∨ (m = 0x251 ∧ h.vgein.isNone) then vt h.virt else none
      | none => if m = 0x25C ∧ h.vgein.isNone then vt h.virt else none

/-! ### Reading -/

def sstatusMask : Nat := 0x80000003000DE762
/-- SD: the floating-point or the vector state is dirty. -/
def withSd (v : Nat) : Nat := setBits v 63 63 (b2n (bits v 14 13 = 3 || bits v 10 9 = 3))
/-- The interrupt file and register level behind an indirect register: machine, supervisor, guest. -/
def Hart.fileOf (h : Hart) (n m : Nat) : Nat × Nat :=
  if m = 0x351 ∨ m = 0x35C then (n * 2 + 1, 1)
  else if m = 0x151 ∨ m = 0x15C then (n * 2, 0)
  else (guestKey n (h.vgein.getD 0), 2 + h.vgein.getD 0)
/-- An indirect register: eip shows the identities that wait, the others are stored. -/
def State.iregGet (s : State) (x : Hart) (key lvl sel : Nat) : Nat :=
  if 0x80 ≤ sel ∧ sel < 0xC0 then
    s.msis.foldl (fun a p => if p.1 = key ∧ p.2 / 64 * 2 = sel - 0x80 then a + 2 ^ (p.2 % 64) else a) 0
  else (SMap.get 0 (lvl * 4096 + sel) x.ireg).toNat
def State.iregPut (s : State) (h key lvl sel v : Nat) : State :=
  if 0x80 ≤ sel ∧ sel < 0xC0 then
    let b := (sel - 0x80) / 2 * 64
    let keep := s.msis.filter (fun p => !(p.1 = key && decide (b ≤ p.2) && decide (p.2 < b + 64)))
    let new := ((List.range 64).filter (fun i => bit v i && b + i ≠ 0)).map (fun i => (key, b + i))
    { s with msis := keep ++ new }
  else
    let w := BitVec.ofNat 64 (if sel = 0x70 then v % 2 else if sel = 0x72 then v % 2048 else if sel = 0xC0 then v / 2 * 2 else v)
    s.modHart h (fun x => { x with ireg := SMap.set 0 (lvl * 4096 + sel) w x.ireg })
/-- The indirect select register of an xireg CSR. -/
def selOf (m : Nat) : Nat := if m = 0x351 then 0x350 else if m = 0x151 then 0x150 else 0x250
/-- The first pending and enabled interrupt of a level. -/
def topi (p : Nat) : Nat := match intrOrder.find? (fun i => bit p i) with
  | some i => i * 2 ^ 16 + 1
  | none => 0
/-- A write of tdata1 or tdata2 of the trigger that tselect names (R254, RISC-V Debug 1.0): types other than icount,
itrigger, etrigger and mcontrol6 leave it disabled; only the debugger sets dmode or writes a trigger that has it; the bits
of a type that the device does not offer read 0, and action 1 needs dmode. -/
def Hart.trigWrite (x : Hart) (m v : Nat) : Hart :=
  let k := x.csrV 0x7A0
  let key := m + 0x1000 * k
  if bit (x.tdata 0x7A1 k) 59 && !x.halted then x
  else if m ≠ 0x7A1 then x.setCsr key v
  else
    let dm := bits v 59 59 * b2n x.halted
    let ty := trigType v
    let act := b2n (decide (trigAction v = 1) && decide (dm = 1))
    let w := match ty with
      | 3 => v &&& 0x6FFFFC0 ||| act
      | 4 => v &&& 0x1AC0 ||| act
      | 5 => v &&& 0x1AC0 ||| act
      | 6 => v &&& 0x18001DF ||| act * 2 ^ 12
      | _ => 0
    x.setCsr key (setBits (setBits w 63 60 (if [3, 4, 5, 6].contains ty then ty else 15)) 59 59 dm)
/-- The value of CSR `m` of hart `h`, and what reading it does: kerrrec, a vendor counter, a counter without a modelled event. -/
def State.csrGet (s : State) (h m : Nat) : State × Nat :=
  let x := s.hart h
  let en := x.csrV 0x304
  let md := x.csrV 0x303
  let hd := x.csrV 0x603
  match m with
  | 0x100 => (s, withSd (x.csrV 0x300) &&& sstatusMask)
  | 0x200 => (s, withSd (x.csrV 0x200))
  | 0x300 => (s, withSd (x.csrV 0x300))
  | 0x003 => (s, x.csrV 2 * 32 + x.csrV 1)
  | 0x00F => (s, x.csrV 9 + 2 * x.csrV 10)
  | 0x104 => (s, en &&& md)
  | 0x204 => (s, (en &&& hd &&& 0x444) / 2)
  | 0x604 => (s, en &&& 0x1444)
  | 0x344 => (s, s.mip h)
  | 0x144 => (s, s.mip h &&& md)
  | 0x244 => (s, (s.mip h &&& hd &&& 0x444) / 2)
  | 0x644 => (s, s.mip h &&& 0x1444)
  | 0xE12 => (s, s.hgeip h x)
  | 0x7A1 => (s, x.tdata m (x.csrV 0x7A0))
  | 0x7A2 => (s, x.tdata m (x.csrV 0x7A0))
  | 0xF14 => (s, h)
  | 0xCC0 => (s, kbay h)
  | 0x5C0 => (s, x.kseal)
  | 0xDC0 => (s.setHart h x.kerrrec.2, x.kerrrec.1)
  | 0xC01 => (s, (s.mtime + (if x.virt then x.csrV 0x605 else 0)) % 2 ^ 64)
  | 0xDA0 =>
    let of := (List.range 32).foldl (fun a i => if 3 ≤ i ∧ bit (x.csrV (0x320 + i)) 63 then a + 2 ^ i else a) 0
    (s, if x.priv = 3 then of else of &&& x.csrV 0x306 &&& (if x.virt then x.csrV 0x606 else 2 ^ 32 - 1))
  | 0xFB0 => (s, topi (s.mip h &&& en &&& Rv.not 64 md))
  | 0xDB0 => (s, topi (s.mip h &&& en &&& md &&& Rv.not 64 hd))
  | 0xEB0 => (s, topi ((s.mip h &&& en &&& hd &&& 0x444) / 2))
  | _ =>
    if m = 0x351 ∨ m = 0x151 ∨ m = 0x251 then
      let (k, l) := x.fileOf h m
      (s, s.iregGet x k l (x.csrV (selOf m)))
    else if m = 0x35C ∨ m = 0x15C ∨ m = 0x25C then
      let (k, l) := x.fileOf h m
      (s, match s.fileTop x k l with
        | some i => i * 2 ^ 16 + i
        | none => 0)
    else if 0x3B0 ≤ m ∧ m ≤ 0x3BF then
      let c := x.pmpCfg (m - 0x3B0)
      (s, if bits c 4 3 = 3 then x.csrV m ||| 0x1FF else x.csrV m / 1024 * 1024)
    else if isCounterCsr m then s.counter h (m % 32)
    else match vcIndex m with
      | some i => s.vcRead h i
      | none => (s, x.csrV m)

/-! ### Writing -/

/-- An address-translation register keeps its value where the new mode is not implemented. -/
def atpOk (v : Nat) : Bool := [0, 8, 9, 10].contains (bits v 63 60)
/-- One byte of a PMP configuration register: locked entries and the reserved combination W without R stay. -/
def pmpByte (old new : Nat) : Nat :=
  if bit old 7 then old else if bit new 1 ∧ !bit new 0 then old else if bits new 4 3 = 2 then setBits (new &&& 0x9F) 4 3 (bits old 4 3) else new &&& 0x9F
/-- A write of CSR `m`: aliases go to the register they show; the rest keep the bits that are not writable. -/
def State.csrPut (s : State) (h m v : Nat) : State :=
  let x := s.hart h
  let md := x.csrV 0x303
  let hd := x.csrV 0x603
  let put := fun (n k v : Nat) => s.setHart h (x.maskCsr n k v)
  let mask := match csrRow m with
    | some r => r.2.2
    | none => 0
  let dirty := fun (x : Hart) (f : Nat) =>
    let x := x.maskCsr 0x300 (3 * 2 ^ f) (3 * 2 ^ f)
    if x.virt then x.maskCsr 0x200 (3 * 2 ^ f) (3 * 2 ^ f) else x
  match m with
  | 0x100 => put 0x300 0xC6722 v
  | 0x300 => put 0x300 (if bits v 12 11 = 2 then mask - (mask &&& 0x1800) else mask) v
  | 0x001 => s.setHart h (dirty (x.setCsr 1 (v % 32)) 13)
  | 0x002 => s.setHart h (dirty (x.setCsr 2 (v % 8)) 13)
  | 0x003 => s.setHart h (dirty ((x.setCsr 1 (v % 32)).setCsr 2 (v / 32 % 8)) 13)
  | 0x008 => s.setHart h (dirty (x.setCsr 8 (v % 256)) 9)
  | 0x009 => s.setHart h (dirty (x.setCsr 9 (v % 2)) 9)
  | 0x00A => s.setHart h (dirty (x.setCsr 10 (v % 4)) 9)
  | 0x00F => s.setHart h (dirty ((x.setCsr 9 (v % 2)).setCsr 10 (v / 2 % 4)) 9)
  | 0x104 => put 0x304 (md &&& 0x3EEE) v
  | 0x204 => put 0x304 (hd &&& 0x444) (v * 2)
  | 0x604 => put 0x304 0x1444 v
  | 0x144 => put 0x344 (md &&& 0x2002) v
  | 0x344 => put 0x344 (if bit (x.csrV 0x30A) 63 then 0x2202 else 0x2222) v
  | 0x244 => put 0x645 (hd &&& 4) (v * 2)
  | 0x644 => put 0x645 4 v
  | 0x180 => if atpOk v then put m mask v else s
  | 0x280 => if atpOk v then put m mask v else s
  | 0x680 => if atpOk v then put m (mask - 3) v else s
  | 0x5C0 => s.setHart h (x.ksealWrite v)
  | 0x7A1 => s.setHart h (x.trigWrite m v)
  | 0x7A2 => s.setHart h (x.trigWrite m v)
  | 0x3A0 => s.setHart h (x.setCsr m ((List.range 8).foldl (fun a i => a + pmpByte (bits (x.csrV m) (8 * i + 7) (8 * i)) (bits v (8 * i + 7) (8 * i)) * 2 ^ (8 * i)) 0))
  | 0x3A2 => s.setHart h (x.setCsr m ((List.range 8).foldl (fun a i => a + pmpByte (bits (x.csrV m) (8 * i + 7) (8 * i)) (bits v (8 * i + 7) (8 * i)) * 2 ^ (8 * i)) 0))
  | _ =>
    if m = 0x351 ∨ m = 0x151 ∨ m = 0x251 then
      let (k, l) := x.fileOf h m
      s.iregPut h k l (x.csrV (selOf m)) v
    else if m = 0x35C ∨ m = 0x15C ∨ m = 0x25C then
      let (k, l) := x.fileOf h m
      match s.fileTop x k l with
      | some i => { s with msis := s.msis.erase (k, i) }
      | none => s
    else if 0x3B0 ≤ m ∧ m ≤ 0x3BF then
      let i := m - 0x3B0
      if bit (x.pmpCfg i) 7 ∨ (i < 15 ∧ bit (x.pmpCfg (i + 1)) 7 ∧ bits (x.pmpCfg (i + 1)) 4 3 = 1) then s else put m mask v
    else if 0xB00 ≤ m ∧ m ≤ 0xB1F then
      s.setHart h { x with pmu := SMap.set 0 (m - 0xB00) (v % 2 ^ 48) x.pmu }
    else put m mask v

end Sys2Proof.Machine
end

