-- ==== Sys2Proof/Machine/StylusRv.lean ====
section
/-!
DEFINITION. The base instructions of a Stylus thread: fetch from the loaded image, the lane address map (R79, R80, Table
STY-4), split accesses (R74, R75), long operations (R73) and the CSRs of Table STY-3.
-/

namespace Sys2Proof.Machine
open Sys2Proof

/-- Write a result and go on after an instruction of `k` bytes. -/
def Thread.retk (t : Thread) (r v k : Nat) : Thread :=
  { t.wr r (BitVec.ofNat 32 v) with pc := t.pc + BitVec.ofNat 32 k, run := .run, minstret := t.minstret + 1 }
/-- Go on at another address. -/
def Thread.jump (t : Thread) (r v pc : Nat) : Thread :=
  { t.wr r (BitVec.ofNat 32 v) with pc := BitVec.ofNat 32 pc, run := .run, minstret := t.minstret + 1 }

/-- The fetched instruction as a 32-bit one; none where a compressed encoding is reserved. -/
def fullWord (rv64 : Bool) (p : Nat × Nat) : Option Nat := if p.2 = 2 then Rv.expand rv64 p.1 else some p.1

/-! ### The lane address map -/

/-- What a part of an access reaches. -/
inductive StySpot where
  | tile (o : Nat)
  | reg (o : Nat)
  | dram (pa : Nat)
  | bad
  deriving DecidableEq, Repr
/-- Table STY-4 for `k` bytes at `a`. The sideband words are written by none but the agents of R136. -/
def Lane.spot (l : Lane) (th : Thread) (a k : Nat) (store : Bool) : StySpot :=
  let img := l.image th.bank
  if 0x10000000 ≤ a ∧ a + k ≤ 0x10800000 then
    let o := a - 0x10000000
    if store && (decide (larderBase img < o + k) || (decide (0x5D0000 < o + k) && decide (o < 0x5FE800))) then .bad else .tile o
  else if 0x20000000 ≤ a ∧ a + k ≤ 0x20010000 then
    (if store || k ≠ 4 || a % 4 ≠ 0 then .bad else .reg (a - 0x20000000))
  else if 0x80000000 ≤ a then
    let i := (a - 0x80000000) / 0x40000000
    let (b, z, at_) := imgWin img i
    let o := (a - 0x80000000) % 0x40000000
    if z < o + k ∨ !bit at_ (if store then 1 else 0) then .bad else .dram (b + o)
  else .bad
/-- An access in its parts, split at the 4-byte boundary (R74). -/
def styParts (a n : Nat) : List (Nat × Nat) :=
  let k := min n (4 - a % 4)
  if k < n then [(a, k), ((a + k) % 2 ^ 32, n - k)] else [(a, n)]
/-- Whether a part of an access reaches nothing: Table STY-4 gives it no place, or its DRAM is not installed (R29). -/
def State.styBad (s : State) (n : Nat) (th : Thread) (store : Bool) (p : Nat × Nat) : Bool :=
  match (s.lane n).spot th p.1 p.2 store with
  | .bad => true
  | .dram pa => decide (pa < dramBase ∨ pa + p.2 > s.dramTop)
  | _ => false
/-- The first byte of the first half that faults (R75). -/
def State.styFault (s : State) (n : Nat) (th : Thread) (a k : Nat) (store : Bool) : Option Nat :=
  ((styParts a k).find? (s.styBad n th store)).map (·.1)
/-- The bytes of one part of a load. -/
def State.styRead (s : State) (n : Nat) (th : Thread) (p : Nat × Nat) : State × Bytes :=
  match (s.lane n).spot th p.1 p.2 false with
  | .tile o => (s, (List.range p.2).flatMap (fun i => if 0x5D0000 ≤ o + i ∧ o + i < 0x5FE800 then s.tileBytes n (o + i) 1
      else memRead (s.lane n).tmem (o + i) 1))
  | .reg o =>
    let (s, v) := s.regRead (256 + n) (laneBase n + o) 0
    (s, Bytes.ofNatLE 4 v)
  | .dram pa => (s, s.dramRead pa p.2)
  | .bad => (s, [])
def State.styReadAll (s : State) (n : Nat) (th : Thread) (ps : List (Nat × Nat)) : State × Bytes :=
  ps.foldl (fun (a : State × Bytes) p =>
    let (s, b) := a.1.styRead n th p
    (s, a.2 ++ b)) (s, [])
def State.styWrite (s : State) (n : Nat) (th : Thread) (p : Nat × Nat) (b : Bytes) : State :=
  match (s.lane n).spot th p.1 p.2 true with
  | .tile o => s.modLane n (fun l => l.writeMem o b)
  | .dram pa => s.dramWriteBy (256 + n) pa b false
  | _ => s
/-- The loaded value of a register of 32 bits. -/
def styValue (b : Bytes) (signed : Bool) : Nat :=
  let v := Bytes.toNatLE b
  if signed then Rv.sx 32 (8 * b.length) v else v

/-! ### CSRs (Table STY-3) -/

/-- The value of a Stylus CSR. -/
def State.styCsr (s : State) (n t : Nat) (th : Thread) (c : Nat) : Option Nat :=
  let cyc := s.laneClk - (s.lane n).clk0
  match c with
  | 0xF14 => some t
  | 0x300 => some (b2n th.mie * 8 + b2n th.mpie * 128)
  | 0x305 => some ((s.lane n).mtvec t)
  | 0x304 => some th.mieBits.toNat
  | 0x344 => some th.mip.toNat
  | 0x340 => some th.mscratch.toNat
  | 0x341 => some th.mepc.toNat
  | 0x342 => some th.mcause.toNat
  | 0x343 => some th.mtval.toNat
  | 0xB00 => some (cyc % 2 ^ 32)
  | 0xB80 => some (cyc / 2 ^ 32 % 2 ^ 32)
  | 0xB02 => some (th.minstret % 2 ^ 32)
  | 0xB82 => some (th.minstret / 2 ^ 32 % 2 ^ 32)
  | 0xFC0 => some (s.twin.deviceId % 2 ^ 18 * 16 + n)
  | 0xFC1 => some th.kphase.toNat
  | 0xFC2 => some (s.lane n).bank
  | _ => none
/-- A write of a Stylus CSR; none for a read-only one. -/
def Thread.csrWrite (th : Thread) (c v : Nat) : Option Thread :=
  match c with
  | 0x300 => some { th with mie := bit v 3, mpie := bit v 7 }
  | 0x304 => some { th with mieBits := BitVec.ofNat 32 (v &&& 0xF0008) }
  | 0x340 => some { th with mscratch := BitVec.ofNat 32 v }
  | 0x341 => some { th with mepc := BitVec.ofNat 32 (v / 2 * 2) }
  | 0x342 => some { th with mcause := BitVec.ofNat 32 v }
  | 0x343 => some { th with mtval := BitVec.ofNat 32 v }
  | _ => none

/-! ### Instructions -/

/-- The encodings of Table STY-5, which commands of their own carry. -/
def xklane (i : Nat) : Bool :=
  let f := Rv.f3 i
  let g := Rv.f7 i
  if Rv.op i = 0x0B then (f = 0 && decide (g ≤ 4)) || (f = 1 && decide (g ≤ 1))
  else if Rv.op i = 0x2B then (f = 0 && decide (g ≤ 4)) || (f = 1 && decide (g ≤ 1)) || (f = 2 && decide (g ≤ 3)) || (f = 3 && decide (g ≤ 1))
  else false
def isLong (i : Nat) : Bool := Rv.op i = 0x33 && Rv.f7 i = 1 && decide (4 ≤ Rv.f3 i)
/-- The address and size of a load or store. -/
def Thread.accOf (th : Thread) (i : Nat) : Option (Nat × Nat) :=
  let z := 2 ^ (Rv.f3 i % 4)
  let a := fun (m : Nat) => ((th.rd (Rv.rs1 i)).toNat + m) % 2 ^ 32
  if Rv.op i = 0x03 ∧ Rv.f3 i ≠ 3 ∧ Rv.f3 i < 6 then some (a (Rv.immI 32 i), z)
  else if Rv.op i = 0x23 ∧ Rv.f3 i < 3 then some (a (Rv.immS 32 i), z)
  else none
/-- The first part of a load that reads DRAM for which `p` holds. -/
def State.dramPart (s : State) (n : Nat) (th : Thread) (a z : Nat) (p : Nat → Nat → Bool) : Option Nat :=
  ((styParts a z).find? (fun q => match (s.lane n).spot th q.1 q.2 false with
    | .dram pa => p pa q.2
    | _ => false)).map (·.1)
/-- A load: from tile memory at once; through a DRAM window or of a lane register the thread suspends (R80). Either way the
bytes are taken in issue order (R72). -/
def State.styLoad (s : State) (n t : Nat) (th : Thread) (i a z k : Nat) : State :=
  match s.styFault n th a z false with
  | some f => s.trap n t 5 (BitVec.ofNat 32 f)
  | none =>
    let ps := styParts a z
    let signed := decide (Rv.f3 i < 4)
    let bad := s.dramPart n th a z s.poisoned
    let quick := ps.all (fun p => match (s.lane n).spot th p.1 p.2 false with
      | .tile _ => true
      | _ => false)
    let (s, b) := s.styReadAll n th ps
    if quick then s.modThr n t (fun th => th.retk (Rv.rd i) (styValue b signed) k)
    else s.modThr n t (fun th => { th with run := .waitLoad (Rv.rd i) a z signed b bad })
/-- A store of both halves or of none. -/
def State.styStore (s : State) (n t : Nat) (th : Thread) (i a z k : Nat) : State :=
  match s.styFault n th a z true with
  | some f => s.trap n t 7 (BitVec.ofNat 32 f)
  | none =>
    let b := Bytes.ofNatLE z (th.rd (Rv.rs2 i)).toNat
    let s := ((styParts a z).foldl (fun (r : State × Nat) p =>
      (r.1.styWrite n th p (Bytes.slice b r.2 p.2), r.2 + p.2)) (s, 0)).1
    s.modThr n t (fun th => th.retk 0 0 k)
/-- A CSR instruction. -/
def State.styCsrInsn (s : State) (n t : Nat) (th : Thread) (i k : Nat) : State :=
  let c := bits i 31 20
  let f := Rv.f3 i
  let src := if 4 ≤ f then Rv.rs1 i else (th.rd (Rv.rs1 i)).toNat
  match s.styCsr n t th c with
  | none => s.trap n t 2 0
  | some v =>
    let new := if f % 4 = 1 then src else if f % 4 = 2 then v ||| src else v &&& Rv.not 32 src
    if f % 4 ≠ 1 ∧ Rv.rs1 i = 0 then s.modThr n t (fun th => th.retk (Rv.rd i) v k)
    else match th.csrWrite c new with
      | none => s.trap n t 2 0
      | some x => s.modThr n t (fun _ => x.retk (Rv.rd i) v k)
/-- One 32-bit instruction, fetched as `k` bytes. -/
def State.styInsn (s : State) (n t : Nat) (th : Thread) (i k : Nat) : State :=
  let pc := th.pc.toNat
  let a := (th.rd (Rv.rs1 i)).toNat
  let b := (th.rd (Rv.rs2 i)).toNat
  let ill := s.trap n t 2 0
  let put := fun (v : Option Nat) => match v with
    | some v => s.modThr n t (fun th => th.retk (Rv.rd i) v k)
    | none => ill
  let go := fun (r v pc : Nat) => s.modThr n t (fun th => th.jump r v pc)
  match Rv.op i with
  | 0x37 => put (some (Rv.immU 32 i))
  | 0x17 => put (some ((pc + Rv.immU 32 i) % 2 ^ 32))
  | 0x6F => go (Rv.rd i) (pc + k) (pc + Rv.immJ 32 i)
  | 0x67 => if Rv.f3 i = 0 then go (Rv.rd i) (pc + k) ((a + Rv.immI 32 i) % 2 ^ 32 / 2 * 2) else ill
  | 0x63 => match Rv.branch 32 (Rv.f3 i) a b with
    | none => ill
    | some true => go 0 0 (pc + Rv.immB 32 i)
    | some false => go 0 0 (pc + k)
  | 0x03 => match th.accOf i with
    | some (a, z) => s.styLoad n t th i a z k
    | none => ill
  | 0x23 => match th.accOf i with
    | some (a, z) => s.styStore n t th i a z k
    | none => ill
  | 0x13 => put (Rv.opImm 32 false i a)
  | 0x33 =>
    if isLong i then (s.lpmu n 22 34).modThr n t (fun th => th.retk (Rv.rd i) (Rv.mulDiv 32 (Rv.f3 i) a b) k)
    else put (Rv.base 32 (Rv.f7 i) (Rv.f3 i) a b)
  | 0x0F => if Rv.f3 i = 0 then go 0 0 (pc + k) else ill
  | 0x73 =>
    if Rv.f3 i = 0 then
      (if i = 0x73 then s.trap n t 11 0
       else if i = 0x00100073 then s.trap n t 3 0
       else if i = 0x30200073 then
         s.modThr n t (fun th => { (th.jump 0 0 th.mepc.toNat) with mie := th.mpie, mpie := true })
       else if i = 0x10500073 then go 0 0 (pc + k)
       else ill)
    else if Rv.f3 i = 4 then ill
    else s.styCsrInsn n t th i k
  | _ => ill
/-- The thread's next instruction, where `p` accepts it; an Xklane operation is a command of its own. -/
def State.styStep (s : State) (n t : Nat) (p : Thread → Nat → Bool) (any : Bool) : Res :=
  let th := s.thr n t
  match (s.lane n).fetch th with
  | none => if any then s.issueAny n t fun s th => s.trap n t 1 th.pc else .next s
  | some f => match fullWord false f with
    | none => if any then s.issueAny n t fun s _ => s.trap n t 2 0 else .next s
    | some i => if p th i then s.issueAny n t fun s th => s.styInsn n t th i f.2 else .next s

/-! ### Meanings -/

/-- STYLUS_RV32_INSTRUCTION (R72, R79, R450); `err` is what the instruction SRAM reports for the word fetched (Table KU-49). -/
def execStylusRv32Instruction (lane : LaneId) (t : ThreadId) (err : StoreErr) (s : State) : Res :=
  match err with
  | .none => s.styStep lane t (fun _ i => !xklane i) true
  | .single => (s.ras { code := 0x40C2, source := 7, inst := lane, flags := 1, requester := 256 + lane }).styStep lane t (fun _ i => !xklane i) true
  | .multi => s.issueAny lane t fun s th =>
    (s.ras { code := 0x4009, source := 7, inst := lane, requester := 256 + lane }).trap lane t 1 th.pc
/-- STYLUS_LONG_OPERATION (R73): DIV, DIVU, REM or REMU; the lane counts the 34 cycles of the stall. -/
def execStylusLongOperation (lane : LaneId) (t : ThreadId) (s : State) : Res := s.styStep lane t (fun _ i => isLong i) false
/-- STYLUS_SPLIT_ACCESS (R74, R75): a misaligned load or store. -/
def execStylusSplitAccess (lane : LaneId) (t : ThreadId) (s : State) : Res :=
  s.styStep lane t (fun th i => match th.accOf i with
    | some (a, z) => a % z ≠ 0
    | none => false) false
/-- STYLUS_DRAM_LOAD_RETURN (R80, Table KU-48). -/
def execStylusDramLoadReturn (lane : LaneId) (t : ThreadId) (dataError : Bool) (s : State) : Res :=
  let th := s.thr lane t
  match th.run with
  | .waitLoad rd a z signed b bad =>
    match (if dataError then s.dramPart lane th a z (fun _ _ => true) else bad) with
    | some p => .next (s.trap lane t 5 (BitVec.ofNat 32 p))
    | none =>
      let k := match (s.lane lane).fetch th with
        | some f => f.2
        | none => 4
      .next (s.modThr lane t (fun th => th.retk rd (styValue b signed) k))
  | _ => .next s

end Sys2Proof.Machine
end

