-- ==== Sys2Proof/Machine/HartInsn.lean ====
section
/-!
DEFINITION. HART_INSTRUCTION: a hart executes one RISC-V instruction (Table KU-37). Integer, control-flow, CSR, fence,
privileged and vendor instructions have their results here; floating-point and vector results are free values of Config.
-/

namespace Sys2Proof.Machine
open Sys2Proof

/-! ### Control flow (R241) -/

def isLink (r : Nat) : Bool := r = 1 || r = 5
/-- The return stack: a push discards the oldest of 32 entries. -/
def Hart.push (h : Hart) (a : D64) : Hart := { h with ras := (a :: h.ras).take 32 }
def Hart.pop (h : Hart) : Hart := { h with ras := h.ras.drop 1 }
/-- A branch or jump commits and trains the predictor (R240). -/
def Hart.jump (h : Hart) (rd link pc : Nat) : Hart :=
  { (h.wr rd (BitVec.ofNat 64 link)) with pc := BitVec.ofNat 64 pc, trained := true, wait := .none }.counts [2, 4, 5]
/-- A floating-point or vector register file is dirty: `f` is 13 for FS, 9 for VS. -/
def Hart.dirty (x : Hart) (f : Nat) : Hart :=
  let x := x.maskCsr 0x300 (3 * 2 ^ f) (3 * 2 ^ f)
  if x.virt then x.maskCsr 0x200 (3 * 2 ^ f) (3 * 2 ^ f) else x
def Hart.unitOff (h : Hart) (f : Nat) : Bool :=
  bits (h.csrV 0x300) (f + 1) f = 0 || (h.virt && bits (h.csrV 0x200) (f + 1) f = 0)
def State.illegal (s : State) (h : Nat) : State := s.hartTrap h 2 0
/-- An instruction that a guest may not run and a plain mode may. -/
def State.virtIll (s : State) (h : Nat) (x : Hart) : State := s.hartTrap h (if x.virt then 22 else 2) 0

/-! ### System instructions -/

/-- A CSR instruction. -/
def State.csrInsn (s : State) (h i : Nat) (x : Hart) : State :=
  let n := bits i 31 20
  let f := Rv.f3 i
  let src := if 4 ≤ f then Rv.rs1 i else (x.rd (Rv.rs1 i)).toNat
  let write := f % 4 = 1 || Rv.rs1 i ≠ 0
  match x.csrTrap n write with
  | some c => s.hartTrap h c 0
  | none =>
    let m := x.csrNum n
    let (s, v) := if f % 4 = 1 && Rv.rd i = 0 then (s, 0) else s.csrGet h m
    let base := if m = 0x344 then x.csrV 0x344 else v
    let new := if f % 4 = 1 then src else if f % 4 = 2 then base ||| src else base &&& Rv.not 64 src
    let s := if write then s.csrPut h m new else s
    s.modHart h (fun x => x.ret (Rv.rd i) (BitVec.ofNat 64 v) x.ilen)
/-- MRET and SRET. -/
def Hart.mret (x : Hart) : Hart :=
  let st := x.csrV 0x300
  let p := bits st 12 11
  let st := setBits (setBits (setBits st 3 3 (bits st 7 7)) 7 7 1) 12 11 0
  let st := setBits (if p ≠ 3 then setBits st 17 17 0 else st) 39 39 0
  { ((x.setCsr 0x300 st).jump 0 0 (x.csrV 0x341)) with priv := p, virt := bit (x.csrV 0x300) 39 && p ≠ 3 }
def Hart.sret (x : Hart) : Hart :=
  if x.virt then
    let st := x.csrV 0x200
    { ((x.setCsr 0x200 (setBits (setBits (setBits st 1 1 (bits st 5 5)) 5 5 1) 8 8 0)).jump 0 0 (x.csrV 0x241)) with priv := bits st 8 8 }
  else
    let st := x.csrV 0x300
    let hs := x.csrV 0x600
    let x := (x.setCsr 0x300 (setBits (setBits (setBits (setBits st 1 1 (bits st 5 5)) 5 5 1) 8 8 0) 17 17 0)).setCsr 0x600 (setBits hs 7 7 0)
    { (x.jump 0 0 (x.csrV 0x141)) with priv := bits st 8 8, virt := bit hs 7 }
/-- EBREAK enters debug mode where dcsr says so, else it is a breakpoint. -/
def State.ebreak (s : State) (h : Nat) (x : Hart) : State :=
  let d := x.csrV 0x7B0
  let on := if x.virt then bit d (if x.priv = 1 then 17 else 16) else bit d (if x.priv = 3 then 15 else if x.priv = 1 then 13 else 12)
  if on then s.modHart h (fun x => x.debugMode 1)
  else s.hartTrap h 3 x.pc.toNat
/-- A fence of address translation: nothing is cached beyond the page tables in this model. -/
def State.tlbFence (s : State) (h : Nat) (x : Hart) (guest gvma : Bool) : State :=
  let st := x.csrV 0x300
  if guest then
    (if x.virt then s.hartTrap h 22 0
     else if x.priv = 0 ∨ (gvma && x.priv = 1 && bit st 20) then s.illegal h
     else s.modHart h (fun x => x.ret 0 0 x.ilen))
  else if x.priv = 0 then s.virtIll h x
  else if x.priv = 1 ∧ (if x.virt then bit (x.csrV 0x600) 20 else bit st 20) then s.virtIll h x
  else s.modHart h (fun x => x.ret 0 0 x.ilen)
/-- SYSTEM instructions with funct3 0. -/
def State.sysInsn (s : State) (h i : Nat) (x : Hart) : State :=
  let st := x.csrV 0x300
  let hs := x.csrV 0x600
  let done := s.modHart h (fun x => x.ret 0 0 x.ilen)
  if i = 0x73 then s.hartTrap h (if x.priv = 3 then 11 else if x.priv = 0 then 8 else if x.virt then 10 else 9) 0
  else if i = 0x00100073 then s.ebreak h x
  else if i = 0x30200073 then (if x.priv = 3 then s.modHart h Hart.mret else s.illegal h)
  else if i = 0x10200073 then
    (if x.priv = 0 then s.virtIll h x
     else if x.priv = 1 ∧ !x.virt ∧ bit st 22 then s.illegal h
     else if x.virt ∧ bit hs 22 then s.hartTrap h 22 0
     else s.modHart h Hart.sret)
  else if i = 0x10500073 then
    (if x.priv ≠ 3 ∧ bit st 21 then s.illegal h
     else if x.priv = 0 ∨ (x.virt ∧ bit hs 21) then s.virtIll h x
     else if s.localPend h then done else s.modHart h (fun x => { x with wait := .wfi }))
  else if Rv.rd i ≠ 0 then s.illegal h
  else match Rv.f7 i with
    | 0x09 => s.tlbFence h x false false
    | 0x0B => s.tlbFence h x false false
    | 0x0C => if Rv.rs1 i = 0 ∧ Rv.rs2 i ≤ 1 then (if x.priv = 0 then s.virtIll h x else done) else s.illegal h
    | 0x11 => s.tlbFence h x true false
    | 0x13 => s.tlbFence h x true false
    | 0x31 => s.tlbFence h x true true
    | 0x33 => s.tlbFence h x true true
    | _ => s.illegal h

/-! ### Direct memory operations of HLV, HSV and vector instructions -/

/-- A range translated at a given privilege. -/
def State.xlRangeAt (s : State) (h : Hart) (p : Nat) (v : Bool) (kind va n : Nat) : Rng :=
  (pageParts va n).foldl (fun r q => match r with
    | .ok ps => match s.xlateAt h p v kind q.1 with
      | .ok a => .ok (ps ++ [(a, q.2)])
      | .bad c g => .bad c q.1 g
    | b => b) (.ok [])
def State.partsDram (s : State) (ps : List (Nat × Nat)) : Bool := ps.all (fun p => s.region p.1 = .dram && s.region (p.1 + p.2 - 1) = .dram)
/-- HLV, HLVX and HSV (H extension): an access as the guest would make it, wherever its address leads (R28); HLVX needs memory
that can be executed. -/
def State.hyperAccess (s : State) (h i : Nat) (x : Hart) : State :=
  let store := Rv.f7 i % 2 = 1
  let z := 2 ^ (Rv.f7 i / 2 % 4)
  let signed := Rv.rs2 i = 0
  let hx := Rv.rs2 i = 3
  let ok := if store then Rv.rd i = 0 else Rv.rs2 i ≤ 1 ∨ (Rv.rs2 i = 3 ∧ (z = 2 ∨ z = 4))
  if Rv.f7 i < 0x30 ∨ 0x37 < Rv.f7 i ∨ !ok ∨ (Rv.rs2 i = 1 ∧ z = 8 ∧ !store) then s.illegal h
  else if x.virt then s.hartTrap h 22 0
  else if x.priv = 0 ∧ !bit (x.csrV 0x600) 9 then s.illegal h
  else
    let va := (x.rd (Rv.rs1 i)).toNat
    let map := fun (c : Nat) => if hx then (if c = 12 then 13 else if c = 20 then 21 else 5) else c
    match s.xlRangeAt x (bits (x.csrV 0x600) 8 8) true (if store then 2 else if hx then 0 else 1) va z with
    | .bad c t g => s.hartFault h (map c) t g
    | .ok ps =>
      let rom := ps.all (fun p => s.region p.1 = .rom && s.region (p.1 + p.2 - 1) = .rom)
      if !s.partsDram ps ∧ !(rom && !store) then
        if hx ∨ rom then s.hartFault h (if store then 7 else 5) va 0
        else
          let kind := if store then AccKind.store else .load
          let r := fun (k : Nat) => (Fin.ofNat 32 k : XReg)
          s.accessIo h ⟨kind, z, signed, r (Rv.rd i), r (Rv.rs1 i), r (Rv.rs2 i), 0, .swap, false, false, false, false, .none⟩ va ps
      else if s.partsBad ps then
        (if store then (s.rasDropped h ((ps.headD (0, 0)).1 / 64)).modHart h (fun x => x.ret 0 0 x.ilen) else s.dataFault h 1 va)
      else if store then (s.storeAt h ps (Bytes.ofNatLE z (x.rd (Rv.rs2 i)).toNat)).modHart h (fun x => (x.ret 0 0 x.ilen).counts [12])
      else
        let v := Bytes.toNatLE (s.partsRead ps)
        s.modHart h (fun x => (x.ret (Rv.rd i) (if signed then sext v z else BitVec.ofNat 64 v) x.ilen).counts [11])

/-! ### Vector configuration and memory (V 1.0, VLEN 256, ELEN 64) -/

/-- VLMAX of a vtype; none for one that is not supported. -/
def vlmax (vt : Nat) : Option Nat :=
  let sew := 8 * 2 ^ bits vt 5 3
  let m := bits vt 2 0
  let n := if m < 4 then 256 * 2 ^ m / sew else 256 / 2 ^ (8 - m) / sew
  if vt ≥ 256 ∨ 64 < sew ∨ m = 4 ∨ (4 < m ∧ 64 / 2 ^ (8 - m) < sew) ∨ n = 0 then none else some n
/-- VSETVLI, VSETIVLI and VSETVL. -/
def Hart.vset (x : Hart) (i : Nat) : Hart :=
  let imm := bits i 31 30 = 3
  let vt := if imm then bits i 29 20 else if bit i 31 then (x.rd (Rv.rs2 i)).toNat else bits i 30 20
  let keep := !imm && Rv.rs1 i = 0 && Rv.rd i = 0
  let (vt, vl) := match vlmax vt with
    | none => (2 ^ 63, 0)
    | some n => (vt, if imm then min (Rv.rs1 i) n else if keep then min (x.csrV 0xC20) n
        else if Rv.rs1 i = 0 then n else min (x.rd (Rv.rs1 i)).toNat n)
  ((((x.setCsr 0xC20 vl).setCsr 0xC21 vt).setCsr 8 0).dirty 9).ret (Rv.rd i) (BitVec.ofNat 64 vl) x.ilen
def Hart.vreg (x : Hart) (r : Nat) : Nat := (SMap.get 0 (r % 32) x.v).toNat
/-- Element `k` of `z` bytes in the group that begins at `r`. -/
def Hart.vget (x : Hart) (r z k : Nat) : Nat := x.vreg (r + k * z / 32) / 2 ^ (8 * (k * z % 32)) % 2 ^ (8 * z)
def Hart.vput (x : Hart) (r z k v : Nat) : Hart :=
  let q := (r + k * z / 32) % 32
  let o := 8 * (k * z % 32)
  x.wrV q (BitVec.ofNat 256 (setBits (x.vreg q) (o + 8 * z - 1) o v))
/-- One element of a vector memory instruction: register, element number, offset from the base, bytes. -/
structure VElem where
  reg : Nat
  k : Nat
  off : Nat
  z : Nat
/-- The elements a vector load or store touches, in order; none for a reserved encoding. -/
def Hart.velems (x : Hart) (i : Nat) : Option (List VElem) :=
  let mop := bits i 27 26
  let nf := bits i 31 29 + 1
  let w := Rv.f3 i
  let z := if w = 0 then 1 else 2 ^ (w - 4)
  let vl := x.csrV 0xC20
  let vt := x.csrV 0xC21
  let st := x.csrV 8
  let lumop := Rv.rs2 i
  let vd := Rv.rd i
  let sew := 2 ^ bits vt 5 3
  let m8 := let m := bits vt 2 0; if m < 4 then 8 * 2 ^ m else 8 / 2 ^ (8 - m)
  let seq := fun (n : Nat) => (List.range n).filter (fun k => st ≤ k)
  if bit i 28 then none
  else if mop = 0 ∧ lumop = 8 then
    (if bit i 25 && [1, 2, 4, 8].contains nf && vd % nf = 0 then some ((seq (32 * nf / z)).map (fun k => ⟨vd, k, k * z, z⟩)) else none)
  else if bit vt 63 then none
  else if mop = 0 ∧ lumop = 11 then (if bit i 25 && w = 0 && nf = 1 then some ((seq ((vl + 7) / 8)).map (fun k => ⟨vd, k, k, 1⟩)) else none)
  else if mop = 0 ∧ lumop ≠ 0 ∧ lumop ≠ 16 then none
  else
    let dz := if mop % 2 = 1 then sew else z
    let emul8 := if mop % 2 = 1 then m8 else m8 * z / sew
    let grp := max 1 (emul8 / 8)
    if emul8 = 0 ∨ 64 < emul8 ∨ vd % grp ≠ 0 ∨ 8 < grp * nf ∨ 32 < vd + grp * nf then none
    else some ((seq vl).flatMap (fun k =>
      if !bit i 25 && !bit (x.vreg 0) k then []
      else (List.range nf).map (fun f =>
        let o := match mop with
          | 0 => (k * nf + f) * z
          | 2 => (k * (x.rd (Rv.rs2 i)).toNat + f * z) % 2 ^ 64
          | _ => x.vget (Rv.rs2 i) z k + f * dz
        ⟨vd + f * grp, k, o, dz⟩)))
/-- Vector accesses reach DRAM and lane tile windows (Table KU-37); an element's bytes, or the fault it takes. -/
def State.velemXl (s : State) (h kind va z : Nat) : Rng :=
  match s.xlRange h kind va z with
  | .ok ps =>
    let a := (ps.headD (0, 0)).1
    if s.partsDram ps then .ok ps
    else if s.region a = .tile ∧ va % z = 0 then .ok ps else .bad (afCause kind) va 0
  | b => b
/-- The elements one after the other; one that faults leaves its number in vstart, or ends a fault-only-first load. -/
def State.vmem (h i : Nat) (store ff : Bool) (base : Nat) : List VElem → State → State
  | [], s => s.modHart h (fun x => (((x.setCsr 8 0).dirty 9).ret 0 0 x.ilen).counts (if store then [12, 13] else [11, 13]))
  | e :: es, s =>
    let va := (base + e.off) % 2 ^ 64
    let kind := if store then 2 else 1
    let stop := fun (f : State → State) =>
      if ff && e.k ≠ 0 then (s.modHart h (fun x => (((x.setCsr 0xC20 e.k).setCsr 8 0).dirty 9 |>.ret 0 0 x.ilen).counts [11, 13]))
      else f (s.modHart h (fun x => x.setCsr 8 e.k))
    match s.velemXl h kind va e.z with
    | .bad c t g => stop (fun s => s.xlFault h kind c t g)
    | .ok ps =>
      let pa := (ps.headD (0, 0)).1
      if s.partsDram ps then
        if s.partsBad ps then
          (if store then State.vmem h i store ff base es (s.rasDropped h (pa / 64)) else stop (fun s => s.dataFault h 1 va))
        else if store then State.vmem h i store ff base es (s.storeAt h ps (Bytes.ofNatLE e.z ((s.hart h).vget e.reg e.z e.k)))
        else
          let v := Bytes.toNatLE (s.partsRead ps)
          let s := (partLines ps).foldl (fun (s : State) l => if s.mem.l2St h l = 0 then s.obtain h l false false true else s) s
          State.vmem h i store ff base es (s.modHart h (fun x => x.vput e.reg e.z e.k v))
      else if store then
        match s.ioWrite h pa (Bytes.ofNatLE e.z ((s.hart h).vget e.reg e.z e.k)) true with
        | (s, .ok _) => State.vmem h i store ff base es (s.hcount h 48)
        | _ => stop (fun s => s.hartFault h 7 va 0)
      else match s.ioRead h pa e.z true with
        | (s, .ok b) => State.vmem h i store ff base es ((s.hcount h 48).modHart h (fun x => x.vput e.reg e.z e.k (Bytes.toNatLE b)))
        | _ => stop (fun s => s.hartFault h 5 va 0)

/-! ### Floating-point and vector arithmetic -/

/-- A NaN-boxed value of `z` bytes. -/
def boxed (z v : Nat) : D64 := BitVec.ofNat 64 (2 ^ 64 - 2 ^ (8 * z) + v % 2 ^ (8 * z))
def unbox (z : Nat) (v : D64) : Nat :=
  if z = 8 ∨ v.toNat / 2 ^ (8 * z) = 2 ^ (64 - 8 * z) - 1 then v.toNat % 2 ^ (8 * z)
  else if z = 4 then 0x7FC00000 else 0x7E00
/-- Bytes of a floating-point format; none for Q. -/
def fmtBytes (f : Nat) : Option Nat := match f with
  | 0 => some 4
  | 1 => some 8
  | 2 => some 2
  | _ => none
/-- An F, D or Zfh instruction: sign injection and moves exactly, the others with a free result and free flags. -/
def State.fpInsn (s : State) (h i : Nat) (x : Hart) : State :=
  let fr := fun (r : Nat) => (SMap.get 0 r x.f)
  let f5 := bits i 31 27
  let rm := Rv.f3 i
  let dyn := x.csrV 2
  let rmOk := rm ≤ 4 ∨ (rm = 7 ∧ dyn ≤ 4)
  let ops := [(fr (Rv.rs1 i)).toNat, (fr (Rv.rs2 i)).toNat, (fr (bits i 31 27)).toNat, (x.rd (Rv.rs1 i)).toNat]
  let res := Config.fpResult i dyn ops
  let flags := Config.fpFlags i dyn ops % 32
  let fin := fun (y : Hart) => (y.dirty 13).ret 0 0 y.ilen |>.counts [14]
  let toF := fun (z : Nat) => s.modHart h (fun y => fin ((y.setCsr 1 (y.csrV 1 ||| flags)).wrF (Rv.rd i) (boxed z res.toNat)))
  let toX := fun (v : D64) (fl : Nat) => s.modHart h (fun y =>
    (((if fl = 0 then y else (y.setCsr 1 (y.csrV 1 ||| fl)).dirty 13).ret (Rv.rd i) v y.ilen).counts [14]))
  match fmtBytes (bits i 26 25) with
  | none => s.illegal h
  | some z =>
    if x.unitOff 13 then s.illegal h
    else if Rv.op i ≠ 0x53 then (if rmOk then toF z else s.illegal h)
    else match f5 with
      | 0x00 => if rmOk then toF z else s.illegal h
      | 0x01 => if rmOk then toF z else s.illegal h
      | 0x02 => if rmOk then toF z else s.illegal h
      | 0x03 => if rmOk then toF z else s.illegal h
      | 0x0B => if rmOk ∧ Rv.rs2 i = 0 then toF z else s.illegal h
      | 0x04 =>
        if 2 < rm then s.illegal h
        else
          let a := unbox z (fr (Rv.rs1 i))
          let b := unbox z (fr (Rv.rs2 i))
          let sa := bits a (8 * z - 1) (8 * z - 1)
          let sb := bits b (8 * z - 1) (8 * z - 1)
          let sg := if rm = 0 then sb else if rm = 1 then 1 - sb else (sa + sb) % 2
          s.modHart h (fun y => fin (y.wrF (Rv.rd i) (boxed z (setBits a (8 * z - 1) (8 * z - 1) sg))))
      | 0x05 => if rm ≤ 1 then toF z else s.illegal h
      | 0x08 => if rmOk ∧ Rv.rs2 i ≤ 2 ∧ Rv.rs2 i ≠ bits i 26 25 then toF z else s.illegal h
      | 0x14 => if rm ≤ 2 then toX (BitVec.ofNat 64 (res.toNat % 2)) flags else s.illegal h
      | 0x18 => if rmOk ∧ Rv.rs2 i ≤ 3 then toX res flags else s.illegal h
      | 0x1A => if rmOk ∧ Rv.rs2 i ≤ 3 then toF z else s.illegal h
      | 0x1C =>
        if Rv.rs2 i ≠ 0 then s.illegal h
        else if rm = 0 then toX (sext ((fr (Rv.rs1 i)).toNat % 2 ^ (8 * z)) z) 0
        else if rm = 1 then toX (BitVec.ofNat 64 (2 ^ (res.toNat % 10))) 0 else s.illegal h
      | 0x1E =>
        if Rv.rs2 i = 0 ∧ rm = 0 then s.modHart h (fun y => fin (y.wrF (Rv.rd i) (boxed z (x.rd (Rv.rs1 i)).toNat))) else s.illegal h
      | _ => s.illegal h

/-- How many registers a vector arithmetic instruction writes from its destination on. -/
def vdests (i vt : Nat) : Nat :=
  let f := Rv.f3 i
  let g := bits i 31 26
  let m := bits vt 2 0
  let l := if m < 4 then 2 ^ m else 1
  let mv := f = 2 ∨ f = 6
  let fv := f = 1 ∨ f = 5
  let iv := f = 0 ∨ f = 3 ∨ f = 4
  if iv ∧ ((0x18 ≤ g ∧ g ≤ 0x1F) ∨ g = 0x11 ∨ g = 0x13 ∨ g = 0x30 ∨ g = 0x31) then 1
  else if fv ∧ ((0x18 ≤ g ∧ g ≤ 0x1F) ∨ g = 0x10) then 1
  else if f = 1 ∧ (g = 1 ∨ g = 3 ∨ g = 5 ∨ g = 7 ∨ g = 0x31 ∨ g = 0x33) then 1
  else if f = 2 ∧ (g ≤ 7 ∨ (0x18 ≤ g ∧ g ≤ 0x1F) ∨ (g = 0x14 ∧ Rv.rs1 i < 16)) then 1
  else if f = 6 ∧ g = 0x10 then 1
  else if f = 3 ∧ g = 0x27 then Rv.rs1 i % 8 + 1
  else if (mv ∨ fv) ∧ 0x30 ≤ g then (if m < 4 then 2 * l else 1)
  else if f = 1 ∧ g = 0x12 ∧ 8 ≤ Rv.rs1 i ∧ Rv.rs1 i < 16 then (if m < 4 then 2 * l else 1)
  else l
/-- A vector arithmetic instruction: the destination takes free values, and nothing else changes but what the instruction
accrues. -/
def State.vecInsn (s : State) (h i : Nat) (x : Hart) : State :=
  let f := Rv.f3 i
  let g := bits i 31 26
  let vt := x.csrV 0xC21
  let vl := x.csrV 0xC20
  let all := (List.range 32).map (fun r => SMap.get 0 r x.v)
  let ops := [vt, vl, x.csrV 8, x.csrV 2, x.csrV 10, (x.rd (Rv.rs1 i)).toNat, (SMap.get 0 (Rv.rs1 i) x.f).toNat]
  let fin := fun (y : Hart) => (((y.setCsr 8 0).dirty 9).ret 0 0 y.ilen).counts [13]
  let res := Config.vecScalar i vt all
  if x.unitOff 9 ∨ bit vt 63 ∨ ((f = 1 ∨ f = 5) ∧ x.unitOff 13) then s.illegal h
  else if Rv.op i = 0x57 ∧ f = 2 ∧ g = 0x10 then
    s.modHart h (fun y => (((y.setCsr 8 0).dirty 9).ret (Rv.rd i) res y.ilen).counts [13])
  else if Rv.op i = 0x57 ∧ f = 1 ∧ g = 0x10 then
    s.modHart h (fun y => fin ((y.wrF (Rv.rd i) (boxed (2 ^ bits vt 5 3) res.toNat)).dirty 13))
  else if Rv.op i = 0x57 ∧ f = 3 ∧ g = 0x27 then
    s.modHart h (fun y => fin ((List.range (vdests i vt)).foldl (fun (y : Hart) r =>
      y.wrV ((Rv.rd i + r) % 32) (SMap.get 0 ((Rv.rs2 i + r) % 32) x.v)) y))
  else if vl = 0 then s.modHart h fin
  else
    let sat := (f = 0 ∨ f = 3 ∨ f = 4) && ((decide (0x20 ≤ g) && decide (g ≤ 0x23)) || g = 0x27 || g = 0x2E || g = 0x2F)
    s.modHart h (fun y =>
      let y := (List.range (vdests i vt)).foldl (fun (y : Hart) r =>
        y.wrV ((Rv.rd i + r) % 32) (Config.vecResult i r ops all (Rv.rs2 i))) y
      let y := if f = 1 ∨ f = 5 then (y.setCsr 1 (y.csrV 1 ||| Config.fpFlags i vt ops % 32)).dirty 13 else y
      let y := if sat then y.setCsr 9 ((y.csrV 9 + Config.fpFlags i vt ops) % 2) else y
      fin y)

/-! ### One instruction -/

/-- The scalar access an instruction word names. -/
def accessOf (i : Nat) : Option MemAccess :=
  let f := Rv.f3 i
  let reg := fun (n : Nat) => (Fin.ofNat 32 n : XReg)
  let mk := fun (k : AccKind) (z : Nat) (sg : Bool) (imm : Int) (op : AmoOp) (fp : Bool) => some
    ({ kind := k, size := z, signed := sg, rd := reg (Rv.rd i), rs1 := reg (Rv.rs1 i), rs2 := reg (Rv.rs2 i), imm := imm, op := op,
       vector := false, fp := fp, wrongPath := false, dataError := false } : MemAccess)
  let li := Rv.toS 64 (Rv.immI 64 i)
  let si := Rv.toS 64 (Rv.immS 64 i)
  match Rv.op i with
  | 0x03 => if f = 7 then none else mk .load (2 ^ (f % 4)) (decide (f < 4)) li .swap false
  | 0x07 => if 1 ≤ f ∧ f ≤ 3 then mk .load (2 ^ f) false li .swap true else none
  | 0x23 => if f < 4 then mk .store (2 ^ f) false si .swap false else none
  | 0x27 => if 1 ≤ f ∧ f ≤ 3 then mk .store (2 ^ f) false si .swap true else none
  | 0x2F =>
    if f ≠ 2 ∧ f ≠ 3 then none
    else
      let amo := fun (o : AmoOp) => mk .amo (2 ^ f) true 0 o false
      match bits i 31 27 with
      | 0x02 => if Rv.rs2 i = 0 then mk .lr (2 ^ f) true 0 .swap false else none
      | 0x03 => mk .sc (2 ^ f) true 0 .swap false
      | 0x01 => amo .swap
      | 0x00 => amo .add
      | 0x04 => amo .xor
      | 0x08 => amo .or
      | 0x0C => amo .and
      | 0x10 => amo .min
      | 0x14 => amo .max
      | 0x18 => amo .minu
      | 0x1C => amo .maxu
      | _ => none
  | _ => none
/-- MISC-MEM: fences and PAUSE, FENCE.I, and the cache-block instructions. -/
def State.miscMem (s : State) (h i : Nat) (x : Hart) : State :=
  let f := Rv.f3 i
  if f = 0 ∨ f = 1 then s.modHart h (fun x => x.ret 0 0 x.ilen)
  else if f = 2 ∧ Rv.rd i = 0 then
    match bits i 31 20 with
    | 0 => s.cbo h (Rv.rs1 i) 2 x
    | 1 => s.cbo h (Rv.rs1 i) 0 x
    | 2 => s.cbo h (Rv.rs1 i) 1 x
    | 4 => s.cboZero h (Rv.rs1 i) x
    | _ => s.illegal h
  else s.illegal h
/-- A Zicbop hint (R248, Table KU-37): it asks for the line where it may, and raises nothing. -/
def State.prefetchHint (s : State) (h i : Nat) (x : Hart) : State :=
  let va := ((x.rd (Rv.rs1 i)).toNat + Rv.immS 64 i / 32 * 32) % 2 ^ 64
  let kind := if Rv.rs2 i = 0 then 0 else if Rv.rs2 i = 1 then 1 else 2
  let s := s.modHart h (fun x => x.ret 0 0 x.ilen)
  match s.xlate h kind va with
  | .ok a =>
    let l := a / 64
    if s.region a = .dram ∧ s.mem.l2St h l = 0 ∧ !s.mem.fills.any (fun f => f.hart = h && f.line = l) then
      s.withMem (fun m => { m with fills := m.fills ++ [{ hart := h, line := l, own := kind = 2, insn := kind = 0 }] })
    else s
  | .bad _ _ => s
/-- The vendor encodings of custom-0 and custom-1 (Tables KU-33, KU-39); any other is illegal. -/
def State.vendorInsn (s : State) (n : HartId) (i : Nat) : State :=
  let r := fun (v : Nat) => (Fin.ofNat 32 v : XReg)
  let k := (Rv.op i, Rv.f3 i, Rv.f7 i)
  let rd := r (Rv.rd i)
  let a := r (Rv.rs1 i)
  if k = (0x0B, 0, 0) then s.hmCheck n rd a (r (Rv.rs2 i))
  else if Rv.rs2 i ≠ 0 then s.illegal n
  else if k = (0x0B, 0, 1) then s.hmStep n rd a
  else if k = (0x0B, 0, 2) then s.tileCheck n rd a
  else if k = (0x2B, 0, 0) then s.jrnAppend n rd a
  else if k = (0x2B, 1, 1) then s.beatWait n rd a
  else if k = (0x2B, 1, 0) ∧ Rv.rs1 i = 0 then s.beatRead n rd
  else s.illegal n
/-- One 32-bit instruction, fetched as `k` bytes (recorded in `ilen`). -/
def State.hartInsn (s : State) (n : HartId) (i k : Nat) : State :=
  let h := n.val
  let s := s.modHart h (fun x => { x with ilen := k })
  let x := s.hart h
  let pc := x.pc.toNat
  let rd := Rv.rd i
  let a := (x.rd (Rv.rs1 i)).toNat
  let b := (x.rd (Rv.rs2 i)).toNat
  let put := fun (v : Option Nat) => match v with
    | some v => s.modHart h (fun x => x.ret rd (BitVec.ofNat 64 v) k)
    | none => s.illegal h
  let vmem := fun (store : Bool) =>
    if x.unitOff 9 then s.illegal h
    else match x.velems i with
      | none => s.illegal h
      | some es => State.vmem h i store (!store && bits i 27 26 = 0 && Rv.rs2 i = 16) a es s
  let acc := fun (fp : Bool) => match accessOf i with
    | some m => if fp && x.unitOff 13 then s.illegal h else
        (let s := s.access h m false
         if fp && !decide (m.kind = .store) then s.modHart h (fun x => if x.pc = BitVec.ofNat 64 pc then x else x.dirty 13) else s)
    | none => s.illegal h
  match Rv.op i with
  | 0x37 => put (some (Rv.immU 64 i))
  | 0x17 => put (some ((pc + Rv.immU 64 i) % 2 ^ 64))
  | 0x6F => s.modHart h (fun x => (if isLink rd then x.push (BitVec.ofNat 64 (pc + k)) else x).jump rd (pc + k) (pc + Rv.immJ 64 i))
  | 0x67 =>
    if Rv.f3 i ≠ 0 then s.illegal h
    else s.modHart h (fun x =>
      let x := if isLink (Rv.rs1 i) && Rv.rs1 i ≠ rd then x.pop else x
      (if isLink rd then x.push (BitVec.ofNat 64 (pc + k)) else x).jump rd (pc + k) ((a + Rv.immI 64 i) % 2 ^ 64 / 2 * 2))
  | 0x63 => match Rv.branch 64 (Rv.f3 i) a b with
    | none => s.illegal h
    | some t => s.modHart h (fun x => x.jump 0 0 (if t then pc + Rv.immB 64 i else pc + k))
  | 0x03 => acc false
  | 0x23 => acc false
  | 0x2F => acc false
  | 0x07 => if 1 ≤ Rv.f3 i ∧ Rv.f3 i ≤ 4 then acc true else vmem false
  | 0x27 => if 1 ≤ Rv.f3 i ∧ Rv.f3 i ≤ 4 then acc true else vmem true
  | 0x13 =>
    if Rv.f3 i = 6 ∧ rd = 0 ∧ (Rv.rs2 i = 0 ∨ Rv.rs2 i = 1 ∨ Rv.rs2 i = 3) then s.prefetchHint h i x
    else put (Rv.opImm 64 true i a)
  | 0x1B => put (Rv.opImm32 i a)
  | 0x33 => put ((Rv.base 64 (Rv.f7 i) (Rv.f3 i) a b).or (Rv.bitR 64 (Rv.f7 i) (Rv.f3 i) a b))
  | 0x3B => put (Rv.op32 i a b)
  | 0x0F => s.miscMem h i x
  | 0x73 =>
    if Rv.f3 i = 0 then s.sysInsn h i x
    else if Rv.f3 i = 4 then s.hyperAccess h i x
    else s.csrInsn h i x
  | 0x43 => s.fpInsn h i x
  | 0x47 => s.fpInsn h i x
  | 0x4B => s.fpInsn h i x
  | 0x4F => s.fpInsn h i x
  | 0x53 => s.fpInsn h i x
  | 0x57 => if Rv.f3 i = 7 then (if x.unitOff 9 then s.illegal h else s.modHart h (fun x => x.vset i)) else s.vecInsn h i x
  | 0x77 => s.vecInsn h i x
  | 0x0B => s.vendorInsn n i
  | 0x2B => s.vendorInsn n i
  | _ => s.illegal h
/-- The instruction of a fetched word: its 32-bit form and its length; none for an undefined compressed one. -/
def wordInsn (w : Nat) : Option (Nat × Nat) :=
  if w % 4 = 3 then some (w, 4) else (Rv.expand true (w % 65536)).map (fun i => (i, 2))
/-- The data accesses that triggers see of an instruction: scalar, hypervisor and vector loads and stores (R254). -/
def Hart.dataOf (x : Hart) (w : Nat) : List (Nat × Nat × Nat) := match wordInsn w with
  | none => []
  | some (i, _) => match accessOf i with
    | some a => x.dataAcc a
    | none =>
      let base := (x.rd (Rv.rs1 i)).toNat
      if Rv.op i = 0x73 ∧ Rv.f3 i = 4 then [(base, 2 ^ (Rv.f7 i / 2 % 4), if Rv.f7 i % 2 = 1 then 2 else 1)]
      else if (Rv.op i = 0x07 ∨ Rv.op i = 0x27) ∧ !(1 ≤ Rv.f3 i ∧ Rv.f3 i ≤ 4) ∧ !x.unitOff 9 then
        ((x.velems i).getD []).map (fun e => ((base + e.off) % 2 ^ 64, e.z, if Rv.op i = 0x27 then 2 else 1))
      else []
/-- The effect of a fetched word. -/
def State.hartWord (s : State) (hart : HartId) (w : Nat) : State := match wordInsn w with
  | some (i, k) => s.hartInsn hart i k
  | none => s.illegal hart
/-- HART_INSTRUCTION (R226, R229, R230, R233): the instruction of 16 or 32 bits that the hart has fetched. -/
def execHartInstruction (hart : HartId) (insn : W32) (s : State) : Res :=
  s.hartIssueOn hart (fun x => x.dataOf insn.toNat) fun s _ => s.hartWord hart insn.toNat

end Sys2Proof.Machine
end

