-- ==== Sys2Proof/Machine/Debug.lean ====
section
/-!
DEFINITION. The debug module (R254, R255, R335, R373): halting, registers and system-bus accesses behind the unlock, the
relock at its expiry, and the reset of the debug agent.
-/

namespace Sys2Proof.Machine
open Sys2Proof

/-- An access while locked: counted and recorded in Garret, nothing performed (R255). -/
def State.dmDeny (s : State) : State :=
  ({ s with pwr := { s.pwr with dmRefused := s.pwr.dmRefused + 1 } } : State).gRec { src := 0xD, agent := 275 }
/-- The debug agent learns that its command failed. -/
def State.dmFail (s : State) : State := { s with readErr := SMap.set 0 275 1 s.readErr }
/-- Leave debug mode: privilege and virtualization as dcsr says. -/
def Hart.resume (x : Hart) : Hart :=
  let d := x.csrV 0x7B0
  { x with halted := false, priv := (if bits d 1 0 = 2 then 3 else bits d 1 0), virt := bit d 5 && bits d 1 0 ≠ 3 }
/-- A halt request (R237, R239): a JRN.APPEND or an access that has left the hart completes, another instruction is
discarded and executed again after the resume. -/
def State.dmHalt (s : State) (h : Nat) : State :=
  let x := s.hart h
  if !x.run ∨ x.halted then s
  else
    let s := match x.wait with
      | .jrn _ => s
      | .pcie _ _ _ => s
      | _ => s.discard h
    s.modHart h (fun x => x.debugMode 3)
/-- The harts named, and those that share a group with one of them and that the unlock covers (R254, R255). -/
def State.dmGroup (s : State) (g : SMap Nat) (hs : List Nat) : List Nat :=
  hs ++ ((g.filter (fun p => decide (p.2 ≠ 0) && hs.any (fun h => SMap.get 0 h g = p.2) && !hs.contains p.1
    && s.str.unlockHarts.contains p.1)).map (·.1))
def State.dmHalts (s : State) (hs : List Nat) : State := (s.dmGroup s.pwr.haltGrp hs).foldl (fun s h => s.dmHalt h) s
def State.dmResumes (s : State) (hs : List Nat) : State :=
  (s.dmGroup s.pwr.resGrp hs).foldl (fun s h => if (s.hart h).halted then s.modHart h Hart.resume else s) s
/-- A halted hart's register by its abstract number: CSRs, then GPRs, then FPRs; dpc is its pc. -/
def State.dmRead (s : State) (h r : Nat) : Option (State × Nat) :=
  let x := s.hart h
  if r = 0x7B1 then some (s, x.pc.toNat)
  else if r = 0x7B0 then some (s, x.csrV r)
  else if r < 0x1000 then
    let m := { x with priv := 3, virt := false }
    if (m.csrTrap r false).isSome then none
    else
      let (t, v) := (s.setHart h m).csrGet h r
      some (t.modHart h (fun y => { y with priv := x.priv, virt := x.virt }), v)
  else if r < 0x1020 then some (s, (x.rd (r - 0x1000)).toNat)
  else if r < 0x1040 then some (s, (SMap.get 0 (r - 0x1020) x.f).toNat)
  else none
def State.dmWrite (s : State) (h r : Nat) (v : D64) : Option State :=
  let x := s.hart h
  if r = 0x7B1 then some (s.setHart h { x with pc := BitVec.ofNat 64 (v.toNat / 2 * 2) })
  else if r = 0x7B0 then some (s.setHart h (x.maskCsr r 0xFFFF v.toNat))
  else if r < 0x1000 then
    let m := { x with priv := 3, virt := false }
    if (m.csrTrap r true).isSome then none
    else some (((s.setHart h m).csrPut h r v.toNat).modHart h (fun y => { y with priv := x.priv, virt := x.virt }))
  else if r < 0x1020 then some (s.setHart h (x.wr (r - 0x1000) v))
  else if r < 0x1040 then some (s.setHart h (x.wrF (r - 0x1020) v))
  else none
/-- An Access Memory command: the halted hart reads, or writes `v`, with M-mode's rights or through its own translation. -/
def State.dmMem (s : State) (h a n : Nat) (virt : Bool) (v : Option D64) : Option State :=
  let x := s.hart h
  let kind := if v.isSome then 2 else 1
  let s0 := if virt then s else s.setHart h { x with priv := 3, virt := false }
  if !([1, 2, 4, 8].contains n) then none
  else match s0.xlRange h kind a n with
    | .bad _ _ _ => none
    | .ok ps =>
      let pa := (ps.headD (0, 0)).1
      if ps.all (fun p => s.region p.1 = .dram && s.region (p.1 + p.2 - 1) = .dram) then
        (if s.partsBad ps then none
          else match v with
            | none => some (s.answer 275 (Bytes.toNatLE (s.partsRead ps)))
            | some v => some ((s.storeAt h ps (Bytes.ofNatLE n v.toNat)).answer 275 0))
      else if pa % n ≠ 0 then none
      else match v with
        | none => (match s.ioRead h pa n false with
          | (s, .ok b) => some (s.answer 275 (Bytes.toNatLE b))
          | _ => none)
        | some v => (match s.ioWrite h pa (Bytes.ofNatLE n v.toNat) false with
          | (s, .ok _) => some (s.answer 275 0)
          | _ => none)
/-- The lines that a load or store of the program buffer needs are brought in first. -/
def State.dmFetch (s : State) (h i : Nat) : State :=
  match accessOf i with
  | none => s
  | some m =>
    let k := accK m.kind
    match s.xlRange h k (((s.hart h).rd m.rs1).toNat + m.imm).toNat (max 1 m.size) with
    | .bad _ _ _ => s
    | .ok ps => if ps.all (fun p => s.region p.1 = .dram) then
        (partLines ps).foldl (fun s l => if s.linePoisoned l then s else s.obtain h l false (decide (k = 2)) true) s else s
/-- Run the program buffer from word `i` to its EBREAK or its end, with M-mode's rights; an exception, or an access that
does not end at once, ends it with the hart as it was before that instruction. -/
def State.dmRun (s : State) (h : HartId) : Nat → Nat → Option State
  | 0, _ => some (s.answer 275 0)
  | fuel + 1, i =>
    let w := SMap.get 0 i s.pwr.progbuf
    if w = 0x00100073#32 then some (s.answer 275 0)
    else
      let x := s.hart h
      let t := (s.setHart h { x with priv := 3, virt := false }).dmFetch h w.toNat
      let u := t.hartWord h w.toNat
      let y := u.hart h
      let back := { y with halted := true, priv := x.priv, virt := x.virt, pc := x.pc }
      if SMap.get 0 53 y.pmu ≠ SMap.get 0 53 x.pmu ∨ y.wait ≠ .none then some (s.dmFail)
      else (u.setHart h back).dmRun h fuel (i + 1)
/-- A system-bus access of 8 to 64 bits under agent ID 275. -/
def State.busRead (s : State) (a n : Nat) : State :=
  if !([1, 2, 4, 8].contains n) ∨ a % n ≠ 0 then s.dmFail
  else if s.region a = .dram then (if s.poisoned a n then s.dmFail else s.answer 275 (s.dramLE a n))
  else match s.ioRead 275 a n false with
    | (s, .ok b) => s.answer 275 (Bytes.toNatLE b)
    | (s, _) => s.dmFail
def State.busWrite (s : State) (a n : Nat) (v : D64) : State :=
  let b := Bytes.ofNatLE n v.toNat
  if !([1, 2, 4, 8].contains n) ∨ a % n ≠ 0 then s.dmFail
  else if s.region a = .dram then (s.dramWriteBy 275 a b false).answer 275 0
  else match s.ioWrite 275 a b false with
    | (s, .ok _) => s.answer 275 0
    | (s, _) => s.dmFail
/-- The harts a command concerns; none for the system bus and the module's own registers. -/
def cmdHarts (c : DebugCmd) : Option (List Nat) := match c with
  | .halt h => some [h.val]
  | .resume h => some [h.val]
  | .hartReset h => some [h.val]
  | .readReg h _ => some [h.val]
  | .writeReg h _ _ => some [h.val]
  | .haltMask hs => some (hs.map (·.val))
  | .resumeMask hs => some (hs.map (·.val))
  | .group h _ _ => some [h.val]
  | .readMem h _ _ _ => some [h.val]
  | .writeMem h _ _ _ _ => some [h.val]
  | .runBuffer h => some [h.val]
  | _ => none
/-- Whether the unlock in force covers a command (R373). -/
def State.dmMay (s : State) (c : DebugCmd) : Bool := match cmdHarts c with
  | some hs => hs.all (fun h => s.str.unlockHarts.contains h)
  | none => match c with
    | .status => true
    | .progbuf _ _ => !s.str.unlockHarts.isEmpty
    | _ => s.str.unlockSysbus
/-- DEBUG_COMMAND (R254, R255). -/
def execDebugCommand (cmd : DebugCmd) (s : State) : Res :=
  if !s.dmMay cmd then .next s.dmDeny
  else
    let s : State := { s with pwr := { s.pwr with dmactive := true } }
    let only := fun (h : Nat) (r : Option State) => if (s.hart h).halted then r.getD s.dmFail else s.dmFail
    .next (match cmd with
      | .halt h => s.dmHalts [h.val]
      | .resume h => s.dmResumes [h.val]
      | .hartReset h => if s.pwr.released then s.hartReset h else s
      | .readReg h r => only h ((s.dmRead h r).map (fun p => p.1.answer 275 p.2))
      | .writeReg h r v => only h ((s.dmWrite h r v).map (fun t => t.answer 275 0))
      | .sysbusRead a n => s.busRead a n
      | .sysbusWrite a n v => s.busWrite a n v
      | .status => s.answer 275 (3 + 128 * b2n (!s.str.unlockHarts.isEmpty || s.str.unlockSysbus))
      | .haltMask hs => s.dmHalts (hs.map (·.val))
      | .resumeMask hs => s.dmResumes (hs.map (·.val))
      | .group h g r => { s with pwr := if r then { s.pwr with resGrp := SMap.set 0 h.val g.val s.pwr.resGrp }
                                        else { s.pwr with haltGrp := SMap.set 0 h.val g.val s.pwr.haltGrp } }
      | .readMem h a n virt => only h (s.dmMem h a n virt none)
      | .writeMem h a n virt v => only h (s.dmMem h a n virt (some v))
      | .progbuf i w => { s with pwr := { s.pwr with progbuf := SMap.set 0 i.val w s.pwr.progbuf } }
      | .runBuffer h => only h (s.dmRun h 16 0))
/-- DMACTIVE_CLEAR (R335): the debug agent is reset. -/
def execDmactiveClear (s : State) : Res :=
  .next (({ s with pwr := { s.pwr with
    dmactive := false, haltGrp := [], resGrp := [], progbuf := [] } } : State).agentReset 275)
/-- DEBUG_RELOCK (R373): at the expiry epoch the module relocks with its record, and halted harts are resumed. -/
def execDebugRelock (s : State) : Res :=
  let z := s.str
  if (z.unlockHarts.isEmpty ∧ !z.unlockSysbus) ∨ s.epoch < z.unlockExpiry then .next s
  else
    let s := s.policyRec 0x31 0 0 0 [] (Bytes.ofNatLE 32 (z.unlockHarts.foldl (fun a h => a ||| 2 ^ h) 0)
      ++ Bytes.ofNatLE 1 (b2n z.unlockSysbus) ++ Bytes.ofNatLE 8 z.unlockExpiry)
    .next { s with
      str := { s.str with unlockHarts := [], unlockSysbus := false, unlockExpiry := 0 },
      harts := s.harts.map (fun (p : Nat × Hart) => (p.1, if p.2.halted then p.2.resume else p.2)) }

end Sys2Proof.Machine
end

