-- ==== Sys2Proof/Machine/StnEmit.lean ====
section
/-!
DEFINITION. The Stencil engine's emit mode (Tables STN-7, STN-8), the canonical record (R104, R105), and the evaluation
of a whole run.
-/

namespace Sys2Proof.Machine
open Sys2Proof

/-- The state of an emission: `cuts` are the output lengths after each complete instruction, newest first. -/
structure ESt where
  pc : Nat := 0
  store : List FInst := []
  msg : Nat := 0
  calls : List Nat := []
  loops : List (Nat × Nat × Nat) := []
  conts : List (Nat × Bytes) := []
  opens : List (Bytes × Nat) := []
  out : Bytes := []
  cuts : List Nat := []
  drop : Bool := false
  subst : Bool := false
  pmap : Option Nat := none
  prange : Option Nat := none
  deriving DecidableEq, Repr

def ESt.err {α : Type} (s : ESt) (kind fld : Nat) : Except (SErr × ESt) α := .error ({ kind := kind, field := fld, pc := s.pc }, s)
def ESt.fault {α : Type} (s : ESt) : Except (SErr × ESt) α := .error ({ kind := 0, pc := s.pc, fault := true }, s)
def ESt.inst (s : ESt) : Nat := match s.loops with
  | (_, i, _) :: _ => i
  | [] => 0
/-- Write an instruction's output; inside a container nothing is complete until it closes. -/
def ESt.put (s : ESt) (b : Bytes) : ESt :=
  let o := s.out ++ b
  { s with out := o, cuts := if s.conts.isEmpty ∧ !b.isEmpty then o.length :: s.cuts else s.cuts, pc := s.pc + 1 }

/-- The length prefix of `n` units; none when the form cannot hold it (R96). -/
def lenPrefix (pfx w n : Nat) : Option Bytes :=
  let dec := fun (k : Nat) => if n < 10 ^ k then (encodeText pfx [] false (stnDecDigits k n)).map (·.1) else none
  let bcd := fun (k top : Nat) => if n ≤ top then (encodeText 6 [] false (stnDecDigits (2 * k) n)).map (·.1) else none
  match iLenc w with
  | 1 => dec 2 | 2 => dec 3 | 3 => dec 4
  | 4 => bcd 1 99 | 5 => bcd 2 999 | 6 => bcd 2 9999
  | 7 => if n < 256 then some (Bytes.ofNatBE 1 n) else none
  | 8 => if n < 65536 then some (Bytes.ofNatBE 2 n) else none
  | _ => some []
/-- Fill a FIXED field: zeros on the left of numbers, spaces on the right of text, zero bytes on the right of binary. -/
def padFixed (w : Nat) (t : List Nat) : List Nat :=
  let k := iSize w - t.length
  let c := iConv w
  if c = 3 then t.take 1 ++ List.replicate k 48 ++ t.drop 1
  else if c = 1 ∨ c = 2 ∨ c = 4 ∨ iEnc w = 6 ∨ iEnc w = 7 then List.replicate k 48 ++ t
  else if iEnc w = 8 then t ++ List.replicate k 0
  else t ++ List.replicate k 32
/-- Escape text (and, in attributes, quotes). -/
def xmlEscape (attr : Bool) (t : List Nat) : List Nat :=
  t.flatMap (fun c => if c = 38 then (ascii "&amp;").map (·.toNat) else if c = 60 then (ascii "&lt;").map (·.toNat)
    else if c = 34 ∧ attr then (ascii "&quot;").map (·.toNat) else [c])

/-- What a field-binding instruction writes: none when it is omitted; the last part says that a character was
substituted. An error is a kind of Table STN-14. -/
def ESt.field (s : ESt) (b : Bytes) (pfx w : Nat) : Except Nat (Option (List Nat × Bytes × Bool)) :=
  match storeGet s.store (iField w) s.inst with
  | none => if iM w then .error 0x04 else .ok none
  | some v0 =>
    let mv : Except Nat SVal := match s.pmap, v0 with
      | none, v => .ok v
      | some t, .str x => (match mapFind b t true x with
        | some y => .ok (.str y)
        | none => .error 0x0D)
      | some t, .bin x => (match mapFind b t true x with
        | some y => .ok (.bin y)
        | none => .error 0x0D)
      | some _, _ => .error 0x0D
    match mv with
    | .error k => .error k
    | .ok v =>
      if s.prange.any (fun r => !rangeOk b r v) then .error 0x0E
      else match convOut (iConv w) (stnCur b) v with
        | .error k => .error k
        | .ok t =>
          let ovf := if iConv w = 1 then 0x0E else if 2 ≤ iConv w ∧ iConv w ≤ 4 then 0x06 else 0x02
          if iOp w = 0x01 ∧ t.length > iSize w then .error ovf
          else
            let t := if iLenc w = 0 ∧ iOp w = 0x01 then padFixed w t else t
            if iOp w = 0x09 then .ok (some (t, utf8 (xmlEscape true t), false))
            else if iLenc w = 9 then .ok (some (t, utf8 (xmlEscape false t), false))
            else match encodeText (iEnc w) (stnCharset b) (bit w 22 && iOp w = 0x01) t with
              | none => .error 0x12
              | some (e, f) => match lenPrefix pfx w t.length with
                | none => .error 0x02
                | some p => .ok (some (t, p ++ e, f))
/-- Emit a field-binding instruction's bytes through `k`, or omit it (DROP). -/
def ESt.emitField (s : ESt) (b : Bytes) (pfx w : Nat) (k : ESt → Bytes → ESt) : Except (SErr × ESt) (ESt × Bool) :=
  let droppable := bit w 21 && !iM w && (iOp w = 0x01 || iOp w = 0x09)
  match s.field b pfx w with
  | .ok none => .ok ({ s with pc := s.pc + 1, drop := s.drop || droppable }, false)
  | .ok (some (_, e, f)) => .ok (k { s with subst := s.subst || f } e, false)
  | .error kd => if droppable then .ok ({ s with pc := s.pc + 1, drop := true }, false) else s.err kd (iField w)
/-- A TLV: tag, length, value (R102). -/
def tlvBytes (tag : Nat) (v : Bytes) : Option Bytes :=
  let t := Bytes.ofNatBE (if tag > 0xFFFF then 3 else if tag > 0xFF then 2 else 1) tag
  if v.length < 128 then some (t ++ Bytes.ofNatBE 1 v.length ++ v)
  else if v.length < 256 then some (t ++ [0x81#8] ++ Bytes.ofNatBE 1 v.length ++ v)
  else if v.length < 65536 then some (t ++ [0x82#8] ++ Bytes.ofNatBE 2 v.length ++ v)
  else none

/-- The bitmaps of the blocks that will be emitted (BMAP). -/
def ESt.bmap (s : ESt) (b : Bytes) (pfx w : Nat) : Except (SErr × ESt) (ESt × Bool) :=
  let set_ := ((ifbBits b (s.pc + 1) s.calls).filter (fun p =>
    let iw := stnInstr b p.2
    match blockField b (p.2 + 1) (iOpnd iw) with
    | none => true
    | some fw =>
      if iOp (stnInstr b (p.2 + 2)) = 0x04 then (storeGet s.store (iField fw) s.inst).isSome
      else match s.field b pfx fw with
        | .ok none => false
        | .ok _ => true
        | .error _ => !(bit fw 21 && !iM fw) && (storeGet s.store (iField fw) s.inst).isSome)).map (·.1)
  let hi3 := set_.any (· > 128)
  let hi2 := hi3 || set_.any (· > 64)
  if (hi2 ∧ iOpnd w < 2) ∨ (hi3 ∧ iOpnd w < 3) then s.err 0x03 0
  else
    let set_ := (if hi2 then [1] else []) ++ (if hi3 then [65] else []) ++ set_
    let one := fun (k : Nat) => (List.range 64).foldl (fun a i => if set_.contains (64 * k + i + 1) then a + 2 ^ (63 - i) else a) 0
    let word := fun (k : Nat) => if iEnc w = 8 then some (Bytes.ofNatBE 8 (one k))
      else (encodeText (iEnc w) (stnCharset b) false ((List.range 16).map (fun i =>
        let v := bits (one k) (63 - 4 * i) (60 - 4 * i)
        if v < 10 then 48 + v else 55 + v))).map (·.1)
    let ks := [0] ++ (if hi2 then [1] else []) ++ (if hi3 then [2] else [])
    match ks.foldr (fun k r => match word k, r with
        | some x, some y => some (x ++ y)
        | _, _ => none) (some []) with
    | some e => .ok (s.put e, false)
    | none => s.err 0x12 0

/-- One instruction in emit mode; true at END. -/
def ESt.stepOp (s : ESt) (b : Bytes) (pfx : Nat) : Except (SErr × ESt) (ESt × Bool) :=
  let w := stnInstr b s.pc
  if s.pc ≥ stnN b 32 4 ∨ codeReserved w then s.fault
  else
    let nx : Except (SErr × ESt) (ESt × Bool) := .ok ({ s with pc := s.pc + 1 }, false)
    let jmp := fun (s : ESt) (p : Nat) => (.ok ({ s with pc := p }, false) : Except (SErr × ESt) (ESt × Bool))
    let strOf := fun (i : Nat) => (stnStr b i).getD []
    let put := fun (e : Bytes) => (.ok (s.put e, false) : Except (SErr × ESt) (ESt × Bool))
    -- a container over the value of the instruction, in place of a field; constructed tags nest to a depth of 8 (R102)
    let opens := iOp (stnInstr b (s.pc + 1)) = 0x04
    let container : Except (SErr × ESt) (ESt × Bool) :=
      if iOp w = 0x05 ∧ (s.conts.filter (fun c => iOp c.1 = 0x05)).length ≥ 8 then s.err 0x11 (iField w)
      else jmp { s with conts := (w, s.out) :: s.conts, out := [] } (s.pc + 2)
    match iOp w with
    | 0x01 =>
      if opens then container else s.emitField b pfx w (fun x e => x.put e)
    | 0x02 => s.bmap b pfx w
    | 0x03 | 0x21 => match blockField b (s.pc + 1) (iOpnd w) with
      | some fw =>
        if (storeGet s.store (iField fw) s.inst).isSome then nx
        else if iM fw then s.err 0x04 (iField fw) else jmp s (iOpnd w)
      | none => nx
    | 0x04 => s.fault
    | 0x05 =>
      if opens then container else match tlvBytes (iOpnd w) [] with
        | some _ => s.emitField b pfx (setBits w 51 48 10) (fun x e => x.put ((tlvBytes (iOpnd w) e).getD []))
        | none => s.fault
    | 0x06 => match s.conts with
      | [] => s.fault
      | (fw, saved) :: cs =>
        let v := s.out
        if v.isEmpty then (if iM fw then s.err 0x04 (iField fw) else jmp { s with conts := cs, out := saved } (s.pc + 1))
        else
          let e : Option Bytes := if iOp fw = 0x05 then tlvBytes (iOpnd fw) v
            else if v.length > iSize fw then none else (lenPrefix pfx fw v.length).map (· ++ v)
          match e with
          | some e => .ok (({ s with conts := cs, out := saved }).put e, false)
          | none => s.err (if iOp fw = 0x05 then 0x09 else 0x02) (iField fw)
    | 0x07 =>
      let nm := strOf (iOpnd w)
      let e := ascii "<" ++ nm ++ (if s.opens.isEmpty then ascii " xmlns=\"" ++ strOf (iField w) ++ ascii "\"" else []) ++ ascii ">"
      let s' := s.put e
      .ok ({ s' with opens := (nm, s'.out.length) :: s.opens }, false)
    | 0x08 => match s.opens with
      | [] => s.fault
      | (nm, at_) :: os =>
        if s.out.length = at_ then
          let s := { s with out := s.out.dropLast, opens := os }
          .ok (s.put (ascii "/>"), false)
        else .ok (({ s with opens := os }).put (ascii "</" ++ nm ++ ascii ">"), false)
    | 0x09 => match s.opens with
      | [] => s.fault
      | (nm, _) :: os => s.emitField b pfx w (fun x e =>
          let x := ({ x with out := x.out.dropLast }).put (ascii " " ++ strOf (iSize w) ++ ascii "=\"" ++ e ++ ascii "\">")
          { x with opens := (nm, x.out.length) :: os })
    | 0x0A => put (strOf (iOpnd w))
    | 0x0B =>
      let t := stnDecDigits 1 (s.store.filter (fun x => x.id = iField w)).length
      if t.length > iSize w then s.err 0x0E (iField w)
      else
        let t := if iLenc w = 0 then List.replicate (iSize w - t.length) 48 ++ t else t
        (match encodeText (iEnc w) (stnCharset b) false t, lenPrefix pfx w t.length with
          | some (e, _), some p => put (p ++ e)
          | _, _ => s.err 0x02 (iField w))
    | 0x0C => nx
    | 0x20 =>
      let (_, kl, n, o) := stnTab b (iOpnd w)
      match (List.range n).find? (fun i => stnN b (o + i * (kl + 4) + kl + 2) 2 = s.msg) with
      | some i => jmp (s.put (Bytes.slice b (o + i * (kl + 4)) kl)) (stnN b (o + i * (kl + 4) + kl) 2)
      | none => s.err 0x13 0
    | 0x22 => jmp s (iOpnd w)
    | 0x23 =>
      let e := loopEndOf b (s.pc + 1)
      let again := match s.loops with
        | (p, i, n) :: r => if p = s.pc then some (i + 1, n, r) else none
        | [] => none
      match again with
      | some (i, n, r) => if i < n then jmp { s with loops := (s.pc, i, n) :: r } (s.pc + 1) else jmp { s with loops := r } (e + 1)
      | none =>
        let n := match blockField b (s.pc + 1) e with
          | some fw => min (iOpnd w) (s.store.filter (fun x => x.id = iField fw)).length
          | none => 0
        if n = 0 then jmp s (e + 1) else jmp { s with loops := (s.pc, 0, n) :: s.loops } (s.pc + 1)
    | 0x24 => match s.loops with
      | (p, _) :: _ => jmp s p
      | [] => s.fault
    | 0x25 => if s.calls.length ≥ 16 then s.fault else jmp { s with calls := (s.pc + 1) :: s.calls } (iOpnd w)
    | 0x26 => match s.calls with
      | p :: r => jmp { s with calls := r } p
      | [] => s.fault
    | 0x27 => .ok (s, true)
    | 0x28 => s.err (iOpnd w % 256) 0
    | 0x40 => .ok ({ s with pc := s.pc + 1, pmap := some (iOpnd w) }, false)
    | 0x41 => .ok ({ s with pc := s.pc + 1, prange := some (iOpnd w) }, false)
    | 0x42 | 0x43 => nx
    | _ => s.fault

/-- One instruction in emit mode. A prefix acts on the instruction that follows it and no further (Table STN-8). -/
def ESt.step (s : ESt) (b : Bytes) (pfx : Nat) : Except (SErr × ESt) (ESt × Bool) :=
  match s.stepOp b pfx with
  | .error e => .error e
  | .ok (t, e) => .ok (if isPrefix (iOp (stnInstr b s.pc)) then t else { t with pmap := none, prange := none }, e)
/-- Run a grammar in emit mode: the error, if any, and the state reached. -/
def emitLoop (b : Bytes) (pfx : Nat) : Nat → ESt → Option SErr × ESt
  | 0, s => (some { kind := 0, pc := s.pc, fault := true }, s)
  | fuel + 1, s => match s.step b pfx with
    | .error (e, s) => (some e, s)
    | .ok (s, true) => (none, s)
    | .ok (s, false) => emitLoop b pfx fuel s
def emitSide (b : Bytes) (side msg : Nat) (st : List FInst) : Option SErr × ESt :=
  emitLoop b (stnN b (39 + side) 1) stnFuel { pc := entryOf b side, store := st, msg := msg }

/-! ### The canonical record (R104) -/

def round8 (n : Nat) : Nat := (n + 7) / 8 * 8
/-- Directory order: field ID, then instance. -/
def insFInst (x : FInst) : List FInst → List FInst
  | [] => [x]
  | y :: r => if x.id < y.id ∨ (x.id = y.id ∧ x.inst < y.inst) then x :: y :: r else y :: insFInst x r
/-- The record from byte 32 on. -/
def canonBody (st : List FInst) (side id msg : Nat) : Bytes :=
  let fs := (st.filter (fun x => x.id < 0xF000)).foldl (fun l x => insFInst x l) []
  let base := 16 + 8 * fs.length
  let (dir, vals) := fs.foldl (fun (a : Bytes × Bytes) x =>
    let v := x.val.bytes
    let pad := Bytes.zeros (round8 (base + a.2.length) - (base + a.2.length))
    let vs := a.2 ++ pad
    (a.1 ++ Bytes.ofNatLE 2 x.id ++ Bytes.ofNatLE 1 x.val.type ++ Bytes.ofNatLE 1 (b2n x.second)
      ++ Bytes.ofNatLE 2 (base + vs.length) ++ Bytes.ofNatLE 2 v.length, vs ++ v)) ([], [])
  let len := base + vals.length
  Bytes.ofNatLE 2 len ++ Bytes.ofNatLE 2 fs.length ++ [1#8] ++ Bytes.ofNatLE 1 side ++ Bytes.ofNatLE 1 id ++ [0#8]
    ++ Bytes.ofNatLE 2 msg ++ Bytes.zeros 6 ++ dir ++ vals
/-- Read a canonical body: its fields and message index, or the offset of the first broken rule and the field it concerns. -/
def canonParse (bin b : Bytes) (second : Bool) : Except (Nat × Nat) (List FInst × Nat) :=
  let n := stnN b 2 2
  let base := 16 + 8 * n
  if b.length < 16 ∨ stnN b 0 2 ≠ b.length then .error (0, 0)
  else if n > 1024 ∨ b.length < base then .error (2, 0)
  else if stnN b 4 1 ≠ 1 then .error (4, 0)
  else if stnN b 5 1 ≠ 1 ∧ stnN b 5 1 ≠ 2 then .error (5, 0)
  else if stnN b 7 1 ≠ 0 then .error (7, 0)
  else if stnN b 10 6 ≠ 0 then .error (10, 0)
  else
    let r := (List.range n).foldl (fun (a : Except (Nat × Nat) (List FInst × Nat × Nat)) i => match a with
      | .error e => .error e
      | .ok (fs, last, end_) =>
        let d := 16 + 8 * i
        let id := stnN b d 2
        let ty := stnN b (d + 2) 1
        let off := stnN b (d + 4) 2
        let len := stnN b (d + 6) 2
        let dictOk := match stnDict bin id with
          | some (t, _, m) => t = ty ∧ ((t ≠ 4 ∧ t ≠ 5) ∨ len ≤ m)
          | none => true
        if id = 0 ∨ id ≥ 0xF000 ∨ id < last ∨ stnN b (d + 3) 1 > 1 ∨ !dictOk then .error (d, id)
        else if off ≠ round8 end_ ∨ off + len > b.length ∨ (Bytes.slice b end_ (off - end_)).any (· ≠ 0) then .error (d + 4, id)
        else match SVal.ofBytes ty (Bytes.slice b off len) with
          | none => .error (off, id)
          | some v =>
            let k := (fs.filter (fun x => x.id = id)).length
            .ok (fs ++ [({ id := id, inst := k, val := v, second := second } : FInst)], id, off + len)) (.ok ([], 0, base))
    match r with
    | .error e => .error e
    | .ok (fs, _, end_) => if end_ ≠ b.length then .error (end_, 0) else .ok (fs, stnN b 8 2)

/-! ### A whole run -/

/-- What a run computes: its code (0x0000, 0x1001, 0x1013, 0x1015, 0x10C1 or 0x10C2), the error, the mask, the output with the
lengths after each complete instruction, and whether the output is a canonical record. -/
structure SOut where
  code : Nat
  err : SErr := { kind := 0 }
  mask : Nat := 0
  out : Bytes := []
  cuts : List Nat := []
  canon : Bool := false
  deriving DecidableEq, Repr

/-- What a parse that ends must leave (R98, Table STN-3): every amount has both parts and a currency of the table, and every
REQUIRED field is held. `off` is where the source ends. -/
def stnEnd (bin : Bytes) (off : Nat) (st : List FInst) : Option SErr :=
  match st.find? (fun x => !x.val.currencyOk (stnCur bin)) with
  | some x => some { kind := 0x08, field := x.id, off := off }
  | none => ((List.range (stnN bin 12 2)).find? (fun i =>
      let e := stnN bin 16 4 + 8 * i
      bit (stnN bin (e + 3) 1) 0 && !(st.any (fun x => x.id = stnN bin e 2)))).map (fun i =>
        { kind := 0x04, field := stnN bin (stnN bin 16 4 + 8 * i) 2, off := off })
/-- Parse both inputs into the field store (R90, R105). -/
def stnParse (bin : Bytes) (src : Nat) (in1 : Bytes) (in2 : Option Bytes) (skip : Nat) (bs : Int) : Except SErr (List FInst × Nat) :=
  let canErr := fun (base : Nat) (e : Nat × Nat) => ({ kind := 0x14, field := e.2, off := base + e.1 } : SErr)
  let full := fun (st : List FInst) => decide (1024 < st.length) || decide (65536 < storeBytes st)
  let first : Except SErr (List FInst × Nat) := if src = 0 then
      (if in1.length < 32 then .error (canErr 0 (0, 0)) else match canonParse bin (in1.drop 32) false with
        | .ok (fs, m) => if full fs then .error { kind := 0x11, off := in1.length } else .ok (fs, m)
        | .error e => .error (canErr 32 e))
    else (match parseSide bin src in1 bs with
      | .ok s => .ok (s.store, s.msg)
      | .error e => .error e)
  match first with
  | .error e => .error e
  | .ok (st, msg) =>
    let second : Except SErr (List FInst) := match in2 with
      | none => .ok []
      | some b2 => match canonParse bin (b2.drop skip) true with
        | .ok (fs, _) => .ok fs
        | .error e => .error (canErr (2 ^ 31 + skip) e)
    match second with
    | .error e => .error e
    | .ok fs =>
      let st := st.filter (fun x => !fs.any (fun y => y.id = x.id)) ++ fs
      if full st then .error { kind := 0x11, off := 2 ^ 31 + skip }
      else match stnEnd bin in1.length st with
        | some e => .error e
        | none => .ok (st, msg)

/-- The run proper: parse, then emit (R90). -/
def stnEval (bin : Bytes) (id src dst : Nat) (validate : Bool) (in1 : Bytes) (in2 : Option Bytes) (skip : Nat) (bs : Int) : SOut :=
  match stnParse bin src in1 in2 skip bs with
  | .error e => { code := if e.fault then 0x1015 else 0x1001, err := e }
  | .ok (st, msg) =>
    if validate then { code := 0 }
    else if dst = 0 then
      let body := canonBody st src id msg
      if body.length > 65535 then { code := 0x1013, err := { kind := 0x11 } }
      else
        let out := Bytes.zeros 32 ++ body
        { code := 0, out := out, cuts := [out.length], canon := true }
    else
      let (e, s) := emitSide bin dst msg st
      let cuts := s.cuts.reverse
      match e with
      | some e => { code := if e.fault then 0x1015 else 0x1013, err := e, out := s.out, cuts := cuts }
      | none => { code := if s.drop then 0x10C1 else if s.subst then 0x10C2 else 0, mask := b2n s.drop + 2 * b2n s.subst,
                  out := s.out, cuts := cuts }

end Sys2Proof.Machine
end

