-- ==== Sys2Proof/Machine/Stencil.lean ====
section
/-!
DEFINITION. The Stencil engine of a lane (R89 to R92, R106 to R111, R454): taking a descriptor with its start checks,
and the end of a run with its completion record.
-/

namespace Sys2Proof.Machine
open Sys2Proof

/-! ### Descriptor fields (Table STN-12) -/

def sOp (d : Bytes) : Nat := bits (Bytes.le d 0 4) 3 0
def sSrc (d : Bytes) : Nat := bits (Bytes.le d 0 4) 5 4
def sDst (d : Bytes) : Nat := bits (Bytes.le d 0 4) 7 6
def sId (d : Bytes) : Nat := bits (Bytes.le d 0 4) 13 8
def sHandle (d : Bytes) : Nat := bits (Bytes.le d 0 4) 27 16
def sIn (d : Bytes) : Nat := Bytes.le d 4 4
def sIn2 (d : Bytes) : Nat := Bytes.le d 8 4
def sOut (d : Bytes) : Nat := Bytes.le d 16 4
def sCompl (d : Bytes) : Nat := Bytes.le d 20 4

/-- The stencil an ID resolves to for a run of thread `t`: the one in force when its phase was admitted (R93). -/
def Lane.stencilOf (l : Lane) (t id : Nat) : Bytes :=
  let g := match (l.thr t).phase with
    | some p => p.stnGen
    | none => l.stnGen
  match l.oldStencils.find? (fun p => p.1 % 64 = id ∧ p.1 / 64 ≥ g) with
  | some p => p.2
  | none => SMap.get [] id l.stencils

/-- The start checks of R454, in order. -/
def Lane.stnRefusal (l : Lane) (o : StnOp) : Option Code :=
  let d := o.desc
  let w := Bytes.le d 0 4
  let op := sOp d
  let bin := l.stencilOf o.thr (sId d)
  let held := l.stn.ctxs.any (fun c => c.h = sHandle d)
  if bits w 15 14 ≠ 0 ∨ bits w 31 28 ≠ 0 ∨ Bytes.le d 14 2 ≠ 0 ∨ Bytes.le d 24 8 ≠ 0 ∨ op = 0 ∨ op > 4
      ∨ (op ≠ 2 ∧ sSrc d = sDst d) ∨ (op = 1 ∧ sDst d = 3) ∨ (op ≤ 2 ∧ sSrc d = 3) ∨ sCompl d % 32 ≠ 0
      ∨ (l.msg (sHandle d)).isNone then some 0x1010
  else if op ≤ 2 ∧ (bin.isEmpty ∨ !hasSide bin (sSrc d) ∨ (op = 1 ∧ !hasSide bin (sDst d))) then some 0x1011
  else if (op ≥ 3 ∧ !held) ∨ (op ≤ 2 ∧ held) then some 0x1016
  else if (l.msg (sHandle d)).any (fun m => m.claim.isSome) then some 0x1017
  else if op = 3 ∧ (l.chain (sOut d)).isNone then some 0x1012
  else none
/-- The waiting descriptor whose booked start has come. -/
def StnEng.due (g : StnEng) (now : Nat) : Option StnOp :=
  (g.q.filter (fun o => decide (o.start ≤ now))).foldl (fun b o => match b with
    | none => some o
    | some x => if o.start < x.start then some o else some x) none
/-- The descriptor of operation `op` that the idle engine takes now: the one whose booked start has come, or else rebooked work
that fits an idle interval (R58, R92). -/
def StnEng.pick (g : StnEng) (now op : Nat) : Option StnOp :=
  match g.due now with
  | some o => if sOp o.desc = op then some o else none
  | none => g.q.find? (fun o => o.early && decide (sOp o.desc = op)
      && calFits g.cal (o.start, o.stop) now (o.stop - o.start))
/-- A suspended run is discarded. -/
def Lane.dropCtx (l : Lane) (h : Nat) : Lane := { l with stn := { l.stn with ctxs := l.stn.ctxs.filter (fun c => c.h ≠ h) } }
/-- The engine takes a descriptor of the row's operation, and checks it (R454). An ABORT acts when it is taken (R111). -/
def State.stnStart (s : State) (n op : Nat) : State :=
  let l := s.lane n
  match l.stn.run, l.stn.pick s.laneClk op with
  | none, some o =>
    let ref := l.stnRefusal o
    let r : StnRun := { op := o, startClk := s.laneClk, refusal := ref,
                        bin := if op ≤ 2 then l.stencilOf o.thr (sId o.desc) else [] }
    let s := s.modLane n (fun l => { l with stn := { l.stn with run := some r, q := l.stn.q.erase o } })
    if ref.isSome then s
    else if op = 4 then s.modLane n (fun l => l.dropCtx (sHandle o.desc))
    else s.modMsg n (sHandle o.desc) (fun m => { m with claim := some 4 })
  | _, _ => s
/-- TRANSLATE (R90). -/
def execTranslate (n : LaneId) (s : State) : Res := .next (s.stnStart n 1)
/-- VALIDATE (R106). -/
def execValidate (n : LaneId) (s : State) : Res := .next (s.stnStart n 2)
/-- RESUME (R111). -/
def execResume (n : LaneId) (s : State) : Res := .next (s.stnStart n 3)
/-- ABORT (R111). -/
def execAbort (n : LaneId) (s : State) : Res := .next (s.stnStart n 4)

/-! ### The end of a run -/

/-- A completion record (Table STN-13). -/
def stnRecord (code : Nat) (e : SErr) (kind inB outB unused step cycles : Nat) : Bytes :=
  Bytes.ofNatLE 2 code ++ Bytes.ofNatLE 1 kind ++ Bytes.ofNatLE 1 e.depth ++ Bytes.ofNatLE 2 e.field ++ Bytes.ofNatLE 2 e.item
    ++ Bytes.ofNatLE 4 e.off ++ Bytes.ofNatLE 4 inB ++ Bytes.ofNatLE 4 outB ++ Bytes.ofNatLE 4 unused ++ Bytes.ofNatLE 2 step
    ++ Bytes.ofNatLE 2 e.pc ++ Bytes.ofNatLE 4 cycles

/-- Write output bytes `from_` to `upto` into a chain, going on in its partly filled tile. -/
def Lane.stnWrite (l : Lane) (chain : List Nat) (out : Bytes) (from_ upto : Nat) : Lane :=
  ((chain.zip (List.range chain.length)).foldl (fun (l : Lane) (p : Nat × Nat) =>
    let a := 256 * p.2
    let lo := max a from_
    let hi := min (a + 256) upto
    if lo < hi then (l.writeMem (p.1 * 256 + (lo - a)) (Bytes.slice out lo (hi - lo))).seal p.1 (hi - a) else l) l)
/-- End a chain after its last written tile: the first unused tile, or 0xFFFF_FFFF (R109). -/
def Lane.stnCut (l : Lane) (chain : List Nat) (written : Nat) : Lane × Nat :=
  match chain.drop (cdiv written 256) with
  | [] => (l, noVal)
  | u :: _ =>
    match (chain.take (cdiv written 256)).getLast? with
    | none => (l, u)
    | some t =>
      let l := l.setSide t (setBits (l.sideW t) 55 41 endTile)
      (l.setSide u (setBits (l.sideW u) 57 57 1), u)
/-- Join a second chain behind a first (RESUME). -/
def Lane.joinChains (l : Lane) (a b : List Nat) : Lane :=
  match a.getLast?, b with
  | some t, u :: _ =>
    let l := l.setSide t (setBits (l.sideW t) 55 41 u)
    l.setSide u (setBits (l.sideW u) 57 57 0)
  | _, _ => l

/-- The engine is free; the chain it claimed is released. -/
def Lane.stnFree (l : Lane) : Lane :=
  ({ l with
    stn := { l.stn with run := none }
    msgs := l.msgs.map (fun (p : Nat × Msg) => if p.2.claim = some 4 then (p.1, { p.2 with claim := none }) else p)
    }.flushFrees).pruneStencils
/-- The engine is free, the record is written, and the tag completes (R109). -/
def State.stnFinish (s : State) (n : Nat) (r : StnRun) (code : Nat) (e : SErr) (kind inB outB unused cycles : Nat) : State :=
  let d := r.op.desc
  let step := match (s.lane n).msg (sHandle d) with
    | some m => m.hm.step
    | none => 0
  let rec_ := stnRecord code e kind inB outB unused step cycles
  let s := s.modLane n (fun l =>
    (if inTileMem (sCompl d) 32 then l.writeMem (sCompl d - 0x10000000) rec_ else l).stnFree)
  (s.lpmu n 14 cycles).tagDone n r.op.tag (BitVec.ofNat 16 code) none

/-- The lane cycles of a run segment (R91): a free value within the bound for the bytes it read and wrote. A RESUME has 16
cycles of setup in place of the fixed cost. -/
def stnCyc (w : Nat) (resume : Bool) (inB outB : Nat) : Nat :=
  w % ((if resume then 16 + cdiv (8 * outB) 15 else stnCycles inB outB) + 1)
/-- Write as much of a run's output as the chain and the booked maximum take, and end or suspend the run (R109, R110). `w` is
the free value of the segment's cycles. -/
def State.stnOutput (s : State) (n : Nat) (r : StnRun) (c : StnCtx) (chain : List Nat) (inB w : Nat) (resume : Bool) (e : SErr) : State :=
  let h := c.h
  let cap := 256 * chain.length
  let lim := if c.bounded then min cap c.outMax else cap
  let upto := (c.cuts.filter (· ≤ lim)).foldl max c.written
  let cycles := stnCyc w resume inB (upto - c.written)
  let (l, u) := ((((s.lane n).stnWrite chain c.out c.written upto).dropCtx h).stnCut chain upto)
  let s := s.setLane n l
  match c.cuts.find? (fun x => x > upto) with
  | some x =>
    let code := if x > cap then 0x1040 else 0x1041
    if l.stn.ctxs.length ≥ 8 then s.stnFinish n r 0x1042 { kind := 0 } 0 inB upto u cycles
    else
      let c' := { c with
        written := upto, chain := chain.take (cdiv upto 256), bounded := c.bounded && code = 0x1040, suspClk := s.laneClk }
      let s := s.modLane n (fun l => { l with stn := { l.stn with ctxs := l.stn.ctxs ++ [c'] } })
      (s.lpmu n 13 1).stnFinish n r code { kind := 0 } 0 inB upto u cycles
  | none =>
    let code := c.code.toNat
    if code = 0 ∨ 0x10C0 ≤ code ∧ code ≤ 0x10FF then
      match ((s.lane n).msg h).bind (fun m => s.hmKey m.hm) with
      | none => (s.hmFail n h 0 0x1204 endTile).stnFinish n r 0x1204 { kind := 0 } 0 inB upto u cycles
      | some k =>
        let tile := if upto = 0 then endTile else chain.getD 0 endTile
        let (s, step) := s.extend n h (0x100 + n) (outDigest k c.canon c.out) tile c.canon
        if step.isNone then (s.hmFail n h 0 0x1203 endTile).stnFinish n r 0x1203 { kind := 0 } 0 inB upto u cycles
        else
          let s := if c.canon then s.modMsg n h (fun m => { m with canonLen := c.out.length }) else s
          s.stnFinish n r code { kind := 0 } c.mask inB upto u cycles
    else s.stnFinish n r code e c.kind inB upto u cycles

/-- A RESUME goes on with its suspended run over the chain it supplies (R111). -/
def State.stnResume (s : State) (n : Nat) (r : StnRun) : State :=
  let d := r.op.desc
  let l := s.lane n
  match l.stn.ctxs.find? (fun c => c.h = sHandle d), l.chain (sOut d) with
  | some c, some more =>
    let w := s.freeWord.toNat
    let s := s.drew
    if c.chain.any (fun i => !sideAlloc (l.sideW i)) then
      (s.modLane n (fun l => l.dropCtx c.h)).stnFinish n r 0x1012 { kind := 0 } 0 0 c.written (sOut d) (stnCyc w true 0 0)
    else (s.setLane n (l.joinChains c.chain more)).stnOutput n r c (c.chain ++ more) 0 w true { kind := c.kind }
  | _, _ => s.stnFinish n r 0x1016 { kind := 0 } 0 0 0 noVal 64
/-- A TRANSLATE or VALIDATE: its chains, its integrity checks, then the stencil itself (R106, R107). -/
def State.stnRunFirst (s : State) (n : Nat) (r : StnRun) : State :=
  let d := r.op.desc
  let h := sHandle d
  let l := s.lane n
  let s := s.lpmu n 12 1
  let val := sOp d = 2
  let two := sIn2 d ≠ noVal
  let ins := [sIn d] ++ (if two then [sIn2 d] else [])
  let chains := ins.map l.chain
  let tiles := chains.flatMap (·.getD [])
  let inB := (l.content tiles).length
  let w := s.freeWord.toNat
  let s := s.drew
  let fail := fun (s : State) (code : Nat) (e : SErr) =>
    s.stnFinish n r code e e.kind inB 0 (if val then noVal else sOut d) (stnCyc w false inB 0)
  if chains.any (·.isNone) ∨ (!val ∧ (l.chain (sOut d)).isNone) then fail s 0x1012 { kind := 0 }
  else match l.badTile tiles with
  | some bad => fail (s.hmFail n h 0 0x1201 bad) 0x1201 { kind := 0 }
  | none =>
    let m := (l.msg h).getD {}
    let vc := s.verifyChains l m ins
    if vc ≠ 0 then fail (s.hmFail n h 0 vc endTile) vc.toNat { kind := 0 }
    else
      let content := fun (i : Nat) => l.content ((l.chain i).getD [])
      let o := stnEval r.bin (sId d) (sSrc d) (sDst d) val (content (sIn d)) (if two then some (content (sIn2 d)) else none)
        (Bytes.le d 12 2) (s.fullBeat m.hm.beat / 100000 : Nat)
      let s := if o.code = 0x1015 then s.gMsg 4 n h 0x1015 (stnN r.bin 44 4) else s
      if val ∨ (o.code ≠ 0 ∧ o.cuts.isEmpty ∧ o.code < 0x10C0) then fail s o.code o.err
      else
        let chain := (l.chain (sOut d)).getD []
        let g := match (l.thr r.op.thr).phase with
          | some p => p.stnGen
          | none => l.stnGen
        let c : StnCtx := {
          h := h, desc := d, out := o.out, cuts := o.cuts, written := 0, chain := chain, code := BitVec.ofNat 16 o.code,
          kind := o.err.kind, bounded := true, outMax := r.op.outMax, canon := o.canon, mask := o.mask, stencil := sId d,
          stnGen := g }
        s.stnOutput n r c chain inB w false o.err

/-- STN_RUN_END (R106, R107, R109): the running descriptor completes, suspends or fails; one refused at its start ends 64 lane
cycles after it (R454). A descriptor whose operation no row can start is taken here, when its start has come. -/
def execStnRunEnd (n : LaneId) (s : State) : Res :=
  let l := s.lane n
  match l.stn.run with
  | none => match l.stn.due s.laneClk with
    | some o => .next (if sOp o.desc = 0 ∨ sOp o.desc > 4 then s.stnStart n (sOp o.desc) else s)
    | none => .next s
  | some r =>
    let d := r.op.desc
    if r.refusal.isSome ∧ s.laneClk < r.startClk + 64 then .next s
    else if l.st = 4 then .next (s.modLane n (·.stnFree))
    else match r.refusal with
    | some code => .next (s.stnFinish n r code.toNat { kind := 0 } 0 0 0 (if sOp d = 1 ∨ sOp d = 3 then sOut d else noVal) 64)
    | none => .next (if sOp d = 4 then s.stnFinish n r 0x1042 { kind := 0 } 0 0 0 noVal 16
        else if sOp d = 3 then s.stnResume n r else s.stnRunFirst n r)

end Sys2Proof.Machine
end

