-- ==== Sys2Proof/Machine/Dispatch.lean ====
section
/-!
DEFINITION. The effect of each command of spec/opcode_table.json on everything but the queue: one arm per constructor.
-/

namespace Sys2Proof.Machine
open Sys2Proof

/-- What a command does. -/
def exec (i : Instr) (s : State) : Host.Outcome State Fault Refusal :=
  match i with
  | .registerWrite agent addr size val hw => Sys2Proof.Machine.execRegisterWrite agent addr size val hw s
  | .registerReadClear agent addr events => Sys2Proof.Machine.execRegisterReadClear agent addr events s
  | .lowWordRead agent addr => Sys2Proof.Machine.execLowWordRead agent addr s
  | .beatBoundary offset => Sys2Proof.Machine.execBeatBoundary offset s
  | .epochBoundary => Sys2Proof.Machine.execEpochBoundary s
  | .decisionTimeout lane h => Sys2Proof.Machine.execDecisionTimeout lane h s
  | .messageShed lane h => Sys2Proof.Machine.execMessageShed lane h s
  | .beatOverrun lane t => Sys2Proof.Machine.execBeatOverrun lane t s
  | .beatTimerStart => Sys2Proof.Machine.execBeatTimerStart s
  | .beatTimerRestart => Sys2Proof.Machine.execBeatTimerRestart s
  | .drain agent lane v => Sys2Proof.Machine.execDrain agent lane v s
  | .admitEn agent lane v => Sys2Proof.Machine.execAdmitEn agent lane v s
  | .resetReq agent lane => Sys2Proof.Machine.execResetReq agent lane s
  | .laneResetClear lane => Sys2Proof.Machine.execLaneResetClear lane s
  | .apply agent lane => Sys2Proof.Machine.execApply agent lane s
  | .hshConsWrite agent lane k val => Sys2Proof.Machine.execHshConsWrite agent lane k val s
  | .rshProdWrite agent lane k val => Sys2Proof.Machine.execRshProdWrite agent lane k val s
  | .decisionCollect lane k => Sys2Proof.Machine.execDecisionCollect lane k s
  | .tileAlloc lane t rd rs1 => Sys2Proof.Machine.execTileAlloc lane t rd rs1 s
  | .tileFree lane t rs1 => Sys2Proof.Machine.execTileFree lane t rs1 s
  | .tileSeal lane t rs1 rs2 => Sys2Proof.Machine.execTileSeal lane t rs1 rs2 s
  | .tileDigest lane t rd rs1 => Sys2Proof.Machine.execTileDigest lane t rd rs1 s
  | .tileDigestComplete lane => Sys2Proof.Machine.execTileDigestComplete lane s
  | .tileRelease lane t rd rs1 => Sys2Proof.Machine.execTileRelease lane t rd rs1 s
  | .hmField lane t rd rs1 rs2 => Sys2Proof.Machine.execHmField lane t rd rs1 rs2 s
  | .hmDerive lane t rd rs1 rs2 => Sys2Proof.Machine.execHmDerive lane t rd rs1 rs2 s
  | .stnGo lane t rd rs1 => Sys2Proof.Machine.execStnGo lane t rd rs1 s
  | .burGo lane t rd rs1 => Sys2Proof.Machine.execBurGo lane t rd rs1 s
  | .burSkip lane t rs1 => Sys2Proof.Machine.execBurSkip lane t rs1 s
  | .engWait lane t rd rs1 => Sys2Proof.Machine.execEngWait lane t rd rs1 s
  | .engPoll lane t rd rs1 => Sys2Proof.Machine.execEngPoll lane t rd rs1 s
  | .shelfPost lane t rd rs1 rs2 => Sys2Proof.Machine.execShelfPost lane t rd rs1 rs2 s
  | .shelfPostResume lane t => Sys2Proof.Machine.execShelfPostResume lane t s
  | .jrnPut lane t rd rs1 => Sys2Proof.Machine.execJrnPut lane t rd rs1 s
  | .beatRead lane t rd => Sys2Proof.Machine.execBeatRead lane t rd s
  | .beatReadh lane t rd => Sys2Proof.Machine.execBeatReadh lane t rd s
  | .beatLeft lane t rd => Sys2Proof.Machine.execBeatLeft lane t rd s
  | .beatWait lane t => Sys2Proof.Machine.execBeatWait lane t s
  | .thrEnd lane t => Sys2Proof.Machine.execThrEnd lane t s
  | .thrSignal lane t rs1 => Sys2Proof.Machine.execThrSignal lane t rs1 s
  | .stylusLongOperation lane t => Sys2Proof.Machine.execStylusLongOperation lane t s
  | .stylusSplitAccess lane t => Sys2Proof.Machine.execStylusSplitAccess lane t s
  | .stylusDramLoadReturn lane t dataError => Sys2Proof.Machine.execStylusDramLoadReturn lane t dataError s
  | .stylusInterrupt lane t => Sys2Proof.Machine.execStylusInterrupt lane t s
  | .stylusException lane t cause tval => Sys2Proof.Machine.execStylusException lane t cause tval s
  | .translate lane => Sys2Proof.Machine.execTranslate lane s
  | .validate lane => Sys2Proof.Machine.execValidate lane s
  | .resume lane => Sys2Proof.Machine.execResume lane s
  | .abort lane => Sys2Proof.Machine.execAbort lane s
  | .stnRunEnd lane => Sys2Proof.Machine.execStnRunEnd lane s
  | .ecdsaP256Verify lane e => Sys2Proof.Machine.execEcdsaP256Verify lane e s
  | .ecdsaP256Sign lane e => Sys2Proof.Machine.execEcdsaP256Sign lane e s
  | .ecdsaP384Verify lane e => Sys2Proof.Machine.execEcdsaP384Verify lane e s
  | .ecdsaP384Sign lane e => Sys2Proof.Machine.execEcdsaP384Sign lane e s
  | .ed25519Verify lane e => Sys2Proof.Machine.execEd25519Verify lane e s
  | .ed25519Sign lane e => Sys2Proof.Machine.execEd25519Sign lane e s
  | .ed25519BatchVerify lane e => Sys2Proof.Machine.execEd25519BatchVerify lane e s
  | .mlDsa44Verify lane e => Sys2Proof.Machine.execMlDsa44Verify lane e s
  | .mlDsa65Verify lane e => Sys2Proof.Machine.execMlDsa65Verify lane e s
  | .mlDsa87Verify lane e => Sys2Proof.Machine.execMlDsa87Verify lane e s
  | .mlDsa44Sign lane e => Sys2Proof.Machine.execMlDsa44Sign lane e s
  | .mlDsa65Sign lane e => Sys2Proof.Machine.execMlDsa65Sign lane e s
  | .mlDsa87Sign lane e => Sys2Proof.Machine.execMlDsa87Sign lane e s
  | .rsa2048Verify lane e => Sys2Proof.Machine.execRsa2048Verify lane e s
  | .rsa2048Sign lane e => Sys2Proof.Machine.execRsa2048Sign lane e s
  | .rsa4096Verify lane e => Sys2Proof.Machine.execRsa4096Verify lane e s
  | .rsa4096Sign lane e => Sys2Proof.Machine.execRsa4096Sign lane e s
  | .pinBlockTranslate lane e => Sys2Proof.Machine.execPinBlockTranslate lane e s
  | .dukptDeriveTdes lane e => Sys2Proof.Machine.execDukptDeriveTdes lane e s
  | .dukptDeriveAes lane e => Sys2Proof.Machine.execDukptDeriveAes lane e s
  | .sha256 lane e => Sys2Proof.Machine.execSha256 lane e s
  | .sha384 lane e => Sys2Proof.Machine.execSha384 lane e s
  | .sha512 lane e => Sys2Proof.Machine.execSha512 lane e s
  | .sha3256 lane e => Sys2Proof.Machine.execSha3256 lane e s
  | .sha3384 lane e => Sys2Proof.Machine.execSha3384 lane e s
  | .sha3512 lane e => Sys2Proof.Machine.execSha3512 lane e s
  | .hmacSha256 lane e => Sys2Proof.Machine.execHmacSha256 lane e s
  | .hmacSha384 lane e => Sys2Proof.Machine.execHmacSha384 lane e s
  | .hmacSha512 lane e => Sys2Proof.Machine.execHmacSha512 lane e s
  | .aesCmac lane e => Sys2Proof.Machine.execAesCmac lane e s
  | .iso9797Mac1Aes lane e => Sys2Proof.Machine.execIso9797Mac1Aes lane e s
  | .iso9797Mac1Tdes lane e => Sys2Proof.Machine.execIso9797Mac1Tdes lane e s
  | .retailMacTdes lane e => Sys2Proof.Machine.execRetailMacTdes lane e s
  | .burOperationComplete lane e attemptsOk selfCheckOk => Sys2Proof.Machine.execBurOperationComplete lane e attemptsOk selfCheckOk s
  | .reserveRequest lane req => Sys2Proof.Machine.execReserveRequest lane req s
  | .generateEcdsaP256Pair lane e => Sys2Proof.Machine.execGenerateEcdsaP256Pair lane e s
  | .generateEcdsaP384Pair lane e => Sys2Proof.Machine.execGenerateEcdsaP384Pair lane e s
  | .generateEd25519Pair lane e => Sys2Proof.Machine.execGenerateEd25519Pair lane e s
  | .generateMlDsa44Pair lane e => Sys2Proof.Machine.execGenerateMlDsa44Pair lane e s
  | .generateMlDsa65Pair lane e => Sys2Proof.Machine.execGenerateMlDsa65Pair lane e s
  | .generateMlDsa87Pair lane e => Sys2Proof.Machine.execGenerateMlDsa87Pair lane e s
  | .generateSymmetricKey lane e => Sys2Proof.Machine.execGenerateSymmetricKey lane e s
  | .unwrapKeyBlock lane e => Sys2Proof.Machine.execUnwrapKeyBlock lane e s
  | .wrapForExport lane e => Sys2Proof.Machine.execWrapForExport lane e s
  | .combineComponents lane e => Sys2Proof.Machine.execCombineComponents lane e s
  | .verifyTokenP384 lane e => Sys2Proof.Machine.execVerifyTokenP384 lane e s
  | .verifyTokenMlDsa65 lane e => Sys2Proof.Machine.execVerifyTokenMlDsa65 lane e s
  | .signPairingManifest lane e => Sys2Proof.Machine.execSignPairingManifest lane e s
  | .ecdhComponentTransport lane e => Sys2Proof.Machine.execEcdhComponentTransport lane e s
  | .hmCheck hart rd rs1 rs2 => Sys2Proof.Machine.execHmCheck hart rd rs1 rs2 s
  | .hmStep hart rd rs1 => Sys2Proof.Machine.execHmStep hart rd rs1 s
  | .tileCheck hart rd rs1 => Sys2Proof.Machine.execTileCheck hart rd rs1 s
  | .jrnAppend hart rd rs1 => Sys2Proof.Machine.execJrnAppend hart rd rs1 s
  | .cellarerAppend event code body => Sys2Proof.Machine.execCellarerAppend event code body s
  | .recordAccept ring portWait => Sys2Proof.Machine.execRecordAccept ring portWait s
  | .mirrorAckReceive ring seq delay => Sys2Proof.Machine.execMirrorAckReceive ring seq delay s
  | .replayRequestReceive ring seq => Sys2Proof.Machine.execReplayRequestReceive ring seq s
  | .replayTimeout ring seq => Sys2Proof.Machine.execReplayTimeout ring seq s
  | .recordFrameReceive frame => Sys2Proof.Machine.execRecordFrameReceive frame s
  | .linkFailure code => Sys2Proof.Machine.execLinkFailure code s
  | .witnessAckTimeout ring seq => Sys2Proof.Machine.execWitnessAckTimeout ring seq s
  | .drainCopy ring err => Sys2Proof.Machine.execDrainCopy ring err s
  | .drainRetire agent ring val => Sys2Proof.Machine.execDrainRetire agent ring val s
  | .drainPause agent v => Sys2Proof.Machine.execDrainPause agent v s
  | .drainFrameReceive frame ring lastSeq => Sys2Proof.Machine.execDrainFrameReceive frame ring lastSeq s
  | .ringResyncComplete ring peer => Sys2Proof.Machine.execRingResyncComplete ring peer s
  | .linkTraining flights deskew locked => Sys2Proof.Machine.execLinkTraining flights deskew locked s
  | .linkRetrainTimer => Sys2Proof.Machine.execLinkRetrainTimer s
  | .headerTimeout => Sys2Proof.Machine.execHeaderTimeout s
  | .symbolLockLoss linkLane => Sys2Proof.Machine.execSymbolLockLoss linkLane s
  | .idleAckSend => Sys2Proof.Machine.execIdleAckSend s
  | .manifestReceive m => Sys2Proof.Machine.execManifestReceive m s
  | .ctlFrameReceive frame msg => Sys2Proof.Machine.execCtlFrameReceive frame msg s
  | .beatFrameReceive frame => Sys2Proof.Machine.execBeatFrameReceive frame s
  | .beatFrameMissing => Sys2Proof.Machine.execBeatFrameMissing s
  | .snapFrameReceive frame body => Sys2Proof.Machine.execSnapFrameReceive frame body s
  | .leaseReq h home => Sys2Proof.Machine.execLeaseReq h home s
  | .leaseGrant h home => Sys2Proof.Machine.execLeaseGrant h home s
  | .leaseRefuse h home code => Sys2Proof.Machine.execLeaseRefuse h home code s
  | .leaseRelease h home => Sys2Proof.Machine.execLeaseRelease h home s
  | .leaseExpiry ownHome => Sys2Proof.Machine.execLeaseExpiry ownHome s
  | .witnessLeaseExpiry home => Sys2Proof.Machine.execWitnessLeaseExpiry home s
  | .takeoverLeaseRetry => Sys2Proof.Machine.execTakeoverLeaseRetry s
  | .wcopy h ring record => Sys2Proof.Machine.execWcopy h ring record s
  | .wcopyAck h ring seq => Sys2Proof.Machine.execWcopyAck h ring seq s
  | .wcopyFetch h home => Sys2Proof.Machine.execWcopyFetch h home s
  | .wcopyData h copies last => Sys2Proof.Machine.execWcopyData h copies last s
  | .wcopyDrop h => Sys2Proof.Machine.execWcopyDrop h s
  | .witnessSilence => Sys2Proof.Machine.execWitnessSilence s
  | .xferOffer h hallmark route prev => Sys2Proof.Machine.execXferOffer h hallmark route prev s
  | .xferAccept h => Sys2Proof.Machine.execXferAccept h s
  | .xferRefuse h code => Sys2Proof.Machine.execXferRefuse h code s
  | .xferTiles h body => Sys2Proof.Machine.execXferTiles h body s
  | .xferDone h lane cls session => Sys2Proof.Machine.execXferDone h lane cls session s
  | .verifyReq h hallmark route outputs => Sys2Proof.Machine.execVerifyReq h hallmark route outputs s
  | .verifyResp h code => Sys2Proof.Machine.execVerifyResp h code s
  | .timeAnnounce h gm btmOffset btmStatus announcedNs => Sys2Proof.Machine.execTimeAnnounce h gm btmOffset btmStatus announcedNs s
  | .refuse h rtype code => Sys2Proof.Machine.execRefuse h rtype code s
  | .rhaxRetryTimer dst mseq => Sys2Proof.Machine.execRhaxRetryTimer dst mseq s
  | .ethernetFrameReceive q f => Sys2Proof.Machine.execEthernetFrameReceive q f s
  | .portLinkChange q up fec => Sys2Proof.Machine.execPortLinkChange q up fec s
  | .tcpConnectionEstablish listener c => Sys2Proof.Machine.execTcpConnectionEstablish listener c s
  | .listenerReconnect listener => Sys2Proof.Machine.execListenerReconnect listener s
  | .tcpRetransmitTimeout session => Sys2Proof.Machine.execTcpRetransmitTimeout session s
  | .tcpRstReceive session => Sys2Proof.Machine.execTcpRstReceive session s
  | .keepaliveProbe session => Sys2Proof.Machine.execKeepaliveProbe session s
  | .tlsRecordReceive session authOk plain keyUpdate => Sys2Proof.Machine.execTlsRecordReceive session authOk plain keyUpdate s
  | .messageMint session cls => Sys2Proof.Machine.execMessageMint session cls s
  | .handshakeStart session hello => Sys2Proof.Machine.execHandshakeStart session hello s
  | .handshakeComplete session res => Sys2Proof.Machine.execHandshakeComplete session res s
  | .keyUpdateSend session => Sys2Proof.Machine.execKeyUpdateSend session s
  | .handshakeTimeout session => Sys2Proof.Machine.execHandshakeTimeout session s
  | .msgTimeout session => Sys2Proof.Machine.execMsgTimeout session s
  | .idleTimeout session => Sys2Proof.Machine.execIdleTimeout session s
  | .stallTimeout session => Sys2Proof.Machine.execStallTimeout session s
  | .lingerTimeout session => Sys2Proof.Machine.execLingerTimeout session s
  | .reclaimTimeout session => Sys2Proof.Machine.execReclaimTimeout session s
  | .partnerClose session => Sys2Proof.Machine.execPartnerClose session s
  | .releaseAccept lane h => Sys2Proof.Machine.execReleaseAccept lane h s
  | .reassignReq agent val => Sys2Proof.Machine.execReassignReq agent val s
  | .reassignMove => Sys2Proof.Machine.execReassignMove s
  | .reassignTimeout => Sys2Proof.Machine.execReassignTimeout s
  | .ptpMessageReceive q m => Sys2Proof.Machine.execPtpMessageReceive q m s
  | .ptpSyncLoss => Sys2Proof.Machine.execPtpSyncLoss s
  | .hartBeatRead hart rd => Sys2Proof.Machine.execHartBeatRead hart rd s
  | .hartBeatWait hart rd rs1 => Sys2Proof.Machine.execHartBeatWait hart rd rs1 s
  | .ksealWrite hart val => Sys2Proof.Machine.execKsealWrite hart val s
  | .bpflush hart => Sys2Proof.Machine.execBpflush hart s
  | .kerrrecRead hart rd => Sys2Proof.Machine.execKerrrecRead hart rd s
  | .vendorCounterRead hart rd csr => Sys2Proof.Machine.execVendorCounterRead hart rd csr s
  | .counterOverflow hart k => Sys2Proof.Machine.execCounterOverflow hart k s
  | .hartMemoryAccess hart a => Sys2Proof.Machine.execHartMemoryAccess hart a s
  | .hartInterrupt hart => Sys2Proof.Machine.execHartInterrupt hart s
  | .cboClean hart rs1 => Sys2Proof.Machine.execCboClean hart rs1 s
  | .cboFlush hart rs1 => Sys2Proof.Machine.execCboFlush hart rs1 s
  | .cboInval hart rs1 => Sys2Proof.Machine.execCboInval hart rs1 s
  | .cboZero hart rs1 => Sys2Proof.Machine.execCboZero hart rs1 s
  | .debugCommand cmd => Sys2Proof.Machine.execDebugCommand cmd s
  | .dmactiveClear => Sys2Proof.Machine.execDmactiveClear s
  | .debugRelock => Sys2Proof.Machine.execDebugRelock s
  | .l3Request req => Sys2Proof.Machine.execL3Request req s
  | .writebackAck slice line => Sys2Proof.Machine.execWritebackAck slice line s
  | .memoryRead ch line requester err last => Sys2Proof.Machine.execMemoryRead ch line requester err last s
  | .memoryWrite ch line data poisoned requester => Sys2Proof.Machine.execMemoryWrite ch line data poisoned requester s
  | .refreshDue ch rank queued => Sys2Proof.Machine.execRefreshDue ch rank queued s
  | .dimmTemperatureRead ch temps => Sys2Proof.Machine.execDimmTemperatureRead ch temps s
  | .dqsDriftTrack ch drift => Sys2Proof.Machine.execDqsDriftTrack ch drift s
  | .neighbourRefresh ch bank => Sys2Proof.Machine.execNeighbourRefresh ch bank s
  | .trainNow agent ch => Sys2Proof.Machine.execTrainNow agent ch s
  | .trainingPassStart ch why => Sys2Proof.Machine.execTrainingPassStart ch why s
  | .trainingPassEnd ch found => Sys2Proof.Machine.execTrainingPassEnd ch found s
  | .errorWindowEnd ch => Sys2Proof.Machine.execErrorWindowEnd ch s
  | .channelFailure ch => Sys2Proof.Machine.execChannelFailure ch s
  | .freqReq agent ch val => Sys2Proof.Machine.execFreqReq agent ch val s
  | .freqChangeComplete ch => Sys2Proof.Machine.execFreqChangeComplete ch s
  | .histClear agent ch => Sys2Proof.Machine.execHistClear agent ch s
  | .scrubRead ch err => Sys2Proof.Machine.execScrubRead ch err s
  | .scrubResult ch => Sys2Proof.Machine.execScrubResult ch s
  | .scrubSlowWarning ch => Sys2Proof.Machine.execScrubSlowWarning ch s
  | .remapInstall ch line err => Sys2Proof.Machine.execRemapInstall ch line err s
  | .cellarerWatchdogExpiry => Sys2Proof.Machine.execCellarerWatchdogExpiry s
  | .cellarerRestart cause => Sys2Proof.Machine.execCellarerRestart cause s
  | .cellarerInterrupt irq prio => Sys2Proof.Machine.execCellarerInterrupt irq prio s
  | .mailboxDataWrite agent mbx k val => Sys2Proof.Machine.execMailboxDataWrite agent mbx k val s
  | .mailboxGo agent mbx seq => Sys2Proof.Machine.execMailboxGo agent mbx seq s
  | .mailboxClear agent mbx => Sys2Proof.Machine.execMailboxClear agent mbx s
  | .mailboxRxRead agent mbx => Sys2Proof.Machine.execMailboxRxRead agent mbx s
  | .mailboxRxAck agent mbx seq code => Sys2Proof.Machine.execMailboxRxAck agent mbx seq code s
  | .mailboxRxExtend agent mbx us => Sys2Proof.Machine.execMailboxRxExtend agent mbx us s
  | .mailboxTimeout mbx => Sys2Proof.Machine.execMailboxTimeout mbx s
  | .lockRead agents lock => Sys2Proof.Machine.execLockRead agents lock s
  | .lockWrite agent lock val => Sys2Proof.Machine.execLockWrite agent lock val s
  | .health mbx => Sys2Proof.Machine.execHealth mbx s
  | .version mbx => Sys2Proof.Machine.execVersion mbx s
  | .rasQuery mbx => Sys2Proof.Machine.execRasQuery mbx s
  | .mbxBind mbx => Sys2Proof.Machine.execMbxBind mbx s
  | .lockRelease mbx => Sys2Proof.Machine.execLockRelease mbx s
  | .laneReset mbx => Sys2Proof.Machine.execLaneReset mbx s
  | .laneLoad mbx => Sys2Proof.Machine.execLaneLoad mbx s
  | .stencilLoad mbx => Sys2Proof.Machine.execStencilLoad mbx s
  | .laneHandover mbx => Sys2Proof.Machine.execLaneHandover mbx s
  | .laneRelease mbx => Sys2Proof.Machine.execLaneRelease mbx s
  | .pairStart mbx => Sys2Proof.Machine.execPairStart mbx s
  | .laneFirewall mbx chg => Sys2Proof.Machine.execLaneFirewall mbx chg s
  | .pcieWindows mbx chg => Sys2Proof.Machine.execPcieWindows mbx chg s
  | .keyPolicy mbx chg => Sys2Proof.Machine.execKeyPolicy mbx chg s
  | .keyGen mbx chg => Sys2Proof.Machine.execKeyGen mbx chg s
  | .keyImport mbx chg => Sys2Proof.Machine.execKeyImport mbx chg s
  | .keyComponent mbx chg => Sys2Proof.Machine.execKeyComponent mbx chg s
  | .keyDestroy mbx slot => Sys2Proof.Machine.execKeyDestroy mbx slot s
  | .keyExport mbx chg => Sys2Proof.Machine.execKeyExport mbx chg s
  | .rootRotate mbx chg => Sys2Proof.Machine.execRootRotate mbx chg s
  | .domain mbx chg => Sys2Proof.Machine.execDomain mbx chg s
  | .netTables mbx chg => Sys2Proof.Machine.execNetTables mbx chg s
  | .journal mbx chg => Sys2Proof.Machine.execJournal mbx chg s
  | .debugUnlock mbx chg => Sys2Proof.Machine.execDebugUnlock mbx chg s
  | .officers mbx chg => Sys2Proof.Machine.execOfficers mbx chg s
  | .adminSet mbx chg => Sys2Proof.Machine.execAdminSet mbx chg s
  | .zeroize mbx => Sys2Proof.Machine.execZeroize mbx s
  | .approve mbx units => Sys2Proof.Machine.execApprove mbx units s
  | .ticketStatus mbx => Sys2Proof.Machine.execTicketStatus mbx s
  | .ticketCancel mbx => Sys2Proof.Machine.execTicketCancel mbx s
  | .ticketExpiry ticket => Sys2Proof.Machine.execTicketExpiry ticket s
  | .stagedChangeApply => Sys2Proof.Machine.execStagedChangeApply s
  | .cachePart mbx => Sys2Proof.Machine.execCachePart mbx s
  | .memConfig mbx => Sys2Proof.Machine.execMemConfig mbx s
  | .memRemap mbx err => Sys2Proof.Machine.execMemRemap mbx err s
  | .fwStage mbx => Sys2Proof.Machine.execFwStage mbx s
  | .garretList mbx => Sys2Proof.Machine.execGarretList mbx s
  | .garretRead mbx => Sys2Proof.Machine.execGarretRead mbx s
  | .garretFreeze mbx => Sys2Proof.Machine.execGarretFreeze mbx s
  | .hmReplay mbx => Sys2Proof.Machine.execHmReplay mbx s
  | .query agent slot err => Sys2Proof.Machine.execQuery agent slot err s
  | .entropyHealthFailure => Sys2Proof.Machine.execEntropyHealthFailure s
  | .reseedLapse => Sys2Proof.Machine.execReseedLapse s
  | .pcieLinkUp port sub speed width partnerFlit => Sys2Proof.Machine.execPcieLinkUp port sub speed width partnerFlit s
  | .pcieLinkDown port sub => Sys2Proof.Machine.execPcieLinkDown port sub s
  | .pcieInboundRequest port r => Sys2Proof.Machine.execPcieInboundRequest port r s
  | .hostBarAccess fn bar off r => Sys2Proof.Machine.execHostBarAccess fn bar off r s
  | .pcieConfigRequest fn off w => Sys2Proof.Machine.execPcieConfigRequest fn off w s
  | .pcieCompletionReceive tag c => Sys2Proof.Machine.execPcieCompletionReceive tag c s
  | .completionTimeout tag => Sys2Proof.Machine.execCompletionTimeout tag s
  | .tagQuarantineExpiry tag => Sys2Proof.Machine.execTagQuarantineExpiry tag s
  | .hdmaDescriptor k => Sys2Proof.Machine.execHdmaDescriptor k s
  | .hdmaDescriptorComplete k => Sys2Proof.Machine.execHdmaDescriptorComplete k s
  | .atsTranslationResponse k granted host => Sys2Proof.Machine.execAtsTranslationResponse k granted host s
  | .invalidateRequest fn base len => Sys2Proof.Machine.execInvalidateRequest fn base len s
  | .invalidateCompletion fn => Sys2Proof.Machine.execInvalidateCompletion fn s
  | .busMasterEnableClear fn d3hot => Sys2Proof.Machine.execBusMasterEnableClear fn d3hot s
  | .functionLevelReset fn => Sys2Proof.Machine.execFunctionLevelReset fn s
  | .flrComplete fn => Sys2Proof.Machine.execFlrComplete fn s
  | .vfEnable enable numVfs => Sys2Proof.Machine.execVfEnable enable numVfs s
  | .msixUnmask fn vec => Sys2Proof.Machine.execMsixUnmask fn vec s
  | .arkEnable agent k v => Sys2Proof.Machine.execArkEnable agent k v s
  | .arkAbort agent k => Sys2Proof.Machine.execArkAbort agent k s
  | .compress k badBlocks dataError => Sys2Proof.Machine.execCompress k badBlocks dataError s
  | .decompress k dataError => Sys2Proof.Machine.execDecompress k dataError s
  | .verify k dataError => Sys2Proof.Machine.execVerify k dataError s
  | .arkDescriptorComplete k => Sys2Proof.Machine.execArkDescriptorComplete k s
  | .garretRecordWrite err => Sys2Proof.Machine.execGarretRecordWrite err s
  | .freezeStop => Sys2Proof.Machine.execFreezeStop s
  | .atticCopyComplete => Sys2Proof.Machine.execAtticCopyComplete s
  | .atticRead off => Sys2Proof.Machine.execAtticRead off s
  | .clrHist agent lane => Sys2Proof.Machine.execClrHist agent lane s
  | .clrCtr agent lane => Sys2Proof.Machine.execClrCtr agent lane s
  | .fullColdReset straps pwrgd => Sys2Proof.Machine.execFullColdReset straps pwrgd s
  | .coldRstN lowCycles straps => Sys2Proof.Machine.execColdRstN lowCycles straps s
  | .mainColdStart straps => Sys2Proof.Machine.execMainColdStart straps s
  | .pwrgdFall => Sys2Proof.Machine.execPwrgdFall s
  | .warmRstN lowCycles => Sys2Proof.Machine.execWarmRstN lowCycles s
  | .warmReq agent => Sys2Proof.Machine.execWarmReq agent s
  | .warmResetExit => Sys2Proof.Machine.execWarmResetExit s
  | .firmwareVerifyComplete current previous staged => Sys2Proof.Machine.execFirmwareVerifyComplete current previous staged s
  | .cellarerReady => Sys2Proof.Machine.execCellarerReady s
  | .dramTrainingComplete found => Sys2Proof.Machine.execDramTrainingComplete found s
  | .hartRelease current previous => Sys2Proof.Machine.execHartRelease current previous s
  | .pairingTimeout current previous => Sys2Proof.Machine.execPairingTimeout current previous s
  | .hartRst agent hart => Sys2Proof.Machine.execHartRst agent hart s
  | .powerManagerInterval corePower pkgPower => Sys2Proof.Machine.execPowerManagerInterval corePower pkgPower s
  | .pwrTdp agent val => Sys2Proof.Machine.execPwrTdp agent val s
  | .sdReq agent => Sys2Proof.Machine.execSdReq agent s
  | .powerOff agent => Sys2Proof.Machine.execPowerOff agent s
  | .bayThermalLimit bay temp => Sys2Proof.Machine.execBayThermalLimit bay temp s
  | .prochotSensor temp => Sys2Proof.Machine.execProchotSensor temp s
  | .prochotNInput low => Sys2Proof.Machine.execProchotNInput low s
  | .thermalTrip temp iod heldMs => Sys2Proof.Machine.execThermalTrip temp iod heldMs s
  | .referenceClockLoss lostNs => Sys2Proof.Machine.execReferenceClockLoss lostNs s
  | .avsbusFailure die => Sys2Proof.Machine.execAvsbusFailure die s
  | .avsbusRetry die ok => Sys2Proof.Machine.execAvsbusRetry die ok s
  | .sidebandRelease => Sys2Proof.Machine.execSidebandRelease s
  | .i3cAccess reg w => Sys2Proof.Machine.execI3cAccess reg w s
  | .stylusRv32Instruction lane t err => Sys2Proof.Machine.execStylusRv32Instruction lane t err s
  | .hartInstruction hart insn => Sys2Proof.Machine.execHartInstruction hart insn s
  | .cacheFill hart line prefetch dataError => Sys2Proof.Machine.execCacheFill hart line prefetch dataError s
  | .queuedWriteIssue ch tries => Sys2Proof.Machine.execQueuedWriteIssue ch tries s
  | .tilePortTransferEnd lane h => Sys2Proof.Machine.execTilePortTransferEnd lane h s
  | .headerHcrcFailure lseq => Sys2Proof.Machine.execHeaderHcrcFailure lseq s
  | .gratuitousArp addrIdx => Sys2Proof.Machine.execGratuitousArp addrIdx s
  | .standbyPowerLoss => Sys2Proof.Machine.execStandbyPowerLoss s
  | .presenceDetectChange port sub present => Sys2Proof.Machine.execPresenceDetectChange port sub present s

end Sys2Proof.Machine
end

