-- ==== Sys2Proof/Machine/Cellarer.lean ====
section
/-!
DEFINITION. The Cellarer core: RV32IMC with Zicsr on the Cellarer clock (R317), its private address map (R323, Table CEL-2), its
long operations (R320) and the delay of privilege and protection changes (R322). No command carries its instructions: while the
flash holds firmware, the machine's idle cycles run it (log 178).
-/

namespace Sys2Proof.Machine
open Sys2Proof

/-! ### The private address map -/

/-- What an address of the private map leads to. -/
inductive CelSpot where
  | rom
  | sram (o : Nat)
  | flash (o : Nat)
  /-- the physical map: mailboxes, locks, and the bridge window -/
  | phys (pa : Nat)
  /-- the Strongroom command port and the Garret recorder: loads are long operations (R320) -/
  | port
  /-- I3C, JTAG, watchdog and mirror-link control -/
  | io
  | bad
  deriving DecidableEq, Repr
/-- Table CEL-2; the bridge reaches the physical map only while the main power domain is up (R323). -/
def State.celSpot (s : State) (a : Nat) : CelSpot :=
  if a < 0x10000 then .rom
  else if 0x10000000 ≤ a ∧ a < 0x10200000 then .sram (a - 0x10000000)
  else if 0x20000000 ≤ a ∧ a < 0x28000000 then .flash (a - 0x20000000)
  else if 0x40000000 ≤ a ∧ a < 0x40040000 then .phys (0x01000000 + (a - 0x40000000))
  else if 0x40100000 ≤ a ∧ a < 0x40100200 then .phys (0x01100000 + (a - 0x40100000))
  else if 0x50000000 ≤ a ∧ a < 0x50010000 then .port
  else if 0x60000000 ≤ a ∧ a < 0x60400000 then .port
  else if 0x70000000 ≤ a ∧ a < 0x70010000 then .io
  else if 0x80000000 ≤ a then
    (if s.pwr.mainUp then .phys (s.cel.bridge.toNat * 2 ^ 20 + (a - 0x80000000)) else .bad)
  else .bad
/-- A byte of flash (Table CEL-14): the firmware, undercroft and staging partitions; the rest as no rule gives it. -/
def Cel.flashByte (c : Cel) (o : Nat) : Byte :=
  let part := fun (base : Nat) (b : Bytes) => if base ≤ o then b[o - base]? else none
  ((part 0x4000000 ((c.stage.map (·.1)).getD [])).or ((part 0x1800000 c.platPrev.2).or ((part 0x800000 c.platCur.2).or
    ((part 0x400000 c.fwPrev.2).or (part 0 c.fwCur.2))))).getD (Config.celRom (0x20000000 + o))
/-- User-mode accesses, and machine-mode data accesses with MPRV over an MPP of user, are held to the MPU. -/
def Cel.mayAccess (c : Cel) (a n kind : Nat) : Bool :=
  let user := c.user || (kind ≠ 0 && bit c.mstatus.toNat 17 && bits c.mstatus.toNat 12 11 = 0)
  !user || Config.celMpu ((List.range 16).map (fun i => SMap.get 0 i c.mpu)) a n kind

/-! ### Traps and results -/

def State.modCel (s : State) (f : Cel → Cel) : State := { s with cel := f s.cel }
/-- The core takes an exception: the changes under way complete first (R322). -/
def Cel.trap (c : Cel) (cause tval : Nat) : Cel :=
  let c := c.settle
  let m := c.mstatus.toNat
  let st := setBits (setBits (setBits m 7 7 (b2n (bit m 3))) 3 3 0) 12 11 (if c.user then 0 else 3)
  let c := (((c.setCsr 0x341 c.pc).setCsr 0x342 (BitVec.ofNat 32 cause)).setCsr 0x343 (BitVec.ofNat 32 tval)).setCsr 0x300 (BitVec.ofNat 32 st)
  { c with user := false, longOp := none, pc := SMap.get 0 0x305 c.csr }
def Cel.rd (c : Cel) (r : Nat) : W32 := if r = 0 then 0 else SMap.get 0 r c.x
/-- Write a result and go on at `pc`. -/
def Cel.goto (c : Cel) (r v pc : Nat) : Cel :=
  { c with x := if r = 0 then c.x else SMap.set 0 r (BitVec.ofNat 32 v) c.x, pc := BitVec.ofNat 32 pc }
/-- MRET: an interrupt's frame unstacks; else mepc is the pc. The mode it returns to follows three instructions later (R322). -/
def Cel.mret (c : Cel) : Cel :=
  match c.frames with
  | f :: fs =>
    ({ c with frames := fs, pc := f.pc, x := f.regs.foldl (fun x p => SMap.set 0 p.1 p.2 x) c.x,
              changes := c.changes ++ [(4, .mode f.user)] } : Cel).setCsr 0x300 f.mstatus
  | [] =>
    let m := c.mstatus.toNat
    { c.setCsr 0x300 (BitVec.ofNat 32 (setBits (setBits m 3 3 (b2n (bit m 7))) 7 7 1)) with
      pc := SMap.get 0 0x341 c.csr, changes := c.changes ++ [(4, .mode (bits m 12 11 = 0)), (4, .mpp true)] }

/-! ### CSRs -/

def Cel.csrVal (c : Cel) (n : Nat) : Option W32 :=
  if [0x300, 0x304, 0x305, 0x340, 0x341, 0x342, 0x343].contains n then some (SMap.get 0 n c.csr)
  else if 0x3B0 ≤ n ∧ n < 0x3C0 then some (SMap.get 0 (n - 0x3B0) c.mpu)
  else if n = 0x7C0 then some c.bridge
  else none
/-- A CSR write; MPP, MPRV and the MPU regions follow at the fourth instruction (R322). -/
def Cel.csrWrite (c : Cel) (n : Nat) (v : W32) : Cel :=
  let later := fun (c : Cel) (x : CelChange) => { c with changes := c.changes ++ [(4, x)] }
  if n = 0x300 then
    let m := c.mstatus.toNat
    let now := c.setCsr 0x300 (BitVec.ofNat 32 (setBits (setBits m 3 3 (b2n (bit v.toNat 3))) 7 7 (b2n (bit v.toNat 7))))
    let u := decide (bits v.toNat 12 11 = 0)
    let c := if decide (bits m 12 11 = 0) = u then now else later now (.mpp u)
    if bit m 17 = bit v.toNat 17 then c else later c (.mprv (bit v.toNat 17))
  else if 0x3B0 ≤ n ∧ n < 0x3C0 then later c (.region (n - 0x3B0) v)
  else if n = 0x7C0 then { c with bridge := v }
  else c.setCsr n v
/-- A CSR instruction; CSRs are machine-mode registers. -/
def Cel.csrInsn (c : Cel) (i k : Nat) : Cel :=
  let n := bits i 31 20
  let f := Rv.f3 i
  let src := if 4 ≤ f then Rv.rs1 i else (c.rd (Rv.rs1 i)).toNat
  match (if c.user ∨ f = 4 then none else c.csrVal n) with
  | none => c.trap 2 i
  | some v =>
    let new := if f % 4 = 1 then src else if f % 4 = 2 then v.toNat ||| src else v.toNat &&& Rv.not 32 src
    let c' := c.goto (Rv.rd i) v.toNat (c.pc.toNat + k)
    if f % 4 ≠ 1 ∧ Rv.rs1 i = 0 then c' else c'.csrWrite n (BitVec.ofNat 32 new)

/-! ### Loads and stores -/

/-- A load of `n` bytes: the state, and the bytes; none is an access fault. -/
def State.celLoad (s : State) (a n : Nat) : State × Option Bytes :=
  match s.celSpot a with
  | .rom => (s, some ((List.range n).map (fun i => Config.celRom (a + i))))
  | .sram o => (s, some ((List.range n).map (fun i => SMap.get 0 (o + i) s.cel.sram)))
  | .flash o => (s, some ((List.range n).map (fun i => s.cel.flashByte (o + i))))
  | .phys pa =>
    if s.region pa = .dram then (s, some (s.dramRead pa n))
    else match s.ioRead 272 pa n false with
      | (s, .ok b) => (s, some b)
      | _ => (s, none)
  | .port => (s.drew, some (Bytes.ofNatLE n s.freeWord.toNat))
  | .io => (s.drew, some (Bytes.ofNatLE n s.freeWord.toNat))
  | .bad => (s, none)
/-- A store; none is an access fault. -/
def State.celStore (s : State) (a : Nat) (b : Bytes) : Option State :=
  match s.celSpot a with
  | .sram o => some (s.modCel (fun c => { c with sram := ((List.range b.length).zip b).foldl (fun m p => SMap.set 0 (o + p.1) p.2 m) c.sram }))
  | .phys pa =>
    if s.region pa = .dram then some (s.dramWriteBy 272 pa b false)
    else match s.ioWrite 272 pa b false with
      | (s, .ok _) => some s
      | _ => none
  | .port => some s
  | .io => some s
  | _ => none
/-- Address and size of a load or store. -/
def Cel.accOf (c : Cel) (i : Nat) : Option (Nat × Nat) :=
  let a := fun (m : Nat) => ((c.rd (Rv.rs1 i)).toNat + m) % 2 ^ 32
  let z := 2 ^ (Rv.f3 i % 4)
  if Rv.op i = 0x03 ∧ Rv.f3 i ≠ 3 ∧ Rv.f3 i < 6 then some (a (Rv.immI 32 i), z)
  else if Rv.op i = 0x23 ∧ Rv.f3 i < 3 then some (a (Rv.immS 32 i), z)
  else none
/-- Cellarer cycles of a long operation (R320): 18 for divisions, 10 for loads from the two ports; none for any other. -/
def State.celLong (s : State) (i : Nat) : Option Nat :=
  if isLong i then some 18
  else match (if Rv.op i = 0x03 then s.cel.accOf i else none) with
    | some (a, _) => if s.celSpot a = .port then some 10 else none
    | none => none

/-! ### One instruction -/

/-- The instruction `i` of `k` bytes executes. -/
def State.celExec (s : State) (i k : Nat) : State :=
  let c := s.cel
  let pc := c.pc.toNat
  let a := (c.rd (Rv.rs1 i)).toNat
  let b := (c.rd (Rv.rs2 i)).toNat
  let ill := s.modCel (·.trap 2 i)
  let go := fun (r v pc : Nat) => s.modCel (·.goto r v pc)
  let put := fun (v : Option Nat) => match v with
    | some v => go (Rv.rd i) v (pc + k)
    | none => ill
  match Rv.op i with
  | 0x37 => put (some (Rv.immU 32 i))
  | 0x17 => put (some ((pc + Rv.immU 32 i) % 2 ^ 32))
  | 0x6F => go (Rv.rd i) (pc + k) (pc + Rv.immJ 32 i)
  | 0x67 => if Rv.f3 i = 0 then go (Rv.rd i) (pc + k) ((a + Rv.immI 32 i) % 2 ^ 32 / 2 * 2) else ill
  | 0x63 => match Rv.branch 32 (Rv.f3 i) a b with
    | none => ill
    | some t => go 0 0 (if t then pc + Rv.immB 32 i else pc + k)
  | 0x03 => match c.accOf i with
    | none => ill
    | some (a, z) => match (if c.mayAccess a z 1 then s.celLoad a z else (s, none)) with
      | (s, some v) => s.modCel (·.goto (Rv.rd i) (styValue v (decide (Rv.f3 i < 4))) (pc + k))
      | (s, none) => s.modCel (·.trap 5 a)
  | 0x23 => match c.accOf i with
    | none => ill
    | some (a, z) => match (if c.mayAccess a z 2 then s.celStore a (Bytes.ofNatLE z b) else none) with
      | some s => s.modCel (·.goto 0 0 (pc + k))
      | none => s.modCel (·.trap 7 a)
  | 0x13 => put (Rv.opImm 32 false i a)
  | 0x33 => put (if isLong i then some (Rv.mulDiv 32 (Rv.f3 i) a b) else Rv.base 32 (Rv.f7 i) (Rv.f3 i) a b)
  | 0x0F => go 0 0 (pc + k)
  | 0x73 =>
    if Rv.f3 i ≠ 0 then s.modCel (·.csrInsn i k)
    else if i = 0x73 then s.modCel (fun c => c.trap (if c.user then 8 else 11) 0)
    else if i = 0x00100073 then s.modCel (·.trap 3 0)
    else if i = 0x30200073 then (if c.user then ill else s.modCel (·.mret))
    else if i = 0x10500073 then go 0 0 (pc + k)
    else ill
  | _ => ill
/-- The instruction at the core's pc within the current firmware, and its bytes. -/
def Cel.fetch (c : Cel) : Option (Nat × Nat) :=
  let o := c.pc.toNat - 0x20000000
  if c.pc.toNat < 0x20000000 ∨ c.fwCur.2.length < o + 2 then none
  else
    let h := Bytes.le c.fwCur.2 o 2
    if h % 4 ≠ 3 then some (h, 2)
    else if c.fwCur.2.length < o + 4 then none else some (Bytes.le c.fwCur.2 o 4, 4)
/-- One Cellarer cycle of the core: a long operation counts down and completes, or the next instruction issues (R318, R320). The
core runs from the start of its firmware, which it leaves only by a reset. -/
def State.celCycle (s : State) : State :=
  if s.cel.st < 2 then s
  else match s.cel.fetch with
    | none => s
    | some f =>
      if !s.cel.mayAccess s.cel.pc.toNat f.2 0 then (s.modCel Cel.issue).modCel (·.trap 1 s.cel.pc.toNat)
      else match fullWord false f with
        | none => (s.modCel Cel.issue).modCel (·.trap 2 f.1)
        | some i => match s.cel.longOp with
          | some (n + 1) => s.modCel (fun c => { c with longOp := some n })
          | some 0 => (s.modCel (fun c => { c with longOp := none })).celExec i f.2
          | none =>
            let s := s.modCel Cel.issue
            match s.celLong i with
            | some n => s.modCel (fun c => { c with longOp := some (n - 2) })
            | none => s.celExec i f.2

end Sys2Proof.Machine
end

