-- ==== Sys2Proof/Machine/Tick.lean ====
section
/-!
DEFINITION. What an idle step does: one lane cycle passes (R52, R71).
-/

namespace Sys2Proof.Machine
open Sys2Proof

/-- One lane cycle: the lane clock counts; while the beat timer runs, the count within the beat stops short of the next
boundary, which only BEAT_BOUNDARY makes; what waited for a PAUSE that ends leaves its port (R205); the
Cellarer core runs at half the lane clock (R317). -/
def State.tick (s : State) : State :=
  let s := if s.laneClk % 2 = 1 then s.celCycle else s
  ({ s with laneClk := s.laneClk + 1,
            btm := if s.btm.running then { s.btm with cyc := min (s.btm.cyc + 1) (s.btm.len - 1) } else s.btm } : State).pauseFlush

end Sys2Proof.Machine
end

