-- ==== Sys2Proof/Machine/Step.lean ====
section
/-!
DEFINITION. One step: the command at the front of the queue runs; on an empty queue one lane cycle passes.
-/

namespace Sys2Proof.Machine
open Sys2Proof

/-- The command at the front of the queue runs with the queue's rest; an empty queue lets one lane cycle pass. -/
def step (s : State) : Host.Outcome State Fault Refusal :=
  match s.pending with
  | [] => .next s.tick
  | c :: r => exec c { s with pending := r }

/-- `s` with the command a table word spells put at the front of its queue; unchanged where the word spells none. -/
def State.withFetchWord (s : State) (nbits w : Nat) : State :=
  match decodeTableWord nbits w with
  | some c => { s with pending := c :: s.pending }
  | none => s

end Sys2Proof.Machine
end

