-- ==== Sys2Proof/Safety.lean ====
section
/-!
DEFINITION. What counts as a safe run, in the terms the statements use: a command that runs to a next state, the parts of
the state that no command changes, and the shapes of a change confined to one lane, one thread or one unit.
-/

namespace Sys2Proof.Machine
open Sys2Proof

/-- The outcome is a next state. -/
def Res.isNext : Res → Bool
  | .next _ => true
  | _ => false

/-- The command answers a next state, and that state satisfies `p`. -/
def Runs (c : Instr) (s : State) (p : State → Prop) : Prop := ∃ u, exec c s = .next u ∧ p u

/-- The DRAM contents are in canonical form. -/
def State.memOk (s : State) : Prop := Memory.wf s.dram = true

/-- Two states agree on what no command changes: the boot ROM (R28) and the commands that wait. -/
def State.sameFixed (s t : State) : Prop := t.rom = s.rom ∧ t.pending = s.pending

/-- A safe step: the machine goes on. -/
def State.safeStep (s : State) : Prop := Res.isNext (step s) = true

/-- From `s` to `u` nothing changes but the lanes, and of them only lane `n`. -/
def State.onlyLane (s u : State) (n : Nat) : Prop :=
  u = { s with lanes := u.lanes } ∧ ∀ m, m ≠ n → u.lane m = s.lane m

/-- From `s` to `u` nothing changes but thread `t` of lane `n` and that lane's counters of Table PMU-2. -/
def State.onlyThread (s u : State) (n t : Nat) : Prop :=
  s.onlyLane u n ∧ u.lane n = { s.lane n with threads := (u.lane n).threads, lpmu := (u.lane n).lpmu }
    ∧ ∀ r, r ≠ t → u.thr n r = s.thr n r

/-- From `s` to `u` nothing changes but the harts, and of them only hart `h`. -/
def State.onlyHart (s u : State) (h : Nat) : Prop :=
  u = { s with harts := u.harts } ∧ ∀ k, k ≠ h → u.hart k = s.hart k

/-- From `s` to `u` nothing changes but the registers, and of them only the one at `a`. -/
def State.onlyReg (s u : State) (a : Nat) : Prop :=
  u = { s with regs := u.regs } ∧ ∀ b, b ≠ a → u.reg b = s.reg b

/-- A register whose write has no effect beyond the bits it writes: the mesh, error-record, hart, twin and network blocks, and
the lanes' class tables. -/
def plainReg (a : Nat) : Bool :=
  (decide (0x02010000 ≤ a) && decide (a < 0x04000000) && decide (a ≠ 0x028FF004))
    || (decide (0x0C000000 ≤ a) && decide (a < 0x10000000))
    || (decide (0x10000000 ≤ a) && decide (a < 0x20000000) && decide (0x1000 ≤ a % 0x1000000) && decide (a % 0x1000000 < 0x1400))
    || (decide (0x31000000 ≤ a) && decide (a < 0x33000000) && decide (a ≠ 0x32000040))

/-- Engine `e` of lane `n` is idle and starts a lane program's operation `o`, of one of the codes, now: its checks pass (R132), it
takes its input from an address in tile memory, and `dat` is its data. -/
def State.burReady (s : State) (n e : Nat) (codes : List Nat) (o : BurOp) (dat : Bytes) : Prop :=
  ((s.lane n).burEng e).run = none ∧ ((s.lane n).burEng e).pick s.laneClk codes = some o ∧ o.src.isThread = true
    ∧ (s.startChecks n e o).code = none ∧ bChain o.desc = false ∧ bAuxch o.desc = false ∧ (s.lane n).st ≠ 4
    ∧ bData o.desc ((s.lane n).at (bIn o.desc) (bInLen o.desc)) = some dat

/-- After the time of its code (R113) the started operation `o` ends: the engine is idle, the completion record holds `code`, and
the output, when there is one, stands at OUT where the record does not cover it (R127, R130). -/
def State.burGives (u : State) (n : LaneId) (e : EngId) (o : BurOp) (ok self : Bool) (code : Code) (out : Bytes) : Prop :=
  Runs (.burOperationComplete n e ok self) { u with laneClk := u.laneClk + (opCycles o.opc).getD 64 } fun w =>
    ((w.lane n).burEng e).run = none
      ∧ memRead (w.lane n).tmem (bCompl o.desc - 0x10000000) 2 = Bytes.ofNatLE 2 code.toNat
      ∧ (bOut o.desc + out.length ≤ bCompl o.desc ∨ bCompl o.desc + 32 ≤ bOut o.desc → bAppend o.desc = false → out ≠ [] →
          memRead (w.lane n).tmem (bOut o.desc - 0x10000000) out.length = out)

/-- After the time of its code the started Strongroom service ends with `code` and `out` for the unit that asked (R131, R452). -/
def State.serviceGives (u : State) (n : LaneId) (e : EngId) (o : BurOp) (ref : Nat) (ok self : Bool) (a : Code × Bytes) : Prop :=
  Runs (.burOperationComplete n e ok self) { u with laneClk := u.laneClk + (opCycles o.opc).getD 64 } fun w =>
    ((w.lane n).burEng e).run = none ∧ w.rsvDone = u.rsvDone ++ [(.str, ref, a.1, a.2)]

/-- The rows of Tables BUR-1 to BUR-3 with their codes: verifications, signings, hashes and MACs. -/
def verifyRows : List ((LaneId → EngId → Instr) × List Nat) := [
  (.ecdsaP256Verify, [0x04, 0x05, 0x06]), (.ecdsaP384Verify, [0x0C, 0x0D, 0x0E]), (.ed25519Verify, [0x14, 0x15, 0x16]),
  (.mlDsa44Verify, [0x20, 0x21, 0x22]), (.mlDsa65Verify, [0x24, 0x25, 0x26]), (.mlDsa87Verify, [0x28, 0x29, 0x2A]),
  (.rsa2048Verify, [0x38, 0x39, 0x3A]), (.rsa4096Verify, [0x40, 0x41, 0x42])]
def signRows : List ((LaneId → EngId → Instr) × List Nat) := [
  (.ecdsaP256Sign, [0x08, 0x09, 0x0A]), (.ecdsaP384Sign, [0x10, 0x11, 0x12]), (.ed25519Sign, [0x18, 0x19, 0x1A]),
  (.mlDsa44Sign, [0x2C, 0x2D, 0x2E]), (.mlDsa65Sign, [0x30, 0x31, 0x32]), (.mlDsa87Sign, [0x34, 0x35, 0x36]),
  (.rsa2048Sign, [0x3C, 0x3D, 0x3E]), (.rsa4096Sign, [0x44, 0x45, 0x46])]
def hashRows : List ((LaneId → EngId → Instr) × List Nat) := [
  (.sha256, [0x48, 0x49, 0x4A, 0x4B]), (.sha384, [0x4C, 0x4D, 0x4E, 0x4F]), (.sha512, [0x50, 0x51, 0x52, 0x53]),
  (.sha3256, [0x54, 0x55, 0x56, 0x57]), (.sha3384, [0x58, 0x59, 0x5A, 0x5B]), (.sha3512, [0x5C, 0x5D, 0x5E, 0x5F])]
def macRows : List ((LaneId → EngId → Instr) × List Nat) := [
  (.hmacSha256, [0x60, 0x61, 0x62, 0x63]), (.hmacSha384, [0x64, 0x65, 0x66, 0x67]), (.hmacSha512, [0x68, 0x69, 0x6A, 0x6B]),
  (.aesCmac, [0x6C, 0x6D, 0x6E, 0x6F]), (.iso9797Mac1Aes, [0x70, 0x71, 0x72, 0x73]),
  (.iso9797Mac1Tdes, [0x74, 0x75, 0x76, 0x77]), (.retailMacTdes, [0x78, 0x79, 0x7A, 0x7B])]
/-- The rest of Table BUR-1: the batch, PIN and DUKPT rows. -/
def otherRows : List ((LaneId → EngId → Instr) × List Nat) := [
  (.ed25519BatchVerify, [0x1C, 0x1D, 0x1E]), (.pinBlockTranslate, [0x7C]), (.dukptDeriveTdes, [0x80]), (.dukptDeriveAes, [0x84])]
/-- The Strongroom's service rows (Table STR-3). -/
def serviceRows : List ((LaneId → EngId → Instr) × Nat) := [
  (.generateEcdsaP256Pair, 0xC0), (.generateEcdsaP384Pair, 0xC4), (.generateEd25519Pair, 0xC8), (.generateMlDsa44Pair, 0xCC),
  (.generateMlDsa65Pair, 0xCD), (.generateMlDsa87Pair, 0xCE), (.generateSymmetricKey, 0xD0), (.unwrapKeyBlock, 0xD4),
  (.wrapForExport, 0xD8), (.combineComponents, 0xDC), (.verifyTokenP384, 0xE0), (.verifyTokenMlDsa65, 0xE1),
  (.signPairingManifest, 0xE4), (.ecdhComponentTransport, 0xE8)]
/-- What a service answers for its request (R356, R452): a code and a result. -/
def State.serviceAns (s : State) (c : Nat) (o : BurOp) (mat : Bytes) (cls : Nat) (self : Bool) : Code × Bytes :=
  match c with
  | 0xD4 => match Config.unwrapKey cls mat o.desc with
    | some k => (0, k)
    | none => (0x1109, [])
  | 0xD8 => (0, Config.wrapKey cls mat o.desc s.free)
  | 0xDC => (0, Crypto.xorBytes (o.desc.take (o.desc.length / 2)) (o.desc.drop (o.desc.length / 2)))
  | 0xE0 => (if Config.sigValid 0x0C 0 (o.aux.drop 96) o.desc (o.aux.take 96) then 0 else 0x1101, [])
  | 0xE1 => (if Config.sigValid 0x24 0 (o.aux.drop 3309) o.desc (o.aux.take 3309) then 0 else 0x1101, [])
  | 0xE4 => (0, Bytes.slice (Config.sign 0x10 0 mat o.desc s.free) 0 96)
  | 0xE8 => (0, Config.ecdh mat o.desc)
  | _ => if s.str.lapsed || !self then (0x1111, []) else (0, s.freeBytes 64)

/-- Frame `f` of type `ty` arrives good on the link (R182), and its acknowledgment vector concerns no stored frame (R183). -/
def State.frameGood (s : State) (f : LinkFrame) (ty : Nat) : Prop :=
  s.twin.linkUp = true ∧ f.hdrOk = true ∧ f.good ty = true ∧ s.twin.txStore = []

/-- No PAUSE is in force and nothing waits for one to end: what a port sends leaves at once (R205). -/
def State.unpaused (s : State) : Prop := s.net.txHeld = [] ∧ ∀ q, SMap.get 0 q s.net.pauseEnd ≤ s.laneClk

/-- A Rhax message passes the checks of R199, and its sequence number has not been answered before (R200). -/
def State.rhaxFresh (s : State) (h : RhaxHdr) (exempt : Bool) : Prop :=
  s.rhaxCode h exempt = 0 ∧ s.twin.answered.find? (fun a => decide (a.1 = h.src) && decide (a.2.1 = h.mseq)) = none

/-- The Rhax message answers this device's request `r`, which is of one of the types (R200). -/
def State.rhaxAnswers (s : State) (h : RhaxHdr) (types : List Nat) (r : RhaxReq) : Prop :=
  s.twin.reqs.find? (fun q => decide (q.dst = h.src) && decide (q.mseq = h.mseq) && types.contains q.type) = some r

/-- The Cellarer is READY and has taken command `cmd` of COMMAND mailbox `n`, whose word 0 is well formed (R342, R344). -/
def State.skeidReady (s : State) (n cmd argc : Nat) : Prop :=
  n < 48 ∧ s.cel.st = 3 ∧ s.pwr.boot ≠ 6 ∧ (s.mbx n).st = 3 ∧ (s.mbx n).lostSender = false ∧ s.arg n 0 = cmd * 65536 + argc

/-- Command `cmd` of mailbox `n` has been acknowledged with `code` and the result words `res` (R342). -/
def State.skeidDone (u : State) (n cmd code : Nat) (res : List Nat) : Prop :=
  (u.mbx n).st = 4 ∧ (u.mbx n).ackCode = code ∧ u.arg n 0 = cmd * 65536 + res.length
    ∧ ∀ i, i < 15 → u.arg n (i + 1) = res.getD i 0 % 2 ^ 32

/-- A ticket for `it` has opened, waiting for its first token (R346). -/
def State.ticketOpened (s u : State) (it : Item) : Prop :=
  (∃ t, u.cel.tickets = s.cel.tickets ++ [t] ∧ t.num = s.cel.nextTicket ∧ t.item = it ∧ t.st = 1 ∧ t.officers = [])
    ∧ u.cel.nextTicket = s.cel.nextTicket + 1 ∧ u.dram = s.dram

end Sys2Proof.Machine
end

