-- ==== Sys2Proof/WellFormed.lean ====
section
/-!
DEFINITION. Well-formed commands: every number a command carries fits the field, message or bus it arrives in. The
meanings are total; an ill-formed command stands for nothing the outside world can present.
-/

namespace Sys2Proof

/-- A 52-bit physical address (R28). -/
def paOk (a : Nat) : Bool := decide (a < 2 ^ 52)
/-- The index of a 64-byte line of the physical address space. -/
def lineOk (l : Nat) : Bool := decide (l < 2 ^ 46)
/-- Bytes of one scalar access. -/
def sizeOk (n : Nat) : Bool := n = 1 || n = 2 || n = 4 || n = 8
/-- A journal record is 64, 128, 256 or 512 bytes (Table JRN-2). -/
def recordOk (b : Bytes) : Bool := b.length = 64 || b.length = 128 || b.length = 256 || b.length = 512

/-- A mirror-link frame has at least its header and a CRC, and at most the largest SIZE between them (R182). -/
def LinkFrame.wf (f : LinkFrame) : Bool := decide (16 ≤ f.bytes.length) && decide (f.bytes.length ≤ 272)
/-- A record with its 48-bit sequence number. -/
def seqRecOk (p : Nat × Bytes) : Bool := decide (p.1 < 2 ^ 64) && recordOk p.2
/-- What is known of the peer's copy of a ring: records under their sequence numbers, and a SHA-384 digest. -/
def PeerRing.wf (p : PeerRing) : Bool :=
  p.committed.all seqRecOk && p.held.all seqRecOk && p.copies.all seqRecOk && p.mine.all seqRecOk && decide (p.next < 2 ^ 64)
    && decide (p.prevD.length = 48)
/-- A signature to verify names a Burin operation code. -/
def SigIn.wf (g : SigIn) : Bool := decide (g.opc < 256)
/-- At most the 40 symbols of 16 bits of a codeword (R297). -/
def DramErr.wf (e : DramErr) : Bool := decide (e.flips.length ≤ 40) && e.flips.all (fun x => decide (x < 65536)) && e.cells.all lineOk
/-- The widths of a Rhax header (Table TWN-4). -/
def RhaxHdr.wf (h : RhaxHdr) : Bool :=
  decide (h.src < 2 ^ 18) && decide (h.domain < 2 ^ 32) && decide (h.config < 2 ^ 32) && decide (h.keyEpoch < 2 ^ 32)
    && decide (h.mseq < 2 ^ 32)
/-- The widths of a pairing manifest (Table TWN-3). -/
def Manifest.wf (m : Manifest) : Bool :=
  decide (m.device < 2 ^ 18) && decide (m.home < 65536) && decide (m.homeCfg < 65536) && decide (m.laneDigests.length = 16)
    && m.laneDigests.all (fun d => decide (d.length = 48)) && decide (m.prot.length = 48) && decide (m.digest.length = 48)
    && m.witness.all (fun w => decide (w < 2 ^ 18))
/-- A scalar hart access is 1, 2, 4 or 8 bytes; a vector access is a whole number of bytes up to a register. -/
def MemAccess.wf (a : MemAccess) : Bool := sizeOk a.size || (a.vector && decide (0 < a.size ∧ a.size ≤ 32))
/-- A request at a home slice stays within its line. -/
def L3Req.wf (r : L3Req) : Bool := lineOk r.line && decide (r.off + r.data.length ≤ 64)
/-- A memory request of a PCIe requester: a 16-bit requester ID, and as many bytes as it says. -/
def PcieReq.wf (r : PcieReq) : Bool :=
  decide (r.rid < 65536) && decide (r.aty < 3) && decide (r.addr < 2 ^ 64) && (!r.write || r.data.length = r.size)
/-- The widths of a usage policy (Table STR-5). -/
def Policy.wf (p : Policy) : Bool :=
  decide (p.lanes < 65536) && decide (p.units < 256) && decide (p.limit < 2 ^ 32) && decide (p.validFrom < 2 ^ 48)
    && decide (p.validUntil < 2 ^ 48)

/-- Whether the outside world can present the command. -/
def Instr.wf : Instr → Bool
  | .registerWrite ag addr size _ _ => ag.ok && paOk addr && sizeOk size
  | .registerReadClear ag addr _ => ag.ok && paOk addr
  | .lowWordRead ag addr => ag.ok && paOk addr
  | .reserveRequest _ req => decide (req.opc < 256) && decide (req.key < 2 ^ 64)
  | .cellarerAppend event _ body => decide (event < 65536) && decide (body.length ≤ 160)
  | .mirrorAckReceive _ seq _ => decide (seq < 2 ^ 64)
  | .replayRequestReceive _ seq => decide (seq < 2 ^ 64)
  | .replayTimeout _ seq => decide (seq < 2 ^ 64)
  | .recordFrameReceive frame => frame.wf
  | .witnessAckTimeout _ seq => decide (seq < 2 ^ 64)
  | .drainFrameReceive frame _ lastSeq => frame.wf && decide (lastSeq < 2 ^ 64)
  | .ringResyncComplete _ peer => peer.wf
  | .linkTraining flights _ _ => decide (flights.length = 16)
  | .manifestReceive m => m.wf
  | .ctlFrameReceive frame _ => frame.wf
  | .beatFrameReceive frame => frame.wf
  | .snapFrameReceive frame _ => frame.wf
  | .leaseReq h home => h.wf && decide (home < 2 ^ 18)
  | .leaseGrant h home => h.wf && decide (home < 2 ^ 18)
  | .leaseRefuse h home _ => h.wf && decide (home < 2 ^ 18)
  | .leaseRelease h home => h.wf && decide (home < 2 ^ 18)
  | .witnessLeaseExpiry home => decide (home < 2 ^ 18)
  | .wcopy h _ record => h.wf && recordOk record
  | .wcopyAck h _ seq => h.wf && decide (seq < 2 ^ 64)
  | .wcopyFetch h home => h.wf && decide (home < 2 ^ 18)
  | .wcopyData h copies _ => h.wf && copies.all (fun p => decide (p.1 < 17) && recordOk p.2)
  | .wcopyDrop h => h.wf
  | .xferOffer h hallmark route _ => h.wf && decide (hallmark.length = 32) && decide (route < 2 ^ 45)
  | .xferAccept h => h.wf
  | .xferRefuse h _ => h.wf
  | .xferTiles h _ => h.wf
  | .xferDone h _ _ _ => h.wf
  | .verifyReq h hallmark route outputs => h.wf && decide (hallmark.length = 32) && decide (route < 2 ^ 45) && decide (outputs.length ≤ 15)
  | .verifyResp h _ => h.wf
  | .timeAnnounce h _ _ _ _ => h.wf
  | .refuse h rtype _ => h.wf && decide (rtype < 256)
  | .rhaxRetryTimer dst mseq => decide (dst < 2 ^ 18) && decide (mseq < 2 ^ 32)
  | .ethernetFrameReceive _ f => decide (f.tags ≤ 2)
  | .handshakeStart _ hello => hello.peerCv.all SigIn.wf && hello.chain.all (fun c => decide (c.1.length = 32) && c.2.wf)
  | .tlsRecordReceive _ _ plain _ => decide (plain.length ≤ 16384)
  | .vendorCounterRead _ _ csr => decide (csr < 4096)
  | .hartMemoryAccess _ a => a.wf
  | .l3Request req => req.wf
  | .writebackAck _ line => lineOk line
  | .memoryRead _ line ag err _ => ag.ok && lineOk line && err.wf
  | .memoryWrite _ line data _ ag => ag.ok && lineOk line && decide (data.length = 64)
  | .dimmTemperatureRead _ temps => decide (temps.length ≤ 2)
  | .neighbourRefresh _ bank => decide (bank < 128)
  | .remapInstall _ line err => lineOk line && err.wf
  | .scrubRead _ err => err.wf
  | .memRemap _ err => err.wf
  | .cellarerInterrupt _ prio => decide (prio ≤ 7)
  | .mailboxRxExtend ag _ us => ag.ok && decide (us < 2 ^ 24)
  | .lockRead agents _ => !agents.isEmpty && agents.all (fun ag => ag.named)
  | .laneFirewall _ chg => chg.all (fun f => decide (f.agent < 512) && decide (f.read < 65536) && decide (f.tileWrite < 65536) && decide (f.shelf < 65536) && decide (f.control < 65536) && decide (f.mbx < 64))
  | .pcieWindows _ chg => chg.all (fun w => decide (w.port < 8) && decide (w.ridLo < 65536) && decide (w.ridHi < 65536) && paOk w.base && paOk w.limit)
  | .keyPolicy _ chg => chg.entries.all (fun e => decide (e.1 < 4096) && e.2.wf)
  | .keyGen _ chg => decide (chg.cls < 64) && decide (chg.policy < 4096) && decide (chg.opc < 256)
  | .keyImport _ chg => decide (chg.cls < 64) && decide (chg.policy < 4096) && decide (chg.wrapSlot < 16384)
  | .keyComponent _ chg => decide (chg.cls < 64) && decide (chg.policy < 4096)
  | .keyExport _ chg => decide (chg.wrapSlot < 16384)
  | .domain _ chg => decide (chg.device < 2 ^ 18) && decide (chg.homeCfg < 65536)
  | .netTables _ chg => chg.addrs.all (fun a => decide (a.1 < 64)) && chg.listeners.all (fun l => decide (l.1 < 256))
  | .journal _ chg => decide (chg.proofKey < 2 ^ 64) && decide (chg.proofAlg < 256)
  | .debugUnlock _ chg => decide (chg.expiry < 2 ^ 64)
  | .officers _ chg => chg.all (fun o => decide (o.slot < 32))
  | .pcieInboundRequest _ r => r.wf
  | .hostBarAccess _ _ _ r => sizeOk r.size
  | .pcieConfigRequest _ off _ => decide (off < 4096)
  | .pcieCompletionReceive tag c => decide (tag < 20480) && decide (c.status < 8)
  | .completionTimeout tag => decide (tag < 20480)
  | .tagQuarantineExpiry tag => decide (tag < 20480)
  | .atsTranslationResponse _ _ host => decide (host < 2 ^ 64)
  | .invalidateRequest _ base _ => decide (base < 2 ^ 64)
  | .msixUnmask fn vec => decide (vec < (if fn.val = 0 then 129 else 4))
  | .atticRead off => decide (off < 0x2400000)
  | .dramTrainingComplete found => decide (found.length = 16)
  | .i3cAccess reg _ => decide (reg < 256)
  | .cacheFill _ line _ _ => lineOk line
  | .headerHcrcFailure lseq => decide (lseq < 65536)
  | .drain ag _ _ => ag.ok
  | .admitEn ag _ _ => ag.ok
  | .resetReq ag _ => ag.ok
  | .apply ag _ => ag.ok
  | .hshConsWrite ag _ _ _ => ag.ok
  | .rshProdWrite ag _ _ _ => ag.ok
  | .drainRetire ag _ _ => ag.ok
  | .drainPause ag _ => ag.ok
  | .reassignReq ag _ => ag.ok
  | .trainNow ag _ => ag.ok
  | .freqReq ag _ _ => ag.ok
  | .histClear ag _ => ag.ok
  | .mailboxDataWrite ag _ _ _ => ag.ok
  | .mailboxGo ag _ _ => ag.ok
  | .mailboxClear ag _ => ag.ok
  | .mailboxRxRead ag _ => ag.ok
  | .mailboxRxAck ag _ _ _ => ag.ok
  | .lockWrite ag _ _ => ag.ok
  | .query ag _ _ => ag.ok
  | .arkEnable ag _ _ => ag.ok
  | .arkAbort ag _ => ag.ok
  | .clrHist ag _ => ag.ok
  | .clrCtr ag _ => ag.ok
  | .warmReq ag => ag.ok
  | .hartRst ag _ => ag.ok
  | .pwrTdp ag _ => ag.ok
  | .sdReq ag => ag.ok
  | .powerOff ag => ag.ok
  | .beatBoundary .. | .epochBoundary | .decisionTimeout .. | .messageShed .. | .beatOverrun .. | .beatTimerStart
  | .beatTimerRestart | .laneResetClear ..
  | .decisionCollect .. | .tileAlloc .. | .tileFree .. | .tileSeal .. | .tileDigest ..
  | .tileDigestComplete .. | .tileRelease .. | .hmField .. | .hmDerive .. | .stnGo .. | .burGo .. | .burSkip ..
  | .engWait .. | .engPoll .. | .shelfPost .. | .shelfPostResume .. | .jrnPut .. | .beatRead .. | .beatReadh ..
  | .beatLeft .. | .beatWait .. | .thrEnd .. | .thrSignal .. | .stylusLongOperation .. | .stylusSplitAccess ..
  | .stylusDramLoadReturn .. | .stylusInterrupt .. | .stylusException .. | .translate .. | .validate ..
  | .resume .. | .abort .. | .stnRunEnd .. | .ecdsaP256Verify .. | .ecdsaP256Sign .. | .ecdsaP384Verify ..
  | .ecdsaP384Sign .. | .ed25519Verify .. | .ed25519Sign .. | .ed25519BatchVerify .. | .mlDsa44Verify ..
  | .mlDsa65Verify .. | .mlDsa87Verify .. | .mlDsa44Sign .. | .mlDsa65Sign .. | .mlDsa87Sign .. | .rsa2048Verify ..
  | .rsa2048Sign .. | .rsa4096Verify .. | .rsa4096Sign .. | .pinBlockTranslate .. | .dukptDeriveTdes ..
  | .dukptDeriveAes .. | .sha256 .. | .sha384 .. | .sha512 .. | .sha3256 .. | .sha3384 .. | .sha3512 ..
  | .hmacSha256 .. | .hmacSha384 .. | .hmacSha512 .. | .aesCmac .. | .iso9797Mac1Aes .. | .iso9797Mac1Tdes ..
  | .retailMacTdes .. | .burOperationComplete .. | .generateEcdsaP256Pair .. | .generateEcdsaP384Pair ..
  | .generateEd25519Pair .. | .generateMlDsa44Pair .. | .generateMlDsa65Pair .. | .generateMlDsa87Pair ..
  | .generateSymmetricKey .. | .unwrapKeyBlock .. | .wrapForExport .. | .combineComponents .. | .verifyTokenP384 ..
  | .verifyTokenMlDsa65 .. | .signPairingManifest .. | .ecdhComponentTransport .. | .hmCheck .. | .hmStep ..
  | .tileCheck .. | .jrnAppend .. | .recordAccept .. | .linkFailure .. | .drainCopy ..
  | .linkRetrainTimer | .headerTimeout | .symbolLockLoss .. | .idleAckSend | .beatFrameMissing
  | .leaseExpiry .. | .takeoverLeaseRetry | .witnessSilence | .portLinkChange .. | .tcpConnectionEstablish ..
  | .listenerReconnect .. | .tcpRetransmitTimeout .. | .tcpRstReceive .. | .keepaliveProbe .. | .messageMint ..
  | .handshakeComplete .. | .keyUpdateSend .. | .handshakeTimeout .. | .msgTimeout ..
  | .idleTimeout .. | .stallTimeout .. | .lingerTimeout .. | .reclaimTimeout .. | .partnerClose ..
  | .releaseAccept .. | .reassignMove | .reassignTimeout | .ptpMessageReceive .. | .ptpSyncLoss
  | .hartBeatRead .. | .hartBeatWait .. | .ksealWrite .. | .bpflush .. | .kerrrecRead .. | .counterOverflow ..
  | .hartInterrupt .. | .cboClean .. | .cboFlush .. | .cboInval .. | .cboZero .. | .debugCommand ..
  | .dmactiveClear | .debugRelock | .refreshDue .. | .dqsDriftTrack .. | .trainingPassStart ..
  | .trainingPassEnd .. | .errorWindowEnd .. | .channelFailure .. | .freqChangeComplete ..
  | .scrubResult .. | .scrubSlowWarning .. | .cellarerWatchdogExpiry
  | .cellarerRestart ..
  | .mailboxTimeout .. | .health .. | .version .. | .rasQuery .. | .mbxBind ..
  | .lockRelease .. | .laneReset .. | .laneLoad .. | .stencilLoad .. | .laneHandover .. | .laneRelease ..
  | .pairStart .. | .keyDestroy .. | .rootRotate .. | .adminSet .. | .zeroize .. | .approve .. | .ticketStatus ..
  | .ticketCancel .. | .ticketExpiry .. | .stagedChangeApply | .cachePart .. | .memConfig ..
  | .fwStage .. | .garretList .. | .garretRead .. | .garretFreeze .. | .hmReplay ..
  | .entropyHealthFailure | .reseedLapse | .pcieLinkUp .. | .pcieLinkDown .. | .hdmaDescriptor ..
  | .hdmaDescriptorComplete .. | .invalidateCompletion .. | .busMasterEnableClear .. | .functionLevelReset ..
  | .flrComplete .. | .vfEnable .. | .compress .. | .decompress .. | .verify ..
  | .arkDescriptorComplete .. | .garretRecordWrite .. | .freezeStop | .atticCopyComplete
  | .fullColdReset .. | .coldRstN .. | .mainColdStart .. | .pwrgdFall | .warmRstN .. | .warmResetExit
  | .firmwareVerifyComplete .. | .cellarerReady | .hartRelease .. | .pairingTimeout ..
  | .powerManagerInterval .. | .bayThermalLimit .. | .prochotSensor ..
  | .prochotNInput .. | .thermalTrip .. | .referenceClockLoss .. | .avsbusFailure .. | .avsbusRetry ..
  | .sidebandRelease | .stylusRv32Instruction .. | .hartInstruction .. | .queuedWriteIssue ..
  | .tilePortTransferEnd .. | .gratuitousArp .. | .standbyPowerLoss | .presenceDetectChange .. => true

end Sys2Proof
end

