-- ==== Sys2Proof/Certificates/Slice0/Obligations.lean ====
section
/-!
DEFINITION. The statements for the provers. Each says what commands of one family do: that the command answers a next state,
what that state holds, and what it leaves unchanged.
-/

open Sys2Proof Sys2Proof.Machine

/-- A step runs the command at the front of the queue, on the state that keeps the queue's rest. -/
def Obligations.StepRunsFrontCommand : Prop :=
  ∀ (c : Instr) (r : List Instr) (s : State), s.pending = c :: r → step s = exec c { s with pending := r }

/-- On an empty queue one lane cycle passes: the lane clock counts and, while the beat timer runs, the count within the
beat rises, short of the next boundary. Nothing else changes while no frame waits for a PAUSE to end and the Cellarer core
has nothing to issue in the cycle. The model's own choice (log entry 3). -/
def Obligations.IdleStepIsOneLaneCycle : Prop :=
  ∀ s : State, s.pending = [] → ∃ u, step s = .next u ∧ u.laneClk = s.laneClk + 1
    ∧ (s.net.txHeld = [] → s.laneClk % 2 = 0 ∨ s.cel.st < 2 ∨ s.cel.fetch = none →
        u.btm = { s.btm with cyc := u.btm.cyc }
          ∧ u.btm.cyc = (if s.btm.running then min (s.btm.cyc + 1) (s.btm.len - 1) else s.btm.cyc)
          ∧ u = { s with laneClk := u.laneClk, btm := u.btm })

/-- Every command is answered with a next state, in every state. -/
def Obligations.EveryCommandIsAnswered : Prop :=
  ∀ (c : Instr) (s : State), Res.isNext (exec c s) = true

/-- No step changes the boot ROM (R28: read-only), and no command touches the queue. -/
def Obligations.StepKeepsRomAndQueue : Prop :=
  (∀ (s t : State), step s = .next t → t.rom = s.rom)
    ∧ ∀ (c : Instr) (s t : State), exec c s = .next t → s.sameFixed t

/-- Every step keeps the DRAM contents in canonical form: addresses strictly rising, no byte listed that an unlisted one
reads as. -/
def Obligations.StepKeepsDramCanonical : Prop :=
  ∀ (s t : State), s.memOk → step s = .next t → t.memOk

/-- The state after reset satisfies the invariants: canonical DRAM, an empty queue, no thread, lane or hart that runs. -/
def Obligations.ResetIsCanonical : Prop :=
  State.reset.memOk ∧ State.reset.pending = [] ∧ (∀ n t, (State.reset.thr n t).run = .idle)
    ∧ (∀ n, (State.reset.lane n).st = 0) ∧ ∀ h, (State.reset.hart h).run = false

/-- A byte written to a canonical memory is read back; every other byte reads as before; the form is kept. -/
def Obligations.MemoryReadAfterWrite : Prop :=
  ∀ (m : SMap Byte) (a : Nat) (b : Bytes), Memory.wf m = true →
    Memory.wf (memWrite m a b) = true ∧ memRead (memWrite m a b) a b.length = b
      ∧ ∀ c, (c < a ∨ a + b.length ≤ c) → memRead (memWrite m a b) c 1 = memRead m c 1

/-- What a write leaves in each bit of a register, by its access type: RW takes the written bit, W1C is cleared by a 1 and
kept by a 0, W1S is set by a 1 and kept by a 0, a bit of no writable type is kept (Table KU-3). -/
def Obligations.AccessTypesBitByBit : Prop :=
  ∀ (r : RegRow) (old v : W32) (i : Nat), i < 32 →
    (r.rw.testBit i = true → r.w1c.testBit i = false → r.w1s.testBit i = false → (r.write old v).getLsbD i = v.getLsbD i)
      ∧ (r.rw.testBit i = false → r.w1c.testBit i = true → r.w1s.testBit i = false →
          (r.write old v).getLsbD i = (old.getLsbD i && !v.getLsbD i))
      ∧ (r.rw.testBit i = false → r.w1c.testBit i = false → r.w1s.testBit i = true →
          (r.write old v).getLsbD i = (old.getLsbD i || v.getLsbD i))
      ∧ (r.rw.testBit i = false → r.w1c.testBit i = false → r.w1s.testBit i = false →
          (r.write old v).getLsbD i = old.getLsbD i)

/-- REGISTER_WRITE of any register by an agent that may write it, with an aligned 32-bit access, completes, and the requester
sees no error (R4, R5). A register whose write has no effect beyond its own bits takes the written value by its bits' access
types (Table KU-3); a W1C bit that hardware sets in the same cycle is set after the write (R8), and an update of its RW bits in
the same cycle is lost (R10). Where no register stands the write changes nothing (R6). -/
def Obligations.RegisterWriteCompletes : Prop :=
  ∀ (g : Agent) (a : Nat) (v : W32) (hw : HwUpdate) (s : State),
    a % 4 = 0 → s.region a = .regs → s.regMay g a true = true →
    (Runs (.registerWrite g a 4 v hw) s fun u => SMap.find g u.readErr = none)
    ∧ (∀ r, plainReg a = true → regRow a = some r → r.name ≠ "IRQ_STATUS" → Runs (.registerWrite g a 4 v hw) s fun u =>
        u.reg a = (r.write (BitVec.ofNat 32 (s.reg a)) v ||| (hw.sets &&& BitVec.ofNat 32 r.w1c)).toNat
          ∧ (∀ b, b ≠ a → u.reg b = s.reg b) ∧ u = { s with regs := u.regs, readErr := SMap.del g s.readErr })
    ∧ (plainReg a = true → regRow a = none → Runs (.registerWrite g a 4 v hw) s fun u =>
        u = { s with readErr := SMap.del g s.readErr })

/-- A register access that is narrower, wider or misaligned, or that the agent may not make, is not performed: a hart takes
access fault 7 at the address, any other agent a Completer Abort (R5, R31); what hardware does to the register in the same
cycle still happens. Where no register block stands a hart takes the same fault and another agent an Unsupported Request. -/
def Obligations.BadRegisterAccessIsRefused : Prop :=
  ∀ (g : Agent) (a size : Nat) (v : W32) (hw : HwUpdate) (s : State),
    (s.region a = .regs → size ≠ 4 ∨ a % 4 ≠ 0 ∨ s.regMay g a true = false →
      (g.val < 256 → exec (.registerWrite g a size v hw) s = .next ((s.hartTrap g 7 a).hwUpdate a hw false))
        ∧ (256 ≤ g.val → exec (.registerWrite g a size v hw) s
            = .next ({ s with readErr := SMap.set 0 g 2 s.readErr } |>.hwUpdate a hw false)))
    ∧ (s.region a ≠ .regs →
      (g.val < 256 → exec (.registerWrite g a size v hw) s = .next ((s.hartTrap g 7 a).hwUpdate a hw false))
        ∧ (256 ≤ g.val → exec (.registerWrite g a size v hw) s
            = .next ({ s with readErr := SMap.set 0 g 1 s.readErr } |>.hwUpdate a hw false)))
    ∧ ∀ m val old : W32, ∀ r, regRow a = some r → BitVec.ofNat 32 (s.reg a) = old →
        (s.hwUpdate a { sets := 0, mask := m, val := val } false).reg a
          = ((old &&& ~~~(m &&& BitVec.ofNat 32 r.rw)) ||| (val &&& (m &&& BitVec.ofNat 32 r.rw))).toNat

/-- A read of a register returns its value from before the read; RC bits are then cleared but for the events of the same
cycle, which they hold (R9); reading the low word of a pair latches the high word for the reader, whose next read of the high word gives the latched
value; a high word not latched reads live (R11). -/
def Obligations.RegisterReadsComplete : Prop :=
  ∀ (g : Agent) (a : Nat) (ev : W32) (s : State), s.region a = .regs → a % 4 = 0 → 0x02000000 ≤ a → s.regMay g a false = true →
    let mine := fun (b : Nat) (l : Nat × Nat × W32) => decide (l.1 = g.val) && decide (l.2.1 = b)
    (s.latch.find? (mine a) = none →
      (Runs (.registerReadClear g a ev) s fun u =>
        SMap.get 0 g u.readRes = s.regVal a
          ∧ (∀ r, regRow a = some r → r.rc ≠ 0 →
              u.reg a = (s.regVal a - (s.regVal a &&& r.rc) + (ev.toNat &&& r.rc)) % 2 ^ 32)
          ∧ (∀ b, b ≠ a → u.reg b = s.reg b)
          ∧ u = { s with regs := u.regs, latch := u.latch, readRes := u.readRes, readErr := u.readErr })
      ∧ (isLow a = true → Runs (.lowWordRead g a) s fun u =>
          SMap.get 0 g u.readRes = s.regVal a
            ∧ u.latch.find? (mine (a + 4)) = some (g.val, a + 4, BitVec.ofNat 32 (s.regVal (a + 4)))))
    ∧ ∀ v, s.latch.find? (mine a) = some (g.val, a, v) → Runs (.registerReadClear g a ev) s fun u =>
        SMap.get 0 g u.readRes = v.toNat ∧ u.latch.find? (mine a) = none ∧ u.regs = s.regs
          ∧ u = { s with latch := u.latch, readRes := u.readRes, readErr := u.readErr }

/-- Writes of a lane's control block by an agent with the CONTROL or SHELF right on the lane: DRAIN, ADMIT_EN, APPLY, the
counter clears, and the two shelf indices, each with everything it leaves unchanged (R51, R63, R64, R69, R413, R414).
RESET_REQ by an agent with the CONTROL right, on a lane that is OFFLINE, IN_SERVICE or DRAINING: the lane is RESETTING,
CTL.RESET_REQ reads 1, every thread of the lane is idle, its undispatched descriptors are dropped; other lanes stay; in any
other state of the lane the request changes nothing (R66). -/
def Obligations.LaneControlWritesComplete : Prop :=
  (∀ (g : Agent) (n : LaneId) (v : Bool) (k : Fin 8) (w : W32) (s : State),
    (s.right g n 3 = true →
      (Runs (.drain g n v) s fun u => u.lreg n 0 = setBits (s.lreg n 0) 2 2 (b2n v) % 2 ^ 32 ∧ s.onlyReg u (laneBase n))
      ∧ (Runs (.admitEn g n v) s fun u => u.lreg n 0 = setBits (s.lreg n 0) 0 0 (b2n v) % 2 ^ 32 ∧ s.onlyReg u (laneBase n))
      ∧ (Runs (.apply g n) s fun u => u.lane n = { s.lane n with applyPending := true } ∧ s.onlyLane u n)
      ∧ (Runs (.clrHist g n) s fun u => u.lane n = { s.lane n with hist0 := [], hist1 := [] } ∧ s.onlyLane u n)
      ∧ (Runs (.clrCtr g n) s fun u => u.lane n = { s.lane n with lpmu := [] } ∧ s.onlyLane u n))
    ∧ (s.right g n 2 = true →
      (Runs (.hshConsWrite g n k w) s fun u =>
        u.lreg n (0x2010 + 0x40 * k) = w.toNat ∧ s.onlyReg u (laneBase n + (0x2010 + 0x40 * k)))
      ∧ ((w.toNat + 2 ^ 32 - s.lreg n (0x2210 + 0x40 * k)) % 2 ^ 32 ≤ shelfEntries ((s.lane n).cfg (0x2208 + 0x40 * k)) →
          Runs (.rshProdWrite g n k w) s fun u =>
            u.lreg n (0x220C + 0x40 * k) = w.toNat ∧ s.onlyReg u (laneBase n + (0x220C + 0x40 * k)))
      ∧ ((w.toNat + 2 ^ 32 - s.lreg n (0x2210 + 0x40 * k)) % 2 ^ 32 > shelfEntries ((s.lane n).cfg (0x2208 + 0x40 * k)) →
          exec (.rshProdWrite g n k w) s = .next s)))
  ∧ (∀ (g : Agent) (n : LaneId) (s : State), s.right g n 3 = true → (s.lane n).st = 0 ∨ (s.lane n).st = 2 ∨ (s.lane n).st = 3 →
    Runs (.resetReq g n) s fun u =>
      (u.lane n).st = 4 ∧ bit (u.lreg n 0) 1 = true ∧ (∀ p ∈ (u.lane n).threads, p.2.run = .idle ∧ p.2.phase = none)
        ∧ (u.lane n).stn.q = [] ∧ (∀ p ∈ (u.lane n).eng, ∀ o ∈ p.2.q, o.src.isThread = false)
        ∧ (∀ m, m ≠ n.val → u.lane m = s.lane m ∧ u.ring m = s.ring m)
        ∧ (∃ b, (u.lane n).reset = some b ∧ b.agent = g.val ∧ b.cleared = false)
        ∧ u = { s with regs := u.regs, lanes := u.lanes, jrn := u.jrn })
  ∧ (∀ (g : Agent) (n : LaneId) (s : State), s.right g n 3 = true → (s.lane n).st ≠ 0 → (s.lane n).st ≠ 2 → (s.lane n).st ≠ 3 →
    exec (.resetReq g n) s = .next s)

/-- A control write by an agent without the right changes nothing: a hart takes store access fault 7 at the register, any
other agent a Completer Abort (Table KU-13, R371). -/
def Obligations.LaneControlWritesRefused : Prop :=
  ∀ (g : Agent) (n : LaneId) (v : Bool) (k : Fin 8) (w : W32) (s : State),
    (s.right g n 3 = false →
      exec (.drain g n v) s = .next (s.refuse g (laneBase n) true) ∧ exec (.admitEn g n v) s = .next (s.refuse g (laneBase n) true)
        ∧ exec (.resetReq g n) s = .next (s.refuse g (laneBase n) true)
        ∧ exec (.apply g n) s = .next (s.refuse g (laneBase n + 0x28) true)
        ∧ exec (.clrHist g n) s = .next (s.refuse g (laneBase n + 0x3100) true)
        ∧ exec (.clrCtr g n) s = .next (s.refuse g (laneBase n + 0x3100) true))
      ∧ (s.right g n 2 = false →
        exec (.hshConsWrite g n k w) s = .next (s.refuse g (laneBase n + (0x2010 + 0x40 * k)) true)
          ∧ exec (.rshProdWrite g n k w) s = .next (s.refuse g (laneBase n + (0x220C + 0x40 * k)) true))
      ∧ (g.val < 256 → ∀ a, s.refuse g a true = s.hartTrap g 7 a)
      ∧ (256 ≤ g.val → ∀ a, s.refuse g a true = { s with readErr := SMap.set 0 g 2 s.readErr })

/-- The beat timer: its start once PTP has locked, its restart while every lane is OFFLINE (R53, R54).
A beat boundary while the beat timer runs: the beat number rises by one, the count begins again, the next beat's length
is within 16 lane cycles of 16,000, the standby counter is loaded with the TAI time, and a hart in BEAT.WAIT whose target is
reached goes on (R26, R52, R239, R420). In its lane cycle a lane takes the state that its CTL register asks for: OFFLINE to
IN_SERVICE with its service thread started, IN_SERVICE to DRAINING and back, DRAINING to OFFLINE once nothing is in flight
(R51, R81); and a pending configuration that passes its checks takes effect as a whole (R69).
The beat length acts against the offset: longer when the timer is ahead, shorter when it is behind, 16,000 lane cycles
in holdover (R53).
An epoch boundary at a beat that is a multiple of 100: every lane's OVR_EPOCH is 0 and its storm may be raised again, the
lapse of a reseed ends unless the entropy source has failed, the Cellarer's heartbeat counts while it is READY, and every open
ring is sealed for the epoch that has ended (R61, R175, R362). -/
def Obligations.BeatOperationsComplete : Prop :=
  (∀ s : State,
    (s.btm.running = false → s.btm.ptpLocked = true →
      Runs .beatTimerStart s fun u =>
        u.btm.running = true ∧ u.btm.beat = cdiv s.ptpNs 10000 ∧ u.btm.cyc = 0 ∧ u.btm.locked = true
          ∧ u.laneClk = s.laneClk + cdiv ((u.btm.beat * 10000 - s.ptpNs) * 8) 5
          ∧ u = { s with laneClk := u.laneClk, btm := u.btm, jrn := u.jrn, pwr := u.pwr })
    ∧ (s.btm.running = true → (∀ n, n < 16 → (s.lane n).st = 0) →
      Runs .beatTimerRestart s fun u =>
        u.btm.beat = s.ptpNs / 10000 ∧ u.btm.cyc = s.ptpNs % 10000 * 8 / 5 ∧ u = { s with btm := u.btm, jrn := u.jrn })
    ∧ (∀ n, n < 16 → (s.lane n).st ≠ 0 → exec .beatTimerRestart s = .next s))
  ∧ (∀ (off : Int) (s : State), s.btm.running = true →
    (Runs (.beatBoundary off) s fun u =>
      u.btm = s.btm.boundary off ∧ u.btm.beat = s.btm.beat + 1 ∧ u.btm.cyc = 0 ∧ u.btm.offset = off
        ∧ 15984 ≤ u.btm.len ∧ u.btm.len ≤ 16016 ∧ u.gar.standby = u.btm.beat * 10000
        ∧ u.laneClk = s.laneClk + (s.btm.len - s.btm.cyc)
        ∧ ∀ h rd w, (s.hart h).wait = .beat rd w → w ≤ s.btm.beat + 1 → (s.hart h).run = true → (s.hart h).halted = false →
            u.hart h = (s.hart h).ret rd (BitVec.ofNat 64 (s.btm.beat + 1)) 4)
    ∧ ∀ n, n < 16 → s.twin.handover = none → s.twin.takeover = .none →
      let l := s.lane n
      let ctl := s.lreg n 0
      (l.st = 0 → l.loaded = true → bit ctl 0 = true → bit ctl 2 = false → s.str.bootstrap = false →
          Runs (.beatBoundary off) s fun u =>
        (u.lane n).st = 2 ∧ (u.thr n 0).run = .run ∧ (u.thr n 0).pc = BitVec.ofNat 32 (imgService (l.image l.bank)))
      ∧ (l.st = 2 → bit ctl 2 = true → Runs (.beatBoundary off) s fun u => (u.lane n).st = 3)
      ∧ (l.st = 3 → bit ctl 2 = false → Runs (.beatBoundary off) s fun u => (u.lane n).st = 2)
      ∧ (l.st = 3 → bit ctl 2 = true → bit ctl 0 = false → l.inflight = 0 → Runs (.beatBoundary off) s fun u => (u.lane n).st = 0)
      ∧ (l.applyPending = true → s.applyCode n = 0 → Runs (.beatBoundary off) s fun u =>
        (u.lane n).applyPending = false ∧ (u.lane n).admCode = 0 ∧ ∀ o ∈ shadowOffs, (u.lane n).cfg o = s.lreg n o))
  ∧ (∀ (off : Int), beatLen true off = 16000 ∧ (10 ≤ off → beatLen false off = 16016) ∧ (off ≤ -10 → beatLen false off = 15984)
    ∧ (0 ≤ off → 16000 ≤ beatLen false off) ∧ (off ≤ 0 → beatLen false off ≤ 16000))
  ∧ (∀ s : State, s.btm.running = true → s.btm.beat % 100 = 0 →
    (Runs .epochBoundary s fun u =>
      (s.str.entFail = false → u.str.lapsed = false ∧ u.str.lastReseed = s.btm.beat / 100)
        ∧ (s.str.entFail = true → u.str.lapsed = s.str.lapsed)
        ∧ (∀ n, n < 16 → (u.lane n).stormReq = false ∧ u.lreg n 0x34 = 0)
        ∧ u.cel.heartbeat = (if s.cel.st = 3 then (s.cel.heartbeat + 1) % 2 ^ 32 else s.cel.heartbeat)
        ∧ u.btm = s.btm)
    ∧ ∀ k, k < 17 → s.sealPending = true → s.twin.witProposed = none → (s.ring k).hold = 0 → (s.ring k).late = [] →
        (s.ring k).fill + 128 ≤ ringCap k → Runs .epochBoundary s fun u =>
      (u.ring k).seqNext = (s.ring k).seqNext + 1
        ∧ ∃ x ∈ (u.ring k).recs, x.seq = (s.ring k).seqNext ∧ Bytes.le x.bytes 21 1 = 3 ∧ Bytes.le x.bytes 32 8 = (s.epoch - 1) % 2 ^ 64)

/-- LANE_RESET_CLEAR on a RESETTING lane none of whose engines runs: tiles, in-flight table, candidates and transient keys are
cleared, the larder, scratch areas and stencils keep their contents, and the reset record waits at the lane's journal port
(Table KU-25, R67). -/
def Obligations.LaneResetClearCompletes : Prop :=
  ∀ (n : LaneId) (r : ResetBook) (s : State), (s.lane n).st = 4 → (s.lane n).reset = some r → r.cleared = false →
    (s.lane n).stn.run = none → (∀ p ∈ (s.lane n).eng, p.2.run = none) →
    Runs (.laneResetClear n) s fun u =>
      (u.lane n).st = 4 ∧ (u.lane n).reset = some { r with cleared := true } ∧ (u.lane n).msgs = [] ∧ (u.lane n).cands = []
        ∧ (u.lane n).side = [] ∧ (u.lane n).trans = [] ∧ (u.lane n).stencils = (s.lane n).stencils
        ∧ (∀ a, a < tileCount * 256 → SMap.get 0 a (u.lane n).tmem = 0)
        ∧ (∀ a, tileCount * 256 ≤ a → SMap.get 0 a (u.lane n).tmem = SMap.get 0 a (s.lane n).tmem)
        ∧ (∀ m, m ≠ n.val → u.lane m = s.lane m)
        ∧ (∀ k : Fin 16, u.lreg n (shelfOff k + 0xC) = 0 ∧ u.lreg n (shelfOff k + 0x10) = 0)
        ∧ (u.ring n).waiting.length = (s.ring n).waiting.length + 1
        ∧ ∃ p ∈ (u.ring n).waiting, p.agent = 256 + n ∧ p.hw = true
            ∧ p.bytes = recBytes 0x01 (if (s.lostMsgs n).1.isEmpty then 0 else 0x150A) 1
                (resetPayload (s.lostMsgs n).1 (s.lostMsgs n).2 r.agent)

/-- The lane's events at and between beats. DECISION_COLLECT: a collected entry advances the return shelf's consumer index, and
a good decision for a waiting message makes it an outbound candidate with the entry kept (R41). DECISION_TIMEOUT: an awaited
decision that has timed out makes its message an outbound candidate (R42). MESSAGE_SHED: a candidate at its age limit becomes a
shed candidate of the SHED_CLASS, or, with SHED_CLASS 0, leaves with a 0x84 record and thread 0's SHED interrupt pends (R57).
BEAT_OVERRUN: a phase past its deadline is an overrun, counted, and its thread's interrupt pends (R60). RESERVE_REQUEST: a
reserve request waits in the lane's queue, or is refused by its cost (R59). -/
def Obligations.LaneEventsComplete : Prop :=
  ∀ (n : LaneId) (s : State),
    (∀ k : Fin 8, (s.lane n).st = 2 ∨ (s.lane n).st = 3 → bit ((s.lane n).cfg (shelfOff (8 + k) + 8)) 0 = true →
      s.lreg n (shelfOff (8 + k) + 0x10) ≠ s.lreg n (shelfOff (8 + k) + 0xC) →
      let cfg := (s.lane n).cfg (shelfOff (8 + k) + 8)
      let c := s.lreg n (shelfOff (8 + k) + 0x10)
      let at0 := (s.lane n).cfg (shelfOff (8 + k)) + (s.lane n).cfg (shelfOff (8 + k) + 4) * 2 ^ 32 + c % shelfEntries cfg * shelfSlot cfg
      let b := s.dramRead at0 (shelfSlot cfg)
      (Runs (.decisionCollect n k) s fun u =>
        u.lreg n (shelfOff (8 + k) + 0x10) = (c + 1) % 2 ^ 32 ∧ u.ark = s.ark ∧ u.net = s.net)
      ∧ ∀ h m, s.shelfGone n (8 + k) = false → s.poisoned at0 (shelfSlot cfg) = false → (s.lane n).held (Hallmark.ofBytes b) = some (h, m) →
          m.stage = .awaiting → s.decisionCheck m b (shelfSlot cfg) = 0 → Runs (.decisionCollect n k) s fun u =>
        (∃ m', (u.lane n).msg h = some m' ∧ m'.stage = .waitOut ∧ m'.hm.chain = (Hallmark.ofBytes b).chain ∧ m'.hm.step = m.hm.step + 1
            ∧ m'.decision = some (b.take (40 + Bytes.le b 32 2)))
          ∧ (u.lane n).cands = (s.lane n).cands
              ++ [{ h := h, outbound := true, cls := m.cls, born := s.btm.beat, input := m.canonLen + (40 + Bytes.le b 32 2) }]
          ∧ ∀ k, k ≠ n.val → u.lane k = s.lane k)
    ∧ (∀ (h : Handle) m, (s.lane n).msg h = some m → m.stage = .awaiting → m.toBeat ≤ s.btm.beat + 1 → s.decisionWaits n m = false →
        Runs (.decisionTimeout n h) s fun u =>
          (u.lane n).msg h = some { m with stage := .waitOut, timedOut := true }
            ∧ (u.lane n).cands = (s.lane n).cands
                ++ [{ h := h, outbound := true, cls := m.cls, born := s.btm.beat + 1, input := m.canonLen }]
            ∧ bit (u.lreg n 8) 3 = true ∧ ∀ k, k ≠ n.val → u.lane k = s.lane k)
    ∧ (∀ (h : Handle) c m, (s.lane n).cands.find? (fun c => c.h = h.val) = some c → c.shed = false → (s.lane n).msg h = some m →
        c.born + bits ((s.lane n).cls c.cls 0) 18 11 ≤ s.btm.beat →
        (bits ((s.lane n).cls c.cls 0) 23 19 ≠ 0 → s.btm.cyc ≠ 0 → Runs (.messageShed n h) s fun u =>
          (u.lane n).cands = (s.lane n).cands.filter (fun x => x.h ≠ h.val)
              ++ [{ h := h, outbound := true, shed := true, cls := bits ((s.lane n).cls c.cls 0) 23 19, born := s.btm.beat,
                    input := c.input, wasOut := c.outbound }]
            ∧ (u.lane n).msg h = some { m with stage := .waitOut } ∧ bit (u.lreg n 8) 2 = true ∧ ∀ k, k ≠ n.val → u.lane k = s.lane k)
        ∧ (bits ((s.lane n).cls c.cls 0) 23 19 = 0 → Runs (.messageShed n h) s fun u =>
          (u.lane n).cands = (s.lane n).cands.filter (fun x => x.h ≠ h.val) ∧ bit (u.lreg n 8) 2 = true
            ∧ (u.ring n).waiting = enqueueRec { hwRec n h m 0x84 0x1503 with clk := s.laneClk } (s.ring n).waiting
            ∧ (u.thr n 0).mip = (s.thr n 0).mip ||| 0x80000#32 ∧ ∀ k, k ≠ n.val → u.lane k = s.lane k ∧ u.ring k = s.ring k))
    ∧ (∀ (t : ThreadId) p, (s.thr n t).phase = some p → p.overdue s.btm.beat = true →
        Runs (.beatOverrun n t) s fun u =>
          u.lreg n 0x30 = (s.lreg n 0x30 + 1) % 2 ^ 32 ∧ bit (u.lreg n 8) 0 = true
            ∧ (u.thr n t).mip = (s.thr n t).mip ||| 0x20000#32
            ∧ (∃ q, (u.thr n t).phase = some q ∧ q = { p with overrun := true, ovrClk := q.ovrClk, ovrTiles := q.ovrTiles })
            ∧ ∀ k, k ≠ n.val → u.lane k = s.lane k)
    ∧ ∀ q : ReserveReq,
      (opUnits q.opc ≤ 16 * bits ((s.lane n).cfg 0x24) 15 0 → (opCycles q.opc).isSome →
        Runs (.reserveRequest n q) s fun u =>
          u.lane n = { s.lane n with rsvq := (s.lane n).rsvq ++ [q] } ∧ s.onlyLane u n)
      ∧ (q.unit = .net → 16 * bits ((s.lane n).cfg 0x24) 15 0 < opUnits q.opc → Runs (.reserveRequest n q) s fun u =>
          u.rsvDone = s.rsvDone ++ [(.net, q.ref, 0x1105, [])] ∧ u.lanes = s.lanes)

/-- Tile operations of a running thread (R134, R138, R139): TILE.ALLOC gives the first tile of a new chain or 0xFFFF_FFFF;
TILE.FREE and TILE.SEAL act on the named tile and go on; TILE.DIGEST gives a tag; the thread's other state changes only as
the result says. A result written to x0 is discarded. The thread runs, and the word at its pc is the operation's of Table STY-5 (R82).
Commands: TILE_ALLOC, TILE_FREE, TILE_SEAL, TILE_DIGEST. -/
def Obligations.TileOperationsComplete : Prop :=
  ∀ (n : LaneId) (t : ThreadId) (rd rs1 rs2 : XReg) (s : State),
    let is := fun (x : XOp) => (s.lane n).atOp t x = true
    let a := ((s.thr n t).rd rs1).toNat
    let f := ((s.thr n t).rd rs2).toNat
    (∀ i l, is (xTileAlloc rd rs1) → 1 ≤ a → a ≤ 1024 → (s.lane n).alloc a = some (i, l) → Runs (.tileAlloc n t rd rs1) s fun u =>
        (rd.val ≠ 0 → (u.thr n t).rd rd = BitVec.ofNat 32 i) ∧ (rd.val = 0 → (u.thr n t).x = (s.thr n t).x)
          ∧ (u.thr n t).pc = (s.thr n t).pc + 4 ∧ (u.lane n).side = l.side ∧ s.onlyLane u n)
    ∧ (is (xTileAlloc rd rs1) → 1 ≤ a → a ≤ 1024 → (s.lane n).alloc a = none → Runs (.tileAlloc n t rd rs1) s fun u =>
        (rd.val ≠ 0 → (u.thr n t).rd rd = 0xFFFFFFFF#32) ∧ (u.thr n t).pc = (s.thr n t).pc + 4 ∧ s.onlyThread u n t)
    ∧ (is (xTileAlloc rd rs1) → a = 0 ∨ 1024 < a → Runs (.tileAlloc n t rd rs1) s fun u =>
        (u.thr n t).pc = (s.thr n t).pc + 4 ∧ (u.lane n).side = (s.lane n).side ∧ u = { s with lanes := u.lanes, free := s.free + 1 })
    ∧ (is (xTileFree rs1) → a < tileCount → sideAlloc ((s.lane n).sideW a) = true → Runs (.tileFree n t rs1) s fun u =>
        (u.lane n).side = ((s.lane n).free a).side ∧ (u.lane n).lateFree = ((s.lane n).free a).lateFree
          ∧ (u.thr n t).pc = (s.thr n t).pc + 4 ∧ (u.thr n t).x = (s.thr n t).x ∧ s.onlyLane u n)
    ∧ (is (xTileSeal rs1 rs2) → a < tileCount → 1 ≤ f → f ≤ 256 → Runs (.tileSeal n t rs1 rs2) s fun u =>
        (u.lane n).side = ((s.lane n).seal a f).side ∧ (u.lane n).tmem = (s.lane n).tmem
          ∧ (u.thr n t).pc = (s.thr n t).pc + 4 ∧ (u.thr n t).x = (s.thr n t).x ∧ s.onlyLane u n)
    ∧ (is (xTileDigest rd rs1) → a < tileCount → (s.lane n).tagsFull t = false →
      let l := (s.lane n).roomTag t
      Runs (.tileDigest n t rd rs1) s fun u =>
        (rd.val ≠ 0 → (u.thr n t).rd rd = BitVec.ofNat 32 l.newTag)
          ∧ (u.lane n).digests = (s.lane n).digests ++ [(l.newTag, a)]
          ∧ (u.lane n).tags = l.tags ++ [{ id := l.newTag, thr := t, kind := .digest }]
          ∧ (u.thr n t).pc = (s.thr n t).pc + 4 ∧ s.onlyLane u n)

/-- TILE.ALLOC's chain (R134): the tiles were free, there are as many as asked for, they are linked in order from the first,
and each is allocated with FILL 0. -/
def Obligations.AllocatedChainIsNew : Prop :=
  ∀ (l : Lane) (k i : Nat) (l' : Lane), 1 ≤ k → l.alloc k = some (i, l') →
    ∃ ts, l'.chain i = some ts ∧ ts.length = k ∧ (∀ j ∈ ts, j < tileCount ∧ sideAlloc (l.sideW j) = false
      ∧ sideFill (l'.sideW j) = 0) ∧ ∀ j, j ∉ ts → l'.sideW j = l.sideW j

/-- The checker ends its oldest digest: over a good chain the tag completes with the keyed digest of the chain's content; a
tile that fails its check ends it with 0x1201 and counts in HM_ERR (R137, R143, R155). Command: TILE_DIGEST_COMPLETE. -/
def Obligations.TileDigestEnds : Prop :=
  ∀ (n : LaneId) (g i : Nat) (rest : List (Nat × Nat)) (tg : Tag) (ts : List Nat) (s : State),
    (s.lane n).digests = (g, i) :: rest → (s.lane n).tags.find? (fun x => x.id = g) = some tg → (s.lane n).chain i = some ts →
    (∀ k, (s.lane n).badTile ts = none → s.thrKey n tg.thr = some k → (∀ rd w, (s.thr n tg.thr).run ≠ .waitTag rd w) →
      Runs (.tileDigestComplete n) s fun u =>
        (u.lane n).digests = rest
          ∧ (u.lane n).tags = (s.lane n).tags.map (fun x => if x.id = g then
              { x with code := some 0, digest := some (i, digestOf k ((s.lane n).content ts)) } else x)
          ∧ (u.thr n tg.thr).mip = (s.thr n tg.thr).mip ||| 0x40000#32)
    ∧ (∀ b, (s.lane n).badTile ts = some b → Runs (.tileDigestComplete n) s fun u =>
        (u.lane n).digests = rest ∧ bits (u.lreg n 0xC0) 15 0 = satAdd (bits (s.lreg n 0xC0) 15 0) 1 65535)

/-- Hallmark operations of a running thread: HM.FIELD gives the selected field, HM.DERIVE extends the chain by one link and
gives the new STEP, TILE.RELEASE hands an acknowledged message's response to NET (R43, R82, R85, R144). Commands: HM_FIELD,
HM_DERIVE, TILE_RELEASE. -/
def Obligations.HallmarkOperationsComplete : Prop :=
  ∀ (n : LaneId) (t : ThreadId) (rd rs1 rs2 : XReg) (m : Msg) (s : State), rd.val ≠ 0 →
    (s.lane n).msg ((s.thr n t).rd rs1).toNat = some m →
    let is := fun (x : XOp) => (s.lane n).atOp t x = true
    (is (xHmField rd rs1 rs2) → Runs (.hmField n t rd rs1 rs2) s fun u => ∀ k, ((s.thr n t).rd rs2).toNat = k → k < 8 →
        (u.thr n t).rd rd = BitVec.ofNat 32 ([m.hm.origin.toNat % 2 ^ 32, m.hm.origin.toNat / 2 ^ 32, m.hm.chain.toNat % 2 ^ 32,
          m.hm.chain.toNat / 2 ^ 32, m.hm.session, m.hm.step, m.hm.flags, m.hm.beat % 2 ^ 32].getD k 0)
        ∧ (u.thr n t).pc = (s.thr n t).pc + 4 ∧ s.onlyThread u n t)
    ∧ (∀ (g : Tag) (i : Nat) (d : D64) (k : Bytes), is (xHmDerive rd rs1 rs2) →
        (s.lane n).digestTag t ((s.thr n t).rd rs2).toNat = some g → g.digest = some (i, d) →
        m.claim = none → s.hmKey m.hm = some k → m.trace.length < 15 →
        Runs (.hmDerive n t rd rs1 rs2) s fun u =>
          (u.thr n t).rd rd = BitVec.ofNat 32 (m.hm.step + 1)
            ∧ (∃ m', (u.lane n).msg ((s.thr n t).rd rs1).toNat = some m'
                ∧ m'.hm = { m.hm with chain := linkTag k m.hm.chain d (0x200 + n) (m.hm.step + 1), step := m.hm.step + 1 }
                ∧ m'.trace = m.trace ++ [⟨0x200 + n, d, i, false⟩])
            ∧ s.onlyLane u n)
    ∧ (∀ p, is (xTileRelease rd rs1) → ((s.thr n t).rd rs1).toNat < 4096 → (s.thr n t).phase = some p → p.h = ((s.thr n t).rd rs1).toNat → m.acked = true →
        m.released = false → Runs (.tileRelease n t rd rs1) s fun u =>
          (u.thr n t).rd rd = 0 ∧ (u.thr n t).pc = (s.thr n t).pc + 4
            ∧ (u.lane n).msg ((s.thr n t).rd rs1).toNat = some { m with released := true, atPort := true, xfer := none, relClk := s.laneClk }
            ∧ s.onlyLane u n)

/-- TILE.FREE outside the tile region or of a free tile, TILE.RELEASE of a message without an acknowledged record, and
ENG.WAIT on a tag the thread does not hold raise exceptions 24, 25 and 26: the thread enters the image's trap vector with the
operand in mtval (R139, R84, R450, Table STY-1). -/
def Obligations.StylusOperationsTrap : Prop :=
  ∀ (n : LaneId) (t : ThreadId) (rd rs1 : XReg) (s : State), (s.thr n t).mie = true →
    (s.lane n).mtvec t ≠ 0 →
    let v := (s.thr n t).rd rs1
    let is := fun (x : XOp) => (s.lane n).atOp t x = true
    let traps := fun (c : Instr) (cause : W32) => Runs c s fun u =>
      (u.thr n t).mcause = cause ∧ (u.thr n t).mtval = v ∧ (u.thr n t).mepc = (s.thr n t).pc ∧ (u.thr n t).mie = false
        ∧ (u.thr n t).mpie = true ∧ (u.thr n t).pc = BitVec.ofNat 32 ((s.lane n).mtvec t) ∧ (u.thr n t).x = (s.thr n t).x
        ∧ s.onlyThread u n t
    (is (xTileFree rs1) → tileCount ≤ v.toNat ∨ sideAlloc ((s.lane n).sideW v.toNat) = false → traps (.tileFree n t rs1) 24)
      ∧ (is (xTileRelease rd rs1) → (s.lane n).msg (v.toNat % 4096) = none → traps (.tileRelease n t rd rs1) 25)
      ∧ ((s.lane n).tags.find? (fun g => g.id = v.toNat ∧ g.thr = t.val) = none →
          (is (xEngWait rd rs1) → traps (.engWait n t rd rs1) 26) ∧ (is (xEngPoll rd rs1) → traps (.engPoll n t rd rs1) 26))

/-- Engine operations of a running thread: STN.GO and BUR.GO on a lane in service give the new tag's number and queue the
copied descriptor, in the phase's booked interval when it comes in time; on a lane not in service the tag completes with
0x1501; BUR.SKIP cancels a booked operation; ENG.WAIT and ENG.POLL of a completed tag give its code and retire it; ENG.WAIT of
an outstanding tag sleeps, ENG.POLL gives 0xFFFF_FFFF (R51, R82, R83, R87, R92, R127). Commands: STN_GO, BUR_GO, BUR_SKIP,
ENG_WAIT, ENG_POLL. -/
def Obligations.EngineOperationsComplete : Prop :=
  ∀ (n : LaneId) (t : ThreadId) (rd rs1 : XReg) (s : State), rd.val ≠ 0 →
    let is := fun (x : XOp) => (s.lane n).atOp t x = true
    let a := ((s.thr n t).rd rs1).toNat
    let l := (s.lane n).roomTag t
    let g := l.newTag
    ((s.lane n).tagsFull t = false → l.st = 2 ∨ l.st = 3 →
      (is (xStnGo rd rs1) → Runs (.stnGo n t rd rs1) s fun u =>
        (u.thr n t).rd rd = BitVec.ofNat 32 g ∧ (u.thr n t).pc = (s.thr n t).pc + 4
          ∧ (u.lane n).tags = l.tags ++ [{ id := g, thr := t, kind := .stn }]
          ∧ (∃ o, (u.lane n).stn.q = (s.lane n).stn.q ++ [o] ∧ o.thr = t.val ∧ o.tag = g
              ∧ (a % 32 = 0 → ∀ d, (s.lane n).desc a 32 = some d → o.desc = d
                  ∧ ∀ p, (s.thr n t).phase = some p → p.stn.free = true → s.laneClk ≤ p.stn.start →
                      Bytes.le d 0 1 % 16 = 1 ∨ Bytes.le d 0 1 % 16 = 2 → o.start = p.stn.start ∧ o.stop = p.stn.stop))
          ∧ s.onlyLane u n)
      ∧ (is (xBurGo rd rs1) → Runs (.burGo n t rd rs1) s fun u =>
        (u.thr n t).rd rd = BitVec.ofNat 32 g ∧ (u.thr n t).pc = (s.thr n t).pc + 4
          ∧ (u.lane n).tags = l.tags ++ [{ id := g, thr := t, kind := .bur }]
          ∧ (∃ e o, ((u.lane n).burEng e).q = ((s.lane n).burEng e).q ++ [o] ∧ o.src = .thread t.val g
              ∧ (∀ e', e' ≠ e → (u.lane n).burEng e' = (s.lane n).burEng e')
              ∧ (a % 64 = 0 → ∀ d, (s.lane n).desc a 64 = some d → o.desc = d ∧ o.opc = Bytes.le d 0 1
                  ∧ ∀ p, (s.thr n t).phase = some p → ∀ b, p.bur.find? (·.free) = some b → s.laneClk ≤ b.start →
                      b.start + (opCycles o.opc).getD 64 ≤ b.stop → e = b.eng ∧ o.start = b.start ∧ o.stop = b.stop))
          ∧ s.onlyLane u n))
    ∧ ((s.lane n).tagsFull t = false → l.st ≠ 2 → l.st ≠ 3 →
      (is (xStnGo rd rs1) → Runs (.stnGo n t rd rs1) s fun u =>
        (u.thr n t).rd rd = BitVec.ofNat 32 g ∧ (u.lane n).stn = (s.lane n).stn
          ∧ (u.lane n).tags = l.tags ++ [{ id := g, thr := t, kind := .stn, code := some 0x1501 }] ∧ s.onlyLane u n)
      ∧ (is (xBurGo rd rs1) → Runs (.burGo n t rd rs1) s fun u =>
        (u.thr n t).rd rd = BitVec.ofNat 32 g ∧ (u.lane n).eng = (s.lane n).eng
          ∧ (u.lane n).tags = l.tags ++ [{ id := g, thr := t, kind := .bur, code := some 0x1501 }] ∧ s.onlyLane u n))
    ∧ (∀ p, is (xBurSkip rs1) → (s.thr n t).phase = some p → Runs (.burSkip n t rs1) s fun u =>
        (u.thr n t).phase = some (p.take a) ∧ (u.thr n t).pc = (s.thr n t).pc + 4 ∧ (u.thr n t).x = (s.thr n t).x
          ∧ s.onlyThread u n t)
    ∧ (∀ tg c, (s.lane n).tags.find? (fun g => g.id = a ∧ g.thr = t.val) = some tg → tg.code = some c →
        (is (xEngWait rd rs1) → Runs (.engWait n t rd rs1) s fun u => (u.thr n t).rd rd = BitVec.ofNat 32 c.toNat
          ∧ (u.lane n).tags = (s.lane n).tags.filter (fun x => x.id ≠ a) ∧ s.onlyLane u n)
        ∧ (is (xEngPoll rd rs1) → Runs (.engPoll n t rd rs1) s fun u => (u.thr n t).rd rd = BitVec.ofNat 32 c.toNat
          ∧ (u.lane n).tags = (s.lane n).tags.filter (fun x => x.id ≠ a) ∧ s.onlyLane u n))
    ∧ (∀ tg, (s.lane n).tags.find? (fun g => g.id = a ∧ g.thr = t.val) = some tg → tg.code = none →
        (is (xEngWait rd rs1) → Runs (.engWait n t rd rs1) s fun u =>
          (u.thr n t).run = .waitTag rd a ∧ (u.thr n t).pc = (s.thr n t).pc ∧ s.onlyThread u n t)
        ∧ (is (xEngPoll rd rs1) → Runs (.engPoll n t rd rs1) s fun u => (u.thr n t).rd rd = 0xFFFFFFFF#32 ∧ s.onlyThread u n t))

/-- A completing tag resumes the thread that waits for it, with the code in its destination (R82). -/
def Obligations.CompletedTagWakesItsThread : Prop :=
  ∀ (s : State) (n id rd : Nat) (code : Code) (tg : Tag), (s.lane n).tags.find? (fun g => g.id = id) = some tg →
    (s.thr n tg.thr).run = .waitTag rd id → rd ≠ 0 →
    let u := s.tagDone n id code none
    (u.thr n tg.thr).run = .run ∧ (u.thr n tg.thr).rd rd = code.setWidth 32 ∧ (u.thr n tg.thr).pc = (s.thr n tg.thr).pc + 4
      ∧ (u.lane n).tags = (s.lane n).tags.filter (fun x => x.id ≠ id) ∧ s.onlyLane u n

/-- SHELF.POST of a running thread to an enabled shelf with room: PROD advances by one, the entry stands in its slot, the message
awaits its decision with the class's timeout, and the phase has posted; a waiting post resumes the same way; to a full shelf the
thread sleeps (R40, R42, R63). JRN.PUT of a good record presents it to the lane's ring while the thread sleeps, and a record
that fails a check is refused with its code (R162, R163). Commands: SHELF_POST, SHELF_POST_RESUME, JRN_PUT. -/
def Obligations.ShelfAndJournalOperationsComplete : Prop :=
  ∀ (n : LaneId) (t : ThreadId) (rd rs1 rs2 : XReg) (s : State),
    let is := fun (x : XOp) => (s.lane n).atOp t x = true
    let th := s.thr n t
    let k := (th.rd rs1).toNat
    let h := (th.rd rs2).toNat
    (∀ m p, is (xShelfPost rd rs1 rs2) → (s.lane n).st = 2 ∨ (s.lane n).st = 3 → (s.lane n).msg h = some m → k ≤ 7 →
      th.phase = some p → bit ((s.lane n).cfg (shelfOff k + 8)) 0 = true → m.canonTile ≠ endTile →
      m.canonLen ≤ shelfSlot ((s.lane n).cfg (shelfOff k + 8)) → s.shelfGone n k = false →
      (s.hshFull n k = false → Runs (.shelfPost n t rd rs1 rs2) s fun u =>
          u.lreg n (shelfOff k + 0xC) = (s.lreg n (shelfOff k + 0xC) + 1) % 2 ^ 32
            ∧ (u.lane n).msg h = some { m with stage := .awaiting, posted := true, postClk := s.laneClk
                                               toBeat := s.btm.beat + bits ((s.lane n).cls m.cls 4) 15 0 }
            ∧ (∃ q, (u.thr n t).phase = some q ∧ q.posted = true)
            ∧ (u.thr n t).pc = th.pc + 4 ∧ (u.thr n t).run = .run ∧ (rd.val ≠ 0 → (u.thr n t).rd rd = 0))
      ∧ (s.hshFull n k = true → Runs (.shelfPost n t rd rs1 rs2) s fun u =>
          (u.thr n t).run = .waitPost rd k h ∧ (u.thr n t).pc = th.pc ∧ s.onlyThread u n t))
    ∧ (∀ r k h m, th.run = .waitPost r k h → k ≤ 7 → s.hshFull n k = false → (s.lane n).msg h = some m →
        Runs (.shelfPostResume n t) s fun u =>
          u.lreg n (shelfOff k + 0xC) = (s.lreg n (shelfOff k + 0xC) + 1) % 2 ^ 32 ∧ (u.thr n t).run = .run
            ∧ (u.thr n t).pc = th.pc + 4)
    ∧ (∀ p, is (xJrnPut rd rs1) → (s.lane n).putCheck th k = 0 → th.phase = some p → Runs (.jrnPut n t rd rs1) s fun u =>
        (u.thr n t).run = .waitJrn rd ∧ (u.thr n t).pc = th.pc ∧ (u.ring n).waiting.length = (s.ring n).waiting.length + 1
          ∧ (∃ q ∈ (u.ring n).waiting, q.src = .thread n t p.h ∧ q.agent = 256 + n)
          ∧ ∀ j, j ≠ n.val → u.ring j = s.ring j ∧ u.lane j = s.lane j)
    ∧ (∀ c, is (xJrnPut rd rs1) → (s.lane n).putCheck th k = c → c ≠ 0 → rd.val ≠ 0 → Runs (.jrnPut n t rd rs1) s fun u =>
        (u.thr n t).rd rd = BitVec.ofNat 32 c ∧ (u.thr n t).pc = th.pc + 4 ∧ s.onlyThread u n t)

/-- Beat and thread operations of a running thread: BEAT.READ gives the low half of the beat number and latches the high one,
BEAT.READH gives the latch, BEAT.LEFT the lane cycles to the phase's deadline, BEAT.WAIT sleeps, or goes on at once in a
boundary's own lane cycle, THR.SIGNAL pends mip.MSI of the named thread, THR.END of a phase that has posted or whose record is
acknowledged leaves the thread idle (R26, R82, R86, R87). Commands: BEAT_READ, BEAT_READH, BEAT_LEFT, BEAT_WAIT, THR_SIGNAL,
THR_END. -/
def Obligations.BeatAndThreadOperationsComplete : Prop :=
  ∀ (n : LaneId) (t : ThreadId) (rd rs1 : XReg) (s : State),
    let is := fun (x : XOp) => (s.lane n).atOp t x = true
    (is (xBeatRead rd) → Runs (.beatRead n t rd) s fun u =>
      (rd.val ≠ 0 → (u.thr n t).rd rd = BitVec.ofNat 32 s.btm.beat) ∧ (rd.val = 0 → (u.thr n t).x = (s.thr n t).x)
        ∧ (u.thr n t).beatHi = BitVec.ofNat 32 (s.btm.beat / 2 ^ 32) ∧ (u.thr n t).pc = (s.thr n t).pc + 4 ∧ s.onlyThread u n t)
    ∧ (is (xBeatReadh rd) → Runs (.beatReadh n t rd) s fun u =>
      (rd.val ≠ 0 → (u.thr n t).rd rd = (s.thr n t).beatHi) ∧ (rd.val = 0 → (u.thr n t).x = (s.thr n t).x)
        ∧ (u.thr n t).pc = (s.thr n t).pc + 4 ∧ s.onlyThread u n t)
    ∧ (∀ p, is (xBeatLeft rd) → (s.thr n t).phase = some p → rd.val ≠ 0 → Runs (.beatLeft n t rd) s fun u =>
        (u.thr n t).rd rd
            = BitVec.ofInt 32 (((s.btm.len - s.btm.cyc : Nat) : Int) + ((p.dlBeat : Int) - s.btm.beat - 1) * 16000)
          ∧ (u.thr n t).pc = (s.thr n t).pc + 4 ∧ s.onlyThread u n t)
    ∧ (is xBeatWait → s.btm.running = false ∨ s.btm.cyc ≠ 0 → Runs (.beatWait n t) s fun u =>
        (u.thr n t).run = .waitBeat ∧ (u.thr n t).pc = (s.thr n t).pc ∧ (u.thr n t).x = (s.thr n t).x ∧ s.onlyThread u n t)
    ∧ (is xBeatWait → s.btm.running = true → s.btm.cyc = 0 → Runs (.beatWait n t) s fun u =>
        (u.thr n t).run = .run ∧ (u.thr n t).pc = (s.thr n t).pc + 4 ∧ (u.thr n t).x = (s.thr n t).x ∧ s.onlyThread u n t)
    ∧ (∀ r, is (xThrSignal rs1) → ((s.thr n t).rd rs1).toNat = r → r < 8 → r ≠ t.val → Runs (.thrSignal n t rs1) s fun u =>
        (u.thr n r).mip = (s.thr n r).mip ||| 8#32 ∧ (u.thr n t).pc = (s.thr n t).pc + 4 ∧ (u.thr n t).x = (s.thr n t).x
          ∧ s.onlyLane u n)
    ∧ (∀ p, is xThrEnd → (s.thr n t).phase = some p →
        p.posted = true ∨ (∃ m, (s.lane n).msg p.h = some m ∧ m.acked = true) → Runs (.thrEnd n t) s fun u =>
        (u.thr n t).run = .idle ∧ (u.thr n t).phase = none ∧ (∀ g ∈ (u.lane n).tags, g.thr ≠ t.val)
          ∧ ∀ j, j ≠ n.val → u.lane j = s.lane j)

/-- A thread's events: an interrupt is taken by a running thread with mie set, with mcause 2³¹ + its number, the pending bit
cleared and interrupts off; an exception saves pc, cause and mie and enters the trap vector; a second one with mie clear is a
double fault that stops the thread (R76 to R78, R450). Commands: STYLUS_INTERRUPT, STYLUS_EXCEPTION. -/
def Obligations.StylusEventsComplete : Prop :=
  ∀ (n : LaneId) (t : ThreadId) (cause tval : W32) (s : State), (s.thr n t).run = .run →
    (∀ b, (s.thr n t).mie = true → [3, 16, 17, 18, 19].find? (fun b => bit ((s.thr n t).mip &&& (s.thr n t).mieBits).toNat b) = some b →
      Runs (.stylusInterrupt n t) s fun u =>
        (u.thr n t).mcause = BitVec.ofNat 32 (2 ^ 31 + b) ∧ (u.thr n t).mepc = (s.thr n t).pc ∧ (u.thr n t).mie = false
          ∧ (u.thr n t).mpie = true ∧ (u.thr n t).mip = (s.thr n t).mip &&& ~~~BitVec.ofNat 32 (2 ^ b)
          ∧ (u.thr n t).pc = BitVec.ofNat 32 ((s.lane n).mtvec t) ∧ (u.thr n t).x = (s.thr n t).x ∧ s.onlyThread u n t)
    ∧ ((s.thr n t).mie = true ∨ (s.thr n t).mcause = 0 → (s.lane n).mtvec t ≠ 0 →
      Runs (.stylusException n t cause tval) s fun u =>
        (u.thr n t).mcause = cause ∧ (u.thr n t).mepc = (s.thr n t).pc ∧ (u.thr n t).mpie = (s.thr n t).mie
          ∧ (u.thr n t).mtval = (if [1, 5, 7, 24, 25, 26].contains cause.toNat then tval else 0)
          ∧ (u.thr n t).mie = false ∧ (u.thr n t).pc = BitVec.ofNat 32 ((s.lane n).mtvec t) ∧ s.onlyThread u n t)
    ∧ ((s.thr n t).mie = false → (s.thr n t).mcause ≠ 0 → (s.thr n t).phase = none →
      Runs (.stylusException n t cause tval) s fun u => (u.thr n t).run = .idle ∧ s.onlyLane u n)

/-- The commands of Tables BUR-1 to BUR-3 and STR-3. On an idle engine that has an operation of one of the row's codes to start now
(R58, R131), that operation starts with the outcome of its start checks (R132); else nothing happens. A lane program's operation
that passes them ends after the time of its code with its result (R113): a verification with 0x0000, 0x1101 or, malformed, 0x1109
(R116); a signing with the signature in raw form, or 0x1110 or 0x1111 (R117, R118); a hash with the hash of its data and a MAC
generation with the MAC, a MAC check with 0x0000, 0x1101 or 0x1109 (R115); a batch with 0x0000 when every item verifies (R122); a
PIN translation with the PIN under the target key and format, or 0x110A (R119); a DUKPT derivation with a working key in a
transient bin (R120, R121). A Strongroom service ends with its result for the unit that asked (R356, R452). A valid result
carries the key's warning (R126). The algorithms' own verdicts and values that no rule fixes are the model's opaque constants. -/
def Obligations.BurinOperationsStart : Prop :=
  (∀ p ∈ verifyRows ++ signRows ++ hashRows ++ macRows ++ otherRows ++ serviceRows.map (fun p => (p.1, [p.2])),
    ∀ (n : LaneId) (e : EngId) (s : State), ((s.lane n).burEng e).run = none →
      (((s.lane n).burEng e).pick s.laneClk p.2 = none → exec (p.1 n e) s = .next s)
      ∧ ∀ o, ((s.lane n).burEng e).pick s.laneClk p.2 = some o → o.src.isThread = true ∨ ((s.lane n).st ≠ 1 ∧ (s.lane n).st ≠ 4) →
        Runs (p.1 n e) s fun u =>
          ((u.lane n).burEng e).q = ((s.lane n).burEng e).q.erase o
            ∧ (∃ r, ((u.lane n).burEng e).run = some r ∧ r.op = o ∧ r.startClk = s.laneClk ∧ r.refusal = (s.opChecks n e o).code
                ∧ r.material = (s.opChecks n e o).mat)
            ∧ ∀ m, m ≠ n.val → u.lane m = s.lane m)
  ∧ (∀ (n : LaneId) (e : EngId) (o : BurOp) (dat : Bytes) (s : State),
    let d := o.desc
    let c := o.opc
    let a := s.startChecks n e o
    let l := s.lane n
    let aux := l.at (bAux d) (bAuxLen d)
    let good := a.warn.getD 0
    (∀ p ∈ verifyRows, s.burReady n e p.2 o dat → bParam d 0 = 0 → bAuxLen d = sigLen c → Runs (p.1 n e) s fun u =>
      let pub := if bKey d = 0 then l.at (bPubAddr d) (bPubLen d) else a.mat
      ∀ ok self, u.burGives n e o ok self
        (if Config.keyMalformed c pub || sigMalformed c aux then 0x1109
          else if (!isEd c || edScalarOk aux) && Config.sigValid c (Bytes.le d 52 4) pub dat aux then good else 0x1101) [])
    ∧ (∀ p ∈ signRows, s.burReady n e p.2 o dat → bParam d 0 = 0 → s.str.lapsed = false → Runs (p.1 n e) s fun u =>
        u.burGives n e o true true good (Bytes.slice (Config.sign c (Bytes.le d 52 4) a.mat dat s.free) 0 (sigLen c))
          ∧ u.burGives n e o true false 0x1111 []
          ∧ (c ∈ [0x2C, 0x2D, 0x2E, 0x30, 0x31, 0x32, 0x34, 0x35, 0x36] → u.burGives n e o false true 0x1110 []))
    ∧ (∀ p ∈ hashRows, s.burReady n e p.2 o dat → Runs (p.1 n e) s fun u => ∀ ok self, u.burGives n e o ok self good (hashOf c dat))
    ∧ (∀ p ∈ macRows, s.burReady n e p.2 o dat → Runs (p.1 n e) s fun u =>
        let mac := (macOf c a.mat (bParam d 1) dat).take (bParam d 0)
        ∀ ok self, (bCheck d = false → u.burGives n e o ok self good mac)
          ∧ (bCheck d = true → bAuxLen d = bParam d 0 → u.burGives n e o ok self (if aux = mac then good else 0x1101) [])
          ∧ (bCheck d = true → bAuxLen d ≠ bParam d 0 → u.burGives n e o ok self 0x1109 []))
    ∧ (s.burReady n e [0x1C, 0x1D, 0x1E] o dat → Runs (.ed25519BatchVerify n e) s fun u =>
        let items := (List.range (bAuxLen d)).map (l.batchItem (l.at (bIn d) (bInLen d)) (l.at (bAux d) (16 * bAuxLen d)))
        ∀ ok self, ((∀ x ∈ items, x = 0) → u.burGives n e o ok self good [])
          ∧ ((∀ x ∈ items, x = 0 ∨ x = 0x1103) → 0x1103 ∈ items → u.burGives n e o ok self 0x1103 []))
    ∧ (s.burReady n e [0x7C] o dat → bOff d + (if bParam d 0 = 4 then 16 else 8) ≤ bInLen d → Runs (.pinBlockTranslate n e) s fun u =>
        let pan := aux.map (fun x => x.toNat - 48)
        let blk := Bytes.slice (l.at (bIn d) (bInLen d)) (bOff d) (if bParam d 0 = 4 then 16 else 8)
        ∀ ok self,
          (pinParse (bParam d 0) pan (pinDecrypt (bParam d 0) a.mat pan blk) = none → u.burGives n e o ok self 0x110A [])
          ∧ ∀ pin, pinParse (bParam d 0) pan (pinDecrypt (bParam d 0) a.mat pan blk) = some pin → u.burGives n e o ok self good
              (pinEncrypt (bParam d 1) a.mat2 pan (pinBuild (bParam d 1) pan pin (s.freeBytes 16))))
    ∧ (∀ p ∈ ([(.dukptDeriveTdes, 0x80), (.dukptDeriveAes, 0x84)] : List ((LaneId → EngId → Instr) × Nat)),
        s.burReady n e [p.2] o dat → (l.msg (bHandle d)).any (fun m => m.acked) = false →
        let ctr := Bytes.toNatBE aux % (if p.2 = 0x80 then 2 ^ 21 else 2 ^ 32)
        ctr ≠ 0 → ((List.range 32).filter (fun i => bit ctr i)).length ≤ (if p.2 = 0x80 then 10 else 16) →
        Runs (p.1 n e) s fun u => ∀ ok self,
          Runs (.burOperationComplete n e ok self) { u with laneClk := u.laneClk + (opCycles c).getD 64 } fun w =>
            ((w.lane n).burEng e).run = none
              ∧ ∃ i k, l.freeBin = some i ∧ SMap.get none i (w.lane n).trans = some k ∧ k.h = bHandle d ∧ k.usage = bParam d 0
                ∧ k.material = Config.dukpt (p.2 = 0x84) (decide (a.cls = 0x18 ∨ a.cls = 0x19)) (bParam d 0) a.mat aux
                ∧ Bytes.le (memRead (w.lane n).tmem (bCompl d - 0x10000000) 32) 8 8
                    = mkHandle k.policy 0x3F k.gen (n * 64 + i) % 2 ^ 64))
  ∧ (∀ p ∈ serviceRows, ∀ (n : LaneId) (e : EngId) (ref : Nat) (o : BurOp) (s : State), ((s.lane n).burEng e).run = none →
      ((s.lane n).burEng e).pick s.laneClk [p.2] = some o → o.src = .reserve .str ref → (s.lane n).st ≠ 1 → (s.lane n).st ≠ 4 →
      Runs (p.1 n e) s fun u => ∀ ok self,
        u.serviceGives n e o ref ok self (s.serviceAns p.2 o (s.serviceKey o).mat (s.serviceKey o).cls self))

/-- BUR_OPERATION_COMPLETE. Before the time of a running operation has passed nothing happens (R113, R132). Then the engine is free
and its other work stands. A lane in RESETTING discards the result (R66). A lane program's refused operation, and one whose
checks of chain, data and algorithm fail, completes its tag with the code and writes it to the completion record; a waiting thread
goes on with it (R127, R129, R132). A valid bound verification extends its message's chain by one link and its STEP by one before
the tag completes (R129). A reserve operation's result goes to the unit that asked (R131). -/
def Obligations.BurinOperationCompletes : Prop :=
  ∀ (n : LaneId) (e : EngId) (ok self : Bool) (r : BurRun) (s : State), ((s.lane n).burEng e).run = some r →
    (s.laneClk < r.startClk + r.time → exec (.burOperationComplete n e ok self) s = .next s)
    ∧ (r.startClk + r.time ≤ s.laneClk →
      (Runs (.burOperationComplete n e ok self) s fun u =>
        ((u.lane n).burEng e).run = none ∧ ((u.lane n).burEng e).q = ((s.lane n).burEng e).q)
      ∧ ((s.lane n).st = 4 → Runs (.burOperationComplete n e ok self) s fun u =>
          u = { s with lanes := u.lanes } ∧ (u.lane n).tmem = (s.lane n).tmem ∧ (u.lane n).tags = (s.lane n).tags)
      ∧ (∀ t tag, (s.lane n).st ≠ 4 → r.op.src = .thread t tag →
        let a := (s.burEval n r ok self).1
        let codes : Code → Prop := fun code => Runs (.burOperationComplete n e ok self) s fun u =>
          (inTileMem (bCompl r.op.desc) 32 = true →
            memRead (u.lane n).tmem (bCompl r.op.desc - 0x10000000) 2 = Bytes.ofNatLE 2 code.toNat)
          ∧ ∀ tg, (s.lane n).tags.find? (fun g => g.id = tag) = some tg → ∀ rd, (s.thr n tg.thr).run = .waitTag rd tag → rd ≠ 0 →
              (u.thr n tg.thr).run = .run ∧ (u.thr n tg.thr).rd rd = code.setWidth 32
        (∀ code, r.refusal = some code → codes code)
        ∧ (r.refusal = none → a.code ≠ 0 → codes a.code)
        ∧ (r.refusal = none → a.code = 0 → s.canLink n r = true → codes (r.warn.getD 0))
        ∧ ∀ m k, r.refusal = none → isVerify r.op.opc = true → bBound r.op.desc = true →
            (s.lane n).msg (bHandle r.op.desc) = some m → s.hmKey m.hm = some k → m.trace.length < 15 →
            Runs (.burOperationComplete n e ok self) s fun u => a.code = 0 → ∃ m', (u.lane n).msg (bHandle r.op.desc) = some m'
              ∧ m'.hm.step = m.hm.step + 1
              ∧ ∃ x, m'.trace = m.trace ++ [x] ∧ m'.hm.chain = linkTag k m.hm.chain x.digest (4 * n + e) (m.hm.step + 1))
      ∧ (∀ ref, (s.lane n).st ≠ 4 → r.op.src = .reserve .str ref →
        (∀ code, r.refusal = some code → Runs (.burOperationComplete n e ok self) s fun u =>
            u.rsvDone = s.rsvDone ++ [(.str, ref, if code = 0 then r.warn.getD 0 else code, [])])
        ∧ (r.refusal = none → Runs (.burOperationComplete n e ok self) s fun u =>
            let a := s.reserveEval r ok self
            u.rsvDone = s.rsvDone ++ [(.str, ref, if a.code = 0 then r.warn.getD 0 else a.code, a.out)])))

/-- A Stylus thread's base instructions, each with its result, its pc and its frame (R72 to R76, R79, R80, R450), for a 32-bit word or
the expansion `i` of a 16-bit one. STYLUS_RV32_INSTRUCTION: an ADDI, a JAL, an aligned load from tile memory, an aligned store to
tile memory, a load through a DRAM window, which suspends the thread with the bytes as they stand at issue, a CSR read, a swap of
mscratch, MRET and ECALL. STYLUS_LONG_OPERATION: a division, which takes 34 lane cycles of bubbles. STYLUS_SPLIT_ACCESS: a
misaligned load reads both halves, a misaligned store writes both halves, and one of which either half reaches nothing faults with
no byte written. STYLUS_DRAM_LOAD_RETURN: the suspended thread goes on with its data, or takes a load fault on a data error. -/
def Obligations.StylusInstructionsComplete : Prop :=
  ∀ (n : LaneId) (t : ThreadId) (f : Nat × Nat) (i : Nat) (s : State),
    let th := s.thr n t
    let l := s.lane n
    let next := th.pc + BitVec.ofNat 32 f.2
    let a := (th.rd (Rv.rs1 i)).toNat
    let taken : State → Nat → Nat → Prop := fun u cause tval =>
      (u.thr n t).mepc = th.pc ∧ (u.thr n t).mcause = BitVec.ofNat 32 cause ∧ (u.thr n t).mtval = BitVec.ofNat 32 tval
        ∧ (u.thr n t).mpie = th.mie ∧ (u.thr n t).mie = false ∧ (u.thr n t).pc = BitVec.ofNat 32 (l.mtvec t) ∧ s.onlyThread u n t
    (th.run = .run → l.fetch th = some f → fullWord false f = some i →
      (Rv.op i = 0x13 → Rv.f3 i = 0 → Rv.rd i ≠ 0 → Runs (.stylusRv32Instruction n t .none) s fun u =>
        (u.thr n t).rd (Rv.rd i) = BitVec.ofNat 32 (a + Rv.immI 32 i) ∧ (u.thr n t).pc = next ∧ s.onlyThread u n t)
      ∧ (Rv.op i = 0x6F → Rv.rd i ≠ 0 → Runs (.stylusRv32Instruction n t .none) s fun u =>
        (u.thr n t).rd (Rv.rd i) = next ∧ (u.thr n t).pc = BitVec.ofNat 32 (th.pc.toNat + Rv.immJ 32 i) ∧ s.onlyThread u n t)
      ∧ (∀ b z, Rv.op i = 0x03 → th.accOf i = some (b, z) → 0x10000000 ≤ b → b + z ≤ 0x105D0000 → Rv.rd i ≠ 0 →
          let done : State → Prop := fun u =>
            (u.thr n t).rd (Rv.rd i) = BitVec.ofNat 32 (styValue (memRead l.tmem (b - 0x10000000) z) (decide (Rv.f3 i < 4)))
              ∧ (u.thr n t).pc = next ∧ s.onlyThread u n t
          (b % z = 0 → Runs (.stylusRv32Instruction n t .none) s done)
          ∧ (b % z ≠ 0 → Runs (.stylusSplitAccess n t) s done))
      ∧ (∀ b z, Rv.op i = 0x23 → th.accOf i = some (b, z) → (∀ p ∈ styParts b z, l.spot th p.1 p.2 true = .tile (p.1 - 0x10000000)) →
          let done : State → Prop := fun u =>
            (u.lane n).tmem = memWrite l.tmem (b - 0x10000000) (Bytes.ofNatLE z (th.rd (Rv.rs2 i)).toNat)
              ∧ (u.thr n t).pc = next ∧ (u.thr n t).x = th.x ∧ s.onlyLane u n
              ∧ u.lane n = { l with tmem := (u.lane n).tmem, threads := (u.lane n).threads, lpmu := (u.lane n).lpmu }
          (b % z = 0 → Runs (.stylusRv32Instruction n t .none) s done)
          ∧ (b % z ≠ 0 → Runs (.stylusSplitAccess n t) s done))
      ∧ (∀ b z p, Rv.op i = 0x23 → th.accOf i = some (b, z) → b % z ≠ 0 → s.styFault n th b z true = some p →
          th.mie = true ∨ th.mcause = 0 → l.mtvec t ≠ 0 →
          Runs (.stylusSplitAccess n t) s fun u => taken u 7 p ∧ (u.lane n).tmem = l.tmem ∧ u.dram = s.dram)
      ∧ (∀ b z pa, Rv.op i = 0x03 → th.accOf i = some (b, z) → b % z = 0 → l.spot th b z false = .dram pa → dramBase ≤ pa →
          pa + z ≤ s.dramTop → s.poisoned pa z = false → Runs (.stylusRv32Instruction n t .none) s fun u =>
          (u.thr n t).run = .waitLoad (Rv.rd i) b z (decide (Rv.f3 i < 4)) (s.dramRead pa z) none
            ∧ (u.thr n t).pc = th.pc ∧ s.onlyThread u n t)
      ∧ (∀ v, Rv.op i = 0x73 → Rv.f3 i = 2 → Rv.rs1 i = 0 → Rv.rd i ≠ 0 → s.styCsr n t th (bits i 31 20) = some v →
          Runs (.stylusRv32Instruction n t .none) s fun u =>
          (u.thr n t).rd (Rv.rd i) = BitVec.ofNat 32 v ∧ (u.thr n t).pc = next ∧ s.onlyThread u n t)
      ∧ (Rv.op i = 0x73 → Rv.f3 i = 1 → bits i 31 20 = 0x340 → Rv.rd i ≠ 0 → Runs (.stylusRv32Instruction n t .none) s fun u =>
          (u.thr n t).mscratch = th.rd (Rv.rs1 i) ∧ (u.thr n t).rd (Rv.rd i) = th.mscratch ∧ (u.thr n t).pc = next
            ∧ s.onlyThread u n t)
      ∧ (i = 0x30200073 → Runs (.stylusRv32Instruction n t .none) s fun u =>
          (u.thr n t).pc = th.mepc ∧ (u.thr n t).mie = th.mpie ∧ (u.thr n t).mpie = true ∧ (u.thr n t).x = th.x ∧ s.onlyThread u n t)
      ∧ (i = 0x73 → th.mie = true ∨ th.mcause = 0 → l.mtvec t ≠ 0 → Runs (.stylusRv32Instruction n t .none) s fun u => taken u 11 0)
      ∧ (isLong i = true → Rv.rd i ≠ 0 → Runs (.stylusLongOperation n t) s fun u =>
          (u.thr n t).rd (Rv.rd i) = BitVec.ofNat 32 (Rv.mulDiv 32 (Rv.f3 i) a (th.rd (Rv.rs2 i)).toNat)
            ∧ (u.thr n t).pc = next ∧ SMap.get 0 22 (u.lane n).lpmu = (SMap.get 0 22 l.lpmu + 34) % 2 ^ 48 ∧ s.onlyThread u n t))
    ∧ (∀ rd b z sg dat, th.run = .waitLoad rd b z sg dat none → l.fetch th = some f → rd ≠ 0 →
        (Runs (.stylusDramLoadReturn n t false) s fun u =>
          (u.thr n t).run = .run ∧ (u.thr n t).rd rd = BitVec.ofNat 32 (styValue dat sg) ∧ (u.thr n t).pc = next ∧ s.onlyThread u n t)
        ∧ ∀ p, s.dramPart n th b z (fun _ _ => true) = some p → th.mie = true ∨ th.mcause = 0 → l.mtvec t ≠ 0 →
          Runs (.stylusDramLoadReturn n t true) s fun u => taken u 5 p)

/-- Results of the base instructions at the boundaries of their operands: division by zero gives all ones and the dividend,
the overflowing division the dividend and 0; LUI and AUIPC, comparisons and shifts wrap at 32 bits (R72, RISC-V M). -/
def Obligations.StylusArithmeticCorners : Prop :=
  ∀ a b : Nat, a < 2 ^ 32 → b < 2 ^ 32 →
    Rv.mulDiv 32 4 a 0 = 2 ^ 32 - 1 ∧ Rv.mulDiv 32 5 a 0 = 2 ^ 32 - 1 ∧ Rv.mulDiv 32 6 a 0 = a ∧ Rv.mulDiv 32 7 a 0 = a
      ∧ Rv.mulDiv 32 4 (2 ^ 31) (2 ^ 32 - 1) = 2 ^ 31 ∧ Rv.mulDiv 32 6 (2 ^ 31) (2 ^ 32 - 1) = 0
      ∧ (b ≠ 0 → Rv.mulDiv 32 5 a b = a / b ∧ Rv.mulDiv 32 7 a b = a % b)
      ∧ Rv.base 32 0 0 a b = some ((a + b) % 2 ^ 32) ∧ Rv.base 32 0 1 a b = some (a * 2 ^ (b % 32) % 2 ^ 32)

/-- The Stencil engine. TRANSLATE, VALIDATE, RESUME, ABORT: on a free engine that has a descriptor of the row's operation to take now
(R58, R92), the run starts with the outcome of the start checks of R454 and claims its message's chain (R90, R128); else nothing
happens. A VALIDATE writes nothing but its completion record (R106). A RESUME goes on with the suspended run over the tiles it
supplies and, its output complete, extends the chain (R111). An ABORT discards the suspended run and completes with 0x1042, or
with 0x1016 when there is none (R111). STN_RUN_END: a refused run completes its tag with the refusal 64 lane cycles after its
start (R454); a translation whose output fits writes its output, extends the chain by one link, writes its completion record and
completes its tag (R106, R107, R109). The evaluation of the stencil itself is the model's stnEval. -/
def Obligations.StencilRunsComplete : Prop :=
  (∀ p ∈ ([(.translate, 1), (.validate, 2), (.resume, 3), (.abort, 4)] : List ((LaneId → Instr) × Nat)),
    ∀ (n : LaneId) (s : State), (s.lane n).stn.run = none →
      ((s.lane n).stn.pick s.laneClk p.2 = none → exec (p.1 n) s = .next s)
      ∧ ∀ o, (s.lane n).stn.pick s.laneClk p.2 = some o → Runs (p.1 n) s fun u =>
        (u.lane n).stn.q = (s.lane n).stn.q.erase o
          ∧ (∃ r, (u.lane n).stn.run = some r ∧ r.op = o ∧ r.refusal = (s.lane n).stnRefusal o ∧ r.startClk = s.laneClk)
          ∧ (p.2 ≠ 4 → (s.lane n).stnRefusal o = none → ∃ m, (u.lane n).msg (sHandle o.desc) = some m ∧ m.claim = some 4)
          ∧ (u.lane n).tmem = (s.lane n).tmem ∧ s.onlyLane u n)
  ∧ (∀ (n : LaneId) (o : StnOp) (s : State), (s.lane n).stn.run = none → (s.lane n).st ≠ 4 → inTileMem (sCompl o.desc) 32 = true →
      let at0 := sCompl o.desc - 0x10000000
      ((s.lane n).stn.pick s.laneClk 2 = some o → (s.lane n).stnRefusal o = none → Runs (.validate n) s fun u =>
        Runs (.stnRunEnd n) u fun w => (w.lane n).stn.run = none
          ∧ ∃ b : Bytes, b.length = 32 ∧ (w.lane n).tmem = memWrite (s.lane n).tmem at0 b)
      ∧ ((s.lane n).stn.pick s.laneClk 4 = some o → (s.lane n).stnRefusal o = none → Runs (.abort n) s fun u =>
          (∀ c ∈ (u.lane n).stn.ctxs, c.h ≠ sHandle o.desc)
            ∧ Runs (.stnRunEnd n) u fun w => memRead (w.lane n).tmem at0 2 = [0x42#8, 0x10#8])
      ∧ ((s.lane n).stn.pick s.laneClk 4 = some o → (s.lane n).stnRefusal o = some 0x1016 → Runs (.abort n) s fun u =>
          Runs (.stnRunEnd n) { u with laneClk := u.laneClk + 64 } fun w => memRead (w.lane n).tmem at0 2 = [0x16#8, 0x10#8])
      ∧ (∀ c more m k, (s.lane n).stn.pick s.laneClk 3 = some o → (s.lane n).stnRefusal o = none →
          (s.lane n).stn.ctxs.find? (fun c => c.h = sHandle o.desc) = some c → (s.lane n).chain (sOut o.desc) = some more →
          (∀ i ∈ c.chain, sideAlloc ((s.lane n).sideW i) = true) →
          (∀ x ∈ c.cuts, x ≤ 256 * (c.chain ++ more).length ∧ (c.bounded = true → x ≤ c.outMax)) → c.code = 0 → c.canon = false →
          (s.lane n).msg (sHandle o.desc) = some m → m.canonTile = endTile → s.hmKey m.hm = some k → m.trace.length < 15 →
          Runs (.resume n) s fun u => Runs (.stnRunEnd n) u fun w =>
            (∃ b : Bytes, b.length = 32 ∧ b.take 2 = [0, 0] ∧ (w.lane n).tmem
                = memWrite ((s.lane n).stnWrite (c.chain ++ more) c.out c.written (c.cuts.foldl max c.written)).tmem at0 b)
              ∧ (∀ c ∈ (w.lane n).stn.ctxs, c.h ≠ sHandle o.desc)
              ∧ ∃ m', (w.lane n).msg (sHandle o.desc) = some m' ∧ m'.hm.step = m.hm.step + 1
                ∧ m'.hm.chain = linkTag k m.hm.chain (outDigest k false c.out) (0x100 + n) (m.hm.step + 1)))
  ∧ (∀ (n : LaneId) (r : StnRun) (s : State), (s.lane n).stn.run = some r → (s.lane n).st ≠ 4 →
    let d := r.op.desc
    (∀ code, r.refusal = some code → s.laneClk < r.startClk + 64 → exec (.stnRunEnd n) s = .next s)
    ∧ (r.refusal = none ∨ r.startClk + 64 ≤ s.laneClk → Runs (.stnRunEnd n) s fun u =>
        (u.lane n).stn.run = none ∧ (u.lane n).stn.q = (s.lane n).stn.q)
    ∧ (∀ tg rd code, (s.lane n).tags.find? (fun g => g.id = r.op.tag) = some tg → (s.thr n tg.thr).run = .waitTag rd r.op.tag →
        rd ≠ 0 → r.refusal = some code → r.startClk + 64 ≤ s.laneClk → Runs (.stnRunEnd n) s fun u =>
          (u.thr n tg.thr).run = .run ∧ (u.thr n tg.thr).rd rd = code.setWidth 32)
    ∧ (∀ ts ch m k, r.refusal = none → sOp d = 1 → sIn2 d = noVal → (s.lane n).chain (sIn d) = some ts →
        (s.lane n).chain (sOut d) = some ch → (s.lane n).badTile ts = none → (s.lane n).msg (sHandle d) = some m →
        s.verifyChains (s.lane n) m [sIn d] = 0 → s.hmKey m.hm = some k → m.trace.length < 15 → m.canonTile = endTile →
        inTileMem (sCompl d) 32 = true →
        let e := stnEval r.bin (sId d) (sSrc d) (sDst d) false ((s.lane n).content ts) none (Bytes.le d 12 2)
          (s.fullBeat m.hm.beat / 100000 : Nat)
        e.code = 0 → e.canon = false → (∀ x ∈ e.cuts, x ≤ 256 * ch.length ∧ x ≤ r.op.outMax) →
        Runs (.stnRunEnd n) s fun u =>
          (∃ b : Bytes, b.length = 32 ∧ b.take 2 = [0, 0] ∧ (u.lane n).tmem
              = memWrite ((s.lane n).stnWrite ch e.out 0 (e.cuts.foldl max 0)).tmem (sCompl d - 0x10000000) b)
            ∧ (∃ m', (u.lane n).msg (sHandle d) = some m' ∧ m'.hm.step = m.hm.step + 1
              ∧ m'.hm.chain = linkTag k m.hm.chain (outDigest k false e.out) (0x100 + n) (m.hm.step + 1))
            ∧ ∀ tg, (s.lane n).tags.find? (fun g => g.id = r.op.tag) = some tg → ∀ rd, (s.thr n tg.thr).run = .waitTag rd r.op.tag →
                rd ≠ 0 → (u.thr n tg.thr).run = .run ∧ (u.thr n tg.thr).rd rd = 0))

/-- How a hart's instruction retires: its result in rd, nothing written when rd is x0, the pc past the instruction, two
counters counted; nothing else of the hart but counter overflow bits changes. -/
def Obligations.HartRetires : Prop :=
  ∀ (x : Hart) (rd : Nat) (v : D64) (k : Nat),
    (rd ≠ 0 → (x.ret rd v k).rd rd = v) ∧ (rd = 0 → (x.ret rd v k).x = x.x) ∧ (∀ r, r ≠ rd → (x.ret rd v k).rd r = x.rd r)
      ∧ (x.ret rd v k).pc = x.pc + BitVec.ofNat 64 k
      ∧ x.ret rd v k = { x with x := (x.ret rd v k).x, pc := (x.ret rd v k).pc, wait := .none, csr := (x.ret rd v k).csr
                                pmu := (x.ret rd v k).pmu }

/-- Vendor instructions of a hart that may issue them, with no trigger set up (R150 to R153, R230, R235, R238, R239): BEAT.READ gives the beat number;
BEAT.WAIT gives it at once when the target is reached, else waits; HM.CHECK of a good record gives 0; HM.STEP writes the
extended chain and step word and gives 0; TILE.CHECK gives the tile's word; JRN.APPEND presents its record and waits. -/
def Obligations.HartVendorOperationsComplete : Prop :=
  ∀ (h : HartId) (rd rs1 rs2 : XReg) (s : State), (s.hart h).ready = true → (s.hart h).armed = false →
    let x := s.hart h
    let va := (x.rd rs1).toNat
    let n := (x.rd rs2).toNat
    let s1 := s.hcount h 51
    (x.vendor none (some 4) (some 5) = none →
      (Runs (.hartBeatRead h rd) s fun u => u.hart h = x.ret rd (BitVec.ofNat 64 s.btm.beat) 4 ∧ s.onlyHart u h)
      ∧ (va ≤ s.btm.beat → Runs (.hartBeatWait h rd rs1) s fun u =>
          u.hart h = x.ret rd (BitVec.ofNat 64 s.btm.beat) 4 ∧ s.onlyHart u h)
      ∧ (s.btm.beat < va → s.takeable h = none → s.localPend h = false → Runs (.hartBeatWait h rd rs1) s fun u =>
          u.hart h = { x with wait := .beat rd va } ∧ s.onlyHart u h))
    ∧ (x.vendor (some 8) (some 9) (some 10) = none → va % 8 = 0 →
      (∀ ps k, 33 ≤ n → n ≤ 2048 → s1.vendorRange h 1 va n 5 = .ok ps → s1.partsBad ps = false →
        s1.right h ((Hallmark.ofBytes (s1.partsRead ps)).lane % 16) 2 = true → s1.hmKey (Hallmark.ofBytes (s1.partsRead ps)) = some k →
        s1.hmJudge (Hallmark.ofBytes (s1.partsRead ps)) k (digestOf k ((s1.partsRead ps).drop 32)) = (0, none) →
        Runs (.hmCheck h rd rs1 rs2) s fun u => u.hart h = (s1.hart h).ret rd 0 4 ∧ s.onlyHart u h)
      ∧ (∀ p0 ps ws k,
          let b := s1.partsRead p0
          let m := Hallmark.ofBytes b
          let len := Bytes.le b 32 2
          s1.vendorRange h 1 va 40 7 = .ok p0 → s1.partsBad p0 = false → len ≤ 2008 → m.step ≠ 15 →
          s1.vendorRange h 1 va (40 + len) 7 = .ok ps → s1.vendorRange h 2 (va + 8) 16 7 = .ok ws → s1.partsBad ps = false →
          s1.hmKey m = some k →
          Runs (.hmStep h rd rs1) s fun u => u = (s1.storeAt h ws
              (Bytes.ofNatLE 8 (linkTag k m.chain (digestOf k ((s1.partsRead ps).drop 32)) 0x400 (m.step + 1)).toNat
                ++ Bytes.ofNatLE 8 (setBits (Bytes.le b 16 8) 27 20 (m.step + 1)))).hartRet h rd 0)
      ∧ (∀ a ps, s1.xlRange h 1 va 256 = .ok ((a, 256) :: ps) → s1.region a = .tile → a % 256 = 0 → (tileSpot a).2 < 0x5D0000 →
          s1.right h (tileSpot a).1 0 = true →
          let l := s.lane (tileSpot a).1
          let w := l.sideW ((tileSpot a).2 / 256)
          let c := if !sideAlloc w ∨ sideFill w = 0 then 0x1206 else if l.tileOk ((tileSpot a).2 / 256) then 0 else 0x1201
          Runs (.tileCheck h rd rs1) s fun u =>
            u.hart h = (s1.hart h).ret rd (BitVec.ofNat 64 (bits w 63 56 * 2 ^ 40 + sideNext w * 2 ^ 25 + sideFill w * 2 ^ 16 + c)) 4
              ∧ s.onlyHart u h))
    ∧ (∀ p0 ps, x.vendor (some 0) (some 1) (some 2) = none → va % 64 = 0 →
        let t := s.hcount h 49
        let sz := bits (Bytes.le (t.partsRead p0) 24 8) 55 54
        t.xlRange h 1 va 64 = .ok p0 → p0.all (fun p => t.region p.1 = .dram && t.region (p.1 + p.2 - 1) = .dram) = true →
        t.partsBad p0 = false → sz < 3 → t.xlRange h 1 va (64 * 2 ^ sz) = .ok ps →
        ps.all (fun p => t.region p.1 = .dram && t.region (p.1 + p.2 - 1) = .dram) = true → t.partsBad ps = false →
        coreCheck (t.partsRead ps) = 0 → (s.ring 16).hold = 0 →
        Runs (.jrnAppend h rd rs1) s fun u =>
          (u.hart h).wait = .jrn rd ∧ (u.hart h).pc = x.pc
            ∧ (u.ring 16).waiting
                = enqueueRec { src := .hart h rd, agent := h, bytes := t.partsRead ps, clk := s.laneClk } (s.ring 16).waiting
            ∧ u = { s with harts := u.harts, jrn := u.jrn })

/-- Vendor CSRs and counters of a hart in M-mode with no trigger set up, and its interrupts: kseal takes SEAL unless SEAL_FORCE holds it; BPFLUSH
empties the predictors; reading kerrrec clears VALID; a vendor counter's read gives 32 bits and latches the rest in kpmhi; a
counter that wraps reads 0 and sets OF; a takeable interrupt is taken (R231, R232, R247, R252, R409, R412). -/
def Obligations.HartSystemOperationsComplete : Prop :=
  ∀ (h : HartId) (rd : XReg) (s : State),
    let x := s.hart h
    (x.ready = true → x.armed = false → x.priv = 3 →
      (∀ v : W32, bit (x.csrV 0x7C0) 16 = false → Runs (.ksealWrite h v) s fun u =>
        (u.hart h).csrV 0x5C0 = v.toNat % 2 ∧ (u.hart h).pc = x.pc + 4 ∧ (u.hart h).x = x.x
          ∧ (bit v.toNat 1 = true → (u.hart h).ras = [] ∧ (u.hart h).trained = false) ∧ s.onlyHart u h)
      ∧ (Runs (.bpflush h) s fun u => (u.hart h).ras = [] ∧ (u.hart h).trained = false ∧ (u.hart h).pc = x.pc + 4
          ∧ (u.hart h).csrV 0x5C0 = x.csrV 0x5C0 ∧ (u.hart h).x = x.x ∧ s.onlyHart u h)
      ∧ (Runs (.kerrrecRead h rd) s fun u =>
          (rd.val ≠ 0 → (u.hart h).rd rd = BitVec.ofNat 64 (x.csrV 0xDC0)) ∧ (u.hart h).csrV 0xDC0 = x.csrV 0xDC0 % 2 ^ 31
            ∧ (u.hart h).pc = x.pc + 4 ∧ s.onlyHart u h)
      ∧ (∀ csr i, vcIndex csr = some i → countedEvents.contains i = true → Runs (.vendorCounterRead h rd csr) s fun u =>
          (rd.val ≠ 0 → (u.hart h).rd rd = BitVec.ofNat 64 (SMap.get 0 i x.pmu % 2 ^ 32))
            ∧ (u.hart h).csrV 0xCC2 = (2 ^ 31 + i * 2 ^ 16 + SMap.get 0 i x.pmu / 2 ^ 32) % 2 ^ 64
            ∧ (u.hart h).pc = x.pc + 4 ∧ s.onlyHart u h))
    ∧ (∀ i : Fin 32, Runs (.counterOverflow h i) s fun u =>
        SMap.get 0 i (u.hart h).pmu = 0 ∧ (3 ≤ i.val → ((SMap.get 0 (0x320 + i) (u.hart h).csr)).getLsbD 63 = true)
          ∧ (u.hart h).x = x.x ∧ (u.hart h).pc = x.pc ∧ s.onlyHart u h)
    ∧ (∀ i, x.run = true → x.halted = false → x.wait = .none → x.armed = false → s.takeable h = some i → Runs (.hartInterrupt h) s fun u =>
        u.hart h = x.trapTo true i 0 0 ∧ (∀ k, k ≠ h.val → u.hart k = s.hart k))

/-- A hart's trap into M-mode, with no trigger set up: pc, cause and value saved, MIE moved to MPIE, MPP the old privilege, the pc at the vector
(the privileged architecture, R226). -/
def Obligations.HartTrapEntry : Prop :=
  ∀ (x : Hart) (k tval : Nat), x.priv = 3 → x.armed = false → k < 64 → tval < 2 ^ 64 →
    let y := x.trapTo false k tval 0
    y.priv = 3 ∧ y.virt = false ∧ y.csrV 0x341 = x.pc.toNat ∧ y.csrV 0x342 = k ∧ y.csrV 0x343 = tval
      ∧ bits (y.csrV 0x300) 12 11 = 3 ∧ bits (y.csrV 0x300) 3 3 = 0 ∧ y.x = x.x ∧ y.wait = .none ∧ y.resv = none

/-- Base instructions of a ready hart with no trigger set up and no single step: ADD and ADDI of RV64, a compressed one, and
JAL, with results, pc and frame; a CSR swap of mscratch and a CSR read; an undefined word, compressed or of a custom opcode,
takes the illegal-instruction exception, and a virtual machine's access to a hypervisor CSR the virtual-instruction exception
(R226, R229, R233). With one trigger
set up, an mcontrol6 that watches the mode and matches the pc, the instruction does not run: the hart takes the breakpoint
exception or enters debug mode (R254; the trigger's bits are the model's reading of RISC-V Debug 1.0, log entry 148). -/
def Obligations.HartInstructionsComplete : Prop :=
  ∀ (h : HartId) (w : W32) (s : State), (s.hart h).ready = true →
    let x := s.hart h
    let i := w.toNat
    (x.armed = false →
    (Rv.op i = 0x33 → Rv.f7 i = 0 → Rv.f3 i = 0 → Rv.rd i ≠ 0 → Runs (.hartInstruction h w) s fun u =>
        (u.hart h).rd (Rv.rd i) = x.rd (Rv.rs1 i) + x.rd (Rv.rs2 i) ∧ (u.hart h).pc = x.pc + 4 ∧ s.onlyHart u h)
    ∧ (Rv.op i = 0x13 → Rv.f3 i = 0 → Rv.rd i ≠ 0 → Runs (.hartInstruction h w) s fun u =>
        (u.hart h).rd (Rv.rd i) = x.rd (Rv.rs1 i) + BitVec.ofNat 64 (Rv.immI 64 i) ∧ (u.hart h).pc = x.pc + 4 ∧ s.onlyHart u h)
    ∧ (Rv.op i = 0x6F → isLink (Rv.rd i) = false → Rv.rd i ≠ 0 → Runs (.hartInstruction h w) s fun u =>
        (u.hart h).rd (Rv.rd i) = x.pc + 4 ∧ (u.hart h).pc = x.pc + BitVec.ofNat 64 (Rv.immJ 64 i) ∧ s.onlyHart u h)
    ∧ (i % 4 ≠ 3 → Rv.expand true (i % 65536) = none → x.priv = 3 → Runs (.hartInstruction h w) s fun u =>
        (u.hart h).csrV 0x342 = 2 ∧ (u.hart h).csrV 0x341 = x.pc.toNat ∧ (u.hart h).x = x.x ∧ s.onlyHart u h)
    ∧ (Rv.op i = 0x2B → 2 ≤ Rv.f3 i → x.priv = 3 → Runs (.hartInstruction h w) s fun u =>
        (u.hart h).csrV 0x342 = 2 ∧ (u.hart h).csrV 0x341 = x.pc.toNat ∧ (u.hart h).x = x.x ∧ s.onlyHart u h)
    ∧ (Rv.op i = 0x73 → Rv.f3 i = 1 → bits i 31 20 = 0x340 → Rv.rd i ≠ 0 → x.priv = 3 → x.virt = false →
        Runs (.hartInstruction h w) s fun u =>
          (u.hart h).rd (Rv.rd i) = BitVec.ofNat 64 (x.csrV 0x340) ∧ (u.hart h).csrV 0x340 = (x.rd (Rv.rs1 i)).toNat
            ∧ (u.hart h).pc = x.pc + 4 ∧ s.onlyHart u h)
    ∧ (Rv.op i = 0x73 → Rv.f3 i = 2 → Rv.rs1 i = 0 → bits i 31 20 = 0xF14 → Rv.rd i ≠ 0 → x.priv = 3 → x.virt = false →
        Runs (.hartInstruction h w) s fun u =>
          (u.hart h).rd (Rv.rd i) = BitVec.ofNat 64 h.val ∧ (u.hart h).pc = x.pc + 4 ∧ s.onlyHart u h)
    ∧ (Rv.op i = 0x73 → Rv.f3 i = 2 → Rv.rs1 i = 0 → bits i 31 20 = 0x600 → x.priv = 1 → x.virt = true →
        Runs (.hartInstruction h w) s fun u =>
          u.hart h = ({ x with ilen := 4 } : Hart).trapTo false 22 0 0 ∧ s.onlyHart u h))
    ∧ (∀ j, j < 8 → (∀ k, k < 8 → k ≠ j → trigType (x.tdata 0x7A1 k) = 15) →
        let t := x.tdata 0x7A1 j
        trigType t = 6 → bit t 2 = true → bits t 10 7 = 0 → x.tdata 0x7A2 j = x.pc.toNat → x.watched t = true →
        bit (x.csrV 0x7B0) 2 = false →
        (trigAction t = 0 → x.canBreak = true → Runs (.hartInstruction h w) s fun u =>
          u.hart h = x.trapEnter false 3 x.pc.toNat 0 ∧ s.onlyHart u h)
        ∧ (trigAction t = 1 → Runs (.hartInstruction h w) s fun u =>
          (u.hart h).halted = true ∧ (u.hart h).pc = x.pc ∧ (u.hart h).x = x.x ∧ bits ((u.hart h).csrV 0x7B0) 8 6 = 2
            ∧ s.onlyHart u h))

/-- Accesses of a ready hart with no trigger set up: a load of a present DRAM line gives the coherent bytes; an absent line is
asked for and the hart waits; aligned loads and stores of a lane's tile payload by a hart with the right read and write
exactly those bytes; a store to a line the hart owns changes exactly its bytes, LR reserves the line, SC with the reservation stores and
gives 0 and without it gives 1, an AMO gives the old bytes and stores the new; an access to an unassigned address takes the
access fault (R136, R242 to R244, R259, R371). -/
def Obligations.HartMemoryAccessesComplete : Prop :=
  ∀ (h : HartId) (a : MemAccess) (pa : Nat) (s : State), (s.hart h).ready = true → (s.hart h).armed = false → a.wrongPath = false → a.dataError = false →
    a.store = .none → a.vector = false → a.fp = false → a.size ∈ [1, 2, 4, 8] →
    let s1 := s.setHart h { s.hart h with ilen := 4 }
    let va := (((s.hart h).rd a.rs1).toNat + a.imm) % (2 : Int) ^ 64
    va % a.size = 0 → pa % a.size = 0 →
    (a.kind = .load → s1.xlRange h 1 va.toNat a.size = .ok [(pa, a.size)] → s.region pa = .dram → s.region (pa + a.size - 1) = .dram →
      (s.mem.wbbuf.contains (h.val, pa / 64) = false → s.mem.l2St h (pa / 64) ≠ 0 →
        (findLine (s.mem.l1 false h (pa / 64)) (pa / 64)).isSome = true → a.rd.val ≠ 0 →
        Runs (.hartMemoryAccess h a) s fun u =>
          (u.hart h).rd a.rd = (if a.signed then sext (Bytes.toNatLE (s.dramRead pa a.size)) a.size
              else BitVec.ofNat 64 (Bytes.toNatLE (s.dramRead pa a.size)))
            ∧ (u.hart h).pc = (s.hart h).pc + 4 ∧ (∀ p, u.byteAt p = s.byteAt p))
      ∧ (s.mem.wbbuf.contains (h.val, pa / 64) = false → s.mem.l2St h (pa / 64) = 0 → Runs (.hartMemoryAccess h a) s fun u =>
          (u.hart h).wait = .line va.toNat ∧ (u.hart h).pc = (s.hart h).pc ∧ (u.hart h).x = (s.hart h).x
            ∧ (∃ f ∈ u.mem.fills, f.hart = h.val ∧ f.line = pa / 64 ∧ f.acc = some a) ∧ (∀ p, u.byteAt p = s.byteAt p)))
    ∧ (s1.xlRange h 2 va.toNat a.size = .ok [(pa, a.size)] → s.region pa = .dram → s.region (pa + a.size - 1) = .dram →
      s.mem.wbbuf.contains (h.val, pa / 64) = false → 3 ≤ s.mem.l2St h (pa / 64) →
      (findLine (s.mem.l1 false h (pa / 64)) (pa / 64)).isSome = true →
      let stored : State → Bytes → Prop := fun u b =>
        u.dramRead pa a.size = b ∧ ∀ p, p < pa ∨ pa + a.size ≤ p → u.byteAt p = s.byteAt p
      (a.kind = .store → Runs (.hartMemoryAccess h a) s fun u =>
          stored u ((s.hart h).storeBytes a) ∧ (u.hart h).pc = (s.hart h).pc + 4 ∧ (u.hart h).x = (s.hart h).x)
      ∧ (a.kind = .sc → (s.hart h).resv = some (pa / 64) → a.rd.val ≠ 0 → Runs (.hartMemoryAccess h a) s fun u =>
          stored u ((s.hart h).storeBytes a) ∧ (u.hart h).rd a.rd = 0 ∧ (u.hart h).resv = none
            ∧ (u.hart h).pc = (s.hart h).pc + 4)
      ∧ (a.kind = .amo → a.rd.val ≠ 0 → Runs (.hartMemoryAccess h a) s fun u =>
          stored u (Bytes.ofNatLE a.size (amoResult a.op a.size (Bytes.toNatLE (s.dramRead pa a.size))
              (Bytes.toNatLE ((s.hart h).storeBytes a))))
            ∧ (u.hart h).rd a.rd = sext (Bytes.toNatLE (s.dramRead pa a.size)) a.size ∧ (u.hart h).pc = (s.hart h).pc + 4))
    ∧ (a.kind = .sc → s1.xlRange h 2 va.toNat a.size = .ok [(pa, a.size)] → s.region pa = .dram → s.region (pa + a.size - 1) = .dram →
      (s.hart h).resv ≠ some (pa / 64) → a.rd.val ≠ 0 → Runs (.hartMemoryAccess h a) s fun u =>
        (u.hart h).rd a.rd = 1 ∧ (u.hart h).resv = none ∧ (u.hart h).pc = (s.hart h).pc + 4 ∧ s.onlyHart u h)
    ∧ (a.kind = .lr → s1.xlRange h 1 va.toNat a.size = .ok [(pa, a.size)] → s.region pa = .dram → s.region (pa + a.size - 1) = .dram →
      s.mem.wbbuf.contains (h.val, pa / 64) = false → s.mem.l2St h (pa / 64) ≠ 0 →
      (findLine (s.mem.l1 false h (pa / 64)) (pa / 64)).isSome = true → a.rd.val ≠ 0 → Runs (.hartMemoryAccess h a) s fun u =>
        (u.hart h).rd a.rd = sext (Bytes.toNatLE (s.dramRead pa a.size)) a.size ∧ (u.hart h).resv = some (pa / 64)
          ∧ (u.hart h).pc = (s.hart h).pc + 4 ∧ ∀ p, u.byteAt p = s.byteAt p)
    ∧ (a.kind = .load → s1.xlRange h 1 va.toNat a.size = .ok [(pa, a.size)] → s.region pa = .unassigned →
      s.region (pa + a.size - 1) = .unassigned → Runs (.hartMemoryAccess h a) s fun u =>
        ∃ x : Hart, x.pc = (s.hart h).pc ∧ x.x = (s.hart h).x ∧ x.priv = (s.hart h).priv
          ∧ u.hart h = x.trapTo false 5 (va.toNat % 2 ^ 64) 0 ∧ s.onlyHart u h)
    ∧ (s.region pa = .tile → s.region (pa + a.size - 1) = .tile → (tileSpot pa).2 + a.size ≤ 0x5D0000 →
      (a.kind = .load → s1.xlRange h 1 va.toNat a.size = .ok [(pa, a.size)] → s.right h (tileSpot pa).1 0 = true → a.signed = false →
        a.rd.val ≠ 0 → Runs (.hartMemoryAccess h a) s fun u =>
          (u.hart h).rd a.rd = BitVec.ofNat 64 (Bytes.toNatLE (memRead (s.lane (tileSpot pa).1).tmem (tileSpot pa).2 a.size))
            ∧ (u.hart h).pc = (s.hart h).pc + 4 ∧ s.onlyHart u h)
      ∧ (a.kind = .store → s1.xlRange h 2 va.toNat a.size = .ok [(pa, a.size)] → s.right h (tileSpot pa).1 1 = true →
        Runs (.hartMemoryAccess h a) s fun u =>
          (u.lane (tileSpot pa).1).tmem = memWrite (s.lane (tileSpot pa).1).tmem (tileSpot pa).2 ((s.hart h).storeBytes a)
            ∧ (u.hart h).pc = (s.hart h).pc + 4 ∧ (u.hart h).x = (s.hart h).x
            ∧ (∀ k, k ≠ h.val → u.hart k = s.hart k) ∧ (∀ k, k ≠ (tileSpot pa).1 → u.lane k = s.lane k)))

/-- A store into a line a hart owns changes exactly the stored bytes of coherent memory. -/
def Obligations.LineStoreFrame : Prop :=
  ∀ (s : State) (h l o : Nat) (b : Bytes), o + b.length ≤ 64 →
    (∀ i, i < b.length → (s.lineStore h l o b).byteAt (l * 64 + o + i) = b.getD i 0)
      ∧ ∀ a, (a < l * 64 + o ∨ l * 64 + o + b.length ≤ a) → (s.lineStore h l o b).byteAt a = s.byteAt a

/-- Cache-block operations of a ready hart in M-mode, with no trigger set up, on a DRAM line that no cache holds dirty, and fills: CBO.CLEAN, CBO.FLUSH
and CBO.INVAL complete, the flush and the invalidation leaving no hart a copy; CBO.ZERO makes the line 64 zero bytes; a fill
that a prefetch asked for installs the line in the hart's L2, and one that a load waits for gives the load its bytes, the hart in
M-mode without MPRV (R257, R259, R264, R265).
Requests at a home slice: a device's read of a line the slice holds and no hart does answers the coherent line; an
acknowledged writeback frees its eviction-buffer entry and completes the CBO that waits for the line (R263, R267). -/
def Obligations.CacheOperationsComplete : Prop :=
  (∀ (h : HartId) (rs1 : XReg) (l pa : Nat) (s : State), (s.hart h).ready = true → (s.hart h).armed = false →
    (s.hart h).priv = 3 → pa / 64 = l →
    let va := ((s.hart h).rd rs1).toNat
    (s.cboLine h va false = .ok [(pa, 1)] → SMap.find l s.mem.dirty = none → s.mem.evbuf.any (fun p => p.2 = l) = false →
      s.mem.fills.any (fun f => f.hart = h.val && f.line = l) = false →
      (Runs (.cboClean h rs1) s fun u => (u.hart h).wait = .none ∧ (u.hart h).pc = (s.hart h).pc + 4 ∧ (u.hart h).x = (s.hart h).x)
      ∧ (Runs (.cboFlush h rs1) s fun u => (u.hart h).pc = (s.hart h).pc + 4 ∧ ∀ k, u.mem.l2St k l = 0)
      ∧ (Runs (.cboInval h rs1) s fun u => (u.hart h).pc = (s.hart h).pc + 4 ∧ ∀ k, u.mem.l2St k l = 0))
    ∧ (s.cboLine h (va / 64 * 64) true = .ok [(pa, 1)] → Runs (.cboZero h rs1) s fun u =>
        (∀ i, i < 64 → u.byteAt (l * 64 + i) = 0) ∧ (u.hart h).pc = (s.hart h).pc + 4 ∧ (u.hart h).x = (s.hart h).x)
    ∧ (∀ w, s.region (l * 64) = .dram → s.mem.fills.find? (fun f => f.hart = h.val && f.line = l) = none → s.linePoisoned l = false →
        findLine (s.mem.l2Set h l) l = none → victim (s.mem.l2Set h l) (List.range 16) = some (w, none) →
        (∀ k ∈ s.mem.holders l, s.mem.l2St k l ≠ 4) → Runs (.cacheFill h l true false) s fun u => u.mem.l2St h l ≠ 0 ∧ u.hart h = s.hart h ∧ ∀ p, u.byteAt p = s.byteAt p))
  ∧ (∀ (h : HartId) (l w w1 va : Nat) (f : Fill) (a : MemAccess) (s : State),
    let pa := (((s.hart h).rd a.rs1).toNat + a.imm) % (2 : Int) ^ 64
    s.mem.fills.find? (fun f => f.hart = h.val && f.line = l) = some f → f.acc = some a → f.own = false → f.insn = false →
    (s.hart h).wait = .line va → pa.toNat = va → (s.hart h).priv = 3 → (s.hart h).virt = false →
    bit ((s.hart h).csrV 0x300) 17 = false → (s.hart h).pmpOk 3 pa.toNat 1 = true →
    a.kind = .load → a.wrongPath = false → a.vector = false → a.fp = false → a.rd.val ≠ 0 → a.size ∈ [1, 2, 4, 8] → pa % a.size = 0 →
    va / 64 = l → s.region (l * 64) = .dram → s.region pa.toNat = .dram → s.region (pa.toNat + a.size - 1) = .dram →
    (∀ k ∈ s.mem.holders l, s.mem.l2St k l ≠ 4) → s.linePoisoned l = false → s.mem.wbbuf.contains (h.val, l) = false →
    findLine (s.mem.l2Set h l) l = none → victim (s.mem.l2Set h l) (List.range 16) = some (w, none) →
    findLine (s.mem.l1 false h l) l = none → victim (s.mem.l1 false h l) (List.range 8) = some (w1, none) →
    Runs (.cacheFill h l false false) s fun u =>
      (u.hart h).wait = .none ∧ (u.hart h).pc = (s.hart h).pc + BitVec.ofNat 64 (s.hart h).ilen
        ∧ (u.hart h).rd a.rd = (if a.signed then sext (Bytes.toNatLE (s.dramRead pa.toNat a.size)) a.size
            else BitVec.ofNat 64 (Bytes.toNatLE (s.dramRead pa.toNat a.size)))
        ∧ u.mem.l2St h l ≠ 0 ∧ ∀ p, u.byteAt p = s.byteAt p)
  ∧ (∀ (l : Nat) (s : State), s.region (l * 64) = .dram →
    (∀ g : Agent, s.mem.holders l = [] → (findLine (s.mem.l3Set l) l).isSome = true →
      Runs (.l3Request { agent := g, kind := .readDev, line := l, off := 0, data := [], poisoned := false
                         sealedWrongPath := false, lineError := false, single := false, filter := .none }) s fun u =>
        u.mem.resp = (g.val, l, s.dramRead (l * 64) 64, false) ∧ ∀ p, u.byteAt p = s.byteAt p)
    ∧ (∀ v : SliceId, s.mem.evbuf.contains (v.val, l) = true → Runs (.writebackAck v l) s fun u =>
        u.mem.evbuf = s.mem.evbuf.filter (fun p => p ≠ (v.val, l)) ∧ u.dram = s.dram)
    ∧ ∀ (v : SliceId) (h : HartId) op, sliceOf l = v.val → s.mem.evbuf.contains (v.val, l) = false → s.mem.cbo = [(h.val, l)] →
        (s.hart h).wait = .cbo op l → Runs (.writebackAck v l) s fun u =>
          (u.hart h).wait = .none ∧ (u.hart h).pc = (s.hart h).pc + BitVec.ofNat 64 (s.hart h).ilen ∧ (u.hart h).x = (s.hart h).x
            ∧ u.mem.cbo = [] ∧ u.dram = s.dram)

/-- The debug module: commands that the unlock in force covers halt, resume and read or write a halted hart; a command it does
not cover is counted and performs nothing; a system-bus read under the unlock gives the coherent bytes; clearing dmactive resets the agent; the module relocks at its expiry epoch
(R254, R255, R335, R373). -/
def Obligations.DebugOperationsComplete : Prop :=
  ∀ (h : HartId) (s : State),
    (s.str.unlockHarts.contains h = true →
      ((s.hart h).run = true → (s.hart h).halted = false → (s.hart h).wait = .none → SMap.get 0 h.val s.pwr.haltGrp = 0 →
          Runs (.debugCommand (.halt h)) s fun u =>
        (u.hart h).halted = true ∧ (u.hart h).pc = (s.hart h).pc ∧ (u.hart h).x = (s.hart h).x
          ∧ ∀ k, k ≠ h.val → u.hart k = s.hart k)
      ∧ ((s.hart h).halted = true →
        (Runs (.debugCommand (.resume h)) s fun u => (u.hart h).halted = false ∧ (u.hart h).pc = (s.hart h).pc)
        ∧ (∀ r, 0x1001 ≤ r → r < 0x1020 →
          (Runs (.debugCommand (.readReg h r)) s fun u =>
            SMap.get 0 275 u.readRes = ((s.hart h).rd (r - 0x1000)).toNat ∧ u.hart h = s.hart h)
          ∧ ∀ v : D64, Runs (.debugCommand (.writeReg h r v)) s fun u =>
            (u.hart h).rd (r - 0x1000) = v ∧ (u.hart h).pc = (s.hart h).pc ∧ ∀ k, k ≠ h.val → u.hart k = s.hart k)))
    ∧ (s.str.unlockHarts.contains h = false → Runs (.debugCommand (.halt h)) s fun u =>
        u.pwr.dmRefused = s.pwr.dmRefused + 1 ∧ u = { s with pwr := u.pwr, gar := u.gar })
    ∧ (∀ a z, s.str.unlockSysbus = true → z ∈ [1, 2, 4, 8] → a % z = 0 → s.region a = .dram → s.poisoned a z = false →
        Runs (.debugCommand (.sysbusRead a z)) s fun u =>
          SMap.get 0 275 u.readRes = s.dramLE a z ∧ u = { s with readRes := u.readRes, readErr := u.readErr, pwr := u.pwr })
    ∧ (∀ a z, s.str.unlockSysbus = false → Runs (.debugCommand (.sysbusRead a z)) s fun u =>
        u.pwr.dmRefused = s.pwr.dmRefused + 1 ∧ u = { s with pwr := u.pwr, gar := u.gar })
    ∧ (Runs .dmactiveClear s fun u => u.pwr.dmactive = false ∧ u.pwr.haltGrp = [] ∧ u.pwr.resGrp = [] ∧ u.pwr.progbuf = [])
    ∧ (s.str.unlockExpiry ≤ s.epoch → s.str.unlockHarts ≠ [] → Runs .debugRelock s fun u =>
        u.str.unlockHarts = [] ∧ u.str.unlockSysbus = false ∧ (∀ p ∈ u.harts, p.2.halted = false))

/-- Reads, writes and refreshes at a memory controller that serves requests. A read first writes the queued write that it matches,
then decodes the line's stored symbols: it answers the data, corrected where one device erred, or the outcome code of its data
error; a read of a FAILED channel answers 0x4030. A write is queued and acknowledged, in the place of a queued write to its line,
and takes the line from the poison list; an issued write reaches the DRAM, one that failed four times does not and its line is
listed. A refresh is given or owed, nine at once when eight are owed. Temperatures, drift, neighbour refreshes and the histogram
are kept (R281, R282, R284, R285, R287, R288, R291, R296, R301, R304, R311). -/
def Obligations.MemoryControllerRequestsComplete : Prop :=
  ∀ (c : ChanId) (k : Nat) (g : Agent) (s : State),
    let d := s.dmc c
    let l := s.mem.lineAt c k
    let a := dmcBase c
    (∀ e last, d.st = 2 ∨ d.st = 3 → d.listed k = false →
      ((∀ w ∈ s.mem.wq, w.line ≠ l) →
        (∀ b, s.decodeAt c k e = .clean b → Runs (.memoryRead c k g e last) s fun u =>
          (u.dmc c).lastData = b ∧ (u.dmc c).lastCode = 0 ∧ u.dram = s.dram ∧ u.poison = s.poison ∧ u.mem.wq = s.mem.wq)
        ∧ (∀ dev syms b, s.decodeAt c k e = .corrected dev syms b → Runs (.memoryRead c k g e last) s fun u =>
          (u.dmc c).lastData = b ∧ (u.dmc c).lastCode = 0 ∧ u.reg (a + 0x1000) = (s.reg (a + 0x1000) + 1) % 2 ^ 32
            ∧ u.dram = s.dram ∧ u.poison = s.poison)
        ∧ (s.decodeAt c k e = .poisoned → Runs (.memoryRead c k g e last) s fun u =>
          (u.dmc c).lastData = [] ∧ (u.dmc c).lastCode = 0x4002 ∧ u.dram = s.dram ∧ u.poison = s.poison)
        ∧ (s.decodeAt c k e = .uncorrectable → Runs (.memoryRead c k g e last) s fun u =>
          (u.dmc c).lastData = [] ∧ (u.dmc c).lastCode = 0x4001 ∧ u.dram = s.dram ∧ u.poison = s.poison))
      ∧ ∀ w b, s.mem.wq.find? (fun w => w.line = l) = some w → (s.issueWrite w).decodeAt c k e = .clean b →
        Runs (.memoryRead c k g e last) s fun u =>
          (u.dmc c).lastData = b ∧ u.dram = memWrite s.dram (l * 64) (Bytes.slice w.data 0 64)
            ∧ u.mem.wq = s.mem.wq.filter (fun x => x.line ≠ l))
    ∧ (∀ e last, d.st = 5 → Runs (.memoryRead c k g e last) s fun u =>
        (u.dmc c).lastData = [] ∧ (u.dmc c).lastCode = 0x4030 ∧ u = { s with mem := u.mem })
    ∧ (∀ (b : Bytes) (p : Bool), d.st = 2 ∨ d.st = 3 ∨ d.st = 4 → s.mem.wcount c < 64 → s.mem.place l = (c.val, k) →
      Runs (.memoryWrite c k b p g) s fun u =>
        u.mem.wq.find? (fun w => w.line = l)
            = some { ch := c, line := l, data := Bytes.slice b 0 64, poisoned := p, requester := g
                     urgent := (s.mem.wq.find? (fun w => w.line = l)).any (·.urgent)
                     clk := ((s.mem.wq.find? (fun w => w.line = l)).map (·.clk)).getD s.laneClk }
          ∧ (u.dmc c).listed k = false ∧ (∀ m, m ≠ l → u.mem.wq.find? (fun w => w.line = m) = s.mem.wq.find? (fun w => w.line = m))
          ∧ u = { s with mem := u.mem })
    ∧ (∀ (w : WEntry) (t : Fin 5), d.st = 2 ∨ d.st = 3 → s.nextWrite c = some w → Runs (.queuedWriteIssue c t) s fun u =>
        u.mem.wq = s.mem.wq.filter (fun x => x.line ≠ w.line)
          ∧ (t.val < 4 → u.dram = memWrite s.dram (w.line * 64) (Bytes.slice w.data 0 64)
              ∧ (SMap.find w.line u.poison).isSome = w.poisoned)
          ∧ (t.val = 4 → u.dram = s.dram ∧ u.poison = s.poison
              ∧ ((∃ i, i < 64 ∧ SMap.get none i d.plist = none) → (u.dmc c).listed (s.mem.place w.line).2 = true)))
    ∧ (∀ rank : Fin 4, d.st = 2 ∨ d.st = 3 → rank.val < d.dimms * d.ranks →
      (Runs (.refreshDue c rank false) s fun u =>
        SMap.get 0 rank.val (u.dmc c).owed = 0 ∧ (∀ p ∈ (u.dmc c).openRow, p.2 % 4 ≠ rank.val)
          ∧ u = { s with mem := u.mem, regs := u.regs })
      ∧ (bit (s.reg a) 1 = false → SMap.get 0 rank.val d.owed < 8 → Runs (.refreshDue c rank true) s fun u =>
        SMap.get 0 rank.val (u.dmc c).owed = SMap.get 0 rank.val d.owed + 1 ∧ u = { s with mem := u.mem })
      ∧ (SMap.get 0 rank.val d.owed = 8 → Runs (.refreshDue c rank true) s fun u =>
        SMap.get 0 rank.val (u.dmc c).owed = 0 ∧ u.reg (a + 0x84) = (s.reg (a + 0x84) + 1) % 2 ^ 32))
    ∧ (∀ temps, d.st ≥ 2 → Runs (.dimmTemperatureRead c temps) s fun u =>
        (u.dmc c).temps = temps ∧ (∀ r, r < d.dimms * d.ranks →
          SMap.get false r (u.dmc c).hot = decide (temps.getD (r / max 1 d.ranks) 0 > 85)) ∧ u.dram = s.dram)
    ∧ (∀ x, d.st ≥ 2 → Runs (.dqsDriftTrack c x) s fun u =>
        u.dmc c = { d with drift := d.drift + x } ∧ (∀ j, j ≠ c.val → u.dmc j = s.dmc j) ∧ u = { s with mem := u.mem })
    ∧ (∀ bank r q, SMap.get [] bank d.nq = r :: q → Runs (.neighbourRefresh c bank) s fun u =>
        SMap.get [] bank (u.dmc c).nq = q ∧ u.reg (a + 0x88) = (s.reg (a + 0x88) + 1) % 2 ^ 32 ∧ u.dram = s.dram)
    ∧ (g.val < 256 → Runs (.histClear g c) s fun u =>
        u.dmc c = { d with hist := [] } ∧ (∀ j, j ≠ c.val → u.dmc j = s.dmc j) ∧ u = { s with mem := u.mem })

/-- Training, frequency changes, failure, scrubbing and remapping of a memory controller. A pass starts on software's request, its
interval, a drift of temperature or a completed frequency change, and ends ACTIVE with working settings or else DEGRADED; a
frequency request held behind it then starts (R289, R290, R294). An error window ends, or ends with the failure of a DEGRADED
channel that has reached ERR_MAX (R290, R291). A frequency request starts, waits for the pass or is refused, and its change
completes with a pass (R293, R294). The scrubber reads the next line and repairs, lists or passes it; a late lap is reported once
(R307 to R309). A line corrected on the same device in two laps is remapped (R310). -/
def Obligations.MemoryControllerTrainingCompletes : Prop :=
  ∀ (c : ChanId) (g : Agent) (s : State),
    let d := s.dmc c
    let a := dmcBase c
    (d.st = 2 ∨ d.st = 3 → d.pass = false →
      (g.val < 256 → Runs (.trainNow g c) s fun u =>
        u.dmc c = { d with pass := true } ∧ bit (u.reg a) 0 = true ∧ u = { s with mem := u.mem, regs := u.regs })
      ∧ (∀ why, (why = .drift → s.drifted c = true) → (why = .interval → s.passDue c = true) → Runs (.trainingPassStart c why) s fun u =>
        u.dmc c = { d with pass := true } ∧ u = { s with mem := u.mem }))
    ∧ (d.pass = true → d.deferred = none →
      (Runs (.trainingPassEnd c true) s fun u =>
        u.dmc c = { d with pass := false, passes := d.passes + 1, passTemps := d.temps, passAt := s.laneClk, st := 2 } ∧ bit (u.reg a) 0 = false)
      ∧ (Runs (.trainingPassEnd c false) s fun u =>
        u.dmc c = { d with pass := false, passes := d.passes + 1, passTemps := d.temps, passAt := s.laneClk, st := 3 }
          ∧ bit (u.reg a) 0 = false
          ∧ bit (u.reg (a + 8)) 3 = true ∧ (d.st ≠ 3 → bit (u.reg (a + 8)) 1 = true)))
    ∧ (∀ t found, d.pass = true → d.deferred = some t → (d.tsets.getD t (0, false, false)).2.1 = true →
        ratePermitted d.dimms d.rateMax (d.tsets.getD t (0, false, false)).1 = true → Runs (.trainingPassEnd c found) s fun u =>
        (u.dmc c).pass = false ∧ (u.dmc c).busy = true ∧ (u.dmc c).st = 4 ∧ (u.dmc c).target = t ∧ (u.dmc c).deferred = none
          ∧ (u.dmc c).back = (if found then 2 else 3))
    ∧ (d.st ≠ 3 ∨ d.errs < max 1 (bits (s.reg (a + 0x60)) 31 16) → Runs (.errorWindowEnd c) s fun u =>
        u.dmc c = { d with errs := 0 } ∧ u = { s with mem := u.mem })
    ∧ (d.st = 3 → d.errs ≥ max 1 (bits (s.reg (a + 0x60)) 31 16) → Runs (.errorWindowEnd c) s fun u =>
        (u.dmc c).st = 5 ∧ (u.dmc c).errs = 0 ∧ bit (u.reg (a + 8)) 0 = true)
    ∧ (d.st = 3 → d.errs ≥ max 1 (bits (s.reg (a + 0x60)) 31 16) → Runs (.channelFailure c) s fun u =>
        (u.dmc c).st = 5 ∧ (u.dmc c).rq = [] ∧ u.mem.wq = s.mem.wq.filter (fun w => w.ch ≠ c.val) ∧ u.dram = s.dram
          ∧ bit (u.reg (a + 8)) 0 = true)
    ∧ (∀ val : W32, g.val < 256 → d.st = 2 ∨ d.st = 3 → d.busy = false →
      (d.pass = false → (d.tsets.getD (val.toNat % 4) (0, false, false)).2.1 = true →
          ratePermitted d.dimms d.rateMax (d.tsets.getD (val.toNat % 4) (0, false, false)).1 = true → Runs (.freqReq g c val) s fun u =>
        (u.dmc c).busy = true ∧ (u.dmc c).st = 4 ∧ (u.dmc c).target = val.toNat % 4 ∧ (u.dmc c).back = d.st
          ∧ u = { s with mem := u.mem })
      ∧ (d.pass = false → (d.tsets.getD (val.toNat % 4) (0, false, false)).2.1 = false → Runs (.freqReq g c val) s fun u =>
        (u.dmc c).freqCode = 0x4020 ∧ (u.dmc c).st = d.st ∧ bit (u.reg (a + 8)) 2 = true)
      ∧ (d.pass = true → Runs (.freqReq g c val) s fun u =>
        u.dmc c = { d with deferred := some (val.toNat % 4) } ∧ u = { s with mem := u.mem }))
    ∧ (d.busy = true → d.rq = [] → d.pass = false → d.back = 2 ∨ d.back = 3 → Runs (.freqChangeComplete c) s fun u =>
        (u.dmc c).busy = false ∧ (u.dmc c).cur = d.target ∧ (u.dmc c).st = d.back ∧ (u.dmc c).pass = true
          ∧ bit (u.reg (a + 8)) 2 = true ∧ u.dram = s.dram)
    ∧ (∀ e, bit (s.reg (a + 0x1100)) 0 = true → d.st = 2 ∨ d.st = 3 → d.scrub = none → d.rq = [] → s.mem.wcount c = 0 →
      d.owed = [] → d.scrubAt + 160 * max 1 (bits (s.reg (a + 0x1100)) 15 8) ≤ s.laneClk →
      Runs (.scrubRead c e) s fun u => u.dmc c = { d with scrub := some e, scrubCancel := false, scrubAt := s.laneClk } ∧ u = { s with mem := u.mem })
    ∧ (∀ e b, d.scrub = some e → d.listed d.scrubPos = false → s.decodeAt c d.scrubPos e = .clean b → Runs (.scrubResult c) s fun u =>
        (u.dmc c).scrub = none ∧ (u.dmc c).scrubPos = (if d.scrubPos + 1 < d.lines then d.scrubPos + 1 else 0)
          ∧ u.dram = s.dram ∧ u.mem.wq = s.mem.wq)
    ∧ (∀ e dev syms b, d.scrub = some e → d.scrubCancel = false → d.listed d.scrubPos = false → d.st ≠ 5 →
        s.mem.place (s.mem.lineAt c d.scrubPos) = (c.val, d.scrubPos) → bit (s.reg (a + 0x1100)) 1 = true →
        s.decodeAt c d.scrubPos e = .corrected dev syms b → Runs (.scrubResult c) s fun u =>
        (∃ w, u.mem.wq.find? (fun w => w.line = s.mem.lineAt c d.scrubPos) = some w ∧ w.data = b) ∧ (u.dmc c).scrub = none
          ∧ u.reg (a + 0x1114) = (s.reg (a + 0x1114) + 1) % 2 ^ 32 ∧ u.dram = s.dram)
    ∧ (∀ e, d.scrub = some e → d.scrubCancel = false → d.listed d.scrubPos = false → s.decodeAt c d.scrubPos e = .uncorrectable →
        (∃ i, i < 64 ∧ SMap.get none i d.plist = none) → Runs (.scrubResult c) s fun u =>
        (u.dmc c).listed d.scrubPos = true ∧ (u.dmc c).scrub = none ∧ u.dram = s.dram)
    ∧ (d.scrubSlow = false → d.st ≥ 2 → d.lapClk + max 1 (bits (s.reg (a + 0x1100)) 31 24) * 5760000000000 ≤ s.laneClk → Runs (.scrubSlowWarning c) s fun u =>
        u.dmc c = { d with scrubSlow := true } ∧ bit (u.reg (a + 8)) 5 = true)
    ∧ (∀ k e b, d.st = 2 ∨ d.st = 3 → d.remapped k = false → (∃ v, (k, v) ∈ d.corrNow ∧ (k, v) ∈ d.corrPrev) →
        (∃ i, i < 16 ∧ SMap.get none i d.remap = none) → (∀ w ∈ s.mem.wq, w.line ≠ s.mem.lineAt c k) →
        s.decodeAt c k e = .clean b → Runs (.remapInstall c k e) s fun u =>
        (u.dmc c).remapped k = true ∧ (∀ j, d.remapped j = true → (u.dmc c).remapped j = true)
          ∧ u.dram = memWrite s.dram (s.mem.lineAt c k * 64) b)

/-- Records at a ring. A Cellarer append waits at ring 16's port as a POLICY record; the record at the head of a port is
accepted, where the ring has no hold or only FULL and has room, with the next sequence number, the time and, while PAIRED with
the link up, its frame to the twin; a thread's append on a ring that is OFFLINE or DIVERGENT is refused with 0x1301. A mirror
acknowledgment of the oldest record commits it and completes its JRN.PUT with the commit's code. A replay request, or no
acknowledgment 80 lane cycles after sending, retransmits the record, and after four retransmissions ends the link. A witness copy
unacknowledged for WIT_CFG.TIMEOUT leads to HELD, where every ring holds (R160, R165 to R170, R172). -/
def Obligations.JournalOperationsComplete : Prop :=
  ∀ (k : RingId) (s : State),
    let r := s.ring k
    let again := r.recs.map
    (∀ ev code b, Runs (.cellarerAppend ev code b) s fun u =>
      (∃ p, (u.ring 16).waiting = enqueueRec p (s.ring 16).waiting ∧ p.src = .cel ∧ p.agent = 272 ∧ p.clk = s.laneClk
          ∧ Bytes.le p.bytes 21 1 = 0x05 ∧ Bytes.le p.bytes 22 2 = code.toNat ∧ Bytes.le p.bytes 32 2 = ev % 65536)
        ∧ (∀ j, j ≠ 16 → u.ring j = s.ring j) ∧ u = { s with jrn := u.jrn })
    ∧ (∀ p ps w, r.late = [] → s.sealPending = false → r.accClk ≠ some s.laneClk → r.waiting = p :: ps →
      (r.hold = 0 ∨ r.hold = 2 → r.fill + p.bytes.length ≤ ringCap k → Runs (.recordAccept k w) s fun u =>
        (u.ring k).waiting = ps ∧ (u.ring k).seqNext = r.seqNext + 1
          ∧ (∃ x, (u.ring k).recs = r.recs ++ [x] ∧ x.seq = r.seqNext ∧ x.src = p.src ∧ x.committed = false ∧ x.acked = false
              ∧ x.bytes.drop 32 = p.bytes.drop 32
              ∧ Bytes.le x.bytes 0 8 = r.seqNext % 2 ^ 64 ∧ Bytes.le x.bytes 8 8 = s.tai % 2 ^ 64)
          ∧ (s.jrn.mode = 1 → s.twin.linkUp = true → ∃ f ∈ u.twin.txStore, f.body = .record k r.seqNext false)
          ∧ ∀ j, j ≠ k.val → u.ring j = s.ring j)
      ∧ (∀ n t h rd, p.src = .thread n t h → (s.thr n t).run = .waitJrn rd → rd ≠ 0 → r.hold = 4 ∨ r.hold = 5 →
        Runs (.recordAccept k w) s fun u =>
          (u.ring k).waiting = ps ∧ (u.ring k).recs = r.recs ∧ (u.thr n t).rd rd = 0x1301#32 ∧ (u.thr n t).run = .run))
    ∧ (∀ x xs n t h rd seq delay, s.twin.linkUp = true → s.jrn.mode = 1 ∨ s.jrn.mode = 4 → r.recs = x :: xs → x.seq = seq →
        x.committed = false → (∀ y ∈ xs, y.seq ≠ seq ∧ y.committed = false ∧ y.acked = false) → x.src = .thread n t h →
        (s.thr n t).run = .waitJrn rd → rd ≠ 0 → Runs (.mirrorAckReceive k seq delay) s fun u =>
          (u.ring k).recs = { x with acked := true, committed := true } :: xs ∧ (u.ring k).seqDone = seq
            ∧ (u.thr n t).rd rd = (if x.wit then 0x13C2#32 else if x.delayed then 0x13C1#32 else 0#32) ∧ (u.thr n t).run = .run
            ∧ ∀ j, j ≠ k.val → u.ring j = s.ring j)
    ∧ (∀ x seq, s.twin.linkUp = true → r.recs.find? (fun y => y.seq = seq ∧ !y.committed ∧ !y.acked) = some x →
        ((∀ y ∈ r.recs, s.laneClk < y.sentClk + 80) → exec (.replayTimeout k seq) s = .next s)
        ∧ ∀ p ∈ [(Instr.replayRequestReceive k seq, 0), (.replayTimeout k seq, 80)], p.2 = 0 ∨ x.sentClk + p.2 ≤ s.laneClk →
          let c := p.1
          (x.retx < 4 → Runs c s fun u =>
            (u.ring k).recs = again (fun y => if y.seq = seq then { y with retx := y.retx + 1, delayed := true, sentClk := s.laneClk }
                else if y.seq > seq ∧ !y.committed then { y with delayed := true } else y)
              ∧ u.reg (jrnBase + 0x30) = (s.reg (jrnBase + 0x30) + 1) % 2 ^ 32 ∧ u.twin = s.twin)
          ∧ (x.retx ≥ 4 → Runs c s fun u => u.twin.linkUp = false ∧ u.twin.pair = 0))
    ∧ (∀ x ∈ r.recs, s.jrn.mode = 2 → x.committed = false → x.acked = false →
        x.sentClk + bits (s.reg (jrnBase + 0x28)) 13 0 * 1600 ≤ s.laneClk →
        Runs (.witnessAckTimeout k x.seq) s fun u =>
          u.jrn.mode = 3 ∧ (∀ j, j < 17 → (s.ring j).online = true → (u.ring j).pairHold = true) ∧ u.dram = s.dram)

/-- The drain. A sealed epoch whose next seal has committed leaves the home copy: its records stand in the drain area from
DRAIN_HEAD, which moves behind them, and with the link up the twin is told, which lets go of the same range of its mirror copy.
Software gives the area back, and DRAIN_PAUSE is set and cleared. A ring's comparison with the peer's without divergence ends
its resynchronisation: what the peer holds is confirmed, unconfirmed records that it lacks are discarded, and once no ring
compares any more the pair is formed (R171, R177, R178). -/
def Obligations.DrainOperationsComplete : Prop :=
  ∀ (k : RingId) (s : State),
    let r := s.ring k
    let head := s.reg (ringReg k 0x24)
    let ret := s.reg (ringReg k 0x28)
    (∀ e es area, r.drainEpochs = e :: es → s.drainArea k = some area → r.closing = false → r.late = [] →
      bit (s.reg jrnBase) 0 = false →
      r.recs.any (fun x => x.committed && Bytes.le x.bytes 21 1 = 0x03 && Bytes.le x.bytes 32 8 = e + 1) = true →
      (∀ x ∈ r.recs, x.epoch ≤ e → x.committed = true) →
      let mine := r.recs.filter (fun x => x.epoch ≤ e)
      let b := mine.foldl (fun a x => a ++ x.bytes) []
      let base := s.reg (ringReg k 0x18) + s.reg (ringReg k 0x1C) * 2 ^ 32
      (head + 2 ^ 32 - ret) % 2 ^ 32 + b.length / 64 ≤ area → Runs (.drainCopy k .none) s fun u =>
        u.reg (ringReg k 0x24) = (head + b.length / 64) % 2 ^ 32 ∧ (u.ring k).recs = r.recs.filter (fun x => x.epoch > e)
          ∧ (u.ring k).drainEpochs = es ∧ (∀ j, j ≠ k.val → u.ring j = s.ring j)
          ∧ (base % 64 = 0 → (∀ c, (s.dmc c).st ≠ 5) → ∀ i j, i < b.length / 64 → j < 64 →
              u.byteAt (base + (head + i) % area * 64 + j) = b.getD (64 * i + j) 0)
          ∧ (s.twin.linkUp = true → ∃ f ∈ u.twin.txStore, f.body = .drain k (mine.foldl (fun a x => max a x.seq) 0)))
    ∧ (∀ (g : Agent) (val : W32),
      ((head + 2 ^ 32 - val.toNat) % 2 ^ 32 ≤ (head + 2 ^ 32 - ret) % 2 ^ 32 → Runs (.drainRetire g k val) s fun u =>
        u.reg (ringReg k 0x28) = val.toNat ∧ s.onlyReg u (ringReg k 0x28))
      ∧ (¬ (head + 2 ^ 32 - val.toNat) % 2 ^ 32 ≤ (head + 2 ^ 32 - ret) % 2 ^ 32 → exec (.drainRetire g k val) s = .next s)
      ∧ ∀ v, Runs (.drainPause g v) s fun u => bit (u.reg jrnBase) 0 = v ∧ s.onlyReg u jrnBase)
    ∧ (∀ f last, s.frameGood f 4 → Runs (.drainFrameReceive f k last) s fun u =>
        (u.ring k).mirror = r.mirror.filter (fun x => decide (x.seq > last)) ∧ (u.ring k).recs = r.recs
          ∧ ∀ j, j ≠ k.val → u.ring j = s.ring j)
    ∧ (∀ peer : PeerRing, s.twin.pair = 3 ∨ s.twin.pair = 4 → r.resync = true → r.online = true → r.release = 0 →
      let has := fun (x : Rec) => peer.committed.contains (x.seq, x.bytes) || peer.held.contains (x.seq, x.bytes)
        || peer.copies.contains (x.seq, x.bytes)
      (∀ x ∈ r.recs, x.committed = true → has x = true) → (∀ x ∈ r.recs, x.seq < r.seqNext ∧ ∀ y ∈ r.recs, y.seq = x.seq → y = x) →
      Runs (.ringResyncComplete k peer) s fun u =>
        (u.ring k).resync = false
          ∧ (∀ x ∈ r.recs, has x = true → ∃ y ∈ (u.ring k).recs, y.seq = x.seq ∧ y.bytes = x.bytes ∧ y.committed = true)
          ∧ (∀ x ∈ r.recs, has x = false → peer.mine.contains (x.seq, x.bytes) = false →
              ∀ y ∈ (u.ring k).recs, y.seq = x.seq → y.bytes ≠ x.bytes)
          ∧ ((∀ j, j < 17 → j ≠ k.val → (s.ring j).resync = false) → u.twin.pair = 4 ∧ u.jrn.mode = 1))

/-- The mirror link. Training measures the flight time and, within the limits, brings the link up, starts pairing and sends the
nonce. A failure of the link takes it down: with this device's own lease the journal goes to WITNESS and each unconfirmed record
to the witness, else to HELD; a pair fault also leaves PAIR at FAULT. Acknowledgments leave on idle symbols; a bad header is counted
and has no other effect, a bad frame only its mark in the acknowledgment vector. A good frame has its effect: a nonce, the peer's
pair fault, prepare or takeover message, the beat skew with its warning and fault, a snapshot, a record for the mirror copy. A
manifest that passes every check pairs the devices and compares every ring; a failing one takes the link down (R169, R170, R180 to
R190). -/
def Obligations.MirrorLinkOperationsComplete : Prop :=
  ∀ s : State,
    let down := fun (u : State) =>
      u.twin.linkUp = false ∧ u.jrn.mode = (if s.twin.lease then 2 else 3)
        ∧ (s.twin.lease = true → s.witnessId ≠ noVal → ∀ k : RingId, s.ringLease k = true → (s.ring k).online = true →
            ∀ x ∈ (s.ring k).recs, x.committed = false →
            (∃ q ∈ u.twin.reqs, q.type = 0x10 ∧ q.ref = wcopyRef k x.seq)
              ∧ ∃ y ∈ (u.ring k).recs, y.seq = x.seq ∧ y.bytes = x.bytes ∧ y.wit = true ∧ y.committed = false)
    (∀ fl dk, s.twin.linkUp = false → pairEn s = true →
      (fl.foldl max 0 ≤ 1500 → dk ≤ 400 → Runs (.linkTraining fl dk true) s fun u =>
        u.twin.linkUp = true ∧ u.twin.pair = 2 ∧ u.twin.nonce = s.freeBytes 16
          ∧ u.twin.txStore = [{ lseq := 0, body := .ctl (.nonce u.twin.nonce), ack := (0, 0) }]
          ∧ u.reg (twnBase + 0x28) = fl.foldl max 0)
      ∧ (1500 < fl.foldl max 0 ∨ 400 < dk → Runs (.linkTraining fl dk true) s fun u =>
        u.twin.linkUp = false ∧ u.twin.pair = (if s.twin.fault then 5 else 0) ∧ u.reg (twnBase + 0x14) = 0x1409)
      ∧ (Runs (.linkTraining fl dk false) s fun u => u.twin.linkUp = false ∧ u.twin.pair = (if s.twin.fault then 5 else 0)))
    ∧ (s.twin.linkUp = false → pairEn s = true → s.twin.noRetry = false → Runs .linkRetrainTimer s fun u =>
        u = { s with twin := { s.twin with pair := 1 } })
    ∧ (s.twin.linkUp = true →
      (∀ c : Code, Runs (.linkFailure c) s fun u => down u ∧ u.twin.pair = 0 ∧ u.reg (twnBase + 0x14) = c.toNat)
      ∧ (Runs .headerTimeout s fun u => down u ∧ u.twin.pair = 0 ∧ u.reg (twnBase + 0x14) = 0x1409)
      ∧ (∀ i, Runs (.symbolLockLoss i) s fun u => down u ∧ u.twin.pair = 0 ∧ u.reg (twnBase + 0x14) = 0x1409)
      ∧ (3 ≤ s.twin.beatMiss → Runs .beatFrameMissing s fun u => down u ∧ u.twin.pair = 5 ∧ u.reg (twnBase + 0x14) = 0x1407)
      ∧ (Runs .idleAckSend s fun u => u = { s with twin := { s.twin with ackSent := (s.twin.rxLseq, s.twin.rxMap) } })
      ∧ (∀ q, Runs (.headerHcrcFailure q) s fun u =>
          u.reg (twnBase + 0x30) = (s.reg (twnBase + 0x30) + 1) % 2 ^ 32 ∧ u.twin = s.twin.rx (q % 65536) false
            ∧ ((q % 65536 + 65536 - s.twin.rxLseq) % 65536 < 32768 →
                u.twin.rxLseq = q % 65536 ∧ bit u.twin.rxMap 0 = false)
            ∧ s.onlyReg { u with twin := s.twin } (twnBase + 0x30))
      ∧ (∀ f m, f.hdrOk = false → Runs (.ctlFrameReceive f m) s fun u =>
          u.reg (twnBase + 0x30) = (s.reg (twnBase + 0x30) + 1) % 2 ^ 32 ∧ s.onlyReg u (twnBase + 0x30))
      ∧ (∀ f m, f.hdrOk = true → f.good 6 = false → s.twin.txStore = [] → Runs (.ctlFrameReceive f m) s fun u =>
          u = { s with twin := s.twin.rx f.lseq false }))
    ∧ (∀ f, s.frameGood f 6 →
      (∀ n, Runs (.ctlFrameReceive f (.nonce n)) s fun u =>
        u.twin = { s.twin.rx f.lseq true with peerNonce := n } ∧ u = { s with twin := u.twin })
      ∧ (∀ c : Code, Runs (.ctlFrameReceive f (.pairFault c)) s fun u =>
        u.twin.linkUp = false ∧ u.twin.pair = 5 ∧ u.reg (twnBase + 0x14) = c.toNat)
      ∧ (∀ lanes e, s.twin.pair = 4 → Runs (.ctlFrameReceive f (.takeover lanes e)) s fun u =>
        u.twin.takeover = .ready ∧ u.twin.takeLanes = lanes ∧ u.twin.takeAt = some e ∧ u = { s with twin := u.twin }))
    ∧ (∀ f, s.frameGood f 3 →
      let skew : Int := (s.tai : Int) - (s.reg (twnBase + 0x28) / 1000 : Nat) - (Bytes.le f.bytes 20 8 : Nat)
      let limit := bits (s.reg (twnBase + 0x24)) 15 0
      (skew.natAbs ≤ limit → skew.natAbs ≤ 20000 → Runs (.beatFrameReceive f) s fun u =>
        s.onlyReg { u with twin := s.twin } (twnBase + 0x20) ∧ u.reg (twnBase + 0x20) = sat32 skew
          ∧ u.twin = { s.twin.rx f.lseq true with beatMiss := 0 })
      ∧ (limit < skew.natAbs → skew.natAbs ≤ 20000 → Runs (.beatFrameReceive f) s fun u =>
        u.reg (twnBase + 0x20) = sat32 skew ∧ bit (u.reg (twnBase + 8)) 3 = true ∧ u.twin.linkUp = true)
      ∧ (20000 < skew.natAbs → Runs (.beatFrameReceive f) s fun u =>
        u.reg (twnBase + 0x20) = sat32 skew ∧ u.twin.linkUp = false ∧ u.twin.pair = 5 ∧ u.reg (twnBase + 0x14) = 0x1407))
    ∧ (∀ f, s.frameGood f 5 →
      (∀ n regs gens, Runs (.snapFrameReceive f (.shelf n regs gens)) s fun u =>
        u.twin.snapShelf.find? (fun p => p.1 = n) = some (n, regs, gens) ∧ u = { s with twin := u.twin })
      ∧ (∀ i e, (s.sess i).st = 5 → Bytes.le e 2 1 ≠ 0 → Runs (.snapFrameReceive f (.session i e)) s fun u =>
        u.sess i = Session.ofBytes e ∧ ∀ j, j ≠ i → u.sess j = s.sess j))
    ∧ (∀ f, s.frameGood f 1 →
      let q := Bytes.le f.record 0 8
      let m := (s.ring f.ring).mirror
      ((∀ x ∈ m, x.seq ≠ q) → Runs (.recordFrameReceive f) s fun u =>
        (∃ x, (u.ring f.ring).mirror.find? (fun y => y.seq = q) = some x ∧ x.bytes = f.record)
          ∧ (u.ring f.ring).recs = (s.ring f.ring).recs ∧ (∀ j, j ≠ f.ring → u.ring j = s.ring j)
          ∧ u.twin = s.twin.rx f.lseq true)
      ∧ (∀ x, m.find? (fun x => x.seq = q) = some x →
        (x.bytes = f.record → Runs (.recordFrameReceive f) s fun u =>
          (∀ j, u.ring j = s.ring j) ∧ u.twin = s.twin.rx f.lseq true)
        ∧ (x.bytes ≠ f.record → Runs (.recordFrameReceive f) s fun u =>
          u.twin.linkUp = false ∧ u.twin.pair = 5 ∧ u.reg (twnBase + 0x14) = 0x1408)))
    ∧ (∀ d m, s.twin.dom = some d → s.twin.pair = 2 →
      (s.manifestCode d m = (0, 0) → Runs (.manifestReceive m) s fun u =>
        u.twin.pair = 3 ∧ u.twin.peer = m.device ∧ u.jrn.mode = 4 ∧ ∀ k, k < 17 → (u.ring k).resync = true)
      ∧ ((s.manifestCode d m).1 ≠ 0 → Runs (.manifestReceive m) s fun u =>
        u.twin.pair = 0 ∧ u.twin.noRetry = true ∧ u.twin.linkUp = false ∧ u.reg (twnBase + 0x14) = (s.manifestCode d m).1))

/-- Leases. The witness grants or refuses a request, frees a released lease at once, and its count ends a lease. A grant gives or
renews this device's lease and returns it from HELD to WITNESS, or gives the twin's and starts fetching the witness copies for a
takeover; a refusal sets LEASE_LOST; the end of the holder's count takes the lease, moves a device in WITNESS to HELD and holds
the rings taken over. A takeover asks again for the twin's lease. A message that fails its tag check is counted and not answered
(R191 to R193, R196, R197, R199, R200). -/
def Obligations.LeaseOperationsComplete : Prop :=
  ∀ (h : RhaxHdr) (home : Nat) (s : State),
    (s.rhaxCode h false = 0x1416 → Runs (.leaseReq h home) s fun u =>
      u.twin.sent = s.twin.sent ∧ u.twin.wLeases = s.twin.wLeases
        ∧ u.reg (twnBase + 0x34) = (s.reg (twnBase + 0x34) + 1) % 2 ^ 32)
    ∧ (s.rhaxFresh h false →
      (s.leaseCode home h.src = 0 → Runs (.leaseReq h home) s fun u =>
        (∃ l, u.wLease home = some l ∧ l.holder = some h.src ∧ l.expired = false
            ∧ l.until_ = s.laneClk + (s.leaseLen + 1) * epochCycles)
          ∧ u.twin.sent = s.twin.sent ++ [{ type := 0x02, dst := h.src, mseq := h.mseq, body := .home home }]
          ∧ u = { s with twin := u.twin })
      ∧ (s.leaseCode home h.src ≠ 0 → Runs (.leaseReq h home) s fun u =>
        (u.wLease home).map (·.holder) = (s.wLease home).map (·.holder)
          ∧ u.twin.sent = s.twin.sent
              ++ [{ type := 0x03, dst := h.src, mseq := h.mseq, code := s.leaseCode home h.src, body := .home home }]
          ∧ u = { s with twin := u.twin }))
    ∧ (s.rhaxCode h false = 0 →
      (∀ l, s.wLease home = some l → l.holder = some h.src → Runs (.leaseRelease h home) s fun u =>
        (∃ l', u.wLease home = some l' ∧ l'.holder = none) ∧ u = { s with twin := u.twin })
      ∧ (∀ r, s.rhaxAnswers h [0x01] r → r.ref = home →
        let end_ := r.clk + s.leaseLen * epochCycles
        (s.laneClk ≤ end_ →
          (home = s.twin.deviceId → Runs (.leaseGrant h home) s fun u =>
            u.twin.lease = true ∧ u.twin.leaseUntil = end_
              ∧ u.jrn.mode = (if s.jrn.mode = 3 ∧ s.twin.pair ≠ 4 then 2 else s.jrn.mode))
          ∧ (home ≠ s.twin.deviceId → Runs (.leaseGrant h home) s fun u =>
            u.twin.twinLease = true ∧ u.twin.twinUntil = end_
              ∧ (s.twin.takeover = .wantLease → u.twin.takeover = .fetching
                  ∧ ∃ q ∈ u.twin.reqs, q.type = 0x12 ∧ q.dst = s.witnessId ∧ q.ref = home)))
        ∧ (∀ c, Runs (.leaseRefuse h home c) s fun u =>
          u.twin.lease = s.twin.lease ∧ u.twin.twinLease = s.twin.twinLease ∧ bit (u.reg (twnBase + 8)) 4 = true)))
    ∧ (∀ l x, s.wLease home = some l → l.holder = some x → l.until_ ≤ s.laneClk → Runs (.witnessLeaseExpiry home) s fun u =>
        u.wLease home = some { l with expired := true } ∧ u = { s with twin := u.twin })
    ∧ (s.twin.lease = true → s.twin.leaseUntil ≤ s.laneClk → Runs (.leaseExpiry true) s fun u =>
        u.twin.lease = false ∧ u.jrn.mode = (if s.jrn.mode = 2 then 3 else s.jrn.mode) ∧ bit (u.reg (twnBase + 8)) 4 = true)
    ∧ (s.twin.twinLease = true → s.twin.twinUntil ≤ s.laneClk → Runs (.leaseExpiry false) s fun u =>
        u.twin.twinLease = false ∧ u.jrn.mode = s.jrn.mode ∧ bit (u.reg (twnBase + 8)) 4 = true
          ∧ (s.jrn.mode = 2 → ∀ k, k < 16 → bit s.twin.homeCfg k = false → (s.ring k).online = true → (u.ring k).pairHold = true))
    ∧ (s.twin.takeover = .wantLease → takeoverEn s = true → (∀ q ∈ s.twin.reqs, ¬ (q.type = 0x01 ∧ q.ref = s.twin.peer)) →
        s.btm.far = false → s.witnessId ≠ noVal → Runs .takeoverLeaseRetry s fun u =>
          u.twin.sent = s.twin.sent ++ [{ type := 0x01, dst := s.witnessId, mseq := SMap.get 0 s.witnessId s.twin.mseq,
                                          body := .home s.twin.peer }]
            ∧ u = { s with twin := u.twin })

/-- The Rhax fabric. The witness stores a copy in its area and acknowledges it, refuses one without room, returns a pair's copies
and discards them once both twins have dropped them; an acknowledgment commits the oldest record with 0x13C2. Fetched copies join
the mirror copies and the last readies the takeover. A lane transfer is offered, accepted with its bytes sent, refused with 0x1603
reported to the source lane, received, and done: the message is minted with FLAGS TRANSFER when its last link checks. A chain is
replayed for VERIFY_REQ and its answer received; a time announcement marks outliers; a refusal or five retries without an answer end
a request; a silent witness leads to the next proposal (R170, R194, R195, R197, R200 to R203). -/
def Obligations.FabricOperationsComplete : Prop :=
  ∀ (h : RhaxHdr) (s : State),
    let rest := s.twin.reqs.filter (fun q => !(decide (q.dst = h.src) && decide (q.mseq = h.mseq)))
    let lost := fun (u : State) (r : RhaxReq) => ∀ m, (s.lane (r.ref / 4096)).msg (r.ref % 4096) = some m →
      ((u.lane (r.ref / 4096)).msg (r.ref % 4096)).map (·.report) = some (some 0x1603#16)
        ∧ ∃ p ∈ (u.ring (r.ref / 4096)).waiting, p.src = .laneHw (r.ref / 4096) (r.ref % 4096) ∧ Bytes.le p.bytes 21 1 = 0x86
    (s.rhaxFresh h false →
      (∀ (k : RingId) b, s.twin.wCopies.any (fun c => c.1 = h.src && c.2.1 = k.val && s.dramRead (s.witArea.1 + c.2.2.1) c.2.2.2 = b)
          = false →
        let place := witPlace (s.twin.wCopies.map (fun c => (c.2.2.1, c.2.2.2))) s.witArea.2 b.length
        (∀ o, place = some o → Runs (.wcopy h k b) s fun u =>
          u.twin.wCopies = s.twin.wCopies ++ [(h.src, k.val, o, b.length)]
            ∧ u.twin.sent = s.twin.sent ++ [{ type := 0x11, dst := h.src, mseq := h.mseq }]
            ∧ ((∀ c, (s.dmc c).st ≠ 5) → s.poisoned (s.witArea.1 + o) b.length = false → u.dramRead (s.witArea.1 + o) b.length = b))
        ∧ (place = none → Runs (.wcopy h k b) s fun u =>
          u.twin.wCopies = s.twin.wCopies
            ∧ ∃ o, u.twin.sent = s.twin.sent ++ [o] ∧ o.type = 0x7F ∧ o.dst = h.src ∧ o.mseq = h.mseq
              ∧ o.code / 256 = 0x14 ∧ 1 ≤ o.code % 256 ∧ o.code % 256 ≤ 0xBF))
      ∧ (∀ home, Runs (.wcopyFetch h home) s fun u =>
        let cs := s.copiesOf home
        u.twin.sent = s.twin.sent ++ (List.range (cs.length / 34)).map (fun i =>
              { type := 0x13, dst := h.src, mseq := h.mseq, body := .copies ((cs.drop (34 * i)).take 34) false })
            ++ [{ type := 0x13, dst := h.src, mseq := h.mseq, body := .copies (cs.drop (34 * (cs.length / 34))) true }]
          ∧ u = { s with twin := u.twin })
      ∧ (∀ hm rt pv,
        ((∃ n, n < 16 ∧ (s.lane n).st = 2) → Runs (.xferOffer h hm rt pv) s fun u =>
          u.twin.xfersIn = s.twin.xfersIn ++ [{ src := h.src, mseq := h.mseq, hallmark := hm, route := rt, prev := pv }]
            ∧ u.twin.sent = s.twin.sent ++ [{ type := 0x21, dst := h.src, mseq := h.mseq }] ∧ u = { s with twin := u.twin })
        ∧ ((∀ n, n < 16 → (s.lane n).st ≠ 2) → Runs (.xferOffer h hm rt pv) s fun u =>
          u.twin.xfersIn = s.twin.xfersIn
            ∧ u.twin.sent = s.twin.sent ++ [{ type := 0x22, dst := h.src, mseq := h.mseq, code := 0x1414 }]))
      ∧ (∀ b x xs ys, s.twin.xfersIn = ys ++ x :: xs → (∀ y ∈ ys, y.src ≠ h.src) → x.src = h.src →
        Runs (.xferTiles h b) s fun u =>
          u = { s with twin := { s.twin with xfersIn := ys ++ { x with body := x.body ++ b, mseq := h.mseq } :: xs } }))
    ∧ (s.rhaxCode h false = 0 →
      (∀ (k : RingId) x xs, s.jrn.mode = 2 → (s.ring k).recs = x :: xs → x.committed = false → x.src ≠ .jrn →
          (∀ y ∈ xs, y.seq ≠ x.seq ∧ y.committed = false ∧ y.acked = false) → Runs (.wcopyAck h k x.seq) s fun u =>
        (u.ring k).recs = { x with acked := true, wit := true, committed := true } :: xs ∧ (u.ring k).seqDone = x.seq
          ∧ u.reg (jrnBase + 0x34) = (s.reg (jrnBase + 0x34) + 1) % 2 ^ 32
          ∧ ∀ n t i rd, x.src = .thread n t i → (s.thr n t).run = .waitJrn rd → rd ≠ 0 → (u.thr n t).rd rd = 0x13C2#32)
      ∧ (∀ (k : RingId) b last r, s.twin.takeover = .fetching → s.rhaxAnswers h [0x12] r →
        Runs (.wcopyData h [(k, b)] last) s fun u =>
          (last = true → u.twin.takeover = .ready ∧ u.twin.reqs = rest)
            ∧ ((∀ x ∈ (s.ring k).mirror, x.seq ≠ Bytes.le b 0 8) →
                ∃ x, (u.ring k).mirror.find? (fun y => y.seq = Bytes.le b 0 8) = some x ∧ x.bytes = b))
      ∧ ((s.pairOf h.src).length > 1 → (∀ d ∈ s.pairOf h.src, d = h.src ∨ ∃ w ∈ s.twin.wDrops, w.1 = d) →
        Runs (.wcopyDrop h) s fun u => u.twin.wCopies = s.twin.wCopies.filter (fun c => !(s.pairOf h.src).contains c.1))
      ∧ (∀ r m x, s.rhaxAnswers h [0x20] r → (s.lane (r.ref / 4096)).msg (r.ref % 4096) = some m → m.trace.getLast? = some x →
        let l := s.lane (r.ref / 4096)
        Runs (.xferAccept h) s fun u =>
          u.twin.sent = s.twin.sent ++ [{ type := 0x23, dst := h.src, mseq := SMap.get 0 h.src s.twin.mseq,
                                          body := .tiles (l.content ((l.chain x.tile).getD [])) }]
            ∧ u = { s with twin := u.twin })
      ∧ (∀ r c, s.rhaxAnswers h [0x20, 0x23] r → Runs (.xferRefuse h c) s fun u => u.twin.reqs = rest ∧ lost u r)
      ∧ (∀ n c e,
        (∀ r, (∀ x ∈ s.twin.xfersIn, x.src ≠ h.src) → s.rhaxAnswers h [0x23] r → Runs (.xferDone h n c e) s fun u =>
          u.twin.reqs = rest ∧ (∀ m, (u.lane (r.ref / 4096)).msg (r.ref % 4096) = some m → m.atPort = false)
            ∧ ∀ m, m ≠ r.ref / 4096 → u.lane m = s.lane m)
        ∧ (∀ x key mk, s.twin.xfersIn.find? (fun x => x.src = h.src) = some x → s.hmKey (Hallmark.ofBytes x.hallmark) = some key →
            xferLinkOk key (Hallmark.ofBytes x.hallmark) x = true →
            s.mintKey = some mk → (s.lane n).st = 2 → (s.lane n).inflight < 4096 → (∃ i, i < 4096 ∧ (s.lane n).msg i = none) →
            cdiv (x.hallmark ++ x.body).length 256 ≤ ((s.lane n).freeTiles (cdiv (x.hallmark ++ x.body).length 256)).length →
            Runs (.xferDone h n c e) s fun u =>
          u.twin.sent = s.twin.sent ++ [{ type := 0x24, dst := h.src, mseq := h.mseq }] ∧ u.twin.xfersIn = s.twin.xfersIn.erase x
            ∧ (∃ i m, (s.lane n).msg i = none ∧ (u.lane n).msg i = some m ∧ m.hm.flags = 16 ∧ m.cls = c.val
                ∧ m.len = (x.hallmark ++ x.body).length)
            ∧ ∀ m, m ≠ n.val → u.lane m = s.lane m))
      ∧ (∀ r c, s.rhaxAnswers h [0x30] r → Runs (.verifyResp h c) s fun u =>
        u.twin.verifyAns = some c ∧ u.twin.reqs = rest ∧ u = { s with twin := u.twin })
      ∧ (∀ r t c, s.rhaxAnswers h [0x01, 0x10, 0x12, 0x20, 0x23, 0x30] r → Runs (.refuse h t c) s fun u =>
        (s.sealPending = false → u.twin.reqs = rest) ∧ u.reg (twnBase + 0x34) = (s.reg (twnBase + 0x34) + 1) % 2 ^ 32
          ∧ (r.type = 0x10 → s.jrn.mode = 2 → u.jrn.mode = 3) ∧ (r.type = 0x20 → lost u r)))
    ∧ (s.rhaxFresh h true → ∀ b rt os, os.foldl (fun a x => a + x.length) 0 ≤ 65536 →
      (∀ k, s.hmKey (Hallmark.ofBytes b) = some k → Runs (.verifyReq h b rt os) s fun u =>
        u.twin.sent = s.twin.sent ++ [{ type := 0x31, dst := h.src, mseq := h.mseq, code := replayChain k (Hallmark.ofBytes b) rt os }]
          ∧ u = { s with twin := u.twin })
      ∧ (s.hmKey (Hallmark.ofBytes b) = none → Runs (.verifyReq h b rt os) s fun u =>
        u.twin.sent = s.twin.sent ++ [{ type := 0x31, dst := h.src, mseq := h.mseq, code := 0x1411 }] ∧ u = { s with twin := u.twin }))
    ∧ (s.rhaxCode h true = 0 → ∀ gm off st ns, Runs (.timeAnnounce h gm off st ns) s fun u =>
        u.twin.outliers.contains h.src = decide (max ns s.tai - min ns s.tai > 100000)
          ∧ u.twin.farDevs.contains h.src = bit st.toNat 3
          ∧ (∀ d, d ≠ h.src → u.twin.outliers.contains d = s.twin.outliers.contains d) ∧ u = { s with twin := u.twin })
    ∧ (∀ d i, s.twin.dom = some d → d.witness.getD (s.twin.witness + 1) noVal ≠ noVal → s.twin.pair = 4 →
        s.twin.deviceId < s.twin.peer → i = s.twin.witness + 1 → Runs .witnessSilence s fun u =>
          u.twin.witProposed = some i ∧ u = { s with twin := u.twin }
            ∧ (s.twin.linkUp = true → ∃ f ∈ u.twin.txStore, f.body = .ctl (.witnessPropose i)))
    ∧ (∀ dst q r, s.twin.reqs.find? (fun r => decide (r.dst = dst) && decide (r.mseq = q)) = some r →
        (s.laneClk < r.sent + 32000 → exec (.rhaxRetryTimer dst q) s = .next s)
        ∧ (r.tries ≤ 5 → r.sent + 32000 ≤ s.laneClk → Runs (.rhaxRetryTimer dst q) s fun u =>
          u.twin.sent = s.twin.sent ++ [{ type := r.type, dst := r.dst, mseq := r.mseq, body := r.body }]
            ∧ u.twin.reqs = s.twin.reqs.map (fun x => if x.dst = dst ∧ x.mseq = q then { x with tries := x.tries + 1, sent := s.laneClk } else x))
        ∧ (5 < r.tries → r.sent + 32000 ≤ s.laneClk → Runs (.rhaxRetryTimer dst q) s fun u =>
          (s.sealPending = false → u.twin.reqs = s.twin.reqs.filter (fun x => !(decide (x.dst = dst) && decide (x.mseq = q))))
            ∧ (r.type = 0x20 → lost u r)))

/-- Mailboxes of an agent whose firewall lets it in. The first DATA write claims an IDLE mailbox, later ones of the sender store
data, one of another agent is counted and changes nothing else; GO posts the message, latches SEQ, starts the timer and, for a
NOTICE mailbox, interrupts the receiver; CLEAR withdraws a message or frees a finished mailbox; the receiver takes the message,
extends its time and acknowledges it with a code, late after its timer and as an orphan after its sender's reset; the timer
expires it with 0x0101 or 0x0102 (R325 to R330, R332 to R334). -/
def Obligations.MailboxOperationsComplete : Prop :=
  ∀ (g : Agent) (n : MbxId) (s : State), s.mbxRight g n = true →
    let m := s.mbx n
    let same := fun (u : State) => ∀ j, j ≠ n.val → u.mbx j = s.mbx j
    (∀ (i : Fin 16) (v : W32),
      (m.st = 0 → mbxMaySend n g = true → Runs (.mailboxDataWrite g n i v) s fun u =>
        u.mbx n = { m with st := 1, sender := g, data := SMap.set 0 i v m.data } ∧ same u ∧ u = { s with cel := u.cel })
      ∧ (m.st = 1 → m.sender = g.val → Runs (.mailboxDataWrite g n i v) s fun u =>
        u.mbx n = { m with data := SMap.set 0 i v m.data } ∧ same u ∧ u = { s with cel := u.cel })
      ∧ (m.st = 1 ∧ m.sender ≠ g.val ∨ m.st = 2 → Runs (.mailboxDataWrite g n i v) s fun u =>
        u.mbx n = { m with refused := (m.refused + 1) % 2 ^ 32 } ∧ same u ∧ u = { s with cel := u.cel, gar := u.gar }))
    ∧ (∀ q : BitVec 8, m.st = 0 ∧ mbxMaySend n g = true ∨ m.st = 1 ∧ m.sender = g.val → Runs (.mailboxGo g n q) s fun u =>
        (u.mbx n).st = 2 ∧ (u.mbx n).sender = g.val ∧ (u.mbx n).seq = q.toNat ∧ (u.mbx n).running = true
          ∧ (u.mbx n).goClk = s.laneClk ∧ (u.mbx n).data = m.data ∧ same u
          ∧ (mbxKind n = 1 → bit m.rxTarget 31 = true → m.peer ≠ 0x1FF → bits m.rxTarget 18 8 ≠ 0 →
              (bits m.rxTarget 7 0 * 2 + bits m.rxTarget 19 19, bits m.rxTarget 18 8) ∈ u.msis))
    ∧ (m.st = 1 ∨ m.st = 2 → m.sender = g.val → Runs (.mailboxClear g n) s fun u =>
        u.mbx n = m.idle 0x0104 ∧ same u ∧ u = { s with cel := u.cel })
    ∧ (m.st = 4 ∨ m.st = 5 → m.sender = g.val → Runs (.mailboxClear g n) s fun u =>
        u.mbx n = m.idle m.code ∧ same u ∧ u = { s with cel := u.cel })
    ∧ (s.mbxReceiver n = g.val →
      (m.st = 2 → s.mbxNext n = true → Runs (.mailboxRxRead g n) s fun u =>
        u.mbx n = { m with st := 3, taken := true } ∧ same u
          ∧ SMap.get 0 g u.readRes = 2 ^ 31 + m.sender * 2 ^ 16 + m.seq)
      ∧ (∀ (q : BitVec 8) (c : Code), q.toNat = m.seq → Runs (.mailboxRxAck g n q c) s fun u =>
        (m.st = 3 → m.lostSender = false → (u.mbx n).st = 4 ∧ (u.mbx n).code = 0 ∧ (u.mbx n).ackCode = c.toNat
          ∧ (u.mbx n).ackSeq = m.seq ∧ (u.mbx n).running = false ∧ (u.mbx n).data = m.data ∧ same u)
        ∧ (m.st = 3 → m.lostSender = true → (u.mbx n).st = 4 ∧ (u.mbx n).code = 0x01C2 ∧ (u.mbx n).orphan = true ∧ same u)
        ∧ (m.st = 5 → m.code = 0x0102 → (u.mbx n).st = 5 ∧ (u.mbx n).code = 0x01C1 ∧ (u.mbx n).late = true ∧ same u))
      ∧ (m.st = 3 → ∀ us, Runs (.mailboxRxExtend g n us) s fun u =>
        u.mbx n = { m with limit := (s.laneClk - m.goClk) / 1600 + max 10 (min us 10000000) } ∧ same u ∧ u = { s with cel := u.cel }))
    ∧ (m.st = 2 ∨ m.st = 3 → m.goClk + m.limit * 1600 ≤ s.laneClk → Runs (.mailboxTimeout n) s fun u =>
        u.mbx n = { m with st := 5, timeout := true, code := (if m.st = 2 then 0x0101 else 0x0102), running := false } ∧ same u)

/-- Locks and the Cellarer core. Of the readers of one cycle the lowest agent takes a free lock and the others learn its holder;
only the holder's write releases it. A watchdog expiry or another restart begins the firmware anew: Garret freezes, the
Cellarer's locks are freed and the messages that wait for it expire. An interrupt of higher priority than those in service stacks
the registers, abandons a long operation and goes on at its vector (R320, R321, R324, R338 to R340). -/
def Obligations.LockAndCellarerOperationsComplete : Prop :=
  (∀ (gs : List Agent) (g : Agent) (n : LockId) (s : State), (∀ a ∈ gs, a.named = true) → g ∈ gs → (∀ a ∈ gs, g.val ≤ a.val) →
    (s.lockHolder n = none → Runs (.lockRead gs n) s fun u =>
      u.lockHolder n = some g.val ∧ (∀ a ∈ gs, a ≠ g → SMap.get 0 a u.readRes = 2 ^ 31 + g.val)
        ∧ (gs.count g = 1 → SMap.get 0 g u.readRes = 0) ∧ ∀ j, j ≠ n.val → u.lockHolder j = s.lockHolder j)
    ∧ (∀ h, s.lockHolder n = some h → Runs (.lockRead gs n) s fun u =>
      (∀ a ∈ gs, SMap.get 0 a u.readRes = 2 ^ 31 + h) ∧ u = { s with readRes := u.readRes, readErr := u.readErr }))
  ∧ (∀ (g : Agent) (n : LockId) (v : W32) (s : State), g.named = true →
    (s.lockHolder n = some g.val → Runs (.lockWrite g n v) s fun u =>
      u.lockHolder n = none ∧ (∀ j, j ≠ n.val → u.lockHolder j = s.lockHolder j) ∧ u = { s with cel := u.cel })
    ∧ (s.lockHolder n ≠ some g.val → Runs (.lockWrite g n v) s fun u =>
      u.cel = s.cel ∧ u.reg 0x02000030 = (s.reg 0x02000030 + 1) % 2 ^ 32 ∧ u = { s with regs := u.regs, gar := u.gar }))
  ∧ (∀ s : State,
    let again := fun (cause : Nat) (u : State) =>
      u.cel.st = 4 ∧ u.cel.cause = cause ∧ u.cel.frames = [] ∧ u.cel.longOp = none ∧ u.cel.pc = 0x20000000#32
        ∧ u.cel.restarts = min (s.cel.restarts + 1) 0xFFFF ∧ (∀ n, s.lockHolder n = some 272 → u.lockHolder n = none)
        ∧ (s.gar.frozen = false → s.gar.freezing = none → u.gar.freezing.isSome = true)
        ∧ (∀ n, n < 48 → (s.mbx n).st = 2 ∨ (s.mbx n).st = 3 → (s.mbx n).sender ≠ 272 →
            (u.mbx n).st = 5 ∧ (u.mbx n).code = 0x0103)
    (Runs .cellarerWatchdogExpiry s fun u => again 1 u ∧ u.dram = s.dram)
    ∧ (Runs (.cellarerRestart 0) s fun u => u = { s with cel := { s.cel with st := 1, cause := 0 }.coreStart })
    ∧ (∀ c : Fin 4, c ≠ 0 → Runs (.cellarerRestart c) s (again c.val))
    ∧ (∀ q p,
      let c := s.cel.settle
      ((∀ f ∈ s.cel.frames, f.prio < p) → Runs (.cellarerInterrupt q p) s fun u =>
        u.cel.pc = c.sramWord ((SMap.get 0 0x305 c.csr).toNat + 4 * q) ∧ u.cel.longOp = none ∧ u.cel.user = false
          ∧ u.cel.frames = { prio := p, pc := c.pc, regs := celSaved.map (fun r => (r, SMap.get 0 r c.x)), user := c.user,
                             mstatus := c.mstatus } :: s.cel.frames
          ∧ u = { s with cel := u.cel })
      ∧ (∀ f ∈ s.cel.frames, p ≤ f.prio → exec (.cellarerInterrupt q p) s = .next s)))

/-- The recorder and the archive compressors. A record is written at the head of the recorder's ring, a freeze stops once its
records are written, the attic copy holds the ring and ends with an UNFREEZE marker, an attic read captures 32 bits. A descriptor
starts with its fields copied; on completion HEAD and the count move, the completion record holds its outcome and the interrupt is
raised; a one-block COMPRESS leaves its block in the output buffer, a one-block DECOMPRESS the restored bytes, a VERIFY nothing but
the completion record, and an invalid descriptor ends with 0x2001 (R398 to R407, R415, R416, R418 to R421). -/
def Obligations.RecorderAndArchiveOperationsComplete : Prop :=
  (∀ s : State,
    (∀ err r, s.gar.frozen = false → s.gar.freezing ≠ some 0 → garPick s.gar.queue = some r → Runs (.garretRecordWrite err) s fun u =>
      u.gar.head = s.gar.head + 1 ∧ u.gar.queue = s.gar.queue.erase r
        ∧ SMap.find ((s.gar.head - 1) % garSlots) u.gar.ring = some (r.bytes (s.gar.lossPorts.contains (r.src, r.inst)) s.gar.head)
        ∧ (err = .none → u = { s with gar := u.gar }))
    ∧ (s.gar.frozen = false → s.gar.freezing = some 0 → Runs .freezeStop s fun u =>
      u.gar.frozen = true ∧ u.gar.freezing = none ∧ u.gar.queue = []
        ∧ u.gar.drops = (s.gar.drops + s.gar.queue.length) % 2 ^ 32 ∧ u.gar.ring = s.gar.ring ∧ u = { s with gar := u.gar })
    ∧ (s.gar.frozen = true → Runs .atticCopyComplete s fun u =>
      u.gar.frozen = false ∧ u.gar.queue.tail = s.gar.queue ∧ (u.gar.queue.head?.map (fun r => (r.src, r.event))) = some (0, 2)
        ∧ (∃ a, SMap.find s.gar.slot u.gar.attic = some (some a) ∧ a.image = s.gar.held ∧ a.trigger = s.gar.trigger)
        ∧ (∀ j, j ≠ s.gar.slot → SMap.find j u.gar.attic = SMap.find j s.gar.attic) ∧ u = { s with gar := u.gar })
    ∧ (∀ off, Runs (.atticRead off) s fun u =>
      SMap.get 0 0x200 u.readRes = Bytes.toNatLE ((List.range 4).map (fun i => s.gar.atticByte (off + i)))
        ∧ u = { s with readRes := u.readRes, readErr := u.readErr }))
  ∧ (∀ (k : ArkId) (s : State),
    let a := s.arkU k
    let b := arkBase k
    let p := s.reg (b + 0x20) + s.reg (b + 0x24) * 2 ^ 32 + s.reg (b + 0x2C) * 64
    let d := s.dramRead p 64
    (bit (s.reg b) 0 = true → a.halted = false → a.cur = none → s.reg (b + 0x2C) ≠ s.reg (b + 0x30) → s.poisoned p 64 = false →
      (∀ f e, Bytes.le d 0 1 = 1 → Runs (.compress k f e) s fun u =>
        (∃ r, (u.arkU k).cur = some r ∧ r.op = 1 ∧ r.inLen = Bytes.le d 4 4 ∧ r.inA = Bytes.le d 8 8 ∧ r.outA = Bytes.le d 16 8
          ∧ r.outMax = Bytes.le d 24 4 ∧ r.compl = Bytes.le d 40 8 ∧ r.bad = !s.arkValid d ∧ r.failing = f) ∧ u = { s with ark := u.ark })
      ∧ (∀ e, Bytes.le d 0 1 = 2 → Runs (.decompress k e) s fun u =>
        (∃ r, (u.arkU k).cur = some r ∧ r.op = 2 ∧ r.inLen = Bytes.le d 4 4 ∧ r.inA = Bytes.le d 8 8 ∧ r.outA = Bytes.le d 16 8
          ∧ r.outMax = Bytes.le d 24 4 ∧ r.compl = Bytes.le d 40 8 ∧ r.bad = !s.arkValid d) ∧ u = { s with ark := u.ark })
      ∧ (∀ e, Bytes.le d 0 1 = 3 → Runs (.verify k e) s fun u =>
        (∃ r, (u.arkU k).cur = some r ∧ r.op = 3 ∧ r.inLen = Bytes.le d 4 4 ∧ r.inA = Bytes.le d 8 8
          ∧ r.compl = Bytes.le d 40 8 ∧ r.bad = !s.arkValid d) ∧ u = { s with ark := u.ark }))
    ∧ (∀ r, a.cur = some r →
      let ends := fun (code : Nat) (u : State) => s.inDram r.compl 32 = true → s.poisoned r.compl 32 = false →
        (∀ c, (s.dmc c).st ≠ 5) → u.dramRead r.compl 2 = Bytes.ofNatLE 2 code
      let whole := r.bad = false ∧ r.dataError = false ∧ a.abort = false ∧ s.poisoned r.inA r.inLen = false
      let apart := fun (o : Nat) => (∀ c, (s.dmc c).st ≠ 5) ∧ s.poisoned r.outA o = false
        ∧ (r.compl + 32 ≤ r.outA ∨ r.outA + o ≤ r.compl)
      let h := s.dramRead r.inA 16
      let fl := Bytes.le h 3 1
      let len := Bytes.le h 8 4
      let p := Bytes.le h 12 4
      let pay := s.dramRead (r.inA + 16) p
      let block := fun (out : Bytes) => Bytes.le h 0 2 = 0x4B41 ∧ Bytes.le h 2 1 = 1 ∧ fl < 8 ∧ 0 < len ∧ len ≤ 65536 ∧ 0 < p
        ∧ (if bit fl 0 then p = len else p ≤ 65535) ∧ (r.seqBase = 0xFFFFFFFF ∨ Bytes.le h 4 4 = r.seqBase % 2 ^ 32)
        ∧ r.inLen = p + 20 ∧ (if bit fl 0 then some pay else inflate pay) = some out ∧ out.length = len
        ∧ (Crypto.crc32c out).toNat = s.dramLE (r.inA + 16 + p) 4
      Runs (.arkDescriptorComplete k) s fun u =>
        (u.arkU k).cur = none ∧ u.reg (b + 0x2C) = (s.reg (b + 0x2C) + 1) % s.arkEntries k
          ∧ u.reg (b + 0x40) = (s.reg (b + 0x40) + 1) % 2 ^ 32 ∧ (r.irq = true → bit (u.reg (b + 8)) 0 = true)
          ∧ (r.bad = true → (u.arkU k).code = 0x2001 ∧ bit (u.reg (b + 8)) 1 = true ∧ ends 0x2001 u)
          ∧ (whole → r.op = 1 → 0 < r.inLen → r.inLen ≤ 65536 → r.failing.contains 0 = false →
              let inp := s.dramRead r.inA r.inLen
              let pay := deflate inp
              let raw := r.forceRaw || decide (r.inLen ≤ pay.length) || decide (r.outMax < pay.length + 20)
              let blk := arkBlock raw false r.last (r.seqBase % 2 ^ 32) inp (if raw then inp else pay)
              blk.length ≤ r.outMax → apart blk.length → u.dramRead r.outA blk.length = blk ∧ ends 0 u)
          ∧ (whole → r.op = 2 → ∀ out, block out → len ≤ r.outMax → apart len → u.dramRead r.outA len = out ∧ ends 0 u)
          ∧ (whole → r.op = 3 → ∀ out, block out →
              ends 0 u ∧ ((∀ c, (s.dmc c).st ≠ 5) → ∀ x, x < r.compl ∨ r.compl + 32 ≤ x → u.byteAt x = s.byteAt x)))
    ∧ (∀ (g : Agent) v, Runs (.arkEnable g k v) s fun u =>
        bit (u.reg b) 0 = v ∧ (v = true → bit (s.reg b) 0 = false → (u.arkU k).halted = false) ∧ (u.arkU k).cur = a.cur)
    ∧ (∀ g : Agent, a.cur.isSome = true → Runs (.arkAbort g k) s fun u =>
        u.arkU k = { a with abort := true } ∧ u = { s with ark := u.ark })
    ∧ (∀ g : Agent, a.cur = none → exec (.arkAbort g k) s = .next s))

/-- Resets: a full cold reset leaves only what stands in flash, with the mask ROM running; a main cold start trains the DRAM;
a fall of PWRGD loses the main domain and a loss of standby power both, with an attic slot being copied; a warm reset clears the
lanes, keeps the DRAM contents and is ignored and counted before hart release; a low pulse shorter than 320 cycles does nothing; a
hart is reset alone with its locks freed; 1 ms after the fall of PWRGD the sideband outputs are released (R420, R422 to R426, R442,
R444). -/
def Obligations.ResetsComplete : Prop :=
  ∀ (st : BitVec 16) (low : Nat) (g : Agent) (s : State),
    let lost := fun (u : State) => u.dram = [] ∧ (s.gar.frozen = false → u.gar.attic = s.gar.attic) ∧ u.rom = s.rom ∧ u.pending = s.pending
      ∧ (∀ h, (u.hart h).run = false) ∧ (s.twin.dom = none → ∀ n, (u.lane n).st = 0)
    (∀ up, Runs (.fullColdReset st up) s fun u => lost u ∧ u.cel.st = 1 ∧ u.pwr.boot = (if up then 1 else 0) ∧ u.pwr.pwrgd = up
      ∧ u.pwr.straps = st.toNat ∧ ∀ a, standbyReg a = true → u.reg a = (regReset a).toNat)
    ∧ (s.pwr.standby = true → 320 ≤ low → Runs (.coldRstN low st) s fun u =>
        lost u ∧ u.cel.st = 1 ∧ u.pwr.pwrgd = s.pwr.pwrgd ∧ u.pwr.straps = st.toNat)
    ∧ (low < 320 → exec (.coldRstN low st) s = .next s ∧ exec (.warmRstN low) s = .next s)
    ∧ (s.pwr.standby = true → s.pwr.pwrgd = false → s.pwr.mainOff = false → s.pwr.thermTrip = false → s.pwr.fwOk = true →
        Runs (.mainColdStart st) s fun u =>
          lost u ∧ u.pwr.pwrgd = true ∧ u.pwr.mainUp = true ∧ u.pwr.boot = 2 ∧ u.cel.st = 2 ∧ u.pwr.cause = s.pwr.nextCause
            ∧ u.pwr.straps = st.toNat
            ∧ ∀ c, c < 16 → (u.dmc c).st = 1)
    ∧ (s.pwr.pwrgd = true → Runs .pwrgdFall s fun u => lost u ∧ u.pwr.pwrgd = false ∧ u.pwr.mainUp = false ∧ u.pwr.boot = 0)
    ∧ (Runs .standbyPowerLoss s fun u => u.dram = [] ∧ u.pwr.standby = false ∧ u.rom = s.rom
        ∧ (s.gar.frozen = false → u.gar.attic = s.gar.attic) ∧ (s.gar.frozen = true → SMap.find s.gar.slot u.gar.attic = none))
    ∧ (s.pwr.pwrgd = true → s.pwr.mainUp = true → s.pwr.warm = false →
      (s.pwr.released = true → s.mem.wq = [] →
        (s.pwr.standby = true → 320 ≤ low → Runs (.warmRstN low) s fun u =>
          u.dram = s.dram ∧ u.dramTop = s.dramTop ∧ u.pwr.warm = true ∧ u.pwr.cause = 2 ∧ u.pwr.released = false
            ∧ u.pwr.mainUp = false ∧ (∀ n, (u.lane n).msgs = [])
            ∧ u.pwr.warmCount = min (s.pwr.warmCount + 1) 0xFFFF ∧ ∀ h, (u.hart h).run = false)
        ∧ (g.val < 256 → Runs (.warmReq g) s fun u =>
          u.dram = s.dram ∧ u.dramTop = s.dramTop ∧ u.pwr.warm = true ∧ u.pwr.cause = 3 ∧ u.pwr.released = false
            ∧ u.pwr.mainUp = false ∧ (∀ n, (u.lane n).msgs = [])
            ∧ u.pwr.warmCount = min (s.pwr.warmCount + 1) 0xFFFF ∧ ∀ h, (u.hart h).run = false))
      ∧ (s.pwr.released = false → s.pwr.standby = true → 320 ≤ low → Runs (.warmRstN low) s fun u =>
          u = { s with pwr := { s.pwr with ignored := min (s.pwr.ignored + 1) 0xFF } }))
    ∧ (s.pwr.warm = true → Runs .warmResetExit s fun u =>
        u = { s with pwr := { s.pwr with warm := false, mainUp := true, boot := 3, dramReady := true, dramClk := s.laneClk } })
    ∧ (∀ (h : HartId), g.val < 256 → s.pwr.released = true → Runs (.hartRst g h) s fun u =>
        u.hart h = bootHart h ∧ (∀ k, k ≠ h.val → u.hart k = s.hart k) ∧ u.dram = s.dram
          ∧ ∀ n, s.lockHolder n = some h.val → u.lockHolder n = none)
    ∧ (s.pwr.pwrgd = false → s.pwr.fallClk + 1600000 ≤ s.laneClk → Runs .sidebandRelease s fun u =>
        u = { s with pwr := { s.pwr with mainOff := false, thermTrip := false } })

/-- The boot sequence: the verified current, previous or newly staged firmware runs and, with power up, training starts; without any
the boot stops; DRAM becomes ready with the trained channels, and without one the boot stops; the Cellarer serves mailboxes; the harts
start at the reset vector in M-mode with the platform image in DRAM and ACCEPT_EN set, after pairing or 30 s after DRAM was ready;
without an image the boot stops (R276 to R279, R350, R427 to R429). -/
def Obligations.BootOperationsComplete : Prop :=
  ∀ s : State,
    let runs := fun (fw : Nat) (u : State) => u.cel.st = 2 ∧ u.cel.fw = fw ∧ u.pwr.fwOk = true
      ∧ (s.pwr.pwrgd = true → s.pwr.mainOff = false → u.pwr.mainUp = true ∧ u.pwr.boot = 2 ∧ ∀ c, c < 16 → (u.dmc c).st = 1)
    let free := fun (img : Bytes) (u : State) => (∀ h, h < 256 → u.hart h = bootHart h) ∧ u.pwr.released = true ∧ u.pwr.boot = 5
      ∧ bit (u.reg netBase) 0 = true
      ∧ ((∀ c, (s.dmc c).st ≠ 5) → s.poisoned dramBase img.length = false → (∀ t ∈ s.cel.tickets, t.st ≠ 3) →
          u.dramRead dramBase img.length = img)
    (s.cel.st = 1 →
      (s.cel.stage = none →
        (∀ p q, Runs (.firmwareVerifyComplete true p q) s (runs s.cel.fwCur.1))
        ∧ (∀ q, Runs (.firmwareVerifyComplete false true q) s (runs s.cel.fwPrev.1))
        ∧ (∀ q, Runs (.firmwareVerifyComplete false false q) s fun u => u.cel.st = 1 ∧ u.pwr.boot = 7 ∧ u.pwr.fwOk = false))
      ∧ (∀ b act c p, s.cel.stage = some (b, act) → (bundleFw b).isSome = true →
          Runs (.firmwareVerifyComplete c p true) s fun u => runs (s.cel.activate b).fwCur.1 u ∧ u.cel.stage = none))
    ∧ (s.cel.st = 2 → Runs .cellarerReady s fun u => u.cel = { s.cel with st := 3, descBuilt := true } ∧ u.dram = s.dram)
    ∧ (s.pwr.boot = 2 → s.pwr.dramReady = false →
      (Runs (.dramTrainingComplete []) s fun u => u.pwr.boot = 6 ∧ u.mem.dmc = [] ∧ u.pwr.dramReady = false)
      ∧ (∀ (d : DimmInfo) r rs, d.dimms ≠ 0 → d.supported = true → d.trained = r :: rs → ratePermitted d.dimms d.rateMax r = true →
          SMap.find 0 s.cel.memRates = none → Runs (.dramTrainingComplete [d]) s fun u =>
        u.pwr.boot = 3 ∧ u.pwr.dramReady = true ∧ u.mem.set = [0] ∧ (u.dmc 0).st = 2
          ∧ u.dramTop = dramBase + (dimmGib d * 2 ^ 30 - 2 ^ 20)))
    ∧ (s.pwr.dramReady = true → s.pwr.boot = 4 → pairEn s = false ∨ s.twin.pair ≥ 3 ∨ s.twin.noRetry = true →
      (∀ p, Runs (.hartRelease true p) s (free s.cel.platCur.2))
      ∧ (Runs (.hartRelease false true) s (free s.cel.platPrev.2))
      ∧ (Runs (.hartRelease false false) s fun u => u.pwr.boot = 8 ∧ u.harts = s.harts))
    ∧ (s.pwr.dramReady = true → s.pwr.boot = 3 ∨ s.pwr.boot = 4 → s.pwr.dramClk + 48000000000 ≤ s.laneClk →
      (∀ p, Runs (.pairingTimeout true p) s (free s.cel.platCur.2))
      ∧ (Runs (.pairingTimeout false true) s (free s.cel.platPrev.2)))

/-- Power and thermal limits. Each interval of the power manager records the powers and lowers the ceilings of the bays above base
by 50 MHz, or raises those below 3,600 MHz, by the core power against its limit; PWR.TDP takes 520 to 760 only. A shutdown request
closes the rings, or is turned away while a lane is IN_SERVICE; power-off acts in the last stage alone and seals the use counts. A
bay at 90 degrees loses 100 MHz on its die; PROCHOT is driven from 95 degrees, and its input holds every bay at 1,200 MHz; a thermal
trip and a loss of the reference clock take the main domain off; an AVSBus failure holds its die at 1,200 MHz. The standby port
reads the power registers and writes PWR.TDP alone (R430 to R435, R439, R443). -/
def Obligations.PowerOperationsComplete : Prop :=
  ∀ (g : Agent) (s : State),
    let p := s.pwr
    (∀ core pkg, p.mainUp = true →
      (Runs (.powerManagerInterval core pkg) s fun u => u.pwr.corePower = core ∧ u.pwr.pkgPower = pkg ∧ u.dram = s.dram)
      ∧ (core > s.tdp - 290 → (∃ b, b < 128 ∧ p.ceilOf b > baseMhz s.tdp) → Runs (.powerManagerInterval core pkg) s fun u =>
          ∀ b, b < 128 → u.pwr.ceilOf b = (if p.ceilOf b > baseMhz s.tdp then max (baseMhz s.tdp) (p.ceilOf b - 50) else p.ceilOf b))
      ∧ (core * 100 < (s.tdp - 290) * 97 → (∀ b, b < 128 → baseMhz s.tdp ≤ p.ceilOf b ∨ p.held b = true) →
          (∃ b, b < 128 ∧ p.ceilOf b < 3600 ∧ p.held b = false) → Runs (.powerManagerInterval core pkg) s fun u =>
          ∀ b, b < 128 → u.pwr.ceilOf b = (if p.ceilOf b < 3600 ∧ p.held b = false then p.ceilOf b + 50 else p.ceilOf b)))
    ∧ (∀ v : W32, g.val < 256 →
      (520 ≤ v.toNat % 1024 → v.toNat % 1024 ≤ 760 → Runs (.pwrTdp g v) s fun u =>
        u.reg 0x02000208 = v.toNat % 1024 ∧ s.onlyReg u 0x02000208)
      ∧ (v.toNat % 1024 < 520 ∨ 760 < v.toNat % 1024 → exec (.pwrTdp g v) s = .next s))
    ∧ (g.val < 256 → p.sd = 0 ∨ p.sd = 2 ∨ p.sd = 4 →
      ((∀ n, n < 16 → (s.lane n).st = 0 ∨ (s.lane n).st = 5 ∨ (s.lane n).st = 6) → Runs (.sdReq g) s fun u =>
        u.pwr.sd = 1 ∧ u.pwr.sdCode = 0 ∧ ∀ k, k < 17 → (s.ring k).online = true → (u.ring k).closing = true)
      ∧ (∀ n, n < 16 → (s.lane n).st = 2 → Runs (.sdReq g) s fun u =>
        u.pwr.sd = 4 ∧ u.pwr.sdCode = 0x1501 ∧ bit u.pwr.sdLanes n = true ∧ u = { s with pwr := u.pwr }))
    ∧ (g.val < 256 → s.sdStage = 2 → Runs (.powerOff g) s fun u =>
        u.pwr.sd = 3 ∧ u.pwr.mainOff = true ∧ u.str.orderly = true
          ∧ ∀ p ∈ s.str.slots, p.2.uses ≠ 0 → (p.1, p.2.uses) ∈ u.str.sealedUses)
    ∧ (g.val < 256 → s.sdStage ≠ 2 → exec (.powerOff g) s = .next s)
    ∧ (∀ (b : SliceId) t,
      (t ≥ 90 → Runs (.bayThermalLimit b t) s fun u =>
        u.pwr.hotBays.contains b.val = true ∧ SMap.get 0 b.val u.pwr.bayTemps = t ∧ u = { s with pwr := u.pwr }
          ∧ ∀ c, c < 128 → u.pwr.ceilOf c = (if bayDie c = bayDie b then max 1200 (p.ceilOf c - 100) else p.ceilOf c))
      ∧ (t < 88 → Runs (.bayThermalLimit b t) s fun u =>
        u.pwr.hotBays = p.hotBays.filter (· ≠ b.val) ∧ u.pwr.ceil = p.ceil ∧ u = { s with pwr := u.pwr }))
    ∧ (∀ t, t ≥ 95 → Runs (.prochotSensor t) s fun u => u.pwr.prochotOut = true
        ∧ (p.prochotOut = false → u = ({ s with pwr := { p with prochotOut := true } } : State).pwrEvent 0x112))
    ∧ (∀ t, t < 95 → p.prochotOut = true → Runs (.prochotSensor t) s fun u =>
        u = { s with pwr := { p with prochotOut := false, prochotRel := s.laneClk + 1600 } })
    ∧ (p.prochotOut = false → p.prochotRel ≤ s.laneClk →
      (Runs (.prochotNInput true) s fun u => u.pwr.prochotIn = true ∧ (∀ b, b < 128 → u.pwr.ceilOf b = 1200) ∧ u = { s with pwr := u.pwr })
      ∧ (Runs (.prochotNInput false) s fun u => u = { s with pwr := { p with prochotIn := false } }))
    ∧ (∀ t iod ms, p.standby = true → t ≥ 105 ∨ iod = true ∧ t ≥ 95 ∧ ms ≥ 10 → Runs (.thermalTrip t iod ms) s fun u =>
        u.pwr.mainOff = true ∧ u.pwr.thermTrip = true ∧ u.pwr.mainUp = false ∧ u.pwr.nextCause = 4 ∧ u.dram = [])
    ∧ (∀ ns, p.pwrgd = true → ns > 1000 → Runs (.referenceClockLoss ns) s fun u =>
        u.pwr.mainOff = true ∧ u.pwr.mainUp = false ∧ u.pwr.nextCause = 5 ∧ u.dram = [])
    ∧ (∀ d : Fin 4, Runs (.avsbusFailure d) s fun u => u.pwr.avsDies.contains d.val = true
        ∧ ∀ b, b < 128 → u.pwr.ceilOf b = (if bayDie b = d.val then 1200 else p.ceilOf b))
    ∧ (∀ d : Fin 4, Runs (.avsbusRetry d true) s fun u =>
        u = { s with pwr := { p with avsDies := p.avsDies.filter (· ≠ d.val) } })
    ∧ (p.standby = true →
      (∀ v : W32, 520 ≤ v.toNat % 1024 → v.toNat % 1024 ≤ 760 → Runs (.i3cAccess 0x208 (some v)) s fun u =>
        u.reg 0x02000208 = v.toNat % 1024 ∧ s.onlyReg u 0x02000208)
      ∧ (Runs (.i3cAccess 0x204 none) s fun u =>
        some (SMap.get 0 0x201 u.readRes) = s.pwrView 0x204 ∧ u = { s with readRes := u.readRes, readErr := u.readErr })
      ∧ (∀ r v, r ≠ 0x208 → Runs (.i3cAccess r (some v)) s fun u =>
        SMap.get 0 0x201 u.readErr = 1 ∧ u = { s with readErr := u.readErr }))

/-- Ports, addresses, connections, reassignment and the PTP counter. A port in use answers ARP, neighbour discovery and echo,
counts and drops bad frames, honours PAUSE and reports its link. Announcements leave 1 ms apart; a connection takes a free entry of
a lane or its RECLAIM entry, else it is refused with 0x1606; a client listener reopens its connection; the tile port becomes free. A
reassignment starts or is refused with 0x160A, moves the quiescent session, or ends after 10 ms. PTP messages steer, step and lock
the counter, whose loss reaches the beat timer as holdover (R204 to R208, R216, R217, R223 to R225). -/
def Obligations.NetworkPortOperationsComplete : Prop :=
  ∀ s : State,
    (∀ (q : PortId) (f : EthFrame), bit (s.reg (portReg q 0)) 0 = true → s.portMode q ≠ 0 → f.fecOk = true →
      (f.fcsOk = true → f.tags ≤ 1 → f.len ≤ 9216 →
        (∀ a x, s.addrActive a = true → s.addr a = some x → x.port = q.val → s.unpaused → SMap.get (0, 0) a s.net.echo = (0, 0) →
          ∀ k, k ∈ [(FrameKind.arpRequest a, NetTx.arpReply a), (.neighbourSolicit a, .neighbourAdvert a), (.echo a, .echoReply a)] →
          f.kind = k.1 → Runs (.ethernetFrameReceive q f) s fun u =>
            u.net.tx = s.net.tx ++ [k.2] ∧ u.reg (portReg q 4) = (s.reg (portReg q 4) + 1) % 2 ^ 32
              ∧ u.reg (portReg q 8) = (s.reg (portReg q 8) + 1) % 2 ^ 32 ∧ u = { s with net := u.net, regs := u.regs })
        ∧ (∀ n, f.kind = .pause n → s.pauseOn q = true → Runs (.ethernetFrameReceive q f) s fun u =>
            SMap.get 0 q.val u.net.pauseEnd
              = s.laneClk + cdiv (n % 65536 * (if s.portMode q = 2 then 8192 else 4096)) 1000))
      ∧ (f.fcsOk = false → Runs (.ethernetFrameReceive q f) s fun u =>
        u.reg (portReg q 0x10) = (s.reg (portReg q 0x10) + 1) % 2 ^ 32
          ∧ u.reg (portReg q 0xC) = (s.reg (portReg q 0xC) + 1) % 2 ^ 32 ∧ u = { s with regs := u.regs }))
    ∧ (∀ (q : PortId) up fec, s.portMode q ≠ 0 → Runs (.portLinkChange q up fec) s fun u =>
        bit (u.reg (portReg q 0)) 0 = up ∧ bit (u.reg (portReg q 0)) 1 = fec
          ∧ (bit (s.reg (portReg q 0)) 0 ≠ up → bit (u.reg (netBase + 8)) 2 = true))
    ∧ (∀ (i : Fin 64) a, s.addr i = some a → SMap.get 0 i.val s.net.garp ≠ 0 → SMap.get 0 i.val s.net.garpClk ≤ s.laneClk →
        s.unpaused → Runs (.gratuitousArp i) s fun u =>
        u.net.tx = s.net.tx ++ [.announce i] ∧ SMap.get 0 i.val u.net.garp = SMap.get 0 i.val s.net.garp - 1
          ∧ SMap.get 0 i.val u.net.garpClk = SMap.get 0 i.val s.net.garpClk + 1600000
          ∧ u = { s with net := u.net, regs := u.regs })
    ∧ (∀ (li : Fin 256) c l, s.listener li = some l → s.acceptEn = true → bit l.flags 0 = true → s.addrActive l.addr = true →
      let entry := (s.pickLane (bits l.policy 1 0) (Config.connHash c.remote c.rport) (s.lanesFor l)).bind s.freeEntry
      let taken := fun (i : Nat) (u : State) =>
        (u.sess i).st = (if bits l.flags 3 2 = 0 then 3 else 2) ∧ (u.sess i).listener = li.val ∧ (u.sess i).remote = c.remote
          ∧ (u.sess i).created = s.btm.beat ∧ ∀ j, j ≠ i → u.sess j = s.sess j
      (∀ i, s.reclaim li c = some i → Runs (.tcpConnectionEstablish li c) s (taken i))
      ∧ (s.reclaim li c = none →
        (∀ i, entry = some i → l.maxSess = 0 → Runs (.tcpConnectionEstablish li c) s (taken i))
        ∧ (entry = none → Runs (.tcpConnectionEstablish li c) s fun u =>
          u.reg (netBase + 0x418) = (s.reg (netBase + 0x418) + 1) % 2 ^ 32 ∧ bit (u.reg (netBase + 8)) 3 = true
            ∧ u.net.sessions = s.net.sessions
            ∧ (s.gar.frozen = false → s.gar.queue = [] → ∃ r ∈ u.gar.queue, r.code = 0x1606#16))))
    ∧ (∀ (li : Fin 256) l, s.listener li = some l → s.acceptEn = true → bit l.flags 0 = true → bit l.flags 1 = true →
        s.addrActive l.addr = true → (∀ p ∈ s.net.sessions, p.2.listener = li.val → liveSess p.2 = false) → s.unpaused →
        Runs (.listenerReconnect li) s fun u => u.net.tx = s.net.tx ++ [.connect li] ∧ u.net.sessions = s.net.sessions)
    ∧ (∀ (n : LaneId) (h : Handle) p, (s.lane n).port = some p → p.h = h.val → Runs (.tilePortTransferEnd n h) s fun u =>
        (u.lane n).port = none ∧ s.onlyLane u n)
    ∧ (∀ (g : Agent) (v : W32), s.net.move = none →
      let i := bits v.toNat 15 0
      let n := bits v.toNat 19 16
      (s.right g (i / 4096) 3 = true → s.right g n 3 = true → (s.sess i).st = 3 → (s.lane n).st = 2 → (s.freeEntry n).isSome = true →
          Runs (.reassignReq g v) s fun u => u = { s with net := { s.net with move := some (i, n), moveClk := s.laneClk } })
      ∧ ((s.sess i).st ≠ 3 → Runs (.reassignReq g v) s fun u =>
          u.net.move = none ∧ u.net.moveCode = 0x160A ∧ bit (u.reg (netBase + 8)) 5 = true ∧ u.net.sessions = s.net.sessions))
    ∧ (∀ i n j, s.net.move = some (i, n) → s.quiescent i = true → (s.sess i).st = 3 → s.freeEntry n = some j → (s.lane n).st = 2 →
        Runs .reassignMove s fun u => (u.sess i).st = 0 ∧ (u.sess j).st = 3 ∧ (u.sess j).peer = (s.sess i).peer
          ∧ u.net.move = none ∧ u.net.moveCode = 0 ∧ bit (u.reg (netBase + 8)) 5 = true
          ∧ (∀ l, s.listener (s.sess i).listener = some l → bit l.flags 4 = true → bit (s.sess i).flags 0 = true →
              (u.sess j).ticketGen = (s.slot 6).gen))
    ∧ (s.net.move.isSome = true → s.expired s.net.moveClk 10 = true → Runs .reassignTimeout s fun u =>
        u.net.move = none ∧ u.net.moveCode = 0x160A ∧ u.net.sessions = s.net.sessions)
    ∧ (∀ d (q : PortId) m, s.twin.dom = some d → m.domain = d.ptpDomain → q.val = d.ptpPrimary → m.isSync = true →
      (m.offset.natAbs < 200 →
        (15 ≤ s.net.ptpGood → s.net.ptp ≠ 2 → Runs (.ptpMessageReceive q m) s fun u =>
          u.net.ptp = 2 ∧ u.btm.ptpLocked = true ∧ u.btm.holdover = false ∧ bit (u.reg (netBase + 8)) 1 = true)
        ∧ (s.net.ptpGood < 15 → s.net.ptp = 0 ∨ s.net.ptp = 1 → Runs (.ptpMessageReceive q m) s fun u =>
          u.net.ptp = 1 ∧ u.net.ptpGood = s.net.ptpGood + 1 ∧ u.net.ptpOffset = m.offset))
      ∧ (1000 < m.offset.natAbs → Runs (.ptpMessageReceive q m) s fun u =>
          u.net.ptp = 3 ∧ u.net.ptpOffset = m.offset ∧ u.net.ptpGood = 0
            ∧ u.net.ptpShift = (if 1000000 < m.offset.natAbs then s.net.ptpShift - m.offset else s.net.ptpShift)))
    ∧ (s.net.ptp = 2 → Runs .ptpSyncLoss s fun u =>
        u.net.ptp = 3 ∧ u.btm.holdover = true ∧ u.btm.ptpLocked = false ∧ bit (u.reg (netBase + 8)) 0 = true)

/-- Sessions. Timers of Table NET-7 that have run out close a session with their code, or send a probe, a retransmission or a
KeyUpdate; a received RST and the partner's close end or drain it. A TLS record that authenticates adds its messages, one that does
not closes the session with 0x1601. A handshake starts with the chosen suite and group and ends ESTABLISHED with a ticket, or fails
with 0x1607. The oldest message of a session is minted on its home lane, whose lack of tiles closes the receive window instead; a
release leaves for the partner, or is reported undelivered where its session is gone (R33, R35, R44, R148, R208 to R214, R219 to
R221, R223). -/
def Obligations.SessionOperationsComplete : Prop :=
  ∀ (i : SessId) (s : State),
    let x := s.sess i
    let tls := bit x.flags 0
    let done := s.rsvDone.filter (fun d => d.1 = ReserveUnit.net && d.2.1 / 4 = x.hsNum)
    let out := fun (l : List NetTx) (u : State) => s.unpaused → u.net.tx = s.net.tx ++ l
    let closed := fun (code : Nat) (l : List NetTx) (u : State) =>
      (u.sess i).st = 0 ∧ (u.sess i).code = code ∧ (∀ j, j ≠ i.val → u.sess j = s.sess j) ∧ out l u
    let fin := (if tls then [NetTx.closeNotify i] else []) ++ [NetTx.fin i]
    (liveSess x = true →
      (x.retx < 8 → Runs (.tcpRetransmitTimeout i) s fun u => u.sess i = { x with retx := x.retx + 1 } ∧ out [.retransmit i] u)
      ∧ (x.retx ≥ 8 → Runs (.tcpRetransmitTimeout i) s (closed 0x160D [.rst i]))
      ∧ (Runs (.tcpRstReceive i) s (closed 0x160D []))
      ∧ (s.lisOf i (·.idle) 300 ≠ 0 → s.expired x.rxClk (s.lisOf i (·.idle) 300 * 500) = true → Runs (.keepaliveProbe i) s fun u =>
        out [.probe i] u ∧ u.net.sessions = s.net.sessions)
      ∧ (tls = true → 2 ^ 23 ≤ x.txRecs ∨ 2 ^ 23 ≤ x.rxRecs → Runs (.keyUpdateSend i) s fun u =>
        u.sess i = { x with txRecs := 0, rxRecs := 0 } ∧ out [.keyUpdate i] u)
      ∧ (x.sndUsed ≠ 0 → s.expired x.stallClk (s.lisOf i (·.stall) 30 * 1000) = true →
        Runs (.stallTimeout i) s (closed 0x1604 [.rst i])))
    ∧ (x.st = 3 →
      (∀ b, tls = true → b.length ≤ s.rcvWindow i →
        (x.framing = 5 → b ≠ [] → b.length ≤ 16384 → Runs (.tlsRecordReceive i true b none) s fun u =>
          u.sess i = { x with rxRecs := x.rxRecs + 1, ready := x.ready ++ [b], rxClk := s.laneClk } ∧ ∀ j, j ≠ i.val → u.sess j = s.sess j)
        ∧ (∀ ms ka rest, x.framing ≠ 5 → cutFrames x.framing ((x.rx ++ b).length + 1) (x.rx ++ b) = (ms, ka, rest, false) →
          Runs (.tlsRecordReceive i true b none) s fun u =>
            (u.sess i).ready = x.ready ++ ms ∧ (u.sess i).rx = rest ∧ (u.sess i).rxRecs = x.rxRecs + 1
              ∧ ∀ j, j ≠ i.val → u.sess j = s.sess j)
        ∧ (∀ asked, Runs (.tlsRecordReceive i true b (some asked)) s fun u =>
          u.sess i = { x with rxClk := s.laneClk, rxRecs := 0, txRecs := if asked then 0 else x.txRecs })
        ∧ (∀ ku, Runs (.tlsRecordReceive i false b ku) s (closed 0x1601 [.alert i 20, .fin i])))
      ∧ (x.rx ≠ [] → s.expired x.msgClk (s.lisOf i (·.msg) 5 * 1000) = true → Runs (.msgTimeout i) s (closed 0x1605 [.rst i]))
      ∧ (s.lisOf i (·.idle) 300 ≠ 0 → s.expired x.rxClk (s.lisOf i (·.idle) 300 * 1000) = true →
        Runs (.idleTimeout i) s (closed 0x1609 fin))
      ∧ (Runs (.partnerClose i) s fun u => u.sess i = { x with st := 4, ready := [], rx := [], lingerClk := s.laneClk }
          ∧ ∀ j, j ≠ i.val → u.sess j = s.sess j)
      ∧ (∀ (c : Fin 32) b rest key, x.ready = b :: rest → s.mintKey = some key → s.net.move = none →
          (s.lane (i.val / 4096)).st = 2 ∨ (s.lane (i.val / 4096)).st = 3 → (s.lane (i.val / 4096)).inflight < 4096 →
          (∃ h, h < 4096 ∧ (s.lane (i.val / 4096)).msg h = none) →
          let room := ((s.lane (i.val / 4096)).freeTiles (cdiv b.length 256)).length
          (cdiv b.length 256 ≤ room → Runs (.messageMint i c) s fun u =>
            (u.sess i).ready = rest ∧ (u.sess i).msgs = (x.msgs + 1) % 2 ^ 32
              ∧ (∃ h m, (s.lane (i.val / 4096)).msg h = none ∧ (u.lane (i.val / 4096)).msg h = some m ∧ m.len = b.length
                  ∧ m.hm.session = i.val ∧ m.hm.chain = m.hm.origin ∧ m.hm.step = 0 ∧ m.cls = c.val
                  ∧ (u.lane (i.val / 4096)).content (((u.lane (i.val / 4096)).chain m.first).getD []) = b)
              ∧ ∀ k, k ≠ i.val / 4096 → u.lane k = s.lane k)
          ∧ (room < cdiv b.length 256 → Runs (.messageMint i c) s fun u =>
            (u.sess i).shut = true ∧ (u.sess i).ready = x.ready ∧ ∀ h, (u.lane (i.val / 4096)).msg h = (s.lane (i.val / 4096)).msg h)))
    ∧ (x.st = 4 → s.expired x.lingerClk (s.lisOf i (·.linger) 10 * 100) = true → Runs (.lingerTimeout i) s (closed 0 fin))
    ∧ (x.st = 6 → s.expired x.reclaimClk 60000 = true → Runs (.reclaimTimeout i) s (closed 0x160D []))
    ∧ (x.st = 2 →
      (s.expired x.estClk (s.lisOf i (·.handshake) 10 * 1000) = true → Runs (.handshakeTimeout i) s (closed 0x1608 [.rst i]))
      ∧ (∀ h, x.hsSlot = false → s.handshakes < 1024 →
        (h.tls13 = false → Runs (.handshakeStart i h) s (closed 0x1607 [.alert i 70, .fin i]))
        ∧ (h.tls13 = true → 1 ≤ h.suite ∧ h.suite ≤ 3 → 1 ≤ h.group ∧ h.group ≤ 4 → h.sigOk = true → h.chain = [] ∨ h.peerCv.isSome = true →
          Runs (.handshakeStart i h) s fun u =>
            (u.sess i).hsSlot = true ∧ (u.sess i).suite = h.suite ∧ (u.sess i).group = h.group ∧ (u.sess i).st = 2
              ∧ (u.sess i).hsChain = h.chain.map (·.1) ∧ out [.hello i] u))
      ∧ (∀ r, x.hsSlot = true → x.hsOps ≤ done.length →
        ((∀ d ∈ done, d.2.2.1 = 0) → x.hsResumed = true → Runs (.handshakeComplete i r) s fun u =>
          (u.sess i).st = 3 ∧ (u.sess i).hsSlot = false ∧ (u.sess i).peer = x.peer
            ∧ (∀ l, s.listener x.listener = some l → bit l.flags 4 = true → tls = true → (u.sess i).ticketGen = (s.slot 6).gen))
        ∧ ((∀ d ∈ done, d.2.2.1 = 0 ∨ d.2.2.1 = 0x1101) → (∃ d ∈ done, d.2.1 % 4 = 1 ∧ d.2.2.1 = 0x1101) →
          Runs (.handshakeComplete i r) s (closed 0x1607 [.alert i 51, .fin i]))))
    ∧ (∀ (n : LaneId) (h : Handle) m, (s.lane n).msg h = some m → m.released = true → m.atPort = true → (s.lane n).port = none →
        m.xfer = none → m.hm.session = i.val →
      let first := (m.trace.getLast?.map (·.tile)).getD endTile
      let body := (s.lane n).content (((s.lane n).chain first).getD [])
      let need := body.length + (frameHdr x.framing body.length).length + (if tls then 22 * cdiv (body.length + 4) 16384 else 0)
      (m.sessGone = false → x.st = 3 ∨ x.st = 4 → body.length ≤ frameMax x.framing → x.framing ≠ 5 ∨ body.length ≤ 16384 →
        x.sndUsed + need ≤ ((s.listener x.listener).map (·.sndbuf)).getD 256 * 1024 → s.portCheck n m = (0, 0) →
        Runs (.releaseAccept n h) s fun u =>
          out [.data i (frameHdr x.framing body.length ++ body)] u ∧ (u.lane n).port = some { h := h, first := first, ok := true }
            ∧ (u.sess i).sndUsed = (x.queued need s.laneClk).sndUsed)
      ∧ (m.sessGone = true ∨ x.st ≠ 3 ∧ x.st ≠ 4 → Runs (.releaseAccept n h) s fun u =>
          ((u.lane n).msg h).map (·.report) = some (some 0x1603#16) ∧ out [] u))

/-- PCIe links. A sub-port that its straps let start trains at a speed and width; its link going down answers the port's hart
loads and counts, and in card mode port 4's ends every descriptor with 0x3005, holds every channel and resets the host's agent.
Presence follows its pin. A root port's inbound request is translated and checked: it reads or writes DRAM, or is completed as
refused; a host access through a BAR reads as agent 273, or is turned away. A configuration request is answered, or retried
before READY. A completion is delivered, or discarded as late; at a read's timeout it ends with 0x3001 or all ones and its tag is
quarantined, and 4 s later the tag is free (R372, R375, R376, R379, R381, R392, R393, R427). -/
def Obligations.PcieRequestsComplete : Prop :=
  ∀ s : State,
    (∀ (p : Fin 5) (b : Fin 4),
      let k := p.val * 4 + b.val
      (∀ w (sp : Fin 7) (wd : Fin 3) fl, s.subWidth p b = some w → sp.val ≠ 0 → wd.val ≤ w → Runs (.pcieLinkUp p b sp wd fl) s fun u =>
        u.plink k = { s.plink k with up := true, speed := sp, width := wd, flit := sp.val = 6 || fl }
          ∧ (∀ j, j ≠ k → u.plink j = s.plink j) ∧ u = { s with pcie := u.pcie })
      ∧ ((s.plink k).up = true →
        (p.val ≠ 4 ∨ s.cardMode = false → Runs (.pcieLinkDown p b) s fun u =>
          u.plink k = { s.plink k with up := false, speed := 0, width := 0, flit := false, fell := true }
            ∧ u.reg (0x34000020 + 0x100000 * p.val) = (s.reg (0x34000020 + 0x100000 * p.val) + 1) % 2 ^ 32)
        ∧ (p.val = 4 → s.cardMode = true → Runs (.pcieLinkDown p b) s fun u =>
          (u.plink k).up = false
            ∧ (∀ c, c < 64 → (u.hd c).linkHeld = true ∧ (u.hd c).cur = none
                ∧ ((s.hd c).cur.isSome = true → (s.hd c).code = 0 → (u.hd c).last = 0x3005))
            ∧ ∀ n, s.lockHolder n = some 273 → u.lockHolder n = none)))
    ∧ (∀ (p b : Fin 4) v, (s.plink (p.val * 4 + b.val)).present ≠ v → Runs (.presenceDetectChange p b v) s fun u =>
        u.plink (p.val * 4 + b.val) = { s.plink (p.val * 4 + b.val) with present := v, changed := true } ∧ u = { s with pcie := u.pcie })
    ∧ (∀ (p : Fin 5) r, s.rootUp p = true →
      let errs := 0x34000020 + 0x100000 * p.val
      ((s.iommu r.rid r.aty r.addr r.write).2 = .ur → Runs (.pcieInboundRequest p r) s fun u =>
        u.pcie.out = s.pcie.out ++ [.cpl r.rid 1 [] false]
          ∧ u.reg errs = ((s.iommu r.rid r.aty r.addr r.write).1.reg errs + 1) % 2 ^ 32)
      ∧ ((s.iommu r.rid r.aty r.addr r.write).2 = .ca → Runs (.pcieInboundRequest p r) s fun u =>
        u.pcie.out = s.pcie.out ++ [.cpl r.rid 4 [] false])
      ∧ (∀ v, s.iommu r.rid r.aty r.addr r.write = (s, .xlat v) → Runs (.pcieInboundRequest p r) s fun u =>
        u.pcie.out = s.pcie.out ++ [.cpl r.rid 0 (Bytes.ofNatLE 8 v) false] ∧ u = { s with pcie := u.pcie })
      ∧ (∀ a, s.iommu r.rid r.aty r.addr r.write = (s, .go a) → s.region a = .dram → s.region (a + r.size - 1) = .dram →
        (r.write = false → Runs (.pcieInboundRequest p r) s fun u =>
          u.pcie.out = s.pcie.out ++ [.cpl r.rid 0 (s.dramRead a r.size) (r.dataError || s.poisoned a r.size)]
            ∧ u = { s with pcie := u.pcie })
        ∧ (r.write = true → r.ep = false → r.size = 64 → r.data.length = 64 → a % 64 = 0 → Runs (.pcieInboundRequest p r) s fun u =>
          u.dramRead a 64 = r.data ∧ u.pcie = s.pcie)))
    ∧ (s.cardMode = true → (s.plink 16).up = true → ∀ fn : Fin 65,
      (∀ (bar : Fin 8) off r a, (s.pfn fn).mse = true → (s.pfn fn).flr = false → (s.pfn fn).d3hot = false → fn.val = 0 →
          s.barMap fn bar off = some a →
        (s.region a = .dram → s.region (a + r.size - 1) = .dram → r.write = false → Runs (.hostBarAccess fn bar off r) s fun u =>
          SMap.get 0 273 u.readRes = Bytes.toNatLE (s.dramRead a r.size)
            ∧ u.pcie.out = s.pcie.out ++ [.cpl fn 0 (s.dramRead a r.size) (s.poisoned a r.size)])
        ∧ (s.region a ≠ .dram → s.region a ≠ .unassigned → s.region a ≠ .pcie → bar.val ≠ 6 → s.windowOk 4 fn a r.size r.write = false →
          Runs (.hostBarAccess fn bar off r) s fun u => u.pcie.out = s.pcie.out ++ [.err fn 0, .cpl fn 4 [] false]))
      ∧ (∀ (bar : Fin 8) off r, (s.pfn fn).mse = false → Runs (.hostBarAccess fn bar off r) s fun u =>
        u.pcie.out = s.pcie.out ++ [.cpl fn 1 [] false] ∧ u = { s with pcie := u.pcie })
      ∧ (∀ off, fn.val = 0 ∨ (s.pfn fn).on = true →
        (s.cel.descBuilt = false → Runs (.pcieConfigRequest fn off none) s fun u => u.pcie.out = s.pcie.out ++ [.cpl fn 2 [] false])
        ∧ (s.cel.descBuilt = true →
          (Runs (.pcieConfigRequest fn off none) s fun u =>
            u.pcie.out = s.pcie.out ++ [.cpl fn 0 (Bytes.ofNatLE 4 (s.cfgRead fn (off / 4 * 4))) false] ∧ u = { s with pcie := u.pcie })
          ∧ ∀ v : W32, Runs (.pcieConfigRequest fn off (some v)) s fun u =>
            u.pcie.out.getLast? = some (.cpl fn 0 [] false)
              ∧ (off / 4 * 4 = 4 → (u.pfn fn).mse = bit v.toNat 1 ∧ (u.pfn fn).bme = bit v.toNat 2))))
    ∧ (∀ tag t n l, s.ptag tag = some t → t.user = .hart n l →
      (t.quar = false → ∀ rd size, (s.hart n).wait = .pcie rd size false → rd ≠ 0 →
        (∀ c, c.status = 0 → c.poisoned = false → Runs (.pcieCompletionReceive tag c) s fun u =>
          (u.hart n).rd rd = BitVec.ofNat 64 (Bytes.toNatLE (Bytes.slice c.data 0 size)) ∧ (u.hart n).wait = .none ∧ u.ptag tag = none
            ∧ ∀ k, k ≠ n → u.hart k = s.hart k)
        ∧ (Runs (.completionTimeout tag) s fun u =>
          (u.hart n).rd rd = BitVec.ofNat 64 (Bytes.toNatLE (Bytes.slice ones8 0 size)) ∧ (u.hart n).wait = .none
            ∧ u.ptag tag = some { t with quar := true, clk := s.laneClk }))
      ∧ (t.quar = true → t.silent = false → ∀ c, Runs (.pcieCompletionReceive tag c) s fun u =>
        u.ptag tag = none ∧ ∀ k, (u.hart k).wait = (s.hart k).wait ∧ ∀ r, (u.hart k).rd r = (s.hart k).rd r))
    ∧ (∀ tag t k, s.ptag tag = some t → t.quar = false → t.user = .chan k → (s.pfn (s.hd k).owner).flr = false →
      (∀ d c, (s.hd k).cur = some d → d.toHost = false → (s.hd k).code = 0 → c.status = 0 → c.poisoned = false → c.data.length = t.len →
        Runs (.pcieCompletionReceive tag c) s fun u =>
          (u.hd k).moved = (s.hd k).moved + t.len
            ∧ ((∀ c, (s.dmc c).st ≠ 5) → s.poisoned (d.loc + t.off) t.len = false → u.dramRead (d.loc + t.off) t.len = c.data))
      ∧ (t.clk + s.ctoClk k t ≤ s.laneClk → Runs (.completionTimeout tag) s fun u =>
          (u.hd k).code = (if (s.hd k).code = 0 then 0x3001 else (s.hd k).code)
            ∧ u.ptag tag = some { t with quar := true, silent := false, clk := s.laneClk }))
    ∧ (∀ tag t, s.ptag tag = some t → t.quar = true → t.clk + 6400000000 ≤ s.laneClk → Runs (.tagQuarantineExpiry tag) s fun u =>
        u.ptag tag = none ∧ (∀ j, j ≠ tag → u.ptag j = s.ptag j) ∧ u = { s with pcie := u.pcie })

/-- Host DMA channels and card functions. An enabled channel copies and checks its next descriptor and sends its first request,
or asks for the translation it lacks; when the transfers have ended the completion record is written, HEAD and DONE advance and
the descriptor's MSI-X is sent. A translation fills the ATC or ends the descriptor with 0x3007; an Invalidate Request removes
entries at once and is answered once the reads issued under them have ended. Bus Master Enable cleared, or D3hot, stops the
function's channel with 0x3006; a function-level reset stops it, and after its wait its descriptors have ended with 0x3009 and the
function is reset. VF Enable moves idle channels, and an unmasked vector sends its pending message (R382, R383, R387 to R391). -/
def Obligations.HostDmaOperationsComplete : Prop :=
  ∀ s : State,
    (∀ k : HdmaId,
      let h := s.hd k
      let d := HDesc.ofBytes (s.hdDesc k (s.reg (hdmaReg k 0xC)))
      let n := min 512 (min d.len (4096 - d.host % 4096))
      (bit (s.reg (hdmaReg k 8)) 31 = true → h.cur = none → s.reg (hdmaReg k 0xC) ≠ s.reg (hdmaReg k 0x10) → s.hdRuns k = true →
        Runs (.hdmaDescriptor k) s fun u =>
          (u.hd k).cur = some d
            ∧ (s.hdValid k (s.hdDesc k (s.reg (hdmaReg k 0xC))) = false → (u.hd k).code = 0x3008 ∧ u.pcie.out = s.pcie.out)
            ∧ (s.hdValid k (s.hdDesc k (s.reg (hdmaReg k 0xC))) = true →
              ((s.pfn h.owner).ats = false ∨ d.translated = true →
                (d.toHost = true → .write h.owner d.host (s.dramRead d.loc n) (s.poisoned d.loc n) d.ro ∈ u.pcie.out)
                ∧ (d.toHost = false → ∀ t, s.freeTag 16 = some t → .read t d.host n ∈ u.pcie.out))
              ∧ ((s.pfn h.owner).ats = true → d.translated = false → s.pcie.xlat h.owner (d.host / 4096) = none →
                (u.hd k).waitAts = true ∧ u.pcie.out = s.pcie.out ++ [.transReq h.owner (d.host / 4096 * 4096)])))
      ∧ (∀ d, h.cur = some d → s.hdReads k = false → h.waitAts = false → (s.pfn h.owner).flr = false → h.code = 0 → d.len ≤ h.moved →
        Runs (.hdmaDescriptorComplete k) s fun u =>
          let vec := if h.owner = 0 then 65 + k.val else 0
          let f := s.pfn h.owner
          let v := SMap.get {} vec f.vecs
          (u.hd k).cur = none ∧ u.reg (hdmaReg k 0xC) = (s.reg (hdmaReg k 0xC) + 1) % s.hdEntries k
            ∧ u.reg (hdmaReg k 0x18) = (s.reg (hdmaReg k 0x18) + 1) % 2 ^ 32
            ∧ (s.inDram d.compl 16 = true → d.compl % 16 = 0 → s.poisoned d.compl 16 = false →
                u.dramRead d.compl 8 = Bytes.ofNatLE 2 0 ++ Bytes.zeros 2 ++ Bytes.ofNatLE 4 h.moved)
            ∧ (d.irq = true → (s.plink 16).up = true → f.bme = true → f.d3hot = false → f.msixEn = true → f.msixMask = false →
                v.masked = false → .msix h.owner vec v.addr v.data ∈ u.pcie.out))
      ∧ (∀ d a, h.cur = some d → h.waitAts = true →
        (Runs (.atsTranslationResponse k true a) s fun u => u.pcie.xlat h.owner ((d.host + h.asked) / 4096) = some (a / 4096))
        ∧ (Runs (.atsTranslationResponse k false a) s fun u =>
          u.hd k = { h with waitAts := false, code := if h.code = 0 then 0x3007 else h.code } ∧ u = { s with pcie := u.pcie })))
    ∧ (∀ fn : Fin 65,
      (∀ base len, Runs (.invalidateRequest fn base len) s fun u =>
        (∀ e, e ∈ u.pcie.atc ↔ e ∈ s.pcie.atc ∧ ¬ (e.1 = fn.val ∧ base ≤ e.2.1 * 4096 ∧ e.2.1 * 4096 < base + len))
          ∧ u.pcie.inval = s.pcie.inval ++ [fn.val] ∧ u = { s with pcie := u.pcie })
      ∧ ((∀ p ∈ s.pcie.tags, ∀ t, p.2 = some t → t.stale = true → t.quar = true) → s.pcie.inval.contains fn.val = true →
        Runs (.invalidateCompletion fn) s fun u =>
          u.pcie.out = s.pcie.out ++ [.invalDone fn] ∧ u.pcie.inval = s.pcie.inval.erase fn.val)
      ∧ (∀ d3, Runs (.busMasterEnableClear fn d3) s fun u =>
        (if d3 then (u.pfn fn).d3hot = true else (u.pfn fn).bme = false)
          ∧ ∀ k, k < 64 → (s.hd k).owner = fn.val → u.hdRuns k = false ∧ ((s.hd k).cur.isSome = true →
              (u.hd k).code = (if (s.hd k).code = 0 ∨ (s.hd k).code = 0x300A then 0x3006 else (s.hd k).code)))
      ∧ (s.cardMode = true → Runs (.functionLevelReset fn) s fun u =>
        (u.pfn fn).flr = true ∧ (u.pfn fn).flrAt = s.laneClk
          ∧ ∀ k, k < 64 → (s.hd k).owner = fn.val → u.hdRuns k = false ∧ (u.hd k).waitAts = false)
      ∧ ((s.pfn fn).flr = true → (∀ f, f < 65 → f = fn.val ∨ fn.val = 0 ∧ (s.pfn f).flr = true → s.flrWaited f = true) →
        Runs (.flrComplete fn) s fun u =>
          (u.pfn fn).flr = false ∧ (u.pfn fn).bme = false ∧ (u.pfn fn).mse = false ∧ (u.pfn fn).vecs = []
            ∧ ∀ k, k < 64 → (s.hd k).owner = fn.val → (s.hd k).cur.isSome = true → (u.hd k).cur = none ∧ (u.hd k).last = 0x3009)
      ∧ (∀ vec,
        let f := s.pfn fn
        let v := SMap.get {} vec f.vecs
        Runs (.msixUnmask fn vec) s fun u =>
          (SMap.get {} vec (u.pfn fn).vecs).masked = false
            ∧ ((s.plink 16).up = true → f.bme = true → f.d3hot = false → f.msixEn = true → f.msixMask = false → v.pend = true →
                .msix fn vec v.addr v.data ∈ u.pcie.out ∧ (SMap.get {} vec (u.pfn fn).vecs).pend = false)))
    ∧ (∀ en (n : Fin 65), s.cardMode = true → s.pcie.vfEn = false → Runs (.vfEnable en n) s fun u =>
        u.pcie.vfEn = en ∧ u.pcie.numVfs = n.val
          ∧ ∀ k, k < 64 → (s.hd k).cur = none → (u.hd k).owner = (if en = true ∧ k < n.val then k + 1 else 0))

/-- Skeid commands that open no ticket: each well-formed command of a sender that satisfies its class is acknowledged with its
results, and has its effect: a NOTICE mailbox is bound or unbound, an orphaned lock released, lanes reset or announced for
handover, pairing started, a cache partition, memory timings and a remapped line set, Garret records copied to DRAM, a freeze
started, a hallmark chain replayed. The Strongroom's own: a QUERY reads a slot's handle, check value and count, a failed entropy
source freezes Garret, and 16 epochs without a reseed lapse the generator (R66, R157, R181, R198, R276, R310, R341, R345, R362,
R374, R419, R421). -/
def Obligations.SkeidCommandsComplete : Prop :=
  ∀ (n : MbxId) (s : State),
    let adm := s.isAdmin (s.sender n) = true
    (s.skeidReady n 0x01 2 → s.arg n 1 = 0 → Runs (.health n) s fun u =>
        u.skeidDone n 0x01 0 [s.celStatus,
          s.serviceMask + (List.range 16).foldl (fun a k => if (s.ring k).hold ≠ 0 then a + 2 ^ k else a) 0 * 2 ^ 16,
          s.twnStatus, s.jrnStatus, s.epoch % 2 ^ 32])
    ∧ (∀ k, s.skeidReady n 0x01 2 → s.arg n 1 = 1 → s.arg n 2 = k → k < 16 → Runs (.health n) s fun u =>
        u.skeidDone n 0x01 0 [s.laneStatus k, s.lreg k 8, s.lreg k 0x34, s.lreg k 0xC0, s.ringStatus k])
    ∧ (s.skeidReady n 0x02 0 → Runs (.version n) s fun u =>
        u.skeidDone n 0x02 0 [s.cel.fw, 0xB1, s.twin.deviceId, (s.twin.dom.map (·.domain)).getD 0])
    ∧ (s.skeidReady n 0x03 1 → s.arg n 1 < 16 → Runs (.rasQuery n) s fun u =>
        (∃ res, u.skeidDone n 0x03 0 ((s.dmc (s.arg n 1)).status :: res) ∧ res.length = 5) ∧ u.mem = s.mem)
    ∧ (∀ m, s.skeidReady n 0x04 3 → s.arg n 1 = m → 48 ≤ m → m ≤ 59 → s.arg n 3 = 0 → (s.mbx m).peer = 0x1FF →
        Runs (.mbxBind n) s fun u =>
          u.skeidDone n 0x04 0 [] ∧ u.mbx m = { s.mbx m with peer := s.sender n, rxTarget := s.arg n 2 &&& 0x800FFFFF })
    ∧ (∀ m, s.skeidReady n 0x04 3 → s.arg n 1 = m → 48 ≤ m → m ≤ 59 → s.arg n 3 = 1 → (s.mbx m).peer = s.sender n →
        Runs (.mbxBind n) s fun u => u.skeidDone n 0x04 0 [] ∧ u.mbx m = { s.mbx m with peer := 0x1FF, rxTarget := 0 })
    ∧ (∀ k h, s.skeidReady n 0x05 1 → adm → s.arg n 1 = k → k < 128 → s.lockHolder k = some h → h < 2 ^ 32 →
        Runs (.lockRelease n) s fun u =>
          u.skeidDone n 0x05 0 [h] ∧ u.lockHolder k = none ∧ bit (u.reg (0x02000010 + 4 * (k / 32))) (k % 32) = true)
    ∧ (∀ m, s.skeidReady n 0x10 1 → s.arg n 1 = m → m < 65536 →
        (∀ k ∈ maskLanes m, s.right (s.sender n) k 3 = true ∧ (s.lane k).st = 2 ∧ (s.ring k).divergent = false) →
        Runs (.laneReset n) s fun u => u.skeidDone n 0x10 0 [] ∧ (∀ k ∈ maskLanes m, (u.lane k).st = 4)
          ∧ ∀ k, k ∉ maskLanes m → u.lane k = s.lane k)
    ∧ (∀ m, s.skeidReady n 0x13 3 → adm → s.arg n 1 = m → m < 65536 → s.arg64 n 2 = 0 → s.twin.pair = 4 → s.twin.handover = none →
        (∀ k ∈ maskLanes m, (s.lane k).st = 2) → Runs (.laneHandover n) s fun u =>
          u.skeidDone n 0x13 0 [(s.epoch + 2) % 2 ^ 32, (s.epoch + 2) / 2 ^ 32] ∧ u.twin.handover = some (m, s.epoch + 2, none))
    ∧ (s.skeidReady n 0x20 0 → adm → pairEn s = true → s.str.bootstrap = false → s.twin.linkUp = false → Runs (.pairStart n) s fun u =>
        u = { s with twin := { s.twin with pair := 1, noRetry := false, startMbx := some n.val } })
    ∧ (s.skeidReady n 0x40 2 → adm → bits (s.arg n 1) 15 5 = 0 → bit (s.arg n 1) 3 = false → bits (s.arg n 2) 30 19 = 0 →
        bits (s.arg n 2) 15 9 = 0 → bits (s.arg n 1) 31 16 ≠ 0 → bits (s.arg n 2) 8 0 < 276 → Runs (.cachePart n) s fun u =>
          u.skeidDone n 0x40 0 [] ∧ u.mem.ppend = s.mem.ppend ++ [(b2n (bit (s.arg n 1) 4) + 2 * bits (s.arg n 1) 2 0,
            bits (s.arg n 1) 31 16, b2n (bit (s.arg n 2) 31) + 2 * bits (s.arg n 2) 8 0, bits (s.arg n 2) 18 16)])
    ∧ (∀ c, s.skeidReady n 0x41 3 → adm → s.arg n 1 < 65536 → (∀ i, i < 4 → bits (s.arg n 2) (8 * i + 7) (8 * i) ≤ 5) → s.arg n 3 ≤ 1 →
        c < 16 → bit (s.arg n 1) c = true → Runs (.memConfig n) s fun u =>
          u.skeidDone n 0x41 0 [] ∧ u.cel.memGran = bit (s.arg n 3) 0
            ∧ SMap.find c u.cel.memRates = some ((List.range 4).map (fun i => bits (s.arg n 2) (8 * i + 7) (8 * i))))
    ∧ (∀ c e, s.skeidReady n 0x42 2 → adm → s.arg n 1 = c → c < 16 → (s.dmc c).st = 2 → s.arg n 2 < (s.dmc c).lines →
        (∃ i, i < 16 ∧ SMap.get none i (s.dmc c).remap = none) → Runs (.memRemap n e) s fun u =>
          (∃ sp, u.skeidDone n 0x42 0 [sp]) ∧ (u.dmc c).remapped (s.arg n 2) = true)
    ∧ (s.skeidReady n 0x60 0 → adm → Runs (.garretList n) s fun u => (∃ res, u.skeidDone n 0x60 0 res ∧ res.length = 9) ∧ u.gar = s.gar)
    ∧ (∀ img, s.skeidReady n 0x61 5 → adm → 1 ≤ s.arg n 3 → s.arg n 3 ≤ 131072 → s.bufOk (s.arg64 n 4) (32 * s.arg n 3) = true →
        (s.arg n 1 = 8 ∧ img = s.gar.held ∨ s.arg n 1 < 8 ∧ (SMap.get none (s.arg n 1) s.gar.attic).map (·.image) = some img) →
        Runs (.garretRead n) s fun u =>
          let out := (img.drop (s.arg n 2)).take (s.arg n 3)
          let b := out.flatMap (·.2)
          u.skeidDone n 0x61 0 [out.length]
            ∧ ((∀ c, (s.dmc c).st ≠ 5) → s.poisoned (s.arg64 n 4) b.length = false → u.dramRead (s.arg64 n 4) b.length = b))
    ∧ (s.skeidReady n 0x62 0 → adm → s.gar.frozen = false → s.gar.freezing = none → Runs (.garretFreeze n) s fun u =>
        u.skeidDone n 0x62 0 [u.gar.slot] ∧ u.gar.freezing = some (s.gar.post + 1) ∧ u.gar.trigger = 5)
    ∧ (s.skeidReady n 0x70 3 → adm → 40 ≤ s.arg n 3 → s.arg n 3 ≤ 65600 → s.bufOk (s.arg64 n 1) (s.arg n 3) = true →
        Runs (.hmReplay n) s fun u =>
          let b := s.dramRead (s.arg64 n 1) (s.arg n 3)
          let hm := Hallmark.ofBytes (b.take 32)
          u.dram = s.dram ∧ (s.hmKey hm = none → u.skeidDone n 0x70 0 [0x1411])
            ∧ ∀ k, s.hmKey hm = some k →
              u.skeidDone n 0x70 0 [replayChain k hm (Bytes.le b 32 8) (Config.replayOutputs (b.drop 40))])
    ∧ (∀ (g : Agent) (i : SlotId), g.val < 256 ∨ g.val = 272 ∨ g.val = 273 ∨ g.val = 275 → Runs (.query g i .none) s fun u =>
        let z := s.slot i
        u.str.qSlot = i.val ∧ u.str.qDone = true
          ∧ (z.held = true → u.str.qHandle = mkHandle z.policy z.cls z.gen i ∧ u.str.qKcv = Bytes.toNatBE z.kcv ∧ u.str.qCount = z.uses)
          ∧ (z.held = false → u.str.qHandle = 0 ∧ u.str.qKcv = 0 ∧ u.str.qCount = 0) ∧ u = { s with str := u.str })
    ∧ (Runs .entropyHealthFailure s fun u => u.str.entFail = true ∧ u = { s with str := u.str, gar := u.gar }
        ∧ (s.gar.frozen = false → s.gar.freezing = none → u.gar.trigger = 1 ∧ u.gar.freezing.isSome = true))
    ∧ (s.str.entFail = true → s.str.lastReseed + 16 ≤ s.epoch → Runs .reseedLapse s fun u =>
        u = { s with str := { s.str with lapsed := true } })

/-- Dual control: each DUAL command and each kind of set-up change of an administrator outside COMMISSION opens a ticket for
its item; the first token is held, the second stages the change for an epoch at least two ahead, and the change takes effect
at that epoch's boundary; a ticket is read, cancelled, and expires. In COMMISSION a roster is staged without tokens (R346 to R349, R350, R357 to R361, R363, R367 to R373). -/
def Obligations.DualControlOperationsComplete : Prop :=
  ∀ (n : MbxId) (s : State),
    let adm := s.isAdmin (s.sender n) = true
    let set := fun (kind : Nat) => s.skeidReady n 0x30 6 ∧ adm ∧ s.arg n 1 = kind ∧ s.arg n 4 ≤ 65536
      ∧ s.bufOk (s.arg64 n 2) (s.arg n 4) = true ∧ s.cel.tickets = []
    (∀ c, s.str.bootstrap = true → set 0x15 → rosterOk c = true → Runs (.officers n c) s fun u =>
        (∃ t, u.cel.tickets = [t] ∧ t.num = s.cel.nextTicket ∧ t.item = .officers c ∧ t.st = 3 ∧ t.effect = s.epoch + 2)
          ∧ (u.mbx n).ackCode = 0)
    ∧ (s.str.bootstrap = false →
    (∀ m img, s.skeidReady n 0x11 7 → adm → s.cel.tickets = [] → s.arg n 1 = m → m < 65536 → s.arg n 2 < 4 →
        s.bufOk (s.arg64 n 3) (s.arg n 5) = true → s.dramRead (s.arg64 n 3) (s.arg n 5) = img →
        (∀ k ∈ maskLanes m, s.imageCode k (bit (s.arg n 2) 0) img = 0) → s.storeFits img = true →
        Runs (.laneLoad n) s fun u => s.ticketOpened u (.laneLoad m (bit (s.arg n 2) 0) (bit (s.arg n 2) 1) img) ∧ (u.mbx n).ackCode = 0)
    ∧ (∀ m b, s.skeidReady n 0x12 7 → adm → s.cel.tickets = [] → s.arg n 1 = m → m < 65536 → s.arg n 2 < 64 →
        s.bufOk (s.arg64 n 3) (s.arg n 5) = true → s.dramRead (s.arg64 n 3) (s.arg n 5) = b → stnLoad b = 0 →
        (∀ k ∈ maskLanes m, (s.lane k).stnFits b = true) → s.storeFits b = true →
        Runs (.stencilLoad n) s fun u => s.ticketOpened u (.stencil m (s.arg n 2) b))
    ∧ (∀ m, s.skeidReady n 0x14 2 → adm → s.cel.tickets = [] → s.arg n 1 = m → m < 65536 → s.arg n 2 < 2 →
        (∀ k ∈ maskLanes m, (s.ring k).divergent = true ∨ (s.ring k).clash = true) →
        Runs (.laneRelease n) s fun u => s.ticketOpened u (.laneRelease m (bit (s.arg n 2) 0)))
    ∧ (∀ b, s.skeidReady n 0x50 6 → adm → s.cel.tickets = [] → 4096 ≤ s.arg n 3 → s.arg n 3 ≤ 21 * 2 ^ 20 → s.arg n 4 < 2 →
        s.bufOk (s.arg64 n 1) (s.arg n 3) = true → s.dramRead (s.arg64 n 1) (s.arg n 3) = b →
        (∀ v, bundleFw b = some v → s.str.floor ≤ v ∧ s.twin.pair ≠ 4) →
        Runs (.fwStage n) s fun u => if bundleOk b then s.ticketOpened u (.fw b (bit (s.arg n 4) 0)) else u.skeidDone n 0x50 0x0220 [])
    ∧ (∀ c, set 0x01 → Runs (.laneFirewall n c) s fun u => s.ticketOpened u (.firewall c) ∧ u.firewall = s.firewall)
    ∧ (∀ c, set 0x02 → c.length ≤ 64 → (∀ w ∈ c, w.base ≤ w.limit ∧ w.limit < 0x80000000) → Runs (.pcieWindows n c) s fun u => s.ticketOpened u (.windows c) ∧ u.windows = s.windows)
    ∧ (∀ c, set 0x03 → (∀ p ∈ c.entries, 1 ≤ p.1 ∧ p.1 < 4096) →
        (∀ p ∈ c.repolicy, (s.policy p.2).isSome = true ∨ ∃ e ∈ c.entries, e.1 = p.2) →
        Runs (.keyPolicy n c) s fun u => s.ticketOpened u (.policy c))
    ∧ (∀ c, set 0x04 → s.slotReason c.slot c.cls c.policy c.replace (cdiv (genLen c.cls) 32) = 0 → genCode c.cls = c.opc → c.opc ≠ 0 →
        Runs (.keyGen n c) s fun u => s.ticketOpened u (.keyGen c))
    ∧ (∀ c, set 0x05 → isPublicCls c.cls = true → s.slotReason c.slot c.cls c.policy c.replace (poolUnits c.wrapped) = 0 →
        keyKcv c.cls c.wrapped = c.kcv → Runs (.keyImport n c) s fun u => s.ticketOpened u (.keyImport c c.wrapped))
    ∧ (∀ c, set 0x05 → isPublicCls c.cls = false → (s.slot c.wrapSlot).held = true → c.blockClassOk = true →
        (s.slot c.wrapSlot).cls = (if isAsymCls c.cls then 0x20 else 0x21) →
        Runs (.keyImport n c) s fun u => match Config.unwrapKey (s.slot c.wrapSlot).cls (s.slot c.wrapSlot).material c.wrapped with
          | some m => s.slotReason c.slot c.cls c.policy c.replace (poolUnits m) = 0 → keyKcv c.cls m = c.kcv →
              s.ticketOpened u (.keyImport c m)
          | none => u.skeidDone n 0x30 0x0202 [0x23])
    ∧ (∀ c, set 0x06 → isAsymCls c.cls = false → (s.slot 8).cls = 0x22 → Runs (.keyComponent n c) s fun u =>
        match Config.unwrapKey 0x22 (s.slot 8).material c.compA, Config.unwrapKey 0x22 (s.slot 8).material c.compB with
          | some a, some b => s.slotReason c.slot c.cls c.policy c.replace (poolUnits (Crypto.xorBytes a b)) = 0 →
              keyKcv c.cls (Crypto.xorBytes a b) = c.kcv → s.ticketOpened u (.keyComponent c (Crypto.xorBytes a b))
          | _, _ => u.skeidDone n 0x30 0x0202 [0x23])
    ∧ (∀ i : SlotId, set 0x07 → 16 ≤ i.val → Runs (.keyDestroy n i) s fun u => s.ticketOpened u (.keyDestroy i))
    ∧ (∀ c p, set 0x08 → s.bufOk c.buffer 64 = true → s.policy (s.slot c.slot).policy = some p → bit p.flags 2 = true →
        (s.slot c.slot).cls ∉ [0x22, 0x28, 0x29, 0x2B] → (s.slot c.slot).held = true → (s.slot c.wrapSlot).held = true →
        (s.slot c.wrapSlot).cls = 0x20 ∨ (s.slot c.wrapSlot).cls = 0x21 →
        Runs (.keyExport n c) s fun u => s.ticketOpened u (.keyExport c))
    ∧ (∀ c, set 0x10 → Runs (.rootRotate n c) s fun u => s.ticketOpened u (.root c))
    ∧ (∀ c, set 0x11 → c.inRange = true → Runs (.domain n c) s fun u => s.ticketOpened u (.domain c))
    ∧ (∀ c, set 0x12 → c.inRange s.twin.homeCfg = true → (∀ p ∈ c.addrs, p.1 < 64) → (∀ p ∈ c.listeners, p.1 < 256) →
        Runs (.netTables n c) s fun u => s.ticketOpened u (.nets c))
    ∧ (∀ c, set 0x13 → Runs (.journal n c) s fun u => s.ticketOpened u (.journal c))
    ∧ (∀ c, set 0x14 → c.expiry ≤ (if s.arg64 n 5 = 0 then s.epoch + 2 else s.arg64 n 5) + 3600000 → Runs (.debugUnlock n c) s fun u => s.ticketOpened u (.unlock c))
    ∧ (∀ c, set 0x15 → rosterOk c = true → Runs (.officers n c) s fun u => s.ticketOpened u (.officers c))
    ∧ (∀ c, set 0x16 → Runs (.adminSet n c) s fun u => s.ticketOpened u (.adminSet (c.map (·.val))))
    ∧ (set 0x17 → Runs (.zeroize n) s fun u => s.ticketOpened u .zeroize)
    ∧ (∀ t w, s.skeidReady n 0x31 4 → s.bufOk (s.arg64 n 2) (s.arg n 4) = true → s.cel.tickets = [t] → t.num = s.arg n 1 →
        (s.mbx n).goClk ≤ t.opened + ticketLife →
      let tok := s.dramRead (s.arg64 n 2) (s.arg n 4)
      let c := s.tokenCode s.twin.deviceId t tok
      (t.st = 1 → t.officers = [] → Runs (.approve n w) s fun u =>
        if c.1 = 0 then u.cel.tickets = [{ t with officers := [c.2], tokens := t.tokens ++ [tok], st := 2 }] ∧ u.skeidDone n 0x31 0x02C1 [1, 0, 0]
        else u.cel.tickets = [t] ∧ u.skeidDone n 0x31 c.1 [])
      ∧ (∀ f, t.st = 2 → t.officers = [f] → t.target = 0 → s.twin.pair ≠ 4 → s.phaseOne t.item = none → (s.ring 16).hold = 0 →
        Runs (.approve n w) s fun u =>
          if c.1 = 0 then
            u.cel.tickets = [{ t with officers := [f, c.2], tokens := t.tokens ++ [tok], st := 3, effect := max (s.goEpoch n + 2) s.earliest, pairWide := false }]
              ∧ (u.mbx n).ackCode = 0
          else u.cel.tickets = [t] ∧ u.skeidDone n 0x31 c.1 []))
    ∧ (∀ t, s.skeidReady n 0x32 1 → s.ticket (s.arg n 1) = some t → Runs (.ticketStatus n) s fun u =>
        u.skeidDone n 0x32 0 [t.st, t.code, t.effect % 2 ^ 32, t.effect / 2 ^ 32] ∧ u.cel.tickets = s.cel.tickets)
    ∧ (∀ t, s.skeidReady n 0x33 1 → adm → s.cel.tickets = [t] → t.num = s.arg n 1 → t.st = 1 ∨ t.st = 2 → Runs (.ticketCancel n) s fun u =>
        u.cel.tickets = [{ t with st := 6 }] ∧ u.skeidDone n 0x33 0 [])
    ∧ (∀ t, s.ticket t.num = some t → t.st = 1 ∨ t.st = 2 → t.opened + ticketLife ≤ s.laneClk → Runs (.ticketExpiry t.num) s fun u =>
        u.cel.tickets = s.cel.tickets.filter (fun x => x.num ≠ t.num))
    ∧ (∀ t c, s.cel.st = 3 → s.btm.running = true → s.cel.tickets = [t] → t.st = 3 → t.effect * 100 ≤ s.btm.beat + 1 →
        t.item = .windows c → t.pairWide = false → s.twin.ctls = [] → Runs .stagedChangeApply s fun u =>
          u.windows = c ∧ u.cel.tickets = [{ t with st := 4 }] ∧ u.firewall = s.firewall))

/-- The reset values that the register descriptions of the spec give, register group by register group: the lane control
blocks (chapter 3), the memory controllers (chapters 13 and 14), the power and Cellarer registers (chapters 17 and 22), the
journal rings and the twin link (chapters 8 and 9); every register without a stated value reads the model's 0 (log entry 2). -/
def Obligations.ResetRegisterValues : Prop :=
  (∀ n, n < 16 →
    State.reset.lreg n 0x20 = 0x03E80DAC ∧ State.reset.lreg n 0x24 = 0x1F4 ∧ State.reset.lreg n 0x38 = 0x40
      ∧ State.reset.lreg n 0xC4 = 0x7FFF
      ∧ ∀ c, c < 32 → State.reset.lreg n (0x1000 + 0x20 * c) = 0x00804100 ∧ State.reset.lreg n (0x1004 + 0x20 * c) = 0x32
          ∧ State.reset.lreg n (0x1010 + 0x20 * c) = 0x00040100)
  ∧ (∀ c, c < 16 →
    State.reset.reg (dmcBase c + 0x50) = 0xA ∧ State.reset.reg (dmcBase c + 0x60) = 0x00400A3C
      ∧ State.reset.reg (dmcBase c + 0x70) = 0x10300A00 ∧ State.reset.reg (dmcBase c + 0x100) = 0x00018200
      ∧ State.reset.reg (dmcBase c + 0x1100) = 0x18000A03 ∧ State.reset.reg (dmcBase c + 0x100C) = 0x100)
  ∧ State.reset.reg 0x02000208 = 700
  ∧ State.reset.reg (jrnBase + 4) = 3 ∧ State.reset.reg (jrnBase + 0x28) = 100 ∧ (∀ k, k < 17 → State.reset.reg (ringReg k 0) = 5)
  ∧ State.reset.reg (twnBase + 0x24) = 1000
  ∧ (∀ a, regRow a = none → State.reset.reg a = 0)
end

