-- ==== Sys2Proof/Laws/Fixed.lean ====
section
/-!
SUPPORT. What the operations and the commands leave alone: one lemma each, that the boot ROM and the queue stay as they
are (R28; exec answers for everything but the queue). A command's lemma speaks of the next state it answers.
-/

namespace Sys2Proof.Machine
open Sys2Proof

/-- The next state that an answer holds keeps the boot ROM and the queue. -/
def Res.keeps (r : Res) (s : State) : Prop := ∀ t, r = .next t → t.rom = s.rom ∧ t.pending = s.pending
@[simp] theorem Res.keeps_next (t s : State) : Res.keeps (.next t) s ↔ t.rom = s.rom ∧ t.pending = s.pending := by
  simp [Res.keeps]
@[simp] theorem Res.keeps_ite (c : Prop) [Decidable c] (a b : Res) (s : State) :
    Res.keeps (if c then a else b) s ↔ if c then a.keeps s else b.keeps s := by split <;> rfl
@[simp] theorem rom_ite (c : Prop) [Decidable c] (a b : State) : (if c then a else b).rom = if c then a.rom else b.rom := by
  split <;> rfl
@[simp] theorem pending_ite (c : Prop) [Decidable c] (a b : State) :
    (if c then a else b).pending = if c then a.pending else b.pending := by split <;> rfl
theorem fst_ite {α : Type} (c : Prop) [Decidable c] (a b : State × α) : (if c then a else b).1 = if c then a.1 else b.1 := by
  split <;> rfl
@[simp] theorem foldl_rom {α : Type} (f : State → α → State) (l : List α) (s : State) (h : ∀ s x, (f s x).rom = s.rom) :
    (l.foldl f s).rom = s.rom := by
  induction l generalizing s with
  | nil => rfl
  | cons x l ih => simp [ih, h]
@[simp] theorem foldl_pending {α : Type} (f : State → α → State) (l : List α) (s : State)
    (h : ∀ s x, (f s x).pending = s.pending) : (l.foldl f s).pending = s.pending := by
  induction l generalizing s with
  | nil => rfl
  | cons x l ih => simp [ih, h]

@[simp] theorem State.setReg_fixed (a0 : State) (a1 : ℕ) (a2 : ℕ) :
    (State.setReg a0 a1 a2).rom = a0.rom ∧ (State.setReg a0 a1 a2).pending = a0.pending := by
  unfold State.setReg
  simp
@[simp] theorem State.setLock_fixed (a0 : State) (a1 : ℕ) (a2 : Option ℕ) :
    (State.setLock a0 a1 a2).rom = a0.rom ∧ (State.setLock a0 a1 a2).pending = a0.pending := by
  unfold State.setLock
  simp
@[simp] theorem State.abandonLock_fixed (a0 : State) (a1 : ℕ) :
    (State.abandonLock a0 a1).rom = a0.rom ∧ (State.abandonLock a0 a1).pending = a0.pending := by
  unfold State.abandonLock
  simp
@[simp] theorem State.setHart_fixed (a0 : State) (a1 : ℕ) (a2 : Hart) :
    (State.setHart a0 a1 a2).rom = a0.rom ∧ (State.setHart a0 a1 a2).pending = a0.pending := by
  unfold State.setHart
  simp
@[simp] theorem State.modHart_fixed (a0 : State) (a1 : ℕ) (a2 : Hart → Hart) :
    (State.modHart a0 a1 a2).rom = a0.rom ∧ (State.modHart a0 a1 a2).pending = a0.pending := by
  unfold State.modHart
  simp
@[simp] theorem State.queueWrite_fixed (a0 : State) (a1 : ℕ) (a2 : Bytes) (a3 : Bool) (a4 : ℕ) :
    (State.queueWrite a0 a1 a2 a3 a4).rom = a0.rom ∧ (State.queueWrite a0 a1 a2 a3 a4).pending = a0.pending := by
  unfold State.queueWrite
  simp
@[simp] theorem State.evOrder_fixed (a0 : State) (a1 : ℕ) :
    (State.evOrder a0 a1).rom = a0.rom ∧ (State.evOrder a0 a1).pending = a0.pending := by
  unfold State.evOrder
  (repeat' split) <;> simp
@[simp] theorem State.withMem_fixed (a0 : State) (a1 : Mem → Mem) :
    (State.withMem a0 a1).rom = a0.rom ∧ (State.withMem a0 a1).pending = a0.pending := by
  unfold State.withMem
  simp
@[simp] theorem State.lineStore_fixed (a0 : State) (a1 : ℕ) (a2 : ℕ) (a3 : ℕ) (a4 : Bytes) :
    (State.lineStore a0 a1 a2 a3 a4).rom = a0.rom ∧ (State.lineStore a0 a1 a2 a3 a4).pending = a0.pending := by
  unfold State.lineStore
  simp
@[simp] theorem State.incReg_fixed (a0 : State) (a1 : ℕ) (a2 : ℕ) :
    (State.incReg a0 a1 a2).rom = a0.rom ∧ (State.incReg a0 a1 a2).pending = a0.pending := by
  unfold State.incReg
  simp
@[simp] theorem State.msix_fixed (a0 : State) (a1 : ℕ) (a2 : ℕ) :
    (State.msix a0 a1 a2).rom = a0.rom ∧ (State.msix a0 a1 a2).pending = a0.pending := by
  unfold State.msix
  simp
@[simp] theorem State.sendMsi_fixed (a0 : State) (a1 : ℕ) (a2 : ℕ) (a3 : ℕ) :
    (State.sendMsi a0 a1 a2 a3).rom = a0.rom ∧ (State.sendMsi a0 a1 a2 a3).pending = a0.pending := by
  unfold State.sendMsi
  simp
@[simp] theorem State.sendTarget_fixed (a0 : State) (a1 : ℕ) :
    (State.sendTarget a0 a1).rom = a0.rom ∧ (State.sendTarget a0 a1).pending = a0.pending := by
  unfold State.sendTarget
  simp
@[simp] theorem State.rasRec_fixed (a0 : State) (a1 : RasIn) :
    (State.rasRec a0 a1).1.rom = a0.rom ∧ (State.rasRec a0 a1).1.pending = a0.pending := by
  unfold State.rasRec
  simp only [rom_ite, pending_ite, fst_ite, Res.keeps_ite]
  (repeat' split) <;> simp
@[simp] theorem State.hartFault_fixed (a0 : State) (a1 : ℕ) (a2 : ℕ) (a3 : ℕ) (a4 : ℕ) :
    (State.hartFault a0 a1 a2 a3 a4).rom = a0.rom ∧ (State.hartFault a0 a1 a2 a3 a4).pending = a0.pending := by
  unfold State.hartFault
  simp
@[simp] theorem State.setLane_fixed (a0 : State) (a1 : ℕ) (a2 : Lane) :
    (State.setLane a0 a1 a2).rom = a0.rom ∧ (State.setLane a0 a1 a2).pending = a0.pending := by
  unfold State.setLane
  simp
@[simp] theorem State.modLane_fixed (a0 : State) (a1 : ℕ) (a2 : Lane → Lane) :
    (State.modLane a0 a1 a2).rom = a0.rom ∧ (State.modLane a0 a1 a2).pending = a0.pending := by
  unfold State.modLane
  simp
@[simp] theorem State.lpmu_fixed (a0 : State) (a1 : ℕ) (a2 : ℕ) (a3 : ℕ) :
    (State.lpmu a0 a1 a2 a3).rom = a0.rom ∧ (State.lpmu a0 a1 a2 a3).pending = a0.pending := by
  unfold State.lpmu
  simp
@[simp] theorem State.acceptDecision_fixed (a0 : State) (a1 : ℕ) (a2 : ℕ) (a3 : Msg) (a4 : Bytes) :
    (State.acceptDecision a0 a1 a2 a3 a4).rom = a0.rom ∧ (State.acceptDecision a0 a1 a2 a3 a4).pending = a0.pending := by
  unfold State.acceptDecision
  simp
@[simp] theorem State.setRing_fixed (a0 : State) (a1 : ℕ) (a2 : Ring) :
    (State.setRing a0 a1 a2).rom = a0.rom ∧ (State.setRing a0 a1 a2).pending = a0.pending := by
  unfold State.setRing
  simp
@[simp] theorem State.rhaxSend_fixed (a0 : State) (a1 : ℕ) (a2 : ℕ) (a3 : ℕ) (a4 : ℕ) (a5 : optParam RhaxBody RhaxBody.none) :
    (State.rhaxSend a0 a1 a2 a3 a4 a5).rom = a0.rom ∧ (State.rhaxSend a0 a1 a2 a3 a4 a5).pending = a0.pending := by
  unfold State.rhaxSend
  simp
@[simp] theorem State.rhaxTell_fixed (a0 : State) (a1 : ℕ) (a2 : ℕ) (a3 : optParam RhaxBody RhaxBody.none) :
    (State.rhaxTell a0 a1 a2 a3).rom = a0.rom ∧ (State.rhaxTell a0 a1 a2 a3).pending = a0.pending := by
  unfold State.rhaxTell
  simp
@[simp] theorem State.rhaxReq_fixed (a0 : State) (a1 : ℕ) (a2 : ℕ) (a3 : ℕ) (a4 : optParam RhaxBody RhaxBody.none) :
    (State.rhaxReq a0 a1 a2 a3 a4).rom = a0.rom ∧ (State.rhaxReq a0 a1 a2 a3 a4).pending = a0.pending := by
  unfold State.rhaxReq
  simp
@[simp] theorem State.wcopySend_fixed (a0 : State) (a1 : ℕ) (a2 : ℕ) (a3 : Bytes) :
    (State.wcopySend a0 a1 a2 a3).rom = a0.rom ∧ (State.wcopySend a0 a1 a2 a3).pending = a0.pending := by
  unfold State.wcopySend
  simp
@[simp] theorem State.linkSend_fixed (a0 : State) (a1 : TxBody) :
    (State.linkSend a0 a1).rom = a0.rom ∧ (State.linkSend a0 a1).pending = a0.pending := by
  unfold State.linkSend
  simp
@[simp] theorem State.raiseIrq_fixed (a0 : State) (a1 : ℕ) (a2 : ℕ) :
    (State.raiseIrq a0 a1 a2).rom = a0.rom ∧ (State.raiseIrq a0 a1 a2).pending = a0.pending := by
  unfold State.raiseIrq
  simp
@[simp] theorem State.acceptRec_fixed (a0 : State) (a1 : ℕ) (a2 : PortRec) :
    (State.acceptRec a0 a1 a2).rom = a0.rom ∧ (State.acceptRec a0 a1 a2).pending = a0.pending := by
  unfold State.acceptRec
  simp
@[simp] theorem State.takeOwn_fixed (a0 : State) (a1 : ℕ) (a2 : LateRec) :
    (State.takeOwn a0 a1 a2).rom = a0.rom ∧ (State.takeOwn a0 a1 a2).pending = a0.pending := by
  unfold State.takeOwn
  (repeat' split) <;> simp
@[simp] theorem State.modRing_fixed (a0 : State) (a1 : ℕ) (a2 : Ring → Ring) :
    (State.modRing a0 a1 a2).rom = a0.rom ∧ (State.modRing a0 a1 a2).pending = a0.pending := by
  unfold State.modRing
  simp
@[simp] theorem State.holdIrq_fixed (a0 : State) (a1 : ℕ) (a2 : ℕ) :
    (State.holdIrq a0 a1 a2).rom = a0.rom ∧ (State.holdIrq a0 a1 a2).pending = a0.pending := by
  unfold State.holdIrq
  simp
@[simp] theorem State.holdRing_fixed (a0 : State) (a1 : ℕ) (a2 : Ring → Ring) :
    (State.holdRing a0 a1 a2).rom = a0.rom ∧ (State.holdRing a0 a1 a2).pending = a0.pending := by
  unfold State.holdRing
  simp
@[simp] theorem State.hcount_fixed (a0 : State) (a1 : ℕ) (a2 : ℕ) :
    (State.hcount a0 a1 a2).rom = a0.rom ∧ (State.hcount a0 a1 a2).pending = a0.pending := by
  unfold State.hcount
  simp
@[simp] theorem State.wrongPath_fixed (a0 : State) (a1 : ℕ) (a2 : MemAccess) (a3 : ℕ) :
    (State.wrongPath a0 a1 a2 a3).rom = a0.rom ∧ (State.wrongPath a0 a1 a2 a3).pending = a0.pending := by
  unfold State.wrongPath
  (repeat' split) <;> simp
@[simp] theorem State.noPoison_fixed (a0 : State) :
    (State.noPoison a0).rom = a0.rom ∧ (State.noPoison a0).pending = a0.pending := by
  unfold State.noPoison
  simp
@[simp] theorem State.l3Place_fixed (a0 : State) (a1 : ℕ) (a2 : ℕ) (a3 : ℕ) (a4 : Bool) :
    (State.l3Place a0 a1 a2 a3 a4).rom = a0.rom ∧ (State.l3Place a0 a1 a2 a3 a4).pending = a0.pending := by
  unfold State.l3Place
  simp only [rom_ite, pending_ite, fst_ite, Res.keeps_ite]
  (repeat' split) <;> simp
@[simp] theorem State.l2Evict_fixed (a0 : State) (a1 : ℕ) (a2 : CLine) :
    (State.l2Evict a0 a1 a2).rom = a0.rom ∧ (State.l2Evict a0 a1 a2).pending = a0.pending := by
  unfold State.l2Evict
  simp
@[simp] theorem State.l2Install_fixed (a0 : State) (a1 : ℕ) (a2 : ℕ) (a3 : ℕ) (a4 : Bool) :
    (State.l2Install a0 a1 a2 a3 a4).rom = a0.rom ∧ (State.l2Install a0 a1 a2 a3 a4).pending = a0.pending := by
  unfold State.l2Install
  (repeat' split) <;> simp
@[simp] theorem State.l1Install_fixed (a0 : State) (a1 : Bool) (a2 : ℕ) (a3 : ℕ) (a4 : Bool) :
    (State.l1Install a0 a1 a2 a3 a4).rom = a0.rom ∧ (State.l1Install a0 a1 a2 a3 a4).pending = a0.pending := by
  unfold State.l1Install
  simp
@[simp] theorem State.lookup_fixed (a0 : State) (a1 : ℕ) (a2 : ℕ) (a3 : Bool) (a4 : Bool) :
    (State.lookup a0 a1 a2 a3 a4).1.rom = a0.rom ∧ (State.lookup a0 a1 a2 a3 a4).1.pending = a0.pending := by
  unfold State.lookup
  simp only [rom_ite, pending_ite, fst_ite, Res.keeps_ite]
  (repeat' split) <;> simp
@[simp] theorem State.hartTrap_fixed (a0 : State) (a1 : ℕ) (a2 : ℕ) (a3 : ℕ) :
    (State.hartTrap a0 a1 a2 a3).rom = a0.rom ∧ (State.hartTrap a0 a1 a2 a3).pending = a0.pending := by
  unfold State.hartTrap
  simp
@[simp] theorem State.gRec_fixed (a0 : State) (a1 : GarRec) :
    (State.gRec a0 a1).rom = a0.rom ∧ (State.gRec a0 a1).pending = a0.pending := by
  unfold State.gRec
  simp
@[simp] theorem State.gEvt_fixed (a0 : State) (a1 : ℕ) (a2 : ℕ) (a3 : Code) (a4 : ℕ) (a5 : ℕ) (a6 : ℕ) (a7 : ℕ) :
    (State.gEvt a0 a1 a2 a3 a4 a5 a6 a7).rom = a0.rom ∧ (State.gEvt a0 a1 a2 a3 a4 a5 a6 a7).pending = a0.pending := by
  unfold State.gEvt
  simp
@[simp] theorem State.portErr_fixed (a0 : State) (a1 : ℕ) (a2 : ℕ) :
    (State.portErr a0 a1 a2).rom = a0.rom ∧ (State.portErr a0 a1 a2).pending = a0.pending := by
  unfold State.portErr
  simp
@[simp] theorem State.pcieSend_fixed (a0 : State) (a1 : PcieTx) :
    (State.pcieSend a0 a1).rom = a0.rom ∧ (State.pcieSend a0 a1).pending = a0.pending := by
  unfold State.pcieSend
  simp
@[simp] theorem State.setPtag_fixed (a0 : State) (a1 : ℕ) (a2 : Option PTag) :
    (State.setPtag a0 a1 a2).rom = a0.rom ∧ (State.setPtag a0 a1 a2).pending = a0.pending := by
  unfold State.setPtag
  simp
@[simp] theorem State.pciAccess_fixed (a0 : State) (a1 : ℕ) (a2 : MemAccess) (a3 : ℕ) (a4 : ℕ) :
    (State.pciAccess a0 a1 a2 a3 a4).rom = a0.rom ∧ (State.pciAccess a0 a1 a2 a3 a4).pending = a0.pending := by
  unfold State.pciAccess
  simp only [rom_ite, pending_ite, fst_ite, Res.keeps_ite]
  (repeat' split) <;> simp
@[simp] theorem State.setMbx_fixed (a0 : State) (a1 : ℕ) (a2 : Mbx) :
    (State.setMbx a0 a1 a2).rom = a0.rom ∧ (State.setMbx a0 a1 a2).pending = a0.pending := by
  unfold State.setMbx
  simp
@[simp] theorem State.mbxRefuse_fixed (a0 : State) (a1 : ℕ) (a2 : ℕ) :
    (State.mbxRefuse a0 a1 a2).rom = a0.rom ∧ (State.mbxRefuse a0 a1 a2).pending = a0.pending := by
  unfold State.mbxRefuse
  simp
@[simp] theorem State.mbxData_fixed (a0 : State) (a1 : ℕ) (a2 : ℕ) (a3 : ℕ) (a4 : W32) :
    (State.mbxData a0 a1 a2 a3 a4).rom = a0.rom ∧ (State.mbxData a0 a1 a2 a3 a4).pending = a0.pending := by
  unfold State.mbxData
  simp
@[simp] theorem State.mbxClear_fixed (a0 : State) (a1 : ℕ) (a2 : ℕ) :
    (State.mbxClear a0 a1 a2).rom = a0.rom ∧ (State.mbxClear a0 a1 a2).pending = a0.pending := by
  unfold State.mbxClear
  simp
@[simp] theorem State.mbxGo_fixed (a0 : State) (a1 : ℕ) (a2 : ℕ) (a3 : ℕ) :
    (State.mbxGo a0 a1 a2 a3).rom = a0.rom ∧ (State.mbxGo a0 a1 a2 a3).pending = a0.pending := by
  unfold State.mbxGo
  simp
@[simp] theorem State.mbxIrq_fixed (a0 : State) (a1 : ℕ) :
    (State.mbxIrq a0 a1).rom = a0.rom ∧ (State.mbxIrq a0 a1).pending = a0.pending := by
  unfold State.mbxIrq
  simp
@[simp] theorem State.mbxAck_fixed (a0 : State) (a1 : ℕ) (a2 : ℕ) (a3 : ℕ) (a4 : ℕ) :
    (State.mbxAck a0 a1 a2 a3 a4).rom = a0.rom ∧ (State.mbxAck a0 a1 a2 a3 a4).pending = a0.pending := by
  unfold State.mbxAck
  simp
@[simp] theorem State.mbxExtend_fixed (a0 : State) (a1 : ℕ) (a2 : ℕ) (a3 : ℕ) :
    (State.mbxExtend a0 a1 a2 a3).rom = a0.rom ∧ (State.mbxExtend a0 a1 a2 a3).pending = a0.pending := by
  unfold State.mbxExtend
  simp
@[simp] theorem State.mbxWrite_fixed (a0 : State) (a1 : ℕ) (a2 : ℕ) (a3 : ℕ) (a4 : ℕ) :
    (State.mbxWrite a0 a1 a2 a3 a4).rom = a0.rom ∧ (State.mbxWrite a0 a1 a2 a3 a4).pending = a0.pending := by
  unfold State.mbxWrite
  simp only [rom_ite, pending_ite, fst_ite, Res.keeps_ite]
  (repeat' split) <;> simp
@[simp] theorem State.lockWrite_fixed (a0 : State) (a1 : ℕ) (a2 : ℕ) :
    (State.lockWrite a0 a1 a2).rom = a0.rom ∧ (State.lockWrite a0 a1 a2).pending = a0.pending := by
  unfold State.lockWrite
  simp
@[simp] theorem State.plainWrite_fixed (a0 : State) (a1 : ℕ) (a2 : ℕ) :
    (State.plainWrite a0 a1 a2).rom = a0.rom ∧ (State.plainWrite a0 a1 a2).pending = a0.pending := by
  unfold State.plainWrite
  (repeat' split) <;> simp
@[simp] theorem State.pwrWrite_fixed (a0 : State) (a1 : Agent) (a2 : State → State) (hf : ∀ x, (a2 x ).rom = x.rom ∧ (a2 x ).pending = x.pending) :
    (State.pwrWrite a0 a1 a2).keeps a0 := by
  unfold State.pwrWrite
  (repeat' split) <;> simp_all
@[simp] theorem State.warmLane_fixed (a0 : State) (a1 : ℕ) :
    (State.warmLane a0 a1).rom = a0.rom ∧ (State.warmLane a0 a1).pending = a0.pending := by
  unfold State.warmLane
  simp
@[simp] theorem State.issueWrite_fixed (a0 : State) (a1 : WEntry) :
    (State.issueWrite a0 a1).rom = a0.rom ∧ (State.issueWrite a0 a1).pending = a0.pending := by
  unfold State.issueWrite
  simp
@[simp] theorem State.witnessRing_fixed (a0 : State) (a1 : ℕ) :
    (State.witnessRing a0 a1).rom = a0.rom ∧ (State.witnessRing a0 a1).pending = a0.pending := by
  unfold State.witnessRing
  simp
@[simp] theorem State.mbxExpire_fixed (a0 : State) (a1 : ℕ) (a2 : ℕ) :
    (State.mbxExpire a0 a1 a2).rom = a0.rom ∧ (State.mbxExpire a0 a1 a2).pending = a0.pending := by
  unfold State.mbxExpire
  simp
@[simp] theorem State.mbxAgentReset_fixed (a0 : State) (a1 : ℕ) (a2 : ℕ) :
    (State.mbxAgentReset a0 a1 a2).rom = a0.rom ∧ (State.mbxAgentReset a0 a1 a2).pending = a0.pending := by
  unfold State.mbxAgentReset
  simp
@[simp] theorem State.agentReset_fixed (a0 : State) (a1 : ℕ) :
    (State.agentReset a0 a1).rom = a0.rom ∧ (State.agentReset a0 a1).pending = a0.pending := by
  unfold State.agentReset
  simp
@[simp] theorem State.leaseReq_fixed (a0 : State) (a1 : ℕ) :
    (State.leaseReq a0 a1).rom = a0.rom ∧ (State.leaseReq a0 a1).pending = a0.pending := by
  unfold State.leaseReq
  simp
@[simp] theorem State.setPairCode_fixed (a0 : State) (a1 : ℕ) :
    (State.setPairCode a0 a1).rom = a0.rom ∧ (State.setPairCode a0 a1).pending = a0.pending := by
  unfold State.setPairCode
  simp
@[simp] theorem State.massReset_fixed (a0 : State) (a1 : ℕ → Bool) :
    (State.massReset a0 a1).rom = a0.rom ∧ (State.massReset a0 a1).pending = a0.pending := by
  unfold State.massReset
  simp
@[simp] theorem State.applyHome_fixed (a0 : State) (a1 : ℕ) :
    (State.applyHome a0 a1).rom = a0.rom ∧ (State.applyHome a0 a1).pending = a0.pending := by
  unfold State.applyHome
  simp
@[simp] theorem State.mainReset_fixed (a0 : State) :
    (State.mainReset a0).rom = a0.rom ∧ (State.mainReset a0).pending = a0.pending := by
  unfold State.mainReset
  simp
@[simp] theorem execSdReq_fixed (a0 : Agent) (a1 : State) :
    (execSdReq a0 a1).keeps a1 := by
  unfold execSdReq
  simp
@[simp] theorem State.sealStore_fixed (a0 : State) :
    (State.sealStore a0).rom = a0.rom ∧ (State.sealStore a0).pending = a0.pending := by
  unfold State.sealStore
  simp
@[simp] theorem execPowerOff_fixed (a0 : Agent) (a1 : State) :
    (execPowerOff a0 a1).keeps a1 := by
  unfold execPowerOff
  simp
@[simp] theorem State.setTdp_fixed (a0 : State) (a1 : ℕ) :
    (State.setTdp a0 a1).rom = a0.rom ∧ (State.setTdp a0 a1).pending = a0.pending := by
  unfold State.setTdp
  simp
@[simp] theorem State.hartReset_fixed (a0 : State) (a1 : ℕ) :
    (State.hartReset a0 a1).rom = a0.rom ∧ (State.hartReset a0 a1).pending = a0.pending := by
  unfold State.hartReset
  simp
@[simp] theorem State.setField_fixed (a0 : State) (a1 : ℕ) (a2 : ℕ) (a3 : ℕ) (a4 : ℕ) :
    (State.setField a0 a1 a2 a3 a4).rom = a0.rom ∧ (State.setField a0 a1 a2 a3 a4).pending = a0.pending := by
  unfold State.setField
  simp
@[simp] theorem State.refuse_fixed (a0 : State) (a1 : ℕ) (a2 : ℕ) (a3 : Bool) :
    (State.refuse a0 a1 a2 a3).rom = a0.rom ∧ (State.refuse a0 a1 a2 a3).pending = a0.pending := by
  unfold State.refuse
  simp
@[simp] theorem State.dmcAccess_fixed (a0 : State) (a1 : Agent) (a2 : ℕ) (a3 : ℕ) (a4 : State → State) (hf : ∀ x, (a4 x ).rom = x.rom ∧ (a4 x ).pending = x.pending) :
    (State.dmcAccess a0 a1 a2 a3 a4).keeps a0 := by
  unfold State.dmcAccess
  (repeat' split) <;> simp_all
@[simp] theorem State.setDmc_fixed (a0 : State) (a1 : ℕ) (a2 : Dmc) :
    (State.setDmc a0 a1 a2).rom = a0.rom ∧ (State.setDmc a0 a1 a2).pending = a0.pending := by
  unfold State.setDmc
  simp
@[simp] theorem State.modDmc_fixed (a0 : State) (a1 : ℕ) (a2 : Dmc → Dmc) :
    (State.modDmc a0 a1 a2).rom = a0.rom ∧ (State.modDmc a0 a1 a2).pending = a0.pending := by
  unfold State.modDmc
  simp
@[simp] theorem execTrainNow_fixed (a0 : Agent) (a1 : ChanId) (a2 : State) :
    (execTrainNow a0 a1 a2).keeps a2 := by
  unfold execTrainNow
  simp
@[simp] theorem State.freqStart_fixed (a0 : State) (a1 : ℕ) (a2 : ℕ) (a3 : Bool) :
    (State.freqStart a0 a1 a2 a3).rom = a0.rom ∧ (State.freqStart a0 a1 a2 a3).pending = a0.pending := by
  unfold State.freqStart
  simp
@[simp] theorem execFreqReq_fixed (a0 : Agent) (a1 : ChanId) (a2 : W32) (a3 : State) :
    (execFreqReq a0 a1 a2 a3).keeps a3 := by
  unfold execFreqReq
  simp
@[simp] theorem State.imsicWrite_fixed (a0 : State) (a1 : ℕ) (a2 : ℕ) :
    (State.imsicWrite a0 a1 a2).rom = a0.rom ∧ (State.imsicWrite a0 a1 a2).pending = a0.pending := by
  unfold State.imsicWrite
  simp
@[simp] theorem State.setLreg_fixed (a0 : State) (a1 : ℕ) (a2 : ℕ) (a3 : ℕ) :
    (State.setLreg a0 a1 a2 a3).rom = a0.rom ∧ (State.setLreg a0 a1 a2 a3).pending = a0.pending := by
  unfold State.setLreg
  simp
@[simp] theorem State.startReset_fixed (a0 : State) (a1 : ℕ) (a2 : ℕ) :
    (State.startReset a0 a1 a2).rom = a0.rom ∧ (State.startReset a0 a1 a2).pending = a0.pending := by
  unfold State.startReset
  simp
@[simp] theorem State.hshCons_fixed (a0 : State) (a1 : ℕ) (a2 : ℕ) (a3 : W32) :
    (State.hshCons a0 a1 a2 a3).rom = a0.rom ∧ (State.hshCons a0 a1 a2 a3).pending = a0.pending := by
  unfold State.hshCons
  simp
@[simp] theorem State.rshProd_fixed (a0 : State) (a1 : ℕ) (a2 : ℕ) (a3 : W32) :
    (State.rshProd a0 a1 a2 a3).rom = a0.rom ∧ (State.rshProd a0 a1 a2 a3).pending = a0.pending := by
  unfold State.rshProd
  simp
@[simp] theorem State.laneCtlWrite_fixed (a0 : State) (a1 : ℕ) (a2 : ℕ) (a3 : ℕ) (a4 : ℕ) :
    (State.laneCtlWrite a0 a1 a2 a3 a4).rom = a0.rom ∧ (State.laneCtlWrite a0 a1 a2 a3 a4).pending = a0.pending := by
  unfold State.laneCtlWrite
  simp
@[simp] theorem execDrainRetire_fixed (a0 : Agent) (a1 : RingId) (a2 : W32) (a3 : State) :
    (execDrainRetire a0 a1 a2 a3).keeps a3 := by
  unfold execDrainRetire
  simp
@[simp] theorem State.moveDone_fixed (a0 : State) (a1 : ℕ) :
    (State.moveDone a0 a1).rom = a0.rom ∧ (State.moveDone a0 a1).pending = a0.pending := by
  unfold State.moveDone
  simp
@[simp] theorem State.reassign_fixed (a0 : State) (a1 : ℕ) (a2 : ℕ) :
    (State.reassign a0 a1 a2).rom = a0.rom ∧ (State.reassign a0 a1 a2).pending = a0.pending := by
  unfold State.reassign
  simp
@[simp] theorem State.setArk_fixed (a0 : State) (a1 : ℕ) (a2 : Ark) :
    (State.setArk a0 a1 a2).rom = a0.rom ∧ (State.setArk a0 a1 a2).pending = a0.pending := by
  unfold State.setArk
  simp
@[simp] theorem State.arkEn_fixed (a0 : State) (a1 : ℕ) (a2 : Bool) :
    (State.arkEn a0 a1 a2).rom = a0.rom ∧ (State.arkEn a0 a1 a2).pending = a0.pending := by
  unfold State.arkEn
  simp
@[simp] theorem State.arkAbort_fixed (a0 : State) (a1 : ℕ) :
    (State.arkAbort a0 a1).rom = a0.rom ∧ (State.arkAbort a0 a1).pending = a0.pending := by
  unfold State.arkAbort
  simp
@[simp] theorem State.arkWrite_fixed (a0 : State) (a1 : ℕ) (a2 : ℕ) (a3 : ℕ) :
    (State.arkWrite a0 a1 a2 a3).rom = a0.rom ∧ (State.arkWrite a0 a1 a2 a3).pending = a0.pending := by
  unfold State.arkWrite
  simp
@[simp] theorem State.hdmaWrite_fixed (a0 : State) (a1 : ℕ) (a2 : ℕ) (a3 : ℕ) (a4 : ℕ) :
    (State.hdmaWrite a0 a1 a2 a3 a4).rom = a0.rom ∧ (State.hdmaWrite a0 a1 a2 a3 a4).pending = a0.pending := by
  unfold State.hdmaWrite
  (repeat' split) <;> simp
@[simp] theorem State.setPfn_fixed (a0 : State) (a1 : ℕ) (a2 : PFn) :
    (State.setPfn a0 a1 a2).rom = a0.rom ∧ (State.setPfn a0 a1 a2).pending = a0.pending := by
  unfold State.setPfn
  simp
@[simp] theorem State.msixFlush_fixed (a0 : State) (a1 : ℕ) :
    (State.msixFlush a0 a1).rom = a0.rom ∧ (State.msixFlush a0 a1).pending = a0.pending := by
  unfold State.msixFlush
  simp
@[simp] theorem State.setMsixWord_fixed (a0 : State) (a1 : ℕ) (a2 : ℕ) (a3 : ℕ) :
    (State.setMsixWord a0 a1 a2 a3).rom = a0.rom ∧ (State.setMsixWord a0 a1 a2 a3).pending = a0.pending := by
  unfold State.setMsixWord
  simp
@[simp] theorem State.setIom_fixed (a0 : State) (a1 : ℕ) (a2 : ℕ) :
    (State.setIom a0 a1 a2).rom = a0.rom ∧ (State.setIom a0 a1 a2).pending = a0.pending := by
  unfold State.setIom
  simp
@[simp] theorem State.snoopOut_fixed (a0 : State) (a1 : ℕ) (a2 : Option ℕ) :
    (State.snoopOut a0 a1 a2).rom = a0.rom ∧ (State.snoopOut a0 a1 a2).pending = a0.pending := by
  unfold State.snoopOut
  simp
@[simp] theorem State.present_fixed (a0 : State) (a1 : ℕ) (a2 : PortRec) :
    (State.present a0 a1 a2).rom = a0.rom ∧ (State.present a0 a1 a2).pending = a0.pending := by
  unfold State.present
  simp
@[simp] theorem State.policyRecO_fixed (a0 : State) (a1 : ℕ) (a2 : ℕ) (a3 : ℕ) (a4 : List ℕ) (a5 : ℕ) (a6 : Bytes) (a7 : Bytes) :
    (State.policyRecO a0 a1 a2 a3 a4 a5 a6 a7).rom = a0.rom ∧ (State.policyRecO a0 a1 a2 a3 a4 a5 a6 a7).pending = a0.pending := by
  unfold State.policyRecO
  simp
@[simp] theorem State.policyRec_fixed (a0 : State) (a1 : ℕ) (a2 : ℕ) (a3 : ℕ) (a4 : ℕ) (a5 : Bytes) (a6 : Bytes) :
    (State.policyRec a0 a1 a2 a3 a4 a5 a6).rom = a0.rom ∧ (State.policyRec a0 a1 a2 a3 a4 a5 a6).pending = a0.pending := by
  unfold State.policyRec
  simp
@[simp] theorem State.setSlot_fixed (a0 : State) (a1 : ℕ) (a2 : KeySlot) :
    (State.setSlot a0 a1 a2).rom = a0.rom ∧ (State.setSlot a0 a1 a2).pending = a0.pending := by
  unfold State.setSlot
  simp
@[simp] theorem State.descUpdate_fixed (a0 : State) :
    (State.descUpdate a0).rom = a0.rom ∧ (State.descUpdate a0).pending = a0.pending := by
  unfold State.descUpdate
  simp
@[simp] theorem State.lockRead_fixed (a0 : State) (a1 : ℕ) (a2 : ℕ) :
    (State.lockRead a0 a1 a2).1.rom = a0.rom ∧ (State.lockRead a0 a1 a2).1.pending = a0.pending := by
  unfold State.lockRead
  (repeat' split) <;> simp
@[simp] theorem State.answer_fixed (a0 : State) (a1 : ℕ) (a2 : ℕ) :
    (State.answer a0 a1 a2).rom = a0.rom ∧ (State.answer a0 a1 a2).pending = a0.pending := by
  unfold State.answer
  simp
@[simp] theorem State.mbxRx_fixed (a0 : State) (a1 : ℕ) (a2 : ℕ) :
    (State.mbxRx a0 a1 a2).rom = a0.rom ∧ (State.mbxRx a0 a1 a2).pending = a0.pending := by
  unfold State.mbxRx
  simp
@[simp] theorem State.regRead_fixed (a0 : State) (a1 : ℕ) (a2 : ℕ) (a3 : ℕ) :
    (State.regRead a0 a1 a2 a3).1.rom = a0.rom ∧ (State.regRead a0 a1 a2 a3).1.pending = a0.pending := by
  unfold State.regRead
  (repeat' split) <;> simp
@[simp] theorem State.ioRead_fixed (a0 : State) (a1 : ℕ) (a2 : ℕ) (a3 : ℕ) (a4 : Bool) :
    (State.ioRead a0 a1 a2 a3 a4).1.rom = a0.rom ∧ (State.ioRead a0 a1 a2 a3 a4).1.pending = a0.pending := by
  unfold State.ioRead
  simp only [rom_ite, pending_ite, fst_ite, Res.keeps_ite]
  (repeat' split) <;> simp
@[simp] theorem State.ackMsg_fixed (a0 : State) (a1 : ℕ) (a2 : ℕ) :
    (State.ackMsg a0 a1 a2).rom = a0.rom ∧ (State.ackMsg a0 a1 a2).pending = a0.pending := by
  unfold State.ackMsg
  simp
@[simp] theorem State.retransmit_fixed (a0 : State) (a1 : ℕ) (a2 : ℕ) :
    (State.retransmit a0 a1 a2).1.rom = a0.rom ∧ (State.retransmit a0 a1 a2).1.pending = a0.pending := by
  unfold State.retransmit
  (repeat' split) <;> simp
@[simp] theorem State.drew_fixed (a0 : State) :
    (State.drew a0).rom = a0.rom ∧ (State.drew a0).pending = a0.pending := by
  unfold State.drew
  simp
@[simp] theorem State.activate_fixed (a0 : State) (a1 : ℕ) (a2 : ℕ) :
    (State.activate a0 a1 a2).rom = a0.rom ∧ (State.activate a0 a1 a2).pending = a0.pending := by
  unfold State.activate
  simp
@[simp] theorem State.activateMirror_fixed (a0 : State) (a1 : ℕ) :
    (State.activateMirror a0 a1).rom = a0.rom ∧ (State.activateMirror a0 a1).pending = a0.pending := by
  unfold State.activateMirror
  simp
@[simp] theorem State.addCtl_fixed (a0 : State) (a1 : CtlChange) :
    (State.addCtl a0 a1).rom = a0.rom ∧ (State.addCtl a0 a1).pending = a0.pending := by
  unfold State.addCtl
  simp
@[simp] theorem State.admitBoundary_fixed (a0 : State) (a1 : ℕ) :
    (State.admitBoundary a0 a1).rom = a0.rom ∧ (State.admitBoundary a0 a1).pending = a0.pending := by
  unfold State.admitBoundary
  simp
@[simp] theorem State.admitShed_fixed (a0 : State) (a1 : ℕ) (a2 : Cand) :
    (State.admitShed a0 a1 a2).rom = a0.rom ∧ (State.admitShed a0 a1 a2).pending = a0.pending := by
  unfold State.admitShed
  simp
@[simp] theorem State.announce_fixed (a0 : State) :
    (State.announce a0).rom = a0.rom ∧ (State.announce a0).pending = a0.pending := by
  unfold State.announce
  simp
@[simp] theorem State.appliedRec_fixed (a0 : State) (a1 : ℕ) (a2 : ℕ) (a3 : Item) (a4 : List ℕ) (a5 : Bytes) :
    (State.appliedRec a0 a1 a2 a3 a4 a5).rom = a0.rom ∧ (State.appliedRec a0 a1 a2 a3 a4 a5).pending = a0.pending := by
  unfold State.appliedRec
  simp
@[simp] theorem State.setOwn_fixed (a0 : State) (a1 : ℕ) (a2 : ℕ) (a3 : Bytes) :
    (State.setOwn a0 a1 a2 a3).rom = a0.rom ∧ (State.setOwn a0 a1 a2 a3).pending = a0.pending := by
  unfold State.setOwn
  simp
@[simp] theorem State.moveSlot_fixed (a0 : State) (a1 : ℕ) (a2 : ℕ) :
    (State.moveSlot a0 a1 a2).rom = a0.rom ∧ (State.moveSlot a0 a1 a2).pending = a0.pending := by
  unfold State.moveSlot
  simp
@[simp] theorem State.applyDomain_fixed (a0 : State) (a1 : DomainCfg) :
    (State.applyDomain a0 a1).rom = a0.rom ∧ (State.applyDomain a0 a1).pending = a0.pending := by
  unfold State.applyDomain
  simp
@[simp] theorem State.retry_fixed (a0 : State) (a1 : Item) :
    (State.retry a0 a1).rom = a0.rom ∧ (State.retry a0 a1).pending = a0.pending := by
  unfold State.retry
  simp
@[simp] theorem State.installKey_fixed (a0 : State) (a1 : ℕ) (a2 : ℕ) (a3 : ℕ) (a4 : ℕ) (a5 : Bytes) :
    (State.installKey a0 a1 a2 a3 a4 a5).rom = a0.rom ∧ (State.installKey a0 a1 a2 a3 a4 a5).pending = a0.pending := by
  unfold State.installKey
  simp
@[simp] theorem State.eraseSlot_fixed (a0 : State) (a1 : ℕ) :
    (State.eraseSlot a0 a1).rom = a0.rom ∧ (State.eraseSlot a0 a1).pending = a0.pending := by
  unfold State.eraseSlot
  simp
@[simp] theorem State.zeroize_fixed (a0 : State) :
    (State.zeroize a0).rom = a0.rom ∧ (State.zeroize a0).pending = a0.pending := by
  unfold State.zeroize
  simp
@[simp] theorem State.loadLane_fixed (a0 : State) (a1 : ℕ) (a2 : Bool) (a3 : Bool) (a4 : Bytes) :
    (State.loadLane a0 a1 a2 a3 a4).rom = a0.rom ∧ (State.loadLane a0 a1 a2 a3 a4).pending = a0.pending := by
  unfold State.loadLane
  simp
@[simp] theorem State.gFreeze_fixed (a0 : State) (a1 : ℕ) (a2 : ℕ) :
    (State.gFreeze a0 a1 a2).rom = a0.rom ∧ (State.gFreeze a0 a1 a2).pending = a0.pending := by
  unfold State.gFreeze
  simp
@[simp] theorem State.setSess_fixed (a0 : State) (a1 : ℕ) (a2 : Session) :
    (State.setSess a0 a1 a2).rom = a0.rom ∧ (State.setSess a0 a1 a2).pending = a0.pending := by
  unfold State.setSess
  simp
@[simp] theorem State.snapSess_fixed (a0 : State) (a1 : ℕ) :
    (State.snapSess a0 a1).rom = a0.rom ∧ (State.snapSess a0 a1).pending = a0.pending := by
  unfold State.snapSess
  simp
@[simp] theorem State.modThr_fixed (a0 : State) (a1 : ℕ) (a2 : ℕ) (a3 : Thread → Thread) :
    (State.modThr a0 a1 a2 a3).rom = a0.rom ∧ (State.modThr a0 a1 a2 a3).pending = a0.pending := by
  unfold State.modThr
  simp
@[simp] theorem State.gMsg_fixed (a0 : State) (a1 : ℕ) (a2 : ℕ) (a3 : ℕ) (a4 : Code) (a5 : ℕ) :
    (State.gMsg a0 a1 a2 a3 a4 a5).rom = a0.rom ∧ (State.gMsg a0 a1 a2 a3 a4 a5).pending = a0.pending := by
  unfold State.gMsg
  simp
@[simp] theorem State.overrunEnd_fixed (a0 : State) (a1 : ℕ) (a2 : Phase) :
    (State.overrunEnd a0 a1 a2).rom = a0.rom ∧ (State.overrunEnd a0 a1 a2).pending = a0.pending := by
  unfold State.overrunEnd
  simp
@[simp] theorem State.phaseEnd_fixed (a0 : State) (a1 : ℕ) (a2 : ℕ) :
    (State.phaseEnd a0 a1 a2).rom = a0.rom ∧ (State.phaseEnd a0 a1 a2).pending = a0.pending := by
  unfold State.phaseEnd
  (repeat' split) <;> simp
@[simp] theorem State.modMsg_fixed (a0 : State) (a1 : ℕ) (a2 : ℕ) (a3 : Msg → Msg) :
    (State.modMsg a0 a1 a2 a3).rom = a0.rom ∧ (State.modMsg a0 a1 a2 a3).pending = a0.pending := by
  unfold State.modMsg
  simp
@[simp] theorem State.releaseEnd_fixed (a0 : State) (a1 : ℕ) (a2 : ℕ) :
    (State.releaseEnd a0 a1 a2).rom = a0.rom ∧ (State.releaseEnd a0 a1 a2).pending = a0.pending := by
  unfold State.releaseEnd
  (repeat' split) <;> simp
@[simp] theorem State.netCount_fixed (a0 : State) (a1 : ℕ) :
    (State.netCount a0 a1).rom = a0.rom ∧ (State.netCount a0 a1).pending = a0.pending := by
  unfold State.netCount
  simp
@[simp] theorem State.undeliver_fixed (a0 : State) (a1 : ℕ) (a2 : ℕ) (a3 : ℕ) :
    (State.undeliver a0 a1 a2 a3).rom = a0.rom ∧ (State.undeliver a0 a1 a2 a3).pending = a0.pending := by
  unfold State.undeliver
  (repeat' split) <;> simp
@[simp] theorem State.dropReleases_fixed (a0 : State) (a1 : ℕ) :
    (State.dropReleases a0 a1).rom = a0.rom ∧ (State.dropReleases a0 a1).pending = a0.pending := by
  unfold State.dropReleases
  simp
@[simp] theorem State.freeSess_fixed (a0 : State) (a1 : ℕ) (a2 : ℕ) :
    (State.freeSess a0 a1 a2).rom = a0.rom ∧ (State.freeSess a0 a1 a2).pending = a0.pending := by
  unfold State.freeSess
  simp
@[simp] theorem State.pauseFlush_fixed (a0 : State) :
    (State.pauseFlush a0).rom = a0.rom ∧ (State.pauseFlush a0).pending = a0.pending := by
  unfold State.pauseFlush
  simp
@[simp] theorem State.send_fixed (a0 : State) (a1 : ℕ) (a2 : NetTx) :
    (State.send a0 a1 a2).rom = a0.rom ∧ (State.send a0 a1 a2).pending = a0.pending := by
  unfold State.send
  simp
@[simp] theorem State.closeRst_fixed (a0 : State) (a1 : ℕ) (a2 : ℕ) :
    (State.closeRst a0 a1 a2).rom = a0.rom ∧ (State.closeRst a0 a1 a2).pending = a0.pending := by
  unfold State.closeRst
  simp
@[simp] theorem State.netAfter_fixed (a0 : State) (a1 : State) :
    (State.netAfter a0 a1).rom = a0.rom ∧ (State.netAfter a0 a1).pending = a0.pending := by
  unfold State.netAfter
  simp
@[simp] theorem State.freeReserve_fixed (a0 : State) (a1 : Item) :
    (State.freeReserve a0 a1).rom = a0.rom ∧ (State.freeReserve a0 a1).pending = a0.pending := by
  unfold State.freeReserve
  simp
@[simp] theorem State.setTicket_fixed (a0 : State) (a1 : Ticket) :
    (State.setTicket a0 a1).rom = a0.rom ∧ (State.setTicket a0 a1).pending = a0.pending := by
  unfold State.setTicket
  simp
@[simp] theorem State.refuseTicket_fixed (a0 : State) (a1 : Ticket) (a2 : ℕ) (a3 : ℕ) :
    (State.refuseTicket a0 a1 a2 a3).rom = a0.rom ∧ (State.refuseTicket a0 a1 a2 a3).pending = a0.pending := by
  unfold State.refuseTicket
  simp
@[simp] theorem State.arkBad_fixed (a0 : State) (a1 : ℕ) (a2 : ArkAcc) (a3 : ℕ) (a4 : ℕ) :
    (State.arkBad a0 a1 a2 a3 a4).1.rom = a0.rom ∧ (State.arkBad a0 a1 a2 a3 a4).1.pending = a0.pending := by
  unfold State.arkBad
  simp
@[simp] theorem State.arkStart_fixed (a0 : State) (a1 : ℕ) (a2 : ℕ) (a3 : List ℕ) (a4 : Bool) :
    (State.arkStart a0 a1 a2 a3 a4).keeps a0 := by
  unfold State.arkStart
  simp
@[simp] theorem State.vendorDo_fixed (a0 : State) (a1 : ℕ) (a2 : Option ℕ) (a3 : Option ℕ) (a4 : Option ℕ) (a5 : State → Hart → State) (hf : ∀ x y1, (a5 x y1).rom = x.rom ∧ (a5 x y1).pending = x.pending) :
    (State.vendorDo a0 a1 a2 a3 a4 a5).rom = a0.rom ∧ (State.vendorDo a0 a1 a2 a3 a4 a5).pending = a0.pending := by
  unfold State.vendorDo
  (repeat' split) <;> simp_all
@[simp] theorem State.hartRet_fixed (a0 : State) (a1 : ℕ) (a2 : ℕ) (a3 : ℕ) :
    (State.hartRet a0 a1 a2 a3).rom = a0.rom ∧ (State.hartRet a0 a1 a2 a3).pending = a0.pending := by
  unfold State.hartRet
  simp
@[simp] theorem State.beatRead_fixed (a0 : State) (a1 : HartId) (a2 : XReg) :
    (State.beatRead a0 a1 a2).rom = a0.rom ∧ (State.beatRead a0 a1 a2).pending = a0.pending := by
  unfold State.beatRead
  simp
@[simp] theorem State.beatSend_fixed (a0 : State) :
    (State.beatSend a0).rom = a0.rom ∧ (State.beatSend a0).pending = a0.pending := by
  unfold State.beatSend
  simp
@[simp] theorem State.setHd_fixed (a0 : State) (a1 : ℕ) (a2 : Hdma) :
    (State.setHd a0 a1 a2).rom = a0.rom ∧ (State.setHd a0 a1 a2).pending = a0.pending := by
  unfold State.setHd
  simp
@[simp] theorem State.fnStop_fixed (a0 : State) (a1 : ℕ) (a2 : ℕ) :
    (State.fnStop a0 a1 a2).rom = a0.rom ∧ (State.fnStop a0 a1 a2).pending = a0.pending := by
  unfold State.fnStop
  simp
@[simp] theorem State.bmeClear_fixed (a0 : State) (a1 : ℕ) (a2 : Bool) :
    (State.bmeClear a0 a1 a2).rom = a0.rom ∧ (State.bmeClear a0 a1 a2).pending = a0.pending := by
  unfold State.bmeClear
  simp
@[simp] theorem State.burClear_fixed (a0 : State) (a1 : ℕ) (a2 : ℕ) :
    (State.burClear a0 a1 a2).rom = a0.rom ∧ (State.burClear a0 a1 a2).pending = a0.pending := by
  unfold State.burClear
  simp
@[simp] theorem State.keyRefused_fixed (a0 : State) (a1 : ℕ) (a2 : ℕ) (a3 : ℕ) (a4 : ℕ) :
    (State.keyRefused a0 a1 a2 a3 a4).rom = a0.rom ∧ (State.keyRefused a0 a1 a2 a3 a4).pending = a0.pending := by
  unfold State.keyRefused
  simp only [rom_ite, pending_ite, fst_ite, Res.keeps_ite]
  (repeat' split) <;> simp
@[simp] theorem State.countUse_fixed (a0 : State) (a1 : ℕ) (a2 : ℕ) (a3 : ℕ) :
    (State.countUse a0 a1 a2 a3).rom = a0.rom ∧ (State.countUse a0 a1 a2 a3).pending = a0.pending := by
  unfold State.countUse
  simp
@[simp] theorem State.burStart_fixed (a0 : State) (a1 : ℕ) (a2 : ℕ) (a3 : List ℕ) :
    (State.burStart a0 a1 a2 a3).rom = a0.rom ∧ (State.burStart a0 a1 a2 a3).pending = a0.pending := by
  unfold State.burStart
  simp only [rom_ite, pending_ite, fst_ite, Res.keeps_ite]
  (repeat' split) <;> simp
@[simp] theorem State.proofDone_fixed (a0 : State) (a1 : ℕ) (a2 : ℕ) (a3 : ℕ) (a4 : Code) (a5 : Bytes) :
    (State.proofDone a0 a1 a2 a3 a4 a5).rom = a0.rom ∧ (State.proofDone a0 a1 a2 a3 a4 a5).pending = a0.pending := by
  unfold State.proofDone
  simp only [rom_ite, pending_ite, fst_ite, Res.keeps_ite]
  (repeat' split) <;> simp
@[simp] theorem State.reserveDone_fixed (a0 : State) (a1 : ReserveUnit) (a2 : ℕ) (a3 : ℕ) (a4 : ℕ) (a5 : Code) (a6 : Bytes) :
    (State.reserveDone a0 a1 a2 a3 a4 a5 a6).rom = a0.rom ∧ (State.reserveDone a0 a1 a2 a3 a4 a5 a6).pending = a0.pending := by
  unfold State.reserveDone
  (repeat' split) <;> simp
@[simp] theorem State.tagDone_fixed (a0 : State) (a1 : ℕ) (a2 : ℕ) (a3 : Code) (a4 : Option (ℕ × D64)) :
    (State.tagDone a0 a1 a2 a3 a4).rom = a0.rom ∧ (State.tagDone a0 a1 a2 a3 a4).pending = a0.pending := by
  unfold State.tagDone
  simp only [rom_ite, pending_ite, fst_ite, Res.keeps_ite]
  (repeat' split) <;> simp
@[simp] theorem State.burEnd_fixed (a0 : State) (a1 : ℕ) (a2 : ℕ) (a3 : BurRun) (a4 : ℕ) (a5 : Code) (a6 : ℕ) (a7 : ℕ) (a8 : ℕ) (a9 : ℕ) (a10 : ℕ) :
    (State.burEnd a0 a1 a2 a3 a4 a5 a6 a7 a8 a9 a10).rom = a0.rom ∧ (State.burEnd a0 a1 a2 a3 a4 a5 a6 a7 a8 a9 a10).pending = a0.pending := by
  unfold State.burEnd
  simp
@[simp] theorem State.incField_fixed (a0 : State) (a1 : ℕ) (a2 : ℕ) (a3 : ℕ) :
    (State.incField a0 a1 a2 a3).rom = a0.rom ∧ (State.incField a0 a1 a2 a3).pending = a0.pending := by
  unfold State.incField
  simp
@[simp] theorem State.hmFail_fixed (a0 : State) (a1 : ℕ) (a2 : ℕ) (a3 : ℕ) (a4 : Code) (a5 : ℕ) :
    (State.hmFail a0 a1 a2 a3 a4 a5).rom = a0.rom ∧ (State.hmFail a0 a1 a2 a3 a4 a5).pending = a0.pending := by
  unfold State.hmFail
  simp
@[simp] theorem State.installTrans_fixed (a0 : State) (a1 : ℕ) (a2 : BurRun) (a3 : Bytes) :
    (State.installTrans a0 a1 a2 a3).1.rom = a0.rom ∧ (State.installTrans a0 a1 a2 a3).1.pending = a0.pending := by
  unfold State.installTrans
  simp
@[simp] theorem State.extend_fixed (a0 : State) (a1 : ℕ) (a2 : ℕ) (a3 : ℕ) (a4 : D64) (a5 : ℕ) (a6 : Bool) :
    (State.extend a0 a1 a2 a3 a4 a5 a6).1.rom = a0.rom ∧ (State.extend a0 a1 a2 a3 a4 a5 a6).1.pending = a0.pending := by
  unfold State.extend
  (repeat' split) <;> simp
@[simp] theorem State.burLink_fixed (a0 : State) (a1 : ℕ) (a2 : ℕ) (a3 : BurRun) (a4 : BurAns) (a5 : Bytes) :
    (State.burLink a0 a1 a2 a3 a4 a5).1.rom = a0.rom ∧ (State.burLink a0 a1 a2 a3 a4 a5).1.pending = a0.pending := by
  unfold State.burLink
  simp only [rom_ite, pending_ite, fst_ite, Res.keeps_ite]
  (repeat' split) <;> simp
@[simp] theorem State.burFinish_fixed (a0 : State) (a1 : ℕ) (a2 : ℕ) (a3 : ℕ) (a4 : BurRun) (a5 : Bool) (a6 : Bool) :
    (State.burFinish a0 a1 a2 a3 a4 a5 a6).rom = a0.rom ∧ (State.burFinish a0 a1 a2 a3 a4 a5 a6).pending = a0.pending := by
  unfold State.burFinish
  simp only [rom_ite, pending_ite, fst_ite, Res.keeps_ite]
  (repeat' split) <;> simp
@[simp] theorem State.burComplete_fixed (a0 : State) (a1 : ℕ) (a2 : ℕ) (a3 : Bool) (a4 : Bool) :
    (State.burComplete a0 a1 a2 a3 a4).rom = a0.rom ∧ (State.burComplete a0 a1 a2 a3 a4).pending = a0.pending := by
  unfold State.burComplete
  (repeat' split) <;> simp
@[simp] theorem State.dmFail_fixed (a0 : State) :
    (State.dmFail a0).rom = a0.rom ∧ (State.dmFail a0).pending = a0.pending := by
  unfold State.dmFail
  simp
@[simp] theorem State.cacheCerts_fixed (a0 : State) (a1 : Session) :
    (State.cacheCerts a0 a1).rom = a0.rom ∧ (State.cacheCerts a0 a1).pending = a0.pending := by
  unfold State.cacheCerts
  simp
@[simp] theorem State.cardErr_fixed (a0 : State) (a1 : ℕ) (a2 : ℕ) :
    (State.cardErr a0 a1 a2).rom = a0.rom ∧ (State.cardErr a0 a1 a2).pending = a0.pending := by
  unfold State.cardErr
  simp
@[simp] theorem State.reown_fixed (a0 : State) (a1 : ℕ) :
    (State.reown a0 a1).rom = a0.rom ∧ (State.reown a0 a1).pending = a0.pending := by
  unfold State.reown
  simp
@[simp] theorem State.cboDone_fixed (a0 : State) (a1 : ℕ) :
    (State.cboDone a0 a1).rom = a0.rom ∧ (State.cboDone a0 a1).pending = a0.pending := by
  unfold State.cboDone
  simp
@[simp] theorem State.cboAct_fixed (a0 : State) (a1 : ℕ) (a2 : ℕ) (a3 : ℕ) :
    (State.cboAct a0 a1 a2 a3).rom = a0.rom ∧ (State.cboAct a0 a1 a2 a3).pending = a0.pending := by
  unfold State.cboAct
  simp
@[simp] theorem State.snoopOwn_fixed (a0 : State) (a1 : ℕ) (a2 : Option ℕ) :
    (State.snoopOwn a0 a1 a2).rom = a0.rom ∧ (State.snoopOwn a0 a1 a2).pending = a0.pending := by
  unfold State.snoopOwn
  simp
@[simp] theorem State.modCel_fixed (a0 : State) (a1 : Cel → Cel) :
    (State.modCel a0 a1).rom = a0.rom ∧ (State.modCel a0 a1).pending = a0.pending := by
  unfold State.modCel
  simp
@[simp] theorem State.flrStart_fixed (a0 : State) (a1 : ℕ) :
    (State.flrStart a0 a1).rom = a0.rom ∧ (State.flrStart a0 a1).pending = a0.pending := by
  unfold State.flrStart
  simp
@[simp] theorem State.closeAlert_fixed (a0 : State) (a1 : ℕ) (a2 : ℕ) (a3 : ℕ) :
    (State.closeAlert a0 a1 a2 a3).rom = a0.rom ∧ (State.closeAlert a0 a1 a2 a3).pending = a0.pending := by
  unfold State.closeAlert
  simp
@[simp] theorem State.closeFin_fixed (a0 : State) (a1 : ℕ) (a2 : ℕ) :
    (State.closeFin a0 a1 a2).rom = a0.rom ∧ (State.closeFin a0 a1 a2).pending = a0.pending := by
  unfold State.closeFin
  simp
@[simp] theorem State.complete_fixed (a0 : State) (a1 : ℕ) (a2 : Bool) (a3 : IoAns) (a4 : Bool) :
    (State.complete a0 a1 a2 a3 a4).rom = a0.rom ∧ (State.complete a0 a1 a2 a3 a4).pending = a0.pending := by
  unfold State.complete
  (repeat' split) <;> simp
@[simp] theorem State.snapShelf_fixed (a0 : State) (a1 : ℕ) :
    (State.snapShelf a0 a1).rom = a0.rom ∧ (State.snapShelf a0 a1).pending = a0.pending := by
  unfold State.snapShelf
  simp
@[simp] theorem State.configApply_fixed (a0 : State) (a1 : ℕ) :
    (State.configApply a0 a1).rom = a0.rom ∧ (State.configApply a0 a1).pending = a0.pending := by
  unfold State.configApply
  simp
@[simp] theorem State.counter_fixed (a0 : State) (a1 : ℕ) (a2 : ℕ) :
    (State.counter a0 a1 a2).1.rom = a0.rom ∧ (State.counter a0 a1 a2).1.pending = a0.pending := by
  unfold State.counter
  (repeat' split) <;> simp
@[simp] theorem State.vcRead_fixed (a0 : State) (a1 : ℕ) (a2 : ℕ) :
    (State.vcRead a0 a1 a2).1.rom = a0.rom ∧ (State.vcRead a0 a1 a2).1.pending = a0.pending := by
  unfold State.vcRead
  simp
@[simp] theorem State.csrGet_fixed (a0 : State) (a1 : ℕ) (a2 : ℕ) :
    (State.csrGet a0 a1 a2).1.rom = a0.rom ∧ (State.csrGet a0 a1 a2).1.pending = a0.pending := by
  unfold State.csrGet
  (repeat' split) <;> simp
@[simp] theorem State.iregPut_fixed (a0 : State) (a1 : ℕ) (a2 : ℕ) (a3 : ℕ) (a4 : ℕ) (a5 : ℕ) :
    (State.iregPut a0 a1 a2 a3 a4 a5).rom = a0.rom ∧ (State.iregPut a0 a1 a2 a3 a4 a5).pending = a0.pending := by
  unfold State.iregPut
  simp
@[simp] theorem State.csrPut_fixed (a0 : State) (a1 : ℕ) (a2 : ℕ) (a3 : ℕ) :
    (State.csrPut a0 a1 a2 a3).rom = a0.rom ∧ (State.csrPut a0 a1 a2 a3).pending = a0.pending := by
  unfold State.csrPut
  simp only [rom_ite, pending_ite, fst_ite, Res.keeps_ite]
  (repeat' split) <;> simp
@[simp] theorem State.csrInsn_fixed (a0 : State) (a1 : ℕ) (a2 : ℕ) (a3 : Hart) :
    (State.csrInsn a0 a1 a2 a3).rom = a0.rom ∧ (State.csrInsn a0 a1 a2 a3).pending = a0.pending := by
  unfold State.csrInsn
  simp only [rom_ite, pending_ite, fst_ite, Res.keeps_ite]
  (repeat' split) <;> simp
@[simp] theorem State.ctlSend_fixed (a0 : State) (a1 : CtlMsg) :
    (State.ctlSend a0 a1).rom = a0.rom ∧ (State.ctlSend a0 a1).pending = a0.pending := by
  unfold State.ctlSend
  simp
@[simp] theorem State.modCtl_fixed (a0 : State) (a1 : ℕ) (a2 : ℕ) (a3 : CtlChange → CtlChange) :
    (State.modCtl a0 a1 a2 a3).rom = a0.rom ∧ (State.modCtl a0 a1 a2 a3).pending = a0.pending := by
  unfold State.modCtl
  simp
@[simp] theorem State.discard_fixed (a0 : State) (a1 : ℕ) :
    (State.discard a0 a1).rom = a0.rom ∧ (State.discard a0 a1).pending = a0.pending := by
  unfold State.discard
  simp
@[simp] theorem State.discardAcks_fixed (a0 : State) (a1 : ℕ) :
    (State.discardAcks a0 a1).rom = a0.rom ∧ (State.discardAcks a0 a1).pending = a0.pending := by
  unfold State.discardAcks
  simp
@[simp] theorem State.diverge_fixed (a0 : State) (a1 : ℕ) :
    (State.diverge a0 a1).rom = a0.rom ∧ (State.diverge a0 a1).pending = a0.pending := by
  unfold State.diverge
  simp
@[simp] theorem State.dmDeny_fixed (a0 : State) :
    (State.dmDeny a0).rom = a0.rom ∧ (State.dmDeny a0).pending = a0.pending := by
  unfold State.dmDeny
  simp
@[simp] theorem State.snoopRead_fixed (a0 : State) (a1 : ℕ) (a2 : Option ℕ) :
    (State.snoopRead a0 a1 a2).rom = a0.rom ∧ (State.snoopRead a0 a1 a2).pending = a0.pending := by
  unfold State.snoopRead
  simp
@[simp] theorem State.obtain_fixed (a0 : State) (a1 : ℕ) (a2 : ℕ) (a3 : Bool) (a4 : Bool) (a5 : Bool) :
    (State.obtain a0 a1 a2 a3 a4 a5).rom = a0.rom ∧ (State.obtain a0 a1 a2 a3 a4 a5).pending = a0.pending := by
  unfold State.obtain
  simp
@[simp] theorem State.dmFetch_fixed (a0 : State) (a1 : ℕ) (a2 : ℕ) :
    (State.dmFetch a0 a1 a2).rom = a0.rom ∧ (State.dmFetch a0 a1 a2).pending = a0.pending := by
  unfold State.dmFetch
  simp only [rom_ite, pending_ite, fst_ite, Res.keeps_ite]
  (repeat' split) <;> simp
@[simp] theorem State.dmHalt_fixed (a0 : State) (a1 : ℕ) :
    (State.dmHalt a0 a1).rom = a0.rom ∧ (State.dmHalt a0 a1).pending = a0.pending := by
  unfold State.dmHalt
  simp only [rom_ite, pending_ite, fst_ite, Res.keeps_ite]
  (repeat' split) <;> simp
@[simp] theorem State.dmHalts_fixed (a0 : State) (a1 : List ℕ) :
    (State.dmHalts a0 a1).rom = a0.rom ∧ (State.dmHalts a0 a1).pending = a0.pending := by
  unfold State.dmHalts
  simp
@[simp] theorem State.dmResumes_fixed (a0 : State) (a1 : List ℕ) :
    (State.dmResumes a0 a1).rom = a0.rom ∧ (State.dmResumes a0 a1).pending = a0.pending := by
  unfold State.dmResumes
  simp
@[simp] theorem State.dmcEvent_fixed (a0 : State) (a1 : ℕ) (a2 : ℕ) :
    (State.dmcEvent a0 a1 a2).rom = a0.rom ∧ (State.dmcEvent a0 a1 a2).pending = a0.pending := by
  unfold State.dmcEvent
  simp
@[simp] theorem State.dmcHist_fixed (a0 : State) (a1 : ℕ) (a2 : ℕ) :
    (State.dmcHist a0 a1 a2).rom = a0.rom ∧ (State.dmcHist a0 a1 a2).pending = a0.pending := by
  unfold State.dmcHist
  simp
@[simp] theorem State.dmcIssue_fixed (a0 : State) (a1 : ℕ) (a2 : WEntry) :
    (State.dmcIssue a0 a1 a2).rom = a0.rom ∧ (State.dmcIssue a0 a1 a2).pending = a0.pending := by
  unfold State.dmcIssue
  simp
@[simp] theorem State.leavePhase_fixed (a0 : State) (a1 : ℕ) (a2 : ℕ) :
    (State.leavePhase a0 a1 a2).rom = a0.rom ∧ (State.leavePhase a0 a1 a2).pending = a0.pending := by
  unfold State.leavePhase
  (repeat' split) <;> simp
@[simp] theorem State.hwDisposition_fixed (a0 : State) (a1 : ℕ) (a2 : ℕ) (a3 : ℕ) (a4 : ℕ) :
    (State.hwDisposition a0 a1 a2 a3 a4).rom = a0.rom ∧ (State.hwDisposition a0 a1 a2 a3 a4).pending = a0.pending := by
  unfold State.hwDisposition
  (repeat' split) <;> simp
@[simp] theorem State.doubleFault_fixed (a0 : State) (a1 : ℕ) (a2 : ℕ) :
    (State.doubleFault a0 a1 a2).rom = a0.rom ∧ (State.doubleFault a0 a1 a2).pending = a0.pending := by
  unfold State.doubleFault
  simp only [rom_ite, pending_ite, fst_ite, Res.keeps_ite]
  (repeat' split) <;> simp
@[simp] theorem State.dropRoot_fixed (a0 : State) :
    (State.dropRoot a0).rom = a0.rom ∧ (State.dropRoot a0).pending = a0.pending := by
  unfold State.dropRoot
  simp
@[simp] theorem State.skeidAck_fixed (a0 : State) (a1 : ℕ) (a2 : ℕ) (a3 : ℕ) (a4 : List ℕ) :
    (State.skeidAck a0 a1 a2 a3 a4).rom = a0.rom ∧ (State.skeidAck a0 a1 a2 a3 a4).pending = a0.pending := by
  unfold State.skeidAck
  simp
@[simp] theorem State.ebreak_fixed (a0 : State) (a1 : ℕ) (a2 : Hart) :
    (State.ebreak a0 a1 a2).rom = a0.rom ∧ (State.ebreak a0 a1 a2).pending = a0.pending := by
  unfold State.ebreak
  simp
@[simp] theorem State.sliceCount_fixed (a0 : State) (a1 : ℕ) (a2 : ℕ) :
    (State.sliceCount a0 a1 a2).rom = a0.rom ∧ (State.sliceCount a0 a1 a2).pending = a0.pending := by
  unfold State.sliceCount
  simp
@[simp] theorem State.filterRoom_fixed (a0 : State) (a1 : ℕ) :
    (State.filterRoom a0 a1).rom = a0.rom ∧ (State.filterRoom a0 a1).pending = a0.pending := by
  unfold State.filterRoom
  simp
@[simp] theorem State.flushNotify_fixed (a0 : State) (a1 : ℕ) :
    (State.flushNotify a0 a1).rom = a0.rom ∧ (State.flushNotify a0 a1).pending = a0.pending := by
  unfold State.flushNotify
  simp
@[simp] theorem State.illegal_fixed (a0 : State) (a1 : ℕ) :
    (State.illegal a0 a1).rom = a0.rom ∧ (State.illegal a0 a1).pending = a0.pending := by
  unfold State.illegal
  simp
@[simp] theorem State.fpInsn_fixed (a0 : State) (a1 : ℕ) (a2 : ℕ) (a3 : Hart) :
    (State.fpInsn a0 a1 a2 a3).rom = a0.rom ∧ (State.fpInsn a0 a1 a2 a3).pending = a0.pending := by
  unfold State.fpInsn
  simp only [rom_ite, pending_ite, fst_ite, Res.keeps_ite]
  (repeat' split) <;> simp
@[simp] theorem State.netData_fixed (a0 : State) (a1 : ℕ) (a2 : Bytes) :
    (State.netData a0 a1 a2).rom = a0.rom ∧ (State.netData a0 a1 a2).pending = a0.pending := by
  unfold State.netData
  simp
@[simp] theorem State.modSess_fixed (a0 : State) (a1 : ℕ) (a2 : Session → Session) :
    (State.modSess a0 a1 a2).rom = a0.rom ∧ (State.modSess a0 a1 a2).pending = a0.pending := by
  unfold State.modSess
  simp
@[simp] theorem State.frameAct_fixed (a0 : State) (a1 : ℕ) (a2 : FrameKind) :
    (State.frameAct a0 a1 a2).rom = a0.rom ∧ (State.frameAct a0 a1 a2).pending = a0.pending := by
  unfold State.frameAct
  (repeat' split) <;> simp
@[simp] theorem State.fullReset_fixed (a0 : State) :
    (State.fullReset a0).rom = a0.rom ∧ (State.fullReset a0).pending = a0.pending := by
  unfold State.fullReset
  simp
@[simp] theorem State.fullCold_fixed (a0 : State) (a1 : ℕ) (a2 : Bool) :
    (State.fullCold a0 a1 a2).rom = a0.rom ∧ (State.fullCold a0 a1 a2).pending = a0.pending := by
  unfold State.fullCold
  simp
@[simp] theorem State.giveLane_fixed (a0 : State) (a1 : ℕ) :
    (State.giveLane a0 a1).rom = a0.rom ∧ (State.giveLane a0 a1).pending = a0.pending := by
  unfold State.giveLane
  simp
@[simp] theorem State.handoverSwitch_fixed (a0 : State) :
    (State.handoverSwitch a0).rom = a0.rom ∧ (State.handoverSwitch a0).pending = a0.pending := by
  unfold State.handoverSwitch
  (repeat' split) <;> simp
@[simp] theorem State.prefetchHint_fixed (a0 : State) (a1 : ℕ) (a2 : ℕ) (a3 : Hart) :
    (State.prefetchHint a0 a1 a2 a3).rom = a0.rom ∧ (State.prefetchHint a0 a1 a2 a3).pending = a0.pending := by
  unfold State.prefetchHint
  simp only [rom_ite, pending_ite, fst_ite, Res.keeps_ite]
  (repeat' split) <;> simp
@[simp] theorem State.virtIll_fixed (a0 : State) (a1 : ℕ) (a2 : Hart) :
    (State.virtIll a0 a1 a2).rom = a0.rom ∧ (State.virtIll a0 a1 a2).pending = a0.pending := by
  unfold State.virtIll
  simp
@[simp] theorem State.tlbFence_fixed (a0 : State) (a1 : ℕ) (a2 : Hart) (a3 : Bool) (a4 : Bool) :
    (State.tlbFence a0 a1 a2 a3 a4).rom = a0.rom ∧ (State.tlbFence a0 a1 a2 a3 a4).pending = a0.pending := by
  unfold State.tlbFence
  simp
@[simp] theorem State.sysInsn_fixed (a0 : State) (a1 : ℕ) (a2 : ℕ) (a3 : Hart) :
    (State.sysInsn a0 a1 a2 a3).rom = a0.rom ∧ (State.sysInsn a0 a1 a2 a3).pending = a0.pending := by
  unfold State.sysInsn
  (repeat' split) <;> simp
@[simp] theorem State.vecInsn_fixed (a0 : State) (a1 : ℕ) (a2 : ℕ) (a3 : Hart) :
    (State.vecInsn a0 a1 a2 a3).rom = a0.rom ∧ (State.vecInsn a0 a1 a2 a3).pending = a0.pending := by
  unfold State.vecInsn
  simp
@[simp] theorem State.hartIssueOn_fixed (a0 : State) (a1 : ℕ) (a2 : Hart → List (ℕ × ℕ × ℕ)) (a3 : State → Hart → State) (hf : ∀ x y1, (a3 x y1).rom = x.rom ∧ (a3 x y1).pending = x.pending) :
    (State.hartIssueOn a0 a1 a2 a3).keeps a0 := by
  simp only [State.hartIssueOn]
  (repeat' split) <;> simp_all
@[simp] theorem State.hartIssue_fixed (a0 : State) (a1 : ℕ) (a2 : State → Hart → State) (hf : ∀ x y1, (a2 x y1).rom = x.rom ∧ (a2 x y1).pending = x.pending) :
    (State.hartIssue a0 a1 a2).keeps a0 := by
  unfold State.hartIssue
  simp_all
@[simp] theorem State.hartLoadEnd_fixed (a0 : State) (a1 : ℕ) (a2 : Bytes) :
    (State.hartLoadEnd a0 a1 a2).rom = a0.rom ∧ (State.hartLoadEnd a0 a1 a2).pending = a0.pending := by
  unfold State.hartLoadEnd
  simp only [rom_ite, pending_ite, fst_ite, Res.keeps_ite]
  (repeat' split) <;> simp
@[simp] theorem State.histEntry_fixed (a0 : State) (a1 : ℕ) (a2 : Msg) :
    (State.histEntry a0 a1 a2).rom = a0.rom ∧ (State.histEntry a0 a1 a2).pending = a0.pending := by
  unfold State.histEntry
  simp
@[simp] theorem State.pwrEvent_fixed (a0 : State) (a1 : ℕ) :
    (State.pwrEvent a0 a1).rom = a0.rom ∧ (State.pwrEvent a0 a1).pending = a0.pending := by
  unfold State.pwrEvent
  simp
@[simp] theorem State.holdMain_fixed (a0 : State) (a1 : ℕ) (a2 : ℕ) (a3 : Bool) :
    (State.holdMain a0 a1 a2 a3).rom = a0.rom ∧ (State.holdMain a0 a1 a2 a3).pending = a0.pending := by
  unfold State.holdMain
  simp
@[simp] theorem State.hsFail_fixed (a0 : State) (a1 : ℕ) (a2 : ℕ) (a3 : ℕ) :
    (State.hsFail a0 a1 a2 a3).rom = a0.rom ∧ (State.hsFail a0 a1 a2 a3).pending = a0.pending := by
  unfold State.hsFail
  simp
@[simp] theorem State.hwUpdate_fixed (a0 : State) (a1 : ℕ) (a2 : HwUpdate) (a3 : Bool) :
    (State.hwUpdate a0 a1 a2 a3).rom = a0.rom ∧ (State.hwUpdate a0 a1 a2 a3).pending = a0.pending := by
  unfold State.hwUpdate
  (repeat' split) <;> simp
@[simp] theorem State.inboundErr_fixed (a0 : State) (a1 : ℕ) (a2 : PcieReq) (a3 : IoAns) :
    (State.inboundErr a0 a1 a2 a3).rom = a0.rom ∧ (State.inboundErr a0 a1 a2 a3).pending = a0.pending := by
  unfold State.inboundErr
  (repeat' split) <;> simp
@[simp] theorem State.ioEnd_fixed (a0 : State) (a1 : ℕ) (a2 : ℕ) (a3 : Bool) (a4 : IoAns) :
    (State.ioEnd a0 a1 a2 a3 a4).rom = a0.rom ∧ (State.ioEnd a0 a1 a2 a3 a4).pending = a0.pending := by
  unfold State.ioEnd
  (repeat' split) <;> simp
@[simp] theorem State.issue_fixed (a0 : State) (a1 : ℕ) (a2 : ℕ) (a3 : XOp) (a4 : State → Thread → State) (hf : ∀ x y1, (a4 x y1).rom = x.rom ∧ (a4 x y1).pending = x.pending) :
    (State.issue a0 a1 a2 a3 a4).keeps a0 := by
  unfold State.issue
  (repeat' split) <;> simp_all
@[simp] theorem State.issueAny_fixed (a0 : State) (a1 : ℕ) (a2 : ℕ) (a3 : State → Thread → State) (hf : ∀ x y1, (a3 x y1).rom = x.rom ∧ (a3 x y1).pending = x.pending) :
    (State.issueAny a0 a1 a2 a3).keeps a0 := by
  unfold State.issueAny
  (repeat' split) <;> simp_all
@[simp] theorem State.issueTicket_fixed (a0 : State) (a1 : ℕ) :
    (State.issueTicket a0 a1).rom = a0.rom ∧ (State.issueTicket a0 a1).pending = a0.pending := by
  unfold State.issueTicket
  simp only [rom_ite, pending_ite, fst_ite, Res.keeps_ite]
  (repeat' split) <;> simp
@[simp] theorem State.l3Read_fixed (a0 : State) (a1 : ℕ) (a2 : ℕ) (a3 : Bool) (a4 : Bool) (a5 : Bool) :
    (State.l3Read a0 a1 a2 a3 a4 a5).1.rom = a0.rom ∧ (State.l3Read a0 a1 a2 a3 a4 a5).1.pending = a0.pending := by
  unfold State.l3Read
  simp only [rom_ite, pending_ite, fst_ite, Res.keeps_ite]
  (repeat' split) <;> simp
@[simp] theorem State.laneMove_fixed (a0 : State) (a1 : ℕ) :
    (State.laneMove a0 a1).rom = a0.rom ∧ (State.laneMove a0 a1).pending = a0.pending := by
  unfold State.laneMove
  simp only [rom_ite, pending_ite, fst_ite, Res.keeps_ite]
  (repeat' split) <;> simp
@[simp] theorem State.laneBoundary_fixed (a0 : State) (a1 : ℕ) :
    (State.laneBoundary a0 a1).rom = a0.rom ∧ (State.laneBoundary a0 a1).pending = a0.pending := by
  unfold State.laneBoundary
  simp
@[simp] theorem State.laneWrite_fixed (a0 : State) (a1 : Agent) (a2 : ℕ) (a3 : ℕ) (a4 : ℕ) (a5 : State → State) (hf : ∀ x, (a5 x ).rom = x.rom ∧ (a5 x ).pending = x.pending) :
    (State.laneWrite a0 a1 a2 a3 a4 a5).keeps a0 := by
  unfold State.laneWrite
  (repeat' split) <;> simp_all
@[simp] theorem State.lateDecision_fixed (a0 : State) (a1 : ℕ) (a2 : Hallmark) :
    (State.lateDecision a0 a1 a2).rom = a0.rom ∧ (State.lateDecision a0 a1 a2).pending = a0.pending := by
  unfold State.lateDecision
  simp
@[simp] theorem State.liveEvt_fixed (a0 : State) (a1 : ℕ) (a2 : State → State) (hf : ∀ x, (a2 x ).rom = x.rom ∧ (a2 x ).pending = x.pending) :
    (State.liveEvt a0 a1 a2).keeps a0 := by
  unfold State.liveEvt
  (repeat' split) <;> simp_all
@[simp] theorem State.mbxAccess_fixed (a0 : State) (a1 : Agent) (a2 : ℕ) (a3 : ℕ) (a4 : Bool) (a5 : State → State) (hf : ∀ x, (a5 x ).rom = x.rom ∧ (a5 x ).pending = x.pending) :
    (State.mbxAccess a0 a1 a2 a3 a4 a5).keeps a0 := by
  unfold State.mbxAccess
  (repeat' split) <;> simp_all
@[simp] theorem State.offer_fixed (a0 : State) (a1 : ℕ) (a2 : ℕ) (a3 : ℕ) (a4 : Msg) :
    (State.offer a0 a1 a2 a3 a4).rom = a0.rom ∧ (State.offer a0 a1 a2 a3 a4).pending = a0.pending := by
  unfold State.offer
  simp
@[simp] theorem State.overrun_fixed (a0 : State) (a1 : ℕ) (a2 : ℕ) (a3 : Phase) (a4 : Bool) :
    (State.overrun a0 a1 a2 a3 a4).rom = a0.rom ∧ (State.overrun a0 a1 a2 a3 a4).pending = a0.pending := by
  unfold State.overrun
  simp
@[simp] theorem State.pairAck_fixed (a0 : State) :
    (State.pairAck a0).rom = a0.rom ∧ (State.pairAck a0).pending = a0.pending := by
  unfold State.pairAck
  (repeat' split) <;> simp
@[simp] theorem State.pairingEnded_fixed (a0 : State) :
    (State.pairingEnded a0).rom = a0.rom ∧ (State.pairingEnded a0).pending = a0.pending := by
  unfold State.pairingEnded
  simp
@[simp] theorem State.payOwed_fixed (a0 : State) (a1 : ℕ) (a2 : ℕ) :
    (State.payOwed a0 a1 a2).rom = a0.rom ∧ (State.payOwed a0 a1 a2).pending = a0.pending := by
  unfold State.payOwed
  simp
@[simp] theorem State.shelfNotify_fixed (a0 : State) (a1 : ℕ) (a2 : ℕ) (a3 : ℕ) :
    (State.shelfNotify a0 a1 a2 a3).rom = a0.rom ∧ (State.shelfNotify a0 a1 a2 a3).pending = a0.pending := by
  unfold State.shelfNotify
  simp
@[simp] theorem State.retT_fixed (a0 : State) (a1 : ℕ) (a2 : ℕ) (a3 : ℕ) (a4 : ℕ) :
    (State.retT a0 a1 a2 a3 a4).rom = a0.rom ∧ (State.retT a0 a1 a2 a3 a4).pending = a0.pending := by
  unfold State.retT
  simp
@[simp] theorem State.ppr_fixed (a0 : State) :
    (State.ppr a0).rom = a0.rom ∧ (State.ppr a0).pending = a0.pending := by
  unfold State.ppr
  simp
@[simp] theorem State.proofCommitted_fixed (a0 : State) (a1 : ℕ) (a2 : ℕ) :
    (State.proofCommitted a0 a1 a2).rom = a0.rom ∧ (State.proofCommitted a0 a1 a2).pending = a0.pending := by
  unfold State.proofCommitted
  simp
@[simp] theorem State.reserveReq_fixed (a0 : State) (a1 : ℕ) (a2 : ReserveReq) :
    (State.reserveReq a0 a1 a2).rom = a0.rom ∧ (State.reserveReq a0 a1 a2).pending = a0.pending := by
  unfold State.reserveReq
  simp
@[simp] theorem State.proofRequest_fixed (a0 : State) (a1 : ℕ) (a2 : Rec) :
    (State.proofRequest a0 a1 a2).rom = a0.rom ∧ (State.proofRequest a0 a1 a2).pending = a0.pending := by
  unfold State.proofRequest
  simp
@[simp] theorem State.ptpState_fixed (a0 : State) (a1 : ℕ) :
    (State.ptpState a0 a1).rom = a0.rom ∧ (State.ptpState a0 a1).pending = a0.pending := by
  unfold State.ptpState
  simp
@[simp] theorem State.rePresent_fixed (a0 : State) (a1 : List Rec) :
    (State.rePresent a0 a1).rom = a0.rom ∧ (State.rePresent a0 a1).pending = a0.pending := by
  unfold State.rePresent
  simp
@[simp] theorem State.readTo_fixed (a0 : State) (a1 : ℕ) (a2 : ℕ) (a3 : ℕ) :
    (State.readTo a0 a1 a2 a3).rom = a0.rom ∧ (State.readTo a0 a1 a2 a3).pending = a0.pending := by
  unfold State.readTo
  simp
@[simp] theorem State.refuseConn_fixed (a0 : State) (a1 : ℕ) (a2 : ℕ) :
    (State.refuseConn a0 a1 a2).rom = a0.rom ∧ (State.refuseConn a0 a1 a2).pending = a0.pending := by
  unfold State.refuseConn
  simp
@[simp] theorem State.refuseWaiting_fixed (a0 : State) (a1 : PortRec) :
    (State.refuseWaiting a0 a1).rom = a0.rom ∧ (State.refuseWaiting a0 a1).pending = a0.pending := by
  unfold State.refuseWaiting
  simp only [rom_ite, pending_ite, fst_ite, Res.keeps_ite]
  (repeat' split) <;> simp
@[simp] theorem State.renew_fixed (a0 : State) :
    (State.renew a0).rom = a0.rom ∧ (State.renew a0).pending = a0.pending := by
  unfold State.renew
  simp
@[simp] theorem State.reportCommit_fixed (a0 : State) (a1 : ℕ) (a2 : Rec) (a3 : Code) :
    (State.reportCommit a0 a1 a2 a3).rom = a0.rom ∧ (State.reportCommit a0 a1 a2 a3).pending = a0.pending := by
  unfold State.reportCommit
  simp only [rom_ite, pending_ite, fst_ite, Res.keeps_ite]
  (repeat' split) <;> simp
@[simp] theorem State.xferFail_fixed (a0 : State) (a1 : RhaxReq) (a2 : ℕ) :
    (State.xferFail a0 a1 a2).rom = a0.rom ∧ (State.xferFail a0 a1 a2).pending = a0.pending := by
  unfold State.xferFail
  simp
@[simp] theorem State.takeoverStop_fixed (a0 : State) :
    (State.takeoverStop a0).rom = a0.rom ∧ (State.takeoverStop a0).pending = a0.pending := by
  unfold State.takeoverStop
  simp
@[simp] theorem State.respond_fixed (a0 : State) (a1 : ℕ) (a2 : ℕ) (a3 : Bytes) (a4 : Bool) :
    (State.respond a0 a1 a2 a3 a4).rom = a0.rom ∧ (State.respond a0 a1 a2 a3 a4).pending = a0.pending := by
  unfold State.respond
  simp
@[simp] theorem State.rhaxAnswer_fixed (a0 : State) (a1 : RhaxHdr) (a2 : ℕ) (a3 : ℕ) (a4 : optParam RhaxBody RhaxBody.none) :
    (State.rhaxAnswer a0 a1 a2 a3 a4).rom = a0.rom ∧ (State.rhaxAnswer a0 a1 a2 a3 a4).pending = a0.pending := by
  unfold State.rhaxAnswer
  simp
@[simp] theorem State.rhaxRefused_fixed (a0 : State) (a1 : ℕ) (a2 : ℕ) (a3 : ℕ) :
    (State.rhaxRefused a0 a1 a2 a3).rom = a0.rom ∧ (State.rhaxRefused a0 a1 a2 a3).pending = a0.pending := by
  unfold State.rhaxRefused
  simp only [rom_ite, pending_ite, fst_ite, Res.keeps_ite]
  (repeat' split) <;> simp
@[simp] theorem State.rhaxReply_fixed (a0 : State) (a1 : RhaxHdr) (a2 : List ℕ) (a3 : State → RhaxReq → State) (hf : ∀ x y1, (a3 x y1).rom = x.rom ∧ (a3 x y1).pending = x.pending) :
    (State.rhaxReply a0 a1 a2 a3).rom = a0.rom ∧ (State.rhaxReply a0 a1 a2 a3).pending = a0.pending := by
  unfold State.rhaxReply
  (repeat' split) <;> simp_all
@[simp] theorem State.rhaxRx_fixed (a0 : State) (a1 : RhaxHdr) (a2 : ℕ) (a3 : Bool) (a4 : State → State) (hf : ∀ x, (a4 x ).rom = x.rom ∧ (a4 x ).pending = x.pending) :
    (State.rhaxRx a0 a1 a2 a3 a4).keeps a0 := by
  unfold State.rhaxRx
  (repeat' split) <;> simp_all
@[simp] theorem State.scrubNext_fixed (a0 : State) (a1 : ℕ) :
    (State.scrubNext a0 a1).rom = a0.rom ∧ (State.scrubNext a0 a1).pending = a0.pending := by
  unfold State.scrubNext
  simp
@[simp] theorem State.setPlink_fixed (a0 : State) (a1 : ℕ) (a2 : PLink) :
    (State.setPlink a0 a1 a2).rom = a0.rom ∧ (State.setPlink a0 a1 a2).pending = a0.pending := by
  unfold State.setPlink
  simp
@[simp] theorem State.setWLease_fixed (a0 : State) (a1 : WitLease) :
    (State.setWLease a0 a1).rom = a0.rom ∧ (State.setWLease a0 a1).pending = a0.pending := by
  unfold State.setWLease
  simp
@[simp] theorem State.shed_fixed (a0 : State) (a1 : ℕ) (a2 : Cand) :
    (State.shed a0 a1 a2).rom = a0.rom ∧ (State.shed a0 a1 a2).pending = a0.pending := by
  unfold State.shed
  simp
@[simp] theorem State.stnFinish_fixed (a0 : State) (a1 : ℕ) (a2 : StnRun) (a3 : ℕ) (a4 : SErr) (a5 : ℕ) (a6 : ℕ) (a7 : ℕ) (a8 : ℕ) (a9 : ℕ) :
    (State.stnFinish a0 a1 a2 a3 a4 a5 a6 a7 a8 a9).rom = a0.rom ∧ (State.stnFinish a0 a1 a2 a3 a4 a5 a6 a7 a8 a9).pending = a0.pending := by
  unfold State.stnFinish
  simp
@[simp] theorem State.stnOutput_fixed (a0 : State) (a1 : ℕ) (a2 : StnRun) (a3 : StnCtx) (a4 : List ℕ) (a5 : ℕ) (a6 : ℕ) (a7 : Bool) (a8 : SErr) :
    (State.stnOutput a0 a1 a2 a3 a4 a5 a6 a7 a8).rom = a0.rom ∧ (State.stnOutput a0 a1 a2 a3 a4 a5 a6 a7 a8).pending = a0.pending := by
  unfold State.stnOutput
  simp only [rom_ite, pending_ite, fst_ite, Res.keeps_ite]
  (repeat' split) <;> simp
@[simp] theorem State.stnResume_fixed (a0 : State) (a1 : ℕ) (a2 : StnRun) :
    (State.stnResume a0 a1 a2).rom = a0.rom ∧ (State.stnResume a0 a1 a2).pending = a0.pending := by
  unfold State.stnResume
  simp only [rom_ite, pending_ite, fst_ite, Res.keeps_ite]
  (repeat' split) <;> simp
@[simp] theorem State.stnRunFirst_fixed (a0 : State) (a1 : ℕ) (a2 : StnRun) :
    (State.stnRunFirst a0 a1 a2).rom = a0.rom ∧ (State.stnRunFirst a0 a1 a2).pending = a0.pending := by
  unfold State.stnRunFirst
  simp only [rom_ite, pending_ite, fst_ite, Res.keeps_ite]
  (repeat' split) <;> simp
@[simp] theorem State.stnStart_fixed (a0 : State) (a1 : ℕ) (a2 : ℕ) :
    (State.stnStart a0 a1 a2).rom = a0.rom ∧ (State.stnStart a0 a1 a2).pending = a0.pending := by
  unfold State.stnStart
  simp only [rom_ite, pending_ite, fst_ite, Res.keeps_ite]
  (repeat' split) <;> simp
@[simp] theorem State.trap_fixed (a0 : State) (a1 : ℕ) (a2 : ℕ) (a3 : W32) (a4 : W32) :
    (State.trap a0 a1 a2 a3 a4).rom = a0.rom ∧ (State.trap a0 a1 a2 a3 a4).pending = a0.pending := by
  unfold State.trap
  simp
@[simp] theorem State.styCsrInsn_fixed (a0 : State) (a1 : ℕ) (a2 : ℕ) (a3 : Thread) (a4 : ℕ) (a5 : ℕ) :
    (State.styCsrInsn a0 a1 a2 a3 a4 a5).rom = a0.rom ∧ (State.styCsrInsn a0 a1 a2 a3 a4 a5).pending = a0.pending := by
  unfold State.styCsrInsn
  simp only [rom_ite, pending_ite, fst_ite, Res.keeps_ite]
  (repeat' split) <;> simp
@[simp] theorem State.takeHomes_fixed (a0 : State) (a1 : ℕ) :
    (State.takeHomes a0 a1).rom = a0.rom ∧ (State.takeHomes a0 a1).pending = a0.pending := by
  unfold State.takeHomes
  simp
@[simp] theorem State.timeoutFire_fixed (a0 : State) (a1 : ℕ) (a2 : ℕ) (a3 : Msg) :
    (State.timeoutFire a0 a1 a2 a3).rom = a0.rom ∧ (State.timeoutFire a0 a1 a2 a3).pending = a0.pending := by
  unfold State.timeoutFire
  simp
@[simp] theorem State.trainFail_fixed (a0 : State) (a1 : Bool) :
    (State.trainFail a0 a1).rom = a0.rom ∧ (State.trainFail a0 a1).pending = a0.pending := by
  unfold State.trainFail
  cases a1 <;> simp
@[simp] theorem State.trainStart_fixed (a0 : State) :
    (State.trainStart a0).rom = a0.rom ∧ (State.trainStart a0).pending = a0.pending := by
  unfold State.trainStart
  simp
@[simp] theorem State.vfMsix_fixed (a0 : State) (a1 : ℕ) (a2 : ℕ) (a3 : BusOp) :
    (State.vfMsix a0 a1 a2 a3).1.rom = a0.rom ∧ (State.vfMsix a0 a1 a2 a3).1.pending = a0.pending := by
  unfold State.vfMsix
  (repeat' split) <;> simp
@[simp] theorem State.xferMint_fixed (a0 : State) (a1 : RhaxHdr) (a2 : XferIn) (a3 : ℕ) (a4 : ℕ) (a5 : ℕ) :
    (State.xferMint a0 a1 a2 a3 a4 a5).rom = a0.rom ∧ (State.xferMint a0 a1 a2 a3 a4 a5).pending = a0.pending := by
  unfold State.xferMint
  simp only [rom_ite, pending_ite, fst_ite, Res.keeps_ite]
  (repeat' split) <;> simp
@[simp] theorem execRegisterReadClear_fixed (a0 : Agent) (a1 : ℕ) (a2 : W32) (a3 : State) :
    (execRegisterReadClear a0 a1 a2 a3).keeps a3 := by
  unfold execRegisterReadClear
  simp
@[simp] theorem execLowWordRead_fixed (a0 : Agent) (a1 : ℕ) (a2 : State) :
    (execLowWordRead a0 a1 a2).keeps a2 := by
  unfold execLowWordRead
  simp
@[simp] theorem execDecisionTimeout_fixed (a0 : LaneId) (a1 : Handle) (a2 : State) :
    (execDecisionTimeout a0 a1 a2).keeps a2 := by
  unfold execDecisionTimeout
  (repeat' split) <;> simp
@[simp] theorem execMessageShed_fixed (a0 : LaneId) (a1 : Handle) (a2 : State) :
    (execMessageShed a0 a1 a2).keeps a2 := by
  unfold execMessageShed
  simp only [rom_ite, pending_ite, fst_ite, Res.keeps_ite]
  (repeat' split) <;> simp
@[simp] theorem execBeatOverrun_fixed (a0 : LaneId) (a1 : ThreadId) (a2 : State) :
    (execBeatOverrun a0 a1 a2).keeps a2 := by
  unfold execBeatOverrun
  simp only [rom_ite, pending_ite, fst_ite, Res.keeps_ite]
  (repeat' split) <;> simp
@[simp] theorem execBeatTimerStart_fixed (a0 : State) :
    (execBeatTimerStart a0).keeps a0 := by
  unfold execBeatTimerStart
  simp
@[simp] theorem execBeatTimerRestart_fixed (a0 : State) :
    (execBeatTimerRestart a0).keeps a0 := by
  unfold execBeatTimerRestart
  simp
@[simp] theorem execDrain_fixed (a0 : Agent) (a1 : LaneId) (a2 : Bool) (a3 : State) :
    (execDrain a0 a1 a2 a3).keeps a3 := by
  unfold execDrain
  simp
@[simp] theorem execAdmitEn_fixed (a0 : Agent) (a1 : LaneId) (a2 : Bool) (a3 : State) :
    (execAdmitEn a0 a1 a2 a3).keeps a3 := by
  unfold execAdmitEn
  simp
@[simp] theorem execResetReq_fixed (a0 : Agent) (a1 : LaneId) (a2 : State) :
    (execResetReq a0 a1 a2).keeps a2 := by
  unfold execResetReq
  simp
@[simp] theorem execApply_fixed (a0 : Agent) (a1 : LaneId) (a2 : State) :
    (execApply a0 a1 a2).keeps a2 := by
  unfold execApply
  simp
@[simp] theorem execHshConsWrite_fixed (a0 : Agent) (a1 : LaneId) (a2 : Fin 8) (a3 : W32) (a4 : State) :
    (execHshConsWrite a0 a1 a2 a3 a4).keeps a4 := by
  unfold execHshConsWrite
  simp
@[simp] theorem execTileFree_fixed (a0 : LaneId) (a1 : ThreadId) (a2 : XReg) (a3 : State) :
    (execTileFree a0 a1 a2 a3).keeps a3 := by
  unfold execTileFree
  simp
@[simp] theorem execTileSeal_fixed (a0 : LaneId) (a1 : ThreadId) (a2 : XReg) (a3 : XReg) (a4 : State) :
    (execTileSeal a0 a1 a2 a3 a4).keeps a4 := by
  unfold execTileSeal
  simp
@[simp] theorem execTileDigest_fixed (a0 : LaneId) (a1 : ThreadId) (a2 : XReg) (a3 : XReg) (a4 : State) :
    (execTileDigest a0 a1 a2 a3 a4).keeps a4 := by
  unfold execTileDigest
  simp
@[simp] theorem execTileDigestComplete_fixed (a0 : LaneId) (a1 : State) :
    (execTileDigestComplete a0 a1).keeps a1 := by
  unfold execTileDigestComplete
  simp only [rom_ite, pending_ite, fst_ite, Res.keeps_ite]
  (repeat' split) <;> simp
@[simp] theorem execStnGo_fixed (a0 : LaneId) (a1 : ThreadId) (a2 : XReg) (a3 : XReg) (a4 : State) :
    (execStnGo a0 a1 a2 a3 a4).keeps a4 := by
  unfold execStnGo
  simp
@[simp] theorem execBurGo_fixed (a0 : LaneId) (a1 : ThreadId) (a2 : XReg) (a3 : XReg) (a4 : State) :
    (execBurGo a0 a1 a2 a3 a4).keeps a4 := by
  unfold execBurGo
  simp
@[simp] theorem execBurSkip_fixed (a0 : LaneId) (a1 : ThreadId) (a2 : XReg) (a3 : State) :
    (execBurSkip a0 a1 a2 a3).keeps a3 := by
  unfold execBurSkip
  simp
@[simp] theorem execBeatRead_fixed (a0 : LaneId) (a1 : ThreadId) (a2 : XReg) (a3 : State) :
    (execBeatRead a0 a1 a2 a3).keeps a3 := by
  unfold execBeatRead
  simp
@[simp] theorem execBeatReadh_fixed (a0 : LaneId) (a1 : ThreadId) (a2 : XReg) (a3 : State) :
    (execBeatReadh a0 a1 a2 a3).keeps a3 := by
  unfold execBeatReadh
  simp
@[simp] theorem execBeatWait_fixed (a0 : LaneId) (a1 : ThreadId) (a2 : State) :
    (execBeatWait a0 a1 a2).keeps a2 := by
  unfold execBeatWait
  simp
@[simp] theorem execThrSignal_fixed (a0 : LaneId) (a1 : ThreadId) (a2 : XReg) (a3 : State) :
    (execThrSignal a0 a1 a2 a3).keeps a3 := by
  unfold execThrSignal
  simp
@[simp] theorem execStylusDramLoadReturn_fixed (a0 : LaneId) (a1 : ThreadId) (a2 : Bool) (a3 : State) :
    (execStylusDramLoadReturn a0 a1 a2 a3).keeps a3 := by
  unfold execStylusDramLoadReturn
  simp only [rom_ite, pending_ite, fst_ite, Res.keeps_ite]
  (repeat' split) <;> simp
@[simp] theorem execStylusInterrupt_fixed (a0 : LaneId) (a1 : ThreadId) (a2 : State) :
    (execStylusInterrupt a0 a1 a2).keeps a2 := by
  unfold execStylusInterrupt
  simp only [rom_ite, pending_ite, fst_ite, Res.keeps_ite]
  (repeat' split) <;> simp
@[simp] theorem execStylusException_fixed (a0 : LaneId) (a1 : ThreadId) (a2 : W32) (a3 : W32) (a4 : State) :
    (execStylusException a0 a1 a2 a3 a4).keeps a4 := by
  unfold execStylusException
  simp
@[simp] theorem execTranslate_fixed (a0 : LaneId) (a1 : State) :
    (execTranslate a0 a1).keeps a1 := by
  unfold execTranslate
  simp
@[simp] theorem execValidate_fixed (a0 : LaneId) (a1 : State) :
    (execValidate a0 a1).keeps a1 := by
  unfold execValidate
  simp
@[simp] theorem execResume_fixed (a0 : LaneId) (a1 : State) :
    (execResume a0 a1).keeps a1 := by
  unfold execResume
  simp
@[simp] theorem execAbort_fixed (a0 : LaneId) (a1 : State) :
    (execAbort a0 a1).keeps a1 := by
  unfold execAbort
  simp
@[simp] theorem execStnRunEnd_fixed (a0 : LaneId) (a1 : State) :
    (execStnRunEnd a0 a1).keeps a1 := by
  unfold execStnRunEnd
  simp only [rom_ite, pending_ite, fst_ite, Res.keeps_ite]
  (repeat' split) <;> simp
@[simp] theorem execEcdsaP256Verify_fixed (a0 : LaneId) (a1 : EngId) (a2 : State) :
    (execEcdsaP256Verify a0 a1 a2).keeps a2 := by
  unfold execEcdsaP256Verify
  simp
@[simp] theorem execEcdsaP256Sign_fixed (a0 : LaneId) (a1 : EngId) (a2 : State) :
    (execEcdsaP256Sign a0 a1 a2).keeps a2 := by
  unfold execEcdsaP256Sign
  simp
@[simp] theorem execEcdsaP384Verify_fixed (a0 : LaneId) (a1 : EngId) (a2 : State) :
    (execEcdsaP384Verify a0 a1 a2).keeps a2 := by
  unfold execEcdsaP384Verify
  simp
@[simp] theorem execEcdsaP384Sign_fixed (a0 : LaneId) (a1 : EngId) (a2 : State) :
    (execEcdsaP384Sign a0 a1 a2).keeps a2 := by
  unfold execEcdsaP384Sign
  simp
@[simp] theorem execEd25519Verify_fixed (a0 : LaneId) (a1 : EngId) (a2 : State) :
    (execEd25519Verify a0 a1 a2).keeps a2 := by
  unfold execEd25519Verify
  simp
@[simp] theorem execEd25519Sign_fixed (a0 : LaneId) (a1 : EngId) (a2 : State) :
    (execEd25519Sign a0 a1 a2).keeps a2 := by
  unfold execEd25519Sign
  simp
@[simp] theorem execEd25519BatchVerify_fixed (a0 : LaneId) (a1 : EngId) (a2 : State) :
    (execEd25519BatchVerify a0 a1 a2).keeps a2 := by
  unfold execEd25519BatchVerify
  simp
@[simp] theorem execMlDsa44Verify_fixed (a0 : LaneId) (a1 : EngId) (a2 : State) :
    (execMlDsa44Verify a0 a1 a2).keeps a2 := by
  unfold execMlDsa44Verify
  simp
@[simp] theorem execMlDsa65Verify_fixed (a0 : LaneId) (a1 : EngId) (a2 : State) :
    (execMlDsa65Verify a0 a1 a2).keeps a2 := by
  unfold execMlDsa65Verify
  simp
@[simp] theorem execMlDsa87Verify_fixed (a0 : LaneId) (a1 : EngId) (a2 : State) :
    (execMlDsa87Verify a0 a1 a2).keeps a2 := by
  unfold execMlDsa87Verify
  simp
@[simp] theorem execMlDsa44Sign_fixed (a0 : LaneId) (a1 : EngId) (a2 : State) :
    (execMlDsa44Sign a0 a1 a2).keeps a2 := by
  unfold execMlDsa44Sign
  simp
@[simp] theorem execMlDsa65Sign_fixed (a0 : LaneId) (a1 : EngId) (a2 : State) :
    (execMlDsa65Sign a0 a1 a2).keeps a2 := by
  unfold execMlDsa65Sign
  simp
@[simp] theorem execMlDsa87Sign_fixed (a0 : LaneId) (a1 : EngId) (a2 : State) :
    (execMlDsa87Sign a0 a1 a2).keeps a2 := by
  unfold execMlDsa87Sign
  simp
@[simp] theorem execRsa2048Verify_fixed (a0 : LaneId) (a1 : EngId) (a2 : State) :
    (execRsa2048Verify a0 a1 a2).keeps a2 := by
  unfold execRsa2048Verify
  simp
@[simp] theorem execRsa2048Sign_fixed (a0 : LaneId) (a1 : EngId) (a2 : State) :
    (execRsa2048Sign a0 a1 a2).keeps a2 := by
  unfold execRsa2048Sign
  simp
@[simp] theorem execRsa4096Verify_fixed (a0 : LaneId) (a1 : EngId) (a2 : State) :
    (execRsa4096Verify a0 a1 a2).keeps a2 := by
  unfold execRsa4096Verify
  simp
@[simp] theorem execRsa4096Sign_fixed (a0 : LaneId) (a1 : EngId) (a2 : State) :
    (execRsa4096Sign a0 a1 a2).keeps a2 := by
  unfold execRsa4096Sign
  simp
@[simp] theorem execPinBlockTranslate_fixed (a0 : LaneId) (a1 : EngId) (a2 : State) :
    (execPinBlockTranslate a0 a1 a2).keeps a2 := by
  unfold execPinBlockTranslate
  simp
@[simp] theorem execDukptDeriveTdes_fixed (a0 : LaneId) (a1 : EngId) (a2 : State) :
    (execDukptDeriveTdes a0 a1 a2).keeps a2 := by
  unfold execDukptDeriveTdes
  simp
@[simp] theorem execDukptDeriveAes_fixed (a0 : LaneId) (a1 : EngId) (a2 : State) :
    (execDukptDeriveAes a0 a1 a2).keeps a2 := by
  unfold execDukptDeriveAes
  simp
@[simp] theorem execSha256_fixed (a0 : LaneId) (a1 : EngId) (a2 : State) :
    (execSha256 a0 a1 a2).keeps a2 := by
  unfold execSha256
  simp
@[simp] theorem execSha384_fixed (a0 : LaneId) (a1 : EngId) (a2 : State) :
    (execSha384 a0 a1 a2).keeps a2 := by
  unfold execSha384
  simp
@[simp] theorem execSha512_fixed (a0 : LaneId) (a1 : EngId) (a2 : State) :
    (execSha512 a0 a1 a2).keeps a2 := by
  unfold execSha512
  simp
@[simp] theorem execSha3256_fixed (a0 : LaneId) (a1 : EngId) (a2 : State) :
    (execSha3256 a0 a1 a2).keeps a2 := by
  unfold execSha3256
  simp
@[simp] theorem execSha3384_fixed (a0 : LaneId) (a1 : EngId) (a2 : State) :
    (execSha3384 a0 a1 a2).keeps a2 := by
  unfold execSha3384
  simp
@[simp] theorem execSha3512_fixed (a0 : LaneId) (a1 : EngId) (a2 : State) :
    (execSha3512 a0 a1 a2).keeps a2 := by
  unfold execSha3512
  simp
@[simp] theorem execHmacSha256_fixed (a0 : LaneId) (a1 : EngId) (a2 : State) :
    (execHmacSha256 a0 a1 a2).keeps a2 := by
  unfold execHmacSha256
  simp
@[simp] theorem execHmacSha384_fixed (a0 : LaneId) (a1 : EngId) (a2 : State) :
    (execHmacSha384 a0 a1 a2).keeps a2 := by
  unfold execHmacSha384
  simp
@[simp] theorem execHmacSha512_fixed (a0 : LaneId) (a1 : EngId) (a2 : State) :
    (execHmacSha512 a0 a1 a2).keeps a2 := by
  unfold execHmacSha512
  simp
@[simp] theorem execAesCmac_fixed (a0 : LaneId) (a1 : EngId) (a2 : State) :
    (execAesCmac a0 a1 a2).keeps a2 := by
  unfold execAesCmac
  simp
@[simp] theorem execIso9797Mac1Aes_fixed (a0 : LaneId) (a1 : EngId) (a2 : State) :
    (execIso9797Mac1Aes a0 a1 a2).keeps a2 := by
  unfold execIso9797Mac1Aes
  simp
@[simp] theorem execIso9797Mac1Tdes_fixed (a0 : LaneId) (a1 : EngId) (a2 : State) :
    (execIso9797Mac1Tdes a0 a1 a2).keeps a2 := by
  unfold execIso9797Mac1Tdes
  simp
@[simp] theorem execRetailMacTdes_fixed (a0 : LaneId) (a1 : EngId) (a2 : State) :
    (execRetailMacTdes a0 a1 a2).keeps a2 := by
  unfold execRetailMacTdes
  simp
@[simp] theorem execBurOperationComplete_fixed (a0 : LaneId) (a1 : EngId) (a2 : Bool) (a3 : Bool) (a4 : State) :
    (execBurOperationComplete a0 a1 a2 a3 a4).keeps a4 := by
  unfold execBurOperationComplete
  simp
@[simp] theorem execReserveRequest_fixed (a0 : LaneId) (a1 : ReserveReq) (a2 : State) :
    (execReserveRequest a0 a1 a2).keeps a2 := by
  unfold execReserveRequest
  simp
@[simp] theorem execGenerateEcdsaP256Pair_fixed (a0 : LaneId) (a1 : EngId) (a2 : State) :
    (execGenerateEcdsaP256Pair a0 a1 a2).keeps a2 := by
  unfold execGenerateEcdsaP256Pair
  simp
@[simp] theorem execGenerateEcdsaP384Pair_fixed (a0 : LaneId) (a1 : EngId) (a2 : State) :
    (execGenerateEcdsaP384Pair a0 a1 a2).keeps a2 := by
  unfold execGenerateEcdsaP384Pair
  simp
@[simp] theorem execGenerateEd25519Pair_fixed (a0 : LaneId) (a1 : EngId) (a2 : State) :
    (execGenerateEd25519Pair a0 a1 a2).keeps a2 := by
  unfold execGenerateEd25519Pair
  simp
@[simp] theorem execGenerateMlDsa44Pair_fixed (a0 : LaneId) (a1 : EngId) (a2 : State) :
    (execGenerateMlDsa44Pair a0 a1 a2).keeps a2 := by
  unfold execGenerateMlDsa44Pair
  simp
@[simp] theorem execGenerateMlDsa65Pair_fixed (a0 : LaneId) (a1 : EngId) (a2 : State) :
    (execGenerateMlDsa65Pair a0 a1 a2).keeps a2 := by
  unfold execGenerateMlDsa65Pair
  simp
@[simp] theorem execGenerateMlDsa87Pair_fixed (a0 : LaneId) (a1 : EngId) (a2 : State) :
    (execGenerateMlDsa87Pair a0 a1 a2).keeps a2 := by
  unfold execGenerateMlDsa87Pair
  simp
@[simp] theorem execGenerateSymmetricKey_fixed (a0 : LaneId) (a1 : EngId) (a2 : State) :
    (execGenerateSymmetricKey a0 a1 a2).keeps a2 := by
  unfold execGenerateSymmetricKey
  simp
@[simp] theorem execUnwrapKeyBlock_fixed (a0 : LaneId) (a1 : EngId) (a2 : State) :
    (execUnwrapKeyBlock a0 a1 a2).keeps a2 := by
  unfold execUnwrapKeyBlock
  simp
@[simp] theorem execWrapForExport_fixed (a0 : LaneId) (a1 : EngId) (a2 : State) :
    (execWrapForExport a0 a1 a2).keeps a2 := by
  unfold execWrapForExport
  simp
@[simp] theorem execCombineComponents_fixed (a0 : LaneId) (a1 : EngId) (a2 : State) :
    (execCombineComponents a0 a1 a2).keeps a2 := by
  unfold execCombineComponents
  simp
@[simp] theorem execVerifyTokenP384_fixed (a0 : LaneId) (a1 : EngId) (a2 : State) :
    (execVerifyTokenP384 a0 a1 a2).keeps a2 := by
  unfold execVerifyTokenP384
  simp
@[simp] theorem execVerifyTokenMlDsa65_fixed (a0 : LaneId) (a1 : EngId) (a2 : State) :
    (execVerifyTokenMlDsa65 a0 a1 a2).keeps a2 := by
  unfold execVerifyTokenMlDsa65
  simp
@[simp] theorem execSignPairingManifest_fixed (a0 : LaneId) (a1 : EngId) (a2 : State) :
    (execSignPairingManifest a0 a1 a2).keeps a2 := by
  unfold execSignPairingManifest
  simp
@[simp] theorem execEcdhComponentTransport_fixed (a0 : LaneId) (a1 : EngId) (a2 : State) :
    (execEcdhComponentTransport a0 a1 a2).keeps a2 := by
  unfold execEcdhComponentTransport
  simp
@[simp] theorem execCellarerAppend_fixed (a0 : ℕ) (a1 : Code) (a2 : Bytes) (a3 : State) :
    (execCellarerAppend a0 a1 a2 a3).keeps a3 := by
  unfold execCellarerAppend
  simp
@[simp] theorem execDrainPause_fixed (a0 : Agent) (a1 : Bool) (a2 : State) :
    (execDrainPause a0 a1 a2).keeps a2 := by
  unfold execDrainPause
  simp
@[simp] theorem execLinkTraining_fixed (a0 : List ℕ) (a1 : ℕ) (a2 : Bool) (a3 : State) :
    (execLinkTraining a0 a1 a2 a3).keeps a3 := by
  unfold execLinkTraining
  cases a2 <;> simp
@[simp] theorem execLinkRetrainTimer_fixed (a0 : State) :
    (execLinkRetrainTimer a0).keeps a0 := by
  unfold execLinkRetrainTimer
  simp
@[simp] theorem execIdleAckSend_fixed (a0 : State) :
    (execIdleAckSend a0).keeps a0 := by
  unfold execIdleAckSend
  simp
@[simp] theorem execLeaseReq_fixed (a0 : RhaxHdr) (a1 : ℕ) (a2 : State) :
    (execLeaseReq a0 a1 a2).keeps a2 := by
  unfold execLeaseReq
  simp
@[simp] theorem execLeaseRefuse_fixed (a0 : RhaxHdr) (a1 : ℕ) (a2 : Code) (a3 : State) :
    (execLeaseRefuse a0 a1 a2 a3).keeps a3 := by
  unfold execLeaseRefuse
  simp
@[simp] theorem execWitnessLeaseExpiry_fixed (a0 : ℕ) (a1 : State) :
    (execWitnessLeaseExpiry a0 a1).keeps a1 := by
  unfold execWitnessLeaseExpiry
  (repeat' split) <;> simp
@[simp] theorem execTakeoverLeaseRetry_fixed (a0 : State) :
    (execTakeoverLeaseRetry a0).keeps a0 := by
  unfold execTakeoverLeaseRetry
  simp
@[simp] theorem execWcopyFetch_fixed (a0 : RhaxHdr) (a1 : ℕ) (a2 : State) :
    (execWcopyFetch a0 a1 a2).keeps a2 := by
  unfold execWcopyFetch
  simp
@[simp] theorem execWcopyDrop_fixed (a0 : RhaxHdr) (a1 : State) :
    (execWcopyDrop a0 a1).keeps a1 := by
  unfold execWcopyDrop
  simp
@[simp] theorem execWitnessSilence_fixed (a0 : State) :
    (execWitnessSilence a0).keeps a0 := by
  unfold execWitnessSilence
  simp
@[simp] theorem execXferOffer_fixed (a0 : RhaxHdr) (a1 : Bytes) (a2 : ℕ) (a3 : D64) (a4 : State) :
    (execXferOffer a0 a1 a2 a3 a4).keeps a4 := by
  unfold execXferOffer
  simp
@[simp] theorem execXferAccept_fixed (a0 : RhaxHdr) (a1 : State) :
    (execXferAccept a0 a1).keeps a1 := by
  unfold execXferAccept
  simp
@[simp] theorem execXferRefuse_fixed (a0 : RhaxHdr) (a1 : Code) (a2 : State) :
    (execXferRefuse a0 a1 a2).keeps a2 := by
  unfold execXferRefuse
  simp
@[simp] theorem execXferTiles_fixed (a0 : RhaxHdr) (a1 : Bytes) (a2 : State) :
    (execXferTiles a0 a1 a2).keeps a2 := by
  unfold execXferTiles
  simp
@[simp] theorem execVerifyResp_fixed (a0 : RhaxHdr) (a1 : Code) (a2 : State) :
    (execVerifyResp a0 a1 a2).keeps a2 := by
  unfold execVerifyResp
  simp
@[simp] theorem execTimeAnnounce_fixed (a0 : RhaxHdr) (a1 : D64) (a2 : ℤ) (a3 : W32) (a4 : ℕ) (a5 : State) :
    (execTimeAnnounce a0 a1 a2 a3 a4 a5).keeps a5 := by
  unfold execTimeAnnounce
  simp
@[simp] theorem execEthernetFrameReceive_fixed (a0 : PortId) (a1 : EthFrame) (a2 : State) :
    (execEthernetFrameReceive a0 a1 a2).keeps a2 := by
  unfold execEthernetFrameReceive
  simp
@[simp] theorem execPortLinkChange_fixed (a0 : PortId) (a1 : Bool) (a2 : Bool) (a3 : State) :
    (execPortLinkChange a0 a1 a2 a3).keeps a3 := by
  unfold execPortLinkChange
  simp
@[simp] theorem execTcpConnectionEstablish_fixed (a0 : Fin 256) (a1 : ConnInfo) (a2 : State) :
    (execTcpConnectionEstablish a0 a1 a2).keeps a2 := by
  unfold execTcpConnectionEstablish
  simp only [rom_ite, pending_ite, fst_ite, Res.keeps_ite]
  (repeat' split) <;> simp
@[simp] theorem execListenerReconnect_fixed (a0 : Fin 256) (a1 : State) :
    (execListenerReconnect a0 a1).keeps a1 := by
  unfold execListenerReconnect
  (repeat' split) <;> simp
@[simp] theorem execTcpRetransmitTimeout_fixed (a0 : SessId) (a1 : State) :
    (execTcpRetransmitTimeout a0 a1).keeps a1 := by
  unfold execTcpRetransmitTimeout
  simp
@[simp] theorem execTcpRstReceive_fixed (a0 : SessId) (a1 : State) :
    (execTcpRstReceive a0 a1).keeps a1 := by
  unfold execTcpRstReceive
  simp
@[simp] theorem execKeepaliveProbe_fixed (a0 : SessId) (a1 : State) :
    (execKeepaliveProbe a0 a1).keeps a1 := by
  unfold execKeepaliveProbe
  simp
@[simp] theorem execTlsRecordReceive_fixed (a0 : SessId) (a1 : Bool) (a2 : Bytes) (a3 : Option Bool) (a4 : State) :
    (execTlsRecordReceive a0 a1 a2 a3 a4).keeps a4 := by
  unfold execTlsRecordReceive
  (repeat' split) <;> simp
@[simp] theorem execMessageMint_fixed (a0 : SessId) (a1 : Fin 32) (a2 : State) :
    (execMessageMint a0 a1 a2).keeps a2 := by
  unfold execMessageMint
  simp only [rom_ite, pending_ite, fst_ite, Res.keeps_ite]
  (repeat' split) <;> simp
@[simp] theorem execKeyUpdateSend_fixed (a0 : SessId) (a1 : State) :
    (execKeyUpdateSend a0 a1).keeps a1 := by
  unfold execKeyUpdateSend
  simp
@[simp] theorem execHandshakeTimeout_fixed (a0 : SessId) (a1 : State) :
    (execHandshakeTimeout a0 a1).keeps a1 := by
  unfold execHandshakeTimeout
  simp
@[simp] theorem execMsgTimeout_fixed (a0 : SessId) (a1 : State) :
    (execMsgTimeout a0 a1).keeps a1 := by
  unfold execMsgTimeout
  simp
@[simp] theorem execIdleTimeout_fixed (a0 : SessId) (a1 : State) :
    (execIdleTimeout a0 a1).keeps a1 := by
  unfold execIdleTimeout
  simp
@[simp] theorem execStallTimeout_fixed (a0 : SessId) (a1 : State) :
    (execStallTimeout a0 a1).keeps a1 := by
  unfold execStallTimeout
  simp
@[simp] theorem execLingerTimeout_fixed (a0 : SessId) (a1 : State) :
    (execLingerTimeout a0 a1).keeps a1 := by
  unfold execLingerTimeout
  simp
@[simp] theorem execReclaimTimeout_fixed (a0 : SessId) (a1 : State) :
    (execReclaimTimeout a0 a1).keeps a1 := by
  unfold execReclaimTimeout
  simp
@[simp] theorem execPartnerClose_fixed (a0 : SessId) (a1 : State) :
    (execPartnerClose a0 a1).keeps a1 := by
  unfold execPartnerClose
  simp
@[simp] theorem execReleaseAccept_fixed (a0 : LaneId) (a1 : Handle) (a2 : State) :
    (execReleaseAccept a0 a1 a2).keeps a2 := by
  unfold execReleaseAccept
  (repeat' split) <;> simp
@[simp] theorem execReassignReq_fixed (a0 : Agent) (a1 : W32) (a2 : State) :
    (execReassignReq a0 a1 a2).keeps a2 := by
  unfold execReassignReq
  simp
@[simp] theorem execReassignMove_fixed (a0 : State) :
    (execReassignMove a0).keeps a0 := by
  unfold execReassignMove
  (repeat' split) <;> simp
@[simp] theorem execReassignTimeout_fixed (a0 : State) :
    (execReassignTimeout a0).keeps a0 := by
  unfold execReassignTimeout
  simp
@[simp] theorem execPtpMessageReceive_fixed (a0 : PortId) (a1 : PtpMsg) (a2 : State) :
    (execPtpMessageReceive a0 a1 a2).keeps a2 := by
  unfold execPtpMessageReceive
  (repeat' split) <;> simp
@[simp] theorem execPtpSyncLoss_fixed (a0 : State) :
    (execPtpSyncLoss a0).keeps a0 := by
  unfold execPtpSyncLoss
  simp
@[simp] theorem execHartBeatRead_fixed (a0 : HartId) (a1 : XReg) (a2 : State) :
    (execHartBeatRead a0 a1 a2).keeps a2 := by
  unfold execHartBeatRead
  simp
@[simp] theorem execCounterOverflow_fixed (a0 : HartId) (a1 : Fin 32) (a2 : State) :
    (execCounterOverflow a0 a1 a2).keeps a2 := by
  unfold execCounterOverflow
  simp
@[simp] theorem execHartInterrupt_fixed (a0 : HartId) (a1 : State) :
    (execHartInterrupt a0 a1).keeps a1 := by
  unfold execHartInterrupt
  simp only [rom_ite, pending_ite, fst_ite, Res.keeps_ite]
  (repeat' split) <;> simp
@[simp] theorem execDmactiveClear_fixed (a0 : State) :
    (execDmactiveClear a0).keeps a0 := by
  unfold execDmactiveClear
  simp
@[simp] theorem execDebugRelock_fixed (a0 : State) :
    (execDebugRelock a0).keeps a0 := by
  unfold execDebugRelock
  simp
@[simp] theorem execMemoryWrite_fixed (a0 : ChanId) (a1 : ℕ) (a2 : Bytes) (a3 : Bool) (a4 : Agent) (a5 : State) :
    (execMemoryWrite a0 a1 a2 a3 a4 a5).keeps a5 := by
  unfold execMemoryWrite
  simp
@[simp] theorem execRefreshDue_fixed (a0 : ChanId) (a1 : Fin 4) (a2 : Bool) (a3 : State) :
    (execRefreshDue a0 a1 a2 a3).keeps a3 := by
  unfold execRefreshDue
  simp
@[simp] theorem execDimmTemperatureRead_fixed (a0 : ChanId) (a1 : List ℕ) (a2 : State) :
    (execDimmTemperatureRead a0 a1 a2).keeps a2 := by
  unfold execDimmTemperatureRead
  simp
@[simp] theorem execDqsDriftTrack_fixed (a0 : ChanId) (a1 : ℤ) (a2 : State) :
    (execDqsDriftTrack a0 a1 a2).keeps a2 := by
  unfold execDqsDriftTrack
  simp
@[simp] theorem execNeighbourRefresh_fixed (a0 : ChanId) (a1 : ℕ) (a2 : State) :
    (execNeighbourRefresh a0 a1 a2).keeps a2 := by
  unfold execNeighbourRefresh
  simp only [rom_ite, pending_ite, fst_ite, Res.keeps_ite]
  (repeat' split) <;> simp
@[simp] theorem execTrainingPassStart_fixed (a0 : ChanId) (a1 : PassCause) (a2 : State) :
    (execTrainingPassStart a0 a1 a2).keeps a2 := by
  unfold execTrainingPassStart
  simp
@[simp] theorem execTrainingPassEnd_fixed (a0 : ChanId) (a1 : Bool) (a2 : State) :
    (execTrainingPassEnd a0 a1 a2).keeps a2 := by
  unfold execTrainingPassEnd
  simp only [rom_ite, pending_ite, fst_ite, Res.keeps_ite]
  (repeat' split) <;> simp
@[simp] theorem execHistClear_fixed (a0 : Agent) (a1 : ChanId) (a2 : State) :
    (execHistClear a0 a1 a2).keeps a2 := by
  unfold execHistClear
  simp
@[simp] theorem execScrubRead_fixed (a0 : ChanId) (a1 : DramErr) (a2 : State) :
    (execScrubRead a0 a1 a2).keeps a2 := by
  unfold execScrubRead
  simp
@[simp] theorem execScrubSlowWarning_fixed (a0 : ChanId) (a1 : State) :
    (execScrubSlowWarning a0 a1).keeps a1 := by
  unfold execScrubSlowWarning
  simp
@[simp] theorem execCellarerInterrupt_fixed (a0 : ℕ) (a1 : ℕ) (a2 : State) :
    (execCellarerInterrupt a0 a1 a2).keeps a2 := by
  unfold execCellarerInterrupt
  simp
@[simp] theorem execMailboxDataWrite_fixed (a0 : Agent) (a1 : MbxId) (a2 : Fin 16) (a3 : W32) (a4 : State) :
    (execMailboxDataWrite a0 a1 a2 a3 a4).keeps a4 := by
  unfold execMailboxDataWrite
  simp
@[simp] theorem execMailboxGo_fixed (a0 : Agent) (a1 : MbxId) (a2 : BitVec 8) (a3 : State) :
    (execMailboxGo a0 a1 a2 a3).keeps a3 := by
  unfold execMailboxGo
  simp
@[simp] theorem execMailboxClear_fixed (a0 : Agent) (a1 : MbxId) (a2 : State) :
    (execMailboxClear a0 a1 a2).keeps a2 := by
  unfold execMailboxClear
  simp
@[simp] theorem execMailboxRxRead_fixed (a0 : Agent) (a1 : MbxId) (a2 : State) :
    (execMailboxRxRead a0 a1 a2).keeps a2 := by
  unfold execMailboxRxRead
  simp
@[simp] theorem execMailboxRxAck_fixed (a0 : Agent) (a1 : MbxId) (a2 : BitVec 8) (a3 : Code) (a4 : State) :
    (execMailboxRxAck a0 a1 a2 a3 a4).keeps a4 := by
  unfold execMailboxRxAck
  simp
@[simp] theorem execMailboxRxExtend_fixed (a0 : Agent) (a1 : MbxId) (a2 : ℕ) (a3 : State) :
    (execMailboxRxExtend a0 a1 a2 a3).keeps a3 := by
  unfold execMailboxRxExtend
  simp
@[simp] theorem execMailboxTimeout_fixed (a0 : MbxId) (a1 : State) :
    (execMailboxTimeout a0 a1).keeps a1 := by
  unfold execMailboxTimeout
  simp
@[simp] theorem execLockRead_fixed (a0 : List Agent) (a1 : LockId) (a2 : State) :
    (execLockRead a0 a1 a2).keeps a2 := by
  unfold execLockRead
  simp
@[simp] theorem execLockWrite_fixed (a0 : Agent) (a1 : LockId) (a2 : W32) (a3 : State) :
    (execLockWrite a0 a1 a2 a3).keeps a3 := by
  unfold execLockWrite
  simp
@[simp] theorem execTicketExpiry_fixed (a0 : ℕ) (a1 : State) :
    (execTicketExpiry a0 a1).keeps a1 := by
  unfold execTicketExpiry
  (repeat' split) <;> simp
@[simp] theorem execEntropyHealthFailure_fixed (a0 : State) :
    (execEntropyHealthFailure a0).keeps a0 := by
  unfold execEntropyHealthFailure
  simp
@[simp] theorem execReseedLapse_fixed (a0 : State) :
    (execReseedLapse a0).keeps a0 := by
  unfold execReseedLapse
  simp
@[simp] theorem execPcieLinkUp_fixed (a0 : Fin 5) (a1 : Fin 4) (a2 : Fin 7) (a3 : Fin 3) (a4 : Bool) (a5 : State) :
    (execPcieLinkUp a0 a1 a2 a3 a4 a5).keeps a5 := by
  unfold execPcieLinkUp
  (repeat' split) <;> simp
@[simp] theorem execCompletionTimeout_fixed (a0 : ℕ) (a1 : State) :
    (execCompletionTimeout a0 a1).keeps a1 := by
  unfold execCompletionTimeout
  (repeat' split) <;> simp
@[simp] theorem execTagQuarantineExpiry_fixed (a0 : ℕ) (a1 : State) :
    (execTagQuarantineExpiry a0 a1).keeps a1 := by
  unfold execTagQuarantineExpiry
  (repeat' split) <;> simp
@[simp] theorem execInvalidateRequest_fixed (a0 : Fin 65) (a1 : ℕ) (a2 : ℕ) (a3 : State) :
    (execInvalidateRequest a0 a1 a2 a3).keeps a3 := by
  unfold execInvalidateRequest
  simp
@[simp] theorem execInvalidateCompletion_fixed (a0 : Fin 65) (a1 : State) :
    (execInvalidateCompletion a0 a1).keeps a1 := by
  unfold execInvalidateCompletion
  simp
@[simp] theorem execBusMasterEnableClear_fixed (a0 : Fin 65) (a1 : Bool) (a2 : State) :
    (execBusMasterEnableClear a0 a1 a2).keeps a2 := by
  unfold execBusMasterEnableClear
  simp
@[simp] theorem execFunctionLevelReset_fixed (a0 : Fin 65) (a1 : State) :
    (execFunctionLevelReset a0 a1).keeps a1 := by
  unfold execFunctionLevelReset
  simp
@[simp] theorem execVfEnable_fixed (a0 : Bool) (a1 : Fin 65) (a2 : State) :
    (execVfEnable a0 a1 a2).keeps a2 := by
  unfold execVfEnable
  simp
@[simp] theorem execMsixUnmask_fixed (a0 : Fin 65) (a1 : ℕ) (a2 : State) :
    (execMsixUnmask a0 a1 a2).keeps a2 := by
  unfold execMsixUnmask
  simp
@[simp] theorem execArkEnable_fixed (a0 : Agent) (a1 : ArkId) (a2 : Bool) (a3 : State) :
    (execArkEnable a0 a1 a2 a3).keeps a3 := by
  unfold execArkEnable
  simp
@[simp] theorem execArkAbort_fixed (a0 : Agent) (a1 : ArkId) (a2 : State) :
    (execArkAbort a0 a1 a2).keeps a2 := by
  unfold execArkAbort
  simp
@[simp] theorem execCompress_fixed (a0 : ArkId) (a1 : List ℕ) (a2 : Bool) (a3 : State) :
    (execCompress a0 a1 a2 a3).keeps a3 := by
  unfold execCompress
  simp
@[simp] theorem execDecompress_fixed (a0 : ArkId) (a1 : Bool) (a2 : State) :
    (execDecompress a0 a1 a2).keeps a2 := by
  unfold execDecompress
  simp
@[simp] theorem execVerify_fixed (a0 : ArkId) (a1 : Bool) (a2 : State) :
    (execVerify a0 a1 a2).keeps a2 := by
  unfold execVerify
  simp
@[simp] theorem execFreezeStop_fixed (a0 : State) :
    (execFreezeStop a0).keeps a0 := by
  unfold execFreezeStop
  simp
@[simp] theorem execAtticCopyComplete_fixed (a0 : State) :
    (execAtticCopyComplete a0).keeps a0 := by
  unfold execAtticCopyComplete
  simp
@[simp] theorem execAtticRead_fixed (a0 : ℕ) (a1 : State) :
    (execAtticRead a0 a1).keeps a1 := by
  unfold execAtticRead
  simp
@[simp] theorem execClrHist_fixed (a0 : Agent) (a1 : LaneId) (a2 : State) :
    (execClrHist a0 a1 a2).keeps a2 := by
  unfold execClrHist
  simp
@[simp] theorem execClrCtr_fixed (a0 : Agent) (a1 : LaneId) (a2 : State) :
    (execClrCtr a0 a1 a2).keeps a2 := by
  unfold execClrCtr
  simp
@[simp] theorem execFullColdReset_fixed (a0 : BitVec 16) (a1 : Bool) (a2 : State) :
    (execFullColdReset a0 a1 a2).keeps a2 := by
  unfold execFullColdReset
  simp
@[simp] theorem execColdRstN_fixed (a0 : ℕ) (a1 : BitVec 16) (a2 : State) :
    (execColdRstN a0 a1 a2).keeps a2 := by
  unfold execColdRstN
  simp
@[simp] theorem execMainColdStart_fixed (a0 : BitVec 16) (a1 : State) :
    (execMainColdStart a0 a1).keeps a1 := by
  unfold execMainColdStart
  simp
@[simp] theorem execPwrgdFall_fixed (a0 : State) :
    (execPwrgdFall a0).keeps a0 := by
  unfold execPwrgdFall
  simp
@[simp] theorem execWarmResetExit_fixed (a0 : State) :
    (execWarmResetExit a0).keeps a0 := by
  unfold execWarmResetExit
  simp
@[simp] theorem execFirmwareVerifyComplete_fixed (a0 : Bool) (a1 : Bool) (a2 : Bool) (a3 : State) :
    (execFirmwareVerifyComplete a0 a1 a2 a3).keeps a3 := by
  unfold execFirmwareVerifyComplete
  simp only [rom_ite, pending_ite, fst_ite, Res.keeps_ite]
  (repeat' split) <;> simp
@[simp] theorem execHartRst_fixed (a0 : Agent) (a1 : HartId) (a2 : State) :
    (execHartRst a0 a1 a2).keeps a2 := by
  unfold execHartRst
  simp
@[simp] theorem execPowerManagerInterval_fixed (a0 : ℕ) (a1 : ℕ) (a2 : State) :
    (execPowerManagerInterval a0 a1 a2).keeps a2 := by
  unfold execPowerManagerInterval
  simp
@[simp] theorem execPwrTdp_fixed (a0 : Agent) (a1 : W32) (a2 : State) :
    (execPwrTdp a0 a1 a2).keeps a2 := by
  unfold execPwrTdp
  simp
@[simp] theorem execBayThermalLimit_fixed (a0 : SliceId) (a1 : ℕ) (a2 : State) :
    (execBayThermalLimit a0 a1 a2).keeps a2 := by
  unfold execBayThermalLimit
  simp
@[simp] theorem execProchotSensor_fixed (a0 : ℕ) (a1 : State) :
    (execProchotSensor a0 a1).keeps a1 := by
  unfold execProchotSensor
  simp
@[simp] theorem execProchotNInput_fixed (a0 : Bool) (a1 : State) :
    (execProchotNInput a0 a1).keeps a1 := by
  unfold execProchotNInput
  simp
@[simp] theorem execThermalTrip_fixed (a0 : ℕ) (a1 : Bool) (a2 : ℕ) (a3 : State) :
    (execThermalTrip a0 a1 a2 a3).keeps a3 := by
  unfold execThermalTrip
  simp
@[simp] theorem execReferenceClockLoss_fixed (a0 : ℕ) (a1 : State) :
    (execReferenceClockLoss a0 a1).keeps a1 := by
  unfold execReferenceClockLoss
  simp
@[simp] theorem execAvsbusFailure_fixed (a0 : Fin 4) (a1 : State) :
    (execAvsbusFailure a0 a1).keeps a1 := by
  unfold execAvsbusFailure
  simp
@[simp] theorem execAvsbusRetry_fixed (a0 : Fin 4) (a1 : Bool) (a2 : State) :
    (execAvsbusRetry a0 a1 a2).keeps a2 := by
  unfold execAvsbusRetry
  simp
@[simp] theorem execSidebandRelease_fixed (a0 : State) :
    (execSidebandRelease a0).keeps a0 := by
  unfold execSidebandRelease
  simp
@[simp] theorem execI3cAccess_fixed (a0 : ℕ) (a1 : Option W32) (a2 : State) :
    (execI3cAccess a0 a1 a2).keeps a2 := by
  unfold execI3cAccess
  (repeat' split) <;> simp
@[simp] theorem execTilePortTransferEnd_fixed (a0 : LaneId) (a1 : Handle) (a2 : State) :
    (execTilePortTransferEnd a0 a1 a2).keeps a2 := by
  unfold execTilePortTransferEnd
  simp only [rom_ite, pending_ite, fst_ite, Res.keeps_ite]
  (repeat' split) <;> simp
@[simp] theorem execHeaderHcrcFailure_fixed (a0 : ℕ) (a1 : State) :
    (execHeaderHcrcFailure a0 a1).keeps a1 := by
  unfold execHeaderHcrcFailure
  simp
@[simp] theorem execGratuitousArp_fixed (a0 : Fin 64) (a1 : State) :
    (execGratuitousArp a0 a1).keeps a1 := by
  unfold execGratuitousArp
  (repeat' split) <;> simp
@[simp] theorem execStandbyPowerLoss_fixed (a0 : State) :
    (execStandbyPowerLoss a0).keeps a0 := by
  unfold execStandbyPowerLoss
  simp
@[simp] theorem execPresenceDetectChange_fixed (a0 : Fin 4) (a1 : Fin 4) (a2 : Bool) (a3 : State) :
    (execPresenceDetectChange a0 a1 a2 a3).keeps a3 := by
  unfold execPresenceDetectChange
  simp

end Sys2Proof.Machine
end

