-- ==== Sys2Proof/Laws/Word.lean ====
section
/-!
SUPPORT. The laws of the sparse tables: a read after a write, and the canonical form that every write keeps.
-/

namespace Sys2Proof.SMap
open Sys2Proof

variable {α : Type}

@[simp] theorem find_nil (k : Nat) : find k ([] : SMap α) = none := rfl

theorem find_put (k j : Nat) (v : α) (m : SMap α) : find j (put k v m) = if j = k then some v else find j m := by
  simp only [eq_comm (a := j) (b := k)]
  induction m with
  | nil => rfl
  | cons p m ih =>
    obtain ⟨i, w⟩ := p
    simp only [put]
    split
    · rfl
    · split
      · subst i; simp only [find]; split <;> rfl
      · simp only [find, ih]; split
        · subst i; rename_i h; simp [Ne.symm h]
        · rfl

theorem find_del (k j : Nat) (m : SMap α) : find j (del k m) = if j = k then none else find j m := by
  simp only [eq_comm (a := j) (b := k)]
  induction m with
  | nil => simp [del, find]
  | cons p m ih =>
    obtain ⟨i, w⟩ := p
    simp only [del]
    split
    · subst i; rw [ih]; simp only [find]; split <;> rfl
    · simp only [find, ih]; split
      · subst i; rename_i h; simp [Ne.symm h]
      · rfl

@[simp] theorem find_put_self (k : Nat) (v : α) (m : SMap α) : find k (put k v m) = some v := by simp [find_put]
@[simp] theorem find_put_ne {k j : Nat} (h : j ≠ k) (v : α) (m : SMap α) : find j (put k v m) = find j m := by
  simp [find_put, h]

theorem get_put (d : α) (k j : Nat) (v : α) (m : SMap α) : get d j (put k v m) = if j = k then v else get d j m := by
  simp only [get, find_put]; split <;> rfl

/-- A read after a write: the value written at its key, the old value elsewhere. -/
theorem get_set [DecidableEq α] (d : α) (k j : Nat) (v : α) (m : SMap α) :
    get d j (set d k v m) = if j = k then v else get d j m := by
  simp only [get, set]
  split
  · rename_i h; rw [find_del]; split <;> simp [h]
  · rw [find_put]; split <;> rfl

@[simp] theorem get_set_self [DecidableEq α] (d : α) (k : Nat) (v : α) (m : SMap α) : get d k (set d k v m) = v := by
  simp [get_set]
@[simp] theorem get_set_ne [DecidableEq α] (d : α) {k j : Nat} (h : j ≠ k) (v : α) (m : SMap α) :
    get d j (set d k v m) = get d j m := by
  simp [get_set, h]
@[simp] theorem get_nil (d : α) (k : Nat) : get d k ([] : SMap α) = d := rfl

/-! ### The canonical form -/

theorem sortedFrom_mono {b c : Nat} (h : c ≤ b) : ∀ m : SMap α, sortedFrom (some b) m = true → sortedFrom (some c) m = true
  | [], _ => rfl
  | (j, _) :: m, hm => by
    simp only [sortedFrom, Bool.and_eq_true, decide_eq_true_eq] at hm ⊢
    exact ⟨by omega, hm.2⟩

theorem sortedFrom_del (k : Nat) : ∀ (o : Option Nat) (m : SMap α), sortedFrom o m = true → sortedFrom o (del k m) = true
  | _, [], h => h
  | none, (j, w) :: m, h => by
    simp only [sortedFrom] at h
    simp only [del]; split
    · have := sortedFrom_del k (some j) m h
      cases hd : del k m with
      | nil => rfl
      | cons p r => obtain ⟨a, b⟩ := p; rw [hd] at this; simp only [sortedFrom, Bool.and_eq_true] at this ⊢; exact this.2
    · simpa only [sortedFrom] using sortedFrom_del k (some j) m h
  | some b, (j, w) :: m, h => by
    simp only [sortedFrom, Bool.and_eq_true, decide_eq_true_eq] at h
    simp only [del]; split
    · exact sortedFrom_mono (by omega) _ (sortedFrom_del k (some j) m h.2)
    · simp only [sortedFrom, Bool.and_eq_true, decide_eq_true_eq]
      exact ⟨h.1, sortedFrom_del k (some j) m h.2⟩

theorem sortedFrom_put (k : Nat) (v : α) :
    ∀ (o : Option Nat) (m : SMap α), (∀ b, o = some b → b < k) → sortedFrom o m = true → sortedFrom o (put k v m) = true
  | none, [], _, _ => rfl
  | some b, [], hb, _ => by simp [put, sortedFrom, hb b rfl]
  | none, (j, w) :: m, _, h => by
    simp only [sortedFrom] at h
    simp only [put]; split
    · simp only [sortedFrom, Bool.and_eq_true, decide_eq_true_eq]; exact ⟨by assumption, h⟩
    · split
      · subst j; simpa only [sortedFrom] using h
      · simp only [sortedFrom]
        exact sortedFrom_put k v (some j) m (by intro b hb; cases hb; omega) h
  | some b, (j, w) :: m, hb, h => by
    simp only [sortedFrom, Bool.and_eq_true, decide_eq_true_eq] at h
    simp only [put]; split
    · simp only [sortedFrom, Bool.and_eq_true, decide_eq_true_eq]; exact ⟨hb b rfl, by assumption, h.2⟩
    · split
      · subst j; simp only [sortedFrom, Bool.and_eq_true, decide_eq_true_eq]; exact h
      · simp only [sortedFrom, Bool.and_eq_true, decide_eq_true_eq]
        exact ⟨h.1, sortedFrom_put k v (some j) m (by intro c hc; cases hc; omega) h.2⟩

theorem mem_del {k : Nat} {p : Nat × α} : ∀ {m : SMap α}, p ∈ del k m → p ∈ m
  | [], h => h
  | (j, w) :: m, h => by
    simp only [del] at h; split at h
    · exact List.mem_cons_of_mem _ (mem_del h)
    · rcases List.mem_cons.1 h with e | e
      · exact e ▸ List.mem_cons_self
      · exact List.mem_cons_of_mem _ (mem_del e)

theorem mem_put {k : Nat} {v : α} {p : Nat × α} : ∀ {m : SMap α}, p ∈ put k v m → p = (k, v) ∨ p ∈ m
  | [], h => by simp only [put, List.mem_singleton] at h; exact .inl h
  | (j, w) :: m, h => by
    simp only [put] at h; split at h
    · rcases List.mem_cons.1 h with e | e
      · exact .inl e
      · exact .inr e
    · split at h
      · rcases List.mem_cons.1 h with e | e
        · exact .inl e
        · exact .inr (List.mem_cons_of_mem _ e)
      · rcases List.mem_cons.1 h with e | e
        · exact .inr (e ▸ List.mem_cons_self)
        · rcases mem_put e with e | e
          · exact .inl e
          · exact .inr (List.mem_cons_of_mem _ e)

/-- A write keeps the order of the keys. -/
theorem sorted_set [DecidableEq α] (d : α) (k : Nat) (v : α) (m : SMap α) (h : sorted m = true) : sorted (set d k v m) = true := by
  unfold sorted set at *; split
  · exact sortedFrom_del k none m h
  · exact sortedFrom_put k v none m (by intro b hb; cases hb) h

/-- A write lists no default value. -/
theorem noDefault_set [DecidableEq α] (d : α) (k : Nat) (v : α) (m : SMap α) (h : noDefault d m = true) :
    noDefault d (set d k v m) = true := by
  simp only [noDefault, List.all_eq_true, decide_eq_true_eq] at *
  intro p hp; unfold set at hp; split at hp
  · exact h p (mem_del hp)
  · rcases mem_put hp with e | e
    · subst e; assumption
    · exact h p e

end Sys2Proof.SMap
end

