-- ==== Sys2Proof/Laws/Mem.lean ====
section
/-!
SUPPORT. The sparse memory keeps its canonical form: every write does, reset's memory has it; how many bytes a read gives;
one byte after one byte's write.
-/

namespace Sys2Proof.Machine
open Sys2Proof

theorem memWf_set (m : SMap Byte) (a : Nat) (v : Byte) (h : Memory.wf m = true) : Memory.wf (SMap.set 0 a v m) = true := by
  simp only [Memory.wf, Bool.and_eq_true] at *
  exact ⟨SMap.sorted_set 0 a v m h.1, SMap.noDefault_set 0 a v m h.2⟩
theorem memWf_foldl (a : Nat) : ∀ (l : List (Byte × Nat)) (m : SMap Byte), Memory.wf m = true →
    Memory.wf (l.foldl (fun m p => SMap.set 0 (a + p.2) p.1 m) m) = true
  | [], _, h => h
  | p :: l, m, h => memWf_foldl a l _ (memWf_set m (a + p.2) p.1 h)
/-- Every write keeps the canonical form. -/
theorem memWrite_wf (m : SMap Byte) (a : Nat) (b : Bytes) (h : Memory.wf m = true) : Memory.wf (memWrite m a b) = true :=
  memWf_foldl a _ m h
/-- Reset's DRAM is canonical. -/
theorem reset_dram_wf : Memory.wf State.reset.dram = true := rfl
@[simp] theorem memRead_length (m : SMap Byte) (a n : Nat) : (memRead m a n).length = n := by simp [memRead]
@[simp] theorem memWrite_nil (m : SMap Byte) (a : Nat) : memWrite m a [] = m := rfl
@[simp] theorem memRead_zero (m : SMap Byte) (a : Nat) : memRead m a 0 = [] := rfl
theorem memRead_one (m : SMap Byte) (a : Nat) : memRead m a 1 = [SMap.get 0 a m] := rfl
theorem memWrite_one (m : SMap Byte) (a : Nat) (v : Byte) : memWrite m a [v] = SMap.set 0 a v m := rfl
theorem memRead_write_one (m : SMap Byte) (a c : Nat) (v : Byte) :
    memRead (memWrite m a [v]) c 1 = if c = a then [v] else memRead m c 1 := by
  rw [memWrite_one, memRead_one, memRead_one, SMap.get_set]
  split <;> rfl

end Sys2Proof.Machine
end

