-- ==== Sys2Proof/Laws/State.lean ====
section
/-!
SUPPORT. What each basic operation on the state leaves alone: every other field, and every reading of it; and what a read
after a write of registers, lanes, threads, rings and controllers gives. An operation's shape lemma says once everything
it can change.
-/

namespace Sys2Proof.Machine
open Sys2Proof

/-- A change of `regs` leaves every other field. -/
theorem State.with_regs (s : State) (x0 : SMap W32) :
    ({ s with regs := x0 } : State).pending = s.pending ∧ ({ s with regs := x0 } : State).latch = s.latch ∧
    ({ s with regs := x0 } : State).readRes = s.readRes ∧ ({ s with regs := x0 } : State).readErr = s.readErr ∧
    ({ s with regs := x0 } : State).free = s.free ∧ ({ s with regs := x0 } : State).laneClk = s.laneClk ∧
    ({ s with regs := x0 } : State).btm = s.btm ∧ ({ s with regs := x0 } : State).lanes = s.lanes ∧
    ({ s with regs := x0 } : State).jrn = s.jrn ∧ ({ s with regs := x0 } : State).dram = s.dram ∧
    ({ s with regs := x0 } : State).mem = s.mem ∧ ({ s with regs := x0 } : State).poison = s.poison ∧
    ({ s with regs := x0 } : State).rom = s.rom ∧ ({ s with regs := x0 } : State).dramTop = s.dramTop ∧
    ({ s with regs := x0 } : State).msis = s.msis ∧ ({ s with regs := x0 } : State).rsvDone = s.rsvDone ∧
    ({ s with regs := x0 } : State).gar = s.gar ∧ ({ s with regs := x0 } : State).twin = s.twin ∧
    ({ s with regs := x0 } : State).str = s.str ∧ ({ s with regs := x0 } : State).harts = s.harts ∧
    ({ s with regs := x0 } : State).firewall = s.firewall ∧ ({ s with regs := x0 } : State).windows = s.windows ∧
    ({ s with regs := x0 } : State).cel = s.cel ∧ ({ s with regs := x0 } : State).net = s.net ∧
    ({ s with regs := x0 } : State).pcie = s.pcie ∧ ({ s with regs := x0 } : State).ark = s.ark ∧
    ({ s with regs := x0 } : State).pwr = s.pwr := by
  and_intros <;> rfl
theorem State.with_regs_reads (s : State) (x0 : SMap W32) (m q u : Nat) :
    ({ s with regs := x0 } : State).lane m = s.lane m ∧ ({ s with regs := x0 } : State).thr m u = s.thr m u ∧
    ({ s with regs := x0 } : State).ring q = s.ring q ∧ ({ s with regs := x0 } : State).dmc q = s.dmc q ∧
    ({ s with regs := x0 } : State).tai = s.tai ∧ ({ s with regs := x0 } : State).epoch = s.epoch := by
  and_intros <;> rfl
@[simp] theorem State.setReg_fields (s : State) (a v : Nat) :
    (s.setReg a v).pending = s.pending ∧ (s.setReg a v).latch = s.latch ∧ (s.setReg a v).readRes = s.readRes ∧
    (s.setReg a v).readErr = s.readErr ∧ (s.setReg a v).free = s.free ∧ (s.setReg a v).laneClk = s.laneClk ∧
    (s.setReg a v).btm = s.btm ∧ (s.setReg a v).lanes = s.lanes ∧ (s.setReg a v).jrn = s.jrn ∧ (s.setReg a v).dram =
    s.dram ∧ (s.setReg a v).mem = s.mem ∧ (s.setReg a v).poison = s.poison ∧ (s.setReg a v).rom = s.rom ∧ (s.setReg a
    v).dramTop = s.dramTop ∧ (s.setReg a v).msis = s.msis ∧ (s.setReg a v).rsvDone = s.rsvDone ∧ (s.setReg a v).gar =
    s.gar ∧ (s.setReg a v).twin = s.twin ∧ (s.setReg a v).str = s.str ∧ (s.setReg a v).harts = s.harts ∧ (s.setReg a
    v).firewall = s.firewall ∧ (s.setReg a v).windows = s.windows ∧ (s.setReg a v).cel = s.cel ∧ (s.setReg a v).net =
    s.net ∧ (s.setReg a v).pcie = s.pcie ∧ (s.setReg a v).ark = s.ark ∧ (s.setReg a v).pwr = s.pwr :=
  State.with_regs s _
@[simp] theorem State.setReg_reads (s : State) (a v : Nat) (m q u : Nat) :
    (s.setReg a v).lane m = s.lane m ∧ (s.setReg a v).thr m u = s.thr m u ∧ (s.setReg a v).ring q = s.ring q ∧
    (s.setReg a v).dmc q = s.dmc q ∧ (s.setReg a v).tai = s.tai ∧ (s.setReg a v).epoch = s.epoch :=
  State.with_regs_reads s _ m q u
@[simp] theorem State.incReg_fields (s : State) (a k : Nat) :
    (s.incReg a k).pending = s.pending ∧ (s.incReg a k).latch = s.latch ∧ (s.incReg a k).readRes = s.readRes ∧
    (s.incReg a k).readErr = s.readErr ∧ (s.incReg a k).free = s.free ∧ (s.incReg a k).laneClk = s.laneClk ∧
    (s.incReg a k).btm = s.btm ∧ (s.incReg a k).lanes = s.lanes ∧ (s.incReg a k).jrn = s.jrn ∧ (s.incReg a k).dram =
    s.dram ∧ (s.incReg a k).mem = s.mem ∧ (s.incReg a k).poison = s.poison ∧ (s.incReg a k).rom = s.rom ∧ (s.incReg a
    k).dramTop = s.dramTop ∧ (s.incReg a k).msis = s.msis ∧ (s.incReg a k).rsvDone = s.rsvDone ∧ (s.incReg a k).gar =
    s.gar ∧ (s.incReg a k).twin = s.twin ∧ (s.incReg a k).str = s.str ∧ (s.incReg a k).harts = s.harts ∧ (s.incReg a
    k).firewall = s.firewall ∧ (s.incReg a k).windows = s.windows ∧ (s.incReg a k).cel = s.cel ∧ (s.incReg a k).net =
    s.net ∧ (s.incReg a k).pcie = s.pcie ∧ (s.incReg a k).ark = s.ark ∧ (s.incReg a k).pwr = s.pwr :=
  State.with_regs s _
@[simp] theorem State.incReg_reads (s : State) (a k : Nat) (m q u : Nat) :
    (s.incReg a k).lane m = s.lane m ∧ (s.incReg a k).thr m u = s.thr m u ∧ (s.incReg a k).ring q = s.ring q ∧
    (s.incReg a k).dmc q = s.dmc q ∧ (s.incReg a k).tai = s.tai ∧ (s.incReg a k).epoch = s.epoch :=
  State.with_regs_reads s _ m q u
@[simp] theorem State.incField_fields (s : State) (a hi lo : Nat) :
    (s.incField a hi lo).pending = s.pending ∧ (s.incField a hi lo).latch = s.latch ∧ (s.incField a hi lo).readRes =
    s.readRes ∧ (s.incField a hi lo).readErr = s.readErr ∧ (s.incField a hi lo).free = s.free ∧ (s.incField a hi
    lo).laneClk = s.laneClk ∧ (s.incField a hi lo).btm = s.btm ∧ (s.incField a hi lo).lanes = s.lanes ∧ (s.incField a
    hi lo).jrn = s.jrn ∧ (s.incField a hi lo).dram = s.dram ∧ (s.incField a hi lo).mem = s.mem ∧ (s.incField a hi
    lo).poison = s.poison ∧ (s.incField a hi lo).rom = s.rom ∧ (s.incField a hi lo).dramTop = s.dramTop ∧ (s.incField
    a hi lo).msis = s.msis ∧ (s.incField a hi lo).rsvDone = s.rsvDone ∧ (s.incField a hi lo).gar = s.gar ∧
    (s.incField a hi lo).twin = s.twin ∧ (s.incField a hi lo).str = s.str ∧ (s.incField a hi lo).harts = s.harts ∧
    (s.incField a hi lo).firewall = s.firewall ∧ (s.incField a hi lo).windows = s.windows ∧ (s.incField a hi lo).cel
    = s.cel ∧ (s.incField a hi lo).net = s.net ∧ (s.incField a hi lo).pcie = s.pcie ∧ (s.incField a hi lo).ark =
    s.ark ∧ (s.incField a hi lo).pwr = s.pwr :=
  State.with_regs s _
@[simp] theorem State.incField_reads (s : State) (a hi lo : Nat) (m q u : Nat) :
    (s.incField a hi lo).lane m = s.lane m ∧ (s.incField a hi lo).thr m u = s.thr m u ∧ (s.incField a hi lo).ring q =
    s.ring q ∧ (s.incField a hi lo).dmc q = s.dmc q ∧ (s.incField a hi lo).tai = s.tai ∧ (s.incField a hi lo).epoch =
    s.epoch :=
  State.with_regs_reads s _ m q u
@[simp] theorem State.setField_fields (s : State) (a hi lo v : Nat) :
    (s.setField a hi lo v).pending = s.pending ∧ (s.setField a hi lo v).latch = s.latch ∧ (s.setField a hi lo
    v).readRes = s.readRes ∧ (s.setField a hi lo v).readErr = s.readErr ∧ (s.setField a hi lo v).free = s.free ∧
    (s.setField a hi lo v).laneClk = s.laneClk ∧ (s.setField a hi lo v).btm = s.btm ∧ (s.setField a hi lo v).lanes =
    s.lanes ∧ (s.setField a hi lo v).jrn = s.jrn ∧ (s.setField a hi lo v).dram = s.dram ∧ (s.setField a hi lo v).mem
    = s.mem ∧ (s.setField a hi lo v).poison = s.poison ∧ (s.setField a hi lo v).rom = s.rom ∧ (s.setField a hi lo
    v).dramTop = s.dramTop ∧ (s.setField a hi lo v).msis = s.msis ∧ (s.setField a hi lo v).rsvDone = s.rsvDone ∧
    (s.setField a hi lo v).gar = s.gar ∧ (s.setField a hi lo v).twin = s.twin ∧ (s.setField a hi lo v).str = s.str ∧
    (s.setField a hi lo v).harts = s.harts ∧ (s.setField a hi lo v).firewall = s.firewall ∧ (s.setField a hi lo
    v).windows = s.windows ∧ (s.setField a hi lo v).cel = s.cel ∧ (s.setField a hi lo v).net = s.net ∧ (s.setField a
    hi lo v).pcie = s.pcie ∧ (s.setField a hi lo v).ark = s.ark ∧ (s.setField a hi lo v).pwr = s.pwr :=
  State.with_regs s _
@[simp] theorem State.setField_reads (s : State) (a hi lo v : Nat) (m q u : Nat) :
    (s.setField a hi lo v).lane m = s.lane m ∧ (s.setField a hi lo v).thr m u = s.thr m u ∧ (s.setField a hi lo
    v).ring q = s.ring q ∧ (s.setField a hi lo v).dmc q = s.dmc q ∧ (s.setField a hi lo v).tai = s.tai ∧ (s.setField
    a hi lo v).epoch = s.epoch :=
  State.with_regs_reads s _ m q u
@[simp] theorem State.setLreg_fields (s : State) (n x v : Nat) :
    (s.setLreg n x v).pending = s.pending ∧ (s.setLreg n x v).latch = s.latch ∧ (s.setLreg n x v).readRes = s.readRes
    ∧ (s.setLreg n x v).readErr = s.readErr ∧ (s.setLreg n x v).free = s.free ∧ (s.setLreg n x v).laneClk = s.laneClk
    ∧ (s.setLreg n x v).btm = s.btm ∧ (s.setLreg n x v).lanes = s.lanes ∧ (s.setLreg n x v).jrn = s.jrn ∧ (s.setLreg
    n x v).dram = s.dram ∧ (s.setLreg n x v).mem = s.mem ∧ (s.setLreg n x v).poison = s.poison ∧ (s.setLreg n x
    v).rom = s.rom ∧ (s.setLreg n x v).dramTop = s.dramTop ∧ (s.setLreg n x v).msis = s.msis ∧ (s.setLreg n x
    v).rsvDone = s.rsvDone ∧ (s.setLreg n x v).gar = s.gar ∧ (s.setLreg n x v).twin = s.twin ∧ (s.setLreg n x v).str
    = s.str ∧ (s.setLreg n x v).harts = s.harts ∧ (s.setLreg n x v).firewall = s.firewall ∧ (s.setLreg n x v).windows
    = s.windows ∧ (s.setLreg n x v).cel = s.cel ∧ (s.setLreg n x v).net = s.net ∧ (s.setLreg n x v).pcie = s.pcie ∧
    (s.setLreg n x v).ark = s.ark ∧ (s.setLreg n x v).pwr = s.pwr :=
  State.with_regs s _
@[simp] theorem State.setLreg_reads (s : State) (n x v : Nat) (m q u : Nat) :
    (s.setLreg n x v).lane m = s.lane m ∧ (s.setLreg n x v).thr m u = s.thr m u ∧ (s.setLreg n x v).ring q = s.ring q
    ∧ (s.setLreg n x v).dmc q = s.dmc q ∧ (s.setLreg n x v).tai = s.tai ∧ (s.setLreg n x v).epoch = s.epoch :=
  State.with_regs_reads s _ m q u
/-- A change of `readRes, readErr` leaves every other field. -/
theorem State.with_readRes_readErr (s : State) (x0 : SMap Nat) (x1 : SMap Nat) :
    ({ s with readRes := x0, readErr := x1 } : State).pending = s.pending ∧ ({ s with readRes := x0, readErr := x1 }
    : State).regs = s.regs ∧ ({ s with readRes := x0, readErr := x1 } : State).latch = s.latch ∧
    ({ s with readRes := x0, readErr := x1 } : State).free = s.free ∧ ({ s with readRes := x0, readErr := x1 } :
    State).laneClk = s.laneClk ∧ ({ s with readRes := x0, readErr := x1 } : State).btm = s.btm ∧
    ({ s with readRes := x0, readErr := x1 } : State).lanes = s.lanes ∧ ({ s with readRes := x0, readErr := x1 } :
    State).jrn = s.jrn ∧ ({ s with readRes := x0, readErr := x1 } : State).dram = s.dram ∧
    ({ s with readRes := x0, readErr := x1 } : State).mem = s.mem ∧ ({ s with readRes := x0, readErr := x1 } :
    State).poison = s.poison ∧ ({ s with readRes := x0, readErr := x1 } : State).rom = s.rom ∧
    ({ s with readRes := x0, readErr := x1 } : State).dramTop = s.dramTop ∧ ({ s with readRes := x0, readErr := x1 }
    : State).msis = s.msis ∧ ({ s with readRes := x0, readErr := x1 } : State).rsvDone = s.rsvDone ∧
    ({ s with readRes := x0, readErr := x1 } : State).gar = s.gar ∧ ({ s with readRes := x0, readErr := x1 } :
    State).twin = s.twin ∧ ({ s with readRes := x0, readErr := x1 } : State).str = s.str ∧
    ({ s with readRes := x0, readErr := x1 } : State).harts = s.harts ∧ ({ s with readRes := x0, readErr := x1 } :
    State).firewall = s.firewall ∧ ({ s with readRes := x0, readErr := x1 } : State).windows = s.windows ∧
    ({ s with readRes := x0, readErr := x1 } : State).cel = s.cel ∧ ({ s with readRes := x0, readErr := x1 } :
    State).net = s.net ∧ ({ s with readRes := x0, readErr := x1 } : State).pcie = s.pcie ∧
    ({ s with readRes := x0, readErr := x1 } : State).ark = s.ark ∧ ({ s with readRes := x0, readErr := x1 } :
    State).pwr = s.pwr := by
  and_intros <;> rfl
theorem State.with_readRes_readErr_reads (s : State) (x0 : SMap Nat) (x1 : SMap Nat) (b m o q u : Nat) :
    ({ s with readRes := x0, readErr := x1 } : State).reg b = s.reg b ∧ ({ s with readRes := x0, readErr := x1 } :
    State).lreg m o = s.lreg m o ∧ ({ s with readRes := x0, readErr := x1 } : State).lane m = s.lane m ∧
    ({ s with readRes := x0, readErr := x1 } : State).thr m u = s.thr m u ∧ ({ s with readRes := x0, readErr := x1 }
    : State).ring q = s.ring q ∧ ({ s with readRes := x0, readErr := x1 } : State).dmc q = s.dmc q ∧
    ({ s with readRes := x0, readErr := x1 } : State).tai = s.tai ∧ ({ s with readRes := x0, readErr := x1 } :
    State).epoch = s.epoch := by
  and_intros <;> rfl
@[simp] theorem State.answer_fields (s : State) (a v : Nat) :
    (s.answer a v).pending = s.pending ∧ (s.answer a v).regs = s.regs ∧ (s.answer a v).latch = s.latch ∧ (s.answer a
    v).free = s.free ∧ (s.answer a v).laneClk = s.laneClk ∧ (s.answer a v).btm = s.btm ∧ (s.answer a v).lanes =
    s.lanes ∧ (s.answer a v).jrn = s.jrn ∧ (s.answer a v).dram = s.dram ∧ (s.answer a v).mem = s.mem ∧ (s.answer a
    v).poison = s.poison ∧ (s.answer a v).rom = s.rom ∧ (s.answer a v).dramTop = s.dramTop ∧ (s.answer a v).msis =
    s.msis ∧ (s.answer a v).rsvDone = s.rsvDone ∧ (s.answer a v).gar = s.gar ∧ (s.answer a v).twin = s.twin ∧
    (s.answer a v).str = s.str ∧ (s.answer a v).harts = s.harts ∧ (s.answer a v).firewall = s.firewall ∧ (s.answer a
    v).windows = s.windows ∧ (s.answer a v).cel = s.cel ∧ (s.answer a v).net = s.net ∧ (s.answer a v).pcie = s.pcie ∧
    (s.answer a v).ark = s.ark ∧ (s.answer a v).pwr = s.pwr :=
  State.with_readRes_readErr s _ _
@[simp] theorem State.answer_reads (s : State) (a v : Nat) (b m o q u : Nat) :
    (s.answer a v).reg b = s.reg b ∧ (s.answer a v).lreg m o = s.lreg m o ∧ (s.answer a v).lane m = s.lane m ∧
    (s.answer a v).thr m u = s.thr m u ∧ (s.answer a v).ring q = s.ring q ∧ (s.answer a v).dmc q = s.dmc q ∧
    (s.answer a v).tai = s.tai ∧ (s.answer a v).epoch = s.epoch :=
  State.with_readRes_readErr_reads s _ _ b m o q u
/-- A change of `free` leaves every other field. -/
theorem State.with_free (s : State) (x0 : Nat) :
    ({ s with free := x0 } : State).pending = s.pending ∧ ({ s with free := x0 } : State).regs = s.regs ∧
    ({ s with free := x0 } : State).latch = s.latch ∧ ({ s with free := x0 } : State).readRes = s.readRes ∧
    ({ s with free := x0 } : State).readErr = s.readErr ∧ ({ s with free := x0 } : State).laneClk = s.laneClk ∧
    ({ s with free := x0 } : State).btm = s.btm ∧ ({ s with free := x0 } : State).lanes = s.lanes ∧
    ({ s with free := x0 } : State).jrn = s.jrn ∧ ({ s with free := x0 } : State).dram = s.dram ∧
    ({ s with free := x0 } : State).mem = s.mem ∧ ({ s with free := x0 } : State).poison = s.poison ∧
    ({ s with free := x0 } : State).rom = s.rom ∧ ({ s with free := x0 } : State).dramTop = s.dramTop ∧
    ({ s with free := x0 } : State).msis = s.msis ∧ ({ s with free := x0 } : State).rsvDone = s.rsvDone ∧
    ({ s with free := x0 } : State).gar = s.gar ∧ ({ s with free := x0 } : State).twin = s.twin ∧
    ({ s with free := x0 } : State).str = s.str ∧ ({ s with free := x0 } : State).harts = s.harts ∧
    ({ s with free := x0 } : State).firewall = s.firewall ∧ ({ s with free := x0 } : State).windows = s.windows ∧
    ({ s with free := x0 } : State).cel = s.cel ∧ ({ s with free := x0 } : State).net = s.net ∧
    ({ s with free := x0 } : State).pcie = s.pcie ∧ ({ s with free := x0 } : State).ark = s.ark ∧
    ({ s with free := x0 } : State).pwr = s.pwr := by
  and_intros <;> rfl
theorem State.with_free_reads (s : State) (x0 : Nat) (b m o q u : Nat) :
    ({ s with free := x0 } : State).reg b = s.reg b ∧ ({ s with free := x0 } : State).lreg m o = s.lreg m o ∧
    ({ s with free := x0 } : State).lane m = s.lane m ∧ ({ s with free := x0 } : State).thr m u = s.thr m u ∧
    ({ s with free := x0 } : State).ring q = s.ring q ∧ ({ s with free := x0 } : State).dmc q = s.dmc q ∧
    ({ s with free := x0 } : State).tai = s.tai ∧ ({ s with free := x0 } : State).epoch = s.epoch := by
  and_intros <;> rfl
@[simp] theorem State.drew_fields (s : State)  :
    (s.drew).pending = s.pending ∧ (s.drew).regs = s.regs ∧ (s.drew).latch = s.latch ∧ (s.drew).readRes = s.readRes ∧
    (s.drew).readErr = s.readErr ∧ (s.drew).laneClk = s.laneClk ∧ (s.drew).btm = s.btm ∧ (s.drew).lanes = s.lanes ∧
    (s.drew).jrn = s.jrn ∧ (s.drew).dram = s.dram ∧ (s.drew).mem = s.mem ∧ (s.drew).poison = s.poison ∧ (s.drew).rom
    = s.rom ∧ (s.drew).dramTop = s.dramTop ∧ (s.drew).msis = s.msis ∧ (s.drew).rsvDone = s.rsvDone ∧ (s.drew).gar =
    s.gar ∧ (s.drew).twin = s.twin ∧ (s.drew).str = s.str ∧ (s.drew).harts = s.harts ∧ (s.drew).firewall = s.firewall
    ∧ (s.drew).windows = s.windows ∧ (s.drew).cel = s.cel ∧ (s.drew).net = s.net ∧ (s.drew).pcie = s.pcie ∧
    (s.drew).ark = s.ark ∧ (s.drew).pwr = s.pwr :=
  State.with_free s _
@[simp] theorem State.drew_reads (s : State)  (b m o q u : Nat) :
    (s.drew).reg b = s.reg b ∧ (s.drew).lreg m o = s.lreg m o ∧ (s.drew).lane m = s.lane m ∧ (s.drew).thr m u = s.thr
    m u ∧ (s.drew).ring q = s.ring q ∧ (s.drew).dmc q = s.dmc q ∧ (s.drew).tai = s.tai ∧ (s.drew).epoch = s.epoch :=
  State.with_free_reads s _ b m o q u
theorem State.sendMsi_shape (s : State) (h k i : Nat) :
    s.sendMsi h k i = { s with msis := (s.sendMsi h k i).msis } := by
  unfold State.sendMsi; dsimp only; split <;> rfl
/-- A change of `msis` leaves every other field. -/
theorem State.with_msis (s : State) (x0 : List (Nat × Nat)) :
    ({ s with msis := x0 } : State).pending = s.pending ∧ ({ s with msis := x0 } : State).regs = s.regs ∧
    ({ s with msis := x0 } : State).latch = s.latch ∧ ({ s with msis := x0 } : State).readRes = s.readRes ∧
    ({ s with msis := x0 } : State).readErr = s.readErr ∧ ({ s with msis := x0 } : State).free = s.free ∧
    ({ s with msis := x0 } : State).laneClk = s.laneClk ∧ ({ s with msis := x0 } : State).btm = s.btm ∧
    ({ s with msis := x0 } : State).lanes = s.lanes ∧ ({ s with msis := x0 } : State).jrn = s.jrn ∧
    ({ s with msis := x0 } : State).dram = s.dram ∧ ({ s with msis := x0 } : State).mem = s.mem ∧
    ({ s with msis := x0 } : State).poison = s.poison ∧ ({ s with msis := x0 } : State).rom = s.rom ∧
    ({ s with msis := x0 } : State).dramTop = s.dramTop ∧ ({ s with msis := x0 } : State).rsvDone = s.rsvDone ∧
    ({ s with msis := x0 } : State).gar = s.gar ∧ ({ s with msis := x0 } : State).twin = s.twin ∧
    ({ s with msis := x0 } : State).str = s.str ∧ ({ s with msis := x0 } : State).harts = s.harts ∧
    ({ s with msis := x0 } : State).firewall = s.firewall ∧ ({ s with msis := x0 } : State).windows = s.windows ∧
    ({ s with msis := x0 } : State).cel = s.cel ∧ ({ s with msis := x0 } : State).net = s.net ∧
    ({ s with msis := x0 } : State).pcie = s.pcie ∧ ({ s with msis := x0 } : State).ark = s.ark ∧
    ({ s with msis := x0 } : State).pwr = s.pwr := by
  and_intros <;> rfl
theorem State.with_msis_reads (s : State) (x0 : List (Nat × Nat)) (b m o q u : Nat) :
    ({ s with msis := x0 } : State).reg b = s.reg b ∧ ({ s with msis := x0 } : State).lreg m o = s.lreg m o ∧
    ({ s with msis := x0 } : State).lane m = s.lane m ∧ ({ s with msis := x0 } : State).thr m u = s.thr m u ∧
    ({ s with msis := x0 } : State).ring q = s.ring q ∧ ({ s with msis := x0 } : State).dmc q = s.dmc q ∧
    ({ s with msis := x0 } : State).tai = s.tai ∧ ({ s with msis := x0 } : State).epoch = s.epoch := by
  and_intros <;> rfl
@[simp] theorem State.sendMsi_fields (s : State) (h k i : Nat) :
    (s.sendMsi h k i).pending = s.pending ∧ (s.sendMsi h k i).regs = s.regs ∧ (s.sendMsi h k i).latch = s.latch ∧
    (s.sendMsi h k i).readRes = s.readRes ∧ (s.sendMsi h k i).readErr = s.readErr ∧ (s.sendMsi h k i).free = s.free ∧
    (s.sendMsi h k i).laneClk = s.laneClk ∧ (s.sendMsi h k i).btm = s.btm ∧ (s.sendMsi h k i).lanes = s.lanes ∧
    (s.sendMsi h k i).jrn = s.jrn ∧ (s.sendMsi h k i).dram = s.dram ∧ (s.sendMsi h k i).mem = s.mem ∧ (s.sendMsi h k
    i).poison = s.poison ∧ (s.sendMsi h k i).rom = s.rom ∧ (s.sendMsi h k i).dramTop = s.dramTop ∧ (s.sendMsi h k
    i).rsvDone = s.rsvDone ∧ (s.sendMsi h k i).gar = s.gar ∧ (s.sendMsi h k i).twin = s.twin ∧ (s.sendMsi h k i).str
    = s.str ∧ (s.sendMsi h k i).harts = s.harts ∧ (s.sendMsi h k i).firewall = s.firewall ∧ (s.sendMsi h k i).windows
    = s.windows ∧ (s.sendMsi h k i).cel = s.cel ∧ (s.sendMsi h k i).net = s.net ∧ (s.sendMsi h k i).pcie = s.pcie ∧
    (s.sendMsi h k i).ark = s.ark ∧ (s.sendMsi h k i).pwr = s.pwr :=
  by
  rw [State.sendMsi_shape]; exact State.with_msis s _
@[simp] theorem State.sendMsi_reads (s : State) (h k i : Nat) (b m o q u : Nat) :
    (s.sendMsi h k i).reg b = s.reg b ∧ (s.sendMsi h k i).lreg m o = s.lreg m o ∧ (s.sendMsi h k i).lane m = s.lane m
    ∧ (s.sendMsi h k i).thr m u = s.thr m u ∧ (s.sendMsi h k i).ring q = s.ring q ∧ (s.sendMsi h k i).dmc q = s.dmc q
    ∧ (s.sendMsi h k i).tai = s.tai ∧ (s.sendMsi h k i).epoch = s.epoch :=
  by
  rw [State.sendMsi_shape]; exact State.with_msis_reads s _ b m o q u
theorem State.sendTarget_shape (s : State) (v : Nat) :
    s.sendTarget v = { s with msis := (s.sendTarget v).msis } := by
  unfold State.sendTarget; rw [State.sendMsi_shape]
@[simp] theorem State.sendTarget_fields (s : State) (v : Nat) :
    (s.sendTarget v).pending = s.pending ∧ (s.sendTarget v).regs = s.regs ∧ (s.sendTarget v).latch = s.latch ∧
    (s.sendTarget v).readRes = s.readRes ∧ (s.sendTarget v).readErr = s.readErr ∧ (s.sendTarget v).free = s.free ∧
    (s.sendTarget v).laneClk = s.laneClk ∧ (s.sendTarget v).btm = s.btm ∧ (s.sendTarget v).lanes = s.lanes ∧
    (s.sendTarget v).jrn = s.jrn ∧ (s.sendTarget v).dram = s.dram ∧ (s.sendTarget v).mem = s.mem ∧ (s.sendTarget
    v).poison = s.poison ∧ (s.sendTarget v).rom = s.rom ∧ (s.sendTarget v).dramTop = s.dramTop ∧ (s.sendTarget
    v).rsvDone = s.rsvDone ∧ (s.sendTarget v).gar = s.gar ∧ (s.sendTarget v).twin = s.twin ∧ (s.sendTarget v).str =
    s.str ∧ (s.sendTarget v).harts = s.harts ∧ (s.sendTarget v).firewall = s.firewall ∧ (s.sendTarget v).windows =
    s.windows ∧ (s.sendTarget v).cel = s.cel ∧ (s.sendTarget v).net = s.net ∧ (s.sendTarget v).pcie = s.pcie ∧
    (s.sendTarget v).ark = s.ark ∧ (s.sendTarget v).pwr = s.pwr :=
  by
  rw [State.sendTarget_shape]; exact State.with_msis s _
@[simp] theorem State.sendTarget_reads (s : State) (v : Nat) (b m o q u : Nat) :
    (s.sendTarget v).reg b = s.reg b ∧ (s.sendTarget v).lreg m o = s.lreg m o ∧ (s.sendTarget v).lane m = s.lane m ∧
    (s.sendTarget v).thr m u = s.thr m u ∧ (s.sendTarget v).ring q = s.ring q ∧ (s.sendTarget v).dmc q = s.dmc q ∧
    (s.sendTarget v).tai = s.tai ∧ (s.sendTarget v).epoch = s.epoch :=
  by
  rw [State.sendTarget_shape]; exact State.with_msis_reads s _ b m o q u
theorem State.raiseIrq_shape (s : State) (a k : Nat) :
    s.raiseIrq a k = { s with regs := (s.raiseIrq a k).regs, msis := (s.raiseIrq a k).msis } := by
  unfold State.raiseIrq; dsimp only; split
  · rw [State.sendTarget_shape]; rfl
  · rfl
/-- A change of `regs, msis` leaves every other field. -/
theorem State.with_regs_msis (s : State) (x0 : SMap W32) (x1 : List (Nat × Nat)) :
    ({ s with regs := x0, msis := x1 } : State).pending = s.pending ∧ ({ s with regs := x0, msis := x1 } :
    State).latch = s.latch ∧ ({ s with regs := x0, msis := x1 } : State).readRes = s.readRes ∧
    ({ s with regs := x0, msis := x1 } : State).readErr = s.readErr ∧ ({ s with regs := x0, msis := x1 } :
    State).free = s.free ∧ ({ s with regs := x0, msis := x1 } : State).laneClk = s.laneClk ∧
    ({ s with regs := x0, msis := x1 } : State).btm = s.btm ∧ ({ s with regs := x0, msis := x1 } : State).lanes =
    s.lanes ∧ ({ s with regs := x0, msis := x1 } : State).jrn = s.jrn ∧ ({ s with regs := x0, msis := x1 } :
    State).dram = s.dram ∧ ({ s with regs := x0, msis := x1 } : State).mem = s.mem ∧
    ({ s with regs := x0, msis := x1 } : State).poison = s.poison ∧ ({ s with regs := x0, msis := x1 } : State).rom =
    s.rom ∧ ({ s with regs := x0, msis := x1 } : State).dramTop = s.dramTop ∧ ({ s with regs := x0, msis := x1 } :
    State).rsvDone = s.rsvDone ∧ ({ s with regs := x0, msis := x1 } : State).gar = s.gar ∧
    ({ s with regs := x0, msis := x1 } : State).twin = s.twin ∧ ({ s with regs := x0, msis := x1 } : State).str =
    s.str ∧ ({ s with regs := x0, msis := x1 } : State).harts = s.harts ∧ ({ s with regs := x0, msis := x1 } :
    State).firewall = s.firewall ∧ ({ s with regs := x0, msis := x1 } : State).windows = s.windows ∧
    ({ s with regs := x0, msis := x1 } : State).cel = s.cel ∧ ({ s with regs := x0, msis := x1 } : State).net = s.net
    ∧ ({ s with regs := x0, msis := x1 } : State).pcie = s.pcie ∧ ({ s with regs := x0, msis := x1 } : State).ark =
    s.ark ∧ ({ s with regs := x0, msis := x1 } : State).pwr = s.pwr := by
  and_intros <;> rfl
theorem State.with_regs_msis_reads (s : State) (x0 : SMap W32) (x1 : List (Nat × Nat)) (m q u : Nat) :
    ({ s with regs := x0, msis := x1 } : State).lane m = s.lane m ∧ ({ s with regs := x0, msis := x1 } : State).thr m
    u = s.thr m u ∧ ({ s with regs := x0, msis := x1 } : State).ring q = s.ring q ∧
    ({ s with regs := x0, msis := x1 } : State).dmc q = s.dmc q ∧ ({ s with regs := x0, msis := x1 } : State).tai =
    s.tai ∧ ({ s with regs := x0, msis := x1 } : State).epoch = s.epoch := by
  and_intros <;> rfl
@[simp] theorem State.raiseIrq_fields (s : State) (a k : Nat) :
    (s.raiseIrq a k).pending = s.pending ∧ (s.raiseIrq a k).latch = s.latch ∧ (s.raiseIrq a k).readRes = s.readRes ∧
    (s.raiseIrq a k).readErr = s.readErr ∧ (s.raiseIrq a k).free = s.free ∧ (s.raiseIrq a k).laneClk = s.laneClk ∧
    (s.raiseIrq a k).btm = s.btm ∧ (s.raiseIrq a k).lanes = s.lanes ∧ (s.raiseIrq a k).jrn = s.jrn ∧ (s.raiseIrq a
    k).dram = s.dram ∧ (s.raiseIrq a k).mem = s.mem ∧ (s.raiseIrq a k).poison = s.poison ∧ (s.raiseIrq a k).rom =
    s.rom ∧ (s.raiseIrq a k).dramTop = s.dramTop ∧ (s.raiseIrq a k).rsvDone = s.rsvDone ∧ (s.raiseIrq a k).gar =
    s.gar ∧ (s.raiseIrq a k).twin = s.twin ∧ (s.raiseIrq a k).str = s.str ∧ (s.raiseIrq a k).harts = s.harts ∧
    (s.raiseIrq a k).firewall = s.firewall ∧ (s.raiseIrq a k).windows = s.windows ∧ (s.raiseIrq a k).cel = s.cel ∧
    (s.raiseIrq a k).net = s.net ∧ (s.raiseIrq a k).pcie = s.pcie ∧ (s.raiseIrq a k).ark = s.ark ∧ (s.raiseIrq a
    k).pwr = s.pwr :=
  by
  rw [State.raiseIrq_shape]; exact State.with_regs_msis s _ _
@[simp] theorem State.raiseIrq_reads (s : State) (a k : Nat) (m q u : Nat) :
    (s.raiseIrq a k).lane m = s.lane m ∧ (s.raiseIrq a k).thr m u = s.thr m u ∧ (s.raiseIrq a k).ring q = s.ring q ∧
    (s.raiseIrq a k).dmc q = s.dmc q ∧ (s.raiseIrq a k).tai = s.tai ∧ (s.raiseIrq a k).epoch = s.epoch :=
  by
  rw [State.raiseIrq_shape]; exact State.with_regs_msis_reads s _ _ m q u
theorem State.gRec_shape (s : State) (r : GarRec) :
    s.gRec r = { s with gar := (s.gRec r).gar } := by
  unfold State.gRec; dsimp only; repeat' split
  all_goals rfl
/-- A change of `gar` leaves every other field. -/
theorem State.with_gar (s : State) (x0 : Gar) :
    ({ s with gar := x0 } : State).pending = s.pending ∧ ({ s with gar := x0 } : State).regs = s.regs ∧
    ({ s with gar := x0 } : State).latch = s.latch ∧ ({ s with gar := x0 } : State).readRes = s.readRes ∧
    ({ s with gar := x0 } : State).readErr = s.readErr ∧ ({ s with gar := x0 } : State).free = s.free ∧
    ({ s with gar := x0 } : State).laneClk = s.laneClk ∧ ({ s with gar := x0 } : State).btm = s.btm ∧
    ({ s with gar := x0 } : State).lanes = s.lanes ∧ ({ s with gar := x0 } : State).jrn = s.jrn ∧
    ({ s with gar := x0 } : State).dram = s.dram ∧ ({ s with gar := x0 } : State).mem = s.mem ∧ ({ s with gar := x0 }
    : State).poison = s.poison ∧ ({ s with gar := x0 } : State).rom = s.rom ∧ ({ s with gar := x0 } : State).dramTop
    = s.dramTop ∧ ({ s with gar := x0 } : State).msis = s.msis ∧ ({ s with gar := x0 } : State).rsvDone = s.rsvDone ∧
    ({ s with gar := x0 } : State).twin = s.twin ∧ ({ s with gar := x0 } : State).str = s.str ∧ ({ s with gar := x0 }
    : State).harts = s.harts ∧ ({ s with gar := x0 } : State).firewall = s.firewall ∧ ({ s with gar := x0 } :
    State).windows = s.windows ∧ ({ s with gar := x0 } : State).cel = s.cel ∧ ({ s with gar := x0 } : State).net =
    s.net ∧ ({ s with gar := x0 } : State).pcie = s.pcie ∧ ({ s with gar := x0 } : State).ark = s.ark ∧
    ({ s with gar := x0 } : State).pwr = s.pwr := by
  and_intros <;> rfl
theorem State.with_gar_reads (s : State) (x0 : Gar) (b m o q u : Nat) :
    ({ s with gar := x0 } : State).reg b = s.reg b ∧ ({ s with gar := x0 } : State).lreg m o = s.lreg m o ∧
    ({ s with gar := x0 } : State).lane m = s.lane m ∧ ({ s with gar := x0 } : State).thr m u = s.thr m u ∧
    ({ s with gar := x0 } : State).ring q = s.ring q ∧ ({ s with gar := x0 } : State).dmc q = s.dmc q ∧
    ({ s with gar := x0 } : State).tai = s.tai ∧ ({ s with gar := x0 } : State).epoch = s.epoch := by
  and_intros <;> rfl
@[simp] theorem State.gRec_fields (s : State) (r : GarRec) :
    (s.gRec r).pending = s.pending ∧ (s.gRec r).regs = s.regs ∧ (s.gRec r).latch = s.latch ∧ (s.gRec r).readRes =
    s.readRes ∧ (s.gRec r).readErr = s.readErr ∧ (s.gRec r).free = s.free ∧ (s.gRec r).laneClk = s.laneClk ∧ (s.gRec
    r).btm = s.btm ∧ (s.gRec r).lanes = s.lanes ∧ (s.gRec r).jrn = s.jrn ∧ (s.gRec r).dram = s.dram ∧ (s.gRec r).mem
    = s.mem ∧ (s.gRec r).poison = s.poison ∧ (s.gRec r).rom = s.rom ∧ (s.gRec r).dramTop = s.dramTop ∧ (s.gRec
    r).msis = s.msis ∧ (s.gRec r).rsvDone = s.rsvDone ∧ (s.gRec r).twin = s.twin ∧ (s.gRec r).str = s.str ∧ (s.gRec
    r).harts = s.harts ∧ (s.gRec r).firewall = s.firewall ∧ (s.gRec r).windows = s.windows ∧ (s.gRec r).cel = s.cel ∧
    (s.gRec r).net = s.net ∧ (s.gRec r).pcie = s.pcie ∧ (s.gRec r).ark = s.ark ∧ (s.gRec r).pwr = s.pwr :=
  by
  rw [State.gRec_shape]; exact State.with_gar s _
@[simp] theorem State.gRec_reads (s : State) (r : GarRec) (b m o q u : Nat) :
    (s.gRec r).reg b = s.reg b ∧ (s.gRec r).lreg m o = s.lreg m o ∧ (s.gRec r).lane m = s.lane m ∧ (s.gRec r).thr m u
    = s.thr m u ∧ (s.gRec r).ring q = s.ring q ∧ (s.gRec r).dmc q = s.dmc q ∧ (s.gRec r).tai = s.tai ∧ (s.gRec
    r).epoch = s.epoch :=
  by
  rw [State.gRec_shape]; exact State.with_gar_reads s _ b m o q u
theorem State.gEvt_shape (s : State) (src inst : Nat) (code : Code) (ag x y z : Nat) :
    s.gEvt src inst code ag x y z = { s with gar := (s.gEvt src inst code ag x y z).gar } := by
  unfold State.gEvt; rw [State.gRec_shape]
@[simp] theorem State.gEvt_fields (s : State) (src inst : Nat) (code : Code) (ag x y z : Nat) :
    (s.gEvt src inst code ag x y z).pending = s.pending ∧ (s.gEvt src inst code ag x y z).regs = s.regs ∧ (s.gEvt src
    inst code ag x y z).latch = s.latch ∧ (s.gEvt src inst code ag x y z).readRes = s.readRes ∧ (s.gEvt src inst code
    ag x y z).readErr = s.readErr ∧ (s.gEvt src inst code ag x y z).free = s.free ∧ (s.gEvt src inst code ag x y
    z).laneClk = s.laneClk ∧ (s.gEvt src inst code ag x y z).btm = s.btm ∧ (s.gEvt src inst code ag x y z).lanes =
    s.lanes ∧ (s.gEvt src inst code ag x y z).jrn = s.jrn ∧ (s.gEvt src inst code ag x y z).dram = s.dram ∧ (s.gEvt
    src inst code ag x y z).mem = s.mem ∧ (s.gEvt src inst code ag x y z).poison = s.poison ∧ (s.gEvt src inst code
    ag x y z).rom = s.rom ∧ (s.gEvt src inst code ag x y z).dramTop = s.dramTop ∧ (s.gEvt src inst code ag x y
    z).msis = s.msis ∧ (s.gEvt src inst code ag x y z).rsvDone = s.rsvDone ∧ (s.gEvt src inst code ag x y z).twin =
    s.twin ∧ (s.gEvt src inst code ag x y z).str = s.str ∧ (s.gEvt src inst code ag x y z).harts = s.harts ∧ (s.gEvt
    src inst code ag x y z).firewall = s.firewall ∧ (s.gEvt src inst code ag x y z).windows = s.windows ∧ (s.gEvt src
    inst code ag x y z).cel = s.cel ∧ (s.gEvt src inst code ag x y z).net = s.net ∧ (s.gEvt src inst code ag x y
    z).pcie = s.pcie ∧ (s.gEvt src inst code ag x y z).ark = s.ark ∧ (s.gEvt src inst code ag x y z).pwr = s.pwr :=
  by
  rw [State.gEvt_shape]; exact State.with_gar s _
@[simp] theorem State.gEvt_reads (s : State) (src inst : Nat) (code : Code) (ag x y z : Nat) (b m o q u : Nat) :
    (s.gEvt src inst code ag x y z).reg b = s.reg b ∧ (s.gEvt src inst code ag x y z).lreg m o = s.lreg m o ∧ (s.gEvt
    src inst code ag x y z).lane m = s.lane m ∧ (s.gEvt src inst code ag x y z).thr m u = s.thr m u ∧ (s.gEvt src
    inst code ag x y z).ring q = s.ring q ∧ (s.gEvt src inst code ag x y z).dmc q = s.dmc q ∧ (s.gEvt src inst code
    ag x y z).tai = s.tai ∧ (s.gEvt src inst code ag x y z).epoch = s.epoch :=
  by
  rw [State.gEvt_shape]; exact State.with_gar_reads s _ b m o q u
theorem State.gFreeze_shape (s : State) (g w : Nat) :
    s.gFreeze g w = { s with gar := (s.gFreeze g w).gar } := by
  unfold State.gFreeze; dsimp only; split <;> rfl
@[simp] theorem State.gFreeze_fields (s : State) (g w : Nat) :
    (s.gFreeze g w).pending = s.pending ∧ (s.gFreeze g w).regs = s.regs ∧ (s.gFreeze g w).latch = s.latch ∧
    (s.gFreeze g w).readRes = s.readRes ∧ (s.gFreeze g w).readErr = s.readErr ∧ (s.gFreeze g w).free = s.free ∧
    (s.gFreeze g w).laneClk = s.laneClk ∧ (s.gFreeze g w).btm = s.btm ∧ (s.gFreeze g w).lanes = s.lanes ∧ (s.gFreeze
    g w).jrn = s.jrn ∧ (s.gFreeze g w).dram = s.dram ∧ (s.gFreeze g w).mem = s.mem ∧ (s.gFreeze g w).poison =
    s.poison ∧ (s.gFreeze g w).rom = s.rom ∧ (s.gFreeze g w).dramTop = s.dramTop ∧ (s.gFreeze g w).msis = s.msis ∧
    (s.gFreeze g w).rsvDone = s.rsvDone ∧ (s.gFreeze g w).twin = s.twin ∧ (s.gFreeze g w).str = s.str ∧ (s.gFreeze g
    w).harts = s.harts ∧ (s.gFreeze g w).firewall = s.firewall ∧ (s.gFreeze g w).windows = s.windows ∧ (s.gFreeze g
    w).cel = s.cel ∧ (s.gFreeze g w).net = s.net ∧ (s.gFreeze g w).pcie = s.pcie ∧ (s.gFreeze g w).ark = s.ark ∧
    (s.gFreeze g w).pwr = s.pwr :=
  by
  rw [State.gFreeze_shape]; exact State.with_gar s _
@[simp] theorem State.gFreeze_reads (s : State) (g w : Nat) (b m o q u : Nat) :
    (s.gFreeze g w).reg b = s.reg b ∧ (s.gFreeze g w).lreg m o = s.lreg m o ∧ (s.gFreeze g w).lane m = s.lane m ∧
    (s.gFreeze g w).thr m u = s.thr m u ∧ (s.gFreeze g w).ring q = s.ring q ∧ (s.gFreeze g w).dmc q = s.dmc q ∧
    (s.gFreeze g w).tai = s.tai ∧ (s.gFreeze g w).epoch = s.epoch :=
  by
  rw [State.gFreeze_shape]; exact State.with_gar_reads s _ b m o q u
/-- A change of `lanes` leaves every other field. -/
theorem State.with_lanes (s : State) (x0 : SMap Lane) :
    ({ s with lanes := x0 } : State).pending = s.pending ∧ ({ s with lanes := x0 } : State).regs = s.regs ∧
    ({ s with lanes := x0 } : State).latch = s.latch ∧ ({ s with lanes := x0 } : State).readRes = s.readRes ∧
    ({ s with lanes := x0 } : State).readErr = s.readErr ∧ ({ s with lanes := x0 } : State).free = s.free ∧
    ({ s with lanes := x0 } : State).laneClk = s.laneClk ∧ ({ s with lanes := x0 } : State).btm = s.btm ∧
    ({ s with lanes := x0 } : State).jrn = s.jrn ∧ ({ s with lanes := x0 } : State).dram = s.dram ∧
    ({ s with lanes := x0 } : State).mem = s.mem ∧ ({ s with lanes := x0 } : State).poison = s.poison ∧
    ({ s with lanes := x0 } : State).rom = s.rom ∧ ({ s with lanes := x0 } : State).dramTop = s.dramTop ∧
    ({ s with lanes := x0 } : State).msis = s.msis ∧ ({ s with lanes := x0 } : State).rsvDone = s.rsvDone ∧
    ({ s with lanes := x0 } : State).gar = s.gar ∧ ({ s with lanes := x0 } : State).twin = s.twin ∧
    ({ s with lanes := x0 } : State).str = s.str ∧ ({ s with lanes := x0 } : State).harts = s.harts ∧
    ({ s with lanes := x0 } : State).firewall = s.firewall ∧ ({ s with lanes := x0 } : State).windows = s.windows ∧
    ({ s with lanes := x0 } : State).cel = s.cel ∧ ({ s with lanes := x0 } : State).net = s.net ∧
    ({ s with lanes := x0 } : State).pcie = s.pcie ∧ ({ s with lanes := x0 } : State).ark = s.ark ∧
    ({ s with lanes := x0 } : State).pwr = s.pwr := by
  and_intros <;> rfl
theorem State.with_lanes_reads (s : State) (x0 : SMap Lane) (b m o q : Nat) :
    ({ s with lanes := x0 } : State).reg b = s.reg b ∧ ({ s with lanes := x0 } : State).lreg m o = s.lreg m o ∧
    ({ s with lanes := x0 } : State).ring q = s.ring q ∧ ({ s with lanes := x0 } : State).dmc q = s.dmc q ∧
    ({ s with lanes := x0 } : State).tai = s.tai ∧ ({ s with lanes := x0 } : State).epoch = s.epoch := by
  and_intros <;> rfl
@[simp] theorem State.setLane_fields (s : State) (n : Nat) (l : Lane) :
    (s.setLane n l).pending = s.pending ∧ (s.setLane n l).regs = s.regs ∧ (s.setLane n l).latch = s.latch ∧
    (s.setLane n l).readRes = s.readRes ∧ (s.setLane n l).readErr = s.readErr ∧ (s.setLane n l).free = s.free ∧
    (s.setLane n l).laneClk = s.laneClk ∧ (s.setLane n l).btm = s.btm ∧ (s.setLane n l).jrn = s.jrn ∧ (s.setLane n
    l).dram = s.dram ∧ (s.setLane n l).mem = s.mem ∧ (s.setLane n l).poison = s.poison ∧ (s.setLane n l).rom = s.rom
    ∧ (s.setLane n l).dramTop = s.dramTop ∧ (s.setLane n l).msis = s.msis ∧ (s.setLane n l).rsvDone = s.rsvDone ∧
    (s.setLane n l).gar = s.gar ∧ (s.setLane n l).twin = s.twin ∧ (s.setLane n l).str = s.str ∧ (s.setLane n l).harts
    = s.harts ∧ (s.setLane n l).firewall = s.firewall ∧ (s.setLane n l).windows = s.windows ∧ (s.setLane n l).cel =
    s.cel ∧ (s.setLane n l).net = s.net ∧ (s.setLane n l).pcie = s.pcie ∧ (s.setLane n l).ark = s.ark ∧ (s.setLane n
    l).pwr = s.pwr :=
  State.with_lanes s _
@[simp] theorem State.setLane_reads (s : State) (n : Nat) (l : Lane) (b m o q : Nat) :
    (s.setLane n l).reg b = s.reg b ∧ (s.setLane n l).lreg m o = s.lreg m o ∧ (s.setLane n l).ring q = s.ring q ∧
    (s.setLane n l).dmc q = s.dmc q ∧ (s.setLane n l).tai = s.tai ∧ (s.setLane n l).epoch = s.epoch :=
  State.with_lanes_reads s _ b m o q
@[simp] theorem State.modLane_fields (s : State) (n : Nat) (f : Lane → Lane) :
    (s.modLane n f).pending = s.pending ∧ (s.modLane n f).regs = s.regs ∧ (s.modLane n f).latch = s.latch ∧
    (s.modLane n f).readRes = s.readRes ∧ (s.modLane n f).readErr = s.readErr ∧ (s.modLane n f).free = s.free ∧
    (s.modLane n f).laneClk = s.laneClk ∧ (s.modLane n f).btm = s.btm ∧ (s.modLane n f).jrn = s.jrn ∧ (s.modLane n
    f).dram = s.dram ∧ (s.modLane n f).mem = s.mem ∧ (s.modLane n f).poison = s.poison ∧ (s.modLane n f).rom = s.rom
    ∧ (s.modLane n f).dramTop = s.dramTop ∧ (s.modLane n f).msis = s.msis ∧ (s.modLane n f).rsvDone = s.rsvDone ∧
    (s.modLane n f).gar = s.gar ∧ (s.modLane n f).twin = s.twin ∧ (s.modLane n f).str = s.str ∧ (s.modLane n f).harts
    = s.harts ∧ (s.modLane n f).firewall = s.firewall ∧ (s.modLane n f).windows = s.windows ∧ (s.modLane n f).cel =
    s.cel ∧ (s.modLane n f).net = s.net ∧ (s.modLane n f).pcie = s.pcie ∧ (s.modLane n f).ark = s.ark ∧ (s.modLane n
    f).pwr = s.pwr :=
  State.with_lanes s _
@[simp] theorem State.modLane_reads (s : State) (n : Nat) (f : Lane → Lane) (b m o q : Nat) :
    (s.modLane n f).reg b = s.reg b ∧ (s.modLane n f).lreg m o = s.lreg m o ∧ (s.modLane n f).ring q = s.ring q ∧
    (s.modLane n f).dmc q = s.dmc q ∧ (s.modLane n f).tai = s.tai ∧ (s.modLane n f).epoch = s.epoch :=
  State.with_lanes_reads s _ b m o q
@[simp] theorem State.modThr_fields (s : State) (n t : Nat) (f : Thread → Thread) :
    (s.modThr n t f).pending = s.pending ∧ (s.modThr n t f).regs = s.regs ∧ (s.modThr n t f).latch = s.latch ∧
    (s.modThr n t f).readRes = s.readRes ∧ (s.modThr n t f).readErr = s.readErr ∧ (s.modThr n t f).free = s.free ∧
    (s.modThr n t f).laneClk = s.laneClk ∧ (s.modThr n t f).btm = s.btm ∧ (s.modThr n t f).jrn = s.jrn ∧ (s.modThr n
    t f).dram = s.dram ∧ (s.modThr n t f).mem = s.mem ∧ (s.modThr n t f).poison = s.poison ∧ (s.modThr n t f).rom =
    s.rom ∧ (s.modThr n t f).dramTop = s.dramTop ∧ (s.modThr n t f).msis = s.msis ∧ (s.modThr n t f).rsvDone =
    s.rsvDone ∧ (s.modThr n t f).gar = s.gar ∧ (s.modThr n t f).twin = s.twin ∧ (s.modThr n t f).str = s.str ∧
    (s.modThr n t f).harts = s.harts ∧ (s.modThr n t f).firewall = s.firewall ∧ (s.modThr n t f).windows = s.windows
    ∧ (s.modThr n t f).cel = s.cel ∧ (s.modThr n t f).net = s.net ∧ (s.modThr n t f).pcie = s.pcie ∧ (s.modThr n t
    f).ark = s.ark ∧ (s.modThr n t f).pwr = s.pwr :=
  State.with_lanes s _
@[simp] theorem State.modThr_reads (s : State) (n t : Nat) (f : Thread → Thread) (b m o q : Nat) :
    (s.modThr n t f).reg b = s.reg b ∧ (s.modThr n t f).lreg m o = s.lreg m o ∧ (s.modThr n t f).ring q = s.ring q ∧
    (s.modThr n t f).dmc q = s.dmc q ∧ (s.modThr n t f).tai = s.tai ∧ (s.modThr n t f).epoch = s.epoch :=
  State.with_lanes_reads s _ b m o q
@[simp] theorem State.modMsg_fields (s : State) (n h : Nat) (f : Msg → Msg) :
    (s.modMsg n h f).pending = s.pending ∧ (s.modMsg n h f).regs = s.regs ∧ (s.modMsg n h f).latch = s.latch ∧
    (s.modMsg n h f).readRes = s.readRes ∧ (s.modMsg n h f).readErr = s.readErr ∧ (s.modMsg n h f).free = s.free ∧
    (s.modMsg n h f).laneClk = s.laneClk ∧ (s.modMsg n h f).btm = s.btm ∧ (s.modMsg n h f).jrn = s.jrn ∧ (s.modMsg n
    h f).dram = s.dram ∧ (s.modMsg n h f).mem = s.mem ∧ (s.modMsg n h f).poison = s.poison ∧ (s.modMsg n h f).rom =
    s.rom ∧ (s.modMsg n h f).dramTop = s.dramTop ∧ (s.modMsg n h f).msis = s.msis ∧ (s.modMsg n h f).rsvDone =
    s.rsvDone ∧ (s.modMsg n h f).gar = s.gar ∧ (s.modMsg n h f).twin = s.twin ∧ (s.modMsg n h f).str = s.str ∧
    (s.modMsg n h f).harts = s.harts ∧ (s.modMsg n h f).firewall = s.firewall ∧ (s.modMsg n h f).windows = s.windows
    ∧ (s.modMsg n h f).cel = s.cel ∧ (s.modMsg n h f).net = s.net ∧ (s.modMsg n h f).pcie = s.pcie ∧ (s.modMsg n h
    f).ark = s.ark ∧ (s.modMsg n h f).pwr = s.pwr :=
  State.with_lanes s _
@[simp] theorem State.modMsg_reads (s : State) (n h : Nat) (f : Msg → Msg) (b m o q : Nat) :
    (s.modMsg n h f).reg b = s.reg b ∧ (s.modMsg n h f).lreg m o = s.lreg m o ∧ (s.modMsg n h f).ring q = s.ring q ∧
    (s.modMsg n h f).dmc q = s.dmc q ∧ (s.modMsg n h f).tai = s.tai ∧ (s.modMsg n h f).epoch = s.epoch :=
  State.with_lanes_reads s _ b m o q
@[simp] theorem State.lpmu_fields (s : State) (n i k : Nat) :
    (s.lpmu n i k).pending = s.pending ∧ (s.lpmu n i k).regs = s.regs ∧ (s.lpmu n i k).latch = s.latch ∧ (s.lpmu n i
    k).readRes = s.readRes ∧ (s.lpmu n i k).readErr = s.readErr ∧ (s.lpmu n i k).free = s.free ∧ (s.lpmu n i
    k).laneClk = s.laneClk ∧ (s.lpmu n i k).btm = s.btm ∧ (s.lpmu n i k).jrn = s.jrn ∧ (s.lpmu n i k).dram = s.dram ∧
    (s.lpmu n i k).mem = s.mem ∧ (s.lpmu n i k).poison = s.poison ∧ (s.lpmu n i k).rom = s.rom ∧ (s.lpmu n i
    k).dramTop = s.dramTop ∧ (s.lpmu n i k).msis = s.msis ∧ (s.lpmu n i k).rsvDone = s.rsvDone ∧ (s.lpmu n i k).gar =
    s.gar ∧ (s.lpmu n i k).twin = s.twin ∧ (s.lpmu n i k).str = s.str ∧ (s.lpmu n i k).harts = s.harts ∧ (s.lpmu n i
    k).firewall = s.firewall ∧ (s.lpmu n i k).windows = s.windows ∧ (s.lpmu n i k).cel = s.cel ∧ (s.lpmu n i k).net =
    s.net ∧ (s.lpmu n i k).pcie = s.pcie ∧ (s.lpmu n i k).ark = s.ark ∧ (s.lpmu n i k).pwr = s.pwr :=
  State.with_lanes s _
@[simp] theorem State.lpmu_reads (s : State) (n i k : Nat) (b m o q : Nat) :
    (s.lpmu n i k).reg b = s.reg b ∧ (s.lpmu n i k).lreg m o = s.lreg m o ∧ (s.lpmu n i k).ring q = s.ring q ∧
    (s.lpmu n i k).dmc q = s.dmc q ∧ (s.lpmu n i k).tai = s.tai ∧ (s.lpmu n i k).epoch = s.epoch :=
  State.with_lanes_reads s _ b m o q
theorem State.gMsg_shape (s : State) (src n h : Nat) (code : Code) (z : Nat) :
    s.gMsg src n h code z = { s with gar := (s.gMsg src n h code z).gar } := by
  unfold State.gMsg; rw [State.gEvt_shape]
@[simp] theorem State.gMsg_fields (s : State) (src n h : Nat) (code : Code) (z : Nat) :
    (s.gMsg src n h code z).pending = s.pending ∧ (s.gMsg src n h code z).regs = s.regs ∧ (s.gMsg src n h code
    z).latch = s.latch ∧ (s.gMsg src n h code z).readRes = s.readRes ∧ (s.gMsg src n h code z).readErr = s.readErr ∧
    (s.gMsg src n h code z).free = s.free ∧ (s.gMsg src n h code z).laneClk = s.laneClk ∧ (s.gMsg src n h code z).btm
    = s.btm ∧ (s.gMsg src n h code z).lanes = s.lanes ∧ (s.gMsg src n h code z).jrn = s.jrn ∧ (s.gMsg src n h code
    z).dram = s.dram ∧ (s.gMsg src n h code z).mem = s.mem ∧ (s.gMsg src n h code z).poison = s.poison ∧ (s.gMsg src
    n h code z).rom = s.rom ∧ (s.gMsg src n h code z).dramTop = s.dramTop ∧ (s.gMsg src n h code z).msis = s.msis ∧
    (s.gMsg src n h code z).rsvDone = s.rsvDone ∧ (s.gMsg src n h code z).twin = s.twin ∧ (s.gMsg src n h code z).str
    = s.str ∧ (s.gMsg src n h code z).harts = s.harts ∧ (s.gMsg src n h code z).firewall = s.firewall ∧ (s.gMsg src n
    h code z).windows = s.windows ∧ (s.gMsg src n h code z).cel = s.cel ∧ (s.gMsg src n h code z).net = s.net ∧
    (s.gMsg src n h code z).pcie = s.pcie ∧ (s.gMsg src n h code z).ark = s.ark ∧ (s.gMsg src n h code z).pwr = s.pwr :=
  by
  rw [State.gMsg_shape]; exact State.with_gar s _
@[simp] theorem State.gMsg_reads (s : State) (src n h : Nat) (code : Code) (z : Nat) (b m o q u : Nat) :
    (s.gMsg src n h code z).reg b = s.reg b ∧ (s.gMsg src n h code z).lreg m o = s.lreg m o ∧ (s.gMsg src n h code
    z).lane m = s.lane m ∧ (s.gMsg src n h code z).thr m u = s.thr m u ∧ (s.gMsg src n h code z).ring q = s.ring q ∧
    (s.gMsg src n h code z).dmc q = s.dmc q ∧ (s.gMsg src n h code z).tai = s.tai ∧ (s.gMsg src n h code z).epoch =
    s.epoch :=
  by
  rw [State.gMsg_shape]; exact State.with_gar_reads s _ b m o q u
/-- A change of `jrn` leaves every other field. -/
theorem State.with_jrn (s : State) (x0 : Jrn) :
    ({ s with jrn := x0 } : State).pending = s.pending ∧ ({ s with jrn := x0 } : State).regs = s.regs ∧
    ({ s with jrn := x0 } : State).latch = s.latch ∧ ({ s with jrn := x0 } : State).readRes = s.readRes ∧
    ({ s with jrn := x0 } : State).readErr = s.readErr ∧ ({ s with jrn := x0 } : State).free = s.free ∧
    ({ s with jrn := x0 } : State).laneClk = s.laneClk ∧ ({ s with jrn := x0 } : State).btm = s.btm ∧
    ({ s with jrn := x0 } : State).lanes = s.lanes ∧ ({ s with jrn := x0 } : State).dram = s.dram ∧
    ({ s with jrn := x0 } : State).mem = s.mem ∧ ({ s with jrn := x0 } : State).poison = s.poison ∧
    ({ s with jrn := x0 } : State).rom = s.rom ∧ ({ s with jrn := x0 } : State).dramTop = s.dramTop ∧
    ({ s with jrn := x0 } : State).msis = s.msis ∧ ({ s with jrn := x0 } : State).rsvDone = s.rsvDone ∧
    ({ s with jrn := x0 } : State).gar = s.gar ∧ ({ s with jrn := x0 } : State).twin = s.twin ∧ ({ s with jrn := x0 }
    : State).str = s.str ∧ ({ s with jrn := x0 } : State).harts = s.harts ∧ ({ s with jrn := x0 } : State).firewall =
    s.firewall ∧ ({ s with jrn := x0 } : State).windows = s.windows ∧ ({ s with jrn := x0 } : State).cel = s.cel ∧
    ({ s with jrn := x0 } : State).net = s.net ∧ ({ s with jrn := x0 } : State).pcie = s.pcie ∧ ({ s with jrn := x0 }
    : State).ark = s.ark ∧ ({ s with jrn := x0 } : State).pwr = s.pwr := by
  and_intros <;> rfl
theorem State.with_jrn_reads (s : State) (x0 : Jrn) (b m o q u : Nat) :
    ({ s with jrn := x0 } : State).reg b = s.reg b ∧ ({ s with jrn := x0 } : State).lreg m o = s.lreg m o ∧
    ({ s with jrn := x0 } : State).lane m = s.lane m ∧ ({ s with jrn := x0 } : State).thr m u = s.thr m u ∧
    ({ s with jrn := x0 } : State).dmc q = s.dmc q ∧ ({ s with jrn := x0 } : State).tai = s.tai ∧
    ({ s with jrn := x0 } : State).epoch = s.epoch := by
  and_intros <;> rfl
@[simp] theorem State.setRing_fields (s : State) (k : Nat) (r : Ring) :
    (s.setRing k r).pending = s.pending ∧ (s.setRing k r).regs = s.regs ∧ (s.setRing k r).latch = s.latch ∧
    (s.setRing k r).readRes = s.readRes ∧ (s.setRing k r).readErr = s.readErr ∧ (s.setRing k r).free = s.free ∧
    (s.setRing k r).laneClk = s.laneClk ∧ (s.setRing k r).btm = s.btm ∧ (s.setRing k r).lanes = s.lanes ∧ (s.setRing
    k r).dram = s.dram ∧ (s.setRing k r).mem = s.mem ∧ (s.setRing k r).poison = s.poison ∧ (s.setRing k r).rom =
    s.rom ∧ (s.setRing k r).dramTop = s.dramTop ∧ (s.setRing k r).msis = s.msis ∧ (s.setRing k r).rsvDone = s.rsvDone
    ∧ (s.setRing k r).gar = s.gar ∧ (s.setRing k r).twin = s.twin ∧ (s.setRing k r).str = s.str ∧ (s.setRing k
    r).harts = s.harts ∧ (s.setRing k r).firewall = s.firewall ∧ (s.setRing k r).windows = s.windows ∧ (s.setRing k
    r).cel = s.cel ∧ (s.setRing k r).net = s.net ∧ (s.setRing k r).pcie = s.pcie ∧ (s.setRing k r).ark = s.ark ∧
    (s.setRing k r).pwr = s.pwr :=
  State.with_jrn s _
@[simp] theorem State.setRing_reads (s : State) (k : Nat) (r : Ring) (b m o q u : Nat) :
    (s.setRing k r).reg b = s.reg b ∧ (s.setRing k r).lreg m o = s.lreg m o ∧ (s.setRing k r).lane m = s.lane m ∧
    (s.setRing k r).thr m u = s.thr m u ∧ (s.setRing k r).dmc q = s.dmc q ∧ (s.setRing k r).tai = s.tai ∧ (s.setRing
    k r).epoch = s.epoch :=
  State.with_jrn_reads s _ b m o q u
@[simp] theorem State.modRing_fields (s : State) (k : Nat) (f : Ring → Ring) :
    (s.modRing k f).pending = s.pending ∧ (s.modRing k f).regs = s.regs ∧ (s.modRing k f).latch = s.latch ∧
    (s.modRing k f).readRes = s.readRes ∧ (s.modRing k f).readErr = s.readErr ∧ (s.modRing k f).free = s.free ∧
    (s.modRing k f).laneClk = s.laneClk ∧ (s.modRing k f).btm = s.btm ∧ (s.modRing k f).lanes = s.lanes ∧ (s.modRing
    k f).dram = s.dram ∧ (s.modRing k f).mem = s.mem ∧ (s.modRing k f).poison = s.poison ∧ (s.modRing k f).rom =
    s.rom ∧ (s.modRing k f).dramTop = s.dramTop ∧ (s.modRing k f).msis = s.msis ∧ (s.modRing k f).rsvDone = s.rsvDone
    ∧ (s.modRing k f).gar = s.gar ∧ (s.modRing k f).twin = s.twin ∧ (s.modRing k f).str = s.str ∧ (s.modRing k
    f).harts = s.harts ∧ (s.modRing k f).firewall = s.firewall ∧ (s.modRing k f).windows = s.windows ∧ (s.modRing k
    f).cel = s.cel ∧ (s.modRing k f).net = s.net ∧ (s.modRing k f).pcie = s.pcie ∧ (s.modRing k f).ark = s.ark ∧
    (s.modRing k f).pwr = s.pwr :=
  State.with_jrn s _
@[simp] theorem State.modRing_reads (s : State) (k : Nat) (f : Ring → Ring) (b m o q u : Nat) :
    (s.modRing k f).reg b = s.reg b ∧ (s.modRing k f).lreg m o = s.lreg m o ∧ (s.modRing k f).lane m = s.lane m ∧
    (s.modRing k f).thr m u = s.thr m u ∧ (s.modRing k f).dmc q = s.dmc q ∧ (s.modRing k f).tai = s.tai ∧ (s.modRing
    k f).epoch = s.epoch :=
  State.with_jrn_reads s _ b m o q u
@[simp] theorem State.present_fields (s : State) (k : Nat) (r : PortRec) :
    (s.present k r).pending = s.pending ∧ (s.present k r).regs = s.regs ∧ (s.present k r).latch = s.latch ∧
    (s.present k r).readRes = s.readRes ∧ (s.present k r).readErr = s.readErr ∧ (s.present k r).free = s.free ∧
    (s.present k r).laneClk = s.laneClk ∧ (s.present k r).btm = s.btm ∧ (s.present k r).lanes = s.lanes ∧ (s.present
    k r).dram = s.dram ∧ (s.present k r).mem = s.mem ∧ (s.present k r).poison = s.poison ∧ (s.present k r).rom =
    s.rom ∧ (s.present k r).dramTop = s.dramTop ∧ (s.present k r).msis = s.msis ∧ (s.present k r).rsvDone = s.rsvDone
    ∧ (s.present k r).gar = s.gar ∧ (s.present k r).twin = s.twin ∧ (s.present k r).str = s.str ∧ (s.present k
    r).harts = s.harts ∧ (s.present k r).firewall = s.firewall ∧ (s.present k r).windows = s.windows ∧ (s.present k
    r).cel = s.cel ∧ (s.present k r).net = s.net ∧ (s.present k r).pcie = s.pcie ∧ (s.present k r).ark = s.ark ∧
    (s.present k r).pwr = s.pwr :=
  State.with_jrn s _
@[simp] theorem State.present_reads (s : State) (k : Nat) (r : PortRec) (b m o q u : Nat) :
    (s.present k r).reg b = s.reg b ∧ (s.present k r).lreg m o = s.lreg m o ∧ (s.present k r).lane m = s.lane m ∧
    (s.present k r).thr m u = s.thr m u ∧ (s.present k r).dmc q = s.dmc q ∧ (s.present k r).tai = s.tai ∧ (s.present
    k r).epoch = s.epoch :=
  State.with_jrn_reads s _ b m o q u
/-- A change of `mem` leaves every other field. -/
theorem State.with_mem (s : State) (x0 : Mem) :
    ({ s with mem := x0 } : State).pending = s.pending ∧ ({ s with mem := x0 } : State).regs = s.regs ∧
    ({ s with mem := x0 } : State).latch = s.latch ∧ ({ s with mem := x0 } : State).readRes = s.readRes ∧
    ({ s with mem := x0 } : State).readErr = s.readErr ∧ ({ s with mem := x0 } : State).free = s.free ∧
    ({ s with mem := x0 } : State).laneClk = s.laneClk ∧ ({ s with mem := x0 } : State).btm = s.btm ∧
    ({ s with mem := x0 } : State).lanes = s.lanes ∧ ({ s with mem := x0 } : State).jrn = s.jrn ∧
    ({ s with mem := x0 } : State).dram = s.dram ∧ ({ s with mem := x0 } : State).poison = s.poison ∧
    ({ s with mem := x0 } : State).rom = s.rom ∧ ({ s with mem := x0 } : State).dramTop = s.dramTop ∧
    ({ s with mem := x0 } : State).msis = s.msis ∧ ({ s with mem := x0 } : State).rsvDone = s.rsvDone ∧
    ({ s with mem := x0 } : State).gar = s.gar ∧ ({ s with mem := x0 } : State).twin = s.twin ∧ ({ s with mem := x0 }
    : State).str = s.str ∧ ({ s with mem := x0 } : State).harts = s.harts ∧ ({ s with mem := x0 } : State).firewall =
    s.firewall ∧ ({ s with mem := x0 } : State).windows = s.windows ∧ ({ s with mem := x0 } : State).cel = s.cel ∧
    ({ s with mem := x0 } : State).net = s.net ∧ ({ s with mem := x0 } : State).pcie = s.pcie ∧ ({ s with mem := x0 }
    : State).ark = s.ark ∧ ({ s with mem := x0 } : State).pwr = s.pwr := by
  and_intros <;> rfl
theorem State.with_mem_reads (s : State) (x0 : Mem) (b m o q u : Nat) :
    ({ s with mem := x0 } : State).reg b = s.reg b ∧ ({ s with mem := x0 } : State).lreg m o = s.lreg m o ∧
    ({ s with mem := x0 } : State).lane m = s.lane m ∧ ({ s with mem := x0 } : State).thr m u = s.thr m u ∧
    ({ s with mem := x0 } : State).ring q = s.ring q ∧ ({ s with mem := x0 } : State).tai = s.tai ∧
    ({ s with mem := x0 } : State).epoch = s.epoch := by
  and_intros <;> rfl
@[simp] theorem State.setDmc_fields (s : State) (c : Nat) (d : Dmc) :
    (s.setDmc c d).pending = s.pending ∧ (s.setDmc c d).regs = s.regs ∧ (s.setDmc c d).latch = s.latch ∧ (s.setDmc c
    d).readRes = s.readRes ∧ (s.setDmc c d).readErr = s.readErr ∧ (s.setDmc c d).free = s.free ∧ (s.setDmc c
    d).laneClk = s.laneClk ∧ (s.setDmc c d).btm = s.btm ∧ (s.setDmc c d).lanes = s.lanes ∧ (s.setDmc c d).jrn = s.jrn
    ∧ (s.setDmc c d).dram = s.dram ∧ (s.setDmc c d).poison = s.poison ∧ (s.setDmc c d).rom = s.rom ∧ (s.setDmc c
    d).dramTop = s.dramTop ∧ (s.setDmc c d).msis = s.msis ∧ (s.setDmc c d).rsvDone = s.rsvDone ∧ (s.setDmc c d).gar =
    s.gar ∧ (s.setDmc c d).twin = s.twin ∧ (s.setDmc c d).str = s.str ∧ (s.setDmc c d).harts = s.harts ∧ (s.setDmc c
    d).firewall = s.firewall ∧ (s.setDmc c d).windows = s.windows ∧ (s.setDmc c d).cel = s.cel ∧ (s.setDmc c d).net =
    s.net ∧ (s.setDmc c d).pcie = s.pcie ∧ (s.setDmc c d).ark = s.ark ∧ (s.setDmc c d).pwr = s.pwr :=
  State.with_mem s _
@[simp] theorem State.setDmc_reads (s : State) (c : Nat) (d : Dmc) (b m o q u : Nat) :
    (s.setDmc c d).reg b = s.reg b ∧ (s.setDmc c d).lreg m o = s.lreg m o ∧ (s.setDmc c d).lane m = s.lane m ∧
    (s.setDmc c d).thr m u = s.thr m u ∧ (s.setDmc c d).ring q = s.ring q ∧ (s.setDmc c d).tai = s.tai ∧ (s.setDmc c
    d).epoch = s.epoch :=
  State.with_mem_reads s _ b m o q u
@[simp] theorem State.modDmc_fields (s : State) (c : Nat) (f : Dmc → Dmc) :
    (s.modDmc c f).pending = s.pending ∧ (s.modDmc c f).regs = s.regs ∧ (s.modDmc c f).latch = s.latch ∧ (s.modDmc c
    f).readRes = s.readRes ∧ (s.modDmc c f).readErr = s.readErr ∧ (s.modDmc c f).free = s.free ∧ (s.modDmc c
    f).laneClk = s.laneClk ∧ (s.modDmc c f).btm = s.btm ∧ (s.modDmc c f).lanes = s.lanes ∧ (s.modDmc c f).jrn = s.jrn
    ∧ (s.modDmc c f).dram = s.dram ∧ (s.modDmc c f).poison = s.poison ∧ (s.modDmc c f).rom = s.rom ∧ (s.modDmc c
    f).dramTop = s.dramTop ∧ (s.modDmc c f).msis = s.msis ∧ (s.modDmc c f).rsvDone = s.rsvDone ∧ (s.modDmc c f).gar =
    s.gar ∧ (s.modDmc c f).twin = s.twin ∧ (s.modDmc c f).str = s.str ∧ (s.modDmc c f).harts = s.harts ∧ (s.modDmc c
    f).firewall = s.firewall ∧ (s.modDmc c f).windows = s.windows ∧ (s.modDmc c f).cel = s.cel ∧ (s.modDmc c f).net =
    s.net ∧ (s.modDmc c f).pcie = s.pcie ∧ (s.modDmc c f).ark = s.ark ∧ (s.modDmc c f).pwr = s.pwr :=
  State.with_mem s _
@[simp] theorem State.modDmc_reads (s : State) (c : Nat) (f : Dmc → Dmc) (b m o q u : Nat) :
    (s.modDmc c f).reg b = s.reg b ∧ (s.modDmc c f).lreg m o = s.lreg m o ∧ (s.modDmc c f).lane m = s.lane m ∧
    (s.modDmc c f).thr m u = s.thr m u ∧ (s.modDmc c f).ring q = s.ring q ∧ (s.modDmc c f).tai = s.tai ∧ (s.modDmc c
    f).epoch = s.epoch :=
  State.with_mem_reads s _ b m o q u

/-! ### Reads after writes -/

theorem State.reg_setReg (s : State) (a v b : Nat) :
    (s.setReg a v).reg b = if b = a then v % 2 ^ 32 else s.reg b := by
  unfold State.setReg State.reg
  dsimp only
  by_cases h : b = a
  · subst h; rw [SMap.get_set_self, if_pos rfl, BitVec.toNat_ofNat]
  · rw [if_neg h]; unfold SMap.get SMap.set; split
    · rw [SMap.find_del, if_neg h]
    · rw [SMap.find_put, if_neg h]
@[simp] theorem State.reg_setReg_self (s : State) (a v : Nat) : (s.setReg a v).reg a = v % 2 ^ 32 := by simp [reg_setReg]
@[simp] theorem State.reg_setReg_ne (s : State) {a b : Nat} (h : b ≠ a) (v : Nat) : (s.setReg a v).reg b = s.reg b := by
  simp [reg_setReg, h]
theorem State.lane_setLane (s : State) (n m : Nat) (l : Lane) : (s.setLane n l).lane m = if m = n then l else s.lane m := by
  unfold State.setLane State.lane; rw [SMap.get_set]
@[simp] theorem State.lane_setLane_self (s : State) (n : Nat) (l : Lane) : (s.setLane n l).lane n = l := by simp [lane_setLane]
@[simp] theorem State.lane_setLane_ne (s : State) {n m : Nat} (h : m ≠ n) (l : Lane) : (s.setLane n l).lane m = s.lane m := by
  simp [lane_setLane, h]
@[simp] theorem State.lane_modLane_self (s : State) (n : Nat) (f : Lane → Lane) : (s.modLane n f).lane n = f (s.lane n) := by
  simp [State.modLane]
@[simp] theorem State.lane_modLane_ne (s : State) {n m : Nat} (h : m ≠ n) (f : Lane → Lane) : (s.modLane n f).lane m = s.lane m := by
  simp [State.modLane, h]
@[simp] theorem Lane.thr_setThr_self (l : Lane) (t : Nat) (v : Thread) : (l.setThr t v).thr t = v := by
  simp [Lane.thr, Lane.setThr]
@[simp] theorem Lane.thr_setThr_ne (l : Lane) {t u : Nat} (h : u ≠ t) (v : Thread) : (l.setThr t v).thr u = l.thr u := by
  simp [Lane.thr, Lane.setThr, h]
@[simp] theorem State.thr_modThr_self (s : State) (n t : Nat) (f : Thread → Thread) : (s.modThr n t f).thr n t = f (s.thr n t) := by
  simp [State.modThr, State.thr]
@[simp] theorem State.thr_modThr_ne (s : State) {n t m u : Nat} (h : m ≠ n ∨ u ≠ t) (f : Thread → Thread) :
    (s.modThr n t f).thr m u = s.thr m u := by
  unfold State.modThr State.thr
  by_cases e : m = n
  · subst e
    have : u ≠ t := by rcases h with h | h; exact absurd rfl h; exact h
    simp [this]
  · simp [e]
@[simp] theorem Lane.msg_setMsg_self (l : Lane) (h : Nat) (m : Msg) : (l.setMsg h m).msg h = some m := by
  simp [Lane.msg, Lane.setMsg]
@[simp] theorem Lane.msg_setMsg_ne (l : Lane) {h g : Nat} (e : g ≠ h) (m : Msg) : (l.setMsg h m).msg g = l.msg g := by
  simp [Lane.msg, Lane.setMsg, e]
@[simp] theorem Lane.burEng_setBurEng_self (l : Lane) (e : Nat) (v : BurEng) : (l.setBurEng e v).burEng e = v := by
  simp [Lane.burEng, Lane.setBurEng]
@[simp] theorem Lane.burEng_setBurEng_ne (l : Lane) {e f : Nat} (h : f ≠ e) (v : BurEng) : (l.setBurEng e v).burEng f = l.burEng f := by
  simp [Lane.burEng, Lane.setBurEng, h]
@[simp] theorem State.ring_setRing_self (s : State) (k : Nat) (r : Ring) : (s.setRing k r).ring k = r := by
  simp [State.setRing, State.ring]
@[simp] theorem State.ring_setRing_ne (s : State) {k q : Nat} (h : q ≠ k) (r : Ring) : (s.setRing k r).ring q = s.ring q := by
  simp [State.setRing, State.ring, h]
@[simp] theorem State.ring_modRing_self (s : State) (k : Nat) (f : Ring → Ring) : (s.modRing k f).ring k = f (s.ring k) := by
  simp [State.modRing]
@[simp] theorem State.dmc_setDmc_self (s : State) (c : Nat) (d : Dmc) : (s.setDmc c d).dmc c = d := by
  simp [State.setDmc, State.dmc]
@[simp] theorem State.dmc_setDmc_ne (s : State) {c q : Nat} (h : q ≠ c) (d : Dmc) : (s.setDmc c d).dmc q = s.dmc q := by
  simp [State.setDmc, State.dmc, h]
@[simp] theorem State.dmc_modDmc_self (s : State) (c : Nat) (f : Dmc → Dmc) : (s.modDmc c f).dmc c = f (s.dmc c) := by
  simp [State.modDmc]
/-- Counting a lane event touches nothing else of the lane. -/
@[simp] theorem State.lpmu_lane (s : State) (n i k m : Nat) :
    (s.lpmu n i k).lane m = if m = n then { s.lane n with lpmu := ((s.lpmu n i k).lane n).lpmu } else s.lane m := by
  unfold State.lpmu
  by_cases h : m = n
  · subst h; simp
  · simp [h]
@[simp] theorem State.lpmu_thr (s : State) (n i k m u : Nat) : (s.lpmu n i k).thr m u = s.thr m u := by
  unfold State.lpmu State.thr
  by_cases h : m = n
  · subst h; simp [Lane.thr]
  · simp [h]

/-! ### Stylus registers -/

@[simp] theorem Thread.rd_wr_self (t : Thread) (r : Nat) (v : W32) (h : r ≠ 0) : (t.wr r v).rd r = v := by
  simp [Thread.rd, Thread.wr, h]
@[simp] theorem Thread.rd_wr_ne (t : Thread) {r q : Nat} (v : W32) (h : q ≠ r) : (t.wr r v).rd q = t.rd q := by
  unfold Thread.rd Thread.wr; split
  · rfl
  · split
    · rfl
    · simp [h]
@[simp] theorem Thread.rd_zero (t : Thread) : t.rd 0 = 0 := rfl
theorem Thread.wr_zero (t : Thread) (v : W32) : t.wr 0 v = t := rfl
/-- A result changes the register file, the pc, the run state and the retired count, and nothing else. -/
theorem Thread.ret_shape (t : Thread) (r : Nat) (v : W32) :
    t.ret r v = { t with x := (t.wr r v).x, pc := t.pc + 4, run := .run, minstret := t.minstret + 1 } := by
  unfold Thread.ret Thread.wr; split <;> rfl
@[simp] theorem Thread.ret_pc (t : Thread) (r : Nat) (v : W32) : (t.ret r v).pc = t.pc + 4 := by rw [Thread.ret_shape]
@[simp] theorem Thread.ret_run (t : Thread) (r : Nat) (v : W32) : (t.ret r v).run = .run := by rw [Thread.ret_shape]
@[simp] theorem Thread.rd_ret (t : Thread) (r : Nat) (v : W32) (q : Nat) : (t.ret r v).rd q = (t.wr r v).rd q := rfl

end Sys2Proof.Machine
end

