-- ==== Sys2Proof/Laws/Ops.lean ====
section
/-!
SUPPORT. What the shared operations of the commands answer: the firewall in front of a lane's registers, the issue of a
Stylus instruction, and that a change of one register, lane or hart changes nothing else.
-/

namespace Sys2Proof.Machine
open Sys2Proof

/-- With the right, a lane's register command has its effect. -/
theorem State.laneWrite_pos {s : State} {g : Agent} {n o k : Nat} (f : State → State) (h : s.right g n k = true) :
    s.laneWrite g n o k f = .next (f s) := if_pos h
/-- Without it, the access is refused to its agent. -/
theorem State.laneWrite_neg {s : State} {g : Agent} {n o k : Nat} (f : State → State) (h : s.right g n k = false) :
    s.laneWrite g n o k f = .next (s.refuse g (laneBase n + o) true) := by simp [State.laneWrite, h]
/-- A running thread whose next word is the operation issues it, and LPMU counter 20 counts it. -/
theorem State.issue_run {s : State} {n t : Nat} {x : XOp} (f : State → Thread → State) (h : (s.lane n).atOp t x = true) :
    s.issue n t x f = .next ((f s (s.thr n t)).lpmu n 20 1) := if_pos h
/-- A thread that does not run, or whose next word is another, does not issue the operation. -/
theorem State.issue_idle {s : State} {n t : Nat} {x : XOp} (f : State → Thread → State) (h : (s.lane n).atOp t x = false) :
    s.issue n t x f = .next s := if_neg (by simp [h])
/-- The operation's thread runs. -/
theorem Lane.atOp_run {l : Lane} {t : Nat} {x : XOp} (h : l.atOp t x = true) : (l.thr t).run = .run := by
  simp only [Lane.atOp, Bool.and_eq_true, decide_eq_true_eq] at h
  exact h.1
theorem State.setReg_only (s : State) (a v : Nat) : ∀ b, b ≠ a → (s.setReg a v).reg b = s.reg b :=
  fun _ hb => State.reg_setReg_ne s hb v
theorem State.modLane_only (s : State) (n : Nat) (f : Lane → Lane) : ∀ m, m ≠ n → (s.modLane n f).lane m = s.lane m :=
  fun _ hb => State.lane_modLane_ne s hb f

/-! ### Harts, sessions, mailboxes, locks -/

@[simp] theorem State.hart_setHart_self (s : State) (h : Nat) (v : Hart) : (s.setHart h v).hart h = v := by
  simp [State.hart, State.setHart]
@[simp] theorem State.hart_setHart_ne (s : State) {h k : Nat} (e : k ≠ h) (v : Hart) : (s.setHart h v).hart k = s.hart k := by
  simp [State.hart, State.setHart, e]
@[simp] theorem State.hart_modHart_self (s : State) (h : Nat) (f : Hart → Hart) : (s.modHart h f).hart h = f (s.hart h) := by
  simp [State.modHart]
@[simp] theorem State.hart_modHart_ne (s : State) {h k : Nat} (e : k ≠ h) (f : Hart → Hart) :
    (s.modHart h f).hart k = s.hart k := by simp [State.modHart, e]
@[simp] theorem Hart.rd_wr_self (x : Hart) (r : Nat) (v : D64) (h : r ≠ 0) : (x.wr r v).rd r = v := by
  simp [Hart.rd, Hart.wr, h]
@[simp] theorem Hart.rd_wr_ne (x : Hart) {r q : Nat} (v : D64) (h : q ≠ r) : (x.wr r v).rd q = x.rd q := by
  unfold Hart.rd Hart.wr
  by_cases e : r = 0
  · simp [e]
  · simp [e, h]
@[simp] theorem Hart.rd_zero (x : Hart) : x.rd 0 = 0 := rfl
theorem Hart.wr_zero (x : Hart) (v : D64) : x.wr 0 v = x := rfl
/-- A ready hart whose triggers are all off and that takes no single step issues its instruction; a hart that is not ready
is left as it is. -/
theorem State.hartIssueOn_ready {s : State} {h : Nat} (acc : Hart → List (Nat × Nat × Nat)) (f : State → Hart → State)
    (e : (s.hart h).ready = true) (a : (s.hart h).armed = false) : s.hartIssueOn h acc f = .next (f s (s.hart h)) := by
  simp [State.hartIssueOn, e, a]
theorem State.hartIssue_ready {s : State} {h : Nat} (f : State → Hart → State) (e : (s.hart h).ready = true)
    (a : (s.hart h).armed = false) : s.hartIssue h f = .next (f s (s.hart h)) := State.hartIssueOn_ready _ f e a
theorem State.hartIssue_idle {s : State} {h : Nat} (f : State → Hart → State) (e : (s.hart h).ready = false) :
    s.hartIssue h f = .next s := by simp [State.hartIssue, State.hartIssueOn, e]
/-- A trigger that fires before an instruction takes its place. -/
theorem State.hartIssueOn_fires {s : State} {h a tval : Nat} (acc : Hart → List (Nat × Nat × Nat)) (f : State → Hart → State)
    (e : (s.hart h).ready = true) (m : (s.hart h).armed = true) (b : (s.hart h).before (acc (s.hart h)) = some (a, tval)) :
    s.hartIssueOn h acc f = .next (s.setHart h (((s.hart h).fire a tval).stepped (s.hart h))) := by
  simp [State.hartIssueOn, e, m, b]
@[simp] theorem State.sess_setSess_self (s : State) (i : Nat) (x : Session) : (s.setSess i x).sess i = x := by
  simp [State.sess, State.setSess]
@[simp] theorem State.sess_setSess_ne (s : State) {i j : Nat} (h : j ≠ i) (x : Session) : (s.setSess i x).sess j = s.sess j := by
  simp [State.sess, State.setSess, h]
@[simp] theorem State.mbx_setMbx_self (s : State) (n : Nat) (m : Mbx) : (s.setMbx n m).mbx n = m := by
  simp [State.mbx, State.setMbx]
@[simp] theorem State.mbx_setMbx_ne (s : State) {n k : Nat} (h : k ≠ n) (m : Mbx) : (s.setMbx n m).mbx k = s.mbx k := by
  simp [State.mbx, State.setMbx, h]
@[simp] theorem State.lockHolder_setLock_self (s : State) (n : Nat) (h : Option Nat) : (s.setLock n h).lockHolder n = h := by
  cases h <;> simp [State.lockHolder, State.setLock, SMap.find_put, SMap.find_del]
@[simp] theorem State.lockHolder_setLock_ne (s : State) {n k : Nat} (e : k ≠ n) (h : Option Nat) :
    (s.setLock n h).lockHolder k = s.lockHolder k := by
  cases h <;> simp [State.lockHolder, State.setLock, SMap.find_put, SMap.find_del, e]
/-- An answered read is the agent's result, and clears its error. -/
@[simp] theorem State.answer_readRes (s : State) (a v : Nat) : SMap.get 0 a (s.answer a v).readRes = v := by simp [State.answer]
@[simp] theorem State.answer_readRes_ne (s : State) {a b : Nat} (h : b ≠ a) (v : Nat) :
    SMap.get 0 b (s.answer a v).readRes = SMap.get 0 b s.readRes := by simp [State.answer, h]

end Sys2Proof.Machine
end

