-- ==== Sys2Proof/Tests/Slice0.lean ====
section
/-!
SUPPORT. Small tests of the model against the spec's own examples, ill-formed commands that the check refuses, and for each
statement with hypotheses concrete states and operands that meet them (the theorems named `wit_`).
-/

namespace Sys2Proof.Tests
set_option Elab.async false
set_option maxRecDepth 100000
open Sys2Proof Sys2Proof.Machine

/-! ### States for the witnesses -/

/-- Agent 3 holds every right on every lane. -/
def wFire : SMap FirewallEntry := [(3, { agent := 3, read := 0xFFFF, tileWrite := 0xFFFF, shelf := 0xFFFF, control := 0xFFFF, mbx := 0xFF })]
/-- The beat timer runs. -/
def wBtm : Btm := { running := true, beat := 100, cyc := 5 }
/-- Lane 3 as given, agent 3 with its rights, the beat timer running. -/
def wLane (l : Lane) : State := { firewall := wFire, btm := wBtm, lanes := [(3, l)] }
def wClass : SMap W32 := [(0x1000, 0x00804100#32 ||| 0x00080000#32), (0x2208, 1#32)]
def wMsg : Msg := { toBeat := 101, stage := .awaiting }
def wPhase : Phase :=
  { h := 0, cls := 0, outbound := false, shed := false, fallback := false, dlBeat := 90
    stn := { eng := 4, opc := 0, start := 0, stop := 0 }, bur := [], outMax := 0 }
def wEvents : Lane :=
  { st := 2, live := wClass, msgs := [(5, wMsg)], cands := [{ h := 7, outbound := false, cls := 0 }]
    threads := [(1, { run := .run, phase := some wPhase })] }
/-- Lane 3 between beats: shelf 8 with an entry to collect, a decision due, an old candidate, a phase past its deadline. -/
def wEventsS : State := { wLane wEvents with regs := [(0x1300220C, 1#32)] }
/-- Lane 3 awaiting one decision that is due. -/
def wDue : State := wLane { st := 2, msgs := [(5, wMsg)] }
/-- Lane 3 RESETTING, a tile allocated, one message lost. -/
def wReset : State := wLane { st := 4, reset := some { agent := 3 }, side := [(2, 0x0100000000000000#64)], tmem := [(512, 7), (0x600000, 9)], msgs := [(5, wMsg)] }
/-- Thread 1 of lane 3 runs with the given registers; the lane as given. -/
def wThr (l : Lane) (x : List (Nat × W32)) : State := wLane { l with st := 2, threads := [(1, { run := .run, x := x, pc := 0x40, mie := true, phase := some wPhase })] }
/-- The word of an operation of Table STY-5, with zeros in the fields it does not use. -/
def wEnc (x : XOp) : Nat :=
  x.f7 * 2 ^ 25 + (x.rs2.getD 0).val * 2 ^ 20 + (x.rs1.getD 0).val * 2 ^ 15 + x.f3 * 2 ^ 12 + (x.rd.getD 0).val * 2 ^ 7 + x.op
def wOpImage (x : XOp) : Bytes :=
  Bytes.zeros 8 ++ Bytes.ofNatLE 4 0x44 ++ Bytes.zeros 8 ++ Bytes.ofNatLE 4 0x40 ++ Bytes.zeros 408 ++ Bytes.ofNatLE 4 (wEnc x)
/-- Lane 3's code holds the operation at 0x40, which is its trap vector too. -/
def wAt (x : XOp) (s : State) : State := s.modLane 3 fun l => { l with image0 := wOpImage x }
/-- The Strongroom holds a hallmark root. -/
def wStr : Str := { slots := [(2, { gen := 1, held := true, material := Bytes.zeros 32 })] }
def wTile : SMap D64 := [(2, BitVec.ofNat 64 (mkSide true true endTile 4 (Crypto.crc32c (Bytes.zeros 4)).toNat))]
def wDigest (w : SMap D64) : State :=
  { wThr { digests := [(0, 2)], tags := [{ id := 0, thr := 1, kind := .digest }], side := w } [] with str := wStr }
def wHm (m : Msg) (x : List (Nat × W32)) : State :=
  { wThr { msgs := [(5, m)], tags := [{ id := 4, thr := 1, kind := .digest, code := some 0, digest := some (2, 77) }] } x with str := wStr }
def wTrapImage (t : Nat) : Bytes := Bytes.zeros 20 ++ Bytes.ofNatLE 4 t ++ Bytes.zeros 400
/-- A thread with a completed tag 4 and an outstanding tag 6. -/
def wTags : Lane := { tags := [{ id := 4, thr := 1, kind := .bur, code := some 0x1101 }, { id := 6, thr := 1, kind := .bur }] }
def wWait : State := (wThr wTags []).modThr 3 1 fun t => { t with run := .waitTag 5 6 }
/-- A message whose canonical record is in tile 2, handle 5, with the phase of thread 1; shelf 0 enabled. -/
def wPost (x : List (Nat × W32)) : State :=
  { wThr { live := [(0x2000, BitVec.ofNat 32 dramBase), (0x2004, BitVec.ofNat 32 (dramBase / 2 ^ 32)), (0x2008, 1#32), (0x2014, BitVec.ofNat 32 (dramBase + 0x10000)), (0x2018, BitVec.ofNat 32 (dramBase / 2 ^ 32))], msgs := [(5, { canonTile := 2, canonLen := 8, len := 8, stage := .runIn })], side := [(2, BitVec.ofNat 64 (mkSide true true endTile 8 0))] } x with dramTop := dramBase + 2 ^ 20 }
def wFull (s : State) : State := { s with regs := [(0x1300200C, BitVec.ofNat 32 (shelfEntries ((s.lane 3).cfg 0x2008)))] }
def wPut : Bytes := Bytes.zeros 21 ++ [0x81#8] ++ Bytes.zeros 2 ++ Bytes.zeros 40
/-- Engine 1 runs one operation; thread 1 waits for its tag. -/
def wRun (r : BurRun) : State :=
  (wThr { eng := [(1, { run := some r })], tags := [{ id := 6, thr := 1, kind := .bur }] } []).modThr 3 1 fun t => { t with run := .waitTag 5 6 }
/-- Key slot 32 + class of each class holds a key under policy 1, which grants every lane and unit; lane 3's inline policy is 1. -/
def wPolicy : Policy := { lanes := 0xFFFF, units := 0xFF, flags := 0xFF, derived := [], limit := 0, warn := 0, validFrom := 0, validUntil := 0 }
def wKeyStr : Str :=
  { slots := (List.range 26).map fun c => (32 + c, { gen := 1, cls := c, policy := 1, held := true, material := Bytes.zeros 32 })
    policies := [(1, some wPolicy)], inline := [(3, 1)] }
def wKeyFor (c : Nat) : Nat :=
  let k := ((List.range 26).find? fun k => clsAccepts k c).getD 0
  mkHandle 1 k 1 (32 + k)
def wAux (c : Nat) : Bytes :=
  if isDukpt c then Bytes.zeros 9 ++ [3] ++ (if c = 0x84 then [0, 1] else [])
  else if isPin c then List.replicate 12 0x31#8 else if isBatch c then Bytes.zeros 12 ++ Bytes.ofNatLE 4 0x10004000 else []
def wAuxLen (c : Nat) : Nat := if isBatch c then 1 else if isVerify c then sigLen c else if isPin c then 12 else if c = 0x80 then 10 else if c = 0x84 then 12 else 0
/-- A descriptor of code `c` over 16 bytes at IN, with AUX, OUT, the completion record and the public key in tile memory. -/
def wBDesc (c flags : Nat) : Bytes :=
  [BitVec.ofNat 8 c, BitVec.ofNat 8 flags] ++ Bytes.ofNatLE 2 5 ++ Bytes.ofNatLE 4 0x10000000 ++ Bytes.ofNatLE 4 80 ++ Bytes.zeros 4 ++ Bytes.ofNatLE 4 16
    ++ Bytes.ofNatLE 4 0x10001000 ++ Bytes.ofNatLE 2 (wAuxLen c) ++ Bytes.ofNatLE 2 5000 ++ Bytes.ofNatLE 4 0x10005000
    ++ Bytes.ofNatLE 8 (if isVerify c || isHash c then 0 else wKeyFor c) ++ Bytes.ofNatLE 8 (if isPin c then wKeyFor c else 0)
    ++ Bytes.ofNatLE 4 0x10003000 ++ [if isMac c then (if c < 0x6C then 16 else 8) else 0, 0, 0, 0]
    ++ (if isVerify c && !isBatch c then Bytes.ofNatLE 4 0x10004000 ++ Bytes.ofNatLE 2 32 ++ Bytes.zeros 2 else Bytes.zeros 8)
def wBOp (c flags : Nat) : BurOp := { src := .thread 1 6, desc := wBDesc c flags, opc := c, start := 0, stop := 99, dl := 10000000 }
/-- Engine 1 of lane 3 is idle with the descriptor of code `c` due. -/
def wBReady (c flags : Nat) : State :=
  { wThr { eng := [(1, { q := [wBOp c flags] })], tags := [{ id := 6, thr := 1, kind := .bur }], msgs := [(5, {})]
           tmem := memWrite [] 0x1000 (wAux c) } [] with str := wKeyStr }
/-- Hart 7 runs in M-mode with the given registers; the DRAM holds `b` from its base. -/
def wHartX (x : Hart) (b : Bytes) : State :=
  { wLane {} with harts := [(7, x)], dram := memWrite [] dramBase b, dramTop := dramBase + 2 ^ 20, str := wStr, firewall := [(7, { agent := 7, read := 0xFFFF, tileWrite := 0xFFFF, shelf := 0xFFFF, control := 0xFFFF, mbx := 0xFF })] }
def wH (x : List (Nat × D64)) : Hart := { x := x, pc := 0x80, run := true, ilen := 4 }
def wHart (x : List (Nat × D64)) (b : Bytes) : State := wHartX (wH x) b
def wData : Bytes := Bytes.zeros 8
def wKey : Bytes := (({ wLane {} with str := wStr } : State).hmKey {}).getD []
def wTrace : List Link := [{ eng := 0x203, digest := digestOf wKey wData, tile := 2, isHm := true }]
def wMark : Hallmark := { origin := 17, chain := recompute wKey 17 wTrace, step := 1, lane := 3 }
/-- Lane 3 holds the message whose record stands in DRAM. -/
def wCheck : State := (wHart [(6, BitVec.ofNat 64 dramBase), (7, 40)] (wMark.bytes ++ wData)).setLane 3 { msgs := [(5, { hm := wMark, trace := wTrace })] }
/-- A core record of 64 bytes of type 6. -/
def wCore : State := wHart [(6, BitVec.ofNat 64 dramBase)] (Bytes.zeros 21 ++ [6#8] ++ Bytes.zeros 2 ++ Bytes.zeros 40)
def wRing : Ring := { online := true, pairHold := false, restored := true }
def wCoreR : State := wCore.setRing 16 wRing
/-- A machine timer interrupt is pending and enabled at hart 7. -/
def wTimer : State := { wHartX { wH [] with csr := [(0x300, 8), (0x304, 0x80)] } [] with regs := [(0x0E000038, 0), (0x0E00003C, 0)] }
def wTileRd : State := wHart [(6, 0x20000000 + 3 * 0x800000 + 512)] []
def wLd (k : AccKind) : MemAccess := { kind := k, size := 4, signed := false, rd := 5, rs1 := 6, rs2 := 7, imm := 0, op := .swap, vector := false, fp := false, wrongPath := false, dataError := false }
def wL0 : Nat := dramBase / 64
/-- Hart 7 holds the first DRAM line in its L1D and L2; the home slice holds it too. -/
def wCached (x : List (Nat × D64)) : State :=
  { wHart x [9, 8, 7, 6] with mem := { l1d := [(l1Key 7 wL0, [⟨wL0, 0, 3⟩])], l2 := [(l2Key 7 wL0, [⟨wL0, 0, 3⟩])], l3 := [(l3Key wL0, [⟨wL0, 0, 1⟩])] } }
def wSlice (h : Option Nat) : State :=
  { wHart [(6, BitVec.ofNat 64 dramBase)] [9, 8, 7, 6] with mem := { l3 := [(l3Key wL0, [⟨wL0, 0, 1⟩])], evbuf := (h.map (fun v => (v, wL0))).toList } }
def wDebug (x : Hart) : State := { wHartX x [] with str := { unlockHarts := [7], unlockExpiry := 1 } }
def wD : Dmc := { st := 2, dimms := 1, ranks := 1, cap := 1, member := true, temps := [40], tsets := [(4800, true, true), (5600, true, true)] }
/-- Channel 2 is the one member of the interleave set. -/
def wDmcM (d : Dmc) (wq : List WEntry) (p : SMap Unit) : State :=
  { wLane {} with mem := { dmc := [(2, d)], set := [2], cap := 2 ^ 30, wq := wq }, dram := memWrite [] (dramBase + 320) [5, 6], poison := p
                  dramTop := dramBase + 2 ^ 30 - 2 ^ 20 }
def wDmc (d : Dmc) : State := wDmcM d [] []
def wW : WEntry := { ch := 2, line := wL0 + 5, data := [1, 2, 3] }
def wL5 : Nat := wL0 + 5
def wDom : DomainCfg :=
  { device := 9, domain := 1, membershipRoot := [], config := 0, configMin := 0, configMax := 9, leaseLen := 3, rhaxPort := 0, witness := [77, 78]
    homeCfg := 0xFF, pairEn := true, takeoverEn := true, ticketKey := [], ticketLife := 0, ptpDomain := 4, ptpPrimary := 2, ptpBackup := 3
    portModes := [], fwMin := 0, witnessArea := 0, pauseMask := 0, witnessBase := 0 }
def wTwin : Twin := { deviceId := 9, dom := some wDom, linkUp := true, home := 0xFF, homeCfg := 0xFF, peer := 11 }
def wRec (q : Nat) (b : Bytes) : Rec := { seq := q, bytes := b, src := .thread 3 1 5 }
/-- Ring 3 as given; thread 1 of lane 3 waits for its record; the twin as given. -/
def wJrn (m : Nat) (r : Ring) (tw : Twin) : State :=
  let s := (wThr { msgs := [(5, {})] } []).modThr 3 1 fun t => { t with run := .waitJrn 5 }
  { s with jrn := { mode := m, rings := [(3, r)], epochDone := s.epoch }, twin := tw, str := wStr }
def wPort : PortRec := { src := .thread 3 1 5, agent := 259, bytes := Bytes.zeros 64 }
def wSeal : Bytes := Bytes.zeros 21 ++ [3#8] ++ Bytes.zeros 10 ++ Bytes.ofNatLE 8 1 ++ Bytes.zeros 24
def wHdr : RhaxHdr := { src := 12, domain := 1, config := 3, keyEpoch := 1, mseq := 5, tagOk := true }
/-- The fabric key of generation 1 is held; the device keys are those of generation 1. -/
def wFab (tw : Twin) : State :=
  { wLane {} with twin := tw, str := { rootGen := 1, slots := [(2, { gen := 1, held := true, material := Bytes.zeros 32 }), (4, { gen := 1, held := true }), (6, { gen := 1, held := true, material := Bytes.zeros 32 })] } }
/-- A frame of the mirror link with its HCRC and CRC: type, ring byte, LSEQ and payload (Table TWN-2). -/
def wFrame (ty ring q : Nat) (b : Bytes) : LinkFrame :=
  let h := Bytes.ofNatLE 1 ty ++ Bytes.ofNatLE 1 ring ++ Bytes.ofNatLE 2 q ++ Bytes.zeros 4
  let x := h ++ Bytes.ofNatLE 4 (Crypto.crc32c h).toNat ++ b
  { bytes := x ++ Bytes.ofNatLE 4 (Crypto.crc32c x).toNat }
def wBadFrame : LinkFrame := { bytes := (wFrame 6 31 0 (Bytes.zeros 32)).bytes.take 47 ++ [1] }
def wMan0 (s : State) : Manifest :=
  { certOk := true, sigOk := true, digest := [], version := 1, device := 11, domain := 1, fw := 0, fwMin := 0, config := 3, home := 0xFF00
    homeCfg := 0xFF00, beat := s.btm.beat, phase := 0, keyEpoch := 0, witness := [], prot := s.prot
    laneDigests := (List.range 16).map (fun k => (s.lane k).digest), nonce := s.twin.nonce, pairedElsewhere := false, inService := 0 }
/-- The manifest that device 11 sends, with its digest. -/
def wMan (s : State) : Manifest := { wMan0 s with digest := Crypto.sha384 (wMan0 s).bytes }
def wReq (ty ref : Nat) : RhaxReq := { dst := 12, mseq := 5, type := ty, ref := ref }
def wIn : XferIn := { src := 12, mseq := 4, hallmark := wMark.bytes, route := 0, body := [1, 2] }
def wLane2 (s : State) : State := s.setLane 3 { st := 2 }
/-- Mailbox `n` as given; the Cellarer READY. -/
def wMbx (n : Nat) (m : Mbx) : State := { wLane {} with cel := { st := 3, mbx := [(n, m)] } }
def wArkR : ArkRun :=
  { op := 1, irq := true, last := true, forceRaw := false, inLen := 16, inA := dramBase + 4096, outA := dramBase + 8192, outMax := 4096, seqBase := 0
    maxBlocks := 4, compl := dramBase + 12288, bad := false, failing := [], dataError := false }
def wArkDesc (op : Nat) : Bytes :=
  Bytes.ofNatLE 4 op ++ Bytes.ofNatLE 4 16 ++ Bytes.ofNatLE 8 (dramBase + 4096) ++ Bytes.ofNatLE 8 (dramBase + 8192) ++ Bytes.ofNatLE 4 4096 ++ Bytes.zeros 36
/-- Compressor 1 enabled with one descriptor at the DRAM base. -/
def wArk (a : Ark) (op : Nat) : State :=
  { wHart [] (wArkDesc op) with ark := [(1, a)], regs := [(arkBase 1, 1), (arkBase 1 + 0x20, BitVec.ofNat 32 dramBase), (arkBase 1 + 0x24, BitVec.ofNat 32 (dramBase / 2 ^ 32)), (arkBase 1 + 0x30, 1)] }
/-- The main domain is up; power as given. -/
def wPwr (p : Pwr) : State := { wLane {} with pwr := p, harts := [(7, wH [])], dram := [(dramBase, 5)], dramTop := dramBase + 2 ^ 20, lanes := [(3, { st := 2 })] }
def wUp : Pwr := { pwrgd := true, mainUp := true, released := true, boot := 5 }
def wDimm : DimmInfo := { dimms := 1, ranks := 2, density := 1, supported := true, trained := [4800] }
def wAddr : LocalAddr := { ip := [], prefixLen := 24, port := 2, vlan := none, mtu := 1500, gateway := [], fabric := false, homeSet := 0 }
def wLis : Listener :=
  { addr := 1, flags := 3, framing := 0, policy := 0, lport := 80, lanes := 8, cred := 0, trust := 0, rcvbuf := 64, sndbuf := 64, handshake := 5, msg := 5
    idle := 5, stall := 5, linger := 5, rtoMin := 5, maxSess := 0 }
def wSid : Nat := 3 * 4096 + 9
/-- Address 1 on port 2, listener 4, the given session at lane 3's entry 9; the network accepts. -/
def wNet (x : Session) (n : Net) : State :=
  { wLane { st := 2 } with net := { n with addrs := [(1, some wAddr)], listeners := [(4, some wLis)], sessions := [(wSid, x)] }
                           regs := [(portReg 2 0, 1), (netBase, 1)], twin := { dom := some { wDom with portModes := [0, 2], pauseMask := 4 }, home := 0xFFFF }, str := wStr }
def wConn : ConnInfo := { remote := [1, 2], rport := 5, port := 2, ipv6 := false, halfOpen := 0, ticket := none }
def wEth (k : FrameKind) : EthFrame := { fcsOk := true, fecOk := true, len := 64, tags := 0, kind := k }
/-- A release at the port: one link, its output in tile 2. -/
def wRel : Msg :=
  { released := true, atPort := true, acked := true, hm := { session := wSid, step := 1, lane := 3 }
    trace := [{ eng := 0x203, digest := digestOf wKey (Bytes.zeros 4), tile := 2, isHm := false }] }
def wRelease : State := { wNet { st := 3 } {} with lanes := [(3, { st := 2, msgs := [(5, wRel)], side := wTile })] }
/-- PCIe: card mode, the host link up; ring and function state as given. -/
def wPcie (p : Pcie) : State :=
  { wHart [] [1, 2, 3, 4] with pcie := p, pwr := { wUp with straps := 3 }, cel := { st := 3, descBuilt := true } }
def wPReq (w : Bool) (t : Nat) : PcieReq :=
  { rid := 5, write := w, aty := 0, addr := t, size := 64, data := Bytes.zeros 63 ++ [9], ep := false, dataError := false }
def wPUp : SMap PLink := [(16, { up := true, speed := 5, width := 2 })]
/-- Mailbox 5 holds a taken command of agent 3, an administrator outside COMMISSION; the rest of the state as given. -/
def wSk (cmd argc : Nat) (a : List (Nat × Nat)) (s : State) : State :=
  let w := (0, BitVec.ofNat 32 (cmd * 65536 + argc)) :: a.map (fun p => (p.1, BitVec.ofNat 32 p.2))
  let m : Mbx := { st := 3, sender := 3, taken := true, data := w }
  { s with
    cel := { s.cel with st := 3, mbx := SMap.put 5 m s.cel.mbx }
    str := { s.str with bootstrap := false, admin := [3] }
    dramTop := dramBase + 2 ^ 20
    firewall := wFire }
def wLn (l : Lane) (r : Ring) : State := { wLane l with jrn := { rings := [(3, r)] } }
def wNone : State := {}
def wIdle : State := wLane {}
def wHdrBad : RhaxHdr := { wHdr with tagOk := false }
def wAgentRef : ResetBook := { agent := 3 }
def wTag0 : Tag := { id := 0, thr := 1, kind := .digest }
def wMsgNew : Msg := {}
def wMsgAcked : Msg := { acked := true }
def wLaneNew : Lane := {}
/-- A message of lane 3 awaiting its decision, and the decision: eight zero bytes with the length word, under the next link. -/
def wAwait : Msg := { hm := wMark, trace := wTrace, stage := .awaiting, toBeat := 101, canonLen := 8 }
def wDecData : Bytes := Bytes.ofNatLE 2 8 ++ Bytes.zeros 14
def wDecEntry : Bytes :=
  ({ wMark with step := 2, chain := linkTag wKey wMark.chain (digestOf wKey wDecData) 0x400 2 } : Hallmark).bytes ++ wDecData
/-- Shelf 8 of lane 3 lies at the DRAM base and holds one entry. -/
def wDecide : State :=
  { wHart [] wDecEntry with
    btm := wBtm
    lanes := [(3, { st := 2, live := [(0x2200, BitVec.ofNat 32 dramBase), (0x2204, BitVec.ofNat 32 (dramBase / 2 ^ 32)), (0x2208, 1), (0x2214, BitVec.ofNat 32 (dramBase + 4096)), (0x2218, BitVec.ofNat 32 (dramBase / 2 ^ 32))], msgs := [(5, wAwait)] })]
    regs := [(0x1300220C, 1)] }
def wShed (c : W32) : State := wLane { st := 2, live := [(0x1000, c)], msgs := [(7, { stage := .waitIn })], cands := [{ h := 7, outbound := false, cls := 0 }] }
def wLow : State := (wShed 0).modLane 3 fun l => { l with live := [(0x24, 0)] }
def wCtl (c : W32) (l : Lane) : State := { wLane l with regs := [(0x13000000, c)], str := { bootstrap := false } }
def wEpoch : State := { wLane {} with btm := wBtm, jrn := { rings := [(3, wRing), (16, wRing)] } }
def wBook : Booking := { eng := 1, opc := 4, start := 50, stop := 99999 }
def wStnB : Booking := { eng := 4, opc := 1, start := 50, stop := 99999 }
def wStnDesc : Bytes := Bytes.ofNatLE 4 1 ++ Bytes.zeros 28
def wBurDesc : Bytes := Bytes.ofNatLE 4 4 ++ Bytes.zeros 60
/-- Thread 1 at the operation, with booked intervals and a descriptor at the start of the tile region. -/
def wGo (st : Nat) (x : XOp) (d : Bytes) : State :=
  ((wAt x (wThr { tags := wTags.tags, tmem := memWrite [] 0 d } [(6,0x10000000)])).modThr 3 1 fun t =>
    { t with phase := some { wPhase with stn := wStnB, bur := [wBook] } }).modLane 3 fun l => { l with st := st }
def wTagB : Tag := { id := 6, thr := 1, kind := .bur }
def wCodes : List Nat := [4, 8, 0x48, 0x60, 0x1C, 0x7C, 0x80, 0x84]
def wRops : List Nat := [0xC0,0xc4,0xc8,0xcc,0xcd,0xce,0xd0,0xd4,0xd8,0xdc,0xe0,0xe1,0xe4,0xe8]
def wRsv (c : Nat) : BurOp := { src := .reserve .str 7, desc := Bytes.zeros 64, opc := c, start := 0, stop := 99 }
def wRsvS (c : Nat) : State := { wThr { eng := [(1, { q := [wRsv c] })] } [] with str := wKeyStr }
/-- Engine 1 of lane 3 ran the operation of code `c`; thread 1 waits for its tag. -/
def wRunB (c : Nat) (d : Bytes) (src : OpSrc) (ref : Option Code) : BurRun := { op := { src := src, desc := d, opc := c, start := 0, stop := 99 }, startClk := 0, refusal := ref }
/-- The descriptor bound to message 5 (BIND). -/
def wBind (c : Nat) : Bytes := wBDesc c 1
def wRunS (k : Nat) (r : BurRun) : State := { (wRun r).modLane 3 (fun l => { l with msgs := [(5, {})], tmem := memWrite [] 0x1000 (wAux r.op.opc) }) with str := { wKeyStr with slots := (2, { gen := 1, held := true, material := Bytes.zeros 32 }) :: wKeyStr.slots }, laneClk := k }
def wRst (r : BurRun) : State := (wRunS 10000000 r).modLane 3 fun l => { l with st := 4 }
/-- A stencil of two sides: one field of four digits, then the end. -/
def wStencil : Bytes := Bytes.ofNatBE 120 0x4b53544e0100030078000000010000006000000068000000680000006800000002000000000000000000000001000000000000000000000000000000000000000000000000000000000000000000000000000000000000000000000000000000110004000400000004000011000200010000000000000027
def wFour : Bytes := [0x31, 0x32, 0x33, 0x34]
/-- A descriptor over tile 2, of message 5, from side A to side B of stencil 3; a record at tile 80. -/
def wSDesc (op out : Nat) : Bytes := Bytes.ofNatLE 4 (op + 1 * 16 + 2 * 64 + 3 * 256 + 5 * 2 ^ 16) ++ Bytes.ofNatLE 4 2 ++ Bytes.ofNatLE 4 noVal ++ Bytes.zeros 4 ++ Bytes.ofNatLE 4 out ++ Bytes.ofNatLE 4 0x10005000 ++ Bytes.zeros 8
def wSOp (op out : Nat) : StnOp := { thr := 1, tag := 6, desc := wSDesc op out, start := 0, stop := 99, outMax := 9 }
/-- Lane 3 holds message 5 whose bytes are sealed in tile 2, the stencil and a free output tile 8; the given engine and contexts. -/
def wSt (g : StnEng) (clk : Nat) : State :=
  { wThr { stn := g, tags := [{ id := 6, thr := 1, kind := .stn }], stencils := [(3, wStencil)], msgs := [(5, {})], tmem := memWrite [] 512 wFour
           side := [(2, BitVec.ofNat 64 (mkSide true true endTile 4 (Crypto.crc32c wFour).toNat)), (8, BitVec.ofNat 64 (mkSide false true endTile 0 0))] } [] with str := wStr, laneClk := clk }
def wStWait (g : StnEng) (clk : Nat) : State := (wSt g clk).modThr 3 1 fun t => { t with run := .waitTag 5 6 }
def wCtx : StnCtx := { h := 5, desc := wSDesc 1 8, out := wFour, cuts := [4], written := 0, chain := [], code := 0, kind := 0, bounded := true, outMax := 9, canon := false }
def wStQ (op : Nat) (cs : List StnCtx) : State := wSt { q := [wSOp op 8], ctxs := cs } 0
def wStRun (op : Nat) (ref : Option Code) (clk : Nat) : State := wStWait { run := some { op := wSOp op 8, startClk := 0, refusal := ref, bin := wStencil } } clk
/-- Message 5 as minted of the bytes of tile 2. -/
def wMsgOf (s : State) : Msg := { first := 2, hm := { origin := originTag ((s.hmKey {}).getD []) wFour {}, chain := originTag ((s.hmKey {}).getD []) wFour {} } }
def wStOk (s : State) : State := s.modLane 3 fun l => { l with msgs := [(5, wMsgOf s)] }
def wBreak (a : Nat) : Hart := { run := true, pc := 0x80, ilen := 4, csr := [(0x300, 0xA00000008), (0x27A1, BitVec.ofNat 64 (6 * 2 ^ 60 + 0x44 + a * 2 ^ 12)), (0x27A2, 0x80)] }
def wVirt : Hart := { wH [] with priv := 1, virt := true }
def wAccBad : State := wHart [(6, 0xFFFFFFFF000)] []
/-- Hart 7 waits for the first DRAM line. -/
def wFill : State := { (wHart [(6, BitVec.ofNat 64 dramBase)] [9, 8, 7, 6]).modHart 7 (fun x => { x with wait := .line dramBase }) with mem := { fills := [{ hart := 7, line := wL0, own := false, acc := some (wLd .load) }] } }
/-- Hart 7 waits for the writeback of the line that its cache-block operation sent. -/
def wCboWait : State := { (wHart [] []).modHart 7 (fun x => { x with wait := .cbo 1 wL0 }) with mem := { cbo := [(7, wL0)] } }
/-- No error, one device's error, errors of two devices, another line's cells. -/
def wClean : DramErr := { flips := [], cells := none }
def wOneDev : DramErr := { flips := [7], cells := none }
def wTwoDev : DramErr := { flips := [7, 0, 0, 0, 9], cells := none }
/-- The scrubber of channel 2 is enabled with repair, its time has come. -/
def wScrub (d : Dmc) : State := { wDmc d with regs := [(dmcBase 2 + 0x1100, 3)], laneClk := 10000 }
def wLater (s : State) : State := { s with laneClk := 200000 }
def wCommitted : Rec := { wRec 7 (Bytes.zeros 64) with committed := true }
def wDrain (r : Ring) (tw : Twin) : State := { wJrn 1 r tw with regs := [(ringReg 3 0x20, 9), (ringReg 3 0x18, BitVec.ofNat 32 dramBase), (ringReg 3 0x1C, BitVec.ofNat 32 (dramBase / 2 ^ 32))], dramTop := dramBase + 2 ^ 20 }
def wSealed : Ring := { wRing with recs := [wCommitted, {wRec 8 wSeal with epoch := 1, committed := true}], drainEpochs := [0] }
def wBeatF (t : Nat) : LinkFrame := wFrame 3 31 0 (Bytes.zeros 8 ++ Bytes.ofNatLE 8 t ++ Bytes.zeros 16)
def wRecF (b : Bytes) : LinkFrame := wFrame 1 3 0 b
def wSess6 : Bytes := (Bytes.zeros 2 ++ [1]) ++ Bytes.zeros 60
/-- A transferred message whose one link checks. -/
def wXHm : Hallmark := { origin := 17, lane := 3, step := 1, chain := linkTag wKey 17 (outDigest wKey false [1, 2]) (routeEng 3 0) 1 }
def wXIn : XferIn := { src := 12, mseq := 4, hallmark := wXHm.bytes, route := 0, prev := 17, body := [1, 2] }
def wF1 : State := wLane2 (wFab { wTwin with xfersIn := [wIn] })
def wSmall : State := wFab { wTwin with dom := some { wDom with witnessArea := 1 } }
def wF2 : State := { wJrn 2 { wRing with recs := [wRec 7 (Bytes.zeros 64)] } wTwin with str := wF1.str }
def wF3 (r : RhaxReq) : State := let s := wFab { wTwin with takeover := .fetching, reqs := [r] }; { s with laneClk := s.laneClk + 40000 }
def wF4 : State := wFab { wTwin with wLeases := [{ home := 12, other := some 13 }], wDrops := [(13, 1)] }
/-- Lane 3 transfers message 5, whose last output is tile 2. -/
def wF5 (ty : Nat) : State := (wF3 { wReq ty 9 with ref := 3 * 4096 + 5 }).setLane 3 { st := 2, msgs := [(5, { trace := wTrace })], side := wTile }
def wF6 : State := wLane2 (wFab { wTwin with xfersIn := [wXIn] })
def wF7 : State := wFab { wTwin with pair := 4 }
def wF8 (k : Nat) : State := wF3 { wReq 0x20 5 with ref := 3 * 4096 + 5, tries := k }
def wF9 : State := { wF1 with str := { rootGen := 1, slots := [(4, { gen := 1, held := true }), (6, { gen := 1, held := true, material := Bytes.zeros 32 })] } }
def wMbxTime : State := { wMbx 5 { st := 3, sender := 3, limit := 1 } with laneClk := 1600 }
def wAgents : List Agent := [4,3,17]
def wCelState : State := { (wMbx 5 { st := 2, sender := 3 }) with cel := { (wMbx 5 { st := 2, sender := 3 }).cel with locks := [(5, 3), (7, 272)], frames := [{ prio := 2, pc := 8, regs := [], user := false, mstatus := 0 }] } }
def wGar1 : State := { gar := {queue := [{src:=5,event:=7}], ring := [(3,[1])]}}
def wGar2 : State := {gar := {freezing := some 0, queue := [{src:=5}]}}
def wGar3 : State := {gar := {frozen := true, slot := 2}}
/-- Three bytes to compress at 0x1000 beyond the DRAM base. -/
def wArkRun (op : Nat) (n : Nat) : ArkRun := { wArkR with op := op, inLen := n, outMax := 4096 }
/-- DEFLATE data with the fixed wCodes. -/
def wFixed (i : Bytes) : Bytes := bitsToBytes ([true, true, false] ++ lzBits fixedLitLens (List.replicate 30 5) (lzFrom i i.length 0))
def wBlk (f : Bool) : Bytes := let i : Bytes := [7, 8, 9]; arkBlock f false true 0 i (if f then i else wFixed i)
/-- The compressor runs over the given bytes. -/
def wArkOn (op : Nat) (b : Bytes) : State :=
  let s := wArk { cur := some (wArkRun op b.length) } op
  { s with dram := memWrite s.dram (dramBase + 4096) b }
def wPw (p : Pwr) (clk : Nat) : State := { wPwr p with laneClk := clk }
/-- A bundle of one firmware component, version 9. -/
def wBundle : Bytes := Bytes.zeros 6 ++ [1, 0] ++ Bytes.zeros 8 ++ [1, 0, 0, 0] ++ Bytes.ofNatLE 4 80 ++ Bytes.ofNatLE 4 8 ++ Bytes.ofNatLE 4 9 ++ Bytes.zeros 56
def wBoot1 : State := {cel := {st := 1}}
def wBoot2 : State := {cel := {st := 1, stage := some (wBundle, true)}}
def wBoot3 : State := {cel := {st := 2}, pwr := {boot := 2}}
def wBoot4 (k : Nat) : State := {cel := {st := 2, platCur := (1, [5,6]), platPrev := (1, [7])}, pwr := {boot := k, dramReady := true}, dramTop := dramBase + 2^30, laneClk := 48000000000 }
def wP2 : State := {wPwr {wUp with ceil := [(3,2900)], sd := 1} with lanes := []}
def wP3 : State := {wPwr {wUp with ceil := [(3,2900)], sd := 0} with lanes := []}
def wBadFcs : EthFrame := { wEth .other with fcsOk := false }
def wSync (o : Int) : PtpMsg := { isSync := true, offset := o, gm := 3, domain := 4 }
def wN2 : State := {wNet {st := 3} {ptp := 2, move := some (wSid, 4)} with lanes := [(3, {st := 2, port := some {h := 5, first := 0, ok := true}}), (4,{st:=2})], laneClk := 16000000}
def wN3 : State := {wNet {st := 3} {} with firewall := wFire, lanes := [(3, {st := 2}), (4,{st:=2})]}
def wN4 : State := {wNet {st := 3} {} with lanes := []}
def wRecl : Session := { st := 6, remote := [1, 2], listener := 4 }
def wCh (ok : Bool) : ClientHello := { tls13 := ok, suite := 1, group := 1, sigOk := true, earlyData := false, ticket := none, transcript := [], peerCv := none, chain := [] }
def wIdS : SessId := ⟨wSid, by decide⟩
/-- The session at lane 3's entry 9, long after its timers began. -/
def wSess (x : Session) : State := { wNet x {} with laneClk := 1600000 * 600000 }
def wEst : Session := { st := 3, flags := 1, framing := 5, sndUsed := 5, rx := [7], ready := [[1,2,3]], listener := 4 }
def wDone (c : Code) (x : Session) : State := { wSess x with rsvDone := [(.net, 1, c, [])] }
def wRelease0 : State := { wRelease with net := { wRelease.net with sessions := [] } }
def wAts : PcieReq := { wPReq false 0x1000 with aty := 1 }
/-- A root complex whose port 0 is up; the IOMMU's directory pointer and the context of device 5 as given. -/
def wRoot (ddtp tc fsc : Nat) : State :=
  let s := wPcie { links := (0, { up := true, speed := 5, width := 1 }) :: wPUp }
  { s with pwr := { wUp with straps := 2 }, regs := [(iommuBase + 0x10, BitVec.ofNat 32 ddtp), (iommuBase + 0x14, BitVec.ofNat 32 (ddtp / 2 ^ 32))]
           dram := memWrite (memWrite s.dram (dramBase + 0x2140) (Bytes.ofNatLE 8 tc)) (dramBase + 0x2158) (Bytes.ofNatLE 8 fsc) }
def wDdtp : Nat := 2 + (dramBase + 0x2000) / 4096 * 1024
/-- Card mode, with the functions given. -/
def wCard (f : SMap PFn) (p : Pcie) : State :=
  let s := wPcie { p with links := wPUp, fns := f }
  { s with pwr := { wUp with straps := 1 }, dramTop := dramBase + 2 ^ 27 }
def wMse : PFn := { mse := true }
def wNoDesc : State := let s := wCard [(0, wMse)] {}; { s with cel := { st := 3 } }
/-- Hart 7 waits for the read of tag 2. -/
def wHartTag (q : Bool) : State :=
  let s := wRoot 1 0 0
  { s with pcie := { s.pcie with tags := [(2, some { user := .hart 7 0, quar := q })] }, harts := [(7, { wH [] with wait := .pcie 5 4 false })], laneClk := 6400000000 }
def wHd9 : HDesc := { toHost := false, ro := false, translated := false, irq := true, len := 8, host := 0x1000, loc := dramBase + 0x100, compl := dramBase + 0x200 }
/-- Channel 2 has read 8 bytes of the host under tag 2. -/
def wChanTag : State :=
  let s := wCard [(0, wMse)] { hdma := [(2, { cur := some wHd9 })], tags := [(2, some { user := .chan 2, len := 8 })] }
  { s with laneClk := 80000 }
/-- A descriptor: flags, 64 bytes between host address 0x1000 and the DRAM, its record at 0x200 beyond the base. -/
def wHDesc9 (f : Nat) : Bytes := Bytes.ofNatLE 4 f ++ Bytes.ofNatLE 4 64 ++ Bytes.ofNatLE 8 0x1000 ++ Bytes.ofNatLE 8 (dramBase + 0x100) ++ Bytes.ofNatLE 8 (dramBase + 0x200)
def wFnOn : PFn := { bme := true, msixEn := true, vecs := [(67, { masked := false, addr := 0x5000, data := 9 }), (3, { masked := true, pend := true, addr := 0x6000 })] }
/-- Card mode, the host link up, channel 2 enabled with the descriptor in its ring. -/
def wHd (p : Pcie) (f : PFn) (d : Bytes) : State := { wPcie { p with links := wPUp, fns := [(0, f), (1, {})] } with
  dram := memWrite [] (dramBase + 64) d, pwr := { wUp with straps := 1 }
  regs := [(hdmaReg 2 0, BitVec.ofNat 32 (dramBase + 64)), (hdmaReg 2 4, BitVec.ofNat 32 (dramBase / 2^32)), (hdmaReg 2 8, 0x80000000), (hdmaReg 2 0xC, 0), (hdmaReg 2 0x10, 1)] }
def wCur (moved : Nat) (w : Bool) : Pcie := { hdma := [(2, { cur := some (HDesc.ofBytes (wHDesc9 8)), moved := moved, waitAts := w })], inval := [1], atc := [(1,2,3)] }
def wFlr : State := let s := wHd (wCur 64 false) { wFnOn with flr := true } []; { s with laneClk := 144000000 }
def wAtsOn : PFn := { wFnOn with ats := true }
def wHi := dramBase / 2^32
def wPol : Policy := {lanes := 0xFFFF, units := 1, flags := 4, derived := [], limit := 0, warn := 0, validFrom := 0, validUntil := 0}
def wKi : KeyImportChange := {slot := 20, cls := 0x02, policy := 1, replace := false, wrapSlot := 21, blockClassOk := true, wrapped := [1,2,3], kcv := keyKcv 2 [1,2,3]}
def wKj : KeyImportChange := {wKi with cls := 0x11, kcv := [], wrapped := []}
def wDomOk : DomainCfg := { wDom with portModes := [1,1,2,1,1,1,1,1], leaseLen := 3, ticketLife := 3600 }
def wOffs : List Officer := [⟨0, .security, 0, []⟩, ⟨1, .security, 0, []⟩, ⟨2, .operations, 0, []⟩, ⟨3, .operations, 0, []⟩, ⟨4, .audit, 0, []⟩]
def wWins : List PcieWindow := [{port := 1, ridLo := 0, ridHi := 3, base := 0, limit := 4096, r := true, w := true}]
def wStrS : Str := { slots := [(8, {gen := 1, cls := 0x22, held := true}), (21, {gen := 1, cls := 0x21, held := true}), (22, {gen := 1, cls := 0x11, held := true, policy := 1})], policies := [(1, some wPol)] }
def wTk : Ticket := { num := 7, nonce := 0, digest := [], cmd := 0x30, kind := 2, item := .windows [], target := 0, opened := 0 }
def wSetOf (k : Nat) : State := wSk 0x30 6 [(1,k),(3,wHi)] {wLn {st:=2} wRing with str := wStrS}
def wImgHead : Bytes := Bytes.ofNatLE 4 0x5954534B ++ Bytes.ofNatLE 2 1 ++ Bytes.zeros 2 ++ Bytes.ofNatLE 4 4 ++ Bytes.zeros 20 ++ List.replicate 256 0xFF#8 ++ Bytes.zeros 32
def wLaneImage : Bytes := wImgHead ++ Bytes.ofNatBE 48 0xD136224EC2A8A55763463F99A6E05FAB4B17FA92CD834E7DD694F51A5DB5242B756C7CF3D2F323A059F3E1A750E55771 ++ Bytes.zeros 4
def wStnHead : Bytes := Bytes.ofNatLE 4 0x4E54534B ++ Bytes.ofNatLE 2 1 ++ Bytes.zeros 2 ++ Bytes.ofNatLE 4 96 ++ Bytes.zeros 36
def wStnImg : Bytes := wStnHead ++ Bytes.ofNatBE 48 0x9DA0A04EDDB066B08FCA2FCCA307949073B5DA736AE6840E5836EDF02E7D67A986AF07B1CEE852C48912B495717A9D05
def wImg (i : Nat) : Bytes := Bytes.zeros 8 ++ Bytes.ofNatLE 4 4 ++ Bytes.zeros 8 ++ Bytes.ofNatLE 4 0x40 ++ Bytes.zeros 264 ++ Bytes.ofNatLE 8 dramBase ++ Bytes.ofNatLE 4 4096 ++ Bytes.ofNatLE 4 3 ++ Bytes.zeros 64 ++ Bytes.ofNatLE 4 i
/-- Thread 1 of lane 3 at one instruction of its code, with a DRAM window of 4,096 bytes at the base of the DRAM. -/
def wI (i : Nat) (x : List (Nat × W32)) : State := { (wThr { image0 := wImg i } x).modThr 3 1 fun t => { t with pc := 0 } with dramTop := dramBase + 2 ^ 20 }
def wIns (f7 rs2 rs1 f3 rd op : Nat) : Nat := f7 * 2 ^ 25 + rs2 * 2 ^ 20 + rs1 * 2 ^ 15 + f3 * 2 ^ 12 + rd * 2 ^ 7 + op
def wWaitLoad (a : Nat) : State := (wI 0x03 []).modThr 3 1 fun t => { t with run := .waitLoad 5 a 4 false [1,2,3,4] none }
def wWord (w : Nat) : Nat × Nat := (w, 4)

/-! ### The spec's own examples -/

/-- R11's example: lane 5's control block and tile window, MBX[12], DMC[7]. -/
theorem test_block_bases : laneBase 5 = 0x15000000 ∧ dmcBase 7 = 0x05C00000 ∧ State.reset.region 0x15000000 = .regs
    ∧ tileSpot 0x22800000 = (5, 0) ∧ State.reset.region 0x22800000 = .tile ∧ State.reset.region 0x0100C000 = .regs := by decide +kernel
/-- R134's free sideband word, and the words of tiles 0x150 and 0x151 in the reference message (chapter 7). -/
theorem test_sideband_words : sideNext freeSide = 0x7FFF ∧ sideAlloc freeSide = false ∧ sideFill freeSide = 0
    ∧ mkSide true true 0x151 256 0 = 0x0702A30000000000 ∧ mkSide true false endTile 224 0 = 0x05FFFEE000000000 := by decide +kernel
/-- R135's check value over "123456789". -/
theorem test_crc32c : (Crypto.crc32c (Bytes.ofNatLE 9 0x393837363534333231)).toNat = 0xE3069283 := by decide +kernel
/-- R55's example and Table BUR-1: code 0x05 takes 36,271 lane cycles and costs 2,267 units. -/
theorem test_verify_cost : opCycles 0x05 = some 36271 ∧ opUnits 0x05 = 2267 := by decide +kernel
/-- R115's example: a retail MAC of at most 1,024 bytes takes 4,416 lane cycles and costs 276 units. -/
theorem test_mac_cost : opCycles 0x78 = some 4416 ∧ opUnits 0x78 = 276 := by decide +kernel
/-- The home slice of PA 0x100_2A4C_3F40 is bay 125 (chapter 12). -/
theorem test_home_slice : sliceOf (0x1002A4C3F40 / 64) = 125 := by decide +kernel
/-- The interleave of the same address over sixteen channels, in both granules (chapter 13), and its inverse. -/
theorem test_interleave : Mem.place { set := List.range 16, cap := 2 ^ 37 } (0x1002A4C3F40 / 64) = (15, 0x2A4C340 / 64)
    ∧ Mem.place { set := List.range 16, cap := 2 ^ 37, gran := true } (0x1002A4C3F40 / 64) = (3, 0x2A4CF40 / 64)
    ∧ Mem.lineAt { set := List.range 16, cap := 2 ^ 37 } 15 (0x2A4C340 / 64) = 0x1002A4C3F40 / 64 := by decide +kernel
/-- R341's example: hart 77 and the host read LOCK[7] together; hart 77 reads 0, the host 0x8000_004D. -/
theorem test_lock_race : (match execLockRead [272, 77] 7 State.reset with
    | .next u => decide (SMap.get 0 77 u.readRes = 0 ∧ SMap.get 0 272 u.readRes = 0x8000004D ∧ u.lockHolder 7 = some 77)
    | _ => false) = true := by decide +kernel
/-- R341's example: the hart loses the lock in a reset; it is free and LOCK_ABANDONED[0] bit 7 is set. -/
theorem test_lock_abandoned :
    ((({ cel := { locks := [(7, 77)] } } : State).abandonLock 7).lockHolder 7 = none)
      ∧ bit ((({ cel := { locks := [(7, 77)] } } : State).abandonLock 7).reg 0x02000010) 7 = true := by decide +kernel

/-- R297: the codeword of line 5 decodes to its data, one wrong device is corrected from its check symbols, and two are not. -/
def wBytes5 : Bytes := [5, 6] ++ Bytes.zeros 62
def wRead5 (flips : List Nat) : List Nat := gfAdd (codeword wBytes5 5 false) (flips ++ List.replicate (40 - flips.length) 0)
theorem test_line_clean : decodeLine (wRead5 []) 5 = .clean wBytes5 := by decide +kernel
theorem test_line_corrected : decodeLine (wRead5 [7]) 5 = .corrected 0 1 wBytes5 := by decide +kernel
theorem test_line_uncorrectable : decodeLine (wRead5 [7, 0, 0, 0, 9]) 5 = .uncorrectable := by decide +kernel
/-- R8: a W1C bit that hardware sets in the cycle of the clearing write stays set; R10: in a plain field the software write wins. -/
theorem test_same_cycle_update :
    ((({} : State).setReg 0x13000008 3).hwUpdate 0x13000008 { sets := 1, mask := 0, val := 0 } true).reg 0x13000008 = 3 := by decide +kernel

/-! ### Ill-formed commands (one for each kind of check) -/

theorem test_wf_address : Instr.wf (.registerWrite 3 (2 ^ 52) 4 0 ⟨0, 0, 0⟩) = false ∧ Instr.wf (.registerWrite 3 0 3 0 ⟨0, 0, 0⟩) = false
    ∧ Instr.wf (.registerReadClear 3 (2 ^ 52) 0) = false ∧ Instr.wf (.lowWordRead 3 (2 ^ 52)) = false := by decide
theorem test_wf_agent : Instr.wf (.admitEn 508 3 true) = false ∧ Instr.wf (.lockRead [508] 7) = false
    ∧ Instr.wf (.lockRead [] 7) = false := by decide
theorem test_wf_line : Instr.wf (.writebackAck 3 (2 ^ 46)) = false
    ∧ Instr.wf (.remapInstall 2 0 { flips := [65536], cells := none }) = false
    ∧ Instr.wf (.remapInstall 2 0 { flips := [], cells := some (2 ^ 46) }) = false := by decide
theorem test_wf_frame : Instr.wf (.recordFrameReceive ⟨Bytes.zeros 15⟩) = false ∧ Instr.wf (.recordFrameReceive ⟨Bytes.zeros 16⟩) = true := by
  decide +kernel
theorem test_wf_record : Instr.wf (.wcopy wHdr 3 (Bytes.zeros 65)) = false ∧ Instr.wf (.wcopy wHdr 3 (Bytes.zeros 64)) = true := by
  decide +kernel
theorem test_wf_header : Instr.wf (.xferAccept { wHdr with src := 2 ^ 18 }) = false ∧ Instr.wf (.xferAccept wHdr) = true := by
  decide +kernel
theorem test_wf_access : MemAccess.wf { wLd .load with size := 3 } = false ∧ MemAccess.wf (wLd .load) = true := by decide +kernel
theorem test_wf_pcie : PcieReq.wf { wPReq false 0 with rid := 65536 } = false ∧ PcieReq.wf { wPReq false 0 with aty := 3 } = false
    ∧ Instr.wf (.completionTimeout 20480) = false := by
  decide +kernel
theorem test_wf_officers : Instr.wf (.officers 5 [{ slot := 32, role := .audit, alg := 0, pub := [] }]) = false := by
  decide

/-! ### Witnesses, one theorem per statement -/

theorem decodeAt_of {s : State} {c k : Nat} {e : DramErr} {data : Bytes} {p : Bool}
    (h : memRead s.dram (s.mem.lineAt c (e.cells.getD k) * 64) 64 = data)
    (hp : (SMap.find (s.mem.lineAt c (e.cells.getD k)) s.poison).isSome = p) :
    s.decodeAt c k e = decodeLine (gfAdd (codeword data (e.cells.getD k) p) (e.flips ++ List.replicate (40 - e.flips.length) 0)) k := by
  unfold State.decodeAt
  simp only [h, hp]
theorem unpaused_of {s : State} (h : s.net.txHeld = []) (k : s.net.pauseEnd = []) : s.unpaused :=
  ⟨h, fun q => by rw [k]; exact Nat.zero_le _⟩
theorem wit_IdleStepIsOneLaneCycle :
    wNone.pending = [] :=
  by decide +kernel

theorem wit_RegisterWriteCompletes :
    (838860816 % 4 = 0 ∧ wNone.region 838860816 = Region.regs ∧ wNone.regMay 3 838860816 true = true) ∧
    (∃ r, regRow 838860816 = some r ∧ 838860816 % 4 = 0 ∧ wNone.region 838860816 = Region.regs ∧ wNone.regMay 3 838860816 true = true ∧
        plainReg 838860816 = true ∧ r.name ≠ "IRQ_STATUS") ∧
    (838864880 % 4 = 0 ∧ wNone.region 838864880 = Region.regs ∧ wNone.regMay 3 838864880 true = true ∧ plainReg 838864880 = true ∧
        regRow 838864880 = none) :=
  ⟨by decide +kernel,
    ⟨_, rfl, by decide +kernel⟩,
    by decide +kernel⟩

theorem wit_BadRegisterAccessIsRefused :
    ((wNone.region 838860808 = Region.regs ∧ (2 ≠ 4 ∨ 838860808 % 4 ≠ 0 ∨ wNone.regMay 3 838860808 true = false) ∧ 3 < 256) ∧
      (wNone.region 838860808 = Region.regs ∧ (2 ≠ 4 ∨ 838860808 % 4 ≠ 0 ∨ wNone.regMay 272 838860808 true = false) ∧ 256 ≤ 272) ∧
      (wNone.region 1610612736 ≠ Region.regs ∧ 3 < 256) ∧
      (wNone.region 1610612736 ≠ Region.regs ∧ 256 ≤ 272)) ∧
    (∃ r old, regRow 838860808 = some r ∧ BitVec.ofNat 32 (wNone.reg 838860808) = old) :=
  ⟨by decide +kernel,
    ⟨_, _, rfl, rfl⟩⟩

def wRegisterReads_1 : State := {wLane {} with latch := [(3,0x13000084,7)]}
theorem wit_RegisterReadsComplete :
    ((wIdle.region 318767152 = Region.regs ∧ 318767152 % 4 = 0 ∧ 33554432 ≤ 318767152 ∧ wIdle.regMay 3 318767152 false = true ∧
        List.find? (fun (l : ℕ × ℕ × W32) => decide (l.1 = 3) && decide (l.2.1 = 318767152)) wIdle.latch = none) ∧
      (wIdle.region 318767232 = Region.regs ∧ 318767232 % 4 = 0 ∧ 33554432 ≤ 318767232 ∧ wIdle.regMay 3 318767232 false = true ∧
          List.find? (fun (l : ℕ × ℕ × W32) => decide (l.1 = 3) && decide (l.2.1 = 318767232)) wIdle.latch = none ∧
          isLow 318767232 = true)) ∧
    (∃ v, List.find? (fun (l : ℕ × ℕ × W32) => decide (l.1 = 3) && decide (l.2.1 = 318767236)) wRegisterReads_1.latch = some (3,
        318767236, v) ∧ wRegisterReads_1.region 318767236 = Region.regs ∧ 318767236 % 4 = 0 ∧ 33554432 ≤ 318767236 ∧
        wRegisterReads_1.regMay 3 318767236 false = true) :=
  ⟨by decide +kernel,
    ⟨_, rfl, by decide +kernel⟩⟩

def xState_30 : State := wLane {st:=2, hist0:=[(1,2)], lpmu:=[(1,1)], threads := [(1,{run:=.run})]}
def xState_38 : State := wLane { st := 4 }
theorem wit_LaneControlWritesComplete :
    ((xState_30.right 3 3 3 = true) ∧
      (xState_30.right 3 3 2 = true) ∧
      (xState_30.right 3 3 2 = true ∧
          (BitVec.toNat (9 : W32) + 2 ^ 32 - xState_30.lreg 3 (8720 + 64 * 2)) % 2 ^ 32 ≤ shelfEntries ((xState_30.lane 3).cfg (8712 + 64 * 2))) ∧
      (xState_30.right 3 3 2 = true ∧
          (BitVec.toNat (70000 : W32) + 2 ^ 32 - xState_30.lreg 3 (8720 + 64 * 2)) % 2 ^ 32 > shelfEntries ((xState_30.lane 3).cfg (8712 + 64 * 2))) ∧
      (xState_30.right 3 3 3 = true ∧ ((xState_30.lane 3).st = 0 ∨ (xState_30.lane 3).st = 2 ∨ (xState_30.lane 3).st = 3))) ∧
    (xState_38.right 3 3 3 = true ∧ (xState_38.lane 3).st ≠ 0 ∧ (xState_38.lane 3).st ≠ 2 ∧ (xState_38.lane 3).st ≠ 3) :=
  ⟨by decide +kernel,
    by decide +kernel⟩

theorem wit_LaneControlWritesRefused :
    (wNone.right 3 4 3 = false) ∧
      (wNone.right 3 4 2 = false) ∧
      (3 < 256) ∧
      (256 ≤ 273) :=
  by decide +kernel

def xState_31 : State := {wLane {} with btm := {ptpLocked := true}}
def xState_32 : State := {btm := {ptpLocked := true, running := true}, laneClk := 77}
def xState_33 : State := wCtl 1 { image0 := wTrapImage 64 }
def xState_34 : State := wCtl 4 { st := 2 }
def xState_35 : State := wCtl 0 { st := 3 }
def xState_36 : State := wCtl 4 { st := 3 }
def xState_37 : State := wLane { st := 2, applyPending := true }
theorem wit_BeatOperationsComplete :
    ((xState_31.btm.running = false ∧ xState_31.btm.ptpLocked = true) ∧
      (xState_32.btm.running = true ∧ (∀ n < 16, (xState_32.lane n).st = 0)) ∧
      (3 < 16 ∧ (xState_30.lane 3).st ≠ 0) ∧
      (xState_30.btm.running = true) ∧
      (xState_33.btm.running = true ∧ 3 < 16 ∧ xState_33.twin.handover = none ∧ xState_33.twin.takeover = TakeStage.none ∧
          (xState_33.lane 3).st = 0 ∧ (xState_33.lane 3).loaded = true ∧ bit (xState_33.lreg 3 0) 0 = true ∧
          bit (xState_33.lreg 3 0) 2 = false ∧ xState_33.str.bootstrap = false)) ∧
    ((xState_34.btm.running = true ∧ 3 < 16 ∧ xState_34.twin.handover = none ∧ xState_34.twin.takeover = TakeStage.none ∧
        (xState_34.lane 3).st = 2 ∧ bit (xState_34.lreg 3 0) 2 = true) ∧
      (xState_35.btm.running = true ∧ 3 < 16 ∧ xState_35.twin.handover = none ∧ xState_35.twin.takeover = TakeStage.none ∧
          (xState_35.lane 3).st = 3 ∧ bit (xState_35.lreg 3 0) 2 = false) ∧
      (xState_36.btm.running = true ∧ 3 < 16 ∧ xState_36.twin.handover = none ∧ xState_36.twin.takeover = TakeStage.none ∧
          (xState_36.lane 3).st = 3 ∧ bit (xState_36.lreg 3 0) 2 = true ∧ bit (xState_36.lreg 3 0) 0 = false ∧
          (xState_36.lane 3).inflight = 0) ∧
      (xState_37.btm.running = true ∧ 3 < 16 ∧ xState_37.twin.handover = none ∧ xState_37.twin.takeover = TakeStage.none ∧
          (xState_37.lane 3).applyPending = true ∧ xState_37.applyCode 3 = 0) ∧
      ((10 : ℤ) ≤ (15 : ℤ))) ∧
    (((-20 : ℤ) ≤ (-10 : ℤ)) ∧
      ((0 : ℤ) ≤ (0 : ℤ)) ∧
      (xState_30.btm.running = true ∧ xState_30.btm.beat % 100 = 0) ∧
      (wEpoch.btm.running = true ∧ wEpoch.btm.beat % 100 = 0 ∧ 3 < 17 ∧ wEpoch.sealPending = true ∧ wEpoch.twin.witProposed = none ∧
          (wEpoch.ring 3).hold = 0 ∧ (wEpoch.ring 3).late = [] ∧ (wEpoch.ring 3).fill + 128 ≤ ringCap 3)) :=
  ⟨by decide +kernel,
    by decide +kernel,
    by decide +kernel⟩

theorem wit_LaneResetClearCompletes :
    (wReset.lane 3).st = 4 ∧ (wReset.lane 3).reset = some wAgentRef ∧ wAgentRef.cleared = false ∧ (wReset.lane 3).stn.run = none ∧
        (∀ p ∈ (wReset.lane 3).eng, p.2.run = none) :=
  by decide +kernel

def wLaneEvents_1 : State := wShed 0x00884100
def wLaneEvents_2 : State := wShed 0x00004100
def xReserveReq_10 : ReserveReq := {unit := .net, opc := 4, key := 0, input := [], aux := [], ref := 0}
def xReserveReq_20 : ReserveReq := {unit := .net, opc := 4, key := 0, input := [], aux := [], ref := 0}
theorem wit_LaneEventsComplete :
    (((wEventsS.lane 3).st = 2 ∨ (wEventsS.lane 3).st = 3) ∧ bit ((wEventsS.lane 3).cfg (shelfOff (8 + 0) + 8)) 0 = true ∧
        wEventsS.lreg 3 (shelfOff (8 + 0) + 16) ≠ wEventsS.lreg 3 (shelfOff (8 + 0) + 12)) ∧
    (∃ h m,
        (wDecide.lane 3).held (Hallmark.ofBytes (wDecide.dramRead ((wDecide.lane 3).cfg (shelfOff (8 + 0)) + (wDecide.lane 3).cfg (shelfOff (8 + 0) + 4) * 2 ^ 32 + wDecide.lreg 3 (shelfOff (8 + 0) + 16) % shelfEntries ((wDecide.lane 3).cfg (shelfOff (8 + 0) + 8)) * shelfSlot ((wDecide.lane 3).cfg (shelfOff (8 + 0) + 8))) (shelfSlot ((wDecide.lane 3).cfg (shelfOff (8 + 0) + 8))))) = some (h,
        m) ∧ ((wDecide.lane 3).st = 2 ∨ (wDecide.lane 3).st = 3) ∧ bit ((wDecide.lane 3).cfg (shelfOff (8 + 0) + 8)) 0 = true ∧
        wDecide.lreg 3 (shelfOff (8 + 0) + 16) ≠ wDecide.lreg 3 (shelfOff (8 + 0) + 12) ∧ wDecide.shelfGone 3 (8 + 0) = false ∧
        wDecide.poisoned ((wDecide.lane 3).cfg (shelfOff (8 + 0)) + (wDecide.lane 3).cfg (shelfOff (8 + 0) + 4) * 2 ^ 32 + wDecide.lreg 3 (shelfOff (8 + 0) + 16) % shelfEntries ((wDecide.lane 3).cfg (shelfOff (8 + 0) + 8)) * shelfSlot ((wDecide.lane 3).cfg (shelfOff (8 + 0) + 8))) (shelfSlot ((wDecide.lane 3).cfg (shelfOff (8 + 0) + 8))) = false ∧
        m.stage = Stage.awaiting ∧
        wDecide.decisionCheck m (wDecide.dramRead ((wDecide.lane 3).cfg (shelfOff (8 + 0)) + (wDecide.lane 3).cfg (shelfOff (8 + 0) + 4) * 2 ^ 32 + wDecide.lreg 3 (shelfOff (8 + 0) + 16) % shelfEntries ((wDecide.lane 3).cfg (shelfOff (8 + 0) + 8)) * shelfSlot ((wDecide.lane 3).cfg (shelfOff (8 + 0) + 8))) (shelfSlot ((wDecide.lane 3).cfg (shelfOff (8 + 0) + 8)))) (shelfSlot ((wDecide.lane 3).cfg (shelfOff (8 + 0) + 8))) = (0 : Code)) ∧
    (∃ m, (wDue.lane 3).msg 5 = some m ∧ m.stage = Stage.awaiting ∧ m.toBeat ≤ wDue.btm.beat + 1 ∧ wDue.decisionWaits 3 m = false) ∧
    (∃ c m, List.find? (fun (c : Cand) => decide (c.h = 7)) (wLaneEvents_1.lane 3).cands = some c ∧
        (wLaneEvents_1.lane 3).msg 7 = some m ∧ c.shed = false ∧
        c.born + bits ((wLaneEvents_1.lane 3).cls c.cls 0) 18 11 ≤ wLaneEvents_1.btm.beat ∧
        bits ((wLaneEvents_1.lane 3).cls c.cls 0) 23 19 ≠ 0 ∧ wLaneEvents_1.btm.cyc ≠ 0) :=
  ⟨by decide +kernel,
    ⟨_, _, rfl, by decide +kernel⟩,
    ⟨_, rfl, by decide +kernel⟩,
    ⟨_, _, rfl, rfl, by decide +kernel⟩⟩
theorem wit_LaneEventsComplete_2 :
    (∃ c m, List.find? (fun (c : Cand) => decide (c.h = 7)) (wLaneEvents_2.lane 3).cands = some c ∧
        (wLaneEvents_2.lane 3).msg 7 = some m ∧ c.shed = false ∧
        c.born + bits ((wLaneEvents_2.lane 3).cls c.cls 0) 18 11 ≤ wLaneEvents_2.btm.beat ∧
        bits ((wLaneEvents_2.lane 3).cls c.cls 0) 23 19 = 0) ∧
    (∃ p, (wEventsS.thr 3 1).phase = some p ∧ p.overdue wEventsS.btm.beat = true) ∧
    ((opUnits xReserveReq_10.opc ≤ 16 * bits ((wEventsS.lane 3).cfg 36) 15 0 ∧ (opCycles xReserveReq_10.opc).isSome = true) ∧
      (xReserveReq_20.unit = ReserveUnit.net ∧ 16 * bits ((wLow.lane 3).cfg 36) 15 0 < opUnits xReserveReq_20.opc)) :=
  ⟨⟨_, _, rfl, rfl, by decide +kernel⟩,
    ⟨_, rfl, by decide +kernel⟩,
    by decide +kernel⟩

def wTile_1 : State := wAt (xTileAlloc 5 6) (wThr {} [(6,2),(7,9)])
def wTile_3 : State := wAt (xTileAlloc 5 6) (wThr {} [(6,0)])
def wTile_4 : State := wAt (xTileFree 6) (wThr {side:=[(2, 0x0100000000000000#64)]} [(6,2),(7,9)])
def wTile_5 : State := wAt (xTileSeal 6 7) (wThr {side:=[(2, 0x0100000000000000#64)]} [(6,2),(7,9)])
def wTile_6 : State := wAt (xTileDigest 5 6) (wThr {side:=[(2, 0x0100000000000000#64)]} [(6,2),(7,9)])
theorem wit_TileOperationsComplete :
    (∃ i l, (wTile_1.lane 3).alloc (BitVec.toNat ((wTile_1.thr 3 1).rd 6)) = some (i, l) ∧
        (wTile_1.lane 3).atOp 1 (xTileAlloc 5 6) = true ∧ 1 ≤ BitVec.toNat ((wTile_1.thr 3 1).rd 6) ∧
        BitVec.toNat ((wTile_1.thr 3 1).rd 6) ≤ 1024) ∧
    (((wTile_3.lane 3).atOp 1 (xTileAlloc 5 6) = true ∧
        (BitVec.toNat ((wTile_3.thr 3 1).rd 6) = 0 ∨ 1024 < BitVec.toNat ((wTile_3.thr 3 1).rd 6))) ∧
      ((wTile_4.lane 3).atOp 1 (xTileFree 6) = true ∧ BitVec.toNat ((wTile_4.thr 3 1).rd 6) < tileCount ∧
          sideAlloc ((wTile_4.lane 3).sideW (BitVec.toNat ((wTile_4.thr 3 1).rd 6))) = true) ∧
      ((wTile_5.lane 3).atOp 1 (xTileSeal 6 7) = true ∧ BitVec.toNat ((wTile_5.thr 3 1).rd 6) < tileCount ∧
          1 ≤ BitVec.toNat ((wTile_5.thr 3 1).rd 7) ∧ BitVec.toNat ((wTile_5.thr 3 1).rd 7) ≤ 256) ∧
      ((wTile_6.lane 3).atOp 1 (xTileDigest 5 6) = true ∧ BitVec.toNat ((wTile_6.thr 3 1).rd 6) < tileCount ∧
          (wTile_6.lane 3).tagsFull 1 = false)) :=
  ⟨⟨_, _, rfl, by decide +kernel⟩,
    by decide +kernel⟩

def wTileDigestEnd_2 : State := wDigest [(2, BitVec.ofNat 64 (mkSide true true endTile 4 0))]
theorem wit_TileDigestEnds :
    (∃ b, (wTileDigestEnd_2.lane 3).badTile [2] = some b ∧ (wTileDigestEnd_2.lane 3).digests = [(0, 2)] ∧
        List.find? (fun (x : Tag) => decide (x.id = 0)) (wTileDigestEnd_2.lane 3).tags = some wTag0 ∧
        (wTileDigestEnd_2.lane 3).chain 2 = some [2]) :=
  ⟨_, rfl, by decide +kernel⟩

def wHallmark_1 : State := wAt (xHmField 5 6 7) (wHm {} [(6,5),(7,3)])
def wHallmark_2 : State := wAt (xHmDerive 5 6 7) (wHm {} [(6,5),(7,4)])
def wHallmark_3 : State := (wAt (xTileRelease 5 6) (wHm {acked := true} [(6,5),(7,4)])).modThr 3 1 fun t => {t with phase := some {wPhase with h := 5}}
theorem wit_HallmarkOperationsComplete :
    (5 ≠ 0 ∧ (wHallmark_1.lane 3).msg (BitVec.toNat ((wHallmark_1.thr 3 1).rd 6)) = some wMsgNew ∧
        (wHallmark_1.lane 3).atOp 1 (xHmField 5 6 7) = true) ∧
    (∃ g i d k, (wHallmark_2.lane 3).digestTag 1 (BitVec.toNat ((wHallmark_2.thr 3 1).rd 7)) = some g ∧ g.digest = some (i, d) ∧
        wHallmark_2.hmKey wMsgNew.hm = some k ∧ 5 ≠ 0 ∧
        (wHallmark_2.lane 3).msg (BitVec.toNat ((wHallmark_2.thr 3 1).rd 6)) = some wMsgNew ∧
        (wHallmark_2.lane 3).atOp 1 (xHmDerive 5 6 7) = true ∧ wMsgNew.claim = none ∧ wMsgNew.trace.length < 15) ∧
    (∃ p, (wHallmark_3.thr 3 1).phase = some p ∧ 5 ≠ 0 ∧
        (wHallmark_3.lane 3).msg (BitVec.toNat ((wHallmark_3.thr 3 1).rd 6)) = some wMsgAcked ∧
        (wHallmark_3.lane 3).atOp 1 (xTileRelease 5 6) = true ∧ BitVec.toNat ((wHallmark_3.thr 3 1).rd 6) < 4096 ∧
        p.h = BitVec.toNat ((wHallmark_3.thr 3 1).rd 6) ∧ wMsgAcked.acked = true ∧ wMsgAcked.released = false) :=
  ⟨by decide +kernel,
    ⟨_, _, _, _, rfl, rfl, rfl, by decide +kernel⟩,
    ⟨_, rfl, by decide +kernel⟩⟩

def wStylusOperationsTrap_1 : State := wAt (xTileFree 6) (wHm {acked := true} [(6,5),(7,4)])
def wStylusOperationsTrap_2 : State := wAt (xTileRelease 5 6) (wHm {acked := true} [(6,6),(7,4)])
def wStylusOperationsTrap_3 : State := wAt (xEngWait 5 6) (wHm {acked := true} [(6,6),(7,4)])
def wStylusOperationsTrap_4 : State := wAt (xEngPoll 5 6) (wHm {acked := true} [(6,6),(7,4)])
theorem wit_StylusOperationsTrap :
    ((wStylusOperationsTrap_1.thr 3 1).mie = true ∧ (wStylusOperationsTrap_1.lane 3).mtvec 1 ≠ 0 ∧
        (wStylusOperationsTrap_1.lane 3).atOp 1 (xTileFree 6) = true ∧
        (tileCount ≤ BitVec.toNat ((wStylusOperationsTrap_1.thr 3 1).rd 6) ∨ sideAlloc ((wStylusOperationsTrap_1.lane 3).sideW (BitVec.toNat ((wStylusOperationsTrap_1.thr 3 1).rd 6))) = false)) ∧
      ((wStylusOperationsTrap_2.thr 3 1).mie = true ∧ (wStylusOperationsTrap_2.lane 3).mtvec 1 ≠ 0 ∧
          (wStylusOperationsTrap_2.lane 3).atOp 1 (xTileRelease 5 6) = true ∧
          (wStylusOperationsTrap_2.lane 3).msg (BitVec.toNat ((wStylusOperationsTrap_2.thr 3 1).rd 6) % 4096) = none) ∧
      ((wStylusOperationsTrap_3.thr 3 1).mie = true ∧ (wStylusOperationsTrap_3.lane 3).mtvec 1 ≠ 0 ∧
          List.find? (fun (g : Tag) => decide (g.id = BitVec.toNat ((wStylusOperationsTrap_3.thr 3 1).rd 6) ∧
          g.thr = 1)) (wStylusOperationsTrap_3.lane 3).tags = none ∧ (wStylusOperationsTrap_3.lane 3).atOp 1 (xEngWait 5 6) = true) ∧
      ((wStylusOperationsTrap_4.thr 3 1).mie = true ∧ (wStylusOperationsTrap_4.lane 3).mtvec 1 ≠ 0 ∧
          List.find? (fun (g : Tag) => decide (g.id = BitVec.toNat ((wStylusOperationsTrap_4.thr 3 1).rd 6) ∧
          g.thr = 1)) (wStylusOperationsTrap_4.lane 3).tags = none ∧ (wStylusOperationsTrap_4.lane 3).atOp 1 (xEngPoll 5 6) = true) :=
  by decide +kernel

def wEngine_1 : State := wGo 2 (xStnGo 5 6) wStnDesc
def wEngine_2 : State := wGo 2 (xBurGo 5 6) wBurDesc
def wEngine_3 : State := wGo 0 (xStnGo 5 6) wStnDesc
def wEngine_4 : State := wGo 0 (xBurGo 5 6) wBurDesc
def wEngine_5 : State := (wGo 2 (xBurSkip 6) []).modThr 3 1 fun t => { t with x := [(6, 0)] }
def wEngine_6 : State := wAt (xEngWait 5 6) (wThr wTags [(6,4)])
def wEngine_7 : State := wAt (xEngPoll 5 6) (wThr wTags [(6,4)])
def wEngine_8 : State := wAt (xEngWait 5 6) (wThr wTags [(6,6)])
def wEngine_9 : State := wAt (xEngPoll 5 6) (wThr wTags [(6,6)])
theorem wit_EngineOperationsComplete :
    ((5 ≠ 0 ∧ (wEngine_1.lane 3).tagsFull 1 = false ∧ (((wEngine_1.lane 3).roomTag 1).st = 2 ∨ ((wEngine_1.lane 3).roomTag 1).st = 3) ∧
        (wEngine_1.lane 3).atOp 1 (xStnGo 5 6) = true) ∧
      (5 ≠ 0 ∧ (wEngine_2.lane 3).tagsFull 1 = false ∧ (((wEngine_2.lane 3).roomTag 1).st = 2 ∨ ((wEngine_2.lane 3).roomTag 1).st = 3) ∧
          (wEngine_2.lane 3).atOp 1 (xBurGo 5 6) = true) ∧
      (5 ≠ 0 ∧ (wEngine_3.lane 3).tagsFull 1 = false ∧ ((wEngine_3.lane 3).roomTag 1).st ≠ 2 ∧ ((wEngine_3.lane 3).roomTag 1).st ≠ 3 ∧
          (wEngine_3.lane 3).atOp 1 (xStnGo 5 6) = true) ∧
      (5 ≠ 0 ∧ (wEngine_4.lane 3).tagsFull 1 = false ∧ ((wEngine_4.lane 3).roomTag 1).st ≠ 2 ∧ ((wEngine_4.lane 3).roomTag 1).st ≠ 3 ∧
          (wEngine_4.lane 3).atOp 1 (xBurGo 5 6) = true)) ∧
    (∃ p, (wEngine_5.thr 3 1).phase = some p ∧ 5 ≠ 0 ∧ (wEngine_5.lane 3).atOp 1 (xBurSkip 6) = true) ∧
    (∃ tg c, List.find? (fun (g : Tag) => decide (g.id = BitVec.toNat ((wEngine_6.thr 3 1).rd 6) ∧
        g.thr = 1)) (wEngine_6.lane 3).tags = some tg ∧ tg.code = some c ∧ 5 ≠ 0 ∧ (wEngine_6.lane 3).atOp 1 (xEngWait 5 6) = true) ∧
    (∃ tg c, List.find? (fun (g : Tag) => decide (g.id = BitVec.toNat ((wEngine_7.thr 3 1).rd 6) ∧
        g.thr = 1)) (wEngine_7.lane 3).tags = some tg ∧ tg.code = some c ∧ 5 ≠ 0 ∧ (wEngine_7.lane 3).atOp 1 (xEngPoll 5 6) = true) :=
  ⟨by decide +kernel,
    ⟨_, rfl, by decide +kernel⟩,
    ⟨_, _, rfl, rfl, by decide +kernel⟩,
    ⟨_, _, rfl, rfl, by decide +kernel⟩⟩
theorem wit_EngineOperationsComplete_2 :
    (∃ tg, List.find? (fun (g : Tag) => decide (g.id = BitVec.toNat ((wEngine_8.thr 3 1).rd 6) ∧
        g.thr = 1)) (wEngine_8.lane 3).tags = some tg ∧ 5 ≠ 0 ∧ tg.code = none ∧ (wEngine_8.lane 3).atOp 1 (xEngWait 5 6) = true) ∧
    (∃ tg, List.find? (fun (g : Tag) => decide (g.id = BitVec.toNat ((wEngine_9.thr 3 1).rd 6) ∧
        g.thr = 1)) (wEngine_9.lane 3).tags = some tg ∧ 5 ≠ 0 ∧ tg.code = none ∧ (wEngine_9.lane 3).atOp 1 (xEngPoll 5 6) = true) :=
  ⟨⟨_, rfl, by decide +kernel⟩,
    ⟨_, rfl, by decide +kernel⟩⟩

theorem wit_CompletedTagWakesItsThread :
    List.find? (fun (g : Tag) => decide (g.id = 6)) (wWait.lane 3).tags = some wTagB ∧
        (wWait.thr 3 wTagB.thr).run = ThreadRun.waitTag 5 6 ∧ 5 ≠ 0 :=
  by decide +kernel

def wShelfAndJournal_1 : State := wAt (xShelfPost 5 6 7) (wPost [(6,0),(7,5)])
def wShelfAndJournal_2 : State := wAt (xShelfPost 5 6 7) (wFull (wPost [(6,0),(7,5)]))
def wShelfAndJournal_3 : State := (wPost [(6,0),(7,5)]).modThr 3 1 fun t => { t with run := .waitPost 5 0 5}
def wShelfAndJournal_4 : State := wAt (xJrnPut 5 6) (wThr {tmem := memWrite [] 0 wPut, msgs := [(0,{})]} [(6,0x10000000)])
def wShelfAndJournal_5 : State := wAt (xJrnPut 5 6) (wThr {} [(6,0x10000000)])
theorem wit_ShelfAndJournalOperationsComplete :
    (∃ m p, (wShelfAndJournal_1.lane 3).msg (BitVec.toNat ((wShelfAndJournal_1.thr 3 1).rd 7)) = some m ∧
        (wShelfAndJournal_1.thr 3 1).phase = some p ∧ (wShelfAndJournal_1.lane 3).atOp 1 (xShelfPost 5 6 7) = true ∧
        ((wShelfAndJournal_1.lane 3).st = 2 ∨ (wShelfAndJournal_1.lane 3).st = 3) ∧
        BitVec.toNat ((wShelfAndJournal_1.thr 3 1).rd 6) ≤ 7 ∧
        bit ((wShelfAndJournal_1.lane 3).cfg (shelfOff (BitVec.toNat ((wShelfAndJournal_1.thr 3 1).rd 6)) + 8)) 0 = true ∧
        m.canonTile ≠ endTile ∧
        m.canonLen ≤ shelfSlot ((wShelfAndJournal_1.lane 3).cfg (shelfOff (BitVec.toNat ((wShelfAndJournal_1.thr 3 1).rd 6)) + 8)) ∧
        wShelfAndJournal_1.shelfGone 3 (BitVec.toNat ((wShelfAndJournal_1.thr 3 1).rd 6)) = false ∧
        wShelfAndJournal_1.hshFull 3 (BitVec.toNat ((wShelfAndJournal_1.thr 3 1).rd 6)) = false) ∧
    (∃ m p, (wShelfAndJournal_2.lane 3).msg (BitVec.toNat ((wShelfAndJournal_2.thr 3 1).rd 7)) = some m ∧
        (wShelfAndJournal_2.thr 3 1).phase = some p ∧ (wShelfAndJournal_2.lane 3).atOp 1 (xShelfPost 5 6 7) = true ∧
        ((wShelfAndJournal_2.lane 3).st = 2 ∨ (wShelfAndJournal_2.lane 3).st = 3) ∧
        BitVec.toNat ((wShelfAndJournal_2.thr 3 1).rd 6) ≤ 7 ∧
        bit ((wShelfAndJournal_2.lane 3).cfg (shelfOff (BitVec.toNat ((wShelfAndJournal_2.thr 3 1).rd 6)) + 8)) 0 = true ∧
        m.canonTile ≠ endTile ∧
        m.canonLen ≤ shelfSlot ((wShelfAndJournal_2.lane 3).cfg (shelfOff (BitVec.toNat ((wShelfAndJournal_2.thr 3 1).rd 6)) + 8)) ∧
        wShelfAndJournal_2.shelfGone 3 (BitVec.toNat ((wShelfAndJournal_2.thr 3 1).rd 6)) = false ∧
        wShelfAndJournal_2.hshFull 3 (BitVec.toNat ((wShelfAndJournal_2.thr 3 1).rd 6)) = true) ∧
    (∃ r k h m, (wShelfAndJournal_3.thr 3 1).run = ThreadRun.waitPost r k h ∧ (wShelfAndJournal_3.lane 3).msg h = some m ∧ k ≤ 7 ∧
        wShelfAndJournal_3.hshFull 3 k = false) ∧
    (∃ p, (wShelfAndJournal_4.thr 3 1).phase = some p ∧ (wShelfAndJournal_4.lane 3).atOp 1 (xJrnPut 5 6) = true ∧
        (wShelfAndJournal_4.lane 3).putCheck (wShelfAndJournal_4.thr 3 1) (BitVec.toNat ((wShelfAndJournal_4.thr 3 1).rd 6)) = 0) :=
  ⟨⟨_, _, rfl, rfl, by decide +kernel⟩,
    ⟨_, _, rfl, rfl, by decide +kernel⟩,
    ⟨_, _, _, _, rfl, rfl, by decide +kernel⟩,
    ⟨_, rfl, by decide +kernel⟩⟩
theorem wit_ShelfAndJournalOperationsComplete_2 :
    (∃ c, (wShelfAndJournal_5.lane 3).putCheck (wShelfAndJournal_5.thr 3 1) (BitVec.toNat ((wShelfAndJournal_5.thr 3 1).rd 6)) = c ∧
        (wShelfAndJournal_5.lane 3).atOp 1 (xJrnPut 5 6) = true ∧ c ≠ 0 ∧ 5 ≠ 0) :=
  ⟨_, rfl, by decide +kernel⟩

def wBeatAndThread_1 : State := wAt (xBeatRead 5) (wThr {} [(6,2)])
def wBeatAndThread_2 : State := wAt (xBeatReadh 5) (wThr {} [(6,2)])
def wBeatAndThread_3 : State := wAt (xBeatLeft 5) (wThr {} [(6,2)])
def wBeatAndThread_4 : State := wAt xBeatWait (wThr {} [(6,2)])
def wBeatAndThread_5 : State := {wAt xBeatWait (wThr {} [(6,2)]) with btm := {wBtm with cyc := 0}}
def wBeatAndThread_6 : State := wAt (xThrSignal 6) (wThr {} [(6,2)])
def wBeatAndThread_7 : State := (wAt xThrEnd (wThr wTags [(6,2)])).modThr 3 1 fun t => {t with phase := some {wPhase with posted := true}}
theorem wit_BeatAndThreadOperationsComplete :
    (((wBeatAndThread_1.lane 3).atOp 1 (xBeatRead 5) = true) ∧
      ((wBeatAndThread_2.lane 3).atOp 1 (xBeatReadh 5) = true)) ∧
    (∃ p, (wBeatAndThread_3.thr 3 1).phase = some p ∧ (wBeatAndThread_3.lane 3).atOp 1 (xBeatLeft 5) = true ∧ 5 ≠ 0) ∧
    (((wBeatAndThread_4.lane 3).atOp 1 xBeatWait = true ∧ (wBeatAndThread_4.btm.running = false ∨ wBeatAndThread_4.btm.cyc ≠ 0)) ∧
      ((wBeatAndThread_5.lane 3).atOp 1 xBeatWait = true ∧ wBeatAndThread_5.btm.running = true ∧ wBeatAndThread_5.btm.cyc = 0)) ∧
    (∃ r, BitVec.toNat ((wBeatAndThread_6.thr 3 1).rd 6) = r ∧ (wBeatAndThread_6.lane 3).atOp 1 (xThrSignal 6) = true ∧ r < 8 ∧ r ≠ 1) :=
  ⟨by decide +kernel,
    ⟨_, rfl, by decide +kernel⟩,
    by decide +kernel,
    ⟨_, rfl, by decide +kernel⟩⟩
theorem wit_BeatAndThreadOperationsComplete_2 :
    (∃ p, (wBeatAndThread_7.thr 3 1).phase = some p ∧ (wBeatAndThread_7.lane 3).atOp 1 xThrEnd = true ∧ (p.posted = true ∨ ∃ (m : Msg),
        (wBeatAndThread_7.lane 3).msg p.h = some m ∧ m.acked = true)) :=
  ⟨_, rfl, by decide +kernel⟩

def wStylusEvents_1 : State := (wThr wTags [(6,2)]).modThr 3 1 fun t => {t with mip := 0x70000, mieBits := 0x60000}
def wStylusEvents_2 : State := ((wThr wTags [(6,2)]).modThr 3 1 fun t => {t with mip := 0x70000, mieBits := 0x60000}).modLane 3 fun l => {l with image0 := wTrapImage 0x40}
def wStylusEvents_3 : State := ((wThr wTags [(6,2)]).modThr 3 1 fun t => {t with mie := false, mcause := 3, phase := none}).modLane 3 fun l => {l with image0 := wTrapImage 0x40}
theorem wit_StylusEventsComplete :
    (∃ b, List.find? (fun (b : ℕ) => bit (BitVec.toNat ((wStylusEvents_1.thr 3 1).mip &&& (wStylusEvents_1.thr 3 1).mieBits)) b) [3, 16,
        17, 18, 19] = some b ∧ (wStylusEvents_1.thr 3 1).run = ThreadRun.run ∧ (wStylusEvents_1.thr 3 1).mie = true) ∧
    (((wStylusEvents_2.thr 3 1).run = ThreadRun.run ∧
        ((wStylusEvents_2.thr 3 1).mie = true ∨ (wStylusEvents_2.thr 3 1).mcause = (0 : W32)) ∧ (wStylusEvents_2.lane 3).mtvec 1 ≠ 0) ∧
      ((wStylusEvents_3.thr 3 1).run = ThreadRun.run ∧ (wStylusEvents_3.thr 3 1).mie = false ∧
          (wStylusEvents_3.thr 3 1).mcause ≠ (0 : W32) ∧ (wStylusEvents_3.thr 3 1).phase = none)) :=
  ⟨⟨_, rfl, by decide +kernel⟩,
    by decide +kernel⟩

theorem wit_BurinOperationsStart :
    ((((wBReady 28 0).lane 3).burEng 1).run = none ∧ (((wBReady 28 0).lane 3).burEng 1).pick (wBReady 28 0).laneClk [28, 29,
        30] = some (wBOp 28 0) ∧ (wBOp 28 0).src.isThread = true ∧ ((wBReady 28 0).startChecks 3 1 (wBOp 28 0)).code = none ∧
        bChain (wBOp 28 0).desc = false ∧ bAuxch (wBOp 28 0).desc = false ∧ ((wBReady 28 0).lane 3).st ≠ 4 ∧
        bData (wBOp 28 0).desc (((wBReady 28 0).lane 3).at (bIn (wBOp 28 0).desc) (bInLen (wBOp 28 0).desc)) = some (Bytes.zeros 16)) ∧
      ((((wBReady 124 0).lane 3).burEng 1).run = none ∧
          (((wBReady 124 0).lane 3).burEng 1).pick (wBReady 124 0).laneClk [124] = some (wBOp 124 0) ∧
          (wBOp 124 0).src.isThread = true ∧ ((wBReady 124 0).startChecks 3 1 (wBOp 124 0)).code = none ∧
          bChain (wBOp 124 0).desc = false ∧ bAuxch (wBOp 124 0).desc = false ∧ ((wBReady 124 0).lane 3).st ≠ 4 ∧
          bData (wBOp 124 0).desc (((wBReady 124 0).lane 3).at (bIn (wBOp 124 0).desc) (bInLen (wBOp 124 0).desc)) = some (Bytes.zeros 16) ∧
          (bOff (wBOp 124 0).desc + if bParam (wBOp 124 0).desc 0 = 4 then 16 else 8) ≤ bInLen (wBOp 124 0).desc) :=
  by decide +kernel

theorem wit_BurinOperationCompletes :
    (∃ r, (((wRunS 0 (wRunB 4 (wBDesc 4 0) (OpSrc.thread 1 6) (some (4358 : Code)))).lane 3).burEng 1).run = some r ∧
        (wRunS 0 (wRunB 4 (wBDesc 4 0) (OpSrc.thread 1 6) (some (4358 : Code)))).laneClk < r.startClk + r.time) ∧
    (∃ r, (((wRunS 10000000 (wRunB 4 (wBDesc 4 0) (OpSrc.thread 1 6) (some (4358 : Code)))).lane 3).burEng 1).run = some r ∧
        r.startClk + r.time ≤ (wRunS 10000000 (wRunB 4 (wBDesc 4 0) (OpSrc.thread 1 6) (some (4358 : Code)))).laneClk) ∧
    (∃ r, (((wRst (wRunB 4 (wBDesc 4 0) (OpSrc.thread 1 6) (some (4358 : Code)))).lane 3).burEng 1).run = some r ∧
        r.startClk + r.time ≤ (wRst (wRunB 4 (wBDesc 4 0) (OpSrc.thread 1 6) (some (4358 : Code)))).laneClk ∧
        ((wRst (wRunB 4 (wBDesc 4 0) (OpSrc.thread 1 6) (some (4358 : Code)))).lane 3).st = 4) ∧
    (∃ r t tag code, (((wRunS 10000000 (wRunB 4 (wBDesc 4 0) (OpSrc.thread 1 6) (some (4358 : Code)))).lane 3).burEng 1).run = some r ∧
        r.op.src = OpSrc.thread t tag ∧ r.refusal = some code ∧
        r.startClk + r.time ≤ (wRunS 10000000 (wRunB 4 (wBDesc 4 0) (OpSrc.thread 1 6) (some (4358 : Code)))).laneClk ∧
        ((wRunS 10000000 (wRunB 4 (wBDesc 4 0) (OpSrc.thread 1 6) (some (4358 : Code)))).lane 3).st ≠ 4) :=
  ⟨⟨_, rfl, by decide +kernel⟩,
    ⟨_, rfl, by decide +kernel⟩,
    ⟨_, rfl, by decide +kernel⟩,
    ⟨_, _, _, _, rfl, rfl, rfl, by decide +kernel⟩⟩
theorem wit_BurinOperationCompletes_2 :
    (∃ r t tag, (((wRunS 10000000 (wRunB 72 (wBDesc 72 0) (OpSrc.thread 1 6) none)).lane 3).burEng 1).run = some r ∧
        r.op.src = OpSrc.thread t tag ∧
        r.startClk + r.time ≤ (wRunS 10000000 (wRunB 72 (wBDesc 72 0) (OpSrc.thread 1 6) none)).laneClk ∧
        ((wRunS 10000000 (wRunB 72 (wBDesc 72 0) (OpSrc.thread 1 6) none)).lane 3).st ≠ 4 ∧ r.refusal = none ∧
        ((wRunS 10000000 (wRunB 72 (wBDesc 72 0) (OpSrc.thread 1 6) none)).burEval 3 r true true).1.code = (0 : Code) ∧
        (wRunS 10000000 (wRunB 72 (wBDesc 72 0) (OpSrc.thread 1 6) none)).canLink 3 r = true) ∧
    (∃ r t tag m k, (((wRunS 10000000 (wRunB 4 (wBind 4) (OpSrc.thread 1 6) none)).lane 3).burEng 1).run = some r ∧
        r.op.src = OpSrc.thread t tag ∧
        ((wRunS 10000000 (wRunB 4 (wBind 4) (OpSrc.thread 1 6) none)).lane 3).msg (bHandle r.op.desc) = some m ∧
        (wRunS 10000000 (wRunB 4 (wBind 4) (OpSrc.thread 1 6) none)).hmKey m.hm = some k ∧
        r.startClk + r.time ≤ (wRunS 10000000 (wRunB 4 (wBind 4) (OpSrc.thread 1 6) none)).laneClk ∧
        ((wRunS 10000000 (wRunB 4 (wBind 4) (OpSrc.thread 1 6) none)).lane 3).st ≠ 4 ∧ r.refusal = none ∧ isVerify r.op.opc = true ∧
        bBound r.op.desc = true ∧ m.trace.length < 15) ∧
    (∃ r ref code,
        (((wRunS 10000000 (wRunB 72 [] (OpSrc.reserve ReserveUnit.str 7) (some (4356 : Code)))).lane 3).burEng 1).run = some r ∧
        r.op.src = OpSrc.reserve ReserveUnit.str ref ∧ r.refusal = some code ∧
        r.startClk + r.time ≤ (wRunS 10000000 (wRunB 72 [] (OpSrc.reserve ReserveUnit.str 7) (some (4356 : Code)))).laneClk ∧
        ((wRunS 10000000 (wRunB 72 [] (OpSrc.reserve ReserveUnit.str 7) (some (4356 : Code)))).lane 3).st ≠ 4) ∧
    (∃ r ref, (((wRunS 10000000 (wRunB 72 [] (OpSrc.reserve ReserveUnit.str 7) none)).lane 3).burEng 1).run = some r ∧
        r.op.src = OpSrc.reserve ReserveUnit.str ref ∧
        r.startClk + r.time ≤ (wRunS 10000000 (wRunB 72 [] (OpSrc.reserve ReserveUnit.str 7) none)).laneClk ∧
        ((wRunS 10000000 (wRunB 72 [] (OpSrc.reserve ReserveUnit.str 7) none)).lane 3).st ≠ 4 ∧ r.refusal = none) :=
  ⟨⟨_, _, _, rfl, rfl, by decide +kernel⟩,
    ⟨_, _, _, _, _, rfl, rfl, rfl, rfl, by decide +kernel⟩,
    ⟨_, _, _, rfl, rfl, rfl, by decide +kernel⟩,
    ⟨_, _, rfl, rfl, by decide +kernel⟩⟩

theorem wit_StylusInstructionsComplete :
    ((((wI (wIns 0 3 6 0 5 19) [(6, (5 : W32))]).thr 3 1).run = ThreadRun.run ∧ ((wI (wIns 0 3 6 0 5 19) [(6,
        (5 : W32))]).lane 3).fetch ((wI (wIns 0 3 6 0 5 19) [(6, (5 : W32))]).thr 3 1) = some (wWord (wIns 0 3 6 0 5 19)) ∧
        fullWord false (wWord (wIns 0 3 6 0 5 19)) = some (wIns 0 3 6 0 5 19) ∧ Rv.op (wIns 0 3 6 0 5 19) = 19 ∧
        Rv.f3 (wIns 0 3 6 0 5 19) = 0 ∧ Rv.rd (wIns 0 3 6 0 5 19) ≠ 0) ∧
      (((wI (wIns 0 8 0 0 5 111) []).thr 3 1).run = ThreadRun.run ∧
          ((wI (wIns 0 8 0 0 5 111) []).lane 3).fetch ((wI (wIns 0 8 0 0 5 111) []).thr 3 1) = some (wWord (wIns 0 8 0 0 5 111)) ∧
          fullWord false (wWord (wIns 0 8 0 0 5 111)) = some (wIns 0 8 0 0 5 111) ∧ Rv.op (wIns 0 8 0 0 5 111) = 111 ∧
          Rv.rd (wIns 0 8 0 0 5 111) ≠ 0)) ∧
    (∃ b z, ((wI (wIns 0 0 6 2 5 3) [(6, (268435456 : W32))]).thr 3 1).accOf (wIns 0 0 6 2 5 3) = some (b, z) ∧
        ((wI (wIns 0 0 6 2 5 3) [(6, (268435456 : W32))]).thr 3 1).run = ThreadRun.run ∧ ((wI (wIns 0 0 6 2 5 3) [(6,
        (268435456 : W32))]).lane 3).fetch ((wI (wIns 0 0 6 2 5 3) [(6,
        (268435456 : W32))]).thr 3 1) = some (wWord (wIns 0 0 6 2 5 3)) ∧
        fullWord false (wWord (wIns 0 0 6 2 5 3)) = some (wIns 0 0 6 2 5 3) ∧ Rv.op (wIns 0 0 6 2 5 3) = 3 ∧ 268435456 ≤ b ∧
        b + z ≤ 274530304 ∧ Rv.rd (wIns 0 0 6 2 5 3) ≠ 0 ∧ b % z = 0) ∧
    (∃ b z, ((wI (wIns 0 0 6 2 5 3) [(6, (268435459 : W32))]).thr 3 1).accOf (wIns 0 0 6 2 5 3) = some (b, z) ∧
        ((wI (wIns 0 0 6 2 5 3) [(6, (268435459 : W32))]).thr 3 1).run = ThreadRun.run ∧ ((wI (wIns 0 0 6 2 5 3) [(6,
        (268435459 : W32))]).lane 3).fetch ((wI (wIns 0 0 6 2 5 3) [(6,
        (268435459 : W32))]).thr 3 1) = some (wWord (wIns 0 0 6 2 5 3)) ∧
        fullWord false (wWord (wIns 0 0 6 2 5 3)) = some (wIns 0 0 6 2 5 3) ∧ Rv.op (wIns 0 0 6 2 5 3) = 3 ∧ 268435456 ≤ b ∧
        b + z ≤ 274530304 ∧ Rv.rd (wIns 0 0 6 2 5 3) ≠ 0 ∧ b % z ≠ 0) ∧
    (∃ b z, ((wI (wIns 0 7 6 2 0 35) [(6, (268435456 : W32)), (7, (9 : W32))]).thr 3 1).accOf (wIns 0 7 6 2 0 35) = some (b, z) ∧
        ((wI (wIns 0 7 6 2 0 35) [(6, (268435456 : W32)), (7, (9 : W32))]).thr 3 1).run = ThreadRun.run ∧ ((wI (wIns 0 7 6 2 0 35) [(6,
        (268435456 : W32)), (7, (9 : W32))]).lane 3).fetch ((wI (wIns 0 7 6 2 0 35) [(6, (268435456 : W32)), (7,
        (9 : W32))]).thr 3 1) = some (wWord (wIns 0 7 6 2 0 35)) ∧
        fullWord false (wWord (wIns 0 7 6 2 0 35)) = some (wIns 0 7 6 2 0 35) ∧ Rv.op (wIns 0 7 6 2 0 35) = 35 ∧ (∀ p ∈ styParts b z,
        ((wI (wIns 0 7 6 2 0 35) [(6, (268435456 : W32)), (7, (9 : W32))]).lane 3).spot ((wI (wIns 0 7 6 2 0 35) [(6,
        (268435456 : W32)), (7, (9 : W32))]).thr 3 1) p.1 p.2 true = StySpot.tile (p.1 - 268435456)) ∧ b % z = 0) :=
  ⟨by decide +kernel,
    ⟨_, _, rfl, by decide +kernel⟩,
    ⟨_, _, rfl, by decide +kernel⟩,
    ⟨_, _, rfl, by decide +kernel⟩⟩
theorem wit_StylusInstructionsComplete_2 :
    (∃ b z, ((wI (wIns 0 7 6 2 0 35) [(6, (268435459 : W32)), (7, (9 : W32))]).thr 3 1).accOf (wIns 0 7 6 2 0 35) = some (b, z) ∧
        ((wI (wIns 0 7 6 2 0 35) [(6, (268435459 : W32)), (7, (9 : W32))]).thr 3 1).run = ThreadRun.run ∧ ((wI (wIns 0 7 6 2 0 35) [(6,
        (268435459 : W32)), (7, (9 : W32))]).lane 3).fetch ((wI (wIns 0 7 6 2 0 35) [(6, (268435459 : W32)), (7,
        (9 : W32))]).thr 3 1) = some (wWord (wIns 0 7 6 2 0 35)) ∧
        fullWord false (wWord (wIns 0 7 6 2 0 35)) = some (wIns 0 7 6 2 0 35) ∧ Rv.op (wIns 0 7 6 2 0 35) = 35 ∧ (∀ p ∈ styParts b z,
        ((wI (wIns 0 7 6 2 0 35) [(6, (268435459 : W32)), (7, (9 : W32))]).lane 3).spot ((wI (wIns 0 7 6 2 0 35) [(6,
        (268435459 : W32)), (7, (9 : W32))]).thr 3 1) p.1 p.2 true = StySpot.tile (p.1 - 268435456)) ∧ b % z ≠ 0) ∧
    (∃ b z p, ((wI (wIns 0 7 6 2 0 35) [(6, (268435454 : W32)), (7, (9 : W32))]).thr 3 1).accOf (wIns 0 7 6 2 0 35) = some (b, z) ∧
        (wI (wIns 0 7 6 2 0 35) [(6, (268435454 : W32)), (7, (9 : W32))]).styFault 3 ((wI (wIns 0 7 6 2 0 35) [(6, (268435454 : W32)),
        (7, (9 : W32))]).thr 3 1) b z true = some p ∧ ((wI (wIns 0 7 6 2 0 35) [(6, (268435454 : W32)), (7,
        (9 : W32))]).thr 3 1).run = ThreadRun.run ∧ ((wI (wIns 0 7 6 2 0 35) [(6, (268435454 : W32)), (7,
        (9 : W32))]).lane 3).fetch ((wI (wIns 0 7 6 2 0 35) [(6, (268435454 : W32)), (7,
        (9 : W32))]).thr 3 1) = some (wWord (wIns 0 7 6 2 0 35)) ∧
        fullWord false (wWord (wIns 0 7 6 2 0 35)) = some (wIns 0 7 6 2 0 35) ∧ Rv.op (wIns 0 7 6 2 0 35) = 35 ∧ b % z ≠ 0 ∧
        (((wI (wIns 0 7 6 2 0 35) [(6, (268435454 : W32)), (7, (9 : W32))]).thr 3 1).mie = true ∨ ((wI (wIns 0 7 6 2 0 35) [(6,
        (268435454 : W32)), (7, (9 : W32))]).thr 3 1).mcause = (0 : W32)) ∧ ((wI (wIns 0 7 6 2 0 35) [(6, (268435454 : W32)), (7,
        (9 : W32))]).lane 3).mtvec 1 ≠ 0) ∧
    (∃ b z pa, ((wI (wIns 0 0 6 2 5 3) [(6, (2147483648 : W32))]).thr 3 1).accOf (wIns 0 0 6 2 5 3) = some (b, z) ∧
        ((wI (wIns 0 0 6 2 5 3) [(6, (2147483648 : W32))]).lane 3).spot ((wI (wIns 0 0 6 2 5 3) [(6,
        (2147483648 : W32))]).thr 3 1) b z false = StySpot.dram pa ∧ ((wI (wIns 0 0 6 2 5 3) [(6,
        (2147483648 : W32))]).thr 3 1).run = ThreadRun.run ∧ ((wI (wIns 0 0 6 2 5 3) [(6,
        (2147483648 : W32))]).lane 3).fetch ((wI (wIns 0 0 6 2 5 3) [(6,
        (2147483648 : W32))]).thr 3 1) = some (wWord (wIns 0 0 6 2 5 3)) ∧
        fullWord false (wWord (wIns 0 0 6 2 5 3)) = some (wIns 0 0 6 2 5 3) ∧ Rv.op (wIns 0 0 6 2 5 3) = 3 ∧ b % z = 0 ∧ dramBase ≤ pa ∧
        pa + z ≤ (wI (wIns 0 0 6 2 5 3) [(6, (2147483648 : W32))]).dramTop ∧ (wI (wIns 0 0 6 2 5 3) [(6,
        (2147483648 : W32))]).poisoned pa z = false) ∧
    (∃ v, (wI 4047512307 []).styCsr 3 1 ((wI 4047512307 []).thr 3 1) (bits 4047512307 31 20) = some v ∧
        ((wI 4047512307 []).thr 3 1).run = ThreadRun.run ∧
        ((wI 4047512307 []).lane 3).fetch ((wI 4047512307 []).thr 3 1) = some (wWord 4047512307) ∧
        fullWord false (wWord 4047512307) = some 4047512307 ∧ Rv.op 4047512307 = 115 ∧ Rv.f3 4047512307 = 2 ∧ Rv.rs1 4047512307 = 0 ∧
        Rv.rd 4047512307 ≠ 0) :=
  ⟨⟨_, _, rfl, by decide +kernel⟩,
    ⟨_, _, _, rfl, rfl, by decide +kernel⟩,
    ⟨0x80000000, 4, dramBase, by decide +kernel⟩,
    ⟨_, rfl, by decide +kernel⟩⟩
theorem wit_StylusInstructionsComplete_3 :
    ((((wI (wIns 26 0 6 1 5 115) [(6, (9 : W32))]).thr 3 1).run = ThreadRun.run ∧ ((wI (wIns 26 0 6 1 5 115) [(6,
        (9 : W32))]).lane 3).fetch ((wI (wIns 26 0 6 1 5 115) [(6, (9 : W32))]).thr 3 1) = some (wWord (wIns 26 0 6 1 5 115)) ∧
        fullWord false (wWord (wIns 26 0 6 1 5 115)) = some (wIns 26 0 6 1 5 115) ∧ Rv.op (wIns 26 0 6 1 5 115) = 115 ∧
        Rv.f3 (wIns 26 0 6 1 5 115) = 1 ∧ bits (wIns 26 0 6 1 5 115) 31 20 = 832 ∧ Rv.rd (wIns 26 0 6 1 5 115) ≠ 0) ∧
      (((wI 807403635 []).thr 3 1).run = ThreadRun.run ∧
          ((wI 807403635 []).lane 3).fetch ((wI 807403635 []).thr 3 1) = some (wWord 807403635) ∧
          fullWord false (wWord 807403635) = some 807403635 ∧ 807403635 = 807403635) ∧
      (((wI 115 []).thr 3 1).run = ThreadRun.run ∧ ((wI 115 []).lane 3).fetch ((wI 115 []).thr 3 1) = some (wWord 115) ∧
          fullWord false (wWord 115) = some 115 ∧ 115 = 115 ∧
          (((wI 115 []).thr 3 1).mie = true ∨ ((wI 115 []).thr 3 1).mcause = (0 : W32)) ∧ ((wI 115 []).lane 3).mtvec 1 ≠ 0) ∧
      (((wI (wIns 1 7 6 4 5 51) [(6, (9 : W32))]).thr 3 1).run = ThreadRun.run ∧ ((wI (wIns 1 7 6 4 5 51) [(6,
          (9 : W32))]).lane 3).fetch ((wI (wIns 1 7 6 4 5 51) [(6, (9 : W32))]).thr 3 1) = some (wWord (wIns 1 7 6 4 5 51)) ∧
          fullWord false (wWord (wIns 1 7 6 4 5 51)) = some (wIns 1 7 6 4 5 51) ∧ isLong (wIns 1 7 6 4 5 51) = true ∧
          Rv.rd (wIns 1 7 6 4 5 51) ≠ 0)) ∧
    (∃ rd b z sg dat, ((wWaitLoad 2147483648).thr 3 1).run = ThreadRun.waitLoad rd b z sg dat none ∧
        ((wWaitLoad 2147483648).lane 3).fetch ((wWaitLoad 2147483648).thr 3 1) = some (wWord 3) ∧ rd ≠ 0) ∧
    (∃ rd b z sg dat p, ((wWaitLoad 2147483648).thr 3 1).run = ThreadRun.waitLoad rd b z sg dat none ∧
        ((wWaitLoad 2147483648).dramPart 3 ((wWaitLoad 2147483648).thr 3 1) b z fun (x x_1 : ℕ) => true) = some p ∧
        ((wWaitLoad 2147483648).lane 3).fetch ((wWaitLoad 2147483648).thr 3 1) = some (wWord 3) ∧ rd ≠ 0 ∧
        (((wWaitLoad 2147483648).thr 3 1).mie = true ∨ ((wWaitLoad 2147483648).thr 3 1).mcause = (0 : W32)) ∧
        ((wWaitLoad 2147483648).lane 3).mtvec 1 ≠ 0) :=
  ⟨by decide +kernel,
    ⟨_, _, _, _, _, rfl, by decide +kernel⟩,
    ⟨_, _, _, _, _, _, rfl, rfl, by decide +kernel⟩⟩

theorem wit_StylusArithmeticCorners :
    (7 < 2 ^ 32 ∧ 3 < 2 ^ 32) ∧
      (7 < 2 ^ 32 ∧ 3 < 2 ^ 32 ∧ 3 ≠ 0) :=
  by decide +kernel

theorem wit_StencilRunsComplete :
    ((((wStQ 2 []).lane 3).stn.run = none ∧ ((wStQ 2 []).lane 3).st ≠ 4 ∧ inTileMem (sCompl (wSOp 2 8).desc) 32 = true ∧
        ((wStQ 2 []).lane 3).stn.pick (wStQ 2 []).laneClk 2 = some (wSOp 2 8) ∧ ((wStQ 2 []).lane 3).stnRefusal (wSOp 2 8) = none) ∧
      (((wStQ 4 [wCtx]).lane 3).stn.run = none ∧ ((wStQ 4 [wCtx]).lane 3).st ≠ 4 ∧ inTileMem (sCompl (wSOp 4 8).desc) 32 = true ∧
          ((wStQ 4 [wCtx]).lane 3).stn.pick (wStQ 4 [wCtx]).laneClk 4 = some (wSOp 4 8) ∧
          ((wStQ 4 [wCtx]).lane 3).stnRefusal (wSOp 4 8) = none) ∧
      (((wStQ 4 []).lane 3).stn.run = none ∧ ((wStQ 4 []).lane 3).st ≠ 4 ∧ inTileMem (sCompl (wSOp 4 8).desc) 32 = true ∧
          ((wStQ 4 []).lane 3).stn.pick (wStQ 4 []).laneClk 4 = some (wSOp 4 8) ∧
          ((wStQ 4 []).lane 3).stnRefusal (wSOp 4 8) = some (4118 : Code))) ∧
    (∃ c more m k, List.find? (fun (c : StnCtx) => decide (c.h = sHandle (wSOp 3 8).desc)) ((wStQ 3 [wCtx]).lane 3).stn.ctxs = some c ∧
        ((wStQ 3 [wCtx]).lane 3).chain (sOut (wSOp 3 8).desc) = some more ∧
        ((wStQ 3 [wCtx]).lane 3).msg (sHandle (wSOp 3 8).desc) = some m ∧ (wStQ 3 [wCtx]).hmKey m.hm = some k ∧
        ((wStQ 3 [wCtx]).lane 3).stn.run = none ∧ ((wStQ 3 [wCtx]).lane 3).st ≠ 4 ∧ inTileMem (sCompl (wSOp 3 8).desc) 32 = true ∧
        ((wStQ 3 [wCtx]).lane 3).stn.pick (wStQ 3 [wCtx]).laneClk 3 = some (wSOp 3 8) ∧
        ((wStQ 3 [wCtx]).lane 3).stnRefusal (wSOp 3 8) = none ∧ (∀ i ∈ c.chain, sideAlloc (((wStQ 3 [wCtx]).lane 3).sideW i) = true) ∧
        (∀ x ∈ c.cuts, x ≤ 256 * (c.chain ++ more).length ∧ (c.bounded = true → x ≤ c.outMax)) ∧ c.code = (0 : Code) ∧ c.canon = false ∧
        m.canonTile = endTile ∧ m.trace.length < 15) ∧
    (∃ r code, ((wStRun 1 (some (4113 : Code)) 0).lane 3).stn.run = some r ∧ r.refusal = some code ∧
        ((wStRun 1 (some (4113 : Code)) 0).lane 3).st ≠ 4 ∧ (wStRun 1 (some (4113 : Code)) 0).laneClk < r.startClk + 64) ∧
    (∃ r, ((wStRun 1 (some (4113 : Code)) 64).lane 3).stn.run = some r ∧ ((wStRun 1 (some (4113 : Code)) 64).lane 3).st ≠ 4 ∧
        (r.refusal = none ∨ r.startClk + 64 ≤ (wStRun 1 (some (4113 : Code)) 64).laneClk)) :=
  ⟨by decide +kernel,
    ⟨_, _, _, _, rfl, rfl, rfl, rfl, by decide +kernel⟩,
    ⟨_, _, rfl, rfl, by decide +kernel⟩,
    ⟨_, rfl, by decide +kernel⟩⟩
theorem wit_StencilRunsComplete_2 :
    (∃ r tg rd code, ((wStRun 1 (some (4113 : Code)) 64).lane 3).stn.run = some r ∧
        List.find? (fun (g : Tag) => decide (g.id = r.op.tag)) ((wStRun 1 (some (4113 : Code)) 64).lane 3).tags = some tg ∧
        ((wStRun 1 (some (4113 : Code)) 64).thr 3 tg.thr).run = ThreadRun.waitTag rd r.op.tag ∧ r.refusal = some code ∧
        ((wStRun 1 (some (4113 : Code)) 64).lane 3).st ≠ 4 ∧ rd ≠ 0 ∧ r.startClk + 64 ≤ (wStRun 1 (some (4113 : Code)) 64).laneClk) ∧
    (∃ r ts ch m k, ((wStOk (wStRun 1 none 0)).lane 3).stn.run = some r ∧
        ((wStOk (wStRun 1 none 0)).lane 3).chain (sIn r.op.desc) = some ts ∧
        ((wStOk (wStRun 1 none 0)).lane 3).chain (sOut r.op.desc) = some ch ∧
        ((wStOk (wStRun 1 none 0)).lane 3).msg (sHandle r.op.desc) = some m ∧ (wStOk (wStRun 1 none 0)).hmKey m.hm = some k ∧
        ((wStOk (wStRun 1 none 0)).lane 3).st ≠ 4 ∧ r.refusal = none ∧ sOp r.op.desc = 1 ∧ sIn2 r.op.desc = noVal ∧
        ((wStOk (wStRun 1 none 0)).lane 3).badTile ts = none ∧
        (wStOk (wStRun 1 none 0)).verifyChains ((wStOk (wStRun 1 none 0)).lane 3) m [sIn r.op.desc] = (0 : Code) ∧ m.trace.length < 15 ∧
        m.canonTile = endTile ∧ inTileMem (sCompl r.op.desc) 32 = true ∧
        (stnEval r.bin (sId r.op.desc) (sSrc r.op.desc) (sDst r.op.desc) false (((wStOk (wStRun 1 none 0)).lane 3).content ts) none (r.op.desc.le 12 2) (↑((wStOk (wStRun 1 none 0)).fullBeat m.hm.beat / 100000) : ℤ)).code = 0 ∧
        (stnEval r.bin (sId r.op.desc) (sSrc r.op.desc) (sDst r.op.desc) false (((wStOk (wStRun 1 none 0)).lane 3).content ts) none (r.op.desc.le 12 2) (↑((wStOk (wStRun 1 none 0)).fullBeat m.hm.beat / 100000) : ℤ)).canon = false ∧
        (∀ x ∈ (stnEval r.bin (sId r.op.desc) (sSrc r.op.desc) (sDst r.op.desc) false (((wStOk (wStRun 1 none 0)).lane 3).content ts) none (r.op.desc.le 12 2) (↑((wStOk (wStRun 1 none 0)).fullBeat m.hm.beat / 100000) : ℤ)).cuts,
        x ≤ 256 * ch.length ∧ x ≤ r.op.outMax)) :=
  ⟨⟨_, _, _, _, rfl, rfl, rfl, rfl, by decide +kernel⟩,
    ⟨_, _, _, _, _, rfl, rfl, rfl, rfl, rfl, by decide +kernel⟩⟩

def wHartVendor_1 : State := wHart [(6, 50)] []
def wHartVendor_3 : State := wTileRd.setLane 3 { side := wTile }
theorem wit_HartVendorOperationsComplete :
    (((wCoreR.hart 7).ready = true ∧ (wCoreR.hart 7).armed = false ∧ (wCoreR.hart 7).vendor none (some 4) (some 5) = none) ∧
      ((wHartVendor_1.hart 7).ready = true ∧ (wHartVendor_1.hart 7).armed = false ∧
          (wHartVendor_1.hart 7).vendor none (some 4) (some 5) = none ∧
          BitVec.toNat ((wHartVendor_1.hart 7).rd 6) ≤ wHartVendor_1.btm.beat) ∧
      ((wCoreR.hart 7).ready = true ∧ (wCoreR.hart 7).armed = false ∧ (wCoreR.hart 7).vendor none (some 4) (some 5) = none ∧
          wCoreR.btm.beat < BitVec.toNat ((wCoreR.hart 7).rd 6) ∧ wCoreR.takeable 7 = none ∧ wCoreR.localPend 7 = false)) ∧
    (∃ ps k,
        (wCheck.hcount 7 51).vendorRange 7 1 (BitVec.toNat ((wCheck.hart 7).rd 6)) (BitVec.toNat ((wCheck.hart 7).rd 7)) 5 = Rng.ok ps ∧
        (wCheck.hcount 7 51).hmKey (Hallmark.ofBytes ((wCheck.hcount 7 51).partsRead ps)) = some k ∧ (wCheck.hart 7).ready = true ∧
        (wCheck.hart 7).armed = false ∧ (wCheck.hart 7).vendor (some 8) (some 9) (some 10) = none ∧
        BitVec.toNat ((wCheck.hart 7).rd 6) % 8 = 0 ∧ 33 ≤ BitVec.toNat ((wCheck.hart 7).rd 7) ∧
        BitVec.toNat ((wCheck.hart 7).rd 7) ≤ 2048 ∧ (wCheck.hcount 7 51).partsBad ps = false ∧
        (wCheck.hcount 7 51).right 7 ((Hallmark.ofBytes ((wCheck.hcount 7 51).partsRead ps)).lane % 16) 2 = true ∧
        (wCheck.hcount 7 51).hmJudge (Hallmark.ofBytes ((wCheck.hcount 7 51).partsRead ps)) k (digestOf k (List.drop 32 ((wCheck.hcount 7 51).partsRead ps))) = (0,
        none)) ∧
    (∃ p0 ps ws k, (wCoreR.hcount 7 51).vendorRange 7 1 (BitVec.toNat ((wCoreR.hart 7).rd 6)) 40 7 = Rng.ok p0 ∧
        (wCoreR.hcount 7 51).vendorRange 7 1 (BitVec.toNat ((wCoreR.hart 7).rd 6)) (40 + ((wCoreR.hcount 7 51).partsRead p0).le 32 2) 7 = Rng.ok ps ∧
        (wCoreR.hcount 7 51).vendorRange 7 2 (BitVec.toNat ((wCoreR.hart 7).rd 6) + 8) 16 7 = Rng.ok ws ∧
        (wCoreR.hcount 7 51).hmKey (Hallmark.ofBytes ((wCoreR.hcount 7 51).partsRead p0)) = some k ∧ (wCoreR.hart 7).ready = true ∧
        (wCoreR.hart 7).armed = false ∧ (wCoreR.hart 7).vendor (some 8) (some 9) (some 10) = none ∧
        BitVec.toNat ((wCoreR.hart 7).rd 6) % 8 = 0 ∧ (wCoreR.hcount 7 51).partsBad p0 = false ∧
        ((wCoreR.hcount 7 51).partsRead p0).le 32 2 ≤ 2008 ∧ (Hallmark.ofBytes ((wCoreR.hcount 7 51).partsRead p0)).step ≠ 15 ∧
        (wCoreR.hcount 7 51).partsBad ps = false) ∧
    (∃ a ps, (wHartVendor_3.hcount 7 51).xlRange 7 1 (BitVec.toNat ((wHartVendor_3.hart 7).rd 6)) 256 = Rng.ok ((a, 256) :: ps) ∧
        (wHartVendor_3.hart 7).ready = true ∧ (wHartVendor_3.hart 7).armed = false ∧
        (wHartVendor_3.hart 7).vendor (some 8) (some 9) (some 10) = none ∧ BitVec.toNat ((wHartVendor_3.hart 7).rd 6) % 8 = 0 ∧
        (wHartVendor_3.hcount 7 51).region a = Region.tile ∧ a % 256 = 0 ∧ (tileSpot a).2 < 6094848 ∧
        (wHartVendor_3.hcount 7 51).right 7 (tileSpot a).1 0 = true) :=
  ⟨by decide +kernel,
    ⟨_, _, rfl, rfl, by decide +kernel⟩,
    ⟨_, _, _, _, rfl, rfl, rfl, rfl, by decide +kernel⟩,
    ⟨_, _, rfl, by decide +kernel⟩⟩
theorem wit_HartVendorOperationsComplete_2 :
    (∃ p0 ps, (wCoreR.hcount 7 49).xlRange 7 1 (BitVec.toNat ((wCoreR.hart 7).rd 6)) 64 = Rng.ok p0 ∧
        (wCoreR.hcount 7 49).xlRange 7 1 (BitVec.toNat ((wCoreR.hart 7).rd 6)) (64 * 2 ^ bits (((wCoreR.hcount 7 49).partsRead p0).le 24 8) 55 54) = Rng.ok ps ∧
        (wCoreR.hart 7).ready = true ∧ (wCoreR.hart 7).armed = false ∧ (wCoreR.hart 7).vendor (some 0) (some 1) (some 2) = none ∧
        BitVec.toNat ((wCoreR.hart 7).rd 6) % 64 = 0 ∧
        (p0.all fun (p : ℕ × ℕ) => decide ((wCoreR.hcount 7 49).region p.1 = Region.dram) && decide ((wCoreR.hcount 7 49).region (p.1 + p.2 - 1) = Region.dram)) = true ∧
        (wCoreR.hcount 7 49).partsBad p0 = false ∧ bits (((wCoreR.hcount 7 49).partsRead p0).le 24 8) 55 54 < 3 ∧
        (ps.all fun (p : ℕ × ℕ) => decide ((wCoreR.hcount 7 49).region p.1 = Region.dram) && decide ((wCoreR.hcount 7 49).region (p.1 + p.2 - 1) = Region.dram)) = true ∧
        (wCoreR.hcount 7 49).partsBad ps = false ∧ coreCheck ((wCoreR.hcount 7 49).partsRead ps) = 0 ∧ (wCoreR.ring 16).hold = 0) :=
  ⟨_, _, rfl, rfl, by decide +kernel⟩

theorem wit_HartSystemOperationsComplete :
    (((wTimer.hart 7).ready = true ∧ (wTimer.hart 7).armed = false ∧ (wTimer.hart 7).priv = 3 ∧
        bit ((wTimer.hart 7).csrV 1984) 16 = false) ∧
      ((wTimer.hart 7).ready = true ∧ (wTimer.hart 7).armed = false ∧ (wTimer.hart 7).priv = 3)) ∧
    (∃ i, vcIndex 3307 = some i ∧ (wTimer.hart 7).ready = true ∧ (wTimer.hart 7).armed = false ∧ (wTimer.hart 7).priv = 3 ∧
        countedEvents.contains i = true) ∧
    (∃ i, wTimer.takeable 7 = some i ∧ (wTimer.hart 7).run = true ∧ (wTimer.hart 7).halted = false ∧
        (wTimer.hart 7).wait = HartWait.none ∧ (wTimer.hart 7).armed = false) :=
  ⟨by decide +kernel,
    ⟨_, rfl, by decide +kernel⟩,
    ⟨_, rfl, by decide +kernel⟩⟩

def wHartInstructions_1 : State := wHart [(6,5),(7,9)] []
def wHartInstructions_2 : State := wHartX wVirt []
def wHartInstructions_3 : State := wHartX (wBreak 0) []
def wHartInstructions_4 : State := wHartX (wBreak 1) []
theorem wit_HartInstructionsComplete :
    (((wHartInstructions_1.hart 7).ready = true ∧ (wHartInstructions_1.hart 7).armed = false ∧
        Rv.op (BitVec.toNat (7537331 : W32)) = 51 ∧ Rv.f7 (BitVec.toNat (7537331 : W32)) = 0 ∧
        Rv.f3 (BitVec.toNat (7537331 : W32)) = 0 ∧ Rv.rd (BitVec.toNat (7537331 : W32)) ≠ 0) ∧
      ((wHartInstructions_1.hart 7).ready = true ∧ (wHartInstructions_1.hart 7).armed = false ∧
          Rv.op (BitVec.toNat (5440147 : W32)) = 19 ∧ Rv.f3 (BitVec.toNat (5440147 : W32)) = 0 ∧
          Rv.rd (BitVec.toNat (5440147 : W32)) ≠ 0) ∧
      ((wHartInstructions_1.hart 7).ready = true ∧ (wHartInstructions_1.hart 7).armed = false ∧ Rv.op (BitVec.toNat (879 : W32)) = 111 ∧
          isLink (Rv.rd (BitVec.toNat (879 : W32))) = false ∧ Rv.rd (BitVec.toNat (879 : W32)) ≠ 0) ∧
      ((wHartInstructions_1.hart 7).ready = true ∧ (wHartInstructions_1.hart 7).armed = false ∧ BitVec.toNat (0 : W32) % 4 ≠ 3 ∧
          Rv.expand true (BitVec.toNat (0 : W32) % 65536) = none ∧ (wHartInstructions_1.hart 7).priv = 3) ∧
      ((wHartInstructions_1.hart 7).ready = true ∧ (wHartInstructions_1.hart 7).armed = false ∧ Rv.op (BitVec.toNat (8235 : W32)) = 43 ∧
          2 ≤ Rv.f3 (BitVec.toNat (8235 : W32)) ∧ (wHartInstructions_1.hart 7).priv = 3)) ∧
    (((wHartInstructions_1.hart 7).ready = true ∧ (wHartInstructions_1.hart 7).armed = false ∧
        Rv.op (BitVec.toNat (872616691 : W32)) = 115 ∧ Rv.f3 (BitVec.toNat (872616691 : W32)) = 1 ∧
        bits (BitVec.toNat (872616691 : W32)) 31 20 = 832 ∧ Rv.rd (BitVec.toNat (872616691 : W32)) ≠ 0 ∧
        (wHartInstructions_1.hart 7).priv = 3 ∧ (wHartInstructions_1.hart 7).virt = false) ∧
      ((wHartInstructions_1.hart 7).ready = true ∧ (wHartInstructions_1.hart 7).armed = false ∧
          Rv.op (BitVec.toNat (4047512307 : W32)) = 115 ∧ Rv.f3 (BitVec.toNat (4047512307 : W32)) = 2 ∧
          Rv.rs1 (BitVec.toNat (4047512307 : W32)) = 0 ∧ bits (BitVec.toNat (4047512307 : W32)) 31 20 = 3860 ∧
          Rv.rd (BitVec.toNat (4047512307 : W32)) ≠ 0 ∧ (wHartInstructions_1.hart 7).priv = 3 ∧
          (wHartInstructions_1.hart 7).virt = false) ∧
      ((wHartInstructions_2.hart 7).ready = true ∧ (wHartInstructions_2.hart 7).armed = false ∧
          Rv.op (BitVec.toNat (1610621683 : W32)) = 115 ∧ Rv.f3 (BitVec.toNat (1610621683 : W32)) = 2 ∧
          Rv.rs1 (BitVec.toNat (1610621683 : W32)) = 0 ∧ bits (BitVec.toNat (1610621683 : W32)) 31 20 = 1536 ∧
          (wHartInstructions_2.hart 7).priv = 1 ∧ (wHartInstructions_2.hart 7).virt = true)) ∧
    (((wHartInstructions_3.hart 7).ready = true ∧ 2 < 8 ∧ (∀ k < 8, k ≠ 2 → trigType ((wHartInstructions_3.hart 7).tdata 1953 k) = 15) ∧
        trigType ((wHartInstructions_3.hart 7).tdata 1953 2) = 6 ∧ bit ((wHartInstructions_3.hart 7).tdata 1953 2) 2 = true ∧
        bits ((wHartInstructions_3.hart 7).tdata 1953 2) 10 7 = 0 ∧
        (wHartInstructions_3.hart 7).tdata 1954 2 = BitVec.toNat (wHartInstructions_3.hart 7).pc ∧
        (wHartInstructions_3.hart 7).watched ((wHartInstructions_3.hart 7).tdata 1953 2) = true ∧
        bit ((wHartInstructions_3.hart 7).csrV 1968) 2 = false ∧ trigAction ((wHartInstructions_3.hart 7).tdata 1953 2) = 0 ∧
        (wHartInstructions_3.hart 7).canBreak = true) ∧
      ((wHartInstructions_4.hart 7).ready = true ∧ 2 < 8 ∧ (∀ k < 8,
          k ≠ 2 → trigType ((wHartInstructions_4.hart 7).tdata 1953 k) = 15) ∧
          trigType ((wHartInstructions_4.hart 7).tdata 1953 2) = 6 ∧ bit ((wHartInstructions_4.hart 7).tdata 1953 2) 2 = true ∧
          bits ((wHartInstructions_4.hart 7).tdata 1953 2) 10 7 = 0 ∧
          (wHartInstructions_4.hart 7).tdata 1954 2 = BitVec.toNat (wHartInstructions_4.hart 7).pc ∧
          (wHartInstructions_4.hart 7).watched ((wHartInstructions_4.hart 7).tdata 1953 2) = true ∧
          bit ((wHartInstructions_4.hart 7).csrV 1968) 2 = false ∧ trigAction ((wHartInstructions_4.hart 7).tdata 1953 2) = 1)) :=
  ⟨by decide +kernel,
    by decide +kernel,
    by decide +kernel⟩

def wHartMemoryAccesses_1 : State := wCached [(6, BitVec.ofNat 64 dramBase)]
def wHartMemoryAccesses_3 : State := wHart [(6, BitVec.ofNat 64 dramBase)] [9,8,7,6]
def wHartMemoryAccesses_2 : State := (wCached [(6, BitVec.ofNat 64 dramBase)]).modHart 7 fun x => { x with resv := some wL0 }
theorem wit_HartMemoryAccessesComplete :
    ((wHartMemoryAccesses_1.hart 7).ready = true ∧ (wHartMemoryAccesses_1.hart 7).armed = false ∧ (wLd AccKind.load).wrongPath = false ∧
        (wLd AccKind.load).dataError = false ∧ (wLd AccKind.load).store = StoreErr.none ∧ (wLd AccKind.load).vector = false ∧
        (wLd AccKind.load).fp = false ∧ (wLd AccKind.load).size ∈ [1, 2, 4, 8] ∧
        ((↑(BitVec.toNat ((wHartMemoryAccesses_1.hart 7).rd (↑(wLd AccKind.load).rs1 : ℕ))) : ℤ) + (wLd AccKind.load).imm) % (2 : ℤ) ^ 64 % (↑(wLd AccKind.load).size : ℤ) = (0 : ℤ) ∧
        dramBase % (wLd AccKind.load).size = 0 ∧ (wLd AccKind.load).kind = AccKind.load ∧
        (wHartMemoryAccesses_1.setHart 7 { wHartMemoryAccesses_1.hart 7 with ilen := 4 }).xlRange 7 1 (((↑(BitVec.toNat ((wHartMemoryAccesses_1.hart 7).rd (↑(wLd AccKind.load).rs1 : ℕ))) : ℤ) + (wLd AccKind.load).imm) % (2 : ℤ) ^ 64).toNat (wLd AccKind.load).size = Rng.ok [(dramBase,
        (wLd AccKind.load).size)] ∧ wHartMemoryAccesses_1.region dramBase = Region.dram ∧
        wHartMemoryAccesses_1.region (dramBase + (wLd AccKind.load).size - 1) = Region.dram ∧
        wHartMemoryAccesses_1.mem.wbbuf.contains (7, dramBase / 64) = false ∧ wHartMemoryAccesses_1.mem.l2St 7 (dramBase / 64) ≠ 0 ∧
        (findLine (wHartMemoryAccesses_1.mem.l1 false 7 (dramBase / 64)) (dramBase / 64)).isSome = true ∧
        (↑(wLd AccKind.load).rd : ℕ) ≠ 0) ∧
    ((wHartMemoryAccesses_3.hart 7).ready = true ∧ (wHartMemoryAccesses_3.hart 7).armed = false ∧ (wLd AccKind.load).wrongPath = false ∧
        (wLd AccKind.load).dataError = false ∧ (wLd AccKind.load).store = StoreErr.none ∧ (wLd AccKind.load).vector = false ∧
        (wLd AccKind.load).fp = false ∧ (wLd AccKind.load).size ∈ [1, 2, 4, 8] ∧
        ((↑(BitVec.toNat ((wHartMemoryAccesses_3.hart 7).rd (↑(wLd AccKind.load).rs1 : ℕ))) : ℤ) + (wLd AccKind.load).imm) % (2 : ℤ) ^ 64 % (↑(wLd AccKind.load).size : ℤ) = (0 : ℤ) ∧
        dramBase % (wLd AccKind.load).size = 0 ∧ (wLd AccKind.load).kind = AccKind.load ∧
        (wHartMemoryAccesses_3.setHart 7 { wHartMemoryAccesses_3.hart 7 with ilen := 4 }).xlRange 7 1 (((↑(BitVec.toNat ((wHartMemoryAccesses_3.hart 7).rd (↑(wLd AccKind.load).rs1 : ℕ))) : ℤ) + (wLd AccKind.load).imm) % (2 : ℤ) ^ 64).toNat (wLd AccKind.load).size = Rng.ok [(dramBase,
        (wLd AccKind.load).size)] ∧ wHartMemoryAccesses_3.region dramBase = Region.dram ∧
        wHartMemoryAccesses_3.region (dramBase + (wLd AccKind.load).size - 1) = Region.dram ∧
        wHartMemoryAccesses_3.mem.wbbuf.contains (7, dramBase / 64) = false ∧ wHartMemoryAccesses_3.mem.l2St 7 (dramBase / 64) = 0) ∧
    ((wHartMemoryAccesses_1.hart 7).ready = true ∧ (wHartMemoryAccesses_1.hart 7).armed = false ∧
        (wLd AccKind.store).wrongPath = false ∧ (wLd AccKind.store).dataError = false ∧ (wLd AccKind.store).store = StoreErr.none ∧
        (wLd AccKind.store).vector = false ∧ (wLd AccKind.store).fp = false ∧ (wLd AccKind.store).size ∈ [1, 2, 4, 8] ∧
        ((↑(BitVec.toNat ((wHartMemoryAccesses_1.hart 7).rd (↑(wLd AccKind.store).rs1 : ℕ))) : ℤ) + (wLd AccKind.store).imm) % (2 : ℤ) ^ 64 % (↑(wLd AccKind.store).size : ℤ) = (0 : ℤ) ∧
        dramBase % (wLd AccKind.store).size = 0 ∧
        (wHartMemoryAccesses_1.setHart 7 { wHartMemoryAccesses_1.hart 7 with ilen := 4 }).xlRange 7 2 (((↑(BitVec.toNat ((wHartMemoryAccesses_1.hart 7).rd (↑(wLd AccKind.store).rs1 : ℕ))) : ℤ) + (wLd AccKind.store).imm) % (2 : ℤ) ^ 64).toNat (wLd AccKind.store).size = Rng.ok [(dramBase,
        (wLd AccKind.store).size)] ∧ wHartMemoryAccesses_1.region dramBase = Region.dram ∧
        wHartMemoryAccesses_1.region (dramBase + (wLd AccKind.store).size - 1) = Region.dram ∧
        wHartMemoryAccesses_1.mem.wbbuf.contains (7, dramBase / 64) = false ∧ 3 ≤ wHartMemoryAccesses_1.mem.l2St 7 (dramBase / 64) ∧
        (findLine (wHartMemoryAccesses_1.mem.l1 false 7 (dramBase / 64)) (dramBase / 64)).isSome = true ∧
        (wLd AccKind.store).kind = AccKind.store) ∧
    ((wHartMemoryAccesses_2.hart 7).ready = true ∧ (wHartMemoryAccesses_2.hart 7).armed = false ∧ (wLd AccKind.sc).wrongPath = false ∧
        (wLd AccKind.sc).dataError = false ∧ (wLd AccKind.sc).store = StoreErr.none ∧ (wLd AccKind.sc).vector = false ∧
        (wLd AccKind.sc).fp = false ∧ (wLd AccKind.sc).size ∈ [1, 2, 4, 8] ∧
        ((↑(BitVec.toNat ((wHartMemoryAccesses_2.hart 7).rd (↑(wLd AccKind.sc).rs1 : ℕ))) : ℤ) + (wLd AccKind.sc).imm) % (2 : ℤ) ^ 64 % (↑(wLd AccKind.sc).size : ℤ) = (0 : ℤ) ∧
        dramBase % (wLd AccKind.sc).size = 0 ∧
        (wHartMemoryAccesses_2.setHart 7 { wHartMemoryAccesses_2.hart 7 with ilen := 4 }).xlRange 7 2 (((↑(BitVec.toNat ((wHartMemoryAccesses_2.hart 7).rd (↑(wLd AccKind.sc).rs1 : ℕ))) : ℤ) + (wLd AccKind.sc).imm) % (2 : ℤ) ^ 64).toNat (wLd AccKind.sc).size = Rng.ok [(dramBase,
        (wLd AccKind.sc).size)] ∧ wHartMemoryAccesses_2.region dramBase = Region.dram ∧
        wHartMemoryAccesses_2.region (dramBase + (wLd AccKind.sc).size - 1) = Region.dram ∧ wHartMemoryAccesses_2.mem.wbbuf.contains (7,
        dramBase / 64) = false ∧ 3 ≤ wHartMemoryAccesses_2.mem.l2St 7 (dramBase / 64) ∧
        (findLine (wHartMemoryAccesses_2.mem.l1 false 7 (dramBase / 64)) (dramBase / 64)).isSome = true ∧
        (wLd AccKind.sc).kind = AccKind.sc ∧ (wHartMemoryAccesses_2.hart 7).resv = some (dramBase / 64) ∧
        (↑(wLd AccKind.sc).rd : ℕ) ≠ 0) :=
  ⟨by decide +kernel,
    by decide +kernel,
    by decide +kernel,
    by decide +kernel⟩
theorem wit_HartMemoryAccessesComplete_2 :
    ((wHartMemoryAccesses_1.hart 7).ready = true ∧ (wHartMemoryAccesses_1.hart 7).armed = false ∧ (wLd AccKind.amo).wrongPath = false ∧
        (wLd AccKind.amo).dataError = false ∧ (wLd AccKind.amo).store = StoreErr.none ∧ (wLd AccKind.amo).vector = false ∧
        (wLd AccKind.amo).fp = false ∧ (wLd AccKind.amo).size ∈ [1, 2, 4, 8] ∧
        ((↑(BitVec.toNat ((wHartMemoryAccesses_1.hart 7).rd (↑(wLd AccKind.amo).rs1 : ℕ))) : ℤ) + (wLd AccKind.amo).imm) % (2 : ℤ) ^ 64 % (↑(wLd AccKind.amo).size : ℤ) = (0 : ℤ) ∧
        dramBase % (wLd AccKind.amo).size = 0 ∧
        (wHartMemoryAccesses_1.setHart 7 { wHartMemoryAccesses_1.hart 7 with ilen := 4 }).xlRange 7 2 (((↑(BitVec.toNat ((wHartMemoryAccesses_1.hart 7).rd (↑(wLd AccKind.amo).rs1 : ℕ))) : ℤ) + (wLd AccKind.amo).imm) % (2 : ℤ) ^ 64).toNat (wLd AccKind.amo).size = Rng.ok [(dramBase,
        (wLd AccKind.amo).size)] ∧ wHartMemoryAccesses_1.region dramBase = Region.dram ∧
        wHartMemoryAccesses_1.region (dramBase + (wLd AccKind.amo).size - 1) = Region.dram ∧
        wHartMemoryAccesses_1.mem.wbbuf.contains (7, dramBase / 64) = false ∧ 3 ≤ wHartMemoryAccesses_1.mem.l2St 7 (dramBase / 64) ∧
        (findLine (wHartMemoryAccesses_1.mem.l1 false 7 (dramBase / 64)) (dramBase / 64)).isSome = true ∧
        (wLd AccKind.amo).kind = AccKind.amo ∧ (↑(wLd AccKind.amo).rd : ℕ) ≠ 0) ∧
    ((wHartMemoryAccesses_1.hart 7).ready = true ∧ (wHartMemoryAccesses_1.hart 7).armed = false ∧ (wLd AccKind.sc).wrongPath = false ∧
        (wLd AccKind.sc).dataError = false ∧ (wLd AccKind.sc).store = StoreErr.none ∧ (wLd AccKind.sc).vector = false ∧
        (wLd AccKind.sc).fp = false ∧ (wLd AccKind.sc).size ∈ [1, 2, 4, 8] ∧
        ((↑(BitVec.toNat ((wHartMemoryAccesses_1.hart 7).rd (↑(wLd AccKind.sc).rs1 : ℕ))) : ℤ) + (wLd AccKind.sc).imm) % (2 : ℤ) ^ 64 % (↑(wLd AccKind.sc).size : ℤ) = (0 : ℤ) ∧
        dramBase % (wLd AccKind.sc).size = 0 ∧ (wLd AccKind.sc).kind = AccKind.sc ∧
        (wHartMemoryAccesses_1.setHart 7 { wHartMemoryAccesses_1.hart 7 with ilen := 4 }).xlRange 7 2 (((↑(BitVec.toNat ((wHartMemoryAccesses_1.hart 7).rd (↑(wLd AccKind.sc).rs1 : ℕ))) : ℤ) + (wLd AccKind.sc).imm) % (2 : ℤ) ^ 64).toNat (wLd AccKind.sc).size = Rng.ok [(dramBase,
        (wLd AccKind.sc).size)] ∧ wHartMemoryAccesses_1.region dramBase = Region.dram ∧
        wHartMemoryAccesses_1.region (dramBase + (wLd AccKind.sc).size - 1) = Region.dram ∧
        (wHartMemoryAccesses_1.hart 7).resv ≠ some (dramBase / 64) ∧ (↑(wLd AccKind.sc).rd : ℕ) ≠ 0) ∧
    ((wHartMemoryAccesses_1.hart 7).ready = true ∧ (wHartMemoryAccesses_1.hart 7).armed = false ∧ (wLd AccKind.lr).wrongPath = false ∧
        (wLd AccKind.lr).dataError = false ∧ (wLd AccKind.lr).store = StoreErr.none ∧ (wLd AccKind.lr).vector = false ∧
        (wLd AccKind.lr).fp = false ∧ (wLd AccKind.lr).size ∈ [1, 2, 4, 8] ∧
        ((↑(BitVec.toNat ((wHartMemoryAccesses_1.hart 7).rd (↑(wLd AccKind.lr).rs1 : ℕ))) : ℤ) + (wLd AccKind.lr).imm) % (2 : ℤ) ^ 64 % (↑(wLd AccKind.lr).size : ℤ) = (0 : ℤ) ∧
        dramBase % (wLd AccKind.lr).size = 0 ∧ (wLd AccKind.lr).kind = AccKind.lr ∧
        (wHartMemoryAccesses_1.setHart 7 { wHartMemoryAccesses_1.hart 7 with ilen := 4 }).xlRange 7 1 (((↑(BitVec.toNat ((wHartMemoryAccesses_1.hart 7).rd (↑(wLd AccKind.lr).rs1 : ℕ))) : ℤ) + (wLd AccKind.lr).imm) % (2 : ℤ) ^ 64).toNat (wLd AccKind.lr).size = Rng.ok [(dramBase,
        (wLd AccKind.lr).size)] ∧ wHartMemoryAccesses_1.region dramBase = Region.dram ∧
        wHartMemoryAccesses_1.region (dramBase + (wLd AccKind.lr).size - 1) = Region.dram ∧ wHartMemoryAccesses_1.mem.wbbuf.contains (7,
        dramBase / 64) = false ∧ wHartMemoryAccesses_1.mem.l2St 7 (dramBase / 64) ≠ 0 ∧
        (findLine (wHartMemoryAccesses_1.mem.l1 false 7 (dramBase / 64)) (dramBase / 64)).isSome = true ∧
        (↑(wLd AccKind.lr).rd : ℕ) ≠ 0) ∧
    ((wTileRd.hart 7).ready = true ∧ (wTileRd.hart 7).armed = false ∧ (wLd AccKind.load).wrongPath = false ∧
        (wLd AccKind.load).dataError = false ∧ (wLd AccKind.load).store = StoreErr.none ∧ (wLd AccKind.load).vector = false ∧
        (wLd AccKind.load).fp = false ∧ (wLd AccKind.load).size ∈ [1, 2, 4, 8] ∧
        ((↑(BitVec.toNat ((wTileRd.hart 7).rd (↑(wLd AccKind.load).rs1 : ℕ))) : ℤ) + (wLd AccKind.load).imm) % (2 : ℤ) ^ 64 % (↑(wLd AccKind.load).size : ℤ) = (0 : ℤ) ∧
        (536870912 + 3 * 8388608 + 512) % (wLd AccKind.load).size = 0 ∧ wTileRd.region (536870912 + 3 * 8388608 + 512) = Region.tile ∧
        wTileRd.region (536870912 + 3 * 8388608 + 512 + (wLd AccKind.load).size - 1) = Region.tile ∧
        (tileSpot (536870912 + 3 * 8388608 + 512)).2 + (wLd AccKind.load).size ≤ 6094848 ∧ (wLd AccKind.load).kind = AccKind.load ∧
        (wTileRd.setHart 7 { wTileRd.hart 7 with ilen := 4 }).xlRange 7 1 (((↑(BitVec.toNat ((wTileRd.hart 7).rd (↑(wLd AccKind.load).rs1 : ℕ))) : ℤ) + (wLd AccKind.load).imm) % (2 : ℤ) ^ 64).toNat (wLd AccKind.load).size = Rng.ok [(536870912 + 3 * 8388608 + 512,
        (wLd AccKind.load).size)] ∧ wTileRd.right 7 (tileSpot (536870912 + 3 * 8388608 + 512)).1 0 = true ∧
        (wLd AccKind.load).signed = false ∧ (↑(wLd AccKind.load).rd : ℕ) ≠ 0) :=
  ⟨by decide +kernel,
    by decide +kernel,
    by decide +kernel,
    by decide +kernel⟩
theorem wit_HartMemoryAccessesComplete_3 :
    (wTileRd.hart 7).ready = true ∧ (wTileRd.hart 7).armed = false ∧ (wLd AccKind.store).wrongPath = false ∧
        (wLd AccKind.store).dataError = false ∧ (wLd AccKind.store).store = StoreErr.none ∧ (wLd AccKind.store).vector = false ∧
        (wLd AccKind.store).fp = false ∧ (wLd AccKind.store).size ∈ [1, 2, 4, 8] ∧
        ((↑(BitVec.toNat ((wTileRd.hart 7).rd (↑(wLd AccKind.store).rs1 : ℕ))) : ℤ) + (wLd AccKind.store).imm) % (2 : ℤ) ^ 64 % (↑(wLd AccKind.store).size : ℤ) = (0 : ℤ) ∧
        (536870912 + 3 * 8388608 + 512) % (wLd AccKind.store).size = 0 ∧ wTileRd.region (536870912 + 3 * 8388608 + 512) = Region.tile ∧
        wTileRd.region (536870912 + 3 * 8388608 + 512 + (wLd AccKind.store).size - 1) = Region.tile ∧
        (tileSpot (536870912 + 3 * 8388608 + 512)).2 + (wLd AccKind.store).size ≤ 6094848 ∧ (wLd AccKind.store).kind = AccKind.store ∧
        (wTileRd.setHart 7 { wTileRd.hart 7 with ilen := 4 }).xlRange 7 2 (((↑(BitVec.toNat ((wTileRd.hart 7).rd (↑(wLd AccKind.store).rs1 : ℕ))) : ℤ) + (wLd AccKind.store).imm) % (2 : ℤ) ^ 64).toNat (wLd AccKind.store).size = Rng.ok [(536870912 + 3 * 8388608 + 512,
        (wLd AccKind.store).size)] ∧ wTileRd.right 7 (tileSpot (536870912 + 3 * 8388608 + 512)).1 1 = true :=
  by decide +kernel

theorem wit_LineStoreFrame :
    (3 + [(1 : Byte), (2 : Byte)].length ≤ 64 ∧ 0 < [(1 : Byte), (2 : Byte)].length) ∧
      (3 + [(1 : Byte), (2 : Byte)].length ≤ 64 ∧ (0 < wL0 * 64 + 3 ∨ wL0 * 64 + 3 + [(1 : Byte), (2 : Byte)].length ≤ 0)) :=
  by decide +kernel

theorem wit_CacheOperationsComplete :
    (∃ l, dramBase / 64 = l ∧ ((wCached [(6, BitVec.ofNat 64 dramBase)]).hart 7).ready = true ∧ ((wCached [(6,
        BitVec.ofNat 64 dramBase)]).hart 7).armed = false ∧ ((wCached [(6, BitVec.ofNat 64 dramBase)]).hart 7).priv = 3 ∧ (wCached [(6,
        BitVec.ofNat 64 dramBase)]).cboLine 7 (BitVec.toNat (((wCached [(6,
        BitVec.ofNat 64 dramBase)]).hart 7).rd 6)) false = Rng.ok [(dramBase, 1)] ∧ SMap.find l (wCached [(6,
        BitVec.ofNat 64 dramBase)]).mem.dirty = none ∧ ((wCached [(6,
        BitVec.ofNat 64 dramBase)]).mem.evbuf.any fun (p : ℕ × ℕ) => decide (p.2 = l)) = false ∧ ((wCached [(6,
        BitVec.ofNat 64 dramBase)]).mem.fills.any fun (f : Fill) => decide (f.hart = 7) && decide (f.line = l)) = false) ∧
    (∃ l, dramBase / 64 = l ∧ ((wCached [(6, BitVec.ofNat 64 dramBase)]).hart 7).ready = true ∧ ((wCached [(6,
        BitVec.ofNat 64 dramBase)]).hart 7).armed = false ∧ ((wCached [(6, BitVec.ofNat 64 dramBase)]).hart 7).priv = 3 ∧ (wCached [(6,
        BitVec.ofNat 64 dramBase)]).cboLine 7 (BitVec.toNat (((wCached [(6,
        BitVec.ofNat 64 dramBase)]).hart 7).rd 6) / 64 * 64) true = Rng.ok [(dramBase, 1)]) ∧
    (∃ l w, dramBase / 64 = l ∧ victim ((wSlice none).mem.l2Set 7 l) (List.range 16) = some (w, none) ∧
        ((wSlice none).hart 7).ready = true ∧ ((wSlice none).hart 7).armed = false ∧ ((wSlice none).hart 7).priv = 3 ∧
        (wSlice none).region (l * 64) = Region.dram ∧
        List.find? (fun (f : Fill) => decide (f.hart = 7) && decide (f.line = l)) (wSlice none).mem.fills = none ∧
        (wSlice none).linePoisoned l = false ∧ findLine ((wSlice none).mem.l2Set 7 l) l = none ∧ (∀ k ∈ (wSlice none).mem.holders l,
        (wSlice none).mem.l2St k l ≠ 4)) ∧
    (∃ va l f a w w1, (wFill.hart 7).wait = HartWait.line va ∧ va / 64 = l ∧
        List.find? (fun (f : Fill) => decide (f.hart = 7) && decide (f.line = l)) wFill.mem.fills = some f ∧ f.acc = some a ∧
        victim (wFill.mem.l2Set 7 l) (List.range 16) = some (w, none) ∧ victim (wFill.mem.l1 false 7 l) (List.range 8) = some (w1,
        none) ∧ f.own = false ∧ f.insn = false ∧
        (((↑(BitVec.toNat ((wFill.hart 7).rd (↑a.rs1 : ℕ))) : ℤ) + a.imm) % (2 : ℤ) ^ 64).toNat = va ∧ (wFill.hart 7).priv = 3 ∧
        (wFill.hart 7).virt = false ∧ bit ((wFill.hart 7).csrV 768) 17 = false ∧
        (wFill.hart 7).pmpOk 3 (((↑(BitVec.toNat ((wFill.hart 7).rd (↑a.rs1 : ℕ))) : ℤ) + a.imm) % (2 : ℤ) ^ 64).toNat 1 = true ∧
        a.kind = AccKind.load ∧ a.wrongPath = false ∧ a.vector = false ∧ a.fp = false ∧ (↑a.rd : ℕ) ≠ 0 ∧ a.size ∈ [1, 2, 4, 8] ∧
        ((↑(BitVec.toNat ((wFill.hart 7).rd (↑a.rs1 : ℕ))) : ℤ) + a.imm) % (2 : ℤ) ^ 64 % (↑a.size : ℤ) = (0 : ℤ) ∧
        wFill.region (l * 64) = Region.dram ∧
        wFill.region (((↑(BitVec.toNat ((wFill.hart 7).rd (↑a.rs1 : ℕ))) : ℤ) + a.imm) % (2 : ℤ) ^ 64).toNat = Region.dram ∧
        wFill.region ((((↑(BitVec.toNat ((wFill.hart 7).rd (↑a.rs1 : ℕ))) : ℤ) + a.imm) % (2 : ℤ) ^ 64).toNat + a.size - 1) = Region.dram ∧
        (∀ k ∈ wFill.mem.holders l, wFill.mem.l2St k l ≠ 4) ∧ wFill.linePoisoned l = false ∧ wFill.mem.wbbuf.contains (7, l) = false ∧
        findLine (wFill.mem.l2Set 7 l) l = none ∧ findLine (wFill.mem.l1 false 7 l) l = none) :=
  ⟨⟨_, rfl, by decide +kernel⟩,
    ⟨_, rfl, by decide +kernel⟩,
    ⟨_, _, rfl, rfl, by decide +kernel⟩,
    ⟨_, _, _, _, _, _, rfl, rfl, rfl, rfl, rfl, rfl, by decide +kernel⟩⟩
theorem wit_CacheOperationsComplete_2 :
    ((wSlice none).region (wL0 * 64) = Region.dram ∧ (wSlice none).mem.holders wL0 = [] ∧
        (findLine ((wSlice none).mem.l3Set wL0) wL0).isSome = true) ∧
      ((wSlice (some 0)).region (wL0 * 64) = Region.dram ∧ (wSlice (some 0)).mem.evbuf.contains (0, wL0) = true) ∧
      (wCboWait.region (wL0 * 64) = Region.dram ∧ sliceOf wL0 = (↑(Fin.ofNat 128 (sliceOf wL0)) : ℕ) ∧
          wCboWait.mem.evbuf.contains ((↑(Fin.ofNat 128 (sliceOf wL0)) : ℕ), wL0) = false ∧ wCboWait.mem.cbo = [(7, wL0)] ∧
          (wCboWait.hart 7).wait = HartWait.cbo 1 wL0) :=
  by decide +kernel

def wDebug_1 : State := wDebug (wH [])
def wDebug_2 : State := wDebug {wH [] with halted := true}
def wDebug_3 : State := (wHart [] [])
theorem wit_DebugOperationsComplete :
    ((wDebug_1.str.unlockHarts.contains 7 = true ∧ (wDebug_1.hart 7).run = true ∧ (wDebug_1.hart 7).halted = false ∧
        (wDebug_1.hart 7).wait = HartWait.none ∧ SMap.get 0 7 wDebug_1.pwr.haltGrp = 0) ∧
      (wDebug_2.str.unlockHarts.contains 7 = true ∧ (wDebug_2.hart 7).halted = true) ∧
      (wDebug_2.str.unlockHarts.contains 7 = true ∧ (wDebug_2.hart 7).halted = true ∧ 4097 ≤ 4101 ∧ 4101 < 4128) ∧
      (wDebug_3.str.unlockHarts.contains 7 = false) ∧
      (wDebug_1.str.unlockSysbus = false)) ∧
    (wDebug_1.str.unlockExpiry ≤ wDebug_1.epoch ∧ wDebug_1.str.unlockHarts ≠ []) :=
  ⟨by decide +kernel,
    by decide +kernel⟩

def wMemoryControllerRequests_1 : State := wDmc wD
def wMemoryControllerRequests_2 : State := wDmcM wD [] [(wL5, ())]
def wMemoryControllerRequests_4 : State := wDmcM {wD with owed := [(0,2)], nq := [(5,[7,9])]} [wW] [(wL5, ())]
def wMemoryControllerRequests_3 : State := wDmc {wD with st := 5}
def wMemoryControllerRequests_5 : State := wDmc {wD with owed := [(0,8),(1,8),(2,8),(3,8)]}
theorem wit_MemoryControllerRequestsComplete :
    (∃ b, wMemoryControllerRequests_1.decodeAt 2 5 wClean = Decoded.clean b ∧
        ((wMemoryControllerRequests_1.dmc 2).st = 2 ∨ (wMemoryControllerRequests_1.dmc 2).st = 3) ∧
        (wMemoryControllerRequests_1.dmc 2).listed 5 = false ∧ (∀ w ∈ wMemoryControllerRequests_1.mem.wq,
        w.line ≠ wMemoryControllerRequests_1.mem.lineAt 2 5)) :=
  ⟨wBytes5, (decodeAt_of (by decide +kernel) (by decide +kernel)).trans test_line_clean, by decide +kernel⟩
theorem wit_MemoryControllerRequestsComplete_2 :
    (∃ dev syms b, wMemoryControllerRequests_1.decodeAt 2 5 wOneDev = Decoded.corrected dev syms b ∧
        ((wMemoryControllerRequests_1.dmc 2).st = 2 ∨ (wMemoryControllerRequests_1.dmc 2).st = 3) ∧
        (wMemoryControllerRequests_1.dmc 2).listed 5 = false ∧ (∀ w ∈ wMemoryControllerRequests_1.mem.wq,
        w.line ≠ wMemoryControllerRequests_1.mem.lineAt 2 5)) :=
  ⟨0, 1, wBytes5, (decodeAt_of (by decide +kernel) (by decide +kernel)).trans test_line_corrected, by decide +kernel⟩
theorem wit_MemoryControllerRequestsComplete_3 :
    ((wMemoryControllerRequests_2.dmc 2).st = 2 ∨ (wMemoryControllerRequests_2.dmc 2).st = 3) ∧
        (wMemoryControllerRequests_2.dmc 2).listed 5 = false ∧ (∀ w ∈ wMemoryControllerRequests_2.mem.wq,
        w.line ≠ wMemoryControllerRequests_2.mem.lineAt 2 5) ∧ wMemoryControllerRequests_2.decodeAt 2 5 wClean = Decoded.poisoned :=
  by decide +kernel
theorem wit_MemoryControllerRequestsComplete_4 :
    ((wMemoryControllerRequests_1.dmc 2).st = 2 ∨ (wMemoryControllerRequests_1.dmc 2).st = 3) ∧
        (wMemoryControllerRequests_1.dmc 2).listed 5 = false ∧ (∀ w ∈ wMemoryControllerRequests_1.mem.wq,
        w.line ≠ wMemoryControllerRequests_1.mem.lineAt 2 5) ∧
        wMemoryControllerRequests_1.decodeAt 2 5 wTwoDev = Decoded.uncorrectable :=
  ⟨by decide +kernel, by decide +kernel, by decide +kernel,
      (decodeAt_of (by decide +kernel) (by decide +kernel)).trans test_line_uncorrectable⟩
theorem wit_MemoryControllerRequestsComplete_5 :
    (∃ w b,
        List.find? (fun (w : WEntry) => decide (w.line = wMemoryControllerRequests_4.mem.lineAt 2 5)) wMemoryControllerRequests_4.mem.wq = some w ∧
        (wMemoryControllerRequests_4.issueWrite w).decodeAt 2 5 wClean = Decoded.clean b ∧
        ((wMemoryControllerRequests_4.dmc 2).st = 2 ∨ (wMemoryControllerRequests_4.dmc 2).st = 3) ∧
        (wMemoryControllerRequests_4.dmc 2).listed 5 = false) :=
  ⟨wW, [1, 2, 3] ++ Bytes.zeros 61, by decide +kernel⟩
theorem wit_MemoryControllerRequestsComplete_6 :
    (wMemoryControllerRequests_3.dmc 2).st = 5 :=
  by decide +kernel
theorem wit_MemoryControllerRequestsComplete_7 :
    ((wMemoryControllerRequests_1.dmc 2).st = 2 ∨ (wMemoryControllerRequests_1.dmc 2).st = 3 ∨ (wMemoryControllerRequests_1.dmc 2).st = 4) ∧
        wMemoryControllerRequests_1.mem.wcount 2 < 64 ∧
        wMemoryControllerRequests_1.mem.place (wMemoryControllerRequests_1.mem.lineAt 2 5) = (2, 5) :=
  by decide +kernel
theorem wit_MemoryControllerRequestsComplete_8 :
    (∃ w, wMemoryControllerRequests_4.nextWrite 2 = some w ∧
        ((wMemoryControllerRequests_4.dmc 2).st = 2 ∨ (wMemoryControllerRequests_4.dmc 2).st = 3)) :=
  ⟨_, rfl, by decide +kernel⟩
theorem wit_MemoryControllerRequestsComplete_9 :
    ((wMemoryControllerRequests_1.dmc 2).st = 2 ∨ (wMemoryControllerRequests_1.dmc 2).st = 3) ∧
        0 < (wMemoryControllerRequests_1.dmc 2).dimms * (wMemoryControllerRequests_1.dmc 2).ranks :=
  by decide +kernel
theorem wit_MemoryControllerRequestsComplete_10 :
    ((wMemoryControllerRequests_1.dmc 2).st = 2 ∨ (wMemoryControllerRequests_1.dmc 2).st = 3) ∧
        0 < (wMemoryControllerRequests_1.dmc 2).dimms * (wMemoryControllerRequests_1.dmc 2).ranks ∧
        bit (wMemoryControllerRequests_1.reg (dmcBase 2)) 1 = false ∧ SMap.get 0 0 (wMemoryControllerRequests_1.dmc 2).owed < 8 :=
  by decide +kernel
theorem wit_MemoryControllerRequestsComplete_11 :
    ((wMemoryControllerRequests_5.dmc 2).st = 2 ∨ (wMemoryControllerRequests_5.dmc 2).st = 3) ∧
        0 < (wMemoryControllerRequests_5.dmc 2).dimms * (wMemoryControllerRequests_5.dmc 2).ranks ∧
        SMap.get 0 0 (wMemoryControllerRequests_5.dmc 2).owed = 8 :=
  by decide +kernel
theorem wit_MemoryControllerRequestsComplete_12 :
    (wMemoryControllerRequests_1.dmc 2).st ≥ 2 :=
  by decide +kernel
theorem wit_MemoryControllerRequestsComplete_13 :
    (∃ r q, SMap.get [] 5 (wMemoryControllerRequests_4.dmc 2).nq = r :: q) :=
  ⟨_, _, rfl⟩
theorem wit_MemoryControllerRequestsComplete_14 :
    3 < 256 :=
  by decide +kernel

def wMemoryControllerTrainingComplete_1 : State := wDmc wD
def wMemoryControllerTrainingComplete_2 : State := wDmc {wD with pass := true}
def wMemoryControllerTrainingComplete_3 : State := wDmc {wD with pass := true, deferred := some 1}
def wMemoryControllerTrainingComplete_4 : State := wDmc {wD with st := 3, errs := 65536}
def wMemoryControllerTrainingComplete_5 : State := wDmc {wD with st := 4, busy := true, target := 1}
def wMemoryControllerTrainingComplete_6 : State := wScrub wD
def wMemoryControllerTrainingComplete_7 : State := wScrub {wD with scrub := some wClean, scrubPos := 5}
def wMemoryControllerTrainingComplete_8 : State := wScrub {wD with scrub := some wOneDev, scrubPos := 5}
def wMemoryControllerTrainingComplete_9 : State := wScrub {wD with scrub := some wTwoDev, scrubPos := 5}
def wMemoryControllerTrainingComplete_10 : State := { wDmc wD with laneClk := 256 * 5760000000000 }
theorem wit_MemoryControllerTrainingCompletes :
    ((wMemoryControllerTrainingComplete_1.dmc 2).st = 2 ∨ (wMemoryControllerTrainingComplete_1.dmc 2).st = 3) ∧
        (wMemoryControllerTrainingComplete_1.dmc 2).pass = false ∧ 3 < 256 :=
  by decide +kernel
theorem wit_MemoryControllerTrainingCompletes_2 :
    ((wMemoryControllerTrainingComplete_1.dmc 2).st = 2 ∨ (wMemoryControllerTrainingComplete_1.dmc 2).st = 3) ∧
        (wMemoryControllerTrainingComplete_1.dmc 2).pass = false ∧
        (PassCause.request = PassCause.drift → wMemoryControllerTrainingComplete_1.drifted 2 = true) ∧
        (PassCause.request = PassCause.interval → wMemoryControllerTrainingComplete_1.passDue 2 = true) :=
  by decide +kernel
theorem wit_MemoryControllerTrainingCompletes_3 :
    (wMemoryControllerTrainingComplete_2.dmc 2).pass = true ∧ (wMemoryControllerTrainingComplete_2.dmc 2).deferred = none :=
  by decide +kernel
theorem wit_MemoryControllerTrainingCompletes_4 :
    (∃ t, (wMemoryControllerTrainingComplete_3.dmc 2).deferred = some t ∧ (wMemoryControllerTrainingComplete_3.dmc 2).pass = true ∧
        ((wMemoryControllerTrainingComplete_3.dmc 2).tsets.getD t (0, false, false)).2.1 = true ∧
        ratePermitted (wMemoryControllerTrainingComplete_3.dmc 2).dimms (wMemoryControllerTrainingComplete_3.dmc 2).rateMax ((wMemoryControllerTrainingComplete_3.dmc 2).tsets.getD t (0,
        false, false)).1 = true) :=
  ⟨_, rfl, by decide +kernel⟩
theorem wit_MemoryControllerTrainingCompletes_5 :
    ((wMemoryControllerTrainingComplete_1.dmc 2).st ≠ 3 ∨ (wMemoryControllerTrainingComplete_1.dmc 2).errs < max 1 (bits (wMemoryControllerTrainingComplete_1.reg (dmcBase 2 + 96)) 31 16)) :=
  by decide +kernel
theorem wit_MemoryControllerTrainingCompletes_6 :
    (wMemoryControllerTrainingComplete_4.dmc 2).st = 3 ∧
        (wMemoryControllerTrainingComplete_4.dmc 2).errs ≥ max 1 (bits (wMemoryControllerTrainingComplete_4.reg (dmcBase 2 + 96)) 31 16) :=
  by decide +kernel
theorem wit_MemoryControllerTrainingCompletes_7 :
    3 < 256 ∧ ((wMemoryControllerTrainingComplete_1.dmc 2).st = 2 ∨ (wMemoryControllerTrainingComplete_1.dmc 2).st = 3) ∧
        (wMemoryControllerTrainingComplete_1.dmc 2).busy = false ∧ (wMemoryControllerTrainingComplete_1.dmc 2).pass = false ∧
        ((wMemoryControllerTrainingComplete_1.dmc 2).tsets.getD (BitVec.toNat (0 : W32) % 4) (0, false, false)).2.1 = true ∧
        ratePermitted (wMemoryControllerTrainingComplete_1.dmc 2).dimms (wMemoryControllerTrainingComplete_1.dmc 2).rateMax ((wMemoryControllerTrainingComplete_1.dmc 2).tsets.getD (BitVec.toNat (0 : W32) % 4) (0,
        false, false)).1 = true :=
  by decide +kernel
theorem wit_MemoryControllerTrainingCompletes_8 :
    3 < 256 ∧ ((wMemoryControllerTrainingComplete_1.dmc 2).st = 2 ∨ (wMemoryControllerTrainingComplete_1.dmc 2).st = 3) ∧
        (wMemoryControllerTrainingComplete_1.dmc 2).busy = false ∧ (wMemoryControllerTrainingComplete_1.dmc 2).pass = false ∧
        ((wMemoryControllerTrainingComplete_1.dmc 2).tsets.getD (BitVec.toNat (2 : W32) % 4) (0, false, false)).2.1 = false :=
  by decide +kernel
theorem wit_MemoryControllerTrainingCompletes_9 :
    3 < 256 ∧ ((wMemoryControllerTrainingComplete_2.dmc 2).st = 2 ∨ (wMemoryControllerTrainingComplete_2.dmc 2).st = 3) ∧
        (wMemoryControllerTrainingComplete_2.dmc 2).busy = false ∧ (wMemoryControllerTrainingComplete_2.dmc 2).pass = true :=
  by decide +kernel
theorem wit_MemoryControllerTrainingCompletes_10 :
    (wMemoryControllerTrainingComplete_5.dmc 2).busy = true ∧ (wMemoryControllerTrainingComplete_5.dmc 2).rq = [] ∧
        (wMemoryControllerTrainingComplete_5.dmc 2).pass = false ∧
        ((wMemoryControllerTrainingComplete_5.dmc 2).back = 2 ∨ (wMemoryControllerTrainingComplete_5.dmc 2).back = 3) :=
  by decide +kernel
theorem wit_MemoryControllerTrainingCompletes_11 :
    bit (wMemoryControllerTrainingComplete_6.reg (dmcBase 2 + 4352)) 0 = true ∧
        ((wMemoryControllerTrainingComplete_6.dmc 2).st = 2 ∨ (wMemoryControllerTrainingComplete_6.dmc 2).st = 3) ∧
        (wMemoryControllerTrainingComplete_6.dmc 2).scrub = none ∧ (wMemoryControllerTrainingComplete_6.dmc 2).rq = [] ∧
        wMemoryControllerTrainingComplete_6.mem.wcount 2 = 0 ∧ (wMemoryControllerTrainingComplete_6.dmc 2).owed = [] ∧
        (wMemoryControllerTrainingComplete_6.dmc 2).scrubAt + 160 * max 1 (bits (wMemoryControllerTrainingComplete_6.reg (dmcBase 2 + 4352)) 15 8) ≤ wMemoryControllerTrainingComplete_6.laneClk :=
  by decide +kernel
theorem wit_MemoryControllerTrainingCompletes_12 :
    (∃ e b, (wMemoryControllerTrainingComplete_7.dmc 2).scrub = some e ∧
        wMemoryControllerTrainingComplete_7.decodeAt 2 (wMemoryControllerTrainingComplete_7.dmc 2).scrubPos e = Decoded.clean b ∧
        (wMemoryControllerTrainingComplete_7.dmc 2).listed (wMemoryControllerTrainingComplete_7.dmc 2).scrubPos = false) :=
  ⟨wClean, wBytes5, rfl, (decodeAt_of (by decide +kernel) (by decide +kernel)).trans test_line_clean, by decide +kernel⟩
theorem wit_MemoryControllerTrainingCompletes_13 :
    (∃ e dev syms b, (wMemoryControllerTrainingComplete_8.dmc 2).scrub = some e ∧
        wMemoryControllerTrainingComplete_8.decodeAt 2 (wMemoryControllerTrainingComplete_8.dmc 2).scrubPos e = Decoded.corrected dev syms b ∧
        (wMemoryControllerTrainingComplete_8.dmc 2).scrubCancel = false ∧
        (wMemoryControllerTrainingComplete_8.dmc 2).listed (wMemoryControllerTrainingComplete_8.dmc 2).scrubPos = false ∧
        (wMemoryControllerTrainingComplete_8.dmc 2).st ≠ 5 ∧
        wMemoryControllerTrainingComplete_8.mem.place (wMemoryControllerTrainingComplete_8.mem.lineAt 2 (wMemoryControllerTrainingComplete_8.dmc 2).scrubPos) = (2,
        (wMemoryControllerTrainingComplete_8.dmc 2).scrubPos) ∧
        bit (wMemoryControllerTrainingComplete_8.reg (dmcBase 2 + 4352)) 1 = true) :=
  ⟨wOneDev, 0, 1, wBytes5, rfl, (decodeAt_of (by decide +kernel) (by decide +kernel)).trans test_line_corrected, by decide +kernel⟩
theorem wit_MemoryControllerTrainingCompletes_14 :
    (∃ e, (wMemoryControllerTrainingComplete_9.dmc 2).scrub = some e ∧ (wMemoryControllerTrainingComplete_9.dmc 2).scrubCancel = false ∧
        (wMemoryControllerTrainingComplete_9.dmc 2).listed (wMemoryControllerTrainingComplete_9.dmc 2).scrubPos = false ∧
        wMemoryControllerTrainingComplete_9.decodeAt 2 (wMemoryControllerTrainingComplete_9.dmc 2).scrubPos e = Decoded.uncorrectable ∧
        (∃ i < 64, SMap.get none i (wMemoryControllerTrainingComplete_9.dmc 2).plist = none)) :=
  ⟨wTwoDev, rfl, by decide +kernel, by decide +kernel,
      (decodeAt_of (by decide +kernel) (by decide +kernel)).trans test_line_uncorrectable, by decide +kernel⟩
theorem wit_MemoryControllerTrainingCompletes_15 :
    (wMemoryControllerTrainingComplete_10.dmc 2).scrubSlow = false ∧ (wMemoryControllerTrainingComplete_10.dmc 2).st ≥ 2 ∧
        (wMemoryControllerTrainingComplete_10.dmc 2).lapClk + max 1 (bits (wMemoryControllerTrainingComplete_10.reg (dmcBase 2 + 4352)) 31 24) * 5760000000000 ≤ wMemoryControllerTrainingComplete_10.laneClk :=
  by decide +kernel

def wJournal_1 : State := wJrn 1 {wRing with waiting := [wPort]} wTwin
def wJournal_2 : State := wJrn 1 {waiting := [wPort]} wTwin
def wJournal_3 : State := wLater (wJrn 1 {wRing with recs := [wRec 7 (Bytes.zeros 64), wRec 8 (Bytes.zeros 64)], seqNext := 9, seqDone := 6} wTwin)
def wJournal_6 : State := wJrn 1 {wRing with recs := [wRec 7 (Bytes.zeros 64)]} wTwin
theorem wit_JournalOperationsComplete :
    (∃ p ps, (wJournal_1.ring 3).waiting = p :: ps ∧ (wJournal_1.ring 3).late = [] ∧ wJournal_1.sealPending = false ∧
        (wJournal_1.ring 3).accClk ≠ some wJournal_1.laneClk ∧ ((wJournal_1.ring 3).hold = 0 ∨ (wJournal_1.ring 3).hold = 2) ∧
        (wJournal_1.ring 3).fill + List.length p.bytes ≤ ringCap 3) ∧
    (∃ p ps n t h rd, (wJournal_2.ring 3).waiting = p :: ps ∧ p.src = RecSrc.thread n t h ∧
        (wJournal_2.thr n t).run = ThreadRun.waitJrn rd ∧ (wJournal_2.ring 3).late = [] ∧ wJournal_2.sealPending = false ∧
        (wJournal_2.ring 3).accClk ≠ some wJournal_2.laneClk ∧ rd ≠ 0 ∧ ((wJournal_2.ring 3).hold = 4 ∨ (wJournal_2.ring 3).hold = 5)) ∧
    (∃ x xs seq n t h rd, (wJournal_3.ring 3).recs = x :: xs ∧ x.seq = seq ∧ x.src = RecSrc.thread n t h ∧
        (wJournal_3.thr n t).run = ThreadRun.waitJrn rd ∧ wJournal_3.twin.linkUp = true ∧
        (wJournal_3.jrn.mode = 1 ∨ wJournal_3.jrn.mode = 4) ∧ x.committed = false ∧ (∀ y ∈ xs, y.seq ≠ seq ∧ y.committed = false ∧
        y.acked = false) ∧ rd ≠ 0) ∧
    (∃ x, List.find? (fun (y : Rec) => decide (y.seq = 7 ∧ (!y.committed) = true ∧
        (!y.acked) = true)) (wJournal_6.ring 3).recs = some x ∧ wJournal_6.twin.linkUp = true ∧ (∀ y ∈ (wJournal_6.ring 3).recs,
        wJournal_6.laneClk < y.sentClk + 80)) :=
  ⟨⟨_, _, rfl, by decide +kernel⟩,
    ⟨_, _, _, _, _, _, rfl, rfl, rfl, by decide +kernel⟩,
    ⟨_, _, _, _, _, _, _, rfl, rfl, rfl, rfl, by decide +kernel⟩,
    ⟨_, rfl, by decide +kernel⟩⟩

def wDrain_1 : State := wDrain wSealed wTwin
def wDrain_3 : State := wDrain {wRing with resync := true, recs := [wCommitted, wRec 8 (Bytes.zeros 64)], seqNext := 9} {wTwin with pair := 3}
def xPeerRing_181 : PeerRing := { committed := [(7, Bytes.zeros 64)], held := [], next := 8, prevD := [], copies := [], mine := [] }
theorem wit_DrainOperationsComplete :
    (∃ e es area, (wDrain_1.ring 3).drainEpochs = e :: es ∧ wDrain_1.drainArea 3 = some area ∧ (wDrain_1.ring 3).closing = false ∧
        (wDrain_1.ring 3).late = [] ∧ bit (wDrain_1.reg jrnBase) 0 = false ∧
        ((wDrain_1.ring 3).recs.any fun (x : Rec) => x.committed && decide (x.bytes.le 21 1 = 3) && decide (x.bytes.le 32 8 = e + 1)) = true ∧
        (∀ x ∈ (wDrain_1.ring 3).recs, x.epoch ≤ e → x.committed = true) ∧
        (wDrain_1.reg (ringReg 3 36) + 2 ^ 32 - wDrain_1.reg (ringReg 3 40)) % 2 ^ 32 + (List.foldl (fun (a : List Byte) (x : Rec) => a ++ x.bytes) [] (List.filter (fun (x : Rec) => decide (x.epoch ≤ e)) (wDrain_1.ring 3).recs)).length / 64 ≤ area) ∧
    (((wDrain_1.reg (ringReg 3 36) + 2 ^ 32 - BitVec.toNat (0 : W32)) % 2 ^ 32 ≤ (wDrain_1.reg (ringReg 3 36) + 2 ^ 32 - wDrain_1.reg (ringReg 3 40)) % 2 ^ 32) ∧
      (¬(wDrain_1.reg (ringReg 3 36) + 2 ^ 32 - BitVec.toNat (5 : W32)) % 2 ^ 32 ≤ (wDrain_1.reg (ringReg 3 36) + 2 ^ 32 - wDrain_1.reg (ringReg 3 40)) % 2 ^ 32) ∧
      (wDrain_1.twin.linkUp = true ∧ (wFrame 4 31 0 (Bytes.zeros 32)).hdrOk = true ∧ (wFrame 4 31 0 (Bytes.zeros 32)).good 4 = true ∧
          wDrain_1.twin.txStore = []) ∧
      ((wDrain_3.twin.pair = 3 ∨ wDrain_3.twin.pair = 4) ∧ (wDrain_3.ring 3).resync = true ∧ (wDrain_3.ring 3).online = true ∧
          (wDrain_3.ring 3).release = 0 ∧ (∀ x ∈ (wDrain_3.ring 3).recs, x.committed = true → (xPeerRing_181.committed.contains (x.seq,
          x.bytes) || xPeerRing_181.held.contains (x.seq, x.bytes) || xPeerRing_181.copies.contains (x.seq, x.bytes)) = true) ∧
          (∀ x ∈ (wDrain_3.ring 3).recs, x.seq < (wDrain_3.ring 3).seqNext ∧ ∀ y ∈ (wDrain_3.ring 3).recs, y.seq = x.seq → y = x))) :=
  ⟨⟨_, _, _, rfl, rfl, by decide +kernel⟩,
    by decide +kernel⟩

def wMirrorLink_2 : State := wFab {wTwin with linkUp := false}
def wMirrorLink_1 : State := wFab {wTwin with pair := 2}
def wMirrorLink_4 : State := wFab {wTwin with beatMiss := 3, lease := true}
def xLinkFrame_192 : LinkFrame := {bytes := []}
def wMirrorLink_5 : State := wJrn 1 {wRing with mirror := [wRec 7 (Bytes.ofNatLE 8 7 ++ Bytes.zeros 56)]} {wTwin with pair := 4, lease := true}
def wMirrorLink_6 : State := { wFab wTwin with net := { sessions := [(7, { st := 5 })] } }
def xManifest_191 : Manifest := { wMan0 (wFab {wTwin with pair := 2}) with certOk := false }
theorem wit_MirrorLinkOperationsComplete :
    ((wMirrorLink_2.twin.linkUp = false ∧ pairEn wMirrorLink_2 = true ∧ List.foldl max 0 [3] ≤ 1500 ∧ 0 ≤ 400) ∧
      (wMirrorLink_2.twin.linkUp = false ∧ pairEn wMirrorLink_2 = true ∧ (1500 < List.foldl max 0 [2000] ∨ 400 < 0)) ∧
      (wMirrorLink_2.twin.linkUp = false ∧ pairEn wMirrorLink_2 = true) ∧
      (wMirrorLink_2.twin.linkUp = false ∧ pairEn wMirrorLink_2 = true ∧ wMirrorLink_2.twin.noRetry = false) ∧
      (wMirrorLink_1.twin.linkUp = true)) ∧
    ((wMirrorLink_4.twin.linkUp = true ∧ 3 ≤ wMirrorLink_4.twin.beatMiss) ∧
      (wMirrorLink_1.twin.linkUp = true ∧ xLinkFrame_192.hdrOk = false) ∧
      (wMirrorLink_1.twin.linkUp = true ∧ wBadFrame.hdrOk = true ∧ wBadFrame.good 6 = false ∧ wMirrorLink_1.twin.txStore = []) ∧
      (wMirrorLink_1.twin.linkUp = true ∧ (wFrame 6 31 0 (Bytes.zeros 32)).hdrOk = true ∧
          (wFrame 6 31 0 (Bytes.zeros 32)).good 6 = true ∧ wMirrorLink_1.twin.txStore = []) ∧
      (wMirrorLink_5.twin.linkUp = true ∧ (wFrame 6 31 0 (Bytes.zeros 32)).hdrOk = true ∧
          (wFrame 6 31 0 (Bytes.zeros 32)).good 6 = true ∧ wMirrorLink_5.twin.txStore = [] ∧ wMirrorLink_5.twin.pair = 4)) ∧
    ((wMirrorLink_1.twin.linkUp = true ∧ (wBeatF 1000000).hdrOk = true ∧ (wBeatF 1000000).good 3 = true ∧
        wMirrorLink_1.twin.txStore = [] ∧
        ((↑wMirrorLink_1.tai : ℤ) - (↑(wMirrorLink_1.reg (twnBase + 40) / 1000) : ℤ) - (↑((wBeatF 1000000).bytes.le 20 8) : ℤ)).natAbs ≤ bits (wMirrorLink_1.reg (twnBase + 36)) 15 0 ∧
        ((↑wMirrorLink_1.tai : ℤ) - (↑(wMirrorLink_1.reg (twnBase + 40) / 1000) : ℤ) - (↑((wBeatF 1000000).bytes.le 20 8) : ℤ)).natAbs ≤ 20000) ∧
      (wMirrorLink_1.twin.linkUp = true ∧ (wBeatF 990000).hdrOk = true ∧ (wBeatF 990000).good 3 = true ∧
          wMirrorLink_1.twin.txStore = [] ∧
          bits (wMirrorLink_1.reg (twnBase + 36)) 15 0 < ((↑wMirrorLink_1.tai : ℤ) - (↑(wMirrorLink_1.reg (twnBase + 40) / 1000) : ℤ) - (↑((wBeatF 990000).bytes.le 20 8) : ℤ)).natAbs ∧
          ((↑wMirrorLink_1.tai : ℤ) - (↑(wMirrorLink_1.reg (twnBase + 40) / 1000) : ℤ) - (↑((wBeatF 990000).bytes.le 20 8) : ℤ)).natAbs ≤ 20000) ∧
      (wMirrorLink_1.twin.linkUp = true ∧ (wBeatF 10000).hdrOk = true ∧ (wBeatF 10000).good 3 = true ∧ wMirrorLink_1.twin.txStore = [] ∧
          20000 < ((↑wMirrorLink_1.tai : ℤ) - (↑(wMirrorLink_1.reg (twnBase + 40) / 1000) : ℤ) - (↑((wBeatF 10000).bytes.le 20 8) : ℤ)).natAbs) ∧
      (wMirrorLink_1.twin.linkUp = true ∧ (wFrame 5 31 0 (Bytes.zeros 32)).hdrOk = true ∧
          (wFrame 5 31 0 (Bytes.zeros 32)).good 5 = true ∧ wMirrorLink_1.twin.txStore = [])) ∧
    ((wMirrorLink_6.twin.linkUp = true ∧ (wFrame 5 31 0 (Bytes.zeros 32)).hdrOk = true ∧
        (wFrame 5 31 0 (Bytes.zeros 32)).good 5 = true ∧ wMirrorLink_6.twin.txStore = [] ∧ (wMirrorLink_6.sess 7).st = 5 ∧
        wSess6.le 2 1 ≠ 0) ∧
      (wMirrorLink_1.twin.linkUp = true ∧ (wRecF (Bytes.ofNatLE 8 7 ++ Bytes.zeros 56)).hdrOk = true ∧
          (wRecF (Bytes.ofNatLE 8 7 ++ Bytes.zeros 56)).good 1 = true ∧ wMirrorLink_1.twin.txStore = [] ∧
          (∀ x ∈ (wMirrorLink_1.ring (wRecF (Bytes.ofNatLE 8 7 ++ Bytes.zeros 56)).ring).mirror,
          x.seq ≠ (wRecF (Bytes.ofNatLE 8 7 ++ Bytes.zeros 56)).record.le 0 8))) :=
  ⟨by decide +kernel,
    by decide +kernel,
    by decide +kernel,
    by decide +kernel⟩
theorem wit_MirrorLinkOperationsComplete_2 :
    (∃ x,
        List.find? (fun (x : Rec) => decide (x.seq = (wRecF (Bytes.ofNatLE 8 7 ++ Bytes.zeros 56)).record.le 0 8)) (wMirrorLink_5.ring (wRecF (Bytes.ofNatLE 8 7 ++ Bytes.zeros 56)).ring).mirror = some x ∧
        wMirrorLink_5.twin.linkUp = true ∧ (wRecF (Bytes.ofNatLE 8 7 ++ Bytes.zeros 56)).hdrOk = true ∧
        (wRecF (Bytes.ofNatLE 8 7 ++ Bytes.zeros 56)).good 1 = true ∧ wMirrorLink_5.twin.txStore = [] ∧
        x.bytes = (wRecF (Bytes.ofNatLE 8 7 ++ Bytes.zeros 56)).record) ∧
    (∃ x,
        List.find? (fun (x : Rec) => decide (x.seq = (wRecF (Bytes.ofNatLE 8 7 ++ Bytes.zeros 55 ++ [(1 : Byte)])).record.le 0 8)) (wMirrorLink_5.ring (wRecF (Bytes.ofNatLE 8 7 ++ Bytes.zeros 55 ++ [(1 : Byte)])).ring).mirror = some x ∧
        wMirrorLink_5.twin.linkUp = true ∧ (wRecF (Bytes.ofNatLE 8 7 ++ Bytes.zeros 55 ++ [(1 : Byte)])).hdrOk = true ∧
        (wRecF (Bytes.ofNatLE 8 7 ++ Bytes.zeros 55 ++ [(1 : Byte)])).good 1 = true ∧ wMirrorLink_5.twin.txStore = [] ∧
        x.bytes ≠ (wRecF (Bytes.ofNatLE 8 7 ++ Bytes.zeros 55 ++ [(1 : Byte)])).record) ∧
    (∃ d, wMirrorLink_1.twin.dom = some d ∧ wMirrorLink_1.twin.pair = 2 ∧ (wMirrorLink_1.manifestCode d xManifest_191).1 ≠ 0) :=
  ⟨⟨_, rfl, by decide +kernel⟩,
    ⟨_, rfl, by decide +kernel⟩,
    ⟨_, rfl, by decide +kernel⟩⟩

def wLease_1 : State := wFab wTwin
def wLease_2 : State := wFab {wTwin with wLeases := [{home := 9, other := some 12, holder := some 11, until_ := 50}]}
def wLease_3 : State := wFab {wTwin with wLeases := [{home := 9, other := some 12, holder := some 12}]}
def wLease_4 : State := { wFab {wTwin with pair := 0, reqs := [{wReq 1 9 with ref := 9}]} with jrn := { mode := 3 } }
def wLease_5 : State := wFab {wTwin with takeover := .wantLease, reqs := [wReq 1 11]}
def wLease_6 : State := { wFab {wTwin with lease := true} with jrn := { mode := 2 } }
def wLease_7 : State := { wFab {wTwin with twinLease := true} with jrn := { mode := 2, rings := [(12, wRing)] } }
def wLease_8 : State := wFab {wTwin with takeover := .wantLease}
theorem wit_LeaseOperationsComplete :
    (wLease_1.rhaxCode wHdrBad false = 5142) ∧
    (wLease_1.rhaxFresh wHdr false ∧ wLease_1.leaseCode 9 wHdr.src = 0) ∧
    (wLease_2.rhaxFresh wHdr false ∧ wLease_2.leaseCode 9 wHdr.src ≠ 0) ∧
    (∃ l, wLease_3.wLease 9 = some l ∧ wLease_3.rhaxCode wHdr false = 0 ∧ l.holder = some wHdr.src) :=
  ⟨by decide +kernel,
    by unfold State.rhaxFresh; decide +kernel,
    by unfold State.rhaxFresh; decide +kernel,
    ⟨_, rfl, by decide +kernel⟩⟩
theorem wit_LeaseOperationsComplete_2 :
    (∃ r,
        List.find? (fun (q : RhaxReq) => decide (q.dst = wHdr.src) && decide (q.mseq = wHdr.mseq) && [1].contains q.type) wLease_4.twin.reqs = some r ∧
        wLease_4.rhaxCode wHdr false = 0 ∧ r.ref = 9 ∧ wLease_4.laneClk ≤ r.clk + wLease_4.leaseLen * epochCycles ∧
        9 = wLease_4.twin.deviceId) ∧
    (∃ r,
        List.find? (fun (q : RhaxReq) => decide (q.dst = wHdr.src) && decide (q.mseq = wHdr.mseq) && [1].contains q.type) wLease_5.twin.reqs = some r ∧
        wLease_5.rhaxCode wHdr false = 0 ∧ r.ref = 11 ∧ wLease_5.laneClk ≤ r.clk + wLease_5.leaseLen * epochCycles ∧
        11 ≠ wLease_5.twin.deviceId) ∧
    (∃ r,
        List.find? (fun (q : RhaxReq) => decide (q.dst = wHdr.src) && decide (q.mseq = wHdr.mseq) && [1].contains q.type) wLease_4.twin.reqs = some r ∧
        wLease_4.rhaxCode wHdr false = 0 ∧ r.ref = 9) ∧
    (∃ l x, wLease_3.wLease 9 = some l ∧ l.holder = some x ∧ l.until_ ≤ wLease_3.laneClk) :=
  ⟨⟨_, rfl, by decide +kernel⟩,
    ⟨_, rfl, by decide +kernel⟩,
    ⟨_, rfl, by decide +kernel⟩,
    ⟨_, _, rfl, rfl, by decide +kernel⟩⟩
theorem wit_LeaseOperationsComplete_3 :
    (wLease_6.twin.lease = true ∧ wLease_6.twin.leaseUntil ≤ wLease_6.laneClk) ∧
      (wLease_7.twin.twinLease = true ∧ wLease_7.twin.twinUntil ≤ wLease_7.laneClk) ∧
      (wLease_8.twin.takeover = TakeStage.wantLease ∧ takeoverEn wLease_8 = true ∧ (∀ q ∈ wLease_8.twin.reqs, ¬(q.type = 1 ∧
          q.ref = wLease_8.twin.peer)) ∧ wLease_8.btm.far = false ∧ wLease_8.witnessId ≠ noVal) :=
  by decide +kernel

def wFabric_1 : State := wF3 (wReq 0x12 9)
def wFabric_2 : State := wF5 0x20
def wFabric_3 : State := wF5 0x23
def wFabric_4 : State := wF3 (wReq 0x30 9)
def wFabric_7 : State := wFab { wTwin with takeover := .fetching, reqs := [wReq 0x20 5] }
def wFabric_6 : State := wF8 6
theorem wit_FabricOperationsComplete :
    (∃ o, witPlace (List.map (fun (c : ℕ × ℕ × ℕ × ℕ) => (c.2.2.1,
        c.2.2.2)) wF1.twin.wCopies) wF1.witArea.2 (List.length (Bytes.zeros 64)) = some o ∧ wF1.rhaxFresh wHdr false ∧
        (wF1.twin.wCopies.any fun (c : ℕ × ℕ × ℕ × ℕ) => decide (c.1 = wHdr.src) && decide (c.2.1 = 3) && decide (wF1.dramRead (wF1.witArea.1 + c.2.2.1) c.2.2.2 = Bytes.zeros 64)) = false) ∧
    (wSmall.rhaxFresh wHdr false ∧
        (wSmall.twin.wCopies.any fun (c : ℕ × ℕ × ℕ × ℕ) => decide (c.1 = wHdr.src) && decide (c.2.1 = 3) && decide (wSmall.dramRead (wSmall.witArea.1 + c.2.2.1) c.2.2.2 = Bytes.zeros 64)) = false ∧
        witPlace (List.map (fun (c : ℕ × ℕ × ℕ × ℕ) => (c.2.2.1,
        c.2.2.2)) wSmall.twin.wCopies) wSmall.witArea.2 (List.length (Bytes.zeros 64)) = none) ∧
    (wF1.rhaxFresh wHdr false) ∧
    (wF1.rhaxFresh wHdr false ∧ (∃ n < 16, (wF1.lane n).st = 2)) :=
  ⟨⟨_, rfl, by unfold State.rhaxFresh; decide +kernel⟩,
    by unfold State.rhaxFresh; decide +kernel,
    by unfold State.rhaxFresh; decide +kernel,
    by unfold State.rhaxFresh; decide +kernel⟩
theorem wit_FabricOperationsComplete_2 :
    (wSmall.rhaxFresh wHdr false ∧ (∀ n < 16, (wSmall.lane n).st ≠ 2)) ∧
    (wF1.rhaxFresh wHdr false ∧ wF1.twin.xfersIn = [wIn] ∧ (∀ y ∈ ([] : List XferIn), y.src ≠ wHdr.src) ∧ wIn.src = wHdr.src) ∧
    (∃ x xs, (wF2.ring 3).recs = x :: xs ∧ wF2.rhaxCode wHdr false = 0 ∧ wF2.jrn.mode = 2 ∧ x.committed = false ∧ x.src ≠ RecSrc.jrn ∧
        (∀ y ∈ xs, y.seq ≠ x.seq ∧ y.committed = false ∧ y.acked = false)) ∧
    (∃ r,
        List.find? (fun (q : RhaxReq) => decide (q.dst = wHdr.src) && decide (q.mseq = wHdr.mseq) && [18].contains q.type) wFabric_1.twin.reqs = some r ∧
        wFabric_1.rhaxCode wHdr false = 0 ∧ wFabric_1.twin.takeover = TakeStage.fetching) :=
  ⟨by unfold State.rhaxFresh; decide +kernel,
    by unfold State.rhaxFresh; decide +kernel,
    ⟨_, _, rfl, by decide +kernel⟩,
    ⟨_, rfl, by decide +kernel⟩⟩
theorem wit_FabricOperationsComplete_3 :
    (wF4.rhaxCode wHdr false = 0 ∧ (wF4.pairOf wHdr.src).length > 1 ∧ (∀ d ∈ wF4.pairOf wHdr.src, d = wHdr.src ∨ ∃ w ∈ wF4.twin.wDrops,
        w.1 = d)) ∧
    (∃ r m x,
        List.find? (fun (q : RhaxReq) => decide (q.dst = wHdr.src) && decide (q.mseq = wHdr.mseq) && [32].contains q.type) wFabric_2.twin.reqs = some r ∧
        (wFabric_2.lane (r.ref / 4096)).msg (r.ref % 4096) = some m ∧ m.trace.getLast? = some x ∧ wFabric_2.rhaxCode wHdr false = 0) ∧
    (∃ r, List.find? (fun (q : RhaxReq) => decide (q.dst = wHdr.src) && decide (q.mseq = wHdr.mseq) && [32,
        35].contains q.type) wFabric_2.twin.reqs = some r ∧ wFabric_2.rhaxCode wHdr false = 0) ∧
    (∃ r,
        List.find? (fun (q : RhaxReq) => decide (q.dst = wHdr.src) && decide (q.mseq = wHdr.mseq) && [35].contains q.type) wFabric_3.twin.reqs = some r ∧
        wFabric_3.rhaxCode wHdr false = 0 ∧ (∀ x ∈ wFabric_3.twin.xfersIn, x.src ≠ wHdr.src)) :=
  ⟨by decide +kernel,
    ⟨_, _, _, rfl, rfl, rfl, by decide +kernel⟩,
    ⟨_, rfl, by decide +kernel⟩,
    ⟨_, rfl, by decide +kernel⟩⟩
theorem wit_FabricOperationsComplete_4 :
    (∃ x key mk, List.find? (fun (x : XferIn) => decide (x.src = wHdr.src)) wF6.twin.xfersIn = some x ∧
        wF6.hmKey (Hallmark.ofBytes x.hallmark) = some key ∧ wF6.mintKey = some mk ∧ wF6.rhaxCode wHdr false = 0 ∧
        xferLinkOk key (Hallmark.ofBytes x.hallmark) x = true ∧ (wF6.lane 3).st = 2 ∧ (wF6.lane 3).inflight < 4096 ∧ (∃ i < 4096,
        (wF6.lane 3).msg i = none) ∧
        cdiv (List.length (x.hallmark ++ x.body)) 256 ≤ ((wF6.lane 3).freeTiles (cdiv (List.length (x.hallmark ++ x.body)) 256)).length) ∧
    (∃ r,
        List.find? (fun (q : RhaxReq) => decide (q.dst = wHdr.src) && decide (q.mseq = wHdr.mseq) && [48].contains q.type) wFabric_4.twin.reqs = some r ∧
        wFabric_4.rhaxCode wHdr false = 0) ∧
    (∃ r, List.find? (fun (q : RhaxReq) => decide (q.dst = wHdr.src) && decide (q.mseq = wHdr.mseq) && [1, 16, 18, 32, 35,
        48].contains q.type) wFabric_1.twin.reqs = some r ∧ wFabric_1.rhaxCode wHdr false = 0) ∧
    (∃ k, wF1.hmKey (Hallmark.ofBytes (Bytes.zeros 64)) = some k ∧ wF1.rhaxFresh wHdr true ∧
        List.foldl (fun (a : ℕ) (x : Bytes) => a + List.length x) 0 [] ≤ 65536) :=
  ⟨⟨_, _, _, rfl, rfl, rfl, by decide +kernel⟩,
    ⟨_, rfl, by decide +kernel⟩,
    ⟨_, rfl, by decide +kernel⟩,
    ⟨_, rfl, by unfold State.rhaxFresh; decide +kernel⟩⟩
theorem wit_FabricOperationsComplete_5 :
    (wF9.rhaxFresh wHdr true ∧ List.foldl (fun (a : ℕ) (x : Bytes) => a + List.length x) 0 [] ≤ 65536 ∧
        wF9.hmKey (Hallmark.ofBytes (Bytes.zeros 64)) = none) ∧
    (wF1.rhaxCode wHdr true = 0) ∧
    (∃ d, wF7.twin.dom = some d ∧ d.witness.getD (wF7.twin.witness + 1) noVal ≠ noVal ∧ wF7.twin.pair = 4 ∧
        wF7.twin.deviceId < wF7.twin.peer ∧ 1 = wF7.twin.witness + 1) ∧
    (∃ r, List.find? (fun (r : RhaxReq) => decide (r.dst = 12) && decide (r.mseq = 5)) wFabric_7.twin.reqs = some r ∧
        wFabric_7.laneClk < r.sent + 32000) :=
  ⟨by unfold State.rhaxFresh; decide +kernel,
    by decide +kernel,
    ⟨_, rfl, by decide +kernel⟩,
    ⟨_, rfl, by decide +kernel⟩⟩
theorem wit_FabricOperationsComplete_6 :
    (∃ r, List.find? (fun (r : RhaxReq) => decide (r.dst = 12) && decide (r.mseq = 5)) wFabric_1.twin.reqs = some r ∧ r.tries ≤ 5 ∧
        r.sent + 32000 ≤ wFabric_1.laneClk) ∧
    (∃ r, List.find? (fun (r : RhaxReq) => decide (r.dst = 12) && decide (r.mseq = 5)) wFabric_6.twin.reqs = some r ∧ 5 < r.tries ∧
        r.sent + 32000 ≤ wFabric_6.laneClk) :=
  ⟨⟨_, rfl, by decide +kernel⟩,
    ⟨_, rfl, by decide +kernel⟩⟩

def wMailbox_1 : State := wMbx 5 {}
def wMailbox_2 : State := wMbx 5 {st := 1, sender := 3}
def wMailbox_3 : State := wMbx 5 {st := 2, sender := 3}
def wMailbox_4 : State := wMbx 5 {st := 4, sender := 3, code := 3}
def wMailbox_5 : State := wMbx 5 {st := 3, sender := 3}
theorem wit_MailboxOperationsComplete :
    ((wMailbox_1.mbxRight 3 5 = true ∧ (wMailbox_1.mbx 5).st = 0 ∧ mbxMaySend 5 3 = true) ∧
      (wMailbox_2.mbxRight 3 5 = true ∧ (wMailbox_2.mbx 5).st = 1 ∧ (wMailbox_2.mbx 5).sender = 3) ∧
      (wMailbox_3.mbxRight 3 5 = true ∧ ((wMailbox_3.mbx 5).st = 1 ∧ (wMailbox_3.mbx 5).sender ≠ 3 ∨ (wMailbox_3.mbx 5).st = 2)) ∧
      (wMailbox_1.mbxRight 3 5 = true ∧ ((wMailbox_1.mbx 5).st = 0 ∧ mbxMaySend 5 3 = true ∨ (wMailbox_1.mbx 5).st = 1 ∧
          (wMailbox_1.mbx 5).sender = 3)) ∧
      (wMailbox_2.mbxRight 3 5 = true ∧ ((wMailbox_2.mbx 5).st = 1 ∨ (wMailbox_2.mbx 5).st = 2) ∧ (wMailbox_2.mbx 5).sender = 3)) ∧
    ((wMailbox_4.mbxRight 3 5 = true ∧ ((wMailbox_4.mbx 5).st = 4 ∨ (wMailbox_4.mbx 5).st = 5) ∧ (wMailbox_4.mbx 5).sender = 3) ∧
      (wMailbox_3.mbxRight 272 5 = true ∧ wMailbox_3.mbxReceiver 5 = 272 ∧ (wMailbox_3.mbx 5).st = 2 ∧ wMailbox_3.mbxNext 5 = true) ∧
      (wMailbox_3.mbxRight 272 5 = true ∧ wMailbox_3.mbxReceiver 5 = 272 ∧ BitVec.toNat (0 : BitVec 8) = (wMailbox_3.mbx 5).seq) ∧
      (wMailbox_5.mbxRight 272 5 = true ∧ wMailbox_5.mbxReceiver 5 = 272 ∧ (wMailbox_5.mbx 5).st = 3) ∧
      (wMbxTime.mbxRight 3 5 = true ∧ ((wMbxTime.mbx 5).st = 2 ∨ (wMbxTime.mbx 5).st = 3) ∧
          (wMbxTime.mbx 5).goClk + (wMbxTime.mbx 5).limit * 1600 ≤ wMbxTime.laneClk)) :=
  ⟨by decide +kernel,
    by decide +kernel⟩

theorem wit_LockAndCellarerOperationsComplete :
    ((∀ a ∈ wAgents, a.named = true) ∧ 3 ∈ wAgents ∧ (∀ a ∈ wAgents, 3 ≤ (↑a : ℕ)) ∧ wCelState.lockHolder 6 = none) ∧
    (∃ h, wCelState.lockHolder 5 = some h ∧ (∀ a ∈ wAgents, a.named = true) ∧ 3 ∈ wAgents ∧ (∀ a ∈ wAgents, 3 ≤ (↑a : ℕ))) ∧
    ((Agent.named 3 = true ∧ wCelState.lockHolder 5 = some 3) ∧
      (Agent.named 3 = true ∧ wCelState.lockHolder 6 ≠ some 3) ∧
      (1 ≠ 0) ∧
      ((∀ f ∈ wCelState.cel.frames, f.prio < 3))) :=
  ⟨by decide +kernel,
    ⟨_, rfl, by decide +kernel⟩,
    by decide +kernel⟩

def xState_243 : State := wArk {} 1
def xState_244 : State := wArk {} 2
def xState_245 : State := wArk {} 3
theorem wit_RecorderAndArchiveOperationsComplete :
    (∃ r, garPick wGar1.gar.queue = some r ∧ wGar1.gar.frozen = false ∧ wGar1.gar.freezing ≠ some 0) ∧
    ((wGar2.gar.frozen = false ∧ wGar2.gar.freezing = some 0) ∧
      (wGar3.gar.frozen = true) ∧
      (bit (xState_243.reg (arkBase 1)) 0 = true ∧ (xState_243.arkU 1).halted = false ∧ (xState_243.arkU 1).cur = none ∧
          xState_243.reg (arkBase 1 + 44) ≠ xState_243.reg (arkBase 1 + 48) ∧
          xState_243.poisoned (xState_243.reg (arkBase 1 + 32) + xState_243.reg (arkBase 1 + 36) * 2 ^ 32 + xState_243.reg (arkBase 1 + 44) * 64) 64 = false ∧
          (xState_243.dramRead (xState_243.reg (arkBase 1 + 32) + xState_243.reg (arkBase 1 + 36) * 2 ^ 32 + xState_243.reg (arkBase 1 + 44) * 64) 64).le 0 1 = 1) ∧
      (bit (xState_244.reg (arkBase 1)) 0 = true ∧ (xState_244.arkU 1).halted = false ∧ (xState_244.arkU 1).cur = none ∧
          xState_244.reg (arkBase 1 + 44) ≠ xState_244.reg (arkBase 1 + 48) ∧
          xState_244.poisoned (xState_244.reg (arkBase 1 + 32) + xState_244.reg (arkBase 1 + 36) * 2 ^ 32 + xState_244.reg (arkBase 1 + 44) * 64) 64 = false ∧
          (xState_244.dramRead (xState_244.reg (arkBase 1 + 32) + xState_244.reg (arkBase 1 + 36) * 2 ^ 32 + xState_244.reg (arkBase 1 + 44) * 64) 64).le 0 1 = 2) ∧
      (bit (xState_245.reg (arkBase 1)) 0 = true ∧ (xState_245.arkU 1).halted = false ∧ (xState_245.arkU 1).cur = none ∧
          xState_245.reg (arkBase 1 + 44) ≠ xState_245.reg (arkBase 1 + 48) ∧
          xState_245.poisoned (xState_245.reg (arkBase 1 + 32) + xState_245.reg (arkBase 1 + 36) * 2 ^ 32 + xState_245.reg (arkBase 1 + 44) * 64) 64 = false ∧
          (xState_245.dramRead (xState_245.reg (arkBase 1 + 32) + xState_245.reg (arkBase 1 + 36) * 2 ^ 32 + xState_245.reg (arkBase 1 + 44) * 64) 64).le 0 1 = 3)) ∧
    (∃ r, ((wArkOn 1 [(7 : Byte), (8 : Byte), (9 : Byte)]).arkU 1).cur = some r) ∧
    ((((wArkOn 1 [(7 : Byte), (8 : Byte), (9 : Byte)]).arkU 1).cur.isSome = true) ∧
      ((wGar1.arkU 1).cur = none)) :=
  ⟨⟨_, rfl, by decide +kernel⟩,
    by decide +kernel,
    ⟨_, rfl⟩,
    by decide +kernel⟩

def wResets_1 : State := wPwr wUp
def wResets_3 : State := wPwr {wUp with pwrgd := false, fwOk := true}
def wResets_4 : State := wPwr {wUp with released := false}
def wResets_2 : State := wPwr {wUp with warm := true, pwrgd := false}
def wResets_5 : State := wPw {wUp with pwrgd := false} 1600000
theorem wit_ResetsComplete :
    ((wResets_1.pwr.standby = true ∧ 320 ≤ 400) ∧
      (300 < 320) ∧
      (wResets_3.pwr.standby = true ∧ wResets_3.pwr.pwrgd = false ∧ wResets_3.pwr.mainOff = false ∧ wResets_3.pwr.thermTrip = false ∧
          wResets_3.pwr.fwOk = true) ∧
      (wResets_1.pwr.pwrgd = true) ∧
      (wResets_1.pwr.pwrgd = true ∧ wResets_1.pwr.mainUp = true ∧ wResets_1.pwr.warm = false ∧ wResets_1.pwr.released = true ∧
          wResets_1.mem.wq = [] ∧ wResets_1.pwr.standby = true ∧ 320 ≤ 400)) ∧
    ((wResets_1.pwr.pwrgd = true ∧ wResets_1.pwr.mainUp = true ∧ wResets_1.pwr.warm = false ∧ wResets_1.pwr.released = true ∧
        wResets_1.mem.wq = [] ∧ 3 < 256) ∧
      (wResets_4.pwr.pwrgd = true ∧ wResets_4.pwr.mainUp = true ∧ wResets_4.pwr.warm = false ∧ wResets_4.pwr.released = false ∧
          wResets_4.pwr.standby = true ∧ 320 ≤ 400) ∧
      (wResets_2.pwr.warm = true) ∧
      (3 < 256 ∧ wResets_1.pwr.released = true) ∧
      (wResets_5.pwr.pwrgd = false ∧ wResets_5.pwr.fallClk + 1600000 ≤ wResets_5.laneClk)) :=
  ⟨by decide +kernel,
    by decide +kernel⟩

def wBoot_1 : State := wBoot4 4
theorem wit_BootOperationsComplete :
    (wBoot1.cel.st = 1 ∧ wBoot1.cel.stage = none) ∧
    (∃ b act, wBoot2.cel.stage = some (b, act) ∧ wBoot2.cel.st = 1 ∧ (bundleFw b).isSome = true) ∧
    ((wBoot3.cel.st = 2) ∧
      (wBoot3.pwr.boot = 2 ∧ wBoot3.pwr.dramReady = false)) ∧
    (∃ r rs, wDimm.trained = r :: rs ∧ wBoot3.pwr.boot = 2 ∧ wBoot3.pwr.dramReady = false ∧ wDimm.dimms ≠ 0 ∧ wDimm.supported = true ∧
        ratePermitted wDimm.dimms wDimm.rateMax r = true ∧ SMap.find 0 wBoot3.cel.memRates = none) :=
  ⟨by decide +kernel,
    ⟨_, _, rfl, by decide +kernel⟩,
    by decide +kernel,
    ⟨_, _, rfl, by decide +kernel⟩⟩
theorem wit_BootOperationsComplete_2 :
    (wBoot_1.pwr.dramReady = true ∧ wBoot_1.pwr.boot = 4 ∧ (pairEn wBoot_1 = false ∨ wBoot_1.twin.pair ≥ 3 ∨ wBoot_1.twin.noRetry = true)) ∧
      (wBoot_1.pwr.dramReady = true ∧ (wBoot_1.pwr.boot = 3 ∨ wBoot_1.pwr.boot = 4) ∧
          wBoot_1.pwr.dramClk + 48000000000 ≤ wBoot_1.laneClk) :=
  by decide +kernel

def wPower_1 : State := wPwr wUp
def wPower_2 : State := wPwr {wUp with ceil := [(3,2900)], prochotOut := true}
theorem wit_PowerOperationsComplete :
    ((wPower_1.pwr.mainUp = true) ∧
      (wPower_1.pwr.mainUp = true ∧ 500 > wPower_1.tdp - 290 ∧ (∃ b < 128, wPower_1.pwr.ceilOf b > baseMhz wPower_1.tdp)) ∧
      (wPower_2.pwr.mainUp = true ∧ 0 * 100 < (wPower_2.tdp - 290) * 97 ∧ (∀ b < 128,
          baseMhz wPower_2.tdp ≤ wPower_2.pwr.ceilOf b ∨ wPower_2.pwr.held b = true) ∧ (∃ b < 128, wPower_2.pwr.ceilOf b < 3600 ∧
          wPower_2.pwr.held b = false)) ∧
      (3 < 256 ∧ 520 ≤ BitVec.toNat (600 : W32) % 1024 ∧ BitVec.toNat (600 : W32) % 1024 ≤ 760) ∧
      (3 < 256 ∧ (BitVec.toNat (100 : W32) % 1024 < 520 ∨ 760 < BitVec.toNat (100 : W32) % 1024))) ∧
    ((3 < 256 ∧ (wP3.pwr.sd = 0 ∨ wP3.pwr.sd = 2 ∨ wP3.pwr.sd = 4) ∧ (∀ n < 16,
        (wP3.lane n).st = 0 ∨ (wP3.lane n).st = 5 ∨ (wP3.lane n).st = 6)) ∧
      (3 < 256 ∧ (wPower_1.pwr.sd = 0 ∨ wPower_1.pwr.sd = 2 ∨ wPower_1.pwr.sd = 4) ∧ 3 < 16 ∧ (wPower_1.lane 3).st = 2) ∧
      (3 < 256 ∧ wP2.sdStage = 2) ∧
      (3 < 256 ∧ wPower_1.sdStage ≠ 2) ∧
      (91 ≥ 90)) ∧
    ((0 < 88) ∧
      (96 ≥ 95) ∧
      (0 < 95 ∧ wPower_2.pwr.prochotOut = true) ∧
      (wPower_1.pwr.prochotOut = false ∧ wPower_1.pwr.prochotRel ≤ wPower_1.laneClk) ∧
      (wPower_1.pwr.standby = true ∧ (96 ≥ 105 ∨ true = true ∧ 96 ≥ 95 ∧ 89 ≥ 10))) ∧
    ((wPower_1.pwr.pwrgd = true ∧ 2000 > 1000) ∧
      (wPower_1.pwr.standby = true ∧ 520 ≤ BitVec.toNat (600 : W32) % 1024 ∧ BitVec.toNat (600 : W32) % 1024 ≤ 760) ∧
      (wPower_1.pwr.standby = true) ∧
      (wPower_1.pwr.standby = true ∧ 0 ≠ 520)) :=
  ⟨by decide +kernel,
    by decide +kernel,
    by decide +kernel,
    by decide +kernel⟩

def wNetworkPort_1 : State := wNet {} {garp := [(1,2)], ptpGood := 15, ptp := 1}
def wNetworkPort_3 : State := wNet wRecl {}
def wNetworkPort_2 : State := wNet {st := 3} {}
theorem wit_NetworkPortOperationsComplete :
    (∃ x, (wNetworkPort_1.addr 1 = some x ∧ bit (wNetworkPort_1.reg (portReg 2 0)) 0 = true ∧ wNetworkPort_1.portMode 2 ≠ 0 ∧
        (wEth (FrameKind.arpRequest 1)).fecOk = true ∧ (wEth (FrameKind.arpRequest 1)).fcsOk = true ∧
        (wEth (FrameKind.arpRequest 1)).tags ≤ 1 ∧ (wEth (FrameKind.arpRequest 1)).len ≤ 9216 ∧ wNetworkPort_1.addrActive 1 = true ∧
        x.port = 2 ∧ SMap.get (0, 0) 1 wNetworkPort_1.net.echo = (0, 0) ∧ (fun (y : NetTx) => (FrameKind.arpRequest 1,
        y)) (NetTx.arpReply 1) ∈ [(FrameKind.arpRequest 1, NetTx.arpReply 1), (FrameKind.neighbourSolicit 1, NetTx.neighbourAdvert 1),
        (FrameKind.echo 1, NetTx.echoReply 1)] ∧ (wEth (FrameKind.arpRequest 1)).kind = ((fun (y : NetTx) => (FrameKind.arpRequest 1,
        y)) (NetTx.arpReply 1)).1) ∧ wNetworkPort_1.unpaused) ∧
    (∃ n, (wEth (FrameKind.pause 7)).kind = FrameKind.pause n ∧ bit (wNetworkPort_1.reg (portReg 2 0)) 0 = true ∧
        wNetworkPort_1.portMode 2 ≠ 0 ∧ (wEth (FrameKind.pause 7)).fecOk = true ∧ (wEth (FrameKind.pause 7)).fcsOk = true ∧
        (wEth (FrameKind.pause 7)).tags ≤ 1 ∧ (wEth (FrameKind.pause 7)).len ≤ 9216 ∧ wNetworkPort_1.pauseOn 2 = true) ∧
    ((bit (wNetworkPort_1.reg (portReg 2 0)) 0 = true ∧ wNetworkPort_1.portMode 2 ≠ 0 ∧ wBadFcs.fecOk = true ∧ wBadFcs.fcsOk = false) ∧
      (wNetworkPort_1.portMode 3 ≠ 0)) ∧
    (∃ a, (wNetworkPort_1.addr 1 = some a ∧ SMap.get 0 1 wNetworkPort_1.net.garp ≠ 0 ∧
        SMap.get 0 1 wNetworkPort_1.net.garpClk ≤ wNetworkPort_1.laneClk) ∧ wNetworkPort_1.unpaused) :=
  ⟨⟨_, ⟨rfl, by decide +kernel⟩, unpaused_of rfl rfl⟩,
    ⟨_, rfl, by decide +kernel⟩,
    by decide +kernel,
    ⟨_, ⟨rfl, by decide +kernel⟩, unpaused_of rfl rfl⟩⟩
theorem wit_NetworkPortOperationsComplete_2 :
    (∃ l i, wNetworkPort_3.listener 4 = some l ∧ wNetworkPort_3.reclaim 4 wConn = some i ∧ wNetworkPort_3.acceptEn = true ∧
        bit l.flags 0 = true ∧ wNetworkPort_3.addrActive l.addr = true) ∧
    (∃ l i, wNetworkPort_1.listener 4 = some l ∧
        (wNetworkPort_1.pickLane (bits l.policy 1 0) (Config.connHash wConn.remote wConn.rport) (wNetworkPort_1.lanesFor l)).bind wNetworkPort_1.freeEntry = some i ∧
        wNetworkPort_1.acceptEn = true ∧ bit l.flags 0 = true ∧ wNetworkPort_1.addrActive l.addr = true ∧
        wNetworkPort_1.reclaim 4 wConn = none ∧ l.maxSess = 0) ∧
    (∃ l, wN4.listener 4 = some l ∧ wN4.acceptEn = true ∧ bit l.flags 0 = true ∧ wN4.addrActive l.addr = true ∧
        wN4.reclaim 4 wConn = none ∧
        (wN4.pickLane (bits l.policy 1 0) (Config.connHash wConn.remote wConn.rport) (wN4.lanesFor l)).bind wN4.freeEntry = none) ∧
    (∃ l, (wNetworkPort_1.listener 4 = some l ∧ wNetworkPort_1.acceptEn = true ∧ bit l.flags 0 = true ∧ bit l.flags 1 = true ∧
        wNetworkPort_1.addrActive l.addr = true ∧ (∀ p ∈ wNetworkPort_1.net.sessions, p.2.listener = 4 → liveSess p.2 = false)) ∧
        wNetworkPort_1.unpaused) :=
  ⟨⟨_, _, rfl, rfl, by decide +kernel⟩,
    ⟨_, _, rfl, rfl, by decide +kernel⟩,
    ⟨_, rfl, by decide +kernel⟩,
    ⟨_, ⟨rfl, by decide +kernel⟩, unpaused_of rfl rfl⟩⟩
theorem wit_NetworkPortOperationsComplete_3 :
    (∃ p, (wN2.lane 3).port = some p ∧ p.h = 5) ∧
    ((wN3.net.move = none ∧ wN3.right 3 (bits (BitVec.toNat (274441 : W32)) 15 0 / 4096) 3 = true ∧
        wN3.right 3 (bits (BitVec.toNat (274441 : W32)) 19 16) 3 = true ∧ (wN3.sess (bits (BitVec.toNat (274441 : W32)) 15 0)).st = 3 ∧
        (wN3.lane (bits (BitVec.toNat (274441 : W32)) 19 16)).st = 2 ∧
        (wN3.freeEntry (bits (BitVec.toNat (274441 : W32)) 19 16)).isSome = true) ∧
      (wNetworkPort_1.net.move = none ∧ (wNetworkPort_1.sess (bits (BitVec.toNat (274441 : W32)) 15 0)).st ≠ 3)) ∧
    (∃ i n j, wN2.net.move = some (i, n) ∧ wN2.freeEntry n = some j ∧ wN2.quiescent i = true ∧ (wN2.sess i).st = 3 ∧ (wN2.lane n).st = 2) ∧
    (wN2.net.move.isSome = true ∧ wN2.expired wN2.net.moveClk 10 = true) :=
  ⟨⟨_, rfl, by decide +kernel⟩,
    by decide +kernel,
    ⟨_, _, _, rfl, rfl, by decide +kernel⟩,
    by decide +kernel⟩
theorem wit_NetworkPortOperationsComplete_4 :
    (∃ d, wNetworkPort_1.twin.dom = some d ∧ (wSync (5 : ℤ)).domain = d.ptpDomain ∧ 2 = d.ptpPrimary ∧ (wSync (5 : ℤ)).isSync = true ∧
        (wSync (5 : ℤ)).offset.natAbs < 200 ∧ 15 ≤ wNetworkPort_1.net.ptpGood ∧ wNetworkPort_1.net.ptp ≠ 2) ∧
    (∃ d, wNetworkPort_2.twin.dom = some d ∧ (wSync (5 : ℤ)).domain = d.ptpDomain ∧ 2 = d.ptpPrimary ∧ (wSync (5 : ℤ)).isSync = true ∧
        (wSync (5 : ℤ)).offset.natAbs < 200 ∧ wNetworkPort_2.net.ptpGood < 15 ∧
        (wNetworkPort_2.net.ptp = 0 ∨ wNetworkPort_2.net.ptp = 1)) ∧
    (∃ d, wNetworkPort_1.twin.dom = some d ∧ (wSync (2000000 : ℤ)).domain = d.ptpDomain ∧ 2 = d.ptpPrimary ∧
        (wSync (2000000 : ℤ)).isSync = true ∧ 1000 < (wSync (2000000 : ℤ)).offset.natAbs) ∧
    (wN2.net.ptp = 2) :=
  ⟨⟨_, rfl, by decide +kernel⟩,
    ⟨_, rfl, by decide +kernel⟩,
    ⟨_, rfl, by decide +kernel⟩,
    by decide +kernel⟩

def wSession_1 : State := wSess wEst
def wSession_4 : State := wSess { wEst with retx := 8 }
def wSession_2 : State := wSess { wEst with txRecs := 2 ^ 23 }
def wSession_3 : State := wSess { wEst with framing := 0, rx := [] }
def wSession_5 : State := wSess { wEst with st := 4 }
def wSession_6 : State := wSess { wEst with st := 6 }
def wSession_7 : State := wSess { wEst with st := 2 }
def wSession_8 : State := wSess { wEst with st := 2, hsSlot := true, hsResumed := true }
def wSession_9 : State := wDone 0x1101 { wEst with st := 2, hsSlot := true, hsOps := 1 }
theorem wit_SessionOperationsComplete :
    ((liveSess (wSession_1.sess (↑wIdS : ℕ)) = true ∧ (wSession_1.sess (↑wIdS : ℕ)).retx < 8) ∧
      (liveSess (wSession_4.sess (↑wIdS : ℕ)) = true ∧ (wSession_4.sess (↑wIdS : ℕ)).retx ≥ 8) ∧
      (liveSess (wSession_1.sess (↑wIdS : ℕ)) = true) ∧
      (liveSess (wSession_1.sess (↑wIdS : ℕ)) = true ∧ wSession_1.lisOf (↑wIdS : ℕ) (fun (x : Listener) => x.idle) 300 ≠ 0 ∧
          wSession_1.expired (wSession_1.sess (↑wIdS : ℕ)).rxClk (wSession_1.lisOf (↑wIdS : ℕ) (fun (x : Listener) => x.idle) 300 * 500) = true) ∧
      (liveSess (wSession_2.sess (↑wIdS : ℕ)) = true ∧ bit (wSession_2.sess (↑wIdS : ℕ)).flags 0 = true ∧
          (2 ^ 23 ≤ (wSession_2.sess (↑wIdS : ℕ)).txRecs ∨ 2 ^ 23 ≤ (wSession_2.sess (↑wIdS : ℕ)).rxRecs))) ∧
    ((liveSess (wSession_1.sess (↑wIdS : ℕ)) = true ∧ (wSession_1.sess (↑wIdS : ℕ)).sndUsed ≠ 0 ∧
        wSession_1.expired (wSession_1.sess (↑wIdS : ℕ)).stallClk (wSession_1.lisOf (↑wIdS : ℕ) (fun (x : Listener) => x.stall) 30 * 1000) = true) ∧
      ((wSession_1.sess (↑wIdS : ℕ)).st = 3 ∧ bit (wSession_1.sess (↑wIdS : ℕ)).flags 0 = true ∧ [(1 : Byte), (2 : Byte),
          (3 : Byte)].length ≤ wSession_1.rcvWindow (↑wIdS : ℕ) ∧ (wSession_1.sess (↑wIdS : ℕ)).framing = 5 ∧ [(1 : Byte), (2 : Byte),
          (3 : Byte)] ≠ [] ∧ [(1 : Byte), (2 : Byte), (3 : Byte)].length ≤ 16384)) ∧
    (∃ ms ka rest, cutFrames (wSession_3.sess (↑wIdS : ℕ)).framing (List.length ((wSession_3.sess (↑wIdS : ℕ)).rx ++ [(1 : Byte),
        (2 : Byte), (3 : Byte)]) + 1) ((wSession_3.sess (↑wIdS : ℕ)).rx ++ [(1 : Byte), (2 : Byte), (3 : Byte)]) = (ms, ka, rest,
        false) ∧ (wSession_3.sess (↑wIdS : ℕ)).st = 3 ∧ bit (wSession_3.sess (↑wIdS : ℕ)).flags 0 = true ∧ [(1 : Byte), (2 : Byte),
        (3 : Byte)].length ≤ wSession_3.rcvWindow (↑wIdS : ℕ) ∧ (wSession_3.sess (↑wIdS : ℕ)).framing ≠ 5) ∧
    (((wSession_1.sess (↑wIdS : ℕ)).st = 3 ∧ bit (wSession_1.sess (↑wIdS : ℕ)).flags 0 = true ∧ [(1 : Byte), (2 : Byte),
        (3 : Byte)].length ≤ wSession_1.rcvWindow (↑wIdS : ℕ)) ∧
      ((wSession_1.sess (↑wIdS : ℕ)).st = 3 ∧ (wSession_1.sess (↑wIdS : ℕ)).rx ≠ [] ∧
          wSession_1.expired (wSession_1.sess (↑wIdS : ℕ)).msgClk (wSession_1.lisOf (↑wIdS : ℕ) (fun (x : Listener) => x.msg) 5 * 1000) = true) ∧
      ((wSession_1.sess (↑wIdS : ℕ)).st = 3 ∧ wSession_1.lisOf (↑wIdS : ℕ) (fun (x : Listener) => x.idle) 300 ≠ 0 ∧
          wSession_1.expired (wSession_1.sess (↑wIdS : ℕ)).rxClk (wSession_1.lisOf (↑wIdS : ℕ) (fun (x : Listener) => x.idle) 300 * 1000) = true) ∧
      ((wSession_1.sess (↑wIdS : ℕ)).st = 3)) :=
  ⟨by decide +kernel,
    by decide +kernel,
    ⟨_, _, _, rfl, by decide +kernel⟩,
    by decide +kernel⟩
theorem wit_SessionOperationsComplete_2 :
    (∃ b rest key, (wSession_1.sess (↑wIdS : ℕ)).ready = b :: rest ∧ wSession_1.mintKey = some key ∧
        (wSession_1.sess (↑wIdS : ℕ)).st = 3 ∧ wSession_1.net.move = none ∧
        ((wSession_1.lane ((↑wIdS : ℕ) / 4096)).st = 2 ∨ (wSession_1.lane ((↑wIdS : ℕ) / 4096)).st = 3) ∧
        (wSession_1.lane ((↑wIdS : ℕ) / 4096)).inflight < 4096 ∧ (∃ h < 4096, (wSession_1.lane ((↑wIdS : ℕ) / 4096)).msg h = none) ∧
        cdiv (List.length b) 256 ≤ ((wSession_1.lane ((↑wIdS : ℕ) / 4096)).freeTiles (cdiv (List.length b) 256)).length) ∧
    (((wSession_5.sess (↑wIdS : ℕ)).st = 4 ∧
        wSession_5.expired (wSession_5.sess (↑wIdS : ℕ)).lingerClk (wSession_5.lisOf (↑wIdS : ℕ) (fun (x : Listener) => x.linger) 10 * 100) = true) ∧
      ((wSession_6.sess (↑wIdS : ℕ)).st = 6 ∧ wSession_6.expired (wSession_6.sess (↑wIdS : ℕ)).reclaimClk 60000 = true) ∧
      ((wSession_7.sess (↑wIdS : ℕ)).st = 2 ∧
          wSession_7.expired (wSession_7.sess (↑wIdS : ℕ)).estClk (wSession_7.lisOf (↑wIdS : ℕ) (fun (x : Listener) => x.handshake) 10 * 1000) = true) ∧
      ((wSession_7.sess (↑wIdS : ℕ)).st = 2 ∧ (wSession_7.sess (↑wIdS : ℕ)).hsSlot = false ∧ wSession_7.handshakes < 1024 ∧
          (wCh false).tls13 = false) ∧
      ((wSession_7.sess (↑wIdS : ℕ)).st = 2 ∧ (wSession_7.sess (↑wIdS : ℕ)).hsSlot = false ∧ wSession_7.handshakes < 1024 ∧
          (wCh true).tls13 = true ∧ 1 ≤ (wCh true).suite ∧ (wCh true).suite ≤ 3 ∧ 1 ≤ (wCh true).group ∧ (wCh true).group ≤ 4 ∧
          (wCh true).sigOk = true ∧ ((wCh true).chain = [] ∨ (wCh true).peerCv.isSome = true))) ∧
    (((wSession_8.sess (↑wIdS : ℕ)).st = 2 ∧ (wSession_8.sess (↑wIdS : ℕ)).hsSlot = true ∧
        (wSession_8.sess (↑wIdS : ℕ)).hsOps ≤ (List.filter (fun (d : ReserveUnit × ℕ × Code × Bytes) => decide (d.1 = ReserveUnit.net) && decide (d.2.1 / 4 = (wSession_8.sess (↑wIdS : ℕ)).hsNum)) wSession_8.rsvDone).length ∧
        (∀ d ∈ List.filter (fun (d : ReserveUnit × ℕ × Code × Bytes) => decide (d.1 = ReserveUnit.net) && decide (d.2.1 / 4 = (wSession_8.sess (↑wIdS : ℕ)).hsNum)) wSession_8.rsvDone,
        d.2.2.1 = (0 : Code)) ∧ (wSession_8.sess (↑wIdS : ℕ)).hsResumed = true) ∧
      ((wSession_9.sess (↑wIdS : ℕ)).st = 2 ∧ (wSession_9.sess (↑wIdS : ℕ)).hsSlot = true ∧
          (wSession_9.sess (↑wIdS : ℕ)).hsOps ≤ (List.filter (fun (d : ReserveUnit × ℕ × Code × Bytes) => decide (d.1 = ReserveUnit.net) && decide (d.2.1 / 4 = (wSession_9.sess (↑wIdS : ℕ)).hsNum)) wSession_9.rsvDone).length ∧
          (∀ d ∈ List.filter (fun (d : ReserveUnit × ℕ × Code × Bytes) => decide (d.1 = ReserveUnit.net) && decide (d.2.1 / 4 = (wSession_9.sess (↑wIdS : ℕ)).hsNum)) wSession_9.rsvDone,
          d.2.2.1 = (0 : Code) ∨ d.2.2.1 = (4353 : Code)) ∧
          (∃ d ∈ List.filter (fun (d : ReserveUnit × ℕ × Code × Bytes) => decide (d.1 = ReserveUnit.net) && decide (d.2.1 / 4 = (wSession_9.sess (↑wIdS : ℕ)).hsNum)) wSession_9.rsvDone,
          d.2.1 % 4 = 1 ∧ d.2.2.1 = (4353 : Code)))) ∧
    (∃ m, (wRelease.lane 3).msg 5 = some m ∧ m.released = true ∧ m.atPort = true ∧ (wRelease.lane 3).port = none ∧ m.xfer = none ∧
        m.hm.session = (↑wIdS : ℕ) ∧ m.sessGone = false ∧ ((wRelease.sess (↑wIdS : ℕ)).st = 3 ∨ (wRelease.sess (↑wIdS : ℕ)).st = 4) ∧
        List.length ((wRelease.lane 3).content (((wRelease.lane 3).chain ((Option.map (fun (x : Link) => x.tile) m.trace.getLast?).getD endTile)).getD [])) ≤ frameMax (wRelease.sess (↑wIdS : ℕ)).framing ∧
        ((wRelease.sess (↑wIdS : ℕ)).framing ≠ 5 ∨ List.length ((wRelease.lane 3).content (((wRelease.lane 3).chain ((Option.map (fun (x : Link) => x.tile) m.trace.getLast?).getD endTile)).getD [])) ≤ 16384) ∧
        (wRelease.sess (↑wIdS : ℕ)).sndUsed + (List.length ((wRelease.lane 3).content (((wRelease.lane 3).chain ((Option.map (fun (x : Link) => x.tile) m.trace.getLast?).getD endTile)).getD [])) + List.length (frameHdr (wRelease.sess (↑wIdS : ℕ)).framing (List.length ((wRelease.lane 3).content (((wRelease.lane 3).chain ((Option.map (fun (x : Link) => x.tile) m.trace.getLast?).getD endTile)).getD [])))) + if bit (wRelease.sess (↑wIdS : ℕ)).flags 0 = true then 22 * cdiv (List.length ((wRelease.lane 3).content (((wRelease.lane 3).chain ((Option.map (fun (x : Link) => x.tile) m.trace.getLast?).getD endTile)).getD [])) + 4) 16384 else 0) ≤ (Option.map (fun (x : Listener) => x.sndbuf) (wRelease.listener (wRelease.sess (↑wIdS : ℕ)).listener)).getD 256 * 1024 ∧
        wRelease.portCheck 3 m = ((0 : Code), 0)) :=
  ⟨⟨_, _, _, rfl, rfl, by decide +kernel⟩,
    by decide +kernel,
    by decide +kernel,
    ⟨_, rfl, by decide +kernel⟩⟩
theorem wit_SessionOperationsComplete_3 :
    (∃ m, (wRelease0.lane 3).msg 5 = some m ∧ m.released = true ∧ m.atPort = true ∧ (wRelease0.lane 3).port = none ∧ m.xfer = none ∧
        m.hm.session = (↑wIdS : ℕ) ∧ (m.sessGone = true ∨ (wRelease0.sess (↑wIdS : ℕ)).st ≠ 3 ∧ (wRelease0.sess (↑wIdS : ℕ)).st ≠ 4)) :=
  ⟨_, rfl, by decide +kernel⟩

def wPcieRequests_1 : State := wRoot 0 0 0
def wPcieRequests_5 : State := wCard [] {}
def wPcieRequests_4 : State := wRoot wDdtp 3 (8 * 2 ^ 60 + 0xFFFFFFFF)
def wPcieRequests_3 : State := wRoot wDdtp 3 0
def wPcieRequests_2 : State := wRoot 1 0 0
def wPcieRequests_6 : State := wCard [(0, wMse)] {}
def xBusOp_300 : BusOp := { write := false, size := 4, data := 3 }
def wPcieRequests_7 : State := wHartTag false
def xPcieCpl_300 : PcieCpl := {status := 0, poisoned := false, data := Bytes.ofNatLE 8 0x55}
def wPcieRequests_8 : State := wHartTag true
theorem wit_PcieRequestsComplete :
    (∃ w, wPcieRequests_1.subWidth 0 0 = some w ∧ 5 ≠ 0 ∧ 0 ≤ w) ∧
    (((wPcieRequests_1.plink (0 * 4 + 0)).up = true ∧ (0 ≠ 4 ∨ wPcieRequests_1.cardMode = false)) ∧
      ((wPcieRequests_5.plink (4 * 4 + 0)).up = true ∧ 4 = 4 ∧ wPcieRequests_5.cardMode = true) ∧
      ((wPcieRequests_1.plink (0 * 4 + 0)).present ≠ true) ∧
      (wPcieRequests_1.rootUp 0 = true ∧
          (wPcieRequests_1.iommu (wPReq false dramBase).rid (wPReq false dramBase).aty (wPReq false dramBase).addr (wPReq false dramBase).write).2 = IomAns.ur) ∧
      (wPcieRequests_4.rootUp 0 = true ∧ (wPcieRequests_4.iommu wAts.rid wAts.aty wAts.addr wAts.write).2 = IomAns.ca)) ∧
    (∃ v, wPcieRequests_3.iommu wAts.rid wAts.aty wAts.addr wAts.write = (wPcieRequests_3, IomAns.xlat v) ∧
        wPcieRequests_3.rootUp 0 = true) ∧
    (∃ a,
        wPcieRequests_2.iommu (wPReq false dramBase).rid (wPReq false dramBase).aty (wPReq false dramBase).addr (wPReq false dramBase).write = (wPcieRequests_2,
        IomAns.go a) ∧ wPcieRequests_2.rootUp 0 = true ∧ wPcieRequests_2.region a = Region.dram ∧
        wPcieRequests_2.region (a + (wPReq false dramBase).size - 1) = Region.dram ∧ (wPReq false dramBase).write = false) :=
  ⟨⟨_, rfl, by decide +kernel⟩,
    by decide +kernel,
    ⟨_, rfl, by decide +kernel⟩,
    ⟨_, rfl, by decide +kernel⟩⟩
theorem wit_PcieRequestsComplete_2 :
    (∃ a,
        wPcieRequests_2.iommu (wPReq true dramBase).rid (wPReq true dramBase).aty (wPReq true dramBase).addr (wPReq true dramBase).write = (wPcieRequests_2,
        IomAns.go a) ∧ wPcieRequests_2.rootUp 0 = true ∧ wPcieRequests_2.region a = Region.dram ∧
        wPcieRequests_2.region (a + (wPReq true dramBase).size - 1) = Region.dram ∧ (wPReq true dramBase).write = true ∧
        (wPReq true dramBase).ep = false ∧ (wPReq true dramBase).size = 64 ∧ List.length (wPReq true dramBase).data = 64 ∧ a % 64 = 0) ∧
    (∃ a, wPcieRequests_6.barMap 0 0 0 = some a ∧ wPcieRequests_6.cardMode = true ∧ (wPcieRequests_6.plink 16).up = true ∧
        (wPcieRequests_6.pfn 0).mse = true ∧ (wPcieRequests_6.pfn 0).flr = false ∧ (wPcieRequests_6.pfn 0).d3hot = false ∧ 0 = 0 ∧
        wPcieRequests_6.region a ≠ Region.dram ∧ wPcieRequests_6.region a ≠ Region.unassigned ∧ wPcieRequests_6.region a ≠ Region.pcie ∧
        0 ≠ 6 ∧ wPcieRequests_6.windowOk 4 0 a xBusOp_300.size xBusOp_300.write = false) ∧
    ((wPcieRequests_5.cardMode = true ∧ (wPcieRequests_5.plink 16).up = true ∧ (wPcieRequests_5.pfn 0).mse = false) ∧
      (wNoDesc.cardMode = true ∧ (wNoDesc.plink 16).up = true ∧ (0 = 0 ∨ (wNoDesc.pfn 0).on = true) ∧ wNoDesc.cel.descBuilt = false) ∧
      (wPcieRequests_5.cardMode = true ∧ (wPcieRequests_5.plink 16).up = true ∧ (0 = 0 ∨ (wPcieRequests_5.pfn 0).on = true) ∧
          wPcieRequests_5.cel.descBuilt = true)) ∧
    (∃ t n l rd size, wPcieRequests_7.ptag 2 = some t ∧ t.user = TagUser.hart n l ∧
        (wPcieRequests_7.hart n).wait = HartWait.pcie rd size false ∧ t.quar = false ∧ rd ≠ 0 ∧ xPcieCpl_300.status = 0 ∧
        xPcieCpl_300.poisoned = false) :=
  ⟨⟨_, rfl, by decide +kernel⟩,
    ⟨_, rfl, by decide +kernel⟩,
    by decide +kernel,
    ⟨_, _, _, _, _, rfl, rfl, rfl, by decide +kernel⟩⟩
theorem wit_PcieRequestsComplete_3 :
    (∃ t n l rd size, wPcieRequests_7.ptag 2 = some t ∧ t.user = TagUser.hart n l ∧
        (wPcieRequests_7.hart n).wait = HartWait.pcie rd size false ∧ t.quar = false ∧ rd ≠ 0) ∧
    (∃ t n l, wPcieRequests_8.ptag 2 = some t ∧ t.user = TagUser.hart n l ∧ t.quar = true ∧ t.silent = false) ∧
    (∃ t k d, wChanTag.ptag 2 = some t ∧ t.user = TagUser.chan k ∧ (wChanTag.hd k).cur = some d ∧ t.quar = false ∧
        (wChanTag.pfn (wChanTag.hd k).owner).flr = false ∧ d.toHost = false ∧ (wChanTag.hd k).code = 0 ∧ xPcieCpl_300.status = 0 ∧
        xPcieCpl_300.poisoned = false ∧ List.length xPcieCpl_300.data = t.len) ∧
    (∃ t k, wChanTag.ptag 2 = some t ∧ t.user = TagUser.chan k ∧ t.quar = false ∧ (wChanTag.pfn (wChanTag.hd k).owner).flr = false ∧
        t.clk + wChanTag.ctoClk k t ≤ wChanTag.laneClk) :=
  ⟨⟨_, _, _, _, _, rfl, rfl, rfl, by decide +kernel⟩,
    ⟨_, _, _, rfl, rfl, by decide +kernel⟩,
    ⟨_, _, _, rfl, rfl, rfl, by decide +kernel⟩,
    ⟨_, _, rfl, rfl, by decide +kernel⟩⟩
theorem wit_PcieRequestsComplete_4 :
    (∃ t, wPcieRequests_8.ptag 2 = some t ∧ t.quar = true ∧ t.clk + 6400000000 ≤ wPcieRequests_8.laneClk) :=
  ⟨_, rfl, by decide +kernel⟩

def wHostDma_1 : State := wHd {} wFnOn (wHDesc9 0)
def wHostDma_5 : State := wHd (wCur 64 false) wFnOn []
def wHostDma_6 : State := wHd (wCur 0 true) wFnOn []
theorem wit_HostDmaOperationsComplete :
    (bit (wHostDma_1.reg (hdmaReg 2 8)) 31 = true ∧ (wHostDma_1.hd 2).cur = none ∧
        wHostDma_1.reg (hdmaReg 2 12) ≠ wHostDma_1.reg (hdmaReg 2 16) ∧ wHostDma_1.hdRuns 2 = true) ∧
    (∃ d, (wHostDma_5.hd 2).cur = some d ∧ wHostDma_5.hdReads 2 = false ∧ (wHostDma_5.hd 2).waitAts = false ∧
        (wHostDma_5.pfn (wHostDma_5.hd 2).owner).flr = false ∧ (wHostDma_5.hd 2).code = 0 ∧ d.len ≤ (wHostDma_5.hd 2).moved) ∧
    (∃ d, (wHostDma_6.hd 2).cur = some d ∧ (wHostDma_6.hd 2).waitAts = true) ∧
    (((∀ p ∈ wHostDma_5.pcie.tags, ∀ (t : PTag), p.2 = some t → t.stale = true → t.quar = true) ∧ wHostDma_5.pcie.inval.contains 1 = true) ∧
      (wHostDma_1.cardMode = true) ∧
      ((wFlr.pfn 0).flr = true ∧ (∀ f < 65, f = 0 ∨ 0 = 0 ∧ (wFlr.pfn f).flr = true → wFlr.flrWaited f = true)) ∧
      (wHostDma_1.cardMode = true ∧ wHostDma_1.pcie.vfEn = false)) :=
  ⟨by decide +kernel,
    ⟨_, rfl, by decide +kernel⟩,
    ⟨_, rfl, by decide +kernel⟩,
    by decide +kernel⟩

def wSkeidCommands_2 : State := wSk 1 2 [(1,0)] (wLn {st:=2} {})
def wSkeidCommands_1 : State := wSk 1 2 [(1,1),(2,3)] (wLn {st:=2} {})
def wSkeidCommands_3 : State := wSk 2 0 [] (wLn {st:=2} {})
def wSkeidCommands_4 : State := wSk 3 1 [(1,2)] (wDmc wD)
def wSkeidCommands_5 : State := wSk 4 3 [(1,50),(2,0x800FFFFF)] (wDmc wD)
def wSkeidCommands_6 : State := wSk 4 3 [(1,50),(3,1)] {cel := {mbx := [(50,{peer := 3, rxTarget := 7})]}}
def wSkeidCommands_7 : State := wSk 5 1 [(1,40)] {cel := {locks := [(40,7)]}}
def wSkeidCommands_8 : State := wSk 0x10 1 [(1,8)] (wLn {st:=2} wRing)
def wSkeidCommands_9 : State := wSk 0x13 3 [(1,8)] {wLn {st:=2} wRing with twin := {wTwin with pair := 4}}
def wSkeidCommands_10 : State := wSk 0x20 0 [] {wLn {st:=2} wRing with twin := {wTwin with linkUp := false}}
def wSkeidCommands_11 : State := wSk 0x40 2 [(1,0xF0011),(2,0x80000003)] {}
def wSkeidCommands_12 : State := wSk 0x41 3 [(1,0xFF),(2,0x01020304),(3,1)] {}
def wSkeidCommands_13 : State := wSk 0x42 2 [(1,2),(2,77)] (wDmc wD)
def wSkeidCommands_14 : State := wSk 0x60 0 [] (wDmc wD)
def wSkeidCommands_15 : State := wSk 0x61 5 [(1,8),(3,10),(5,wHi)] {wDmc wD with gar := { head := 3, ring := [(0,[1,2,3]),(1,[5])] }}
def wSkeidCommands_17 : State := wSk 0x62 0 [] (wDmc wD)
def wSkeidCommands_18 : State := wSk 0x70 3 [(2,wHi),(3,64)] {}
def wSkeidCommands_19 : State := wSk 0x70 3 [(2,wHi),(3,64)] {btm := {beat := 2000}, str := {entFail := true, slots := [(21, {gen := 1, cls := 0x21, held := true, kcv := [1,2,3]})]}}
theorem wit_SkeidCommandsComplete :
    (wSkeidCommands_2.skeidReady 5 1 2 ∧ wSkeidCommands_2.arg 5 1 = 0) ∧
    (∃ k, wSkeidCommands_1.arg 5 2 = k ∧ wSkeidCommands_1.skeidReady 5 1 2 ∧ wSkeidCommands_1.arg 5 1 = 1 ∧ k < 16) ∧
    (wSkeidCommands_3.skeidReady 5 2 0) ∧
    (wSkeidCommands_4.skeidReady 5 3 1 ∧ wSkeidCommands_4.arg 5 1 < 16) :=
  ⟨by unfold State.skeidReady; decide +kernel,
    ⟨_, rfl, by unfold State.skeidReady; decide +kernel⟩,
    by unfold State.skeidReady; decide +kernel,
    by unfold State.skeidReady; decide +kernel⟩
theorem wit_SkeidCommandsComplete_2 :
    (∃ m, wSkeidCommands_5.arg 5 1 = m ∧ wSkeidCommands_5.skeidReady 5 4 3 ∧ 48 ≤ m ∧ m ≤ 59 ∧ wSkeidCommands_5.arg 5 3 = 0 ∧
        (wSkeidCommands_5.mbx m).peer = 511) ∧
    (∃ m, wSkeidCommands_6.arg 5 1 = m ∧ wSkeidCommands_6.skeidReady 5 4 3 ∧ 48 ≤ m ∧ m ≤ 59 ∧ wSkeidCommands_6.arg 5 3 = 1 ∧
        (wSkeidCommands_6.mbx m).peer = wSkeidCommands_6.sender 5) ∧
    (∃ k h, wSkeidCommands_7.arg 5 1 = k ∧ wSkeidCommands_7.lockHolder k = some h ∧ wSkeidCommands_7.skeidReady 5 5 1 ∧
        wSkeidCommands_7.isAdmin (wSkeidCommands_7.sender 5) = true ∧ k < 128 ∧ h < 2 ^ 32) ∧
    (∃ m, wSkeidCommands_8.arg 5 1 = m ∧ wSkeidCommands_8.skeidReady 5 16 1 ∧ m < 65536 ∧ (∀ k ∈ maskLanes m,
        wSkeidCommands_8.right (wSkeidCommands_8.sender 5) k 3 = true ∧ (wSkeidCommands_8.lane k).st = 2 ∧
        (wSkeidCommands_8.ring k).divergent = false)) :=
  ⟨⟨_, rfl, by unfold State.skeidReady; decide +kernel⟩,
    ⟨_, rfl, by unfold State.skeidReady; decide +kernel⟩,
    ⟨_, _, rfl, rfl, by unfold State.skeidReady; decide +kernel⟩,
    ⟨_, rfl, by unfold State.skeidReady; decide +kernel⟩⟩
theorem wit_SkeidCommandsComplete_3 :
    (∃ m, wSkeidCommands_9.arg 5 1 = m ∧ wSkeidCommands_9.skeidReady 5 19 3 ∧
        wSkeidCommands_9.isAdmin (wSkeidCommands_9.sender 5) = true ∧ m < 65536 ∧ wSkeidCommands_9.arg64 5 2 = 0 ∧
        wSkeidCommands_9.twin.pair = 4 ∧ wSkeidCommands_9.twin.handover = none ∧ (∀ k ∈ maskLanes m,
        (wSkeidCommands_9.lane k).st = 2)) ∧
    (wSkeidCommands_10.skeidReady 5 32 0 ∧ wSkeidCommands_10.isAdmin (wSkeidCommands_10.sender 5) = true ∧
        pairEn wSkeidCommands_10 = true ∧ wSkeidCommands_10.str.bootstrap = false ∧ wSkeidCommands_10.twin.linkUp = false) ∧
    (wSkeidCommands_11.skeidReady 5 64 2 ∧ wSkeidCommands_11.isAdmin (wSkeidCommands_11.sender 5) = true ∧
        bits (wSkeidCommands_11.arg 5 1) 15 5 = 0 ∧ bit (wSkeidCommands_11.arg 5 1) 3 = false ∧
        bits (wSkeidCommands_11.arg 5 2) 30 19 = 0 ∧ bits (wSkeidCommands_11.arg 5 2) 15 9 = 0 ∧
        bits (wSkeidCommands_11.arg 5 1) 31 16 ≠ 0 ∧ bits (wSkeidCommands_11.arg 5 2) 8 0 < 276) ∧
    (wSkeidCommands_12.skeidReady 5 65 3 ∧ wSkeidCommands_12.isAdmin (wSkeidCommands_12.sender 5) = true ∧
        wSkeidCommands_12.arg 5 1 < 65536 ∧ (∀ i < 4, bits (wSkeidCommands_12.arg 5 2) (8 * i + 7) (8 * i) ≤ 5) ∧
        wSkeidCommands_12.arg 5 3 ≤ 1 ∧ 2 < 16 ∧ bit (wSkeidCommands_12.arg 5 1) 2 = true) :=
  ⟨⟨_, rfl, by unfold State.skeidReady; decide +kernel⟩,
    by unfold State.skeidReady; decide +kernel,
    by unfold State.skeidReady; decide +kernel,
    by unfold State.skeidReady; decide +kernel⟩
theorem wit_SkeidCommandsComplete_4 :
    (∃ c, wSkeidCommands_13.arg 5 1 = c ∧ wSkeidCommands_13.skeidReady 5 66 2 ∧
        wSkeidCommands_13.isAdmin (wSkeidCommands_13.sender 5) = true ∧ c < 16 ∧ (wSkeidCommands_13.dmc c).st = 2 ∧
        wSkeidCommands_13.arg 5 2 < (wSkeidCommands_13.dmc c).lines ∧ (∃ i < 16,
        SMap.get none i (wSkeidCommands_13.dmc c).remap = none)) ∧
    (wSkeidCommands_14.skeidReady 5 96 0 ∧ wSkeidCommands_14.isAdmin (wSkeidCommands_14.sender 5) = true) ∧
    (wSkeidCommands_15.skeidReady 5 97 5 ∧ wSkeidCommands_15.isAdmin (wSkeidCommands_15.sender 5) = true ∧
        1 ≤ wSkeidCommands_15.arg 5 3 ∧ wSkeidCommands_15.arg 5 3 ≤ 131072 ∧
        wSkeidCommands_15.bufOk (wSkeidCommands_15.arg64 5 4) (32 * wSkeidCommands_15.arg 5 3) = true ∧ (wSkeidCommands_15.arg 5 1 = 8 ∧
        [(1, [(1 : Byte), (2 : Byte), (3 : Byte)]), (2, [(5 : Byte)])] = wSkeidCommands_15.gar.held ∨ wSkeidCommands_15.arg 5 1 < 8 ∧
        Option.map (fun (x : AtticSlot) => x.image) (SMap.get none (wSkeidCommands_15.arg 5 1) wSkeidCommands_15.gar.attic) = some [(1,
        [(1 : Byte), (2 : Byte), (3 : Byte)]), (2, [(5 : Byte)])])) ∧
    (wSkeidCommands_17.skeidReady 5 98 0 ∧ wSkeidCommands_17.isAdmin (wSkeidCommands_17.sender 5) = true ∧
        wSkeidCommands_17.gar.frozen = false ∧ wSkeidCommands_17.gar.freezing = none) :=
  ⟨⟨_, rfl, by unfold State.skeidReady; decide +kernel⟩,
    by unfold State.skeidReady; decide +kernel,
    by unfold State.skeidReady; decide +kernel,
    by unfold State.skeidReady; decide +kernel⟩
theorem wit_SkeidCommandsComplete_5 :
    (wSkeidCommands_18.skeidReady 5 112 3 ∧ wSkeidCommands_18.isAdmin (wSkeidCommands_18.sender 5) = true ∧
        40 ≤ wSkeidCommands_18.arg 5 3 ∧ wSkeidCommands_18.arg 5 3 ≤ 65600 ∧
        wSkeidCommands_18.bufOk (wSkeidCommands_18.arg64 5 1) (wSkeidCommands_18.arg 5 3) = true) ∧
    (((3 < 256 ∨ 3 = 272 ∨ 3 = 273 ∨ 3 = 275)) ∧
      (wSkeidCommands_19.str.entFail = true ∧ wSkeidCommands_19.str.lastReseed + 16 ≤ wSkeidCommands_19.epoch)) :=
  ⟨by unfold State.skeidReady; decide +kernel,
    by decide +kernel⟩

def wDualControl_1 : State := {wSetOf 0x15 with str := {(wSetOf 0x15).str with bootstrap := true}}
def wDualControl_21 : State := {wSk 0x12 7 [(1,8),(2,4),(4,wHi),(5,96)] (wLane { st := 2, image0 := Bytes.zeros 12 ++ Bytes.ofNatLE 4 4096 }) with dram := memWrite [] dramBase wStnImg}
def wDualControl_3 : State := wSk 0x14 2 [(1,8),(2,0)] (wLn {} {divergent := true})
def wDualControl_4 : State := wSk 0x50 6 [(2,wHi),(3,4096)] {}
def xPolicyChange_330 : PolicyChange := {entries := [(1,wPol)], repolicy := [], inline := []}
def wDualControl_7 : State := wSetOf 3
def wDualControl_8 : State := wSetOf 4
def xKeyGenChange_330 : KeyGenChange := {slot := 20, cls := 0x11, policy := 1, replace := false, opc := 0xD0}
def wDualControl_9 : State := wSetOf 5
def xKeyComponentChange_330 : KeyComponentChange := {slot := 20, cls := 0x11, policy := 1, replace := false, compA := [], compB := [], kcv := [], custodians := []}
def wDualControl_10 : State := wSetOf 6
def wDualControl_12 : State := wSetOf 8
def xKeyExportChange_330 : KeyExportChange := {slot := 22, wrapSlot := 21, buffer := dramBase}
def xNetTable_330 : NetTables := {addrs := [], listeners := [], trust := []}
def wDualControl_15 : State := wSetOf 0x12
def xUnlockChange_330 : UnlockChange := {harts := [7], sysbus := true, expiry := 9}
def wDualControl_17 : State := wSetOf 0x14
def wDualControl_22 : State := wSk 0x31 4 [(1,7),(3,wHi)] {cel := {tickets := [wTk]}}
def wDualControl_23 : State := wSk 0x31 4 [(1,7),(3,wHi)] {cel := {tickets := [{wTk with st := 2, officers := [3]}]}, jrn := {rings := [(16,wRing)]}}
def wDualControl_24 : State := wSk 0x32 1 [(1,7)] {cel := {tickets := [wTk]}}
def wDualControl_25 : State := wSk 0x33 1 [(1,7)] {cel := {tickets := [wTk]}}
def wDualControl_26 : State := {wSk 0x33 1 [(1,7)] {cel := {tickets := [wTk]}} with laneClk := 10000000000000000}
def wDualControl_27 : State := {wSk 0x33 1 [(1,7)] {cel := {tickets := [{wTk with st := 3, effect := 1, item := .windows wWins}]}} with btm := wBtm}
theorem wit_DualControlOperationsComplete :
    (wDualControl_1.str.bootstrap = true ∧ wDualControl_1.skeidReady 5 48 6 ∧ wDualControl_1.isAdmin (wDualControl_1.sender 5) = true ∧
        wDualControl_1.arg 5 1 = 21 ∧ wDualControl_1.arg 5 4 ≤ 65536 ∧
        wDualControl_1.bufOk (wDualControl_1.arg64 5 2) (wDualControl_1.arg 5 4) = true ∧ wDualControl_1.cel.tickets = [] ∧
        rosterOk wOffs = true) ∧
    (∃ m b, wDualControl_21.arg 5 1 = m ∧ wDualControl_21.dramRead (wDualControl_21.arg64 5 3) (wDualControl_21.arg 5 5) = b ∧
        wDualControl_21.str.bootstrap = false ∧ wDualControl_21.skeidReady 5 18 7 ∧
        wDualControl_21.isAdmin (wDualControl_21.sender 5) = true ∧ wDualControl_21.cel.tickets = [] ∧ m < 65536 ∧
        wDualControl_21.arg 5 2 < 64 ∧ wDualControl_21.bufOk (wDualControl_21.arg64 5 3) (wDualControl_21.arg 5 5) = true ∧
        stnLoad b = 0 ∧ (∀ k ∈ maskLanes m, (wDualControl_21.lane k).stnFits b = true) ∧ wDualControl_21.storeFits b = true) ∧
    (∃ m, wDualControl_3.arg 5 1 = m ∧ wDualControl_3.str.bootstrap = false ∧ wDualControl_3.skeidReady 5 20 2 ∧
        wDualControl_3.isAdmin (wDualControl_3.sender 5) = true ∧ wDualControl_3.cel.tickets = [] ∧ m < 65536 ∧
        wDualControl_3.arg 5 2 < 2 ∧ (∀ k ∈ maskLanes m,
        (wDualControl_3.ring k).divergent = true ∨ (wDualControl_3.ring k).clash = true)) ∧
    (∃ b, wDualControl_4.dramRead (wDualControl_4.arg64 5 1) (wDualControl_4.arg 5 3) = b ∧ wDualControl_4.str.bootstrap = false ∧
        wDualControl_4.skeidReady 5 80 6 ∧ wDualControl_4.isAdmin (wDualControl_4.sender 5) = true ∧ wDualControl_4.cel.tickets = [] ∧
        4096 ≤ wDualControl_4.arg 5 3 ∧ wDualControl_4.arg 5 3 ≤ 21 * 2 ^ 20 ∧ wDualControl_4.arg 5 4 < 2 ∧
        wDualControl_4.bufOk (wDualControl_4.arg64 5 1) (wDualControl_4.arg 5 3) = true ∧ (∀ (v : ℕ),
        bundleFw b = some v → wDualControl_4.str.floor ≤ v ∧ wDualControl_4.twin.pair ≠ 4)) :=
  ⟨by unfold State.skeidReady; decide +kernel,
    ⟨_, _, rfl, rfl, by unfold State.skeidReady; decide +kernel⟩,
    ⟨_, rfl, by unfold State.skeidReady; decide +kernel⟩,
    ⟨_, rfl, by unfold State.skeidReady; decide +kernel⟩⟩
theorem wit_DualControlOperationsComplete_2 :
    ((wWins.length ≤ 64 ∧ (∀ w ∈ wWins, w.base ≤ w.limit ∧ w.limit < 2147483648)) ∧
      ((∀ p ∈ xPolicyChange_330.entries, 1 ≤ p.1 ∧ p.1 < 4096) ∧ (∀ p ∈ xPolicyChange_330.repolicy,
          (wDualControl_7.policy p.2).isSome = true ∨ ∃ e ∈ xPolicyChange_330.entries, e.1 = p.2)) ∧
      (wDualControl_8.slotReason (↑xKeyGenChange_330.slot : ℕ) xKeyGenChange_330.cls xKeyGenChange_330.policy xKeyGenChange_330.replace (cdiv (genLen xKeyGenChange_330.cls) 32) = 0 ∧
          genCode xKeyGenChange_330.cls = xKeyGenChange_330.opc ∧ xKeyGenChange_330.opc ≠ 0) ∧
      (isPublicCls wKi.cls = true ∧
          wDualControl_9.slotReason (↑wKi.slot : ℕ) wKi.cls wKi.policy wKi.replace (poolUnits wKi.wrapped) = 0 ∧
          keyKcv wKi.cls wKi.wrapped = wKi.kcv) ∧
      (isPublicCls wKj.cls = false ∧ (wDualControl_9.slot wKj.wrapSlot).held = true ∧ wKj.blockClassOk = true ∧
          (wDualControl_9.slot wKj.wrapSlot).cls = if isAsymCls wKj.cls = true then 32 else 33)) ∧
    ((isAsymCls xKeyComponentChange_330.cls = false ∧ (wDualControl_10.slot 8).cls = 34) ∧
      (16 ≤ 20)) ∧
    (∃ p, wDualControl_12.policy (wDualControl_12.slot (↑xKeyExportChange_330.slot : ℕ)).policy = some p ∧ bit p.flags 2 = true ∧
        (wDualControl_12.slot (↑xKeyExportChange_330.slot : ℕ)).cls ∉ [34, 40, 41, 43] ∧
        (wDualControl_12.slot (↑xKeyExportChange_330.slot : ℕ)).held = true ∧
        (wDualControl_12.slot xKeyExportChange_330.wrapSlot).held = true ∧
        ((wDualControl_12.slot xKeyExportChange_330.wrapSlot).cls = 32 ∨ (wDualControl_12.slot xKeyExportChange_330.wrapSlot).cls = 33)) ∧
    ((wDomOk.inRange = true) ∧
      (xNetTable_330.inRange wDualControl_15.twin.homeCfg = true ∧ (∀ p ∈ xNetTable_330.addrs, p.1 < 64) ∧
          (∀ p ∈ xNetTable_330.listeners, p.1 < 256)) ∧
      (xUnlockChange_330.expiry ≤ (if wDualControl_17.arg64 5 5 = 0 then wDualControl_17.epoch + 2 else wDualControl_17.arg64 5 5) + 3600000) ∧
      (rosterOk wOffs = true)) :=
  ⟨by decide +kernel,
    by decide +kernel,
    ⟨_, rfl, by decide +kernel⟩,
    by decide +kernel⟩
theorem wit_DualControlOperationsComplete_3 :
    (∃ t, wDualControl_22.cel.tickets = [t] ∧ wDualControl_22.str.bootstrap = false ∧ wDualControl_22.skeidReady 5 49 4 ∧
        wDualControl_22.bufOk (wDualControl_22.arg64 5 2) (wDualControl_22.arg 5 4) = true ∧ t.num = wDualControl_22.arg 5 1 ∧
        (wDualControl_22.mbx 5).goClk ≤ t.opened + ticketLife ∧ t.st = 1 ∧ t.officers = []) ∧
    (∃ t f, wDualControl_23.cel.tickets = [t] ∧ t.officers = [f] ∧ wDualControl_23.str.bootstrap = false ∧
        wDualControl_23.skeidReady 5 49 4 ∧ wDualControl_23.bufOk (wDualControl_23.arg64 5 2) (wDualControl_23.arg 5 4) = true ∧
        t.num = wDualControl_23.arg 5 1 ∧ (wDualControl_23.mbx 5).goClk ≤ t.opened + ticketLife ∧ t.st = 2 ∧ t.target = 0 ∧
        wDualControl_23.twin.pair ≠ 4 ∧ wDualControl_23.phaseOne t.item = none ∧ (wDualControl_23.ring 16).hold = 0) ∧
    (∃ t, wDualControl_24.ticket (wDualControl_24.arg 5 1) = some t ∧ wDualControl_24.str.bootstrap = false ∧
        wDualControl_24.skeidReady 5 50 1) ∧
    (∃ t, wDualControl_25.cel.tickets = [t] ∧ wDualControl_25.str.bootstrap = false ∧ wDualControl_25.skeidReady 5 51 1 ∧
        wDualControl_25.isAdmin (wDualControl_25.sender 5) = true ∧ t.num = wDualControl_25.arg 5 1 ∧ (t.st = 1 ∨ t.st = 2)) :=
  ⟨⟨_, rfl, by unfold State.skeidReady; decide +kernel⟩,
    ⟨_, _, rfl, rfl, by unfold State.skeidReady; decide +kernel⟩,
    ⟨_, rfl, by unfold State.skeidReady; decide +kernel⟩,
    ⟨_, rfl, by unfold State.skeidReady; decide +kernel⟩⟩
theorem wit_DualControlOperationsComplete_4 :
    (wDualControl_26.str.bootstrap = false ∧ wDualControl_26.ticket wTk.num = some wTk ∧ (wTk.st = 1 ∨ wTk.st = 2) ∧
        wTk.opened + ticketLife ≤ wDualControl_26.laneClk) ∧
    (∃ t c, wDualControl_27.cel.tickets = [t] ∧ t.item = Item.windows c ∧ wDualControl_27.str.bootstrap = false ∧
        wDualControl_27.cel.st = 3 ∧ wDualControl_27.btm.running = true ∧ t.st = 3 ∧ t.effect * 100 ≤ wDualControl_27.btm.beat + 1 ∧
        t.pairWide = false ∧ wDualControl_27.twin.ctls = []) :=
  ⟨by decide +kernel,
    ⟨_, _, rfl, rfl, by decide +kernel⟩⟩

def wMemoryControllerTrainingComplete_11 : State := wDmc {wD with corrNow := [(5,3)], corrPrev := [(5,3)]}

/-! ### Witnesses written by hand -/

theorem wit_StepRunsFrontCommand :
    ({ pending := [.witnessSilence] } : State).pending = .witnessSilence :: [] := rfl
theorem wit_StepKeepsRomAndQueue :
    Res.isNext (step { pending := [.witnessSilence] }) = true ∧ Res.isNext (exec .witnessSilence {}) = true :=
  ⟨rfl, rfl⟩
theorem wit_StepKeepsDramCanonical : (wHart [] [1, 2, 3]).memOk ∧ Res.isNext (step (wHart [] [1, 2, 3])) = true :=
  ⟨by unfold State.memOk; decide +kernel, rfl⟩
theorem wit_MemoryReadAfterWrite : Memory.wf (memWrite [] 70 [1, 0, 2]) = true := by decide +kernel
/-- Bits of the interrupt registers: one written, one cleared by a 1, one set by a 1, one that no write changes. -/
theorem wit_AccessTypesBitByBit :
    (∃ r, r = ({ name := "a", off := 0, rw := 1, w1c := 2, w1s := 4 } : RegRow)
      ∧ (r.rw.testBit 0 = true ∧ r.w1c.testBit 0 = false ∧ r.w1s.testBit 0 = false)
      ∧ (r.rw.testBit 1 = false ∧ r.w1c.testBit 1 = true ∧ r.w1s.testBit 1 = false)
      ∧ (r.rw.testBit 2 = false ∧ r.w1c.testBit 2 = false ∧ r.w1s.testBit 2 = true)
      ∧ (r.rw.testBit 31 = false ∧ r.w1c.testBit 31 = false ∧ r.w1s.testBit 31 = false)) :=
  ⟨_, rfl, by decide +kernel⟩
theorem wit_LaneControlWritesComplete_overflow :
    (wEventsS.right 3 3 2 = true ∧ ((70000#32).toNat + 2 ^ 32 - wEventsS.lreg 3 (0x2210 + 0x40 * 0)) % 2 ^ 32
      > shelfEntries ((wEventsS.lane 3).cfg (0x2208 + 0x40 * 0))) := by decide +kernel

/-- A lane whose every tile is allocated. -/
def wFullLane : Lane :=
  { side := (List.range tileCount).map (fun i => (i, BitVec.ofNat 64 (mkSide false true endTile 4 0))) }
theorem find_ofRange (w : D64) (j : Nat) : ∀ l : List Nat, j ∈ l → SMap.find j (l.map (fun i => (i, w))) = some w := by
  intro l
  induction l with
  | nil => intro h; cases h
  | cons x l ih =>
    intro h
    simp only [List.map_cons, SMap.find]
    split
    · rfl
    · rename_i n
      rcases List.mem_cons.mp h with e | e
      · exact absurd e.symm (by simpa using n)
      · exact ih e
theorem pickFree_full (l : Lane) (k : Nat) (h : ∀ i, i < tileCount → sideAlloc (l.sideW i) = true) :
    ∀ fuel i, i + fuel ≤ tileCount → pickFree l fuel i k = [] := by
  intro fuel
  induction fuel with
  | zero => intro i _; cases k <;> rfl
  | succ n ih =>
    intro i wHi
    cases k with
    | zero => rfl
    | succ k => rw [pickFree, if_pos (h i (by omega))]; exact ih (i + 1) (by omega)
theorem side_full (l : Lane) (e : l.side = wFullLane.side) : ∀ i, i < tileCount → sideAlloc (l.sideW i) = true := fun i wHi => by
  have e : l.sideW i = (BitVec.ofNat 64 (mkSide false true endTile 4 0)).toNat := by
    unfold Lane.sideW SMap.get
    rw [e]
    unfold wFullLane
    rw [find_ofRange _ i _ (List.mem_range.mpr wHi)]
    rfl
  rw [e]
  decide
theorem alloc_full (l : Lane) (e : l.side = wFullLane.side) (k : Nat) : l.alloc k = none := by
  unfold Lane.alloc Lane.freeTiles
  rw [pickFree_full _ _ (side_full l e) _ _ (by omega)]
def wFullThr (l : Lane) : State := wAt (xTileAlloc 5 6) (wThr l [(6, 3)])
theorem thr_full (l : Lane) (e : l.side = wFullLane.side) : ((wFullThr l).lane 3).alloc 3 = none :=
  alloc_full _ ((show ((wFullThr l).lane 3).side = l.side from rfl).trans e) 3
theorem wit_TileOperationsComplete_full : (((wFullThr wFullLane).lane 3).atOp 1 (xTileAlloc 5 6) = true
    ∧ ((wFullThr wFullLane).thr 3 1).rd 6 = 3#32) ∧ ((wFullThr wFullLane).lane 3).alloc 3 = none :=
  ⟨by decide +kernel, thr_full wFullLane rfl⟩
theorem wit_AllocatedChainIsNew : ∃ l', wLaneNew.alloc 3 = some (0, l') := ⟨_, rfl⟩
theorem wit_TileDigestEnds_free :
    ∃ k, (wDigest wTile).thrKey 3 wTag0.thr = some k ∧ ((wDigest wTile).lane 3).digests = [(0, 2)]
      ∧ ((wDigest wTile).lane 3).tags.find? (fun x => x.id = 0) = some wTag0 ∧ ((wDigest wTile).lane 3).chain 2 = some [2]
      ∧ ((wDigest wTile).lane 3).badTile [2] = none ∧ ∀ rd w, ((wDigest wTile).thr 3 wTag0.thr).run ≠ .waitTag rd w :=
  ⟨_, rfl, by decide +kernel, by decide +kernel, by decide +kernel, by decide +kernel, fun _ _ h => ThreadRun.noConfusion (show ThreadRun.run = _ from h)⟩
/-- One code of each kind of Burin operation is ready in lane 3's engine 1, over 16 zero bytes; and each service of the Strongroom. -/
theorem wit_BurinOperationsStart_ready : ∀ c ∈ wCodes,
    (((wBReady c 0).lane 3).burEng 1).run = none ∧ (((wBReady c 0).lane 3).burEng 1).pick (wBReady c 0).laneClk [c] = some (wBOp c 0)
      ∧ (wBOp c 0).src.isThread = true ∧ ((wBReady c 0).startChecks 3 1 (wBOp c 0)).code = none ∧ bChain (wBOp c 0).desc = false
      ∧ bAuxch (wBOp c 0).desc = false ∧ ((wBReady c 0).lane 3).st ≠ 4
      ∧ bData (wBOp c 0).desc (((wBReady c 0).lane 3).at (bIn (wBOp c 0).desc) (bInLen (wBOp c 0).desc)) = some (Bytes.zeros 16) := by
  decide +kernel
theorem wit_BurinOperationsStart_rows :
    (bParam (wBOp 4 0).desc 0 = 0 ∧ bAuxLen (wBOp 4 0).desc = sigLen 4) ∧ (bParam (wBOp 8 0).desc 0 = 0 ∧ (wBReady 8 0).str.lapsed = false)
      ∧ (bCheck (wBOp 0x60 0).desc = false ∧ bCheck (wBOp 0x60 16).desc = true)
      ∧ bOff (wBOp 0x7C 0).desc + (if bParam (wBOp 0x7C 0).desc 0 = 4 then 16 else 8) ≤ bInLen (wBOp 0x7C 0).desc
      ∧ (∀ c ∈ [0x80, 0x84],
        let ctr := Bytes.toNatBE (((wBReady c 0).lane 3).at (bAux (wBOp c 0).desc) (bAuxLen (wBOp c 0).desc)) % (if c = 0x80 then 2 ^ 21 else 2 ^ 32)
        (((wBReady c 0).lane 3).msg (bHandle (wBOp c 0).desc)).any (fun m => m.acked) = false ∧ ctr ≠ 0
          ∧ ((List.range 32).filter (fun i => bit ctr i)).length ≤ (if c = 0x80 then 10 else 16)) := by
  decide +kernel
theorem wit_BurinOperationsStart_service : ∀ c ∈ wRops,
    (((wRsvS c).lane 3).burEng 1).run = none ∧ (((wRsvS c).lane 3).burEng 1).pick (wRsvS c).laneClk [c] = some (wRsv c)
      ∧ (wRsv c).src = .reserve .str 7 ∧ ((wRsvS c).lane 3).st ≠ 1 ∧ ((wRsvS c).lane 3).st ≠ 4 := by decide +kernel
/-- A signing whose attempts end without a signature. -/
theorem wit_BurinOperationCompletes_fail : ((wRunS 10000000 (wRunB 8 (wBDesc 8 0) (.thread 1 6) none)).burEval 3
    (wRunB 8 (wBDesc 8 0) (.thread 1 6) none) false false).1.code ≠ 0 := by decide +kernel
theorem wit_StencilRunsComplete_start :
    (((wSt {} 0).lane 3).stn.run = none ∧ ∀ k ∈ [1, 2, 3, 4], ((wSt {} 0).lane 3).stn.pick (wSt {} 0).laneClk k = none)
    ∧ ∀ p ∈ [(1, []), (2, []), (3, [wCtx]), (4, [wCtx])],
      ((wStQ p.1 p.2).lane 3).stn.run = none ∧ ((wStQ p.1 p.2).lane 3).stn.pick (wStQ p.1 p.2).laneClk p.1 = some (wSOp p.1 8)
        ∧ ((wStQ p.1 p.2).lane 3).stnRefusal (wSOp p.1 8) = none := by decide +kernel
theorem wit_HartTrapEntry : (wH []).priv = 3 := rfl
theorem wit_MemoryControllerTrainingCompletes_remap :
    wMemoryControllerTrainingComplete_11.decodeAt 2 5 wClean = .clean wBytes5 ∧ (wMemoryControllerTrainingComplete_11.dmc 2).st = 2
      ∧ (wMemoryControllerTrainingComplete_11.dmc 2).remapped 5 = false
      ∧ (∃ v, (5, v) ∈ (wMemoryControllerTrainingComplete_11.dmc 2).corrNow ∧ (5, v) ∈ (wMemoryControllerTrainingComplete_11.dmc 2).corrPrev)
      ∧ SMap.get none 0 (wMemoryControllerTrainingComplete_11.dmc 2).remap = none ∧ wMemoryControllerTrainingComplete_11.mem.wq = [] :=
  ⟨(decodeAt_of (by decide +kernel) (by decide +kernel)).trans test_line_clean, by decide +kernel, by decide +kernel, ⟨3, by decide +kernel⟩, by decide +kernel, by decide +kernel⟩
/-- Lane digests, shares, key epoch and time agree; the protected items of both are the same. -/
theorem wit_MirrorLinkOperationsComplete_manifest :
    ∃ s : State, s.twin.dom = some wDom ∧ s.twin.pair = 2 ∧ s.manifestCode wDom (wMan s) = (0, 0) := by
  refine ⟨wFab { wTwin with pair := 2 }, rfl, rfl, ?_⟩
  have h : ∀ (s : State) (d : DomainCfg) (m : Manifest), m.prot = s.prot →
      s.manifestCode d m = s.manifestCode d { m with prot := s.prot } := fun s d m e => by rw [← e]
  unfold State.manifestCode
  simp only [ne_eq]
  rw [if_neg (by simp only [not_or]; exact ⟨by decide +kernel, by decide +kernel, fun k => k rfl, fun k => k rfl, by decide +kernel⟩)]
  iterate 3 rw [if_neg (by decide +kernel)]
  rw [if_neg (fun k => k rfl)]
  iterate 5 rw [if_neg (by decide +kernel)]
theorem wit_LockAndCellarerOperationsComplete_nested : ∃ f, f ∈ wCelState.cel.frames ∧ 1 ≤ f.prio :=
  ⟨{ prio := 2, pc := 8, regs := [], user := false, mstatus := 0 }, by decide⟩
theorem wit_JournalOperationsComplete_witness :
    let s := wLater (wJrn 2 { wRing with recs := [wRec 7 (Bytes.zeros 64)] } wTwin)
    ∃ x ∈ (s.ring 3).recs, s.jrn.mode = 2 ∧ x.committed = false ∧ x.acked = false
      ∧ x.sentClk + bits (s.reg (jrnBase + 0x28)) 13 0 * 1600 ≤ s.laneClk := ⟨wRec 7 (Bytes.zeros 64), by decide +kernel⟩
/-- A record sent once and one sent four times, both unacknowledged for longer than the timeout, and one sent just now. -/
theorem wit_JournalOperationsComplete_again : ∀ n ∈ [0, 4],
    let x := { wRec 7 (Bytes.zeros 64) with retx := n }
    let r := { wRing with recs := [x] }
    (wLater (wJrn 1 r wTwin)).twin.linkUp = true
      ∧ ((wLater (wJrn 1 r wTwin)).ring 3).recs.find? (fun y => y.seq = 7 ∧ !y.committed ∧ !y.acked) = some x
      ∧ x.sentClk + 80 ≤ (wLater (wJrn 1 r wTwin)).laneClk ∧ (wJrn 1 r wTwin).laneClk < x.sentClk + 80 := by decide +kernel
/-- A session with a message ready whose home lane is `l`. -/
def wNoTiles (l : Lane) : State := { (wNet { st := 3, ready := [[1, 2, 3]] } {}) with lanes := [(3, { l with st := 2 })] }
theorem wNoTiles_free (l : Lane) (e : l.side = wFullLane.side) (k : Nat) : ((wNoTiles l).lane (wSid / 4096)).freeTiles k = [] :=
  pickFree_full _ _ (side_full _ ((show ((wNoTiles l).lane (wSid / 4096)).side = l.side from rfl).trans e)) _ _ (by omega)
theorem wit_SessionOperationsComplete_full :
    (((wNoTiles wFullLane).sess wSid).ready = [[1, 2, 3]] ∧ (wNoTiles wFullLane).net.move = none
      ∧ ((wNoTiles wFullLane).lane (wSid / 4096)).st = 2 ∧ ((wNoTiles wFullLane).lane (wSid / 4096)).inflight < 4096
      ∧ ((wNoTiles wFullLane).lane (wSid / 4096)).msg 0 = none)
    ∧ (∃ key, (wNoTiles wFullLane).mintKey = some key)
    ∧ (((wNoTiles wFullLane).lane (wSid / 4096)).freeTiles (cdiv 3 256)).length < cdiv 3 256 :=
  ⟨by decide +kernel, ⟨_, rfl⟩, by rw [wNoTiles_free wFullLane rfl]; decide⟩
theorem wit_PcieRequestsComplete_bar : (wCard [(0, wMse)] {}).barMap 0 0 0x8000000 = some dramBase
    ∧ (wCard [(0, wMse)] {}).cardMode = true ∧ ((wCard [(0, wMse)] {}).plink 16).up = true
    ∧ ((wCard [(0, wMse)] {}).pfn 0).mse = true ∧ ((wCard [(0, wMse)] {}).pfn 0).flr = false
    ∧ ((wCard [(0, wMse)] {}).pfn 0).d3hot = false ∧ (wCard [(0, wMse)] {}).region dramBase = .dram
    ∧ (wCard [(0, wMse)] {}).region (dramBase + 3) = .dram := by
  refine ⟨?_, by decide +kernel⟩
  have h : (wCard [(0, wMse)] {}).staging = some dramBase := by
    simp [State.staging, wCard, Nat.mod_one]
  simp [State.barMap, h]
theorem wit_HostDmaOperationsComplete_descriptor :
    ((wHd {} wFnOn (wHDesc9 0)).hdValid 2 ((wHd {} wFnOn (wHDesc9 0)).hdDesc 2 0) = true ∧ (HDesc.ofBytes (wHDesc9 0)).toHost = false
      ∧ (HDesc.ofBytes (wHDesc9 1)).toHost = true ∧ (wHd {} wFnOn (wHDesc9 0)).freeTag 16 = some 16384)
    ∧ (wHd {} wFnOn []).hdValid 2 ((wHd {} wFnOn []).hdDesc 2 0) = false
    ∧ ((wHd {} wAtsOn (wHDesc9 0)).hdValid 2 ((wHd {} wAtsOn (wHDesc9 0)).hdDesc 2 0) = true
      ∧ ((wHd {} wAtsOn (wHDesc9 0)).pfn 0).ats = true ∧ (HDesc.ofBytes (wHDesc9 0)).translated = false
      ∧ (wHd {} wAtsOn (wHDesc9 0)).pcie.xlat 0 ((HDesc.ofBytes (wHDesc9 0)).host / 4096) = none)
    ∧ ((wHd (wCur 64 false) wFnOn []).inDram (HDesc.ofBytes (wHDesc9 8)).compl 16 = true ∧ (HDesc.ofBytes (wHDesc9 8)).compl % 16 = 0
      ∧ (wHd (wCur 64 false) wFnOn []).poisoned (HDesc.ofBytes (wHDesc9 8)).compl 16 = false
      ∧ (HDesc.ofBytes (wHDesc9 8)).irq = true) := by decide +kernel
/-- The runs of the three operations over good blocks: nothing ends them early, and no record or output overlaps the other. -/
theorem wit_RecorderAndArchiveOperationsComplete_run :
    (∀ p ∈ [(1, [7, 8, 9]), (2, wBlk true), (2, wBlk false), (3, wBlk true)],
      let s := wArkOn p.1 p.2
      let r := wArkRun p.1 p.2.length
      (s.arkU 1).cur = some r ∧ r.op = p.1 ∧ r.bad = false ∧ r.dataError = false ∧ (s.arkU 1).abort = false ∧ s.poisoned r.inA r.inLen = false
        ∧ s.poisoned r.outA 23 = false ∧ (r.compl + 32 ≤ r.outA ∨ r.outA + 23 ≤ r.compl) ∧ s.inDram r.compl 32 = true
        ∧ s.poisoned r.compl 32 = false ∧ r.outMax = 4096 ∧ r.failing.contains 0 = false ∧ s.dramRead r.inA r.inLen = p.2)
    ∧ (∀ f ∈ [true, false], (wBlk f).length = Bytes.le (wBlk f) 12 4 + 20 ∧ Bytes.le (wBlk f) 0 2 = 0x4B41 ∧ Bytes.le (wBlk f) 2 1 = 1
      ∧ Bytes.le (wBlk f) 3 1 < 8 ∧ Bytes.le (wBlk f) 8 4 = 3 ∧ bit (Bytes.le (wBlk f) 3 1) 0 = f
      ∧ (if f then some (Bytes.slice (wBlk f) 16 (Bytes.le (wBlk f) 12 4)) else inflate (Bytes.slice (wBlk f) 16 (Bytes.le (wBlk f) 12 4)))
        = some [7, 8, 9]
      ∧ (Crypto.crc32c [7, 8, 9]).toNat = Bytes.le (wBlk f) (16 + Bytes.le (wBlk f) 12 4) 4)
    ∧ ∀ c, ((wArkOn 1 [7, 8, 9]).dmc c).st ≠ 5 := by
  refine ⟨by decide +kernel, by decide +kernel, fun c => ?_⟩
  rw [show (wArkOn 1 [7, 8, 9]).dmc c = {} from rfl]
  decide
theorem wit_DualControlOperationsComplete_items : ∀ k ∈ [1, 2, 3, 4, 5, 6, 7, 8, 0x10, 0x11, 0x12, 0x13, 0x14, 0x15, 0x16, 0x17],
    (wSetOf k).str.bootstrap = false ∧ (wSetOf k).cel.st = 3 ∧ (wSetOf k).pwr.boot ≠ 6 ∧ ((wSetOf k).mbx 5).st = 3 ∧ ((wSetOf k).mbx 5).lostSender = false
      ∧ (wSetOf k).arg 5 0 = 0x30 * 65536 + 6 ∧ (wSetOf k).isAdmin ((wSetOf k).sender 5) = true ∧ (wSetOf k).arg 5 1 = k ∧ (wSetOf k).arg 5 4 ≤ 65536
      ∧ (wSetOf k).bufOk ((wSetOf k).arg64 5 2) ((wSetOf k).arg 5 4) = true ∧ (wSetOf k).cel.tickets = [] := by decide +kernel
theorem wit_RegisterWriteCompletes_rows : (regRow 0x32000010).isSome = true ∧ (regRow 0x32000008).isSome = true := by decide +kernel
theorem wit_HartMemoryAccessesComplete_unassigned :
    (wAccBad.hart 7).ready = true ∧ (wAccBad.hart 7).armed = false
      ∧ (wAccBad.setHart 7 { wAccBad.hart 7 with ilen := 4 }).xlRange 7 1 0xFFFFFFFF000 4 = .ok [(0xFFFFFFFF000, 4)]
      ∧ (((wAccBad.hart 7).rd (wLd .load).rs1).toNat + (wLd .load).imm) % (2 : Int) ^ 64 = 0xFFFFFFFF000
      ∧ wAccBad.region 0xFFFFFFFF000 = .unassigned ∧ wAccBad.region (0xFFFFFFFF000 + 3) = .unassigned := by decide +kernel
/-- A debug unlock that covers the system bus. -/
def wBusOpen : State := let s := wDebug (wH []); { s with str := { s.str with unlockSysbus := true } }
theorem wit_DebugOperationsComplete_bus : wBusOpen.str.unlockSysbus = true ∧ dramBase % 8 = 0 ∧ wBusOpen.region dramBase = .dram
    ∧ wBusOpen.poisoned dramBase 8 = false := by decide +kernel
/-- Mailbox 5 holds LANE_LOAD for lane 3 with an wLaneImage at the DRAM base. -/
def wImgLoad : State :=
  { wSk 0x11 7 [(1, 8), (2, 0), (4, dramBase / 2 ^ 32), (5, 372)] {} with dram := memWrite [] dramBase wLaneImage }
theorem wit_DualControlOperationsComplete_image :
    (wImgLoad.cel.st = 3 ∧ wImgLoad.pwr.boot ≠ 6 ∧ (wImgLoad.mbx 5).st = 3 ∧ (wImgLoad.mbx 5).lostSender = false
      ∧ wImgLoad.arg 5 0 = 0x11 * 65536 + 7) ∧ wImgLoad.isAdmin (wImgLoad.sender 5) = true ∧ wImgLoad.cel.tickets = [] ∧ wImgLoad.arg 5 1 = 8
      ∧ wImgLoad.arg 5 2 < 4 ∧ wImgLoad.bufOk (wImgLoad.arg64 5 3) (wImgLoad.arg 5 5) = true
      ∧ wImgLoad.dramRead (wImgLoad.arg64 5 3) (wImgLoad.arg 5 5) = wLaneImage
      ∧ (∀ k ∈ maskLanes 8, wImgLoad.imageCode k false wLaneImage = 0) ∧ wImgLoad.storeFits wLaneImage = true := by decide +kernel

end Sys2Proof.Tests
end

section
/-!
The reads of registers (R9, R11): which registers have RC fields, what the two halves of a read's effect leave alone, and
the statement of O11.
-/

namespace Sys2Proof.Machine
open Sys2Proof

/-! ### The register map -/

/-- Offset `o` lies on a register of the row. -/
def RegRow.Covers (r : RegRow) (o : Nat) : Prop := r.off ≤ o ∧ (o - r.off) % r.stride = 0 ∧ (o - r.off) / r.stride < r.count

theorem findRow_some {o : Nat} {r : RegRow} : ∀ {rs : List RegRow}, findRow o rs = some r → r ∈ rs ∧ r.Covers o
  | q :: rs, h => by
    simp only [findRow] at h
    split at h
    next hq => cases h; exact ⟨List.mem_cons_self, hq⟩
    next => obtain ⟨hm, hc⟩ := findRow_some h; exact ⟨List.mem_cons_of_mem _ hm, hc⟩

theorem findBlock_some {a i o : Nat} {b : RegBlock} : ∀ {bs : List RegBlock}, findBlock a bs = some (b, i, o) →
    b ∈ bs ∧ b.base ≤ a ∧ a < b.base + b.count * b.size ∧ o = (a - b.base) % b.size
  | c :: bs, h => by
    simp only [findBlock] at h
    split at h
    next hc => cases h; exact ⟨List.mem_cons_self, hc.1, hc.2, rfl⟩
    next => obtain ⟨hm, hc⟩ := findBlock_some h; exact ⟨List.mem_cons_of_mem _ hm, hc⟩

/-- The register at an address stands in a row of the block that holds the address. -/
theorem regRow_some {a : Nat} {r : RegRow} (h : regRow a = some r) :
    ∃ b ∈ regBlocks, r ∈ b.rows ∧ b.base ≤ a ∧ a < b.base + b.count * b.size ∧ r.Covers ((a - b.base) % b.size) := by
  unfold regRow at h
  split at h
  next b i o hb =>
    obtain ⟨hmem, hlo, hhi, rfl⟩ := findBlock_some hb
    obtain ⟨hr, hc⟩ := findRow_some h
    exact ⟨b, hmem, hr, hlo, hhi, hc⟩
  next => cases h

/-- Where RC fields stand: block base, instances, instance size and register offset of RX (MBX), LOST (RAS), HM_ERR (LANE),
COMMIT_MAX and PORT_WAIT_MAX (JRN). -/
def rcPlaces : List (Nat × Nat × Nat × Nat) :=
  [(0x01000000, 64, 0x1000, 0x80), (0x028FF000, 1, 0x1000, 0x8), (0x10000000, 16, 0x1000000, 0xC0),
   (0x30000000, 1, 0x1000000, 0x38), (0x30000000, 1, 0x1000000, 0x3C)]

theorem rcRow_place : ∀ b ∈ regBlocks, ∀ r ∈ b.rows, r.rc ≠ 0 →
    (b.base, b.count, b.size, r.off) ∈ rcPlaces ∧ r.count = 1 ∧ r.stride = 4 := by decide

/-- A row of one register covers its own offset only. -/
theorem RegRow.Covers.eq_off {r : RegRow} {o : Nat} (h : r.Covers o) (hcount : r.count = 1) (hstride : r.stride = 4) :
    o = r.off := by
  obtain ⟨hle, hmod, hdiv⟩ := h
  rw [hstride] at hmod hdiv
  rw [hcount] at hdiv
  omega

/-- The addresses of the registers with RC fields. -/
theorem rcReg_addr {a : Nat} {r : RegRow} (h : regRow a = some r) (hrc : r.rc ≠ 0) :
    (0x01000000 ≤ a ∧ a < 0x01040000) ∨ a = 0x028FF008 ∨ (0x10000000 ≤ a ∧ a < 0x20000000 ∧ a % 0x1000000 = 0xC0)
      ∨ a = 0x30000038 ∨ a = 0x3000003C := by
  obtain ⟨b, hb, hr, hlo, hhi, hcov⟩ := regRow_some h
  obtain ⟨hplace, hcount, hstride⟩ := rcRow_place b hb r hr hrc
  have hoff := hcov.eq_off hcount hstride
  simp only [rcPlaces, List.mem_cons, Prod.mk.injEq, List.not_mem_nil, or_false] at hplace
  rcases hplace with hp | hp | hp | hp | hp
  all_goals
    obtain ⟨hbase, hn, hsize, ho⟩ := hp
    rw [hbase, hsize, ho] at hoff
    rw [hbase, hn, hsize] at hhi
    omega

/-- No register with RC fields is the low word of a pair: the read of a low word clears nothing. -/
theorem isLow_rc_zero {a : Nat} {r : RegRow} (hlow : isLow a = true) (h : regRow a = some r) : r.rc = 0 := by
  by_contra hrc
  rcases rcReg_addr h hrc with ⟨hlo, hhi⟩ | rfl | ⟨hlo, hhi, hoff⟩ | rfl | rfl
  case inl =>
    rw [isLow, if_neg (by omega), if_neg (by omega), if_neg (by omega), if_neg (by omega), if_neg (by omega),
      if_neg (by omega)] at hlow
    simp only [Bool.or_eq_true, decide_eq_true_eq] at hlow
    omega
  case inr.inr.inl =>
    rw [isLow, if_pos ⟨hlo, hhi⟩, hoff] at hlow
    exact absurd hlow (by decide)
  all_goals exact absurd hlow (by decide)

/-! ### The two effects of a read -/

/-- An answer changes no register. -/
@[simp] theorem State.reg_answer (s : State) (ag v b : Nat) : (s.answer ag v).reg b = s.reg b :=
  (State.answer_reads s ag v b 0 0 0 0).1

/-- The RC bits of the register at an address; none where no register stands. -/
def rcBits (a : Nat) : Nat := match regRow a with
  | some r => r.rc
  | none => 0

theorem rcBits_of_row {a : Nat} {r : RegRow} (h : regRow a = some r) : rcBits a = r.rc := by simp [rcBits, h]

theorem rcBits_of_isLow {a : Nat} (hlow : isLow a = true) : rcBits a = 0 := by
  cases h : regRow a with
  | none => simp [rcBits, h]
  | some r => rw [rcBits_of_row h, isLow_rc_zero hlow h]

/-- What a read leaves of RC fields: the events of the same cycle (R9). -/
def State.readClear (s : State) (a ev : Nat) : State :=
  if rcBits a = 0 then s else s.setReg a (s.regVal a - (s.regVal a &&& rcBits a) + (ev &&& rcBits a))

/-- What a read of a low word latches for its reader (R11). -/
def State.latchHigh (s : State) (ag a : Nat) : State :=
  if isLow a then
    { s with latch := (ag, a + 4, BitVec.ofNat 32 (s.regVal (a + 4))) ::
                        s.latch.filter (fun x => !(x.1 = ag && x.2.1 = a + 4)) }
  else s

/-- The reader `ag` has dropped its latched value of `a`. -/
def State.unlatch (s : State) (ag a : Nat) : State :=
  { s with latch := s.latch.filter (fun x => !(x.1 = ag && x.2.1 = a)) }

theorem State.readClear_of_isLow {s : State} {a ev : Nat} (hlow : isLow a = true) : s.readClear a ev = s :=
  if_pos (rcBits_of_isLow hlow)
theorem State.reg_readClear_self {s : State} {a ev : Nat} {r : RegRow} (h : regRow a = some r) (hrc : r.rc ≠ 0) :
    (s.readClear a ev).reg a = (s.regVal a - (s.regVal a &&& r.rc) + (ev &&& r.rc)) % 2 ^ 32 := by
  rw [State.readClear, rcBits_of_row h, if_neg hrc, State.reg_setReg_self]
theorem State.reg_readClear_ne {s : State} {a b ev : Nat} (h : b ≠ a) : (s.readClear a ev).reg b = s.reg b := by
  unfold State.readClear
  split
  · rfl
  · exact State.reg_setReg_ne s h _
theorem State.readClear_frame (s : State) (a ev : Nat) : s.readClear a ev = { s with regs := (s.readClear a ev).regs } := by
  unfold State.readClear
  split <;> rfl

theorem State.latchHigh_frame (s : State) (ag a : Nat) : s.latchHigh ag a = { s with latch := (s.latchHigh ag a).latch } := by
  unfold State.latchHigh
  split <;> rfl
@[simp] theorem State.latchHigh_reg (s : State) (ag a b : Nat) : (s.latchHigh ag a).reg b = s.reg b := by
  rw [State.latchHigh_frame]; rfl
theorem State.latchHigh_find {s : State} {ag a : Nat} (hlow : isLow a = true) :
    (s.latchHigh ag a).latch.find? (fun l => decide (l.1 = ag) && decide (l.2.1 = a + 4))
      = some (ag, a + 4, BitVec.ofNat 32 (s.regVal (a + 4))) := by
  simp [State.latchHigh, hlow]
theorem State.unlatch_find (s : State) (ag a : Nat) :
    (s.unlatch ag a).latch.find? (fun l => decide (l.1 = ag) && decide (l.2.1 = a)) = none := by
  rw [List.find?_eq_none]
  intro l hl
  simpa [imp_iff_not_or] using (List.mem_filter.1 hl).2

/-! ### The read itself -/

/-- Above the mailboxes and locks, a read of a register whose high word is not latched is live, and has both effects. -/
theorem State.regRead_live {s : State} {ag a : Nat} (ev : Nat) (ha : 0x02000000 ≤ a)
    (h : s.latch.find? (fun l => decide (l.1 = ag) && decide (l.2.1 = a)) = none) :
    s.regRead ag a ev = ((s.readClear a ev).latchHigh ag a, s.regVal a) := by
  unfold State.regRead
  rw [if_neg (by omega), if_neg (by omega), if_neg (by omega), h]
  rfl
/-- A latched high word is what its reader gets, once. -/
theorem State.regRead_latched {s : State} {ag a : Nat} {v : W32} (ev : Nat) (ha : 0x02000000 ≤ a)
    (h : s.latch.find? (fun l => decide (l.1 = ag) && decide (l.2.1 = a)) = some (ag, a, v)) :
    s.regRead ag a ev = (s.unlatch ag a, v.toNat) := by
  unfold State.regRead
  rw [if_neg (by omega), if_neg (by omega), if_neg (by omega), h]
  rfl
/-- An aligned read of a register by an agent that may read it is answered. -/
theorem State.readTo_granted {s : State} {ag a : Nat} (ev : Nat) (hreg : s.region a = .regs) (hal : a % 4 = 0)
    (hmay : s.regMay ag a false = true) :
    s.readTo ag a ev = (s.regRead ag a ev).1.answer ag (s.regRead ag a ev).2 := by
  simp [State.readTo, hreg, aligned, hal, hmay]

theorem exec_registerReadClear (g : Agent) (a : Nat) (ev : W32) (s : State) :
    exec (.registerReadClear g a ev) s = .next (s.readTo g a ev.toNat) := rfl
theorem exec_lowWordRead (g : Agent) (a : Nat) (s : State) : exec (.lowWordRead g a) s = .next (s.readTo g a 0) := rfl

/-- Settles O11: a granted read is `regRead`, which is live with both effects of R9 and R11, or the latched word. -/
theorem registerReadsComplete : Obligations.RegisterReadsComplete := by
  unfold Obligations.RegisterReadsComplete
  intro g a ev s hreg hal ha hmay mine
  have hread (e : Nat) := State.readTo_granted e hreg hal hmay
  refine ⟨fun hlive => ⟨⟨_, exec_registerReadClear g a ev s, ?_⟩, fun hlow => ⟨_, exec_lowWordRead g a s, ?_⟩⟩,
    fun v hlatched => ⟨_, exec_registerReadClear g a ev s, ?_⟩⟩
  · rw [hread, State.regRead_live _ ha hlive]
    refine ⟨State.answer_readRes .., fun r hr hrc => ?_, fun b hb => ?_, ?_⟩
    · simpa using State.reg_readClear_self hr hrc
    · simpa using State.reg_readClear_ne hb
    · rw [State.latchHigh_frame, State.readClear_frame]; rfl
  · rw [hread, State.regRead_live _ ha hlive, State.readClear_of_isLow hlow]
    exact ⟨State.answer_readRes .., State.latchHigh_find hlow⟩
  · rw [hread, State.regRead_latched _ ha hlatched]
    exact ⟨State.answer_readRes .., State.unlatch_find s g a, rfl, rfl⟩

end Sys2Proof.Machine
end

section
/-!
Locks and the Cellarer core (R320, R321, R324, R338 to R341): who takes a lock of several readers, what the reset of an agent
does to the mailboxes and locks and what it leaves of the Cellarer, what a restart begins with, which interrupt is taken, and
the statement of O49.
-/

namespace Sys2Proof.SMap

/-- What a read finds is listed. -/
theorem mem_of_find {α : Type} {k : Nat} {v : α} : ∀ {m : SMap α}, find k m = some v → (k, v) ∈ m
  | (j, w) :: m, h => by
    simp only [find] at h
    split at h
    next hj => cases h; exact hj ▸ List.mem_cons_self
    next => exact List.mem_cons_of_mem _ (mem_of_find h)

end Sys2Proof.SMap

namespace Sys2Proof.Machine
open Sys2Proof

/-! ### Shapes of the shared operations -/

theorem State.msix_shape (s : State) (fn vec : Nat) : s.msix fn vec = { s with pcie := (s.msix fn vec).pcie } := by
  unfold State.msix
  dsimp only
  split <;> rfl
theorem State.mbxIrq_shape (s : State) (n : Nat) :
    s.mbxIrq n = { s with msis := (s.mbxIrq n).msis, pcie := (s.mbxIrq n).pcie } := by
  unfold State.mbxIrq
  dsimp only
  split
  · rfl
  · split
    · rw [State.msix_shape]
    · rw [State.sendTarget_shape]

/-- From `s` to `u` the Cellarer, the recorder and DRAM stay as they are. -/
structure State.Aside (s u : State) : Prop where
  cel : u.cel = s.cel
  gar : u.gar = s.gar
  dram : u.dram = s.dram

theorem State.Aside.trans {s t u : State} (h : s.Aside t) (k : t.Aside u) : s.Aside u :=
  ⟨k.cel.trans h.cel, k.gar.trans h.gar, k.dram.trans h.dram⟩
theorem State.Aside.refl (s : State) : s.Aside s := ⟨rfl, rfl, rfl⟩
theorem State.Aside.ite {s t u : State} (c : Prop) [Decidable c] (ht : s.Aside t) (hu : s.Aside u) :
    s.Aside (if c then t else u) := by
  split
  · exact ht
  · exact hu
theorem State.msix_aside (s : State) (fn vec : Nat) : s.Aside (s.msix fn vec) := by
  rw [State.msix_shape]
  exact ⟨rfl, rfl, rfl⟩
theorem State.sendTarget_aside (s : State) (v : Nat) : s.Aside (s.sendTarget v) := by
  rw [State.sendTarget_shape]
  exact ⟨rfl, rfl, rfl⟩
/-- A RAS record changes its ring, and may raise an interrupt here and in the host. -/
theorem State.rasRec_aside (s : State) (r : RasIn) : s.Aside (s.rasRec r).1 := by
  simp only [State.rasRec, fst_ite]
  refine .ite _ ⟨rfl, rfl, rfl⟩ (.trans ?_ (.ite _ (State.sendTarget_aside _ _) (.refl _)))
  refine .trans ?_ (.ite _ (State.msix_aside _ 0 0) (.refl _))
  exact ⟨rfl, rfl, rfl⟩
/-- `State.ras` as a function: at a state, the kernel would run the record's ring arithmetic to compare the two sides. -/
theorem State.ras_eq : State.ras = fun s r => (s.rasRec r).1 := rfl
theorem State.ras_aside (s : State) (r : RasIn) : s.Aside (s.ras r) := by
  rw [State.ras_eq]
  exact s.rasRec_aside r

/-- A record that reaches its port leaves the recorder's freeze as it is. -/
@[simp] theorem State.gRec_freezing (s : State) (r : GarRec) : (s.gRec r).gar.freezing = s.gar.freezing := by
  unfold State.gRec
  dsimp only
  split
  · rfl
  · split <;> rfl
@[simp] theorem State.gEvt_freezing (s : State) (src inst : Nat) (code : Code) (ag x y z : Nat) :
    (s.gEvt src inst code ag x y z).gar.freezing = s.gar.freezing := State.gRec_freezing s _
/-- A trigger of a running recorder starts the freeze. -/
theorem State.gFreeze_starts {s : State} (trig who : Nat) (hrun : s.gar.frozen = false) (hnew : s.gar.freezing = none) :
    (s.gFreeze trig who).gar.freezing.isSome = true := by
  simp [State.gFreeze, hrun, hnew]

/-! ### Locks (R338 to R340) -/

/-- One reader of a lock is served: it learns what its read returns. -/
def State.serveReader (n : Nat) (s : State) (a : Agent) : State := (s.lockRead n a.val).1.answer a.val (s.lockRead n a.val).2

theorem State.serveReader_free {s : State} {n : Nat} (a : Agent) (h : s.lockHolder n = none) :
    s.serveReader n a = (s.setLock n (some a.val)).answer a.val 0 := by
  simp [State.serveReader, State.lockRead, h]
theorem State.serveReader_held {s : State} {n h : Nat} (a : Agent) (hh : s.lockHolder n = some h) :
    s.serveReader n a = s.answer a.val (2 ^ 31 + h) := by
  simp [State.serveReader, State.lockRead, hh]

@[simp] theorem State.lockHolder_answer (s : State) (a v n : Nat) : (s.answer a v).lockHolder n = s.lockHolder n := rfl

/-- While a lock is held, its readers learn the holder, and nothing but their results changes. -/
theorem State.serveReaders_held {n h : Nat} : ∀ (gs : List Agent) {s : State}, s.lockHolder n = some h →
    (∀ a ∈ gs, SMap.get 0 a (gs.foldl (State.serveReader n) s).readRes = 2 ^ 31 + h)
      ∧ (∀ a : Agent, a ∉ gs → SMap.get 0 a (gs.foldl (State.serveReader n) s).readRes = SMap.get 0 a s.readRes)
      ∧ gs.foldl (State.serveReader n) s = { s with readRes := (gs.foldl (State.serveReader n) s).readRes,
                                                    readErr := (gs.foldl (State.serveReader n) s).readErr }
  | [], s, _ => by simp
  | b :: gs, s, hh => by
    obtain ⟨hin, hout, hframe⟩ := State.serveReaders_held gs (s := s.answer b.val (2 ^ 31 + h)) hh
    rw [List.foldl_cons, State.serveReader_held b hh]
    refine ⟨fun a ha => ?_, fun a ha => ?_, ?_⟩
    · by_cases hmem : a ∈ gs
      · exact hin a hmem
      · obtain rfl : a = b := (List.mem_cons.1 ha).resolve_right hmem
        rw [hout a hmem, State.answer_readRes]
    · rw [List.mem_cons, not_or] at ha
      rw [hout a ha.2, State.answer_readRes_ne _ (Fin.val_ne_of_ne ha.1)]
    · rw [hframe]; rfl

/-- The readers of one cycle are served in agent order: all of them, the lowest first. -/
theorem lockReaders_eq_cons {gs : List Agent} {g : Agent} (hnamed : ∀ a ∈ gs, a.named = true) (hg : g ∈ gs)
    (hle : ∀ a ∈ gs, g.val ≤ a.val) :
    ∃ rest, (gs.filter (·.named)).insertionSort (fun a b => a.val ≤ b.val) = g :: rest ∧ (g :: rest).Perm gs := by
  rw [List.filter_eq_self.2 hnamed]
  have hperm := List.perm_insertionSort (fun a b : Agent => a.val ≤ b.val) gs
  have : Std.Total (fun a b : Agent => a.val ≤ b.val) := ⟨fun a b => Nat.le_total a.val b.val⟩
  have : IsTrans Agent (fun a b => a.val ≤ b.val) := ⟨fun _ _ _ => Nat.le_trans⟩
  have hsorted := List.pairwise_insertionSort (fun a b : Agent => a.val ≤ b.val) gs
  generalize gs.insertionSort (fun a b : Agent => a.val ≤ b.val) = sorted at hperm hsorted
  cases sorted with
  | nil => exact absurd (hperm.mem_iff.2 hg) List.not_mem_nil
  | cons first rest =>
    have hfirst : first.val ≤ g.val := by
      rcases List.mem_cons.1 (hperm.mem_iff.2 hg) with rfl | hmem
      · exact Nat.le_refl _
      · exact List.rel_of_pairwise_cons hsorted hmem
    obtain rfl : first = g := Fin.ext (Nat.le_antisymm hfirst (hle first (hperm.mem_iff.1 List.mem_cons_self)))
    exact ⟨rest, rfl, hperm⟩

theorem exec_lockRead (gs : List Agent) (n : LockId) (s : State) :
    exec (.lockRead gs n) s = .next (((gs.filter (·.named)).insertionSort (fun a b => a.val ≤ b.val)).foldl
      (State.serveReader n) s) := rfl

/-- The lowest of the readers of one cycle takes a free lock; the others learn that it has it. -/
theorem runs_lockRead_free {gs : List Agent} {g : Agent} {n : LockId} {s : State} (hnamed : ∀ a ∈ gs, a.named = true)
    (hg : g ∈ gs) (hle : ∀ a ∈ gs, g.val ≤ a.val) (hfree : s.lockHolder n = none) :
    Runs (.lockRead gs n) s fun u =>
      u.lockHolder n = some g.val ∧ (∀ a ∈ gs, a ≠ g → SMap.get 0 a u.readRes = 2 ^ 31 + g.val)
        ∧ (gs.count g = 1 → SMap.get 0 g u.readRes = 0) ∧ ∀ j, j ≠ n.val → u.lockHolder j = s.lockHolder j := by
  obtain ⟨rest, hsort, hperm⟩ := lockReaders_eq_cons hnamed hg hle
  refine ⟨_, exec_lockRead gs n s, ?_⟩
  rw [hsort, List.foldl_cons, State.serveReader_free g hfree]
  obtain ⟨hin, hout, hframe⟩ := State.serveReaders_held rest (n := n.val) (h := g.val)
    (s := (s.setLock n (some g.val)).answer g.val 0) (by simp)
  have hlocks : ∀ j, (rest.foldl (State.serveReader n) ((s.setLock n (some g.val)).answer g.val 0)).lockHolder j
      = (s.setLock n (some g.val)).lockHolder j := fun j => by rw [hframe]; rfl
  refine ⟨?_, fun a ha hne => ?_, fun hcount => ?_, fun j hj => ?_⟩
  · rw [hlocks, State.lockHolder_setLock_self]
  · exact hin a ((List.mem_cons.1 (hperm.mem_iff.2 ha)).resolve_left hne)
  · have hrest : g ∉ rest := by
      rw [← hperm.count_eq, List.count_cons_self] at hcount
      exact List.count_eq_zero.1 (by omega)
    rw [hout g hrest, State.answer_readRes]
  · rw [hlocks, State.lockHolder_setLock_ne _ hj]

/-- The readers of a lock that is held learn its holder, and nothing else changes. -/
theorem runs_lockRead_held {gs : List Agent} {n : LockId} {s : State} {h : Nat} (hnamed : ∀ a ∈ gs, a.named = true)
    (hheld : s.lockHolder n = some h) :
    Runs (.lockRead gs n) s fun u =>
      (∀ a ∈ gs, SMap.get 0 a u.readRes = 2 ^ 31 + h) ∧ u = { s with readRes := u.readRes, readErr := u.readErr } := by
  refine ⟨_, exec_lockRead gs n s, ?_⟩
  rw [List.filter_eq_self.2 hnamed]
  obtain ⟨hin, -, hframe⟩ := State.serveReaders_held (gs.insertionSort (fun a b => a.val ≤ b.val)) hheld
  exact ⟨fun a ha => hin a ((List.mem_insertionSort _).2 ha), hframe⟩

theorem exec_lockWrite {g : Agent} (n : LockId) (v : W32) (s : State) (hg : g.named = true) :
    exec (.lockWrite g n v) s = .next (if s.lockHolder n = some g.val then s.setLock n none
      else (s.incReg 0x02000030 1).gEvt 1 0 0 g n 0 0) := by
  have hid : ¬ 275 < g.val := Nat.not_lt.2 (of_decide_eq_true hg)
  exact congrArg Host.Outcome.next (if_neg hid)

/-- The holder's write frees its lock alone. -/
theorem runs_lockWrite_holder {g : Agent} {n : LockId} {s : State} (v : W32) (hg : g.named = true)
    (hheld : s.lockHolder n = some g.val) :
    Runs (.lockWrite g n v) s fun u =>
      u.lockHolder n = none ∧ (∀ j, j ≠ n.val → u.lockHolder j = s.lockHolder j) ∧ u = { s with cel := u.cel } :=
  ⟨_, by rw [exec_lockWrite n v s hg, if_pos hheld],
    State.lockHolder_setLock_self .., fun _ hj => State.lockHolder_setLock_ne _ hj _, rfl⟩

/-- Any other write of a lock is counted and recorded, and frees nothing. -/
theorem runs_lockWrite_other {g : Agent} {n : LockId} {s : State} (v : W32) (hg : g.named = true)
    (hheld : s.lockHolder n ≠ some g.val) :
    Runs (.lockWrite g n v) s fun u =>
      u.cel = s.cel ∧ u.reg 0x02000030 = (s.reg 0x02000030 + 1) % 2 ^ 32 ∧ u = { s with regs := u.regs, gar := u.gar } := by
  refine ⟨_, by rw [exec_lockWrite n v s hg, if_neg hheld], by simp, ?_, ?_⟩
  · rw [(State.gEvt_reads _ _ _ _ _ _ _ _ _ 0 0 0 0).1]
    exact State.reg_setReg_self s _ _
  · rw [State.gEvt_shape]; rfl

/-! ### An agent's reset: the mailboxes (R332, R333, R335) -/

/-- From `s` to `u` the Cellarer's state changes in its mailboxes at most, and no DRAM and no freeze changes. -/
structure State.MailOnly (s u : State) : Prop where
  cel : u.cel = { s.cel with mbx := u.cel.mbx }
  freezing : u.gar.freezing = s.gar.freezing
  dram : u.dram = s.dram

namespace State.MailOnly

theorem refl (s : State) : s.MailOnly s := ⟨rfl, rfl, rfl⟩
theorem trans {s t u : State} (h : s.MailOnly t) (k : t.MailOnly u) : s.MailOnly u :=
  ⟨by rw [k.cel, h.cel], k.freezing.trans h.freezing, k.dram.trans h.dram⟩
theorem setMbx (s : State) (n : Nat) (m : Mbx) : s.MailOnly (s.setMbx n m) := ⟨rfl, rfl, rfl⟩
theorem mbxIrq (s : State) (n : Nat) : s.MailOnly (s.mbxIrq n) := by rw [State.mbxIrq_shape]; exact ⟨rfl, rfl, rfl⟩
theorem gEvt (s : State) (src inst : Nat) (code : Code) (ag x y z : Nat) : s.MailOnly (s.gEvt src inst code ag x y z) :=
  ⟨by simp, by simp, by simp⟩
theorem mbxExpire (s : State) (n code : Nat) : s.MailOnly (s.mbxExpire n code) :=
  ((setMbx s n _).trans (gEvt _ 1 n (BitVec.ofNat 16 code) (s.mbx n).sender n 0 0)).trans (mbxIrq _ n)
theorem ite {s t u : State} (c : Prop) [Decidable c] (ht : s.MailOnly t) (hu : s.MailOnly u) :
    s.MailOnly (if c then t else u) := by
  split
  · exact ht
  · exact hu
theorem foldl {f : State → Nat → State} (hf : ∀ (s : State) (n : Nat), s.MailOnly (f s n)) : ∀ (ns : List Nat) (s : State),
    s.MailOnly (ns.foldl f s)
  | [], s => refl s
  | n :: ns, s => (hf s n).trans (foldl hf ns (f s n))

end State.MailOnly

@[simp] theorem State.mbx_gEvt (s : State) (src inst : Nat) (code : Code) (ag x y z k : Nat) :
    (s.gEvt src inst code ag x y z).mbx k = s.mbx k := by simp [State.mbx]
@[simp] theorem State.mbx_mbxIrq (s : State) (n k : Nat) : (s.mbxIrq n).mbx k = s.mbx k := by
  rw [State.mbxIrq_shape]; rfl
theorem State.mbx_mbxExpire_self (s : State) (n code : Nat) :
    (s.mbxExpire n code).mbx n = { s.mbx n with st := 5, timeout := true, code := code, running := false } := by
  simp [State.mbxExpire]
theorem State.mbx_mbxExpire_ne (s : State) {n k : Nat} (h : k ≠ n) (code : Nat) : (s.mbxExpire n code).mbx k = s.mbx k := by
  simp [State.mbxExpire, h]

/-- What the reset of its sender `a` does to the message of mailbox `n`. -/
def State.mbxSenderReset (s : State) (a n : Nat) : State :=
  if (s.mbx n).st ≠ 0 ∧ (s.mbx n).sender = a then
    if (s.mbx n).st = 1 ∨ (s.mbx n).st = 2 then s.setMbx n ((s.mbx n).idle 0x0104)
    else if (s.mbx n).st = 3 then s.setMbx n { s.mbx n with lostSender := true } else s
  else s
/-- The reset of an agent reaches the mailbox on its sender's side, then on its receiver's. -/
theorem State.mbxAgentReset_eq (s : State) (a n : Nat) :
    s.mbxAgentReset a n =
      if (s.mbxSenderReset a n).mbxReceiver n = a
          ∧ (((s.mbxSenderReset a n).mbx n).st = 2 ∨ ((s.mbxSenderReset a n).mbx n).st = 3)
      then (s.mbxSenderReset a n).mbxExpire n 0x0103 else s.mbxSenderReset a n := rfl

theorem State.mbxSenderReset_mailOnly (s : State) (a n : Nat) : s.MailOnly (s.mbxSenderReset a n) :=
  .ite _ (.ite _ (.setMbx ..) (.ite _ (.setMbx ..) (.refl s))) (.refl s)
theorem State.mbxAgentReset_mailOnly (s : State) (a n : Nat) : s.MailOnly (s.mbxAgentReset a n) := by
  rw [State.mbxAgentReset_eq]
  exact (s.mbxSenderReset_mailOnly a n).trans (.ite _ (.mbxExpire ..) (.refl _))

theorem State.mbx_mbxSenderReset_ne (s : State) {n k : Nat} (h : k ≠ n) (a : Nat) : (s.mbxSenderReset a n).mbx k = s.mbx k := by
  unfold State.mbxSenderReset
  repeat' split
  all_goals simp [h]
theorem State.mbx_mbxAgentReset_ne (s : State) {n k : Nat} (h : k ≠ n) (a : Nat) : (s.mbxAgentReset a n).mbx k = s.mbx k := by
  rw [State.mbxAgentReset_eq]
  split
  · rw [State.mbx_mbxExpire_ne _ h, State.mbx_mbxSenderReset_ne _ h]
  · exact State.mbx_mbxSenderReset_ne s h a
/-- The reset of its receiver ends a waiting or taken message that another agent sent. -/
theorem State.mbxAgentReset_receiver {s : State} {a n : Nat} (hto : s.mbxReceiver n = a)
    (hst : (s.mbx n).st = 2 ∨ (s.mbx n).st = 3) (hfrom : (s.mbx n).sender ≠ a) :
    s.mbxAgentReset a n = s.mbxExpire n 0x0103 := by
  have hsender : s.mbxSenderReset a n = s := if_neg fun h => hfrom h.2
  rw [State.mbxAgentReset_eq, hsender, if_pos ⟨hto, hst⟩]

theorem State.mbx_foldl_mbxAgentReset_of_notMem (a : Nat) {k : Nat} : ∀ (ns : List Nat) (s : State), k ∉ ns →
    (ns.foldl (State.mbxAgentReset · a) s).mbx k = s.mbx k
  | [], _, _ => rfl
  | n :: ns, s, h => by
    rw [List.mem_cons, not_or] at h
    rw [List.foldl_cons, State.mbx_foldl_mbxAgentReset_of_notMem a ns _ h.2, State.mbx_mbxAgentReset_ne s h.1]

/-! ### An agent's reset: the locks (R341) -/

theorem State.lockHolder_abandonLock_self (s : State) (n : Nat) : (s.abandonLock n).lockHolder n = none :=
  State.lockHolder_setLock_self s n none
theorem State.lockHolder_abandonLock_ne (s : State) {n k : Nat} (h : k ≠ n) : (s.abandonLock n).lockHolder k = s.lockHolder k :=
  State.lockHolder_setLock_ne s h none

/-- Every lock of the list is abandoned. -/
def State.abandonLocks (s : State) (ps : List (Nat × Nat)) : State := ps.foldl (fun s p => s.abandonLock p.1) s
@[simp] theorem State.abandonLocks_cons (s : State) (p : Nat × Nat) (ps : List (Nat × Nat)) :
    s.abandonLocks (p :: ps) = (s.abandonLock p.1).abandonLocks ps := rfl

theorem State.abandonLocks_shape : ∀ (ps : List (Nat × Nat)) (s : State),
    s.abandonLocks ps = { s with regs := (s.abandonLocks ps).regs,
                                 cel := { s.cel with locks := (s.abandonLocks ps).cel.locks } }
  | [], _ => rfl
  | p :: ps, s => by
    rw [State.abandonLocks_cons, State.abandonLocks_shape ps]
    rfl
/-- No lock is taken by abandoning others. -/
theorem State.abandonLocks_free {k : Nat} : ∀ (ps : List (Nat × Nat)) {s : State}, s.lockHolder k = none →
    (s.abandonLocks ps).lockHolder k = none
  | [], _, h => h
  | p :: ps, s, h => by
    refine State.abandonLocks_free ps ?_
    by_cases hk : k = p.1
    · rw [hk, State.lockHolder_abandonLock_self]
    · rw [State.lockHolder_abandonLock_ne s hk, h]
theorem State.abandonLocks_mem {k h : Nat} {ps : List (Nat × Nat)} (s : State) (hk : (k, h) ∈ ps) :
    (s.abandonLocks ps).lockHolder k = none := by
  induction ps generalizing s with
  | nil => exact absurd hk List.not_mem_nil
  | cons p ps ih =>
    rw [State.abandonLocks_cons]
    rcases List.mem_cons.1 hk with hp | hrest
    · subst hp
      exact State.abandonLocks_free ps (s.lockHolder_abandonLock_self k)
    · exact ih _ hrest

/-! ### An agent's reset as a whole -/

/-- The mailboxes of the device after the reset of an agent. -/
def State.mailReset (s : State) (a : Nat) : State := (List.range 64).foldl (State.mbxAgentReset · a) s
theorem State.agentReset_eq (s : State) (a : Nat) :
    s.agentReset a = (s.mailReset a).abandonLocks ((s.mailReset a).cel.locks.filter (fun p => p.2 = a)) := rfl

theorem State.mailReset_mailOnly (s : State) (a : Nat) : s.MailOnly (s.mailReset a) :=
  .foldl (fun t n => State.mbxAgentReset_mailOnly t a n) _ s
/-- Of the Cellarer's state, an agent's reset changes mailboxes and locks at most; DRAM and a freeze stay. -/
theorem State.agentReset_frame (s : State) (a : Nat) :
    (s.agentReset a).cel = { s.cel with mbx := (s.agentReset a).cel.mbx, locks := (s.agentReset a).cel.locks }
      ∧ (s.agentReset a).gar.freezing = s.gar.freezing ∧ (s.agentReset a).dram = s.dram := by
  have hmail := s.mailReset_mailOnly a
  rw [State.agentReset_eq, State.abandonLocks_shape]
  refine ⟨?_, hmail.freezing, hmail.dram⟩
  dsimp only
  rw [hmail.cel]
/-- The locks that the agent held are free. -/
theorem State.agentReset_lockHolder {s : State} {a n : Nat} (h : s.lockHolder n = some a) :
    (s.agentReset a).lockHolder n = none := by
  have hlocks : (s.mailReset a).cel.locks = s.cel.locks := by rw [(s.mailReset_mailOnly a).cel]
  rw [State.agentReset_eq, hlocks]
  exact State.abandonLocks_mem _ (List.mem_filter.2 ⟨SMap.mem_of_find h, decide_eq_true rfl⟩)
/-- The messages of others that wait for the agent, or that it has taken, expire. -/
theorem State.agentReset_mbx {s : State} {a n : Nat} (hn : n < 64) (hto : s.mbxReceiver n = a)
    (hst : (s.mbx n).st = 2 ∨ (s.mbx n).st = 3) (hfrom : (s.mbx n).sender ≠ a) :
    ((s.agentReset a).mbx n).st = 5 ∧ ((s.agentReset a).mbx n).code = 0x0103 := by
  have hmail : (s.agentReset a).mbx n = (s.mailReset a).mbx n := by
    rw [State.agentReset_eq, State.abandonLocks_shape]; rfl
  obtain ⟨before, after, hsplit⟩ := List.append_of_mem (List.mem_range.2 hn)
  have hnodup : (before ++ n :: after).Nodup := hsplit ▸ List.nodup_range
  rw [List.nodup_middle, List.nodup_cons, List.mem_append, not_or] at hnodup
  obtain ⟨⟨hbefore, hafter⟩, -⟩ := hnodup
  have hkept := State.mbx_foldl_mbxAgentReset_of_notMem a before s hbefore
  have hreset : (s.mailReset a).mbx n = { s.mbx n with st := 5, timeout := true, code := 0x0103, running := false } := by
    rw [State.mailReset, hsplit, List.foldl_append, List.foldl_cons,
      State.mbx_foldl_mbxAgentReset_of_notMem a after _ hafter,
      State.mbxAgentReset_receiver (by rw [State.mbxReceiver, hkept]; exact hto) (by rwa [hkept]) (by rwa [hkept]),
      State.mbx_mbxExpire_self, hkept]
  rw [hmail, hreset]
  exact ⟨rfl, rfl⟩
/-- The COMMAND mailboxes lead to the Cellarer. -/
theorem State.mbxReceiver_command (s : State) {n : Nat} (h : n < 48) : s.mbxReceiver n = 272 := by
  simp [State.mbxReceiver, mbxKind, h]

/-! ### Restarts of the Cellarer (R324) -/

/-- The core and its status begin anew (R324): the running tickets are gone, and one more restart is counted. -/
def Cel.restarted (c : Cel) (cause : Nat) : Cel :=
  { c with tickets := c.tickets.filter (fun t => t.st ≥ 3), st := 4, cause := cause,
           restarts := min (c.restarts + 1) 0xFFFF }.coreStart
/-- A restart's first part: the recorder freezes, and an SRAM error leaves its RAS record. -/
def State.restartNoted (s : State) (cause : Nat) : State :=
  let frozen := s.gFreeze (if cause = 1 then 2 else if cause = 2 then 1 else 6) 272
  if cause = 2 then frozen.ras { code := 0x4009, source := 10, requester := 272 } else frozen
/-- A restart up to the core that begins anew. -/
def State.restartBegun (s : State) (cause : Nat) : State :=
  let noted := s.restartNoted cause
  { noted with str := { noted.str with reserved := [] }, cel := noted.cel.restarted cause }
/-- A restart up to the message to the host in card mode. -/
def State.restartTold (s : State) (cause : Nat) : State :=
  let begun := s.restartBegun cause
  if bit begun.pwr.straps 0 && begun.pwr.mainUp then begun.msix 0 0 else begun
/-- The last part of a restart is the reset of agent 272. -/
theorem State.celRestart_eq (s : State) (cause : Nat) : s.celRestart cause = (s.restartTold cause).agentReset 272 := rfl

theorem State.restartNoted_aside (s : State) (cause : Nat) :
    (s.gFreeze (if cause = 1 then 2 else if cause = 2 then 1 else 6) 272).Aside (s.restartNoted cause) :=
  .ite _ (State.ras_aside _ _) (.refl _)
theorem State.restartTold_aside (s : State) (cause : Nat) : (s.restartBegun cause).Aside (s.restartTold cause) :=
  .ite _ (State.msix_aside _ 0 0) (.refl _)
theorem State.restartTold_cel (s : State) (cause : Nat) : (s.restartTold cause).cel = s.cel.restarted cause := by
  have hnoted : (s.restartNoted cause).cel = s.cel := (s.restartNoted_aside cause).cel.trans (by simp)
  rw [(s.restartTold_aside cause).cel, ← hnoted]
  rfl
theorem State.restartTold_freezes {s : State} (cause : Nat) (hrun : s.gar.frozen = false) (hnew : s.gar.freezing = none) :
    (s.restartTold cause).gar.freezing.isSome = true := by
  have hgar := (s.restartTold_aside cause).gar.trans (s.restartNoted_aside cause).gar
  rw [hgar]
  exact State.gFreeze_starts _ _ hrun hnew
theorem State.restartTold_dram (s : State) (cause : Nat) : (s.restartTold cause).dram = s.dram :=
  ((s.restartTold_aside cause).dram.trans (s.restartNoted_aside cause).dram).trans (by simp)

/-- What a restart for `cause` leaves in `u`, beginning at `s`. -/
structure State.Restarted (s : State) (cause : Nat) (u : State) : Prop where
  status : u.cel.st = 4 ∧ u.cel.cause = cause
  core : u.cel.frames = [] ∧ u.cel.longOp = none ∧ u.cel.pc = 0x20000000#32
  restarts : u.cel.restarts = min (s.cel.restarts + 1) 0xFFFF
  locks : ∀ n, s.lockHolder n = some 272 → u.lockHolder n = none
  freezes : s.gar.frozen = false → s.gar.freezing = none → u.gar.freezing.isSome = true
  mail : ∀ n, n < 48 → (s.mbx n).st = 2 ∨ (s.mbx n).st = 3 → (s.mbx n).sender ≠ 272 →
    (u.mbx n).st = 5 ∧ (u.mbx n).code = 0x0103
  dram : u.dram = s.dram

theorem State.celRestart_restarted (s : State) (cause : Nat) : s.Restarted cause (s.celRestart cause) := by
  have hcel := s.restartTold_cel cause
  have hfreezes := State.restartTold_freezes (s := s) cause
  have hdram := s.restartTold_dram cause
  rw [State.celRestart_eq]
  generalize s.restartTold cause = v at hcel hfreezes hdram
  obtain ⟨hframe, hfreezing, hdram'⟩ := v.agentReset_frame 272
  have hlock : ∀ n, v.lockHolder n = s.lockHolder n := fun n => by rw [State.lockHolder, hcel]; rfl
  have hmbx : ∀ n, v.mbx n = s.mbx n := fun n => by rw [State.mbx, hcel]; rfl
  exact {
    status := by rw [hframe, hcel]; exact ⟨rfl, rfl⟩
    core := by rw [hframe, hcel]; exact ⟨rfl, rfl, rfl⟩
    restarts := by rw [hframe, hcel]; rfl
    locks := fun n h => State.agentReset_lockHolder ((hlock n).trans h)
    freezes := fun hrun hnew => by rw [hfreezing]; exact hfreezes hrun hnew
    mail := fun n hn hst hfrom => State.agentReset_mbx (by omega) (v.mbxReceiver_command hn) (by rwa [hmbx]) (by rwa [hmbx])
    dram := hdram'.trans hdram }

theorem exec_cellarerWatchdogExpiry (s : State) : exec .cellarerWatchdogExpiry s = .next (s.celRestart 1) := rfl
theorem exec_cellarerRestart_cold (s : State) :
    exec (.cellarerRestart 0) s = .next { s with cel := { s.cel with st := 1, cause := 0 }.coreStart } := rfl
theorem exec_cellarerRestart_warm {c : Fin 4} (s : State) (hc : c ≠ 0) :
    exec (.cellarerRestart c) s = .next (s.celRestart c.val) := if_neg hc

/-! ### Interrupts of the Cellarer (R320, R321) -/

@[simp] theorem Cel.frames_change (c : Cel) (k : CelChange) : (c.change k).frames = c.frames := by
  cases k <;> simp [Cel.change, Cel.setCsr]
theorem Cel.frames_foldl_change : ∀ (ks : List (Nat × CelChange)) (c : Cel),
    (ks.foldl (fun c p => c.change p.2) c).frames = c.frames
  | [], _ => rfl
  | k :: ks, c => by rw [List.foldl_cons, Cel.frames_foldl_change ks, Cel.frames_change]
/-- The completed changes of R322 stack nothing. -/
@[simp] theorem Cel.frames_settle (c : Cel) : c.settle.frames = c.frames := Cel.frames_foldl_change c.changes _

/-- A request ranks above every stacked priority exactly when it ranks above each. -/
theorem foldl_max_prio_le {p : Nat} : ∀ (fs : List CelFrame) (b : Nat),
    fs.foldl (fun a f => max a (f.prio + 1)) b ≤ p ↔ b ≤ p ∧ ∀ f ∈ fs, f.prio < p
  | [], b => by simp
  | f :: fs, b => by
    rw [List.foldl_cons, foldl_max_prio_le fs, Nat.max_le, List.forall_mem_cons, and_assoc]
    rfl

theorem exec_cellarerInterrupt_taken {p : Nat} (q : Nat) {s : State} (h : ∀ f ∈ s.cel.frames, f.prio < p) :
    exec (.cellarerInterrupt q p) s = .next { s with cel := { s.cel.settle with
      frames := { prio := p, pc := s.cel.settle.pc, regs := celSaved.map (fun r => (r, SMap.get 0 r s.cel.settle.x)),
                  user := s.cel.settle.user, mstatus := s.cel.settle.mstatus } :: s.cel.settle.frames,
      longOp := none, user := false,
      pc := s.cel.settle.sramWord ((SMap.get 0 0x305 s.cel.settle.csr).toNat + 4 * q) } } :=
  if_pos (Nat.lt_succ_of_le ((foldl_max_prio_le s.cel.frames 0).2 ⟨Nat.zero_le _, h⟩))
theorem exec_cellarerInterrupt_waits {p : Nat} (q : Nat) {s : State} {f : CelFrame} (hf : f ∈ s.cel.frames) (h : p ≤ f.prio) :
    exec (.cellarerInterrupt q p) s = .next s :=
  if_neg fun htaken => Nat.not_lt.2 h (((foldl_max_prio_le s.cel.frames 0).1 (Nat.le_of_lt_succ htaken)).2 f hf)

/-- Settles O49: the lowest of one cycle's readers is served first and finds the lock as it was; a restart begins the
core anew and resets agent 272; an interrupt is taken exactly when it outranks every stacked frame. -/
theorem lockAndCellarerOperationsComplete : Obligations.LockAndCellarerOperationsComplete := by
  unfold Obligations.LockAndCellarerOperationsComplete
  refine ⟨fun gs g n s hnamed hg hle => ⟨runs_lockRead_free hnamed hg hle, fun _ => runs_lockRead_held hnamed⟩,
    fun g n v s hg => ⟨runs_lockWrite_holder v hg, runs_lockWrite_other v hg⟩, fun s => ?_⟩
  intro again
  have hagain : ∀ cause, again cause (s.celRestart cause) := fun cause => by
    obtain ⟨⟨hst, hcause⟩, ⟨hframes, hlong, hpc⟩, hrestarts, hlocks, hfreezes, hmail, -⟩ := s.celRestart_restarted cause
    exact ⟨hst, hcause, hframes, hlong, hpc, hrestarts, hlocks, hfreezes, hmail⟩
  refine ⟨⟨_, exec_cellarerWatchdogExpiry s, hagain 1, (s.celRestart_restarted 1).dram⟩,
    ⟨_, exec_cellarerRestart_cold s, rfl⟩, fun c hc => ⟨_, exec_cellarerRestart_warm s hc, hagain c.val⟩, fun q p => ?_⟩
  intro c
  refine ⟨fun hhigher => ⟨_, exec_cellarerInterrupt_taken q hhigher, rfl, rfl, rfl, ?_, rfl⟩,
    fun f hf hlow => exec_cellarerInterrupt_waits q hf hlow⟩
  dsimp only
  rw [Cel.frames_settle]

end Sys2Proof.Machine
end

section
/-!
Bytes and register bits: a byte after a write, a register bit after software's write, the first clauses of `step`, the refused control writes: the statements of O1, O6, O7, O8 and O13.
-/

namespace Sys2Proof.Machine
open Sys2Proof
/-! ### Bytes of the sparse memory -/

/-- Writing one more byte at the end sets that byte. -/
theorem memWrite_append_one (m : SMap Byte) (a : Nat) (b : Bytes) (v : Byte) :
    memWrite m a (b ++ [v]) = SMap.set 0 (a + b.length) v (memWrite m a b) := by
  simp [memWrite, List.range_succ, List.zip_append]

/-- A byte after a write: the written byte in its range, the old one elsewhere. -/
theorem get_memWrite (m : SMap Byte) (a c : Nat) (b : Bytes) :
    SMap.get 0 c (memWrite m a b) = if a ≤ c ∧ c < a + b.length then b.getD (c - a) 0 else SMap.get 0 c m := by
  induction b using List.reverseRecOn with
  | nil => simp
  | append_singleton b v ih =>
    rw [memWrite_append_one, SMap.get_set, ih]
    by_cases hc : c = a + b.length
    · subst hc; simp
    · rw [if_neg hc]
      by_cases hin : a ≤ c ∧ c < a + b.length
      · rw [if_pos hin, if_pos ⟨hin.1, by simp; omega⟩, List.getD_append _ _ _ _ (by omega)]
      · rw [if_neg hin, if_neg (by simp; omega)]

theorem get_memWrite_out (m : SMap Byte) {a c : Nat} {b : Bytes} (h : c < a ∨ a + b.length ≤ c) :
    SMap.get 0 c (memWrite m a b) = SMap.get 0 c m := by rw [get_memWrite, if_neg (by omega)]

/-- What was written is read back. -/
@[simp] theorem memRead_memWrite_self (m : SMap Byte) (a : Nat) (b : Bytes) : memRead (memWrite m a b) a b.length = b := by
  refine List.ext_getElem (by simp) fun i _ hi => ?_
  simp only [memRead, List.getElem_map, List.getElem_range, get_memWrite]
  simp [hi]

/-- A read of other bytes reads as before the write. -/
theorem memRead_memWrite_disjoint (m : SMap Byte) {a c n : Nat} {b : Bytes} (h : c + n ≤ a ∨ a + b.length ≤ c) :
    memRead (memWrite m a b) c n = memRead m c n := by
  refine List.map_congr_left fun i hi => get_memWrite_out m ?_
  have := List.mem_range.1 hi
  omega

/-- Settles O7: a write is a fold of single writes, each of which keeps the form and changes one byte. -/
theorem memoryReadAfterWrite : Obligations.MemoryReadAfterWrite := by
  unfold Obligations.MemoryReadAfterWrite
  intro m a b hm
  exact ⟨memWrite_wf m a b hm, memRead_memWrite_self m a b, fun c hc => memRead_memWrite_disjoint m (by omega)⟩

/-- One bit of a register after software's write, by the masks of its row. -/
theorem RegRow.getLsbD_write (r : RegRow) (old v : W32) {i : Nat} (hi : i < 32) :
    (r.write old v).getLsbD i
      = ((old.getLsbD i && !r.rw.testBit i || v.getLsbD i && r.rw.testBit i) && !(v.getLsbD i && r.w1c.testBit i)
          || v.getLsbD i && r.w1s.testBit i) := by
  simp only [RegRow.write, BitVec.getLsbD_or, BitVec.getLsbD_and, BitVec.getLsbD_not, BitVec.getLsbD_ofNat, hi, decide_true,
    Bool.true_and]

/-- Settles O8: each bit's masks decide which of the terms of `RegRow.write` reach it. -/
theorem accessTypesBitByBit : Obligations.AccessTypesBitByBit := by
  unfold Obligations.AccessTypesBitByBit
  intro r old v i hi
  rw [r.getLsbD_write old v hi]
  refine ⟨?_, ?_, ?_, ?_⟩ <;> (intro hrw hc hs; simp [hrw, hc, hs])

/-- Settles O1: the first clause of `step`. -/
theorem stepRunsFrontCommand : Obligations.StepRunsFrontCommand := by
  unfold Obligations.StepRunsFrontCommand
  intro c r s h
  simp [step, h]

/-- Settles O6: the reset state lists no lane and no hart, so each reads as its default. -/
theorem resetIsCanonical : Obligations.ResetIsCanonical := by
  unfold Obligations.ResetIsCanonical
  exact ⟨reset_dram_wf, rfl, fun _ _ => rfl, fun _ => rfl, fun _ => rfl⟩

/-- A refused store of a hart takes store access fault 7. -/
theorem State.refuse_hart (s : State) {g : Nat} (a : Nat) (h : g < 256) : s.refuse g a true = s.hartTrap g 7 a := by
  rw [State.refuse, if_pos h]; rfl
/-- A refused access of another agent ends with a Completer Abort. -/
theorem State.refuse_other (s : State) {g : Nat} (a : Nat) (st : Bool) (h : 256 ≤ g) :
    s.refuse g a st = { s with readErr := SMap.set 0 g 2 s.readErr } := by
  rw [State.refuse, if_neg (by omega)]

/-- Settles O13: each command stands behind the check of the agent's right. -/
theorem laneControlWritesRefused : Obligations.LaneControlWritesRefused := by
  unfold Obligations.LaneControlWritesRefused
  intro g n v k w s
  refine ⟨fun h => ?_, fun h => ?_, fun h a => State.refuse_hart s a h, fun h a => State.refuse_other s a true h⟩
  · refine ⟨?_, ?_, ?_, ?_, ?_, ?_⟩
    · show execDrain g n v s = _; rw [execDrain, State.laneWrite_neg _ h, Nat.add_zero]
    · show execAdmitEn g n v s = _; rw [execAdmitEn, State.laneWrite_neg _ h, Nat.add_zero]
    · show execResetReq g n s = _; rw [execResetReq, State.laneWrite_neg _ h, Nat.add_zero]
    · show execApply g n s = _; rw [execApply]; exact State.laneWrite_neg _ h
    · show execClrHist g n s = _; rw [execClrHist]; exact State.laneWrite_neg _ h
    · show execClrCtr g n s = _; rw [execClrCtr]; exact State.laneWrite_neg _ h
  · refine ⟨?_, ?_⟩
    · show execHshConsWrite g n k w s = _; rw [execHshConsWrite]; exact State.laneWrite_neg _ h
    · show execRshProdWrite g n k w s = _; rw [execRshProdWrite]; exact State.laneWrite_neg _ h
end Sys2Proof.Machine
end

section
/-!
Every command ends in a next state (O3): first the shared guards, then the commands with cases of their own.
-/

namespace Sys2Proof.Machine
open Sys2Proof

@[simp] theorem Res.isNext_next (s : State) : Res.isNext (.next s) = true := rfl
theorem Res.isNext_ite {c : Prop} [Decidable c] {a b : Res} (ha : Res.isNext a = true) (hb : Res.isNext b = true) :
    Res.isNext (if c then a else b) = true := by split <;> assumption
theorem State.issue_isNext (s : State) (n t : Nat) (x : XOp) (f : State → Thread → State) : Res.isNext (s.issue n t x f) = true :=
  Res.isNext_ite rfl rfl
theorem State.laneWrite_isNext (s : State) (g : Agent) (n o k : Nat) (f : State → State) : Res.isNext (s.laneWrite g n o k f) = true :=
  Res.isNext_ite rfl rfl
theorem State.mbxAccess_isNext (s : State) (a : Agent) (n o : Nat) (st : Bool) (f : State → State) : Res.isNext (s.mbxAccess a n o st f) = true :=
  Res.isNext_ite rfl rfl
theorem State.pwrWrite_isNext (s : State) (a : Agent) (f : State → State) : Res.isNext (s.pwrWrite a f) = true := Res.isNext_ite rfl rfl
theorem State.liveEvt_isNext (s : State) (i : Nat) (f : State → State) : Res.isNext (s.liveEvt i f) = true := Res.isNext_ite rfl rfl
theorem State.dmcAccess_isNext (s : State) (a : Agent) (c o : Nat) (f : State → State) : Res.isNext (s.dmcAccess a c o f) = true :=
  Res.isNext_ite rfl rfl
theorem State.hartIssueOn_isNext (s : State) (h : Nat) (acc : Hart → List (Nat × Nat × Nat)) (f : State → Hart → State) :
    Res.isNext (s.hartIssueOn h acc f) = true := by
  refine Res.isNext_ite rfl (Res.isNext_ite rfl ?_)
  split <;> rfl
theorem State.hartIssue_isNext (s : State) (h : Nat) (f : State → Hart → State) : Res.isNext (s.hartIssue h f) = true :=
  State.hartIssueOn_isNext ..
theorem State.rhaxRx_isNext (s : State) (h : RhaxHdr) (ty : Nat) (ex : Bool) (f : State → State) : Res.isNext (s.rhaxRx h ty ex f) = true := by
  refine Res.isNext_ite rfl (Res.isNext_ite rfl ?_)
  split <;> rfl
theorem State.skeid_isNext (s : State) (n cmd : Nat) (kind : Option Nat) (argOk : Bool) (lanes len : Nat) (f : State → Ans) :
    Res.isNext (s.skeid n cmd kind argOk lanes len f) = true := by
  rw [State.skeid]
  split
  · rfl
  · dsimp only
    split
    · rfl
    · refine Res.isNext_ite rfl (Res.isNext_ite rfl (Res.isNext_ite rfl (Res.isNext_ite rfl rfl)))
theorem State.setup_isNext (s : State) (n kind : Nat) (range : Bool) (check : State → Nat × Item × Option Nat) :
    Res.isNext (s.setup n kind range check) = true := State.skeid_isNext ..
theorem State.dual_isNext (s : State) (n cmd : Nat) (kind : Option Nat) (argOk : Bool) (len : Nat) (f : State → Ans) :
    Res.isNext (s.dual n cmd kind argOk len f) = true := State.skeid_isNext ..
theorem State.frameRx_isNext (s : State) (f : LinkFrame) (ty : Nat) (g : State → State) : Res.isNext (s.frameRx f ty g) = true :=
  Res.isNext_ite rfl (Res.isNext_ite rfl rfl)
theorem State.arkStart_isNext (s : State) (k op : Nat) (failing : List Nat) (e : Bool) : Res.isNext (s.arkStart k op failing e) = true :=
  Res.isNext_ite rfl (Res.isNext_ite rfl (Res.isNext_ite rfl rfl))
theorem State.issueAny_isNext (s : State) (n t : Nat) (f : State → Thread → State) : Res.isNext (s.issueAny n t f) = true :=
  Res.isNext_ite rfl rfl
theorem State.styStep_isNext (s : State) (n t : Nat) (p : Thread → Nat → Bool) (any : Bool) :
    Res.isNext (s.styStep n t p any) = true := by
  rw [State.styStep]
  split
  · exact Res.isNext_ite (State.issueAny_isNext ..) rfl
  · split
    · exact Res.isNext_ite (State.issueAny_isNext ..) rfl
    · exact Res.isNext_ite (State.issueAny_isNext ..) rfl

/-! ### Commands with cases of their own -/

theorem execDecisionTimeout_isNext (n : LaneId) (h : Handle) (s : State) :
    Res.isNext (execDecisionTimeout n h s) = true := by
  rw [execDecisionTimeout]; (repeat' split) <;> rfl
theorem execMessageShed_isNext (n : LaneId) (h : Handle) (s : State) :
    Res.isNext (execMessageShed n h s) = true := by
  rw [execMessageShed]; (repeat' split) <;> rfl
theorem execBeatOverrun_isNext (n : LaneId) (t : ThreadId) (s : State) :
    Res.isNext (execBeatOverrun n t s) = true := by
  rw [execBeatOverrun]; (repeat' split) <;> rfl
theorem execLaneResetClear_isNext (n : LaneId) (s : State) :
    Res.isNext (execLaneResetClear n s) = true := by
  rw [execLaneResetClear]; (repeat' split) <;> rfl
theorem execTileDigestComplete_isNext (n : LaneId) (s : State) :
    Res.isNext (execTileDigestComplete n s) = true := by
  rw [execTileDigestComplete]; dsimp only; (repeat' split) <;> rfl
theorem execShelfPostResume_isNext (n : LaneId) (t : ThreadId) (s : State) :
    Res.isNext (execShelfPostResume n t s) = true := by
  rw [execShelfPostResume]; (repeat' split) <;> rfl
theorem execStylusDramLoadReturn_isNext (lane : LaneId) (t : ThreadId) (dataError : Bool) (s : State) :
    Res.isNext (execStylusDramLoadReturn lane t dataError s) = true := by
  rw [execStylusDramLoadReturn]; (repeat' split) <;> rfl
theorem execStylusInterrupt_isNext (n : LaneId) (t : ThreadId) (s : State) :
    Res.isNext (execStylusInterrupt n t s) = true := by
  rw [execStylusInterrupt]; (repeat' split) <;> rfl
theorem execStnRunEnd_isNext (n : LaneId) (s : State) :
    Res.isNext (execStnRunEnd n s) = true := by
  rw [execStnRunEnd]; (repeat' split) <;> rfl
theorem execRecordAccept_isNext (k : RingId) (portWait : Nat) (s : State) :
    Res.isNext (execRecordAccept k portWait s) = true := by
  rw [execRecordAccept]; dsimp only; (repeat' split) <;> rfl
theorem execDrainCopy_isNext (k : RingId) (err : SlotErr) (s : State) :
    Res.isNext (execDrainCopy k err s) = true := by
  rw [execDrainCopy]; dsimp only; (repeat' split) <;> rfl
theorem execRingResyncComplete_isNext (k : RingId) (peer : PeerRing) (s : State) :
    Res.isNext (execRingResyncComplete k peer s) = true := by
  rw [execRingResyncComplete]; dsimp only; (repeat' split) <;> rfl
theorem execManifestReceive_isNext (m : Manifest) (s : State) :
    Res.isNext (execManifestReceive m s) = true := by
  rw [execManifestReceive]; (repeat' split) <;> rfl
theorem execLeaseReq_isNext (h : RhaxHdr) (home : Nat) (s : State) :
    Res.isNext (execLeaseReq h home s) = true :=
  Res.isNext_ite rfl (State.rhaxRx_isNext ..)
theorem execWitnessLeaseExpiry_isNext (home : Nat) (s : State) :
    Res.isNext (execWitnessLeaseExpiry home s) = true := by
  rw [execWitnessLeaseExpiry]; split <;> rfl
theorem execVerifyReq_isNext (h : RhaxHdr) (hallmark : Bytes) (route : Nat) (outs : List Bytes) (s : State) :
    Res.isNext (execVerifyReq h hallmark route outs s) = true := Res.isNext_ite rfl (State.rhaxRx_isNext ..)
theorem execRhaxRetryTimer_isNext (dst mseq : Nat) (s : State) :
    Res.isNext (execRhaxRetryTimer dst mseq s) = true := by
  rw [execRhaxRetryTimer]; (repeat' split) <;> rfl
theorem execEthernetFrameReceive_isNext (q : PortId) (f : EthFrame) (s : State) :
    Res.isNext (execEthernetFrameReceive q f s) = true := by
  rw [execEthernetFrameReceive]; (repeat' split) <;> rfl
theorem execTcpConnectionEstablish_isNext (li : Fin 256) (c : ConnInfo) (s : State) :
    Res.isNext (execTcpConnectionEstablish li c s) = true := by
  rw [execTcpConnectionEstablish]; dsimp only; (repeat' split) <;> rfl
theorem execListenerReconnect_isNext (li : Fin 256) (s : State) :
    Res.isNext (execListenerReconnect li s) = true := by
  rw [execListenerReconnect]; (repeat' split) <;> rfl
theorem execTlsRecordReceive_isNext (i : SessId) (authOk : Bool) (plain : Bytes) (keyUpdate : Option Bool) (s : State) :
    Res.isNext (execTlsRecordReceive i authOk plain keyUpdate s) = true := by
  cases keyUpdate with
  | none => exact Res.isNext_ite rfl (Res.isNext_ite rfl rfl)
  | some v => exact Res.isNext_ite rfl (Res.isNext_ite rfl rfl)
theorem execMessageMint_isNext (i : SessId) (cls : Fin 32) (s : State) :
    Res.isNext (execMessageMint i cls s) = true := by
  rw [execMessageMint]; dsimp only; (repeat' split) <;> rfl
theorem execReleaseAccept_isNext (n : LaneId) (h : Handle) (s : State) :
    Res.isNext (execReleaseAccept n h s) = true := by
  rw [execReleaseAccept]; dsimp only; (repeat' split) <;> rfl
theorem execReassignMove_isNext (s : State) :
    Res.isNext (execReassignMove s) = true := by
  rw [execReassignMove]; (repeat' split) <;> rfl
theorem execPtpMessageReceive_isNext (q : PortId) (m : PtpMsg) (s : State) :
    Res.isNext (execPtpMessageReceive q m s) = true := by
  rw [execPtpMessageReceive]; dsimp only; (repeat' split) <;> rfl
theorem execHartMemoryAccess_isNext (hart : HartId) (a : MemAccess) (s : State) :
    Res.isNext (execHartMemoryAccess hart a s) = true :=
  Res.isNext_ite (Res.isNext_ite rfl rfl) (State.hartIssueOn_isNext ..)
theorem execHartInterrupt_isNext (hart : HartId) (s : State) :
    Res.isNext (execHartInterrupt hart s) = true := by
  rw [execHartInterrupt]; (repeat' split) <;> rfl
theorem execL3Request_isNext (req : L3Req) (s : State) :
    Res.isNext (execL3Request req s) = true := by
  rw [execL3Request]; dsimp only; (repeat' split) <;> rfl
theorem execMemoryRead_isNext (c : ChanId) (line : Nat) (requester : Agent) (err : DramErr) (last : Bool) (s : State) :
    Res.isNext (execMemoryRead c line requester err last s) = true := by
  rw [execMemoryRead]; (repeat' split) <;> rfl
theorem execNeighbourRefresh_isNext (c : ChanId) (bank : Nat) (s : State) :
    Res.isNext (execNeighbourRefresh c bank s) = true := by
  rw [execNeighbourRefresh]; split <;> rfl
theorem execScrubResult_isNext (c : ChanId) (s : State) :
    Res.isNext (execScrubResult c s) = true := by
  rw [execScrubResult]; split <;> rfl
theorem execPairStart_isNext (n : MbxId) (s : State) :
    Res.isNext (execPairStart n s) = true := by
  rw [execPairStart]
  cases s.celTake n with
  | none => rfl
  | some t => exact Res.isNext_ite rfl (State.skeid_isNext ..)
theorem execTicketExpiry_isNext (num : Nat) (s : State) :
    Res.isNext (execTicketExpiry num s) = true := by
  rw [execTicketExpiry]; (repeat' split) <;> rfl
theorem execPcieLinkUp_isNext (port : Fin 5) (sub : Fin 4) (speed : Fin 7) (width : Fin 3) (partnerFlit : Bool) (s : State) :
    Res.isNext (execPcieLinkUp port sub speed width partnerFlit s) = true := by
  rw [execPcieLinkUp]; dsimp only; (repeat' split) <;> rfl
theorem execPcieInboundRequest_isNext (port : Fin 5) (r : PcieReq) (s : State) :
    Res.isNext (execPcieInboundRequest port r s) = true := by
  rw [execPcieInboundRequest]; (repeat' split) <;> rfl
theorem execPcieConfigRequest_isNext (fn : Fin 65) (off : Nat) (w : Option W32) (s : State) :
    Res.isNext (execPcieConfigRequest fn off w s) = true := by
  cases w with
  | none => exact Res.isNext_ite rfl (Res.isNext_ite rfl (Res.isNext_ite rfl rfl))
  | some v => exact Res.isNext_ite rfl (Res.isNext_ite rfl (Res.isNext_ite rfl rfl))
theorem execPcieCompletionReceive_isNext (tag : Nat) (c : PcieCpl) (s : State) :
    Res.isNext (execPcieCompletionReceive tag c s) = true := by
  rw [execPcieCompletionReceive]; dsimp only; (repeat' split) <;> rfl
theorem execCompletionTimeout_isNext (tag : Nat) (s : State) :
    Res.isNext (execCompletionTimeout tag s) = true := by
  rw [execCompletionTimeout]; dsimp only; (repeat' split) <;> rfl
theorem execTagQuarantineExpiry_isNext (tag : Nat) (s : State) :
    Res.isNext (execTagQuarantineExpiry tag s) = true := by
  rw [execTagQuarantineExpiry]; (repeat' split) <;> rfl
theorem execHdmaDescriptorComplete_isNext (k : HdmaId) (s : State) :
    Res.isNext (execHdmaDescriptorComplete k s) = true := by
  rw [execHdmaDescriptorComplete]; (repeat' split) <;> rfl
theorem execAtsTranslationResponse_isNext (k : HdmaId) (granted : Bool) (host : Nat) (s : State) :
    Res.isNext (execAtsTranslationResponse k granted host s) = true := by
  rw [execAtsTranslationResponse]; (repeat' split) <;> rfl
theorem execArkDescriptorComplete_isNext (k : ArkId) (s : State) :
    Res.isNext (execArkDescriptorComplete k s) = true := by
  rw [execArkDescriptorComplete]; split <;> rfl
theorem execGarretRecordWrite_isNext (err : SlotErr) (s : State) :
    Res.isNext (execGarretRecordWrite err s) = true := by
  rw [execGarretRecordWrite]; (repeat' split) <;> rfl
theorem execDramTrainingComplete_isNext (found : List DimmInfo) (s : State) :
    Res.isNext (execDramTrainingComplete found s) = true := by
  rw [execDramTrainingComplete]; dsimp only; (repeat' split) <;> rfl
theorem execProchotSensor_isNext (temp : Nat) (s : State) :
    Res.isNext (execProchotSensor temp s) = true := by
  rw [execProchotSensor]; (repeat' split) <;> rfl
theorem execI3cAccess_isNext (reg : Nat) (w : Option W32) (s : State) :
    Res.isNext (execI3cAccess reg w s) = true := by
  cases w with
  | none => exact Res.isNext_ite rfl (Res.isNext_ite rfl (Res.isNext_ite rfl rfl))
  | some v => exact Res.isNext_ite rfl (Res.isNext_ite rfl rfl)
theorem execStylusRv32Instruction_isNext (lane : LaneId) (t : ThreadId) (err : StoreErr) (s : State) :
    Res.isNext (execStylusRv32Instruction lane t err s) = true := by
  unfold execStylusRv32Instruction
  cases err with
  | none => exact State.styStep_isNext ..
  | single => exact State.styStep_isNext ..
  | multi => exact State.issueAny_isNext ..
theorem execQueuedWriteIssue_isNext (c : ChanId) (tries : Fin 5) (s : State) :
    Res.isNext (execQueuedWriteIssue c tries s) = true := by
  rw [execQueuedWriteIssue]; (repeat' split) <;> rfl
theorem execTilePortTransferEnd_isNext (n : LaneId) (h : Handle) (s : State) :
    Res.isNext (execTilePortTransferEnd n h s) = true := by
  rw [execTilePortTransferEnd]; (repeat' split) <;> rfl
theorem execGratuitousArp_isNext (i : Fin 64) (s : State) :
    Res.isNext (execGratuitousArp i s) = true := by
  rw [execGratuitousArp]; (repeat' split) <;> rfl

/-- Every command answers a next state. -/
theorem exec_isNext (c : Instr) (s : State) : Res.isNext (exec c s) = true := by
  unfold exec
  cases c with
  | registerWrite | registerReadClear | lowWordRead | translate | validate | resume | abort | ecdsaP256Verify
  | ecdsaP256Sign | ecdsaP384Verify | ecdsaP384Sign | ed25519Verify | ed25519Sign | ed25519BatchVerify | mlDsa44Verify
  | mlDsa65Verify | mlDsa87Verify | mlDsa44Sign | mlDsa65Sign | mlDsa87Sign | rsa2048Verify | rsa2048Sign
  | rsa4096Verify | rsa4096Sign | pinBlockTranslate | dukptDeriveTdes | dukptDeriveAes | sha256 | sha384 | sha512
  | sha3256 | sha3384 | sha3512 | hmacSha256 | hmacSha384 | hmacSha512 | aesCmac | iso9797Mac1Aes | iso9797Mac1Tdes
  | retailMacTdes | burOperationComplete | reserveRequest | generateEcdsaP256Pair | generateEcdsaP384Pair
  | generateEd25519Pair | generateMlDsa44Pair | generateMlDsa65Pair | generateMlDsa87Pair | generateSymmetricKey
  | unwrapKeyBlock | wrapForExport | combineComponents | verifyTokenP384 | verifyTokenMlDsa65 | signPairingManifest
  | ecdhComponentTransport | cellarerAppend | linkFailure | drainPause | headerTimeout | symbolLockLoss
  | portLinkChange | reassignReq | counterOverflow | dmactiveClear | dqsDriftTrack | errorWindowEnd | channelFailure
  | cellarerWatchdogExpiry | lockRead | lockWrite | entropyHealthFailure | invalidateRequest | busMasterEnableClear
  | functionLevelReset | msixUnmask | arkEnable | arkAbort | atticRead | fullColdReset | avsbusFailure
  | standbyPowerLoss | presenceDetectChange =>
    exact rfl
  | beatBoundary | epochBoundary | beatTimerStart | beatTimerRestart | decisionCollect | stylusException
  | mirrorAckReceive | replayRequestReceive | replayTimeout | witnessAckTimeout | drainRetire | linkRetrainTimer
  | idleAckSend | beatFrameMissing | takeoverLeaseRetry | witnessSilence | handshakeComplete | handshakeTimeout
  | msgTimeout | idleTimeout | stallTimeout | lingerTimeout | reclaimTimeout | reassignTimeout | ptpSyncLoss
  | debugCommand | debugRelock | writebackAck | memoryWrite | dimmTemperatureRead | trainingPassStart
  | trainingPassEnd | freqChangeComplete | scrubRead | scrubSlowWarning | remapInstall | cellarerRestart
  | cellarerInterrupt | stagedChangeApply | query | reseedLapse | hdmaDescriptor | invalidateCompletion | vfEnable
  | freezeStop | atticCopyComplete | coldRstN | pwrgdFall | warmRstN | warmResetExit | cellarerReady | hartRelease
  | pairingTimeout | bayThermalLimit | thermalTrip | referenceClockLoss | avsbusRetry | sidebandRelease | cacheFill
  | headerHcrcFailure =>
    exact Res.isNext_ite rfl rfl
  | leaseExpiry | partnerClose | refreshDue | pcieLinkDown | hostBarAccess | flrComplete | mainColdStart
  | prochotNInput =>
    exact Res.isNext_ite rfl (Res.isNext_ite rfl rfl)
  | linkTraining | handshakeStart | mailboxTimeout | firmwareVerifyComplete | powerManagerInterval =>
    exact Res.isNext_ite rfl (Res.isNext_ite rfl (Res.isNext_ite rfl rfl))
  | compress | decompress | verify =>
    exact State.arkStart_isNext ..
  | trainNow | freqReq | histClear =>
    exact State.dmcAccess_isNext ..
  | recordFrameReceive | drainFrameReceive | ctlFrameReceive | beatFrameReceive | snapFrameReceive =>
    exact State.frameRx_isNext ..
  | hmCheck | hmStep | tileCheck | jrnAppend | hartBeatRead | hartBeatWait | ksealWrite | bpflush | kerrrecRead
  | vendorCounterRead | cboClean | cboFlush | cboInval | cboZero =>
    exact State.hartIssue_isNext ..
  | hartInstruction =>
    exact State.hartIssueOn_isNext ..
  | tileAlloc | tileFree | tileSeal | tileDigest | tileRelease | hmField | hmDerive | stnGo | burGo | burSkip
  | engWait | engPoll | shelfPost | jrnPut | beatRead | beatReadh | beatLeft | beatWait | thrEnd | thrSignal =>
    exact State.issue_isNext ..
  | drain | admitEn | resetReq | apply | hshConsWrite | rshProdWrite | clrHist | clrCtr =>
    exact State.laneWrite_isNext ..
  | tcpRetransmitTimeout | tcpRstReceive | keepaliveProbe | keyUpdateSend =>
    exact State.liveEvt_isNext ..
  | mailboxDataWrite | mailboxGo | mailboxClear | mailboxRxRead | mailboxRxAck | mailboxRxExtend =>
    exact State.mbxAccess_isNext ..
  | warmReq | hartRst | pwrTdp | sdReq | powerOff =>
    exact State.pwrWrite_isNext ..
  | leaseGrant | leaseRefuse | leaseRelease | wcopy | wcopyAck | wcopyFetch | wcopyData | wcopyDrop | xferOffer
  | xferAccept | xferRefuse | xferTiles | xferDone | verifyResp | timeAnnounce | refuse =>
    exact State.rhaxRx_isNext ..
  | laneFirewall | pcieWindows | keyPolicy | keyGen | keyImport | keyComponent | keyDestroy | keyExport | rootRotate
  | domain | netTables | journal | officers | adminSet | zeroize =>
    exact State.setup_isNext ..
  | health | version | rasQuery | mbxBind | lockRelease | laneReset | laneLoad | stencilLoad | laneHandover
  | laneRelease | debugUnlock | approve | ticketStatus | ticketCancel | cachePart | memConfig | memRemap | fwStage
  | garretList | garretRead | garretFreeze | hmReplay =>
    exact State.skeid_isNext ..
  | stylusLongOperation | stylusSplitAccess =>
    exact State.styStep_isNext ..
  | decisionTimeout => exact execDecisionTimeout_isNext ..
  | messageShed => exact execMessageShed_isNext ..
  | beatOverrun => exact execBeatOverrun_isNext ..
  | laneResetClear => exact execLaneResetClear_isNext ..
  | tileDigestComplete => exact execTileDigestComplete_isNext ..
  | shelfPostResume => exact execShelfPostResume_isNext ..
  | stylusDramLoadReturn => exact execStylusDramLoadReturn_isNext ..
  | stylusInterrupt => exact execStylusInterrupt_isNext ..
  | stnRunEnd => exact execStnRunEnd_isNext ..
  | recordAccept => exact execRecordAccept_isNext ..
  | drainCopy => exact execDrainCopy_isNext ..
  | ringResyncComplete => exact execRingResyncComplete_isNext ..
  | manifestReceive => exact execManifestReceive_isNext ..
  | leaseReq => exact execLeaseReq_isNext ..
  | witnessLeaseExpiry => exact execWitnessLeaseExpiry_isNext ..
  | verifyReq => exact execVerifyReq_isNext ..
  | rhaxRetryTimer => exact execRhaxRetryTimer_isNext ..
  | ethernetFrameReceive => exact execEthernetFrameReceive_isNext ..
  | tcpConnectionEstablish => exact execTcpConnectionEstablish_isNext ..
  | listenerReconnect => exact execListenerReconnect_isNext ..
  | tlsRecordReceive => exact execTlsRecordReceive_isNext ..
  | messageMint => exact execMessageMint_isNext ..
  | releaseAccept => exact execReleaseAccept_isNext ..
  | reassignMove => exact execReassignMove_isNext ..
  | ptpMessageReceive => exact execPtpMessageReceive_isNext ..
  | hartMemoryAccess => exact execHartMemoryAccess_isNext ..
  | hartInterrupt => exact execHartInterrupt_isNext ..
  | l3Request => exact execL3Request_isNext ..
  | memoryRead => exact execMemoryRead_isNext ..
  | neighbourRefresh => exact execNeighbourRefresh_isNext ..
  | scrubResult => exact execScrubResult_isNext ..
  | pairStart => exact execPairStart_isNext ..
  | ticketExpiry => exact execTicketExpiry_isNext ..
  | pcieLinkUp => exact execPcieLinkUp_isNext ..
  | pcieInboundRequest => exact execPcieInboundRequest_isNext ..
  | pcieConfigRequest => exact execPcieConfigRequest_isNext ..
  | pcieCompletionReceive => exact execPcieCompletionReceive_isNext ..
  | completionTimeout => exact execCompletionTimeout_isNext ..
  | tagQuarantineExpiry => exact execTagQuarantineExpiry_isNext ..
  | hdmaDescriptorComplete => exact execHdmaDescriptorComplete_isNext ..
  | atsTranslationResponse => exact execAtsTranslationResponse_isNext ..
  | arkDescriptorComplete => exact execArkDescriptorComplete_isNext ..
  | garretRecordWrite => exact execGarretRecordWrite_isNext ..
  | dramTrainingComplete => exact execDramTrainingComplete_isNext ..
  | prochotSensor => exact execProchotSensor_isNext ..
  | i3cAccess => exact execI3cAccess_isNext ..
  | stylusRv32Instruction => exact execStylusRv32Instruction_isNext ..
  | queuedWriteIssue => exact execQueuedWriteIssue_isNext ..
  | tilePortTransferEnd => exact execTilePortTransferEnd_isNext ..
  | gratuitousArp => exact execGratuitousArp_isNext ..

/-- Settles O3: each command ends in a next state on every branch. -/
theorem everyCommandIsAnswered : Obligations.EveryCommandIsAnswered := by
  unfold Obligations.EveryCommandIsAnswered
  exact exec_isNext

end Sys2Proof.Machine
end

section
/-!
What leaves the boot ROM, the queue and the DRAM cells as they are: one lemma per state operation (`@[simp]`), then one per command. A lemma `X_still` or `X_stays` says that `X` changes none of the three; a lemma `X_dram` that it changes no DRAM cell (the other two stand in the laws `X_fixed`); `execX_kept` is the command's own.
-/

namespace Sys2Proof.Machine
open Sys2Proof
@[simp] theorem dram_ite (c : Prop) [Decidable c] (a b : State) : (if c then a else b).dram = if c then a.dram else b.dram := by
  split <;> rfl
@[simp] theorem foldl_dram {α : Type} (f : State → α → State) (l : List α) (s : State) (h : ∀ s x, (f s x).dram = s.dram) :
    (l.foldl f s).dram = s.dram := by
  induction l generalizing s with
  | nil => rfl
  | cons x l ih => simp [ih, h]
/-- The next state that an answer holds keeps the boot ROM, the queue and the canonical form of DRAM. -/
def Res.Kept (r : Res) (s : State) : Prop :=
  ∀ t, r = .next t → t.rom = s.rom ∧ t.pending = s.pending ∧ (Memory.wf s.dram = true → Memory.wf t.dram = true)
@[simp] theorem Res.kept_next (t s : State) : Res.Kept (.next t) s ↔
    t.rom = s.rom ∧ t.pending = s.pending ∧ (Memory.wf s.dram = true → Memory.wf t.dram = true) := by
  simp [Res.Kept]
@[simp] theorem Res.kept_ite (c : Prop) [Decidable c] (a b : Res) (s : State) :
    Res.Kept (if c then a else b) s ↔ if c then a.Kept s else b.Kept s := by split <;> rfl
/-- From `s` to `t` the boot ROM, the queue and the DRAM cells stay as they are. -/
structure State.Still (s t : State) : Prop where
  rom : t.rom = s.rom
  pending : t.pending = s.pending
  dram : t.dram = s.dram
theorem State.still_iff {s t : State} : s.Still t ↔ t.rom = s.rom ∧ t.pending = s.pending ∧ t.dram = s.dram :=
  ⟨fun h => ⟨h.rom, h.pending, h.dram⟩, fun ⟨h, k, l⟩ => ⟨h, k, l⟩⟩
theorem State.Still.refl (s : State) : s.Still s := ⟨rfl, rfl, rfl⟩
theorem State.Still.trans {s t u : State} (h : s.Still t) (k : t.Still u) : s.Still u :=
  ⟨k.rom.trans h.rom, k.pending.trans h.pending, k.dram.trans h.dram⟩
theorem State.Still.ite {s t u : State} (c : Prop) [Decidable c] (ht : s.Still t) (hu : s.Still u) :
    s.Still (if c then t else u) := by
  split
  · exact ht
  · exact hu
theorem State.Still.foldl {α : Type} {f : State → α → State} (hf : ∀ (t : State) x, t.Still (f t x)) :
    ∀ (l : List α) (s : State), s.Still (l.foldl f s)
  | [], s => .refl s
  | x :: l, s => (hf s x).trans (State.Still.foldl hf l (f s x))
theorem Res.st_kept {r : Res} {s : State} (h : r.Kept s) : (r.st s).rom = s.rom ∧ (r.st s).pending = s.pending
    ∧ (Memory.wf s.dram = true → Memory.wf (r.st s).dram = true) := by
  cases r with
  | next t => exact h t rfl
  | _ => exact ⟨rfl, rfl, id⟩
@[simp] theorem State.setReg_dram (s : State) (a : ℕ) (v : ℕ) :
    (State.setReg s a v).dram = s.dram := by
  unfold State.setReg
  simp
@[simp] theorem State.setLock_dram (s : State) (n : ℕ) (h : Option ℕ) :
    (State.setLock s n h).dram = s.dram := by
  unfold State.setLock
  simp
@[simp] theorem State.abandonLock_dram (s : State) (n : ℕ) :
    (State.abandonLock s n).dram = s.dram := by
  unfold State.abandonLock
  simp
@[simp] theorem State.queueWrite_dram (s : State) (l : ℕ) (b : Bytes) (poisonMark : Bool) (ag : ℕ) :
    (State.queueWrite s l b poisonMark ag).dram = s.dram := by
  unfold State.queueWrite
  simp
@[simp] theorem State.evOrder_dram (s : State) (l : ℕ) :
    (State.evOrder s l).dram = s.dram := by
  unfold State.evOrder
  (repeat' split) <;> simp
@[simp] theorem State.withMem_dram (s : State) (f : Mem → Mem) :
    (State.withMem s f).dram = s.dram := by
  unfold State.withMem
  simp
@[simp] theorem State.lineStore_dram (s : State) (h : ℕ) (l : ℕ) (o : ℕ) (b : Bytes) :
    (State.lineStore s h l o b).dram = s.dram := by
  unfold State.lineStore
  simp
@[simp] theorem State.partsWrite_still (s : State) (h : ℕ) (ps : List (ℕ × ℕ)) (b : Bytes) :
    (s.partsWrite h ps b).rom = s.rom ∧ (s.partsWrite h ps b).pending = s.pending ∧ (s.partsWrite h ps b).dram = s.dram := by
  unfold State.partsWrite
  generalize (0 : ℕ) = o
  induction ps generalizing s o with
  | nil => simp
  | cons p ps ih =>
    rw [List.foldl_cons]
    have hi := ih
    simp only [hi]
    simp
@[simp] theorem State.setHart_dram (s : State) (h : ℕ) (v : Hart) :
    (State.setHart s h v).dram = s.dram := by
  unfold State.setHart
  simp
@[simp] theorem State.modHart_dram (s : State) (h : ℕ) (f : Hart → Hart) :
    (State.modHart s h f).dram = s.dram := by
  unfold State.modHart
  simp
@[simp] theorem State.accDo_still (s : State) (h : ℕ) (a : MemAccess) (ps : List (ℕ × ℕ)) :
    (State.accDo s h a ps).rom = s.rom ∧ (State.accDo s h a ps).pending = s.pending ∧ (State.accDo s h a ps).dram = s.dram := by
  unfold State.accDo
  (repeat' split) <;> simp
@[simp] theorem State.sendMsi_dram (s : State) (hart : ℕ) (level : ℕ) (ident : ℕ) :
    (State.sendMsi s hart level ident).dram = s.dram := by
  unfold State.sendMsi
  simp
@[simp] theorem State.sendTarget_dram (s : State) (v : ℕ) :
    (State.sendTarget s v).dram = s.dram := by
  unfold State.sendTarget
  simp
@[simp] theorem State.incReg_dram (s : State) (a : ℕ) (k : ℕ) :
    (State.incReg s a k).dram = s.dram := by
  unfold State.incReg
  simp
@[simp] theorem State.msix_dram (s : State) (fn : ℕ) (vec : ℕ) :
    (State.msix s fn vec).dram = s.dram := by
  unfold State.msix
  simp
@[simp] theorem State.rasRec_dram (s : State) (r : RasIn) :
    (State.rasRec s r).1.dram = s.dram := by
  unfold State.rasRec
  simp only [rom_ite, pending_ite, dram_ite, fst_ite, Res.kept_ite]
  (repeat' split) <;> simp
theorem State.rasDropped_stays (s : State) (w l : ℕ) : s.Still (s.rasDropped w l) := by
  have hm : ∀ (u : State) a b c, u.Still (u.sendMsi a b c) := fun u a b c => State.still_iff.2 (by simp)
  have hset : ∀ (u : State) (x : SMap Hart), u.Still { u with harts := x } := fun u x => ⟨rfl, rfl, rfl⟩
  have hr : ∀ r, s.Still (s.rasRec r).1 := fun r => ⟨(s.rasRec_fixed r).1, (s.rasRec_fixed r).2, s.rasRec_dram r⟩
  obtain ⟨f, hf⟩ : ∃ f, f = State.rasDropped := ⟨_, rfl⟩
  obtain ⟨M, hM⟩ : ∃ f, f = State.sendMsi := ⟨_, rfl⟩
  obtain ⟨R, hR⟩ : ∃ f, f = State.rasRec := ⟨_, rfl⟩
  obtain ⟨G, hG⟩ : ∃ f, f = State.reg := ⟨_, rfl⟩
  rw [← hf]
  delta State.rasDropped at hf
  rw [← hM, ← hR, ← hG] at hf
  rw [← hM] at hm
  rw [← hR] at hr
  rw [hf]
  exact (hr _).trans (.ite _ (.ite _ ((hset _ _).trans (hm _ _ _ _)) (hset _ _)) (.refl _))

@[simp] theorem State.rasDropped_still (s : State) (w l : ℕ) :
    (s.rasDropped w l).rom = s.rom ∧ (s.rasDropped w l).pending = s.pending ∧ (s.rasDropped w l).dram = s.dram :=
  State.still_iff.1 (s.rasDropped_stays w l)
@[simp] theorem State.hartFault_dram (s : State) (h : ℕ) (k : ℕ) (tval : ℕ) (gpa : ℕ) :
    (State.hartFault s h k tval gpa).dram = s.dram := by
  unfold State.hartFault
  simp
@[simp] theorem State.errRec_still (s : State) (h : ℕ) :
    (s.errRec h).rom = s.rom ∧ (s.errRec h).pending = s.pending ∧ (s.errRec h).dram = s.dram := by
  unfold State.errRec
  exact State.still_iff.1 ⟨rfl, rfl, rfl⟩
@[simp] theorem State.dataFault_still (s : State) (h : ℕ) (kind : ℕ) (va : ℕ) :
    (State.dataFault s h kind va).rom = s.rom ∧ (State.dataFault s h kind va).pending = s.pending ∧ (State.dataFault s h kind va).dram = s.dram := by
  unfold State.dataFault
  simp
@[simp] theorem State.accError_still (s : State) (h : ℕ) (a : MemAccess) (va : ℕ) (l : ℕ) :
    (State.accError s h a va l).rom = s.rom ∧ (State.accError s h a va l).pending = s.pending ∧ (State.accError s h a va l).dram = s.dram := by
  refine State.still_iff.1 ?_
  unfold State.accError
  (repeat' split) <;> simp [State.still_iff]
@[simp] theorem State.setLane_dram (s : State) (n : ℕ) (l : Lane) :
    (State.setLane s n l).dram = s.dram := by
  unfold State.setLane
  simp
@[simp] theorem State.modLane_dram (s : State) (n : ℕ) (f : Lane → Lane) :
    (State.modLane s n f).dram = s.dram := by
  unfold State.modLane
  simp
@[simp] theorem State.lpmu_dram (s : State) (n : ℕ) (i : ℕ) (k : ℕ) :
    (State.lpmu s n i k).dram = s.dram := by
  unfold State.lpmu
  simp
@[simp] theorem State.acceptDecision_dram (s : State) (n : ℕ) (h : ℕ) (m : Msg) (b : Bytes) :
    (State.acceptDecision s n h m b).dram = s.dram := by
  unfold State.acceptDecision
  simp
@[simp] theorem State.raiseIrq_dram (s : State) (base : ℕ) (b : ℕ) :
    (State.raiseIrq s base b).dram = s.dram := by
  unfold State.raiseIrq
  simp
@[simp] theorem State.setRing_dram (s : State) (k : ℕ) (r : Machine.Ring) :
    (State.setRing s k r).dram = s.dram := by
  unfold State.setRing
  simp
@[simp] theorem State.modRing_dram (s : State) (k : ℕ) (f : Machine.Ring → Machine.Ring) :
    (State.modRing s k f).dram = s.dram := by
  unfold State.modRing
  simp
@[simp] theorem State.holdIrq_dram (s : State) (k : ℕ) (was : ℕ) :
    (State.holdIrq s k was).dram = s.dram := by
  unfold State.holdIrq
  simp
@[simp] theorem State.holdRing_dram (s : State) (k : ℕ) (f : Machine.Ring → Machine.Ring) :
    (State.holdRing s k f).dram = s.dram := by
  unfold State.holdRing
  simp
@[simp] theorem State.linkSend_dram (s : State) (b : TxBody) :
    (State.linkSend s b).dram = s.dram := by
  unfold State.linkSend
  simp
@[simp] theorem State.rhaxSend_dram (s : State) (type : ℕ) (dst : ℕ) (mseq : ℕ) (code : ℕ) (body : optParam RhaxBody RhaxBody.none) :
    (State.rhaxSend s type dst mseq code body).dram = s.dram := by
  unfold State.rhaxSend
  simp
@[simp] theorem State.rhaxTell_dram (s : State) (type : ℕ) (dst : ℕ) (body : optParam RhaxBody RhaxBody.none) :
    (State.rhaxTell s type dst body).dram = s.dram := by
  unfold State.rhaxTell
  simp
@[simp] theorem State.rhaxReq_dram (s : State) (type : ℕ) (dst : ℕ) (ref : ℕ) (body : optParam RhaxBody RhaxBody.none) :
    (State.rhaxReq s type dst ref body).dram = s.dram := by
  unfold State.rhaxReq
  simp
@[simp] theorem State.wcopySend_dram (s : State) (k : ℕ) (seq : ℕ) (b : Bytes) :
    (State.wcopySend s k seq b).dram = s.dram := by
  unfold State.wcopySend
  simp
@[simp] theorem State.acceptRec_dram (s : State) (k : ℕ) (p : PortRec) :
    (State.acceptRec s k p).dram = s.dram := by
  unfold State.acceptRec
  simp
@[simp] theorem State.takeOwn_dram (s : State) (k : ℕ) (x : LateRec) :
    (State.takeOwn s k x).dram = s.dram := by
  unfold State.takeOwn
  (repeat' split) <;> simp
@[simp] theorem lateLoop_still (k : ℕ) : ∀ (l : List LateRec) (s : State),
    (lateLoop k l s).rom = s.rom ∧ (lateLoop k l s).pending = s.pending ∧ (lateLoop k l s).dram = s.dram
  | [], s => by simp [lateLoop]
  | x :: l, s => by
    unfold lateLoop
    split
    · simpa using lateLoop_still k l (s.takeOwn k x)
    · simp
@[simp] theorem State.acceptLate_still (s : State) (k : ℕ) :
    (State.acceptLate s k).rom = s.rom ∧ (State.acceptLate s k).pending = s.pending ∧ (State.acceptLate s k).dram = s.dram := by
  unfold State.acceptLate
  simp
@[simp] theorem State.giveOwn_still (s : State) (k : ℕ) (x : LateRec) (force : Bool) :
    (State.giveOwn s k x force).rom = s.rom ∧ (State.giveOwn s k x force).pending = s.pending ∧ (State.giveOwn s k x force).dram = s.dram := by
  unfold State.giveOwn
  simp
@[simp] theorem State.sealRing_still (s : State) (k : ℕ) (e : ℕ) :
    (State.sealRing s k e).rom = s.rom ∧ (State.sealRing s k e).pending = s.pending ∧ (State.sealRing s k e).dram = s.dram := by
  unfold State.sealRing
  simp
@[simp] theorem State.sealDue_still (s : State) :
    (State.sealDue s).rom = s.rom ∧ (State.sealDue s).pending = s.pending ∧ (State.sealDue s).dram = s.dram := by
  unfold State.sealDue
  simp
@[simp] theorem State.acceptOwn_still (s : State) (k : ℕ) (type : ℕ) (code : ℕ) (size : ℕ) (payload : Bytes) :
    (State.acceptOwn s k type code size payload).rom = s.rom ∧ (State.acceptOwn s k type code size payload).pending = s.pending ∧ (State.acceptOwn s k type code size payload).dram = s.dram := by
  unfold State.acceptOwn
  simp
theorem State.ras_stays (s : State) (r : RasIn) : s.Still (s.ras r) := by
  rw [State.ras_eq]
  exact (⟨(s.rasRec_fixed r).1, (s.rasRec_fixed r).2, s.rasRec_dram r⟩ : s.Still (s.rasRec r).1)

@[simp] theorem State.ras_still (s : State) (r : RasIn) :
    (s.ras r).rom = s.rom ∧ (s.ras r).pending = s.pending ∧ (s.ras r).dram = s.dram :=
  State.still_iff.1 (s.ras_stays r)
@[simp] theorem State.cacheErr_still (s : State) (h : ℕ) (a : MemAccess) (l : ℕ) :
    (State.cacheErr s h a l).1.rom = s.rom ∧ (State.cacheErr s h a l).1.pending = s.pending ∧ (State.cacheErr s h a l).1.dram = s.dram := by
  unfold State.cacheErr
  simp only [rom_ite, pending_ite, dram_ite, fst_ite, Res.kept_ite]
  (repeat' split) <;> simp
@[simp] theorem State.hcount_dram (s : State) (h : ℕ) (i : ℕ) :
    (State.hcount s h i).dram = s.dram := by
  unfold State.hcount
  simp
@[simp] theorem State.l3Place_dram (s : State) (l : ℕ) (ag : ℕ) (st : ℕ) (mru : Bool) :
    (State.l3Place s l ag st mru).dram = s.dram := by
  unfold State.l3Place
  simp only [rom_ite, pending_ite, dram_ite, fst_ite, Res.kept_ite]
  (repeat' split) <;> simp
@[simp] theorem State.l2Evict_dram (s : State) (h : ℕ) (x : CLine) :
    (State.l2Evict s h x).dram = s.dram := by
  unfold State.l2Evict
  simp
@[simp] theorem State.l2Install_dram (s : State) (h : ℕ) (l : ℕ) (st : ℕ) (mru : Bool) :
    (State.l2Install s h l st mru).dram = s.dram := by
  unfold State.l2Install
  (repeat' split) <;> simp
@[simp] theorem State.l1Install_dram (s : State) (i : Bool) (h : ℕ) (l : ℕ) (mru : Bool) :
    (State.l1Install s i h l mru).dram = s.dram := by
  unfold State.l1Install
  simp
@[simp] theorem State.lookup_dram (s : State) (h : ℕ) (l : ℕ) (i : Bool) (own : Bool) :
    (State.lookup s h l i own).1.dram = s.dram := by
  unfold State.lookup
  simp only [rom_ite, pending_ite, dram_ite, fst_ite, Res.kept_ite]
  (repeat' split) <;> simp
theorem State.Still.foldl_fst {α β : Type} {f : State × β → α → State × β} (hf : ∀ r x, State.Still r.1 (f r x).1) :
    ∀ (l : List α) (r : State × β), r.1.Still (l.foldl f r).1
  | [], r => .refl r.1
  | x :: l, r => (hf r x).trans (State.Still.foldl_fst hf l (f r x))

theorem State.cached_stays (s : State) (h : ℕ) (a : MemAccess) (va : ℕ) (ps : List (ℕ × ℕ)) (again : Bool) :
    s.Still (s.cached h a va ps again) := by
  have hce : ∀ (u : State) a b c, u.Still (u.cacheErr a b c).1 := fun u a b c => State.still_iff.2 (by simp)
  have hlk : ∀ (u : State) a b c d, u.Still (u.lookup a b c d).1 := fun u a b c d => State.still_iff.2 (by simp)
  have hae : ∀ (u : State) a b c d, u.Still (u.accError a b c d) := fun u a b c d => State.still_iff.2 (by simp)
  have had : ∀ (u : State) a b c, u.Still (u.accDo a b c) := fun u a b c => State.still_iff.2 (by simp)
  have hmh : ∀ (u : State) a b, u.Still (u.modHart a b) := fun u a b => State.still_iff.2 (by simp)
  have hwm : ∀ (u : State) a, u.Still (u.withMem a) := fun u a => State.still_iff.2 (by simp)
  obtain ⟨f, hf⟩ : ∃ f, f = State.cached := ⟨_, rfl⟩
  obtain ⟨C, hC⟩ : ∃ f, f = State.cacheErr := ⟨_, rfl⟩
  obtain ⟨L, hL⟩ : ∃ f, f = State.lookup := ⟨_, rfl⟩
  obtain ⟨P, hP⟩ : ∃ f, f = partLines := ⟨_, rfl⟩
  rw [← hf]
  delta State.cached at hf
  rw [← hC, ← hL, ← hP] at hf
  rw [← hC] at hce
  rw [← hL] at hlk
  rw [hf]
  dsimp only
  generalize hq : (if again = true then (s, (none : Option ℕ)) else _) = q
  have k1 : s.Still q.1 := by
    rw [← hq]
    split
    · exact .refl s
    · refine State.Still.foldl_fst (fun r l => ?_) (P ps) (s, none)
      exact hce r.1 _ _ _
  generalize hr : List.foldl _ (q.1, (none : Option ℕ)) (P ps) = r
  have k2 : q.1.Still r.1 := by
    rw [← hr]
    refine State.Still.foldl_fst (fun r l => ?_) (P ps) (q.1, none)
    obtain ⟨u, o⟩ := r
    cases o with
    | none => exact hlk u _ _ _ _
    | some x => exact .refl u
  refine (k1.trans k2).trans ?_
  split
  · exact hae _ _ _ _ _
  · exact had _ _ _ _
  · exact .trans (.ite _ (.refl r.1) (hmh _ _ _)) (.ite _ (hae _ _ _ _ _) ((hwm _ _).trans (hmh _ _ _)))

@[simp] theorem State.cached_still (s : State) (h : ℕ) (a : MemAccess) (va : ℕ) (ps : List (ℕ × ℕ)) (again : Bool) :
    (s.cached h a va ps again).rom = s.rom ∧ (s.cached h a va ps again).pending = s.pending
      ∧ (s.cached h a va ps again).dram = s.dram :=
  State.still_iff.1 (s.cached_stays h a va ps again)
@[simp] theorem State.noPoison_dram (s : State) :
    (State.noPoison s).dram = s.dram := by
  unfold State.noPoison
  simp
@[simp] theorem State.xlFault_still (s : State) (h : ℕ) (kind : ℕ) (c : ℕ) (tval : ℕ) (gpa : ℕ) :
    (State.xlFault s h kind c tval gpa).rom = s.rom ∧ (State.xlFault s h kind c tval gpa).pending = s.pending ∧ (State.xlFault s h kind c tval gpa).dram = s.dram := by
  unfold State.xlFault
  simp
@[simp] theorem State.gRec_dram (s : State) (r : GarRec) :
    (State.gRec s r).dram = s.dram := by
  unfold State.gRec
  simp
@[simp] theorem State.gEvt_dram (s : State) (src : ℕ) (inst : ℕ) (code : Code) (agent : ℕ) (a0 : ℕ) (a1 : ℕ) (a2 : ℕ) :
    (State.gEvt s src inst code agent a0 a1 a2).dram = s.dram := by
  unfold State.gEvt
  simp
@[simp] theorem State.portErr_dram (s : State) (p : ℕ) (code : ℕ) :
    (State.portErr s p code).dram = s.dram := by
  unfold State.portErr
  simp
@[simp] theorem State.hartTrap_dram (s : State) (h : ℕ) (k : ℕ) (tval : ℕ) :
    (State.hartTrap s h k tval).dram = s.dram := by
  unfold State.hartTrap
  simp
@[simp] theorem State.setPtag_dram (s : State) (t : ℕ) (v : Option PTag) :
    (State.setPtag s t v).dram = s.dram := by
  unfold State.setPtag
  simp
@[simp] theorem State.pcieSend_dram (s : State) (x : PcieTx) :
    (State.pcieSend s x).dram = s.dram := by
  unfold State.pcieSend
  simp
@[simp] theorem State.pciAccess_dram (s : State) (h : ℕ) (a : MemAccess) (va : ℕ) (pa : ℕ) :
    (State.pciAccess s h a va pa).dram = s.dram := by
  unfold State.pciAccess
  simp only [dram_ite, fst_ite]
  (repeat' split) <;> simp
@[simp] theorem State.setPfn_dram (s : State) (f : ℕ) (v : PFn) :
    (State.setPfn s f v).dram = s.dram := by
  unfold State.setPfn
  simp
@[simp] theorem State.msixFlush_dram (s : State) (fn : ℕ) :
    (State.msixFlush s fn).dram = s.dram := by
  unfold State.msixFlush
  simp
@[simp] theorem State.setMsixWord_dram (s : State) (fn : ℕ) (o : ℕ) (v : ℕ) :
    (State.setMsixWord s fn o v).dram = s.dram := by
  unfold State.setMsixWord
  simp
@[simp] theorem State.refuse_dram (s : State) (agent : ℕ) (addr : ℕ) (store : Bool) :
    (State.refuse s agent addr store).dram = s.dram := by
  unfold State.refuse
  simp
@[simp] theorem State.setSlot_dram (s : State) (i : ℕ) (k : KeySlot) :
    (State.setSlot s i k).dram = s.dram := by
  unfold State.setSlot
  simp
@[simp] theorem State.present_dram (s : State) (k : ℕ) (r : PortRec) :
    (State.present s k r).dram = s.dram := by
  unfold State.present
  simp
@[simp] theorem State.policyRecO_dram (s : State) (event : ℕ) (code : ℕ) (epoch : ℕ) (offs : List ℕ) (cnt : ℕ) (digest : Bytes) (body : Bytes) :
    (State.policyRecO s event code epoch offs cnt digest body).dram = s.dram := by
  unfold State.policyRecO
  simp
@[simp] theorem State.policyRec_dram (s : State) (event : ℕ) (code : ℕ) (epoch : ℕ) (cnt : ℕ) (digest : Bytes) (body : Bytes) :
    (State.policyRec s event code epoch cnt digest body).dram = s.dram := by
  unfold State.policyRec
  simp
@[simp] theorem State.slotErr_still (s : State) (i : ℕ) (err : StoreErr) :
    (State.slotErr s i err).rom = s.rom ∧ (State.slotErr s i err).pending = s.pending ∧ (State.slotErr s i err).dram = s.dram := by
  unfold State.slotErr
  (repeat' split) <;> simp
@[simp] theorem execQuery_kept (agent : Agent) (slot : SlotId) (err : StoreErr) (s : State) :
    (execQuery agent slot err s).Kept s := by
  unfold execQuery
  simp
@[simp] theorem State.imsicWrite_dram (s : State) (a : ℕ) (v : ℕ) :
    (State.imsicWrite s a v).dram = s.dram := by
  unfold State.imsicWrite
  simp
@[simp] theorem State.moveDone_dram (s : State) (code : ℕ) :
    (State.moveDone s code).dram = s.dram := by
  unfold State.moveDone
  simp
@[simp] theorem State.reassign_dram (s : State) (agent : ℕ) (v : ℕ) :
    (State.reassign s agent v).dram = s.dram := by
  unfold State.reassign
  simp
@[simp] theorem State.applyHome_dram (s : State) (mask : ℕ) :
    (State.applyHome s mask).dram = s.dram := by
  unfold State.applyHome
  simp
@[simp] theorem State.setMbx_dram (s : State) (n : ℕ) (m : Mbx) :
    (State.setMbx s n m).dram = s.dram := by
  unfold State.setMbx
  simp
@[simp] theorem State.mbxIrq_dram (s : State) (n : ℕ) :
    (State.mbxIrq s n).dram = s.dram := by
  unfold State.mbxIrq
  simp
@[simp] theorem State.mbxExpire_dram (s : State) (n : ℕ) (code : ℕ) :
    (State.mbxExpire s n code).dram = s.dram := by
  unfold State.mbxExpire
  simp
@[simp] theorem State.mbxAgentReset_dram (s : State) (a : ℕ) (n : ℕ) :
    (State.mbxAgentReset s a n).dram = s.dram := by
  unfold State.mbxAgentReset
  simp
@[simp] theorem State.massReset_dram (s : State) (p : ℕ → Bool) :
    (State.massReset s p).dram = s.dram := by
  unfold State.massReset
  simp
@[simp] theorem State.witnessRing_dram (s : State) (k : ℕ) :
    (State.witnessRing s k).dram = s.dram := by
  unfold State.witnessRing
  simp
theorem State.hartsUnconf_stays (s : State) (k : ℕ) : s.Still (s.hartsUnconf k) := by
  unfold State.hartsUnconf
  refine .foldl (fun t x => ?_) _ s
  split
  · generalize 2 ^ 63 + _ + _ + _ = v
    split
    · exact .refl t
    · split
      · simp [State.still_iff]
      · exact .refl t
  · exact .refl t

@[simp] theorem State.hartsUnconf_still (s : State) (k : ℕ) :
    (s.hartsUnconf k).rom = s.rom ∧ (s.hartsUnconf k).pending = s.pending ∧ (s.hartsUnconf k).dram = s.dram :=
  State.still_iff.1 (s.hartsUnconf_stays k)
@[simp] theorem State.modeRecs_still (s : State) :
    (State.modeRecs s).rom = s.rom ∧ (State.modeRecs s).pending = s.pending ∧ (State.modeRecs s).dram = s.dram := by
  unfold State.modeRecs
  simp
@[simp] theorem State.setMode_still (s : State) (m : ℕ) :
    (State.setMode s m).rom = s.rom ∧ (State.setMode s m).pending = s.pending ∧ (State.setMode s m).dram = s.dram := by
  refine State.still_iff.1 ?_
  unfold State.setMode
  (repeat' split) <;> simp [State.still_iff]
@[simp] theorem State.enterApart_still (s : State) :
    (State.enterApart s).rom = s.rom ∧ (State.enterApart s).pending = s.pending ∧ (State.enterApart s).dram = s.dram := by
  refine State.still_iff.1 ?_
  unfold State.enterApart
  (repeat' split) <;> simp [State.still_iff]
@[simp] theorem State.leaseReq_dram (s : State) (home : ℕ) :
    (State.leaseReq s home).dram = s.dram := by
  unfold State.leaseReq
  simp
@[simp] theorem State.agentReset_dram (s : State) (a : ℕ) :
    (State.agentReset s a).dram = s.dram := by
  unfold State.agentReset
  simp
@[simp] theorem State.linkDown_still (s : State) (fault : Bool) :
    (State.linkDown s fault).rom = s.rom ∧ (State.linkDown s fault).pending = s.pending ∧ (State.linkDown s fault).dram = s.dram := by
  refine State.still_iff.1 ?_
  unfold State.linkDown
  (repeat' split) <;> simp [State.still_iff]
@[simp] theorem State.setPairCode_dram (s : State) (c : ℕ) :
    (State.setPairCode s c).dram = s.dram := by
  unfold State.setPairCode
  simp
@[simp] theorem State.linkFail_still (s : State) (code : ℕ) :
    (State.linkFail s code).rom = s.rom ∧ (State.linkFail s code).pending = s.pending ∧ (State.linkFail s code).dram = s.dram := by
  refine State.still_iff.1 ?_
  unfold State.linkFail
  (repeat' split) <;> simp [State.still_iff]
@[simp] theorem State.warmLane_dram (s : State) (n : ℕ) :
    (State.warmLane s n).dram = s.dram := by
  unfold State.warmLane
  simp
@[simp] theorem State.pwrWrite_kept (s : State) (a : Agent) (f : State → State)
    (hf : ∀ x, (f x).rom = x.rom ∧ (f x).pending = x.pending ∧ (Memory.wf x.dram = true → Memory.wf (f x).dram = true)) :
    (s.pwrWrite a f).Kept s := by
  unfold State.pwrWrite
  (repeat' split) <;> simp_all
@[simp] theorem State.setTdp_dram (s : State) (v : ℕ) :
    (State.setTdp s v).dram = s.dram := by
  unfold State.setTdp
  simp
@[simp] theorem State.hartReset_dram (s : State) (h : ℕ) :
    (State.hartReset s h).dram = s.dram := by
  unfold State.hartReset
  simp
@[simp] theorem State.plainWrite_dram (s : State) (a : ℕ) (v : ℕ) :
    (State.plainWrite s a v).dram = s.dram := by
  unfold State.plainWrite
  (repeat' split) <;> simp
@[simp] theorem execSdReq_kept (agent : Agent) (s : State) :
    (execSdReq agent s).Kept s := by
  unfold execSdReq
  simp
@[simp] theorem State.sealStore_dram (s : State) :
    (State.sealStore s).dram = s.dram := by
  unfold State.sealStore
  simp
@[simp] theorem State.setLreg_dram (s : State) (n : ℕ) (o : ℕ) (v : ℕ) :
    (State.setLreg s n o v).dram = s.dram := by
  unfold State.setLreg
  simp
@[simp] theorem State.hshCons_dram (s : State) (n : ℕ) (k : ℕ) (v : W32) :
    (State.hshCons s n k v).dram = s.dram := by
  unfold State.hshCons
  simp
@[simp] theorem State.startReset_dram (s : State) (n : ℕ) (agent : ℕ) :
    (State.startReset s n agent).dram = s.dram := by
  unfold State.startReset
  simp
@[simp] theorem State.rshProd_dram (s : State) (n : ℕ) (k : ℕ) (v : W32) :
    (State.rshProd s n k v).dram = s.dram := by
  unfold State.rshProd
  simp
@[simp] theorem State.laneCtlWrite_dram (s : State) (ag : ℕ) (n : ℕ) (o : ℕ) (v : ℕ) :
    (State.laneCtlWrite s ag n o v).dram = s.dram := by
  unfold State.laneCtlWrite
  simp
@[simp] theorem State.hdmaWrite_dram (s : State) (ag : ℕ) (k : ℕ) (o : ℕ) (v : ℕ) :
    (State.hdmaWrite s ag k o v).dram = s.dram := by
  unfold State.hdmaWrite
  (repeat' split) <;> simp
@[simp] theorem State.setIom_dram (s : State) (o : ℕ) (v : ℕ) :
    (State.setIom s o v).dram = s.dram := by
  unfold State.setIom
  simp
@[simp] theorem State.snoopOut_dram (s : State) (l : ℕ) (keep : Option ℕ) :
    (State.snoopOut s l keep).dram = s.dram := by
  unfold State.snoopOut
  simp
theorem State.lineWrite_stays (s : State) (ag l o : ℕ) (b : Bytes) (p : Bool) : s.Still (s.lineWrite ag l o b p) := by
  have hev : ∀ (u : State) a, u.Still (u.evOrder a) := fun u a => State.still_iff.2 (by simp)
  have hso : ∀ (u : State) a b, u.Still (u.snoopOut a b) := fun u a b => State.still_iff.2 (by simp)
  have hq : ∀ (u : State) a b c d, u.Still (u.queueWrite a b c d) := fun u a b c d => State.still_iff.2 (by simp)
  have hp : ∀ (u : State) a b c d, u.Still (u.l3Place a b c d) := fun u a b c d => State.still_iff.2 (by simp)
  have hm : ∀ (u : State) (m : Mem), u.Still { u with mem := m } := fun u m => ⟨rfl, rfl, rfl⟩
  unfold State.lineWrite
  exact .ite _ (s.rasDropped_stays ag l) (((hev _ _).trans (hso _ _ _)).trans (.ite _ ((hm _ _).trans (hq _ _ _ _ _))
    ((hm _ _).trans (hp _ _ _ _ _))))

@[simp] theorem State.lineWrite_still (s : State) (ag l o : ℕ) (b : Bytes) (p : Bool) :
    (s.lineWrite ag l o b p).rom = s.rom ∧ (s.lineWrite ag l o b p).pending = s.pending ∧ (s.lineWrite ag l o b p).dram = s.dram :=
  State.still_iff.1 (s.lineWrite_stays ag l o b p)
theorem State.dramWriteBy_stays (s : State) (ag a : ℕ) (b : Bytes) (p : Bool) : s.Still (s.dramWriteBy ag a b p) := by
  unfold State.dramWriteBy
  exact .ite _ (.refl s) (.foldl (fun t i => t.lineWrite_stays _ _ _ _ _) _ _)

@[simp] theorem State.dramWriteBy_still (s : State) (ag a : ℕ) (b : Bytes) (p : Bool) :
    (s.dramWriteBy ag a b p).rom = s.rom ∧ (s.dramWriteBy ag a b p).pending = s.pending
      ∧ (s.dramWriteBy ag a b p).dram = s.dram :=
  State.still_iff.1 (s.dramWriteBy_stays ag a b p)
theorem State.dramWrite_stays (s : State) (a : ℕ) (b : Bytes) : s.Still (s.dramWrite a b) := s.dramWriteBy_stays _ _ _ _

@[simp] theorem State.dramWrite_still (s : State) (a : ℕ) (b : Bytes) :
    (s.dramWrite a b).rom = s.rom ∧ (s.dramWrite a b).pending = s.pending ∧ (s.dramWrite a b).dram = s.dram :=
  State.still_iff.1 (s.dramWrite_stays a b)
theorem State.iomMsi_stays (s : State) (v : ℕ) : s.Still (s.iomMsi v) := by
  unfold State.iomMsi
  exact .ite _ ⟨rfl, rfl, rfl⟩ (.ite _ (State.still_iff.2 (by simp)) (.ite _ (s.dramWrite_stays _ _) (.refl s)))

@[simp] theorem State.iomMsi_still (s : State) (v : ℕ) :
    (s.iomMsi v).rom = s.rom ∧ (s.iomMsi v).pending = s.pending ∧ (s.iomMsi v).dram = s.dram :=
  State.still_iff.1 (s.iomMsi_stays v)
theorem State.iomCmd_still (s : State) (d0 d1 : ℕ) (t : State) (h : s.iomCmd d0 d1 = some t) :
    t.rom = s.rom ∧ t.pending = s.pending ∧ t.dram = s.dram := by
  unfold State.iomCmd at h
  dsimp only at h
  split at h <;> (repeat' split at h) <;> first | cases h; simp | cases h
@[simp] theorem State.iomIrq_still (s : State) (b : ℕ) :
    (State.iomIrq s b).rom = s.rom ∧ (State.iomIrq s b).pending = s.pending ∧ (State.iomIrq s b).dram = s.dram := by
  refine State.still_iff.1 ?_
  unfold State.iomIrq
  (repeat' split) <;> simp [State.still_iff]
@[simp] theorem State.iomRun_still : ∀ (k : ℕ) (s : State),
    (State.iomRun k s).rom = s.rom ∧ (State.iomRun k s).pending = s.pending ∧ (State.iomRun k s).dram = s.dram
  | 0, s => by simp [State.iomRun]
  | k + 1, s => by
    unfold State.iomRun
    dsimp only
    split
    · simp
    · split
      · split <;> simp
      · split
        next => split <;> simp
        next t ht =>
          have h := State.iomCmd_still s _ _ t ht
          split
          · split <;> simp [h]
          · simp [State.iomRun_still k, h]
@[simp] theorem State.iomGo_still (s : State) :
    (State.iomGo s).rom = s.rom ∧ (State.iomGo s).pending = s.pending ∧ (State.iomGo s).dram = s.dram := by
  refine State.still_iff.1 ?_
  unfold State.iomGo
  (repeat' split) <;> simp [State.still_iff]
@[simp] theorem State.iommuWrite_still (s : State) (o : ℕ) (v : ℕ) :
    (State.iommuWrite s o v).rom = s.rom ∧ (State.iommuWrite s o v).pending = s.pending ∧ (State.iommuWrite s o v).dram = s.dram := by
  refine State.still_iff.1 ?_
  unfold State.iommuWrite
  (repeat' split) <;> simp [State.still_iff]
@[simp] theorem State.setField_dram (s : State) (a : ℕ) (hi : ℕ) (lo : ℕ) (v : ℕ) :
    (State.setField s a hi lo v).dram = s.dram := by
  unfold State.setField
  simp
@[simp] theorem State.setDmc_dram (s : State) (c : ℕ) (d : Dmc) :
    (State.setDmc s c d).dram = s.dram := by
  unfold State.setDmc
  simp
@[simp] theorem State.modDmc_dram (s : State) (c : ℕ) (f : Dmc → Dmc) :
    (State.modDmc s c f).dram = s.dram := by
  unfold State.modDmc
  simp
@[simp] theorem State.dmcAccess_kept (s : State) (a : Agent) (c o : ℕ) (f : State → State)
    (hf : ∀ x, (f x).rom = x.rom ∧ (f x).pending = x.pending ∧ (Memory.wf x.dram = true → Memory.wf (f x).dram = true)) :
    (s.dmcAccess a c o f).Kept s := by
  unfold State.dmcAccess
  (repeat' split) <;> simp_all
@[simp] theorem execTrainNow_kept (agent : Agent) (c : ChanId) (s : State) :
    (execTrainNow agent c s).Kept s := by
  unfold execTrainNow
  simp
@[simp] theorem State.freqStart_dram (s : State) (c : ℕ) (t : ℕ) (deferred : Bool) :
    (State.freqStart s c t deferred).dram = s.dram := by
  unfold State.freqStart
  simp
@[simp] theorem execFreqReq_kept (agent : Agent) (c : ChanId) (val : W32) (s : State) :
    (execFreqReq agent c val s).Kept s := by
  unfold execFreqReq
  simp
/-- From `s` to `t` the boot ROM and the queue stay, and the DRAM cells keep their canonical form. -/
structure State.Sound (s t : State) : Prop where
  rom : t.rom = s.rom
  pending : t.pending = s.pending
  dram : Memory.wf s.dram = true → Memory.wf t.dram = true

theorem State.Sound.refl (s : State) : s.Sound s := ⟨rfl, rfl, id⟩

theorem State.Sound.trans {s t u : State} (h : s.Sound t) (k : t.Sound u) : s.Sound u :=
  ⟨k.rom.trans h.rom, k.pending.trans h.pending, fun hw => k.dram (h.dram hw)⟩

theorem State.Sound.ite {s t u : State} (c : Prop) [Decidable c] (ht : s.Sound t) (hu : s.Sound u) :
    s.Sound (if c then t else u) := by
  split
  · exact ht
  · exact hu

theorem State.Sound.foldl {α : Type} {f : State → α → State} (hf : ∀ (t : State) x, t.Sound (f t x)) :
    ∀ (l : List α) (s : State), s.Sound (l.foldl f s)
  | [], s => .refl s
  | x :: l, s => (hf s x).trans (State.Sound.foldl hf l (f s x))

theorem State.Still.sound {s t : State} (h : s.Still t) : s.Sound t := ⟨h.rom, h.pending, fun hw => h.dram ▸ hw⟩

theorem State.Sound.next {s t : State} (h : s.Sound t) : Res.Kept (.next t) s := (Res.kept_next t s).2 ⟨h.rom, h.pending, h.dram⟩

theorem Res.st_sound {r : Res} {s : State} (h : r.Kept s) : s.Sound (r.st s) := by
  cases r with
  | next t => obtain ⟨h1, h2, h3⟩ := h t rfl; exact ⟨h1, h2, h3⟩
  | _ => exact .refl s

theorem State.dmcWrite_sound (s : State) (g c o v : ℕ) : s.Sound (s.dmcWrite g c o v) := by
  have hf : ∀ (u : State) a b c d, u.Sound (u.setField a b c d) := fun u a b c d => (State.still_iff.2 (by simp)).sound
  have hr : ∀ (u : State) a b, u.Sound (u.setReg a b) := fun u a b => (State.still_iff.2 (by simp)).sound
  have hp : ∀ (u : State) a b, u.Sound (u.plainWrite a b) := fun u a b => (State.still_iff.2 (by simp)).sound
  have hm : ∀ (u : State) a b, u.Sound (u.modDmc a b) := fun u a b => (State.still_iff.2 (by simp)).sound
  unfold State.dmcWrite
  refine .ite _ (.ite _ ((hf _ _ _ _ _).trans (Res.st_sound (execTrainNow_kept _ _ _))) (hf _ _ _ _ _))
    (.ite _ (Res.st_sound (execFreqReq_kept _ _ _ _)) (.ite _ (hr _ _ _) (.ite _ (.ite _ (.refl s) (hp _ _ _)) (.ite _ ?_ (hp _ _ _)))))
  exact .trans (.ite _ (hm _ _ _) (.refl s)) (hp _ _ _)
@[simp] theorem execDrainRetire_kept (_agent : Agent) (k : RingId) (val : W32) (s : State) :
    (execDrainRetire _agent k val s).Kept s := by
  unfold execDrainRetire
  simp
theorem State.jrnWrite_sound (s : State) (o v : ℕ) : s.Sound (s.jrnWrite o v) := by
  have hf : ∀ (u : State) a b c d, u.Sound (u.setField a b c d) := fun u a b c d => (State.still_iff.2 (by simp)).sound
  have hr : ∀ (u : State) a b, u.Sound (u.setReg a b) := fun u a b => (State.still_iff.2 (by simp)).sound
  have hp : ∀ (u : State) a b, u.Sound (u.plainWrite a b) := fun u a b => (State.still_iff.2 (by simp)).sound
  unfold State.jrnWrite
  refine .ite _ (hf _ _ _ _ _) (.ite _ (hr _ _ _) (.ite _ ?_ (hp _ _ _)))
  dsimp only
  split
  · exact .ite _ (.refl s) (hp _ _ _)
  · exact .ite _ (.refl s) (hp _ _ _)
  · exact hr _ _ _
  · exact Res.st_sound (execDrainRetire_kept _ _ _ _)
  · exact hp _ _ _
@[simp] theorem State.setArk_dram (s : State) (k : ℕ) (a : Ark) :
    (State.setArk s k a).dram = s.dram := by
  unfold State.setArk
  simp
@[simp] theorem State.arkAbort_dram (s : State) (k : ℕ) :
    (State.arkAbort s k).dram = s.dram := by
  unfold State.arkAbort
  simp
@[simp] theorem State.arkEn_dram (s : State) (k : ℕ) (v : Bool) :
    (State.arkEn s k v).dram = s.dram := by
  unfold State.arkEn
  simp
@[simp] theorem State.arkWrite_dram (s : State) (k : ℕ) (o : ℕ) (v : ℕ) :
    (State.arkWrite s k o v).dram = s.dram := by
  unfold State.arkWrite
  simp
@[simp] theorem State.mbxRefuse_dram (s : State) (n : ℕ) (a : ℕ) :
    (State.mbxRefuse s n a).dram = s.dram := by
  unfold State.mbxRefuse
  simp
@[simp] theorem State.mbxData_dram (s : State) (a : ℕ) (n : ℕ) (i : ℕ) (v : W32) :
    (State.mbxData s a n i v).dram = s.dram := by
  unfold State.mbxData
  simp
@[simp] theorem State.mbxClear_dram (s : State) (a : ℕ) (n : ℕ) :
    (State.mbxClear s a n).dram = s.dram := by
  unfold State.mbxClear
  simp
@[simp] theorem State.mbxGo_dram (s : State) (a : ℕ) (n : ℕ) (seq : ℕ) :
    (State.mbxGo s a n seq).dram = s.dram := by
  unfold State.mbxGo
  simp
@[simp] theorem State.mbxExtend_dram (s : State) (a : ℕ) (n : ℕ) (us : ℕ) :
    (State.mbxExtend s a n us).dram = s.dram := by
  unfold State.mbxExtend
  simp
@[simp] theorem State.mbxAck_dram (s : State) (a : ℕ) (n : ℕ) (seq : ℕ) (code : ℕ) :
    (State.mbxAck s a n seq code).dram = s.dram := by
  unfold State.mbxAck
  simp
@[simp] theorem State.mbxWrite_dram (s : State) (ag : ℕ) (n : ℕ) (o : ℕ) (v : ℕ) :
    (State.mbxWrite s ag n o v).dram = s.dram := by
  unfold State.mbxWrite
  simp only [dram_ite, fst_ite]
  (repeat' split) <;> simp
@[simp] theorem State.lockWrite_dram (s : State) (n : ℕ) (a : ℕ) :
    (State.lockWrite s n a).dram = s.dram := by
  unfold State.lockWrite
  simp
@[simp] theorem State.descUpdate_dram (s : State) :
    (State.descUpdate s).dram = s.dram := by
  unfold State.descUpdate
  simp
@[simp] theorem State.lockRead_dram (s : State) (n : ℕ) (a : ℕ) :
    (State.lockRead s n a).1.dram = s.dram := by
  unfold State.lockRead
  (repeat' split) <;> simp
@[simp] theorem State.answer_dram (s : State) (a : ℕ) (v : ℕ) :
    (State.answer s a v).dram = s.dram := by
  unfold State.answer
  simp
@[simp] theorem State.mbxRx_dram (s : State) (a : ℕ) (n : ℕ) :
    (State.mbxRx s a n).dram = s.dram := by
  unfold State.mbxRx
  simp
@[simp] theorem State.regRead_dram (s : State) (ag : ℕ) (a : ℕ) (ev : ℕ) :
    (State.regRead s ag a ev).1.dram = s.dram := by
  unfold State.regRead
  (repeat' split) <;> simp
@[simp] theorem State.ioRead_dram (s : State) (ag : ℕ) (a : ℕ) (n : ℕ) (vec : Bool) :
    (State.ioRead s ag a n vec).1.dram = s.dram := by
  unfold State.ioRead
  simp only [dram_ite, fst_ite]
  (repeat' split) <;> simp
@[simp] theorem State.wrongPath_dram (s : State) (h : ℕ) (a : MemAccess) (va : ℕ) :
    (State.wrongPath s h a va).dram = s.dram := by
  unfold State.wrongPath
  (repeat' split) <;> simp
@[simp] theorem State.ackMsg_dram (s : State) (n : ℕ) (h : ℕ) :
    (State.ackMsg s n h).dram = s.dram := by
  unfold State.ackMsg
  simp
@[simp] theorem State.retransmit_dram (s : State) (k : ℕ) (seq : ℕ) :
    (State.retransmit s k seq).1.dram = s.dram := by
  unfold State.retransmit
  (repeat' split) <;> simp
@[simp] theorem State.frameBad_still (s : State) (f : TxFrame) :
    (State.frameBad s f).rom = s.rom ∧ (State.frameBad s f).pending = s.pending ∧ (State.frameBad s f).dram = s.dram := by
  refine State.still_iff.1 ?_
  unfold State.frameBad
  (repeat' split) <;> simp [State.still_iff]
@[simp] theorem State.proofCommitted_dram (s : State) (k : ℕ) (seq : ℕ) :
    (State.proofCommitted s k seq).dram = s.dram := by
  unfold State.proofCommitted
  simp
@[simp] theorem State.proofDone_dram (s : State) (ref : ℕ) (key : ℕ) (opc : ℕ) (code : Code) (sig : Bytes) :
    (State.proofDone s ref key opc code sig).dram = s.dram := by
  unfold State.proofDone
  simp only [dram_ite, fst_ite]
  (repeat' split) <;> simp
@[simp] theorem State.reserveDone_dram (s : State) (u : ReserveUnit) (ref : ℕ) (key : ℕ) (opc : ℕ) (code : Code) (out : Bytes) :
    (State.reserveDone s u ref key opc code out).dram = s.dram := by
  unfold State.reserveDone
  (repeat' split) <;> simp
@[simp] theorem State.reserveReq_dram (s : State) (n : ℕ) (q : ReserveReq) :
    (State.reserveReq s n q).dram = s.dram := by
  unfold State.reserveReq
  simp
@[simp] theorem State.proofRequest_dram (s : State) (k : ℕ) (rc : Rec) :
    (State.proofRequest s k rc).dram = s.dram := by
  unfold State.proofRequest
  simp
@[simp] theorem State.modThr_dram (s : State) (n : ℕ) (t : ℕ) (f : Thread → Thread) :
    (State.modThr s n t f).dram = s.dram := by
  unfold State.modThr
  simp
@[simp] theorem State.reportCommit_dram (s : State) (k : ℕ) (rc : Rec) (code : Code) :
    (State.reportCommit s k rc code).dram = s.dram := by
  unfold State.reportCommit
  simp only [dram_ite, fst_ite]
  (repeat' split) <;> simp
@[simp] theorem commitLoop_still (k : ℕ) : ∀ (f : ℕ) (s : State),
    (commitLoop k f s).rom = s.rom ∧ (commitLoop k f s).pending = s.pending ∧ (commitLoop k f s).dram = s.dram
  | 0, s => by simp [commitLoop]
  | f + 1, s => by
    unfold commitLoop
    dsimp only
    split
    · simp
    · split
      · simp
      · simp [commitLoop_still k f]
@[simp] theorem State.commit_still (s : State) (k : ℕ) :
    (State.commit s k).rom = s.rom ∧ (State.commit s k).pending = s.pending ∧ (State.commit s k).dram = s.dram := by
  unfold State.commit
  simp
@[simp] theorem State.frameAcked_still (s : State) (f : TxFrame) :
    (State.frameAcked s f).rom = s.rom ∧ (State.frameAcked s f).pending = s.pending ∧ (State.frameAcked s f).dram = s.dram := by
  unfold State.frameAcked
  (repeat' split) <;> simp
theorem State.ackVector_stays (s : State) (a m : ℕ) : s.Still (s.ackVector a m) := by
  unfold State.ackVector
  refine .foldl (fun t x => ?_) _ s
  cases ackDist a x.lseq with
  | none => exact .refl t
  | some d => exact .ite _ (State.still_iff.2 (by simp)) (.ite _ (.refl t) (State.still_iff.2 (by simp)))

@[simp] theorem State.ackVector_still (s : State) (a m : ℕ) :
    (s.ackVector a m).rom = s.rom ∧ (s.ackVector a m).pending = s.pending ∧ (s.ackVector a m).dram = s.dram :=
  State.still_iff.1 (s.ackVector_stays a m)
@[simp] theorem State.drew_dram (s : State) :
    (State.drew s).dram = s.dram := by
  unfold State.drew
  simp
@[simp] theorem State.activate_dram (s : State) (c : ℕ) (k : ℕ) :
    (State.activate s c k).dram = s.dram := by
  unfold State.activate
  simp
@[simp] theorem State.activateMirror_dram (s : State) (k : ℕ) :
    (State.activateMirror s k).dram = s.dram := by
  unfold State.activateMirror
  simp
@[simp] theorem State.addCtl_dram (s : State) (c : CtlChange) :
    (State.addCtl s c).dram = s.dram := by
  unfold State.addCtl
  simp
@[simp] theorem State.admitBoundary_dram (s : State) (n : ℕ) :
    (State.admitBoundary s n).dram = s.dram := by
  unfold State.admitBoundary
  simp
@[simp] theorem State.admitShed_dram (s : State) (n : ℕ) (c : Cand) :
    (State.admitShed s n c).dram = s.dram := by
  unfold State.admitShed
  simp
@[simp] theorem State.announce_dram (s : State) :
    (State.announce s).dram = s.dram := by
  unfold State.announce
  simp
@[simp] theorem State.appliedRec_dram (s : State) (num : ℕ) (dev : ℕ) (it : Item) (offs : List ℕ) (d : Bytes) :
    (State.appliedRec s num dev it offs d).dram = s.dram := by
  unfold State.appliedRec
  simp
@[simp] theorem State.setOwn_dram (s : State) (i : ℕ) (cls : ℕ) (mat : Bytes) :
    (State.setOwn s i cls mat).dram = s.dram := by
  unfold State.setOwn
  simp
@[simp] theorem State.moveSlot_dram (s : State) (i : ℕ) (j : ℕ) :
    (State.moveSlot s i j).dram = s.dram := by
  unfold State.moveSlot
  simp
@[simp] theorem State.applyDomain_dram (s : State) (c : DomainCfg) :
    (State.applyDomain s c).dram = s.dram := by
  unfold State.applyDomain
  simp
@[simp] theorem State.loadLane_dram (s : State) (n : ℕ) (staged : Bool) (admitOn : Bool) (img : Bytes) :
    (State.loadLane s n staged admitOn img).dram = s.dram := by
  unfold State.loadLane
  simp
@[simp] theorem State.gFreeze_dram (s : State) (trig : ℕ) (who : ℕ) :
    (State.gFreeze s trig who).dram = s.dram := by
  unfold State.gFreeze
  simp
@[simp] theorem State.celRestart_still (s : State) (cause : ℕ) :
    (State.celRestart s cause).rom = s.rom ∧ (State.celRestart s cause).pending = s.pending ∧ (State.celRestart s cause).dram = s.dram := by
  unfold State.celRestart
  simp
@[simp] theorem State.retry_dram (s : State) (it : Item) :
    (State.retry s it).dram = s.dram := by
  unfold State.retry
  simp
@[simp] theorem State.eraseSlot_dram (s : State) (i : ℕ) :
    (State.eraseSlot s i).dram = s.dram := by
  unfold State.eraseSlot
  simp
@[simp] theorem State.zeroize_dram (s : State) :
    (State.zeroize s).dram = s.dram := by
  unfold State.zeroize
  simp
@[simp] theorem State.installKey_dram (s : State) (i : ℕ) (cls : ℕ) (pol : ℕ) (route : ℕ) (mat : Bytes) :
    (State.installKey s i cls pol route mat).dram = s.dram := by
  unfold State.installKey
  simp
@[simp] theorem State.applyItem_still (s : State) (it : Item) :
    (State.applyItem s it).rom = s.rom ∧ (State.applyItem s it).pending = s.pending ∧ (State.applyItem s it).dram = s.dram := by
  refine State.still_iff.1 ?_
  unfold State.applyItem
  (repeat' split) <;> simp [State.still_iff]
@[simp] theorem State.gMsg_dram (s : State) (src : ℕ) (n : ℕ) (h : ℕ) (code : Code) (a2 : ℕ) :
    (State.gMsg s src n h code a2).dram = s.dram := by
  unfold State.gMsg
  simp
@[simp] theorem State.overrunEnd_dram (s : State) (n : ℕ) (p : Phase) :
    (State.overrunEnd s n p).dram = s.dram := by
  unfold State.overrunEnd
  simp
@[simp] theorem State.phaseEnd_dram (s : State) (n : ℕ) (t : ℕ) :
    (State.phaseEnd s n t).dram = s.dram := by
  unfold State.phaseEnd
  (repeat' split) <;> simp
@[simp] theorem State.modMsg_dram (s : State) (n : ℕ) (h : ℕ) (f : Msg → Msg) :
    (State.modMsg s n h f).dram = s.dram := by
  unfold State.modMsg
  simp
@[simp] theorem State.releaseEnd_dram (s : State) (n : ℕ) (h : ℕ) :
    (State.releaseEnd s n h).dram = s.dram := by
  unfold State.releaseEnd
  (repeat' split) <;> simp
@[simp] theorem State.netCount_dram (s : State) (i : ℕ) :
    (State.netCount s i).dram = s.dram := by
  unfold State.netCount
  simp
@[simp] theorem State.undeliver_dram (s : State) (n : ℕ) (h : ℕ) (code : ℕ) :
    (State.undeliver s n h code).dram = s.dram := by
  unfold State.undeliver
  (repeat' split) <;> simp
@[simp] theorem State.dropReleases_dram (s : State) (i : ℕ) :
    (State.dropReleases s i).dram = s.dram := by
  unfold State.dropReleases
  simp
@[simp] theorem State.snapSess_dram (s : State) (i : ℕ) :
    (State.snapSess s i).dram = s.dram := by
  unfold State.snapSess
  simp
@[simp] theorem State.setSess_dram (s : State) (i : ℕ) (x : Session) :
    (State.setSess s i x).dram = s.dram := by
  unfold State.setSess
  simp
@[simp] theorem State.freeSess_dram (s : State) (i : ℕ) (code : ℕ) :
    (State.freeSess s i code).dram = s.dram := by
  unfold State.freeSess
  simp
@[simp] theorem State.pauseFlush_dram (s : State) :
    (State.pauseFlush s).dram = s.dram := by
  unfold State.pauseFlush
  simp
@[simp] theorem State.send_dram (s : State) (q : ℕ) (t : NetTx) :
    (State.send s q t).dram = s.dram := by
  unfold State.send
  simp
@[simp] theorem State.closeRst_dram (s : State) (i : ℕ) (code : ℕ) :
    (State.closeRst s i code).dram = s.dram := by
  unfold State.closeRst
  simp
@[simp] theorem State.netAfter_dram (s : State) (old : State) :
    (State.netAfter s old).dram = s.dram := by
  unfold State.netAfter
  simp
@[simp] theorem State.applyPeer_still (s : State) (c : CtlChange) :
    (State.applyPeer s c).rom = s.rom ∧ (State.applyPeer s c).pending = s.pending ∧ (State.applyPeer s c).dram = s.dram := by
  refine State.still_iff.1 ?_
  unfold State.applyPeer
  (repeat' split) <;> simp [State.still_iff]
@[simp] theorem State.freeReserve_dram (s : State) (it : Item) :
    (State.freeReserve s it).dram = s.dram := by
  unfold State.freeReserve
  simp
@[simp] theorem State.setTicket_dram (s : State) (t : Ticket) :
    (State.setTicket s t).dram = s.dram := by
  unfold State.setTicket
  simp
@[simp] theorem State.refuseTicket_dram (s : State) (t : Ticket) (mask : ℕ) (code : ℕ) :
    (State.refuseTicket s t mask code).dram = s.dram := by
  unfold State.refuseTicket
  simp
@[simp] theorem State.applyTicket_still (s : State) (t : Ticket) :
    (State.applyTicket s t).rom = s.rom ∧ (State.applyTicket s t).pending = s.pending ∧ (State.applyTicket s t).dram = s.dram := by
  refine State.still_iff.1 ?_
  unfold State.applyTicket
  (repeat' split) <;> simp [State.still_iff]
@[simp] theorem State.arkBad_dram (s : State) (k : ℕ) (c : ArkAcc) (code : ℕ) (i : ℕ) :
    (State.arkBad s k c code i).1.dram = s.dram := by
  unfold State.arkBad
  simp
@[simp] theorem State.arkDec_still (s : State) (k : ℕ) (i : ℕ) (r : ArkRun) (c : ArkAcc) :
    (State.arkDec s k i r c).1.rom = s.rom ∧ (State.arkDec s k i r c).1.pending = s.pending ∧ (State.arkDec s k i r c).1.dram = s.dram := by
  refine State.still_iff.1 ?_
  unfold State.arkDec
  dsimp only
  (repeat' split) <;> simp [State.still_iff]
@[simp] theorem State.arkComp_still (s : State) (k : ℕ) (i : ℕ) (r : ArkRun) (c : ArkAcc) :
    (State.arkComp s k i r c).1.rom = s.rom ∧ (State.arkComp s k i r c).1.pending = s.pending ∧ (State.arkComp s k i r c).1.dram = s.dram := by
  refine State.still_iff.1 ?_
  unfold State.arkComp
  dsimp only
  (repeat' split) <;> simp [State.still_iff]
theorem State.arkBlocks_stays (k : ℕ) (r : ArkRun) (limit : Option ℕ) : ∀ (f i : ℕ) (c : ArkAcc) (s : State),
    s.Still (s.arkBlocks k r limit f i c).1
  | 0, _, _, s => .refl s
  | f + 1, i, c, s => by
    unfold State.arkBlocks
    split
    · exact .refl s
    · split
      · exact .refl s
      · have h : s.Still (if r.op = 1 then s.arkComp k i r c else s.arkDec k i r c).1 := by
          split
          · exact State.still_iff.2 (by simp)
          · exact State.still_iff.2 (by simp)
        generalize (if r.op = 1 then s.arkComp k i r c else s.arkDec k i r c) = q at h ⊢
        exact h.trans (State.arkBlocks_stays k r limit f (i + 1) q.2 q.1)

@[simp] theorem State.arkBlocks_still (s : State) (k : ℕ) (r : ArkRun) (limit : Option ℕ) (f i : ℕ) (c : ArkAcc) :
    (s.arkBlocks k r limit f i c).1.rom = s.rom ∧ (s.arkBlocks k r limit f i c).1.pending = s.pending
      ∧ (s.arkBlocks k r limit f i c).1.dram = s.dram :=
  State.still_iff.1 (State.arkBlocks_stays k r limit f i c s)
@[simp] theorem State.arkRun_still (s : State) (k : ℕ) (r : ArkRun) (abort : Bool) :
    (State.arkRun s k r abort).1.rom = s.rom ∧ (State.arkRun s k r abort).1.pending = s.pending ∧ (State.arkRun s k r abort).1.dram = s.dram := by
  refine State.still_iff.1 ?_
  unfold State.arkRun
  (repeat' split) <;> simp [State.still_iff]
@[simp] theorem State.arkStart_kept (s : State) (k : ℕ) (op : ℕ) (failing : List ℕ) (dataError : Bool) :
    (State.arkStart s k op failing dataError).Kept s := by
  unfold State.arkStart
  simp
@[simp] theorem State.vendorDo_still (s : State) (h : ℕ) (sb ub vb : Option ℕ) (f : State → Hart → State)
    (hf : ∀ x y, (f x y).rom = x.rom ∧ (f x y).pending = x.pending ∧ (f x y).dram = x.dram) :
    (s.vendorDo h sb ub vb f).rom = s.rom ∧ (s.vendorDo h sb ub vb f).pending = s.pending ∧ (s.vendorDo h sb ub vb f).dram = s.dram := by
  unfold State.vendorDo
  (repeat' split) <;> simp [hf]
@[simp] theorem State.hartRet_dram (s : State) (h : ℕ) (rd : ℕ) (v : ℕ) :
    (State.hartRet s h rd v).dram = s.dram := by
  unfold State.hartRet
  simp
@[simp] theorem State.beatRead_dram (s : State) (hart : HartId) (rd : XReg) :
    (State.beatRead s hart rd).dram = s.dram := by
  unfold State.beatRead
  simp
@[simp] theorem State.beatSend_dram (s : State) :
    (State.beatSend s).dram = s.dram := by
  unfold State.beatSend
  simp
@[simp] theorem State.beatWait_still (s : State) (hart : HartId) (rd rs1 : XReg) :
    (s.beatWait hart rd rs1).rom = s.rom ∧ (s.beatWait hart rd rs1).pending = s.pending
      ∧ (s.beatWait hart rd rs1).dram = s.dram := by
  unfold State.beatWait
  refine State.vendorDo_still s _ _ _ _ _ fun x y => ?_
  dsimp only
  split
  · simp
  · split
    · simp
    · split <;> simp
@[simp] theorem State.setHd_dram (s : State) (k : ℕ) (v : Hdma) :
    (State.setHd s k v).dram = s.dram := by
  unfold State.setHd
  simp
@[simp] theorem State.fnStop_dram (s : State) (fn : ℕ) (code : ℕ) :
    (State.fnStop s fn code).dram = s.dram := by
  unfold State.fnStop
  simp
@[simp] theorem State.bmeClear_dram (s : State) (fn : ℕ) (d3hot : Bool) :
    (State.bmeClear s fn d3hot).dram = s.dram := by
  unfold State.bmeClear
  simp
theorem State.rePrepare_stays (s : State) : s.Still s.rePrepare := by
  unfold State.rePrepare
  refine .foldl (fun u t => ?_) _ s
  split
  · simp [State.still_iff]
  · split <;> simp [State.still_iff]

@[simp] theorem State.rePrepare_still (s : State) :
    s.rePrepare.rom = s.rom ∧ s.rePrepare.pending = s.pending ∧ s.rePrepare.dram = s.dram :=
  State.still_iff.1 s.rePrepare_stays
@[simp] theorem State.releaseHarts_still (s : State) (img : Bytes) :
    (State.releaseHarts s img).rom = s.rom ∧ (State.releaseHarts s img).pending = s.pending ∧ (State.releaseHarts s img).dram = s.dram := by
  refine State.still_iff.1 ?_
  unfold State.releaseHarts
  (repeat' split) <;> simp [State.still_iff]
@[simp] theorem State.bootImage_still (s : State) (current : Bool) (previous : Bool) :
    (State.bootImage s current previous).rom = s.rom ∧ (State.bootImage s current previous).pending = s.pending ∧ (State.bootImage s current previous).dram = s.dram := by
  refine State.still_iff.1 ?_
  unfold State.bootImage
  (repeat' split) <;> simp [State.still_iff]
@[simp] theorem State.burClear_dram (s : State) (n : ℕ) (e : ℕ) :
    (State.burClear s n e).dram = s.dram := by
  unfold State.burClear
  simp
@[simp] theorem State.tagDone_dram (s : State) (n : ℕ) (id : ℕ) (code : Code) (dg : Option (ℕ × D64)) :
    (State.tagDone s n id code dg).dram = s.dram := by
  unfold State.tagDone
  simp only [dram_ite, fst_ite]
  (repeat' split) <;> simp
@[simp] theorem State.burEnd_dram (s : State) (n : ℕ) (e : ℕ) (r : BurRun) (tag : ℕ) (code : Code) (count : ℕ) (unused : ℕ) (keyOut : ℕ) (step : ℕ) (cycles : ℕ) :
    (State.burEnd s n e r tag code count unused keyOut step cycles).dram = s.dram := by
  unfold State.burEnd
  simp
@[simp] theorem State.keyRefused_dram (s : State) (n : ℕ) (unit : ℕ) (k : ℕ) (reason : ℕ) :
    (State.keyRefused s n unit k reason).dram = s.dram := by
  unfold State.keyRefused
  simp only [dram_ite, fst_ite]
  (repeat' split) <;> simp
@[simp] theorem State.countUse_dram (s : State) (n : ℕ) (k : ℕ) (pol : ℕ) :
    (State.countUse s n k pol).dram = s.dram := by
  unfold State.countUse
  simp
@[simp] theorem State.burStart_dram (s : State) (n : ℕ) (e : ℕ) (codes : List ℕ) :
    (State.burStart s n e codes).dram = s.dram := by
  unfold State.burStart
  simp only [dram_ite, fst_ite]
  (repeat' split) <;> simp
@[simp] theorem State.extend_dram (s : State) (n : ℕ) (h : ℕ) (eng : ℕ) (d : D64) (tile : ℕ) (isHm : Bool) :
    (State.extend s n h eng d tile isHm).1.dram = s.dram := by
  unfold State.extend
  (repeat' split) <;> simp
@[simp] theorem State.burLink_dram (s : State) (n : ℕ) (e : ℕ) (r : BurRun) (a : BurAns) (inp : Bytes) :
    (State.burLink s n e r a inp).1.dram = s.dram := by
  unfold State.burLink
  simp only [dram_ite, fst_ite]
  (repeat' split) <;> simp
@[simp] theorem State.incField_dram (s : State) (a : ℕ) (hi : ℕ) (lo : ℕ) :
    (State.incField s a hi lo).dram = s.dram := by
  unfold State.incField
  simp
@[simp] theorem State.hmFail_dram (s : State) (n : ℕ) (h : ℕ) (unit : ℕ) (code : Code) (tile : ℕ) :
    (State.hmFail s n h unit code tile).dram = s.dram := by
  unfold State.hmFail
  simp
@[simp] theorem State.installTrans_dram (s : State) (n : ℕ) (r : BurRun) (mat : Bytes) :
    (State.installTrans s n r mat).1.dram = s.dram := by
  unfold State.installTrans
  simp
theorem State.burFinish_stays (s : State) (n e tag : ℕ) (r : BurRun) (b c : Bool) : s.Still (s.burFinish n e tag r b c) := by
  unfold State.burFinish
  generalize s.burEval n r b c = p
  obtain ⟨a, tile⟩ := p
  dsimp only
  generalize (if a.code = 0 && !s.canLink n r then s.linkCode n (bHandle r.op.desc) else a.code) = code
  have h1 : s.Still (s.drew.lpmu n 17 ((opCycles r.op.opc).getD 64)) := State.still_iff.2 (by simp)
  generalize s.drew.lpmu n 17 ((opCycles r.op.opc).getD 64) = s1 at h1 ⊢
  have h2 : s1.Still (if 0x1201 ≤ code.toNat ∧ code.toNat ≤ 0x1204 then s1.hmFail n (bHandle r.op.desc) 1 code (tile.getD endTile)
    else s1) := .ite _ (State.still_iff.2 (by simp)) (.refl s1)
  generalize (if 0x1201 ≤ code.toNat ∧ code.toNat ≤ 0x1204 then s1.hmFail n (bHandle r.op.desc) 1 code (tile.getD endTile)
    else s1) = s2 at h2 ⊢
  have h3 : s2.Still (if code = 0x1111 then s2.gMsg 5 n (bHandle r.op.desc) 0x1111 r.op.opc else s2) :=
    .ite _ (State.still_iff.2 (by simp)) (.refl s2)
  generalize (if code = 0x1111 then s2.gMsg 5 n (bHandle r.op.desc) 0x1111 r.op.opc else s2) = s3 at h3 ⊢
  refine ((h1.trans h2).trans h3).trans (.ite _ (State.still_iff.2 (by simp)) ?_)
  have h4 : s3.Still (if isDukpt r.op.opc then s3.installTrans n r a.out else (s3, 0)).1 := by
    split
    · exact State.still_iff.2 (by simp)
    · exact .refl s3
  generalize (if isDukpt r.op.opc then s3.installTrans n r a.out else (s3, 0)) = p at h4 ⊢
  obtain ⟨s4, k⟩ := p
  dsimp only at h4 ⊢
  generalize ((s4.lane n).burWrite r.op.desc _) = p
  obtain ⟨l, unused⟩ := p
  dsimp only
  have h5 : s4.Still ((s4.setLane n l).burLink n e r a ((s.lane n).bInput r.op.desc)).1 := State.still_iff.2 (by simp)
  generalize (s4.setLane n l).burLink n e r a ((s.lane n).bInput r.op.desc) = p at h5 ⊢
  obtain ⟨s5, step⟩ := p
  exact (h4.trans h5).trans (State.still_iff.2 (by simp))

@[simp] theorem State.burFinish_still (s : State) (n e tag : ℕ) (r : BurRun) (b c : Bool) :
    (s.burFinish n e tag r b c).rom = s.rom ∧ (s.burFinish n e tag r b c).pending = s.pending
      ∧ (s.burFinish n e tag r b c).dram = s.dram :=
  State.still_iff.1 (s.burFinish_stays n e tag r b c)
@[simp] theorem State.burComplete_dram (s : State) (n : ℕ) (e : ℕ) (attemptsOk : Bool) (selfOk : Bool) :
    (State.burComplete s n e attemptsOk selfOk).dram = s.dram := by
  unfold State.burComplete
  (repeat' split) <;> simp
@[simp] theorem State.dmFail_dram (s : State) :
    (State.dmFail s).dram = s.dram := by
  unfold State.dmFail
  simp
theorem State.busRead_stays (s : State) (a n : ℕ) : s.Still (s.busRead a n) := by
  unfold State.busRead
  split
  · simp [State.still_iff]
  · split
    · split <;> simp [State.still_iff]
    · have h : s.Still (s.ioRead 275 a n false).1 := State.still_iff.2 (by simp)
      generalize s.ioRead 275 a n false = q at h ⊢
      obtain ⟨t, b⟩ := q
      cases b <;> exact h.trans (State.still_iff.2 (by simp))

@[simp] theorem State.busRead_still (s : State) (a n : ℕ) :
    (s.busRead a n).rom = s.rom ∧ (s.busRead a n).pending = s.pending ∧ (s.busRead a n).dram = s.dram :=
  State.still_iff.1 (s.busRead_stays a n)
@[simp] theorem State.cacheCerts_dram (s : State) (x : Session) :
    (State.cacheCerts s x).dram = s.dram := by
  unfold State.cacheCerts
  simp
@[simp] theorem State.cardErr_dram (s : State) (fn : ℕ) (code : ℕ) :
    (State.cardErr s fn code).dram = s.dram := by
  unfold State.cardErr
  simp
@[simp] theorem State.reown_dram (s : State) (k : ℕ) :
    (State.reown s k).dram = s.dram := by
  unfold State.reown
  simp
@[simp] theorem State.hdRetire_still (s : State) (k : ℕ) (d : HDesc) (code : ℕ) (moved : ℕ) :
    (State.hdRetire s k d code moved).rom = s.rom ∧ (State.hdRetire s k d code moved).pending = s.pending ∧ (State.hdRetire s k d code moved).dram = s.dram := by
  refine State.still_iff.1 ?_
  unfold State.hdRetire
  (repeat' split) <;> simp [State.still_iff]
theorem State.cardLinkDown_stays (s : State) : s.Still s.cardLinkDown := by
  have hr : ∀ (u : State) a b c d, u.Still (u.hdRetire a b c d) := fun u a b c d => State.still_iff.2 (by simp)
  have hs : ∀ (u : State) a b, u.Still (u.setHd a b) := fun u a b => State.still_iff.2 (by simp)
  have hp : ∀ (u : State) p, u.Still { u with pcie := p } := fun u p => ⟨rfl, rfl, rfl⟩
  have ha : ∀ (u : State) a, u.Still (u.agentReset a) := fun u a => State.still_iff.2 (by simp)
  unfold State.cardLinkDown
  refine ((hp _ _).trans (.foldl (fun u k => .trans ?_ (hs _ _ _)) _ _)).trans (ha _ _)
  cases (u.hd k).cur with
  | none => exact .refl u
  | some d => exact hr _ _ _ _ _

@[simp] theorem State.cardLinkDown_still (s : State) :
    s.cardLinkDown.rom = s.rom ∧ s.cardLinkDown.pending = s.pending ∧ s.cardLinkDown.dram = s.dram :=
  State.still_iff.1 s.cardLinkDown_stays
@[simp] theorem State.cboDone_dram (s : State) (h : ℕ) :
    (State.cboDone s h).dram = s.dram := by
  unfold State.cboDone
  simp
@[simp] theorem State.cboAct_dram (s : State) (h : ℕ) (op : ℕ) (l : ℕ) :
    (State.cboAct s h op l).dram = s.dram := by
  unfold State.cboAct
  simp
theorem State.cbo_stays (s : State) (h rs1 op : ℕ) (x : Hart) : s.Still (s.cbo h rs1 op x) := by
  unfold State.cbo
  obtain ⟨L, hL⟩ : ∃ f, f = State.cboLine := ⟨_, rfl⟩
  obtain ⟨T, hT⟩ : ∃ f, f = Hart.cboTrap := ⟨_, rfl⟩
  rw [← hL, ← hT]
  cases (if op = 2 then T x 5 4 else T x 6 6) with
  | some c => exact State.still_iff.2 (by simp)
  | none =>
    dsimp only
    cases L s h (x.rd rs1).toNat false with
    | bad c t g => exact State.still_iff.2 (by simp)
    | ok ps => exact .ite _ (State.still_iff.2 (by simp)) (State.still_iff.2 (by simp))

@[simp] theorem State.cbo_still (s : State) (h rs1 op : ℕ) (x : Hart) :
    (s.cbo h rs1 op x).rom = s.rom ∧ (s.cbo h rs1 op x).pending = s.pending ∧ (s.cbo h rs1 op x).dram = s.dram :=
  State.still_iff.1 (s.cbo_stays h rs1 op x)
@[simp] theorem State.snoopOwn_dram (s : State) (l : ℕ) (keep : Option ℕ) :
    (State.snoopOwn s l keep).dram = s.dram := by
  unfold State.snoopOwn
  simp
theorem State.cboZero_stays (s : State) (h rs1 : ℕ) (x : Hart) : s.Still (s.cboZero h rs1 x) := by
  unfold State.cboZero
  obtain ⟨L, hL⟩ : ∃ f, f = State.cboLine := ⟨_, rfl⟩
  obtain ⟨T, hT⟩ : ∃ f, f = Hart.cboTrap := ⟨_, rfl⟩
  rw [← hL, ← hT]
  cases T x 7 7 with
  | some c => exact State.still_iff.2 (by simp)
  | none =>
    dsimp only
    cases L s h _ true with
    | bad c t g => exact State.still_iff.2 (by simp)
    | ok ps => exact State.still_iff.2 (by simp)

@[simp] theorem State.cboZero_still (s : State) (h rs1 : ℕ) (x : Hart) :
    (s.cboZero h rs1 x).rom = s.rom ∧ (s.cboZero h rs1 x).pending = s.pending ∧ (s.cboZero h rs1 x).dram = s.dram :=
  State.still_iff.1 (s.cboZero_stays h rs1 x)
@[simp] theorem State.modCel_dram (s : State) (f : Cel → Cel) :
    (State.modCel s f).dram = s.dram := by
  unfold State.modCel
  simp
theorem State.celLoad_stays (s : State) (a n : ℕ) : s.Still (s.celLoad a n).1 := by
  unfold State.celLoad
  split
  case h_4 pa _ =>
    split
    · exact .refl s
    · have h : s.Still (s.ioRead 272 pa n false).1 := State.still_iff.2 (by simp)
      generalize s.ioRead 272 pa n false = q at h ⊢
      obtain ⟨t, b⟩ := q
      cases b with
      | ok b => exact h
      | _ => exact .refl s
  all_goals simp [State.still_iff]

@[simp] theorem State.celLoad_still (s : State) (a n : ℕ) :
    (s.celLoad a n).1.rom = s.rom ∧ (s.celLoad a n).1.pending = s.pending ∧ (s.celLoad a n).1.dram = s.dram :=
  State.still_iff.1 (s.celLoad_stays a n)
theorem State.celTake_still {s : State} {n : ℕ} {t : State} (h : s.celTake n = some t) :
    t.rom = s.rom ∧ t.pending = s.pending ∧ t.dram = s.dram := by
  unfold State.celTake at h
  dsimp only at h
  repeat' split at h
  all_goals cases h
  all_goals simp
@[simp] theorem State.flrStart_dram (s : State) (fn : ℕ) :
    (State.flrStart s fn).dram = s.dram := by
  unfold State.flrStart
  simp
/-- One round of HDMA requests: nothing that stays still is touched where the rest of the rounds touches nothing. -/
theorem State.hdIssue_round (k : ℕ) (d : HDesc) (f : ℕ) (below : Nat.below (motive := fun _ => State → State) (f + 1)) (s : State)
    (h : ∀ u : State, u.Still (below.1 u)) : s.Still (State.hdIssue._f k d (f + 1) below s) := by
  obtain ⟨H, hH⟩ : ∃ g, g = State.hdHost := ⟨_, rfl⟩
  obtain ⟨T, hT⟩ : ∃ g, g = State.freeTag := ⟨_, rfl⟩
  obtain ⟨g, hg⟩ : ∃ g, g = State.hdIssue._f := ⟨_, rfl⟩
  rw [← hg]
  delta State.hdIssue._f at hg
  rw [← hH, ← hT] at hg
  rw [hg]
  refine .ite _ (.refl s) ?_
  dsimp only
  cases H s k d _ with
  | none => exact State.still_iff.2 (by simp)
  | some x =>
    refine .ite _ (.trans (State.still_iff.2 (by simp)) (h _)) ?_
    cases T s 16 with
    | none => exact .refl s
    | some t => exact .trans (State.still_iff.2 (by simp)) (h _)

theorem State.hdIssue_stays (k : ℕ) (d : HDesc) : ∀ (f : ℕ) (s : State), s.Still (State.hdIssue k d f s)
  | 0, s => .refl s
  | f + 1, s => by
    have ih := State.hdIssue_stays k d f
    obtain ⟨g, hg⟩ : ∃ g, g = State.hdIssue := ⟨_, rfl⟩
    rw [← hg] at ih ⊢
    delta State.hdIssue at hg
    have hr := State.hdIssue_round k d f
    obtain ⟨F, hF⟩ : ∃ g, g = State.hdIssue._f := ⟨_, rfl⟩
    rw [← hF] at hg hr
    rw [hg] at ih ⊢
    exact hr _ s ih

@[simp] theorem State.hdIssue_still (k : ℕ) (d : HDesc) (f : ℕ) (s : State) :
    (State.hdIssue k d f s).rom = s.rom ∧ (State.hdIssue k d f s).pending = s.pending ∧ (State.hdIssue k d f s).dram = s.dram :=
  State.still_iff.1 (State.hdIssue_stays k d f s)
@[simp] theorem State.hdGo_still (s : State) (k : ℕ) :
    (State.hdGo s k).rom = s.rom ∧ (State.hdGo s k).pending = s.pending ∧ (State.hdGo s k).dram = s.dram := by
  refine State.still_iff.1 ?_
  unfold State.hdGo
  (repeat' split) <;> simp [State.still_iff]
@[simp] theorem State.cfgWrite_still (s : State) (fn : ℕ) (off : ℕ) (v : W32) :
    (State.cfgWrite s fn off v).rom = s.rom ∧ (State.cfgWrite s fn off v).pending = s.pending ∧ (State.cfgWrite s fn off v).dram = s.dram := by
  refine State.still_iff.1 ?_
  unfold State.cfgWrite
  (repeat' split) <;> simp [State.still_iff]
@[simp] theorem State.channelFail_still (s : State) (c : ℕ) :
    (State.channelFail s c).rom = s.rom ∧ (State.channelFail s c).pending = s.pending ∧ (State.channelFail s c).dram = s.dram := by
  unfold State.channelFail
  simp
@[simp] theorem State.clearShelves_still (s : State) (n : ℕ) :
    (State.clearShelves s n).rom = s.rom ∧ (State.clearShelves s n).pending = s.pending ∧ (State.clearShelves s n).dram = s.dram := by
  refine State.still_iff.1 ?_
  unfold State.clearShelves
  (repeat' split) <;> simp [State.still_iff]
@[simp] theorem State.closeAlert_dram (s : State) (i : ℕ) (code : ℕ) (desc : ℕ) :
    (State.closeAlert s i code desc).dram = s.dram := by
  unfold State.closeAlert
  simp
@[simp] theorem State.closeFin_dram (s : State) (i : ℕ) (code : ℕ) :
    (State.closeFin s i code).dram = s.dram := by
  unfold State.closeFin
  simp
@[simp] theorem State.complete_dram (s : State) (rid : ℕ) (write : Bool) (r : IoAns) (ep : Bool) :
    (State.complete s rid write r ep).dram = s.dram := by
  unfold State.complete
  (repeat' split) <;> simp
@[simp] theorem State.snapShelf_dram (s : State) (n : ℕ) :
    (State.snapShelf s n).dram = s.dram := by
  unfold State.snapShelf
  simp
@[simp] theorem State.configApply_dram (s : State) (n : ℕ) :
    (State.configApply s n).dram = s.dram := by
  unfold State.configApply
  simp
@[simp] theorem State.counter_dram (s : State) (h : ℕ) (i : ℕ) :
    (State.counter s h i).1.dram = s.dram := by
  unfold State.counter
  (repeat' split) <;> simp
@[simp] theorem State.vcRead_dram (s : State) (h : ℕ) (i : ℕ) :
    (State.vcRead s h i).1.dram = s.dram := by
  unfold State.vcRead
  simp
@[simp] theorem State.csrGet_dram (s : State) (h : ℕ) (m : ℕ) :
    (State.csrGet s h m).1.dram = s.dram := by
  unfold State.csrGet
  (repeat' split) <;> simp
@[simp] theorem State.iregPut_dram (s : State) (h : ℕ) (key : ℕ) (lvl : ℕ) (sel : ℕ) (v : ℕ) :
    (State.iregPut s h key lvl sel v).dram = s.dram := by
  unfold State.iregPut
  simp
@[simp] theorem State.csrPut_dram (s : State) (h : ℕ) (m : ℕ) (v : ℕ) :
    (State.csrPut s h m v).dram = s.dram := by
  unfold State.csrPut
  simp only [dram_ite, fst_ite]
  (repeat' split) <;> simp
@[simp] theorem State.csrInsn_dram (s : State) (h : ℕ) (i : ℕ) (x : Hart) :
    (State.csrInsn s h i x).dram = s.dram := by
  unfold State.csrInsn
  simp only [dram_ite, fst_ite]
  (repeat' split) <;> simp
@[simp] theorem State.modCtl_dram (s : State) (num : ℕ) (dev : ℕ) (f : CtlChange → CtlChange) :
    (State.modCtl s num dev f).dram = s.dram := by
  unfold State.modCtl
  simp
@[simp] theorem State.ctlSend_dram (s : State) (m : CtlMsg) :
    (State.ctlSend s m).dram = s.dram := by
  unfold State.ctlSend
  simp
@[simp] theorem State.pairFault_still (s : State) (code : ℕ) (tell : Bool) :
    (State.pairFault s code tell).rom = s.rom ∧ (State.pairFault s code tell).pending = s.pending ∧ (State.pairFault s code tell).dram = s.dram := by
  refine State.still_iff.1 ?_
  unfold State.pairFault
  (repeat' split) <;> simp [State.still_iff]
@[simp] theorem State.ctlRx_still (s : State) (m : CtlMsg) (tokensOk : State → CtlMsg → Bool) :
    (s.ctlRx m tokensOk).rom = s.rom ∧ (s.ctlRx m tokensOk).pending = s.pending ∧ (s.ctlRx m tokensOk).dram = s.dram := by
  unfold State.ctlRx
  split <;> (repeat' split) <;> simp
@[simp] theorem State.discard_dram (s : State) (h : ℕ) :
    (State.discard s h).dram = s.dram := by
  unfold State.discard
  simp
@[simp] theorem State.discardAcks_dram (s : State) (n : ℕ) :
    (State.discardAcks s n).dram = s.dram := by
  unfold State.discardAcks
  simp
@[simp] theorem State.diverge_dram (s : State) (k : ℕ) :
    (State.diverge s k).dram = s.dram := by
  unfold State.diverge
  simp
@[simp] theorem State.dmDeny_dram (s : State) :
    (State.dmDeny s).dram = s.dram := by
  unfold State.dmDeny
  simp
@[simp] theorem State.snoopRead_dram (s : State) (l : ℕ) (keep : Option ℕ) :
    (State.snoopRead s l keep).dram = s.dram := by
  unfold State.snoopRead
  simp
@[simp] theorem State.obtain_dram (s : State) (h : ℕ) (l : ℕ) (i : Bool) (own : Bool) (mru : Bool) :
    (State.obtain s h l i own mru).dram = s.dram := by
  unfold State.obtain
  simp
@[simp] theorem State.dmFetch_dram (s : State) (h : ℕ) (i : ℕ) :
    (State.dmFetch s h i).dram = s.dram := by
  unfold State.dmFetch
  simp only [dram_ite, fst_ite]
  (repeat' split) <;> simp
@[simp] theorem State.dmHalt_dram (s : State) (h : ℕ) :
    (State.dmHalt s h).dram = s.dram := by
  unfold State.dmHalt
  simp only [dram_ite, fst_ite]
  (repeat' split) <;> simp
@[simp] theorem State.dmHalts_dram (s : State) (hs : List ℕ) :
    (State.dmHalts s hs).dram = s.dram := by
  unfold State.dmHalts
  simp
@[simp] theorem State.storeAt_still (s : State) (h : ℕ) (ps : List (ℕ × ℕ)) (b : Bytes) :
    (State.storeAt s h ps b).rom = s.rom ∧ (State.storeAt s h ps b).pending = s.pending ∧ (State.storeAt s h ps b).dram = s.dram := by
  unfold State.storeAt
  simp
theorem State.dmRead_still {s : State} {h r v : ℕ} {t : State} (e : s.dmRead h r = some (t, v)) :
    t.rom = s.rom ∧ t.pending = s.pending ∧ t.dram = s.dram := by
  unfold State.dmRead at e
  dsimp only at e
  repeat' split at e
  all_goals cases e
  all_goals simp
@[simp] theorem State.dmResumes_dram (s : State) (hs : List ℕ) :
    (State.dmResumes s hs).dram = s.dram := by
  unfold State.dmResumes
  simp
@[simp] theorem State.illegal_dram (s : State) (h : ℕ) :
    (State.illegal s h).dram = s.dram := by
  unfold State.illegal
  simp
@[simp] theorem State.miscMem_still (s : State) (h : ℕ) (i : ℕ) (x : Hart) :
    (State.miscMem s h i x).rom = s.rom ∧ (State.miscMem s h i x).pending = s.pending ∧ (State.miscMem s h i x).dram = s.dram := by
  refine State.still_iff.1 ?_
  unfold State.miscMem
  (repeat' split) <;> simp [State.still_iff]
@[simp] theorem State.hmStep_still (s : State) (hart : HartId) (rd rs1 : XReg) :
    (s.hmStep hart rd rs1).rom = s.rom ∧ (s.hmStep hart rd rs1).pending = s.pending
      ∧ (s.hmStep hart rd rs1).dram = s.dram := by
  unfold State.hmStep
  refine State.vendorDo_still _ _ _ _ _ _ fun x y => State.still_iff.1 ?_
  obtain ⟨L, hL⟩ : ∃ f, f = State.vendorRange := ⟨_, rfl⟩
  obtain ⟨K, hK⟩ : ∃ f, f = State.hmKey := ⟨_, rfl⟩
  rw [← hL, ← hK]
  dsimp only
  refine .ite _ (State.still_iff.2 (by simp)) ?_
  cases L (x.hcount hart 51) hart 1 _ 40 7 with
  | bad c t g => exact State.still_iff.2 (by simp)
  | ok ps =>
    refine .ite _ (State.still_iff.2 (by simp)) (.ite _ (State.still_iff.2 (by simp)) ?_)
    cases L (x.hcount hart 51) hart 1 _ _ 7 with
    | bad c t g => exact State.still_iff.2 (by simp)
    | ok ps =>
      cases L (x.hcount hart 51) hart 2 _ 16 7 with
      | bad c t g => exact State.still_iff.2 (by simp)
      | ok ws =>
        refine .ite _ (State.still_iff.2 (by simp)) ?_
        cases K (x.hcount hart 51) _ with
        | none => exact State.still_iff.2 (by simp)
        | some k => exact State.still_iff.2 (by simp)
@[simp] theorem State.tileCheck_still (s : State) (hart : HartId) (rd rs1 : XReg) :
    (s.tileCheck hart rd rs1).rom = s.rom ∧ (s.tileCheck hart rd rs1).pending = s.pending
      ∧ (s.tileCheck hart rd rs1).dram = s.dram := by
  unfold State.tileCheck
  refine State.vendorDo_still _ _ _ _ _ _ fun x y => State.still_iff.1 ?_
  obtain ⟨L, hL⟩ : ∃ f, f = State.xlRange := ⟨_, rfl⟩
  rw [← hL]
  dsimp only
  refine .ite _ (State.still_iff.2 (by simp)) ?_
  cases L (x.hcount hart 51) hart 1 _ 256 with
  | bad c t g => exact State.still_iff.2 (by simp)
  | ok ps => exact .ite _ (State.still_iff.2 (by simp)) (State.still_iff.2 (by simp))
@[simp] theorem State.hmCheck_still (s : State) (hart : HartId) (rd : XReg) (rs1 : XReg) (rs2 : XReg) :
    (State.hmCheck s hart rd rs1 rs2).rom = s.rom ∧ (State.hmCheck s hart rd rs1 rs2).pending = s.pending ∧ (State.hmCheck s hart rd rs1 rs2).dram = s.dram := by
  unfold State.hmCheck
  refine State.vendorDo_still _ _ _ _ _ _ fun x y => ?_
  refine State.still_iff.1 ?_
  dsimp only
  (repeat' split) <;> simp [State.still_iff]
@[simp] theorem State.jrnAppend_still (s : State) (hart : HartId) (rd rs1 : XReg) :
    (s.jrnAppend hart rd rs1).rom = s.rom ∧ (s.jrnAppend hart rd rs1).pending = s.pending
      ∧ (s.jrnAppend hart rd rs1).dram = s.dram := by
  unfold State.jrnAppend
  refine State.vendorDo_still _ _ _ _ _ _ fun x y => State.still_iff.1 ?_
  obtain ⟨L, hL⟩ : ∃ f, f = State.xlRange := ⟨_, rfl⟩
  rw [← hL]
  dsimp only
  cases L (x.hcount hart 49) hart 1 _ 64 with
  | bad c t g => exact State.still_iff.2 (by simp)
  | ok ps =>
    refine .ite _ (State.still_iff.2 (by simp)) (.ite _ (State.still_iff.2 (by simp)) ?_)
    cases L (x.hcount hart 49) hart 1 _ _ with
    | bad c t g => exact State.still_iff.2 (by simp)
    | ok ps =>
      exact .ite _ (State.still_iff.2 (by simp)) (.ite _ (State.still_iff.2 (by simp)) (.ite _ (State.still_iff.2 (by simp))
        (.ite _ (State.still_iff.2 (by simp)) (State.still_iff.2 (by simp)))))
@[simp] theorem State.vendorInsn_still (s : State) (n : HartId) (i : ℕ) :
    (State.vendorInsn s n i).rom = s.rom ∧ (State.vendorInsn s n i).pending = s.pending ∧ (State.vendorInsn s n i).dram = s.dram := by
  refine State.still_iff.1 ?_
  unfold State.vendorInsn
  (repeat' split) <;> simp [State.still_iff]
@[simp] theorem State.prefetchHint_dram (s : State) (h : ℕ) (i : ℕ) (x : Hart) :
    (State.prefetchHint s h i x).dram = s.dram := by
  unfold State.prefetchHint
  simp only [dram_ite, fst_ite]
  (repeat' split) <;> simp
@[simp] theorem State.fpInsn_dram (s : State) (h : ℕ) (i : ℕ) (x : Hart) :
    (State.fpInsn s h i x).dram = s.dram := by
  unfold State.fpInsn
  simp only [dram_ite, fst_ite]
  (repeat' split) <;> simp
@[simp] theorem State.virtIll_dram (s : State) (h : ℕ) (x : Hart) :
    (State.virtIll s h x).dram = s.dram := by
  unfold State.virtIll
  simp
@[simp] theorem State.tlbFence_dram (s : State) (h : ℕ) (x : Hart) (guest : Bool) (gvma : Bool) :
    (State.tlbFence s h x guest gvma).dram = s.dram := by
  unfold State.tlbFence
  simp
@[simp] theorem State.ebreak_dram (s : State) (h : ℕ) (x : Hart) :
    (State.ebreak s h x).dram = s.dram := by
  unfold State.ebreak
  simp
@[simp] theorem State.sysInsn_dram (s : State) (h : ℕ) (i : ℕ) (x : Hart) :
    (State.sysInsn s h i x).dram = s.dram := by
  unfold State.sysInsn
  (repeat' split) <;> simp
@[simp] theorem State.vecInsn_dram (s : State) (h : ℕ) (i : ℕ) (x : Hart) :
    (State.vecInsn s h i x).dram = s.dram := by
  unfold State.vecInsn
  simp
theorem State.dmWrite_still {s : State} {h r : ℕ} {v : D64} {t : State} (e : s.dmWrite h r v = some t) :
    t.rom = s.rom ∧ t.pending = s.pending ∧ t.dram = s.dram := by
  unfold State.dmWrite at e
  dsimp only at e
  repeat' split at e
  all_goals cases e
  all_goals simp
@[simp] theorem State.dmcEvent_dram (s : State) (c : ℕ) (k : ℕ) :
    (State.dmcEvent s c k).dram = s.dram := by
  unfold State.dmcEvent
  simp
@[simp] theorem State.dmcCorrected_still (s : State) (c : ℕ) (k : ℕ) (dev : ℕ) (syms : ℕ) (requester : ℕ) (flags : ℕ) :
    (State.dmcCorrected s c k dev syms requester flags).rom = s.rom ∧ (State.dmcCorrected s c k dev syms requester flags).pending = s.pending ∧ (State.dmcCorrected s c k dev syms requester flags).dram = s.dram := by
  unfold State.dmcCorrected
  simp
@[simp] theorem State.dmcDataErr_still (s : State) (c : ℕ) (k : ℕ) (code : ℕ) (requester : ℕ) (flags : ℕ) :
    (State.dmcDataErr s c k code requester flags).rom = s.rom ∧ (State.dmcDataErr s c k code requester flags).pending = s.pending ∧ (State.dmcDataErr s c k code requester flags).dram = s.dram := by
  unfold State.dmcDataErr
  simp
@[simp] theorem State.dmcHist_dram (s : State) (c : ℕ) (sel : ℕ) :
    (State.dmcHist s c sel).dram = s.dram := by
  unfold State.dmcHist
  simp
@[simp] theorem State.dmcIssue_dram (s : State) (c : ℕ) (w : WEntry) :
    (State.dmcIssue s c w).dram = s.dram := by
  unfold State.dmcIssue
  simp
@[simp] theorem State.hwDisposition_dram (s : State) (n : ℕ) (h : ℕ) (type : ℕ) (code : ℕ) :
    (State.hwDisposition s n h type code).dram = s.dram := by
  unfold State.hwDisposition
  (repeat' split) <;> simp
@[simp] theorem State.leavePhase_dram (s : State) (n : ℕ) (t : ℕ) :
    (State.leavePhase s n t).dram = s.dram := by
  unfold State.leavePhase
  (repeat' split) <;> simp
@[simp] theorem State.doubleFault_dram (s : State) (n : ℕ) (t : ℕ) :
    (State.doubleFault s n t).dram = s.dram := by
  unfold State.doubleFault
  simp only [dram_ite, fst_ite]
  (repeat' split) <;> simp
@[simp] theorem State.drainErr_still (s : State) (k : ℕ) (base : ℕ) (area : ℕ) (pos : ℕ) (err : SlotErr) :
    (State.drainErr s k base area pos err).rom = s.rom ∧ (State.drainErr s k base area pos err).pending = s.pending ∧ (State.drainErr s k base area pos err).dram = s.dram := by
  refine State.still_iff.1 ?_
  unfold State.drainErr
  (repeat' split) <;> simp [State.still_iff]
@[simp] theorem State.drainWrite_still (s : State) (base : ℕ) (area : ℕ) (pos : ℕ) (b : Bytes) :
    (State.drainWrite s base area pos b).rom = s.rom ∧ (State.drainWrite s base area pos b).pending = s.pending ∧ (State.drainWrite s base area pos b).dram = s.dram := by
  refine State.still_iff.1 ?_
  unfold State.drainWrite
  (repeat' split) <;> simp [State.still_iff]
@[simp] theorem State.drainYield_still (s : State) (k : ℕ) (xs : List Rec) :
    (State.drainYield s k xs).rom = s.rom ∧ (State.drainYield s k xs).pending = s.pending ∧ (State.drainYield s k xs).dram = s.dram := by
  refine State.still_iff.1 ?_
  unfold State.drainYield
  (repeat' split) <;> simp [State.still_iff]
@[simp] theorem State.dropRoot_dram (s : State) :
    (State.dropRoot s).dram = s.dram := by
  unfold State.dropRoot
  simp
@[simp] theorem State.skeidAck_dram (s : State) (n : ℕ) (cmd : ℕ) (code : ℕ) (res : List ℕ) :
    (State.skeidAck s n cmd code res).dram = s.dram := by
  unfold State.skeidAck
  simp
@[simp] theorem State.skeid_kept (s : State) (n cmd : ℕ) (kind : Option ℕ) (argOk : Bool) (lanes len : ℕ) (f : State → Ans)
    (hf : ∀ x, (f x).st.rom = x.rom ∧ (f x).st.pending = x.pending ∧ (Memory.wf x.dram = true → Memory.wf (f x).st.dram = true)) :
    (s.skeid n cmd kind argOk lanes len f).Kept s := by
  unfold State.skeid
  split
  · simp
  next t ht =>
    have h : t.rom = s.rom ∧ t.pending = s.pending ∧ t.dram = s.dram := by
      split at ht
      · cases ht
      · exact State.celTake_still ht
    have hf := hf t
    rw [h.1, h.2.1, h.2.2] at hf
    dsimp only
    split
    · simp [h]
    · split
      · simp
      · (repeat' split) <;> simp [h, hf]
        exact hf.2.2
@[simp] theorem State.dual_kept (s : State) (n cmd : ℕ) (kind : Option ℕ) (argOk : Bool) (len : ℕ) (f : State → Ans)
    (hf : ∀ x, (f x).st.rom = x.rom ∧ (f x).st.pending = x.pending ∧ (Memory.wf x.dram = true → Memory.wf (f x).st.dram = true)) :
    (s.dual n cmd kind argOk len f).Kept s := by
  unfold State.dual
  refine State.skeid_kept _ _ _ _ _ _ _ _ fun x => ?_
  split
  · simp
  · exact hf x
@[simp] theorem State.sliceCount_dram (s : State) (b : ℕ) (i : ℕ) :
    (State.sliceCount s b i).dram = s.dram := by
  unfold State.sliceCount
  simp
@[simp] theorem State.filterRoom_dram (s : State) (l : ℕ) :
    (State.filterRoom s l).dram = s.dram := by
  unfold State.filterRoom
  simp
@[simp] theorem State.hdDiscard_still (k : ℕ) : ∀ (f : ℕ) (s : State),
    (State.hdDiscard k f s).rom = s.rom ∧ (State.hdDiscard k f s).pending = s.pending ∧ (State.hdDiscard k f s).dram = s.dram
  | 0, s => by simp [State.hdDiscard]
  | f + 1, s => by
    unfold State.hdDiscard
    dsimp only
    split
    · simp
    · simp [State.hdDiscard_still k f]
theorem State.flrEnd_stays (s : State) (fn : ℕ) : s.Still (s.flrEnd fn) := by
  have hr : ∀ (u : State) a b c d, u.Still (u.hdRetire a b c d) := fun u a b c d => State.still_iff.2 (by simp)
  have hd : ∀ (u : State) a b, u.Still (State.hdDiscard a b u) := fun u a b => State.still_iff.2 (by simp)
  have hp : ∀ (u : State) p, u.Still { u with pcie := p } := fun u p => ⟨rfl, rfl, rfl⟩
  have hn : ∀ (u : State) a b, u.Still (u.setPfn a b) := fun u a b => State.still_iff.2 (by simp)
  unfold State.flrEnd
  refine ((State.Still.foldl (fun u k => .ite _ (.trans ?_ (hd _ _ _)) (.refl u)) _ _).trans (hn _ _ _)).trans (hp _ _)
  dsimp only
  split
  · exact (hp _ _).trans (hr _ _ _ _ _)
  · exact hp _ _

@[simp] theorem State.flrEnd_still (s : State) (fn : ℕ) :
    (s.flrEnd fn).rom = s.rom ∧ (s.flrEnd fn).pending = s.pending ∧ (s.flrEnd fn).dram = s.dram :=
  State.still_iff.1 (s.flrEnd_stays fn)
@[simp] theorem State.flushNotify_dram (s : State) (n : ℕ) :
    (State.flushNotify s n).dram = s.dram := by
  unfold State.flushNotify
  simp
@[simp] theorem State.modSess_dram (s : State) (i : ℕ) (f : Session → Session) :
    (State.modSess s i f).dram = s.dram := by
  unfold State.modSess
  simp
@[simp] theorem State.netData_dram (s : State) (i : ℕ) (b : Bytes) :
    (State.netData s i b).dram = s.dram := by
  unfold State.netData
  simp
@[simp] theorem State.frameAct_dram (s : State) (q : ℕ) (k : FrameKind) :
    (State.frameAct s q k).dram = s.dram := by
  unfold State.frameAct
  (repeat' split) <;> simp
@[simp] theorem State.frameRx_kept (s : State) (f : LinkFrame) (ty : ℕ) (g : State → State)
    (hf : ∀ x, (g x).rom = x.rom ∧ (g x).pending = x.pending ∧ (Memory.wf x.dram = true → Memory.wf (g x).dram = true)) :
    (s.frameRx f ty g).Kept s := by
  unfold State.frameRx
  dsimp only
  (repeat' split) <;> simp_all
@[simp] theorem State.garDamage_still (s : State) (err : SlotErr) :
    (State.garDamage s err).rom = s.rom ∧ (State.garDamage s err).pending = s.pending ∧ (State.garDamage s err).dram = s.dram := by
  unfold State.garDamage
  simp only [rom_ite, pending_ite, dram_ite, fst_ite, Res.kept_ite]
  (repeat' split) <;> simp
@[simp] theorem State.giveLane_dram (s : State) (k : ℕ) :
    (State.giveLane s k).dram = s.dram := by
  unfold State.giveLane
  simp
@[simp] theorem State.granted_still (s : State) :
    (State.granted s).rom = s.rom ∧ (State.granted s).pending = s.pending ∧ (State.granted s).dram = s.dram := by
  refine State.still_iff.1 ?_
  unfold State.granted
  (repeat' split) <;> simp [State.still_iff]
@[simp] theorem State.handoverSwitch_dram (s : State) :
    (State.handoverSwitch s).dram = s.dram := by
  unfold State.handoverSwitch
  (repeat' split) <;> simp
@[simp] theorem State.hartIssueOn_kept (s : State) (h : ℕ) (acc : Hart → List (ℕ × ℕ × ℕ)) (f : State → Hart → State)
    (hf : ∀ x y, (f x y).rom = x.rom ∧ (f x y).pending = x.pending ∧ (Memory.wf x.dram = true → Memory.wf (f x y).dram = true)) :
    (s.hartIssueOn h acc f).Kept s := by
  unfold State.hartIssueOn
  dsimp only
  (repeat' split) <;> simp_all
@[simp] theorem State.hartIssue_kept (s : State) (h : ℕ) (f : State → Hart → State)
    (hf : ∀ x y, (f x y).rom = x.rom ∧ (f x y).pending = x.pending ∧ (Memory.wf x.dram = true → Memory.wf (f x y).dram = true)) :
    (s.hartIssue h f).Kept s := by
  unfold State.hartIssue
  (repeat' split) <;> simp_all
@[simp] theorem State.hartLoadEnd_dram (s : State) (n : ℕ) (b : Bytes) :
    (State.hartLoadEnd s n b).dram = s.dram := by
  unfold State.hartLoadEnd
  simp only [dram_ite, fst_ite]
  (repeat' split) <;> simp
@[simp] theorem State.histEntry_dram (s : State) (n : ℕ) (m : Msg) :
    (State.histEntry s n m).dram = s.dram := by
  unfold State.histEntry
  simp
@[simp] theorem State.pwrEvent_dram (s : State) (e : ℕ) :
    (State.pwrEvent s e).dram = s.dram := by
  unfold State.pwrEvent
  simp
@[simp] theorem State.hsFail_dram (s : State) (i : ℕ) (code : ℕ) (desc : ℕ) :
    (State.hsFail s i code desc).dram = s.dram := by
  unfold State.hsFail
  simp
@[simp] theorem State.hsPump_still : ∀ (l : List (ℕ × ReserveReq)) (s : State),
    (State.hsPump l s).rom = s.rom ∧ (State.hsPump l s).pending = s.pending ∧ (State.hsPump l s).dram = s.dram
  | [], s => by simp [State.hsPump]
  | q :: r, s => by
    unfold State.hsPump
    split
    · simp [State.hsPump_still r]
    · simp [State.hsPump_still r]
@[simp] theorem State.hwUpdate_dram (s : State) (a : ℕ) (u : HwUpdate) (wrote : Bool) :
    (State.hwUpdate s a u wrote).dram = s.dram := by
  unfold State.hwUpdate
  (repeat' split) <;> simp
@[simp] theorem State.inboundErr_dram (s : State) (port : ℕ) (r : PcieReq) (ans : IoAns) :
    (State.inboundErr s port r ans).dram = s.dram := by
  unfold State.inboundErr
  (repeat' split) <;> simp
@[simp] theorem State.ioEnd_dram (s : State) (ag : ℕ) (a : ℕ) (store : Bool) (r : IoAns) :
    (State.ioEnd s ag a store r).dram = s.dram := by
  unfold State.ioEnd
  (repeat' split) <;> simp
@[simp] theorem State.iomFault_still (s : State) (cause : ℕ) (ttyp : ℕ) (did : ℕ) (iotval : ℕ) (iotval2 : ℕ) :
    (State.iomFault s cause ttyp did iotval iotval2).rom = s.rom ∧ (State.iomFault s cause ttyp did iotval iotval2).pending = s.pending ∧ (State.iomFault s cause ttyp did iotval iotval2).dram = s.dram := by
  refine State.still_iff.1 ?_
  unfold State.iomFault
  (repeat' split) <;> simp [State.still_iff]
@[simp] theorem State.iommu_still (s : State) (did : ℕ) (aty : ℕ) (va : ℕ) (write : Bool) :
    (State.iommu s did aty va write).1.rom = s.rom ∧ (State.iommu s did aty va write).1.pending = s.pending ∧ (State.iommu s did aty va write).1.dram = s.dram := by
  refine State.still_iff.1 ?_
  unfold State.iommu
  dsimp only
  (repeat' split) <;> simp [State.still_iff]
@[simp] theorem State.issue_kept (s : State) (n t : ℕ) (x : XOp) (f : State → Thread → State)
    (hf : ∀ x y, (f x y).rom = x.rom ∧ (f x y).pending = x.pending ∧ (Memory.wf x.dram = true → Memory.wf (f x y).dram = true)) :
    (s.issue n t x f).Kept s := by
  unfold State.issue
  (repeat' split) <;> simp_all
@[simp] theorem State.issueAny_kept (s : State) (n t : ℕ) (f : State → Thread → State)
    (hf : ∀ x y, (f x y).rom = x.rom ∧ (f x y).pending = x.pending ∧ (Memory.wf x.dram = true → Memory.wf (f x y).dram = true)) :
    (s.issueAny n t f).Kept s := by
  unfold State.issueAny
  (repeat' split) <;> simp_all
@[simp] theorem State.issueTicket_dram (s : State) (i : ℕ) :
    (State.issueTicket s i).dram = s.dram := by
  unfold State.issueTicket
  simp only [dram_ite, fst_ite]
  (repeat' split) <;> simp
@[simp] theorem State.l3LineError_still (s : State) (l : ℕ) (ag : ℕ) :
    (State.l3LineError s l ag).1.rom = s.rom ∧ (State.l3LineError s l ag).1.pending = s.pending ∧ (State.l3LineError s l ag).1.dram = s.dram := by
  unfold State.l3LineError
  (repeat' split) <;> simp
@[simp] theorem State.l3Read_dram (s : State) (ag : ℕ) (l : ℕ) (hart : Bool) (alloc : Bool) (mru : Bool) :
    (State.l3Read s ag l hart alloc mru).1.dram = s.dram := by
  unfold State.l3Read
  simp only [dram_ite, fst_ite]
  (repeat' split) <;> simp
@[simp] theorem State.laneMove_dram (s : State) (n : ℕ) :
    (State.laneMove s n).dram = s.dram := by
  unfold State.laneMove
  simp only [dram_ite, fst_ite]
  (repeat' split) <;> simp
@[simp] theorem State.laneBoundary_dram (s : State) (n : ℕ) :
    (State.laneBoundary s n).dram = s.dram := by
  unfold State.laneBoundary
  simp
@[simp] theorem State.laneWrite_kept (s : State) (a : Agent) (n o k : ℕ) (f : State → State)
    (hf : ∀ x, (f x).rom = x.rom ∧ (f x).pending = x.pending ∧ (Memory.wf x.dram = true → Memory.wf (f x).dram = true)) :
    (s.laneWrite a n o k f).Kept s := by
  unfold State.laneWrite
  (repeat' split) <;> simp_all
@[simp] theorem State.lateDecision_dram (s : State) (n : ℕ) (x : Hallmark) :
    (State.lateDecision s n x).dram = s.dram := by
  unfold State.lateDecision
  simp
@[simp] theorem State.listLine_still (s : State) (c : ℕ) (k : ℕ) (reason : ℕ) (code : ℕ) (flags : ℕ) (dev : ℕ) :
    (State.listLine s c k reason code flags dev).rom = s.rom ∧ (State.listLine s c k reason code flags dev).pending = s.pending ∧ (State.listLine s c k reason code flags dev).dram = s.dram := by
  unfold State.listLine
  simp only [rom_ite, pending_ite, dram_ite, fst_ite, Res.kept_ite]
  (repeat' split) <;> simp
@[simp] theorem State.liveEvt_kept (s : State) (i : ℕ) (f : State → State)
    (hf : ∀ x, (f x).rom = x.rom ∧ (f x).pending = x.pending ∧ (Memory.wf x.dram = true → Memory.wf (f x).dram = true)) :
    (s.liveEvt i f).Kept s := by
  unfold State.liveEvt
  (repeat' split) <;> simp_all
@[simp] theorem State.mbxAccess_kept (s : State) (a : Agent) (n o : ℕ) (st : Bool) (f : State → State)
    (hf : ∀ x, (f x).rom = x.rom ∧ (f x).pending = x.pending ∧ (Memory.wf x.dram = true → Memory.wf (f x).dram = true)) :
    (s.mbxAccess a n o st f).Kept s := by
  unfold State.mbxAccess
  (repeat' split) <;> simp_all
@[simp] theorem State.offer_dram (s : State) (n : ℕ) (h : ℕ) (dst : ℕ) (m : Msg) :
    (State.offer s n h dst m).dram = s.dram := by
  unfold State.offer
  simp
@[simp] theorem State.openTicket_still (s : State) (n : ℕ) (argc : ℕ) (buf : Option Bytes) (target : ℕ) (it : Item) (units : Option ℕ) :
    (State.openTicket s n argc buf target it units).st.rom = s.rom ∧ (State.openTicket s n argc buf target it units).st.pending = s.pending ∧ (State.openTicket s n argc buf target it units).st.dram = s.dram := by
  unfold State.openTicket
  simp only [rom_ite, pending_ite, dram_ite, fst_ite, Res.kept_ite]
  (repeat' split) <;> simp
@[simp] theorem State.overrun_dram (s : State) (n : ℕ) (t : ℕ) (p : Phase) (tail : Bool) :
    (State.overrun s n t p tail).dram = s.dram := by
  unfold State.overrun
  simp
@[simp] theorem State.pairAck_dram (s : State) :
    (State.pairAck s).dram = s.dram := by
  unfold State.pairAck
  (repeat' split) <;> simp
@[simp] theorem State.pairFormed_still (s : State) :
    (State.pairFormed s).rom = s.rom ∧ (State.pairFormed s).pending = s.pending ∧ (State.pairFormed s).dram = s.dram := by
  refine State.still_iff.1 ?_
  unfold State.pairFormed
  (repeat' split) <;> simp [State.still_iff]
@[simp] theorem State.pairingEnded_dram (s : State) :
    (State.pairingEnded s).dram = s.dram := by
  unfold State.pairingEnded
  simp
@[simp] theorem State.payOwed_dram (s : State) (c : ℕ) (rank : ℕ) :
    (State.payOwed s c rank).dram = s.dram := by
  unfold State.payOwed
  simp
@[simp] theorem State.shelfNotify_dram (s : State) (n : ℕ) (k : ℕ) (cnt : ℕ) :
    (State.shelfNotify s n k cnt).dram = s.dram := by
  unfold State.shelfNotify
  simp
@[simp] theorem State.retT_dram (s : State) (n : ℕ) (t : ℕ) (rd : ℕ) (v : ℕ) :
    (State.retT s n t rd v).dram = s.dram := by
  unfold State.retT
  simp
@[simp] theorem State.post_still (s : State) (n : ℕ) (t : ℕ) (rd : ℕ) (k : ℕ) (h : ℕ) (m : Msg) :
    (State.post s n t rd k h m).rom = s.rom ∧ (State.post s n t rd k h m).pending = s.pending ∧ (State.post s n t rd k h m).dram = s.dram := by
  refine State.still_iff.1 ?_
  unfold State.post
  (repeat' split) <;> simp [State.still_iff]
@[simp] theorem State.ppr_dram (s : State) :
    (State.ppr s).dram = s.dram := by
  unfold State.ppr
  simp
@[simp] theorem State.ptpState_dram (s : State) (st : ℕ) :
    (State.ptpState s st).dram = s.dram := by
  unfold State.ptpState
  simp
@[simp] theorem State.rePresent_dram (s : State) (gone : List Rec) :
    (State.rePresent s gone).dram = s.dram := by
  unfold State.rePresent
  simp
@[simp] theorem State.readTo_dram (s : State) (ag : ℕ) (a : ℕ) (ev : ℕ) :
    (State.readTo s ag a ev).dram = s.dram := by
  unfold State.readTo
  simp
@[simp] theorem State.refuseConn_dram (s : State) (port : ℕ) (li : ℕ) :
    (State.refuseConn s port li).dram = s.dram := by
  unfold State.refuseConn
  simp
@[simp] theorem State.refuseWaiting_dram (s : State) (p : PortRec) :
    (State.refuseWaiting s p).dram = s.dram := by
  unfold State.refuseWaiting
  simp only [dram_ite, fst_ite]
  (repeat' split) <;> simp
@[simp] theorem State.renew_dram (s : State) :
    (State.renew s).dram = s.dram := by
  unfold State.renew
  simp
@[simp] theorem State.takeoverStop_dram (s : State) :
    (State.takeoverStop s).dram = s.dram := by
  unfold State.takeoverStop
  simp
@[simp] theorem State.xferFail_dram (s : State) (r : RhaxReq) (code : ℕ) :
    (State.xferFail s r code).dram = s.dram := by
  unfold State.xferFail
  simp
@[simp] theorem State.reqFailed_still (s : State) (r : RhaxReq) (code : ℕ) :
    (State.reqFailed s r code).rom = s.rom ∧ (State.reqFailed s r code).pending = s.pending ∧ (State.reqFailed s r code).dram = s.dram := by
  refine State.still_iff.1 ?_
  unfold State.reqFailed
  (repeat' split) <;> simp [State.still_iff]
@[simp] theorem State.respond_dram (s : State) (ag : ℕ) (l : ℕ) (b : Bytes) (err : Bool) :
    (State.respond s ag l b err).dram = s.dram := by
  unfold State.respond
  simp
@[simp] theorem State.resyncActive_still (s : State) (k : ℕ) (peer : PeerRing) (lost : List (ℕ × Bytes)) (yields : List Rec) :
    (State.resyncActive s k peer lost yields).rom = s.rom ∧ (State.resyncActive s k peer lost yields).pending = s.pending ∧ (State.resyncActive s k peer lost yields).dram = s.dram := by
  unfold State.resyncActive
  simp only [rom_ite, pending_ite, dram_ite, fst_ite, Res.kept_ite]
  (repeat' split) <;> simp
@[simp] theorem State.rhaxAnswer_dram (s : State) (h : RhaxHdr) (type : ℕ) (code : ℕ) (body : optParam RhaxBody RhaxBody.none) :
    (State.rhaxAnswer s h type code body).dram = s.dram := by
  unfold State.rhaxAnswer
  simp
@[simp] theorem State.rhaxRefused_dram (s : State) (src : ℕ) (type : ℕ) (code : ℕ) :
    (State.rhaxRefused s src type code).dram = s.dram := by
  unfold State.rhaxRefused
  simp only [dram_ite, fst_ite]
  (repeat' split) <;> simp
@[simp] theorem State.rhaxReply_still (s : State) (h : RhaxHdr) (types : List ℕ) (f : State → RhaxReq → State)
    (hf : ∀ x y, (f x y).rom = x.rom ∧ (f x y).pending = x.pending ∧ (f x y).dram = x.dram) :
    (s.rhaxReply h types f).rom = s.rom ∧ (s.rhaxReply h types f).pending = s.pending ∧ (s.rhaxReply h types f).dram = s.dram := by
  unfold State.rhaxReply
  (repeat' split) <;> simp [hf]
@[simp] theorem State.rhaxRx_kept (s : State) (h : RhaxHdr) (type : ℕ) (exempt : Bool) (f : State → State)
    (hf : ∀ x, (f x).rom = x.rom ∧ (f x).pending = x.pending ∧ (Memory.wf x.dram = true → Memory.wf (f x).dram = true)) :
    (s.rhaxRx h type exempt f).Kept s := by
  unfold State.rhaxRx
  (repeat' split) <;> simp_all
@[simp] theorem State.scrubNext_dram (s : State) (c : ℕ) :
    (State.scrubNext s c).dram = s.dram := by
  unfold State.scrubNext
  simp
@[simp] theorem State.setPlink_dram (s : State) (k : ℕ) (l : PLink) :
    (State.setPlink s k l).dram = s.dram := by
  unfold State.setPlink
  simp
@[simp] theorem State.setWLease_dram (s : State) (l : WitLease) :
    (State.setWLease s l).dram = s.dram := by
  unfold State.setWLease
  simp
@[simp] theorem State.setup_kept (s : State) (n kind : ℕ) (range : Bool) (check : State → ℕ × Item × Option ℕ) :
    (s.setup n kind range check).Kept s := by
  unfold State.setup
  refine State.skeid_kept _ _ _ _ _ _ _ _ fun x => ?_
  split
  · simp
  · generalize check x = c
    obtain ⟨r, it, u⟩ := c
    dsimp only
    (repeat' split) <;> simp
@[simp] theorem State.shed_dram (s : State) (n : ℕ) (c : Cand) :
    (State.shed s n c).dram = s.dram := by
  unfold State.shed
  simp
@[simp] theorem State.sliceErrs_still (s : State) (req : L3Req) :
    (State.sliceErrs s req).rom = s.rom ∧ (State.sliceErrs s req).pending = s.pending ∧ (State.sliceErrs s req).dram = s.dram := by
  unfold State.sliceErrs
  (repeat' split) <;> simp
@[simp] theorem State.stageTicket_still (s : State) (n : ℕ) (t : Ticket) (peerOk : Bool) :
    (State.stageTicket s n t peerOk).st.rom = s.rom ∧ (State.stageTicket s n t peerOk).st.pending = s.pending ∧ (State.stageTicket s n t peerOk).st.dram = s.dram := by
  unfold State.stageTicket
  simp only [rom_ite, pending_ite, dram_ite, fst_ite, Res.kept_ite]
  (repeat' split) <;> simp
@[simp] theorem State.stnFinish_dram (s : State) (n : ℕ) (r : StnRun) (code : ℕ) (e : SErr) (kind : ℕ) (inB : ℕ) (outB : ℕ) (unused : ℕ) (cycles : ℕ) :
    (State.stnFinish s n r code e kind inB outB unused cycles).dram = s.dram := by
  unfold State.stnFinish
  simp
@[simp] theorem State.stnOutput_dram (s : State) (n : ℕ) (r : StnRun) (c : StnCtx) (chain : List ℕ) (inB : ℕ) (w : ℕ) (resume : Bool) (e : SErr) :
    (State.stnOutput s n r c chain inB w resume e).dram = s.dram := by
  unfold State.stnOutput
  simp only [dram_ite, fst_ite]
  (repeat' split) <;> simp
@[simp] theorem State.stnResume_dram (s : State) (n : ℕ) (r : StnRun) :
    (State.stnResume s n r).dram = s.dram := by
  unfold State.stnResume
  simp only [dram_ite, fst_ite]
  (repeat' split) <;> simp
@[simp] theorem State.stnRunFirst_dram (s : State) (n : ℕ) (r : StnRun) :
    (State.stnRunFirst s n r).dram = s.dram := by
  unfold State.stnRunFirst
  simp only [dram_ite, fst_ite]
  (repeat' split) <;> simp
@[simp] theorem State.stnStart_dram (s : State) (n : ℕ) (op : ℕ) :
    (State.stnStart s n op).dram = s.dram := by
  unfold State.stnStart
  simp only [dram_ite, fst_ite]
  (repeat' split) <;> simp
@[simp] theorem State.trap_dram (s : State) (n : ℕ) (t : ℕ) (cause : W32) (tval : W32) :
    (State.trap s n t cause tval).dram = s.dram := by
  unfold State.trap
  simp
@[simp] theorem State.styCsrInsn_dram (s : State) (n : ℕ) (t : ℕ) (th : Thread) (i : ℕ) (k : ℕ) :
    (State.styCsrInsn s n t th i k).dram = s.dram := by
  unfold State.styCsrInsn
  simp only [dram_ite, fst_ite]
  (repeat' split) <;> simp
@[simp] theorem State.styWrite_still (s : State) (n : ℕ) (th : Thread) (p : ℕ × ℕ) (b : Bytes) :
    (State.styWrite s n th p b).rom = s.rom ∧ (State.styWrite s n th p b).pending = s.pending ∧ (State.styWrite s n th p b).dram = s.dram := by
  refine State.still_iff.1 ?_
  unfold State.styWrite
  (repeat' split) <;> simp [State.still_iff]
theorem State.styStore_stays (s : State) (n t : ℕ) (th : Thread) (i a z k : ℕ) : s.Still (s.styStore n t th i a z k) := by
  have hw : ∀ (u : State) a b c d, u.Still (u.styWrite a b c d) := fun u a b c d => State.still_iff.2 (by simp)
  have hm : ∀ (u : State) a b c, u.Still (u.modThr a b c) := fun u a b c => State.still_iff.2 (by simp)
  have ht : ∀ (u : State) a b c d, u.Still (u.trap a b c d) := fun u a b c d => State.still_iff.2 (by simp)
  obtain ⟨f, hf⟩ : ∃ f, f = State.styStore := ⟨_, rfl⟩
  obtain ⟨F, hF⟩ : ∃ f, f = State.styFault := ⟨_, rfl⟩
  rw [← hf]
  delta State.styStore at hf
  rw [← hF] at hf
  rw [hf]
  dsimp only
  cases F s n th a z true with
  | some f => exact ht _ _ _ _ _
  | none =>
    refine .trans ?_ (hm _ _ _ _)
    refine State.Still.foldl_fst (fun r p => ?_) (styParts a z) (s, 0)
    exact hw _ _ _ _ _

@[simp] theorem State.styStore_still (s : State) (n t : ℕ) (th : Thread) (i a z k : ℕ) :
    (s.styStore n t th i a z k).rom = s.rom ∧ (s.styStore n t th i a z k).pending = s.pending
      ∧ (s.styStore n t th i a z k).dram = s.dram :=
  State.still_iff.1 (s.styStore_stays n t th i a z k)
theorem State.regRead_stays (s : State) (g a e : ℕ) : s.Still (s.regRead g a e).1 :=
  ⟨(s.regRead_fixed _ _ _).1, (s.regRead_fixed _ _ _).2, s.regRead_dram _ _ _⟩

theorem State.styRead_stays (s : State) (n : ℕ) (th : Thread) (p : ℕ × ℕ) : s.Still (s.styRead n th p).1 := by
  have hr := s.regRead_stays
  unfold State.styRead
  obtain ⟨R, hR⟩ : ∃ f, f = State.regRead := ⟨_, rfl⟩
  obtain ⟨S, hS⟩ : ∃ f, f = Lane.spot := ⟨_, rfl⟩
  rw [← hR] at hr
  rw [← hR, ← hS]
  cases S (s.lane n) th p.1 p.2 false with
  | reg o => exact hr _ _ _
  | tile o => exact .refl s
  | dram pa => exact .refl s
  | bad => exact .refl s

@[simp] theorem State.styRead_still (s : State) (n : ℕ) (th : Thread) (p : ℕ × ℕ) :
    (s.styRead n th p).1.rom = s.rom ∧ (s.styRead n th p).1.pending = s.pending ∧ (s.styRead n th p).1.dram = s.dram :=
  State.still_iff.1 (s.styRead_stays n th p)
theorem State.styReadAll_stays (s : State) (n : ℕ) (th : Thread) (ps : List (ℕ × ℕ)) : s.Still (s.styReadAll n th ps).1 := by
  have hr := State.styRead_stays
  unfold State.styReadAll
  obtain ⟨R, hR⟩ : ∃ f, f = State.styRead := ⟨_, rfl⟩
  rw [← hR] at hr ⊢
  refine State.Still.foldl_fst (fun r p => ?_) ps (s, [])
  exact hr _ _ _ _

@[simp] theorem State.styReadAll_still (s : State) (n : ℕ) (th : Thread) (ps : List (ℕ × ℕ)) :
    (s.styReadAll n th ps).1.rom = s.rom ∧ (s.styReadAll n th ps).1.pending = s.pending
      ∧ (s.styReadAll n th ps).1.dram = s.dram :=
  State.still_iff.1 (s.styReadAll_stays n th ps)
theorem State.styLoad_stays (s : State) (n t : ℕ) (th : Thread) (i a z k : ℕ) : s.Still (s.styLoad n t th i a z k) := by
  have hr := s.styReadAll_stays n th
  have hm : ∀ (u : State) a b c, u.Still (u.modThr a b c) := fun u a b c => State.still_iff.2 (by simp)
  have ht : ∀ (u : State) a b c d, u.Still (u.trap a b c d) := fun u a b c d => State.still_iff.2 (by simp)
  obtain ⟨f, hf⟩ : ∃ f, f = State.styLoad := ⟨_, rfl⟩
  obtain ⟨F, hF⟩ : ∃ f, f = State.styFault := ⟨_, rfl⟩
  obtain ⟨R, hR⟩ : ∃ f, f = State.styReadAll := ⟨_, rfl⟩
  rw [← hf]
  delta State.styLoad at hf
  rw [← hF, ← hR] at hf
  rw [← hR] at hr
  rw [hf]
  dsimp only
  cases F s n th a z false with
  | some f => exact ht _ _ _ _ _
  | none => exact (hr _).trans (.ite _ (hm _ _ _ _) (hm _ _ _ _))

@[simp] theorem State.styLoad_still (s : State) (n t : ℕ) (th : Thread) (i a z k : ℕ) :
    (s.styLoad n t th i a z k).rom = s.rom ∧ (s.styLoad n t th i a z k).pending = s.pending
      ∧ (s.styLoad n t th i a z k).dram = s.dram :=
  State.still_iff.1 (s.styLoad_stays n t th i a z k)
@[simp] theorem State.styInsn_still (s : State) (n : ℕ) (t : ℕ) (th : Thread) (i : ℕ) (k : ℕ) :
    (State.styInsn s n t th i k).rom = s.rom ∧ (State.styInsn s n t th i k).pending = s.pending ∧ (State.styInsn s n t th i k).dram = s.dram := by
  refine State.still_iff.1 ?_
  unfold State.styInsn
  dsimp only
  (repeat' split) <;> simp [State.still_iff]
theorem State.issueAny_keeps (s : State) (n t : ℕ) (f : State → Thread → State) (hf : ∀ (x : State) y, x.Still (f x y)) :
    (s.issueAny n t f).Kept s :=
  State.issueAny_kept s n t f fun x y => ⟨(hf x y).rom, (hf x y).pending, fun hw => (hf x y).dram ▸ hw⟩

@[simp] theorem State.styStep_kept (s : State) (n t : ℕ) (p : Thread → ℕ → Bool) (any : Bool) : (s.styStep n t p any).Kept s := by
  have ht : ∀ (u : State) a b c d, u.Still (u.trap a b c d) := fun u a b c d => State.still_iff.2 (by simp)
  have hi : ∀ (u : State) a b c d e, u.Still (u.styInsn a b c d e) := fun u a b c d e => State.still_iff.2 (by simp)
  obtain ⟨f, hf⟩ : ∃ f, f = State.styStep := ⟨_, rfl⟩
  obtain ⟨F, hF⟩ : ∃ f, f = Lane.fetch := ⟨_, rfl⟩
  obtain ⟨W, hW⟩ : ∃ f, f = fullWord := ⟨_, rfl⟩
  rw [← hf]
  delta State.styStep at hf
  rw [← hF, ← hW] at hf
  rw [hf]
  dsimp only
  cases F (s.lane n) (s.thr n t) with
  | none =>
    refine (Res.kept_ite _ _ _ _).2 ?_
    split
    · exact s.issueAny_keeps n t _ fun x y => ht x _ _ _ _
    · exact (State.Sound.refl s).next
  | some f =>
    dsimp only
    cases W false f with
    | none =>
      refine (Res.kept_ite _ _ _ _).2 ?_
      split
      · exact s.issueAny_keeps n t _ fun x y => ht x _ _ _ _
      · exact (State.Sound.refl s).next
    | some i =>
      refine (Res.kept_ite _ _ _ _).2 ?_
      split
      · exact s.issueAny_keeps n t _ fun x y => hi x _ _ _ _ _
      · exact (State.Sound.refl s).next
@[simp] theorem State.takeHomes_dram (s : State) (mask : ℕ) :
    (State.takeHomes s mask).dram = s.dram := by
  unfold State.takeHomes
  simp
@[simp] theorem State.takeLane_still (s : State) (k : ℕ) (prev : ℕ) :
    (State.takeLane s k prev).rom = s.rom ∧ (State.takeLane s k prev).pending = s.pending ∧ (State.takeLane s k prev).dram = s.dram := by
  refine State.still_iff.1 ?_
  unfold State.takeLane
  (repeat' split) <;> simp [State.still_iff]
@[simp] theorem State.takeoverSwitch_still (s : State) :
    (State.takeoverSwitch s).rom = s.rom ∧ (State.takeoverSwitch s).pending = s.pending ∧ (State.takeoverSwitch s).dram = s.dram := by
  refine State.still_iff.1 ?_
  unfold State.takeoverSwitch
  (repeat' split) <;> simp [State.still_iff]
@[simp] theorem State.timeoutFire_dram (s : State) (n : ℕ) (h : ℕ) (m : Msg) :
    (State.timeoutFire s n h m).dram = s.dram := by
  unfold State.timeoutFire
  simp
@[simp] theorem State.trainFail_dram (s : State) (code : Bool) :
    (State.trainFail s code).dram = s.dram := by
  unfold State.trainFail
  simp
@[simp] theorem State.trainStart_dram (s : State) :
    (State.trainStart s).dram = s.dram := by
  unfold State.trainStart
  simp
@[simp] theorem State.twinRings_still (s : State) :
    (State.twinRings s).rom = s.rom ∧ (State.twinRings s).pending = s.pending ∧ (State.twinRings s).dram = s.dram := by
  unfold State.twinRings
  simp
@[simp] theorem State.vfMsix_dram (s : State) (fn : ℕ) (off : ℕ) (r : BusOp) :
    (State.vfMsix s fn off r).1.dram = s.dram := by
  unfold State.vfMsix
  (repeat' split) <;> simp
@[simp] theorem State.witnessMove_still (s : State) :
    (State.witnessMove s).rom = s.rom ∧ (State.witnessMove s).pending = s.pending ∧ (State.witnessMove s).dram = s.dram := by
  unfold State.witnessMove
  (repeat' split) <;> simp
@[simp] theorem State.xferMint_dram (s : State) (h : RhaxHdr) (x : XferIn) (n : ℕ) (cls : ℕ) (sess : ℕ) :
    (State.xferMint s h x n cls sess).dram = s.dram := by
  unfold State.xferMint
  simp only [dram_ite, fst_ite]
  (repeat' split) <;> simp
@[simp] theorem execDimmTemperatureRead_kept (c : ChanId) (temps : List ℕ) (s : State) :
    (execDimmTemperatureRead c temps s).Kept s := by
  unfold execDimmTemperatureRead
  simp
@[simp] theorem execHmDerive_kept (n : LaneId) (t : ThreadId) (rd rs1 rs2 : XReg) (s : State) :
    (execHmDerive n t rd rs1 rs2 s).Kept s := by
  unfold execHmDerive
  refine State.issue_kept _ _ _ _ _ fun x y => ?_
  have h : ∀ z : State, x.Still z → z.rom = x.rom ∧ z.pending = x.pending ∧ (Memory.wf x.dram = true → Memory.wf z.dram = true) :=
    fun z hz => ⟨hz.rom, hz.pending, fun hw => hz.dram ▸ hw⟩
  refine h _ ?_
  dsimp only
  cases (x.lane n).digestTag t (y.rd rs2).toNat with
  | none => exact State.still_iff.2 (by simp)
  | some g =>
    dsimp only
    cases g.digest with
    | none => exact State.still_iff.2 (by simp)
    | some p =>
      obtain ⟨i, d⟩ := p
      refine .ite _ (State.still_iff.2 (by simp)) ?_
      have he : x.Still ((x.lpmu n 22 48).extend n (y.rd rs1).toNat (0x200 + n) d i false).1 := State.still_iff.2 (by simp)
      obtain ⟨q, hq⟩ : ∃ q, q = (x.lpmu n 22 48).extend n (y.rd rs1).toNat (0x200 + n) d i false := ⟨_, rfl⟩
      rw [← hq] at he ⊢
      obtain ⟨u, o⟩ := q
      cases o with
      | none => exact he.trans (State.still_iff.2 (by simp))
      | some st => exact he.trans (State.still_iff.2 (by simp))
@[simp] theorem execVerifyTokenMlDsa65_kept (n : LaneId) (e : EngId) (s : State) :
    (execVerifyTokenMlDsa65 n e s).Kept s := by
  unfold execVerifyTokenMlDsa65
  simp
@[simp] theorem execManifestReceive_kept (m : Manifest) (s : State) :
    (execManifestReceive m s).Kept s := by
  unfold execManifestReceive
  (repeat' split) <;> simp
@[simp] theorem execLingerTimeout_kept (i : SessId) (s : State) :
    (execLingerTimeout i s).Kept s := by
  unfold execLingerTimeout
  simp
@[simp] theorem execMlDsa65Sign_kept (n : LaneId) (e : EngId) (s : State) :
    (execMlDsa65Sign n e s).Kept s := by
  unfold execMlDsa65Sign
  simp
@[simp] theorem execCboClean_kept (hart : HartId) (rs1 : XReg) (s : State) :
    (execCboClean hart rs1 s).Kept s := by
  unfold execCboClean
  refine State.hartIssue_kept _ _ _ fun x y => ?_
  (repeat' split) <;> simp
@[simp] theorem execI3cAccess_kept (reg : ℕ) (w : Option W32) (s : State) :
    (execI3cAccess reg w s).Kept s := by
  unfold execI3cAccess
  (repeat' split) <;> simp
@[simp] theorem execBurGo_kept (n : LaneId) (t : ThreadId) (rd rs1 : XReg) (s : State) :
    (execBurGo n t rd rs1 s).Kept s := by
  unfold execBurGo
  refine State.issue_kept _ _ _ _ _ fun x y => ?_
  have h : ∀ z : State, x.Still z → z.rom = x.rom ∧ z.pending = x.pending ∧ (Memory.wf x.dram = true → Memory.wf z.dram = true) :=
    fun z hz => ⟨hz.rom, hz.pending, fun hw => hz.dram ▸ hw⟩
  have hl : ∀ (u : State) a b c, u.Still (u.lpmu a b c) := fun u a b c => State.still_iff.2 (by simp)
  have hs : ∀ (u : State) a b, u.Still (u.setLane a b) := fun u a b => State.still_iff.2 (by simp)
  have hr : ∀ (u : State) a b c d, u.Still (u.retT a b c d) := fun u a b c d => State.still_iff.2 (by simp)
  exact h _ (.ite _ (State.still_iff.2 (by simp)) (.ite _ (((hl _ _ _ _).trans (hs _ _ _)).trans (hr _ _ _ _ _))
    (((hl _ _ _ _).trans (.ite _ (hl _ _ _ _) (.refl _))).trans ((hs _ _ _).trans (hr _ _ _ _ _)))))
@[simp] theorem execGarretFreeze_kept (n : MbxId) (s : State) :
    (execGarretFreeze n s).Kept s := by
  unfold execGarretFreeze
  refine State.skeid_kept _ _ _ _ _ _ _ _ fun x => ?_
  (repeat' split) <;> simp
@[simp] theorem execMessageMint_kept (i : SessId) (cls : Fin 32) (s : State) :
    (execMessageMint i cls s).Kept s := by
  unfold execMessageMint
  simp only [rom_ite, pending_ite, dram_ite, fst_ite, Res.kept_ite]
  (repeat' split) <;> simp
@[simp] theorem execTlsRecordReceive_kept (i : SessId) (authOk : Bool) (plain : Bytes) (keyUpdate : Option Bool) (s : State) :
    (execTlsRecordReceive i authOk plain keyUpdate s).Kept s := by
  unfold execTlsRecordReceive
  (repeat' split) <;> simp
@[simp] theorem execPortLinkChange_kept (q : PortId) (up : Bool) (fec : Bool) (s : State) :
    (execPortLinkChange q up fec s).Kept s := by
  unfold execPortLinkChange
  simp
@[simp] theorem execReserveRequest_kept (n : LaneId) (req : ReserveReq) (s : State) :
    (execReserveRequest n req s).Kept s := by
  unfold execReserveRequest
  simp
@[simp] theorem execTagQuarantineExpiry_kept (tag : ℕ) (s : State) :
    (execTagQuarantineExpiry tag s).Kept s := by
  unfold execTagQuarantineExpiry
  (repeat' split) <;> simp
@[simp] theorem execCellarerRestart_kept (cause : Fin 4) (s : State) :
    (execCellarerRestart cause s).Kept s := by
  unfold execCellarerRestart
  simp
@[simp] theorem execRefreshDue_kept (c : ChanId) (rank : Fin 4) (queued : Bool) (s : State) :
    (execRefreshDue c rank queued s).Kept s := by
  unfold execRefreshDue
  simp
@[simp] theorem execGarretList_kept (n : MbxId) (s : State) :
    (execGarretList n s).Kept s := by
  unfold execGarretList
  simp
@[simp] theorem execRsa4096Verify_kept (n : LaneId) (e : EngId) (s : State) :
    (execRsa4096Verify n e s).Kept s := by
  unfold execRsa4096Verify
  simp
@[simp] theorem execHartRst_kept (agent : Agent) (hart : HartId) (s : State) :
    (execHartRst agent hart s).Kept s := by
  unfold execHartRst
  simp
@[simp] theorem execValidate_kept (n : LaneId) (s : State) :
    (execValidate n s).Kept s := by
  unfold execValidate
  simp
@[simp] theorem execReclaimTimeout_kept (i : SessId) (s : State) :
    (execReclaimTimeout i s).Kept s := by
  unfold execReclaimTimeout
  simp
@[simp] theorem execIdleTimeout_kept (i : SessId) (s : State) :
    (execIdleTimeout i s).Kept s := by
  unfold execIdleTimeout
  simp
@[simp] theorem execWcopy_kept (h : RhaxHdr) (k : RingId) (b : Bytes) (s : State) :
    (execWcopy h k b s).Kept s := by
  unfold execWcopy
  refine State.rhaxRx_kept _ _ _ _ _ fun x => ?_
  dsimp only
  (repeat' split) <;> simp [State.still_iff]
@[simp] theorem execArkEnable_kept (_agent : Agent) (k : ArkId) (v : Bool) (s : State) :
    (execArkEnable _agent k v s).Kept s := by
  unfold execArkEnable
  simp
@[simp] theorem execKeyExport_kept (n : MbxId) (c : KeyExportChange) (s : State) :
    (execKeyExport n c s).Kept s := by
  unfold execKeyExport
  simp
@[simp] theorem execWcopyData_kept (h : RhaxHdr) (copies : List (ℕ × Bytes)) (last : Bool) (s : State) :
    (execWcopyData h copies last s).Kept s := by
  unfold execWcopyData
  refine State.rhaxRx_kept _ _ _ _ _ fun x => ?_
  have hs : ∀ z : State, x.Still z → z.rom = x.rom ∧ z.pending = x.pending ∧ (Memory.wf x.dram = true → Memory.wf z.dram = true) :=
    fun z hz => ⟨hz.rom, hz.pending, fun hw => hz.dram ▸ hw⟩
  refine hs _ (.ite _ (.refl x) ?_)
  have hf : x.Still (copies.foldl (fun s p => match (s.ring p.1).mirrorPut p.2 with
      | some r => s.setRing p.1 r
      | none => s) x) := .foldl (fun u p => by
    cases (u.ring p.1).mirrorPut p.2 with
    | none => exact .refl u
    | some r => exact State.still_iff.2 (by simp)) _ _
  refine hf.trans (.ite _ (State.still_iff.2 ?_) (.refl _))
  exact State.rhaxReply_still _ _ _ _ fun _ _ => ⟨rfl, rfl, rfl⟩
@[simp] theorem execMailboxDataWrite_kept (agent : Agent) (n : MbxId) (i : Fin 16) (val : W32) (s : State) :
    (execMailboxDataWrite agent n i val s).Kept s := by
  unfold execMailboxDataWrite
  simp
@[simp] theorem execLockWrite_kept (agent : Agent) (n : LockId) (_val : W32) (s : State) :
    (execLockWrite agent n _val s).Kept s := by
  unfold execLockWrite
  simp
@[simp] theorem execTicketStatus_kept (n : MbxId) (s : State) :
    (execTicketStatus n s).Kept s := by
  unfold execTicketStatus
  refine State.skeid_kept _ _ _ _ _ _ _ _ fun x => ?_
  (repeat' split) <;> simp
@[simp] theorem execClrHist_kept (agent : Agent) (n : LaneId) (s : State) :
    (execClrHist agent n s).Kept s := by
  unfold execClrHist
  simp
@[simp] theorem execTimeAnnounce_kept (h : RhaxHdr) (_gm : D64) (_off : ℤ) (st : W32) (ns : ℕ) (s : State) :
    (execTimeAnnounce h _gm _off st ns s).Kept s := by
  unfold execTimeAnnounce
  simp
@[simp] theorem execDrainCopy_kept (k : RingId) (err : SlotErr) (s : State) :
    (execDrainCopy k err s).Kept s := by
  unfold execDrainCopy
  simp only [rom_ite, pending_ite, dram_ite, fst_ite, Res.kept_ite]
  (repeat' split) <;> simp
@[simp] theorem execLaneResetClear_kept (n : LaneId) (s : State) :
    (execLaneResetClear n s).Kept s := by
  unfold execLaneResetClear
  simp only [rom_ite, pending_ite, dram_ite, fst_ite, Res.kept_ite]
  (repeat' split) <;> simp
@[simp] theorem execVerifyTokenP384_kept (n : LaneId) (e : EngId) (s : State) :
    (execVerifyTokenP384 n e s).Kept s := by
  unfold execVerifyTokenP384
  simp
@[simp] theorem execMailboxRxRead_kept (agent : Agent) (n : MbxId) (s : State) :
    (execMailboxRxRead agent n s).Kept s := by
  unfold execMailboxRxRead
  simp
@[simp] theorem execLeaseExpiry_kept (ownHome : Bool) (s : State) :
    (execLeaseExpiry ownHome s).Kept s := by
  unfold execLeaseExpiry
  simp
@[simp] theorem execStnRunEnd_kept (n : LaneId) (s : State) :
    (execStnRunEnd n s).Kept s := by
  unfold execStnRunEnd
  simp only [rom_ite, pending_ite, dram_ite, fst_ite, Res.kept_ite]
  (repeat' split) <;> simp
@[simp] theorem execWitnessSilence_kept (s : State) :
    (execWitnessSilence s).Kept s := by
  unfold execWitnessSilence
  simp
@[simp] theorem execReplayRequestReceive_kept (k : RingId) (seq : ℕ) (s : State) :
    (execReplayRequestReceive k seq s).Kept s := by
  unfold execReplayRequestReceive
  simp
@[simp] theorem execTcpRetransmitTimeout_kept (i : SessId) (s : State) :
    (execTcpRetransmitTimeout i s).Kept s := by
  unfold execTcpRetransmitTimeout
  simp
@[simp] theorem execSignPairingManifest_kept (n : LaneId) (e : EngId) (s : State) :
    (execSignPairingManifest n e s).Kept s := by
  unfold execSignPairingManifest
  simp
@[simp] theorem execOfficers_kept (n : MbxId) (c : List Officer) (s : State) :
    (execOfficers n c s).Kept s := by
  unfold execOfficers
  simp
@[simp] theorem execLaneFirewall_kept (n : MbxId) (c : FirewallChange) (s : State) :
    (execLaneFirewall n c s).Kept s := by
  unfold execLaneFirewall
  simp
@[simp] theorem execDukptDeriveTdes_kept (n : LaneId) (e : EngId) (s : State) :
    (execDukptDeriveTdes n e s).Kept s := by
  unfold execDukptDeriveTdes
  simp
@[simp] theorem execWcopyAck_kept (h : RhaxHdr) (k : RingId) (seq : ℕ) (s : State) :
    (execWcopyAck h k seq s).Kept s := by
  unfold execWcopyAck
  simp
@[simp] theorem execPcieConfigRequest_kept (fn : Fin 65) (off : ℕ) (w : Option W32) (s : State) :
    (execPcieConfigRequest fn off w s).Kept s := by
  unfold execPcieConfigRequest
  (repeat' split) <;> simp
@[simp] theorem execLeaseRefuse_kept (h : RhaxHdr) (home : ℕ) (_code : Code) (s : State) :
    (execLeaseRefuse h home _code s).Kept s := by
  unfold execLeaseRefuse
  simp
@[simp] theorem execDecisionCollect_kept (n : LaneId) (k : Fin 8) (s : State) :
    (execDecisionCollect n k s).Kept s := by
  unfold execDecisionCollect
  simp only [rom_ite, pending_ite, dram_ite, fst_ite, Res.kept_ite]
  (repeat' split) <;> simp
@[simp] theorem execBeatReadh_kept (n : LaneId) (t : ThreadId) (rd : XReg) (s : State) :
    (execBeatReadh n t rd s).Kept s := by
  unfold execBeatReadh
  simp
@[simp] theorem execListenerReconnect_kept (li : Fin 256) (s : State) :
    (execListenerReconnect li s).Kept s := by
  unfold execListenerReconnect
  (repeat' split) <;> simp
@[simp] theorem execTileCheck_kept (hart : HartId) (rd : XReg) (rs1 : XReg) (s : State) :
    (execTileCheck hart rd rs1 s).Kept s := by
  unfold execTileCheck
  refine State.hartIssue_kept _ _ _ fun x y => ?_
  (repeat' split) <;> simp
@[simp] theorem execLaneRelease_kept (n : MbxId) (s : State) :
    (execLaneRelease n s).Kept s := by
  unfold execLaneRelease
  refine State.dual_kept _ _ _ _ _ _ _ fun x => ?_
  (repeat' split) <;> simp
@[simp] theorem execWitnessAckTimeout_kept (k : RingId) (seq : ℕ) (s : State) :
    (execWitnessAckTimeout k seq s).Kept s := by
  unfold execWitnessAckTimeout
  simp
@[simp] theorem execLockRead_kept (agents : List Agent) (n : LockId) (s : State) :
    (execLockRead agents n s).Kept s := by
  unfold execLockRead
  simp
@[simp] theorem execPcieLinkDown_kept (port : Fin 5) (sub : Fin 4) (s : State) :
    (execPcieLinkDown port sub s).Kept s := by
  unfold execPcieLinkDown
  simp
@[simp] theorem execTileFree_kept (n : LaneId) (t : ThreadId) (rs1 : XReg) (s : State) :
    (execTileFree n t rs1 s).Kept s := by
  unfold execTileFree
  simp
@[simp] theorem execVerify_kept (k : ArkId) (dataError : Bool) (s : State) :
    (execVerify k dataError s).Kept s := by
  unfold execVerify
  simp
@[simp] theorem execKeyGen_kept (n : MbxId) (c : KeyGenChange) (s : State) :
    (execKeyGen n c s).Kept s := by
  unfold execKeyGen
  simp
@[simp] theorem execThrSignal_kept (n : LaneId) (t : ThreadId) (rs1 : XReg) (s : State) :
    (execThrSignal n t rs1 s).Kept s := by
  unfold execThrSignal
  simp
@[simp] theorem execReplayTimeout_kept (k : RingId) (seq : ℕ) (s : State) :
    (execReplayTimeout k seq s).Kept s := by
  unfold execReplayTimeout
  simp
@[simp] theorem execMailboxRxAck_kept (agent : Agent) (n : MbxId) (seq : BitVec 8) (code : Code) (s : State) :
    (execMailboxRxAck agent n seq code s).Kept s := by
  unfold execMailboxRxAck
  simp
@[simp] theorem execStylusSplitAccess_kept (lane : LaneId) (t : ThreadId) (s : State) :
    (execStylusSplitAccess lane t s).Kept s := by
  unfold execStylusSplitAccess
  simp
@[simp] theorem execLaneLoad_kept (n : MbxId) (s : State) :
    (execLaneLoad n s).Kept s := by
  unfold execLaneLoad
  refine State.dual_kept _ _ _ _ _ _ _ fun x => ?_
  dsimp only
  (repeat' split) <;> simp [State.still_iff]
@[simp] theorem execGenerateMlDsa87Pair_kept (n : LaneId) (e : EngId) (s : State) :
    (execGenerateMlDsa87Pair n e s).Kept s := by
  unfold execGenerateMlDsa87Pair
  simp
@[simp] theorem execIdleAckSend_kept (s : State) :
    (execIdleAckSend s).Kept s := by
  unfold execIdleAckSend
  simp
@[simp] theorem execGratuitousArp_kept (i : Fin 64) (s : State) :
    (execGratuitousArp i s).Kept s := by
  unfold execGratuitousArp
  (repeat' split) <;> simp
@[simp] theorem execHandshakeComplete_kept (i : SessId) (r : HsResult) (s : State) :
    (execHandshakeComplete i r s).Kept s := by
  unfold execHandshakeComplete
  simp only [rom_ite, pending_ite, dram_ite, fst_ite, Res.kept_ite]
  (repeat' split) <;> simp
@[simp] theorem execStylusException_kept (n : LaneId) (t : ThreadId) (cause : W32) (tval : W32) (s : State) :
    (execStylusException n t cause tval s).Kept s := by
  unfold execStylusException
  simp
@[simp] theorem execInvalidateCompletion_kept (fn : Fin 65) (s : State) :
    (execInvalidateCompletion fn s).Kept s := by
  unfold execInvalidateCompletion
  simp
@[simp] theorem execHistClear_kept (agent : Agent) (c : ChanId) (s : State) :
    (execHistClear agent c s).Kept s := by
  unfold execHistClear
  simp
@[simp] theorem execPcieCompletionReceive_kept (tag : ℕ) (c : PcieCpl) (s : State) :
    (execPcieCompletionReceive tag c s).Kept s := by
  unfold execPcieCompletionReceive
  simp only [rom_ite, pending_ite, dram_ite, fst_ite, Res.kept_ite]
  (repeat' split) <;> simp
@[simp] theorem execTileDigest_kept (n : LaneId) (t : ThreadId) (rd : XReg) (rs1 : XReg) (s : State) :
    (execTileDigest n t rd rs1 s).Kept s := by
  unfold execTileDigest
  simp
@[simp] theorem execJrnAppend_kept (hart : HartId) (rd : XReg) (rs1 : XReg) (s : State) :
    (execJrnAppend hart rd rs1 s).Kept s := by
  unfold execJrnAppend
  refine State.hartIssue_kept _ _ _ fun x y => ?_
  (repeat' split) <;> simp
@[simp] theorem execTrainingPassEnd_kept (c : ChanId) (found : Bool) (s : State) :
    (execTrainingPassEnd c found s).Kept s := by
  unfold execTrainingPassEnd
  simp only [rom_ite, pending_ite, dram_ite, fst_ite, Res.kept_ite]
  (repeat' split) <;> simp
@[simp] theorem execMsixUnmask_kept (fn : Fin 65) (vec : ℕ) (s : State) :
    (execMsixUnmask fn vec s).Kept s := by
  unfold execMsixUnmask
  simp
@[simp] theorem execStylusLongOperation_kept (lane : LaneId) (t : ThreadId) (s : State) :
    (execStylusLongOperation lane t s).Kept s := by
  unfold execStylusLongOperation
  simp
@[simp] theorem execMailboxRxExtend_kept (agent : Agent) (n : MbxId) (us : ℕ) (s : State) :
    (execMailboxRxExtend agent n us s).Kept s := by
  unfold execMailboxRxExtend
  simp
@[simp] theorem execApprove_kept (n : MbxId) (units : PhaseOne) (s : State) :
    (execApprove n units s).Kept s := by
  unfold execApprove
  refine State.skeid_kept _ _ _ _ _ _ _ _ fun x => ?_
  dsimp only
  (repeat' split) <;> simp [State.still_iff]
@[simp] theorem execDrainFrameReceive_kept (f : LinkFrame) (k : RingId) (lastSeq : ℕ) (s : State) :
    (execDrainFrameReceive f k lastSeq s).Kept s := by
  unfold execDrainFrameReceive
  refine State.frameRx_kept _ _ _ _ fun x => ?_
  (repeat' split) <;> simp
@[simp] theorem execDebugUnlock_kept (n : MbxId) (c : UnlockChange) (s : State) :
    (execDebugUnlock n c s).Kept s := by
  unfold execDebugUnlock
  simp
@[simp] theorem execHmCheck_kept (hart : HartId) (rd : XReg) (rs1 : XReg) (rs2 : XReg) (s : State) :
    (execHmCheck hart rd rs1 rs2 s).Kept s := by
  unfold execHmCheck
  refine State.hartIssue_kept _ _ _ fun x y => ?_
  (repeat' split) <;> simp
@[simp] theorem execKeyPolicy_kept (n : MbxId) (c : PolicyChange) (s : State) :
    (execKeyPolicy n c s).Kept s := by
  unfold execKeyPolicy
  simp
@[simp] theorem execTileSeal_kept (n : LaneId) (t : ThreadId) (rs1 : XReg) (rs2 : XReg) (s : State) :
    (execTileSeal n t rs1 rs2 s).Kept s := by
  unfold execTileSeal
  simp
@[simp] theorem execHandshakeStart_kept (i : SessId) (h : ClientHello) (s : State) :
    (execHandshakeStart i h s).Kept s := by
  unfold execHandshakeStart
  simp
@[simp] theorem execMemoryWrite_kept (c : ChanId) (line : ℕ) (data : Bytes) (poisoned : Bool) (requester : Agent) (s : State) :
    (execMemoryWrite c line data poisoned requester s).Kept s := by
  unfold execMemoryWrite
  simp
@[simp] theorem execBeatOverrun_kept (n : LaneId) (t : ThreadId) (s : State) :
    (execBeatOverrun n t s).Kept s := by
  unfold execBeatOverrun
  simp only [rom_ite, pending_ite, dram_ite, fst_ite, Res.kept_ite]
  (repeat' split) <;> simp
@[simp] theorem execReleaseAccept_kept (n : LaneId) (h : Handle) (s : State) :
    (execReleaseAccept n h s).Kept s := by
  unfold execReleaseAccept
  (repeat' split) <;> simp
@[simp] theorem execGarretRead_kept (n : MbxId) (s : State) :
    (execGarretRead n s).Kept s := by
  unfold execGarretRead
  refine State.skeid_kept _ _ _ _ _ _ _ _ fun x => ?_
  dsimp only
  (repeat' split) <;> simp [State.still_iff]
@[simp] theorem execGenerateEcdsaP256Pair_kept (n : LaneId) (e : EngId) (s : State) :
    (execGenerateEcdsaP256Pair n e s).Kept s := by
  unfold execGenerateEcdsaP256Pair
  simp
@[simp] theorem execSidebandRelease_kept (s : State) :
    (execSidebandRelease s).Kept s := by
  unfold execSidebandRelease
  simp
@[simp] theorem execPairStart_kept (n : MbxId) (s : State) : (execPairStart n s).Kept s := by
  unfold execPairStart
  split
  · simp
  next t ht =>
    obtain ⟨h1, h2, h3⟩ := State.celTake_still ht
    split
    · simp [h1, h2, h3]
    · have h : (t.skeid n 0x20 none true 0 0 fun s => { st := s, code := 0x0224, res := [s.reg (twnBase + 0x14)] }).Kept t :=
        State.skeid_kept _ _ _ _ _ _ _ _ fun x => by simp
      intro u hu
      obtain ⟨k1, k2, k3⟩ := h u hu
      exact ⟨k1.trans h1, k2.trans h2, fun hw => k3 (h3 ▸ hw)⟩
@[simp] theorem execCtlFrameReceive_kept (f : LinkFrame) (m : CtlMsg) (s : State) :
    (execCtlFrameReceive f m s).Kept s := by
  unfold execCtlFrameReceive
  refine State.frameRx_kept _ _ _ _ fun x => ?_
  (repeat' split) <;> simp
@[simp] theorem execHeaderTimeout_kept (s : State) :
    (execHeaderTimeout s).Kept s := by
  unfold execHeaderTimeout
  simp
@[simp] theorem execLockRelease_kept (n : MbxId) (s : State) :
    (execLockRelease n s).Kept s := by
  unfold execLockRelease
  simp
@[simp] theorem execPwrTdp_kept (agent : Agent) (val : W32) (s : State) :
    (execPwrTdp agent val s).Kept s := by
  unfold execPwrTdp
  simp
@[simp] theorem execBayThermalLimit_kept (bay : SliceId) (temp : ℕ) (s : State) :
    (execBayThermalLimit bay temp s).Kept s := by
  unfold execBayThermalLimit
  simp
@[simp] theorem execGenerateEcdsaP384Pair_kept (n : LaneId) (e : EngId) (s : State) :
    (execGenerateEcdsaP384Pair n e s).Kept s := by
  unfold execGenerateEcdsaP384Pair
  simp
@[simp] theorem execFlrComplete_kept (fn : Fin 65) (s : State) :
    (execFlrComplete fn s).Kept s := by
  unfold execFlrComplete
  simp
@[simp] theorem execChannelFailure_kept (c : ChanId) (s : State) :
    (execChannelFailure c s).Kept s := by
  unfold execChannelFailure
  simp
@[simp] theorem execCachePart_kept (n : MbxId) (s : State) :
    (execCachePart n s).Kept s := by
  unfold execCachePart
  simp
@[simp] theorem execMlDsa87Verify_kept (n : LaneId) (e : EngId) (s : State) :
    (execMlDsa87Verify n e s).Kept s := by
  unfold execMlDsa87Verify
  simp
@[simp] theorem execEcdsaP384Verify_kept (n : LaneId) (e : EngId) (s : State) :
    (execEcdsaP384Verify n e s).Kept s := by
  unfold execEcdsaP384Verify
  simp
@[simp] theorem execTranslate_kept (n : LaneId) (s : State) :
    (execTranslate n s).Kept s := by
  unfold execTranslate
  simp
@[simp] theorem execHdmaDescriptorComplete_kept (k : HdmaId) (s : State) :
    (execHdmaDescriptorComplete k s).Kept s := by
  unfold execHdmaDescriptorComplete
  simp only [rom_ite, pending_ite, dram_ite, fst_ite, Res.kept_ite]
  (repeat' split) <;> simp
@[simp] theorem execStallTimeout_kept (i : SessId) (s : State) :
    (execStallTimeout i s).Kept s := by
  unfold execStallTimeout
  simp
@[simp] theorem execEngPoll_kept (n : LaneId) (t : ThreadId) (rd : XReg) (rs1 : XReg) (s : State) :
    (execEngPoll n t rd rs1 s).Kept s := by
  unfold execEngPoll
  refine State.issue_kept _ _ _ _ _ fun x y => ?_
  dsimp only
  (repeat' split) <;> simp [State.still_iff]
@[simp] theorem execKeepaliveProbe_kept (i : SessId) (s : State) :
    (execKeepaliveProbe i s).Kept s := by
  unfold execKeepaliveProbe
  simp
@[simp] theorem execRasQuery_kept (n : MbxId) (s : State) :
    (execRasQuery n s).Kept s := by
  unfold execRasQuery
  simp
@[simp] theorem execPtpMessageReceive_kept (q : PortId) (m : PtpMsg) (s : State) :
    (execPtpMessageReceive q m s).Kept s := by
  unfold execPtpMessageReceive
  (repeat' split) <;> simp
@[simp] theorem execMailboxGo_kept (agent : Agent) (n : MbxId) (seq : BitVec 8) (s : State) :
    (execMailboxGo agent n seq s).Kept s := by
  unfold execMailboxGo
  simp
@[simp] theorem execBeatLeft_kept (n : LaneId) (t : ThreadId) (rd : XReg) (s : State) :
    (execBeatLeft n t rd s).Kept s := by
  unfold execBeatLeft
  refine State.issue_kept _ _ _ _ _ fun x y => ?_
  (repeat' split) <;> simp
@[simp] theorem execPtpSyncLoss_kept (s : State) :
    (execPtpSyncLoss s).Kept s := by
  unfold execPtpSyncLoss
  simp
@[simp] theorem execLeaseGrant_kept (h : RhaxHdr) (home : ℕ) (s : State) :
    (execLeaseGrant h home s).Kept s := by
  unfold execLeaseGrant
  refine State.rhaxRx_kept _ _ _ _ _ fun x => ?_
  (repeat' split) <;> simp
@[simp] theorem execAvsbusRetry_kept (die : Fin 4) (ok : Bool) (s : State) :
    (execAvsbusRetry die ok s).Kept s := by
  unfold execAvsbusRetry
  simp
@[simp] theorem execL3Request_kept (req : L3Req) (s : State) :
    (execL3Request req s).Kept s := by
  unfold execL3Request
  (repeat' split) <;> simp
@[simp] theorem execKeyDestroy_kept (n : MbxId) (slot : SlotId) (s : State) :
    (execKeyDestroy n slot s).Kept s := by
  unfold execKeyDestroy
  simp
@[simp] theorem execBpflush_kept (hart : HartId) (s : State) :
    (execBpflush hart s).Kept s := by
  unfold execBpflush
  refine State.hartIssue_kept _ _ _ fun x y => ?_
  (repeat' split) <;> simp
@[simp] theorem execJournal_kept (n : MbxId) (c : JournalChange) (s : State) :
    (execJournal n c s).Kept s := by
  unfold execJournal
  simp
@[simp] theorem execReassignMove_kept (s : State) :
    (execReassignMove s).Kept s := by
  unfold execReassignMove
  (repeat' split) <;> simp
@[simp] theorem execBurSkip_kept (n : LaneId) (t : ThreadId) (rs1 : XReg) (s : State) :
    (execBurSkip n t rs1 s).Kept s := by
  unfold execBurSkip
  simp
@[simp] theorem execRingResyncComplete_kept (k : RingId) (peer : PeerRing) (s : State) :
    (execRingResyncComplete k peer s).Kept s := by
  unfold execRingResyncComplete
  simp
@[simp] theorem execAtticRead_kept (off : ℕ) (s : State) :
    (execAtticRead off s).Kept s := by
  unfold execAtticRead
  simp
@[simp] theorem execHandshakeTimeout_kept (i : SessId) (s : State) :
    (execHandshakeTimeout i s).Kept s := by
  unfold execHandshakeTimeout
  simp
@[simp] theorem execHeaderHcrcFailure_kept (lseq : ℕ) (s : State) :
    (execHeaderHcrcFailure lseq s).Kept s := by
  unfold execHeaderHcrcFailure
  simp
@[simp] theorem execBeatFrameReceive_kept (f : LinkFrame) (s : State) :
    (execBeatFrameReceive f s).Kept s := by
  unfold execBeatFrameReceive
  refine State.frameRx_kept _ _ _ _ fun x => ?_
  (repeat' split) <;> simp
@[simp] theorem execPcieWindows_kept (n : MbxId) (c : List PcieWindow) (s : State) :
    (execPcieWindows n c s).Kept s := by
  unfold execPcieWindows
  simp
@[simp] theorem execRsa2048Verify_kept (n : LaneId) (e : EngId) (s : State) :
    (execRsa2048Verify n e s).Kept s := by
  unfold execRsa2048Verify
  simp
@[simp] theorem execXferRefuse_kept (h : RhaxHdr) (code : Code) (s : State) :
    (execXferRefuse h code s).Kept s := by
  unfold execXferRefuse
  simp
@[simp] theorem execKeyImport_kept (n : MbxId) (c : KeyImportChange) (s : State) :
    (execKeyImport n c s).Kept s := by
  unfold execKeyImport
  simp
@[simp] theorem execPinBlockTranslate_kept (n : LaneId) (e : EngId) (s : State) :
    (execPinBlockTranslate n e s).Kept s := by
  unfold execPinBlockTranslate
  simp
@[simp] theorem execStencilLoad_kept (n : MbxId) (s : State) :
    (execStencilLoad n s).Kept s := by
  unfold execStencilLoad
  refine State.dual_kept _ _ _ _ _ _ _ fun x => ?_
  dsimp only
  (repeat' split) <;> simp [State.still_iff]
@[simp] theorem execBeatTimerRestart_kept (s : State) :
    (execBeatTimerRestart s).Kept s := by
  unfold execBeatTimerRestart
  simp
@[simp] theorem execScrubSlowWarning_kept (c : ChanId) (s : State) :
    (execScrubSlowWarning c s).Kept s := by
  unfold execScrubSlowWarning
  simp
@[simp] theorem execEcdsaP256Sign_kept (n : LaneId) (e : EngId) (s : State) :
    (execEcdsaP256Sign n e s).Kept s := by
  unfold execEcdsaP256Sign
  simp
@[simp] theorem execHdmaDescriptor_kept (k : HdmaId) (s : State) :
    (execHdmaDescriptor k s).Kept s := by
  unfold execHdmaDescriptor
  simp
@[simp] theorem execFirmwareVerifyComplete_kept (current : Bool) (previous : Bool) (staged : Bool) (s : State) :
    (execFirmwareVerifyComplete current previous staged s).Kept s := by
  unfold execFirmwareVerifyComplete
  simp only [rom_ite, pending_ite, dram_ite, fst_ite, Res.kept_ite]
  (repeat' split) <;> simp
@[simp] theorem execCellarerInterrupt_kept (irq : ℕ) (prio : ℕ) (s : State) :
    (execCellarerInterrupt irq prio s).Kept s := by
  unfold execCellarerInterrupt
  simp
@[simp] theorem execGenerateMlDsa65Pair_kept (n : LaneId) (e : EngId) (s : State) :
    (execGenerateMlDsa65Pair n e s).Kept s := by
  unfold execGenerateMlDsa65Pair
  simp
@[simp] theorem execFreezeStop_kept (s : State) :
    (execFreezeStop s).Kept s := by
  unfold execFreezeStop
  simp
@[simp] theorem execGenerateMlDsa44Pair_kept (n : LaneId) (e : EngId) (s : State) :
    (execGenerateMlDsa44Pair n e s).Kept s := by
  unfold execGenerateMlDsa44Pair
  simp
@[simp] theorem execTicketCancel_kept (n : MbxId) (s : State) :
    (execTicketCancel n s).Kept s := by
  unfold execTicketCancel
  refine State.skeid_kept _ _ _ _ _ _ _ _ fun x => ?_
  (repeat' split) <;> simp
@[simp] theorem execHmacSha256_kept (n : LaneId) (e : EngId) (s : State) :
    (execHmacSha256 n e s).Kept s := by
  unfold execHmacSha256
  simp
@[simp] theorem execLeaseReq_kept (h : RhaxHdr) (home : ℕ) (s : State) :
    (execLeaseReq h home s).Kept s := by
  unfold execLeaseReq
  simp
@[simp] theorem execZeroize_kept (n : MbxId) (s : State) :
    (execZeroize n s).Kept s := by
  unfold execZeroize
  simp
/-- What an answer keeps of a still successor of `s`, it keeps of `s`. -/
theorem Res.Kept.of_still {r : Res} {s t : State} (h : r.Kept t) (k : s.Still t) : r.Kept s := fun u hu => by
  obtain ⟨h1, h2, h3⟩ := h u hu
  exact ⟨h1.trans k.rom, h2.trans k.pending, fun hw => h3 (k.dram ▸ hw)⟩

@[simp] theorem execStylusRv32Instruction_kept (lane : LaneId) (t : ThreadId) (err : StoreErr) (s : State) :
    (execStylusRv32Instruction lane t err s).Kept s := by
  have hr := State.ras_stays
  have ht : ∀ (u : State) a b c d, u.Still (u.trap a b c d) := fun u a b c d => State.still_iff.2 (by simp)
  obtain ⟨f, hf⟩ : ∃ f, f = execStylusRv32Instruction := ⟨_, rfl⟩
  obtain ⟨R, hR⟩ : ∃ f, f = State.ras := ⟨_, rfl⟩
  rw [← hf]
  delta execStylusRv32Instruction at hf
  rw [← hR] at hf hr
  rw [hf]
  dsimp only
  cases err with
  | none => exact s.styStep_kept _ _ _ _
  | single => exact (State.styStep_kept _ _ _ _ _).of_still (hr s _)
  | multi => exact s.issueAny_keeps _ _ _ fun x y => (hr x _).trans (ht _ _ _ _ _)
@[simp] theorem execProchotNInput_kept (low : Bool) (s : State) :
    (execProchotNInput low s).Kept s := by
  unfold execProchotNInput
  simp
@[simp] theorem execRefuse_kept (h : RhaxHdr) (_rtype : ℕ) (code : Code) (s : State) :
    (execRefuse h _rtype code s).Kept s := by
  unfold execRefuse
  refine State.rhaxRx_kept _ _ _ _ _ fun x => ?_
  (repeat' split) <;> simp
@[simp] theorem execMlDsa87Sign_kept (n : LaneId) (e : EngId) (s : State) :
    (execMlDsa87Sign n e s).Kept s := by
  unfold execMlDsa87Sign
  simp
@[simp] theorem execProchotSensor_kept (temp : ℕ) (s : State) :
    (execProchotSensor temp s).Kept s := by
  unfold execProchotSensor
  simp
@[simp] theorem execHartBeatWait_kept (hart : HartId) (rd : XReg) (rs1 : XReg) (s : State) :
    (execHartBeatWait hart rd rs1 s).Kept s := by
  unfold execHartBeatWait
  simp
@[simp] theorem execGenerateEd25519Pair_kept (n : LaneId) (e : EngId) (s : State) :
    (execGenerateEd25519Pair n e s).Kept s := by
  unfold execGenerateEd25519Pair
  simp
@[simp] theorem execRegisterReadClear_kept (agent : Agent) (addr : ℕ) (events : W32) (s : State) :
    (execRegisterReadClear agent addr events s).Kept s := by
  unfold execRegisterReadClear
  simp
@[simp] theorem execLaneReset_kept (n : MbxId) (s : State) :
    (execLaneReset n s).Kept s := by
  unfold execLaneReset
  refine State.skeid_kept _ _ _ _ _ _ _ _ fun x => ?_
  (repeat' split) <;> simp
@[simp] theorem execCounterOverflow_kept (hart : HartId) (i : Fin 32) (s : State) :
    (execCounterOverflow hart i s).Kept s := by
  unfold execCounterOverflow
  simp
@[simp] theorem execScrubRead_kept (c : ChanId) (err : DramErr) (s : State) :
    (execScrubRead c err s).Kept s := by
  unfold execScrubRead
  simp
@[simp] theorem execDebugRelock_kept (s : State) :
    (execDebugRelock s).Kept s := by
  unfold execDebugRelock
  simp
@[simp] theorem execSha384_kept (n : LaneId) (e : EngId) (s : State) :
    (execSha384 n e s).Kept s := by
  unfold execSha384
  simp
@[simp] theorem execDrainPause_kept (_agent : Agent) (v : Bool) (s : State) :
    (execDrainPause _agent v s).Kept s := by
  unfold execDrainPause
  simp
@[simp] theorem execXferAccept_kept (h : RhaxHdr) (s : State) :
    (execXferAccept h s).Kept s := by
  unfold execXferAccept
  simp
@[simp] theorem execEd25519BatchVerify_kept (n : LaneId) (e : EngId) (s : State) :
    (execEd25519BatchVerify n e s).Kept s := by
  unfold execEd25519BatchVerify
  simp
@[simp] theorem execTrainingPassStart_kept (c : ChanId) (why : PassCause) (s : State) :
    (execTrainingPassStart c why s).Kept s := by
  unfold execTrainingPassStart
  simp
@[simp] theorem execMsgTimeout_kept (i : SessId) (s : State) :
    (execMsgTimeout i s).Kept s := by
  unfold execMsgTimeout
  simp
@[simp] theorem execTileRelease_kept (n : LaneId) (t : ThreadId) (rd : XReg) (rs1 : XReg) (s : State) :
    (execTileRelease n t rd rs1 s).Kept s := by
  unfold execTileRelease
  refine State.issue_kept _ _ _ _ _ fun x y => ?_
  dsimp only
  (repeat' split) <;> simp [State.still_iff]
@[simp] theorem execHartInterrupt_kept (hart : HartId) (s : State) :
    (execHartInterrupt hart s).Kept s := by
  unfold execHartInterrupt
  simp only [rom_ite, pending_ite, dram_ite, fst_ite, Res.kept_ite]
  (repeat' split) <;> simp
@[simp] theorem execBeatBoundary_kept (off : ℤ) (s : State) : (execBeatBoundary off s).Kept s := by
  have hb : ∀ u : State, u.Still u.beatSend := fun u => State.still_iff.2 (by simp)
  have hh : ∀ u : State, u.Still u.handoverSwitch := fun u => State.still_iff.2 (by simp)
  have ht : ∀ u : State, u.Still u.takeoverSwitch := fun u => State.still_iff.2 (by simp)
  have hl : ∀ (u : State) a, u.Still (u.laneBoundary a) := fun u a => State.still_iff.2 (by simp)
  have hm : ∀ (u : State) m, u.Still { u with mem := m } := fun u m => ⟨rfl, rfl, rfl⟩
  have hg : ∀ (u : State) m, u.Still { u with gar := m } := fun u m => ⟨rfl, rfl, rfl⟩
  have hx : ∀ (u : State) m, u.Still { u with harts := m } := fun u m => ⟨rfl, rfl, rfl⟩
  have hc : ∀ (u : State) m b, u.Still { u with laneClk := m, btm := b } := fun u m b => ⟨rfl, rfl, rfl⟩
  unfold execBeatBoundary
  refine (Res.kept_ite _ _ _ _).2 ?_
  split
  · exact (State.Sound.refl s).next
  · exact State.Sound.next (State.Still.sound (.trans (.trans (.trans (.trans ((hc _ _ _).trans ((hm _ _).trans (hb _)))
      (.trans (.ite _ (hh _) (.refl _)) (ht _))) (.foldl (fun u n => hl u n) _ _)) (hg _ _)) (hx _ _)))
@[simp] theorem execDrain_kept (agent : Agent) (n : LaneId) (v : Bool) (s : State) :
    (execDrain agent n v s).Kept s := by
  unfold execDrain
  simp
@[simp] theorem execNetTables_kept (n : MbxId) (c : NetTables) (s : State) :
    (execNetTables n c s).Kept s := by
  unfold execNetTables
  simp
@[simp] theorem execShelfPost_kept (n : LaneId) (t : ThreadId) (rd : XReg) (rs1 : XReg) (rs2 : XReg) (s : State) :
    (execShelfPost n t rd rs1 rs2 s).Kept s := by
  unfold execShelfPost
  refine State.issue_kept _ _ _ _ _ fun x y => ?_
  dsimp only
  (repeat' split) <;> simp [State.still_iff]
@[simp] theorem execWrapForExport_kept (n : LaneId) (e : EngId) (s : State) :
    (execWrapForExport n e s).Kept s := by
  unfold execWrapForExport
  simp
@[simp] theorem execInvalidateRequest_kept (fn : Fin 65) (base : ℕ) (len : ℕ) (s : State) :
    (execInvalidateRequest fn base len s).Kept s := by
  unfold execInvalidateRequest
  simp
@[simp] theorem execDecompress_kept (k : ArkId) (dataError : Bool) (s : State) :
    (execDecompress k dataError s).Kept s := by
  unfold execDecompress
  simp
@[simp] theorem execMlDsa44Verify_kept (n : LaneId) (e : EngId) (s : State) :
    (execMlDsa44Verify n e s).Kept s := by
  unfold execMlDsa44Verify
  simp
@[simp] theorem execWarmResetExit_kept (s : State) :
    (execWarmResetExit s).Kept s := by
  unfold execWarmResetExit
  simp
@[simp] theorem execVfEnable_kept (enable : Bool) (numVfs : Fin 65) (s : State) :
    (execVfEnable enable numVfs s).Kept s := by
  unfold execVfEnable
  simp
@[simp] theorem execHartRelease_kept (current : Bool) (previous : Bool) (s : State) :
    (execHartRelease current previous s).Kept s := by
  unfold execHartRelease
  simp
@[simp] theorem execSha512_kept (n : LaneId) (e : EngId) (s : State) :
    (execSha512 n e s).Kept s := by
  unfold execSha512
  simp
@[simp] theorem execLinkRetrainTimer_kept (s : State) :
    (execLinkRetrainTimer s).Kept s := by
  unfold execLinkRetrainTimer
  simp
@[simp] theorem execMbxBind_kept (n : MbxId) (s : State) :
    (execMbxBind n s).Kept s := by
  unfold execMbxBind
  refine State.skeid_kept _ _ _ _ _ _ _ _ fun x => ?_
  dsimp only
  (repeat' split) <;> simp [State.still_iff]
@[simp] theorem execMirrorAckReceive_kept (k : RingId) (seq : ℕ) (delay : ℕ) (s : State) :
    (execMirrorAckReceive k seq delay s).Kept s := by
  unfold execMirrorAckReceive
  simp
@[simp] theorem execResetReq_kept (agent : Agent) (n : LaneId) (s : State) :
    (execResetReq agent n s).Kept s := by
  unfold execResetReq
  simp
@[simp] theorem execLowWordRead_kept (agent : Agent) (addr : ℕ) (s : State) :
    (execLowWordRead agent addr s).Kept s := by
  unfold execLowWordRead
  simp
@[simp] theorem execAbort_kept (n : LaneId) (s : State) :
    (execAbort n s).Kept s := by
  unfold execAbort
  simp
@[simp] theorem execLeaseRelease_kept (h : RhaxHdr) (home : ℕ) (s : State) :
    (execLeaseRelease h home s).Kept s := by
  unfold execLeaseRelease
  refine State.rhaxRx_kept _ _ _ _ _ fun x => ?_
  (repeat' split) <;> simp
@[simp] theorem execBurOperationComplete_kept (n : LaneId) (e : EngId) (attemptsOk : Bool) (selfOk : Bool) (s : State) :
    (execBurOperationComplete n e attemptsOk selfOk s).Kept s := by
  unfold execBurOperationComplete
  simp
@[simp] theorem execCompress_kept (k : ArkId) (badBlocks : List ℕ) (dataError : Bool) (s : State) :
    (execCompress k badBlocks dataError s).Kept s := by
  unfold execCompress
  simp
@[simp] theorem execTileDigestComplete_kept (n : LaneId) (s : State) :
    (execTileDigestComplete n s).Kept s := by
  unfold execTileDigestComplete
  simp only [rom_ite, pending_ite, dram_ite, fst_ite, Res.kept_ite]
  (repeat' split) <;> simp
@[simp] theorem execLinkFailure_kept (code : Code) (s : State) :
    (execLinkFailure code s).Kept s := by
  unfold execLinkFailure
  simp
@[simp] theorem execRsa2048Sign_kept (n : LaneId) (e : EngId) (s : State) :
    (execRsa2048Sign n e s).Kept s := by
  unfold execRsa2048Sign
  simp
@[simp] theorem execCboFlush_kept (hart : HartId) (rs1 : XReg) (s : State) :
    (execCboFlush hart rs1 s).Kept s := by
  unfold execCboFlush
  refine State.hartIssue_kept _ _ _ fun x y => ?_
  (repeat' split) <;> simp
@[simp] theorem execMlDsa44Sign_kept (n : LaneId) (e : EngId) (s : State) :
    (execMlDsa44Sign n e s).Kept s := by
  unfold execMlDsa44Sign
  simp
@[simp] theorem execAdmitEn_kept (agent : Agent) (n : LaneId) (v : Bool) (s : State) :
    (execAdmitEn agent n v s).Kept s := by
  unfold execAdmitEn
  simp
@[simp] theorem execTileAlloc_kept (n : LaneId) (t : ThreadId) (rd : XReg) (rs1 : XReg) (s : State) :
    (execTileAlloc n t rd rs1 s).Kept s := by
  unfold execTileAlloc
  refine State.issue_kept _ _ _ _ _ fun x y => ?_
  dsimp only
  (repeat' split) <;> simp [State.still_iff]
@[simp] theorem execSha3512_kept (n : LaneId) (e : EngId) (s : State) :
    (execSha3512 n e s).Kept s := by
  unfold execSha3512
  simp
@[simp] theorem execJrnPut_kept (n : LaneId) (t : ThreadId) (rd : XReg) (rs1 : XReg) (s : State) :
    (execJrnPut n t rd rs1 s).Kept s := by
  unfold execJrnPut
  refine State.issue_kept _ _ _ _ _ fun x y => ?_
  (repeat' split) <;> simp
@[simp] theorem execAdminSet_kept (n : MbxId) (c : List Agent) (s : State) :
    (execAdminSet n c s).Kept s := by
  unfold execAdminSet
  simp
@[simp] theorem execBeatTimerStart_kept (s : State) :
    (execBeatTimerStart s).Kept s := by
  unfold execBeatTimerStart
  simp
@[simp] theorem execIso9797Mac1Aes_kept (n : LaneId) (e : EngId) (s : State) :
    (execIso9797Mac1Aes n e s).Kept s := by
  unfold execIso9797Mac1Aes
  simp
@[simp] theorem execBeatRead_kept (n : LaneId) (t : ThreadId) (rd : XReg) (s : State) :
    (execBeatRead n t rd s).Kept s := by
  unfold execBeatRead
  simp
@[simp] theorem execXferOffer_kept (h : RhaxHdr) (hallmark : Bytes) (route : ℕ) (prev : D64) (s : State) :
    (execXferOffer h hallmark route prev s).Kept s := by
  unfold execXferOffer
  simp
@[simp] theorem execTakeoverLeaseRetry_kept (s : State) :
    (execTakeoverLeaseRetry s).Kept s := by
  unfold execTakeoverLeaseRetry
  simp
@[simp] theorem execRsa4096Sign_kept (n : LaneId) (e : EngId) (s : State) :
    (execRsa4096Sign n e s).Kept s := by
  unfold execRsa4096Sign
  simp
@[simp] theorem execEd25519Verify_kept (n : LaneId) (e : EngId) (s : State) :
    (execEd25519Verify n e s).Kept s := by
  unfold execEd25519Verify
  simp
@[simp] theorem execStylusDramLoadReturn_kept (lane : LaneId) (t : ThreadId) (dataError : Bool) (s : State) :
    (execStylusDramLoadReturn lane t dataError s).Kept s := by
  unfold execStylusDramLoadReturn
  simp only [rom_ite, pending_ite, dram_ite, fst_ite, Res.kept_ite]
  (repeat' split) <;> simp
@[simp] theorem execCombineComponents_kept (n : LaneId) (e : EngId) (s : State) :
    (execCombineComponents n e s).Kept s := by
  unfold execCombineComponents
  simp
@[simp] theorem execAtticCopyComplete_kept (s : State) :
    (execAtticCopyComplete s).Kept s := by
  unfold execAtticCopyComplete
  simp
@[simp] theorem execRetailMacTdes_kept (n : LaneId) (e : EngId) (s : State) :
    (execRetailMacTdes n e s).Kept s := by
  unfold execRetailMacTdes
  simp
@[simp] theorem execReseedLapse_kept (s : State) :
    (execReseedLapse s).Kept s := by
  unfold execReseedLapse
  simp
@[simp] theorem execCompletionTimeout_kept (tag : ℕ) (s : State) :
    (execCompletionTimeout tag s).Kept s := by
  unfold execCompletionTimeout
  (repeat' split) <;> simp
@[simp] theorem execMemConfig_kept (n : MbxId) (s : State) :
    (execMemConfig n s).Kept s := by
  unfold execMemConfig
  simp
@[simp] theorem execVerifyResp_kept (h : RhaxHdr) (code : Code) (s : State) :
    (execVerifyResp h code s).Kept s := by
  unfold execVerifyResp
  simp
@[simp] theorem execTicketExpiry_kept (num : ℕ) (s : State) :
    (execTicketExpiry num s).Kept s := by
  unfold execTicketExpiry
  (repeat' split) <;> simp
@[simp] theorem execReassignTimeout_kept (s : State) :
    (execReassignTimeout s).Kept s := by
  unfold execReassignTimeout
  simp
@[simp] theorem execPowerManagerInterval_kept (corePower : ℕ) (pkgPower : ℕ) (s : State) :
    (execPowerManagerInterval corePower pkgPower s).Kept s := by
  unfold execPowerManagerInterval
  simp
@[simp] theorem execEcdsaP384Sign_kept (n : LaneId) (e : EngId) (s : State) :
    (execEcdsaP384Sign n e s).Kept s := by
  unfold execEcdsaP384Sign
  simp
@[simp] theorem execNeighbourRefresh_kept (c : ChanId) (bank : ℕ) (s : State) :
    (execNeighbourRefresh c bank s).Kept s := by
  unfold execNeighbourRefresh
  simp only [rom_ite, pending_ite, dram_ite, fst_ite, Res.kept_ite]
  (repeat' split) <;> simp
@[simp] theorem execMailboxClear_kept (agent : Agent) (n : MbxId) (s : State) :
    (execMailboxClear agent n s).Kept s := by
  unfold execMailboxClear
  simp
@[simp] theorem execUnwrapKeyBlock_kept (n : LaneId) (e : EngId) (s : State) :
    (execUnwrapKeyBlock n e s).Kept s := by
  unfold execUnwrapKeyBlock
  simp
@[simp] theorem execEntropyHealthFailure_kept (s : State) :
    (execEntropyHealthFailure s).Kept s := by
  unfold execEntropyHealthFailure
  simp
@[simp] theorem execKeyUpdateSend_kept (i : SessId) (s : State) :
    (execKeyUpdateSend i s).Kept s := by
  unfold execKeyUpdateSend
  simp
@[simp] theorem execDecisionTimeout_kept (n : LaneId) (h : Handle) (s : State) :
    (execDecisionTimeout n h s).Kept s := by
  unfold execDecisionTimeout
  (repeat' split) <;> simp
@[simp] theorem execPairingTimeout_kept (current : Bool) (previous : Bool) (s : State) :
    (execPairingTimeout current previous s).Kept s := by
  unfold execPairingTimeout
  simp
@[simp] theorem execCboInval_kept (hart : HartId) (rs1 : XReg) (s : State) :
    (execCboInval hart rs1 s).Kept s := by
  unfold execCboInval
  refine State.hartIssue_kept _ _ _ fun x y => ?_
  (repeat' split) <;> simp
@[simp] theorem execTcpConnectionEstablish_kept (li : Fin 256) (c : ConnInfo) (s : State) :
    (execTcpConnectionEstablish li c s).Kept s := by
  unfold execTcpConnectionEstablish
  simp only [rom_ite, pending_ite, dram_ite, fst_ite, Res.kept_ite]
  (repeat' split) <;> simp
@[simp] theorem execVerifyReq_kept (h : RhaxHdr) (hm : Bytes) (route : ℕ) (outs : List Bytes) (s : State) :
    (execVerifyReq h hm route outs s).Kept s := by
  unfold execVerifyReq
  split
  · simp
  · refine State.rhaxRx_kept _ _ _ _ _ fun x => ?_
    dsimp only
    cases x.hmKey (Hallmark.ofBytes hm) with
    | none => simp
    | some k => simp
@[simp] theorem execSha3256_kept (n : LaneId) (e : EngId) (s : State) :
    (execSha3256 n e s).Kept s := by
  unfold execSha3256
  simp
@[simp] theorem execWcopyFetch_kept (h : RhaxHdr) (home : ℕ) (s : State) :
    (execWcopyFetch h home s).Kept s := by
  unfold execWcopyFetch
  simp
@[simp] theorem execCboZero_kept (hart : HartId) (rs1 : XReg) (s : State) :
    (execCboZero hart rs1 s).Kept s := by
  unfold execCboZero
  refine State.hartIssue_kept _ _ _ fun x y => ?_
  (repeat' split) <;> simp
theorem State.rshProd_stays (s : State) (n k : ℕ) (v : W32) : s.Still (s.rshProd n k v) := State.still_iff.2 (by simp)

@[simp] theorem execRshProdWrite_kept (g : Agent) (n : LaneId) (k : Fin 8) (v : W32) (s : State) :
    (execRshProdWrite g n k v s).Kept s := by
  unfold execRshProdWrite
  have hs := State.rshProd_stays
  obtain ⟨f, hf⟩ : ∃ f, f = State.rshProd := ⟨_, rfl⟩
  rw [← hf] at hs ⊢
  exact State.laneWrite_kept _ _ _ _ _ _ fun x => ⟨(hs x n k v).rom, (hs x n k v).pending, fun hw => (hs x n k v).dram ▸ hw⟩
@[simp] theorem execHshConsWrite_kept (agent : Agent) (n : LaneId) (k : Fin 8) (val : W32) (s : State) :
    (execHshConsWrite agent n k val s).Kept s := by
  unfold execHshConsWrite
  simp
@[simp] theorem execArkAbort_kept (_agent : Agent) (k : ArkId) (s : State) :
    (execArkAbort _agent k s).Kept s := by
  unfold execArkAbort
  simp
@[simp] theorem execStnGo_kept (n : LaneId) (t : ThreadId) (rd : XReg) (rs1 : XReg) (s : State) :
    (execStnGo n t rd rs1 s).Kept s := by
  unfold execStnGo
  simp
@[simp] theorem execLinkTraining_kept (flights : List ℕ) (deskew : ℕ) (locked : Bool) (s : State) :
    (execLinkTraining flights deskew locked s).Kept s := by
  unfold execLinkTraining
  simp
@[simp] theorem execDqsDriftTrack_kept (c : ChanId) (drift : ℤ) (s : State) :
    (execDqsDriftTrack c drift s).Kept s := by
  unfold execDqsDriftTrack
  simp
@[simp] theorem execIso9797Mac1Tdes_kept (n : LaneId) (e : EngId) (s : State) :
    (execIso9797Mac1Tdes n e s).Kept s := by
  unfold execIso9797Mac1Tdes
  simp
@[simp] theorem execKeyComponent_kept (n : MbxId) (c : KeyComponentChange) (s : State) :
    (execKeyComponent n c s).Kept s := by
  unfold execKeyComponent
  simp
@[simp] theorem execDramTrainingComplete_kept (found : List DimmInfo) (s : State) :
    (execDramTrainingComplete found s).Kept s := by
  unfold execDramTrainingComplete
  split
  · simp
  · dsimp only
    split
    · simp
    · refine (Res.kept_next _ _).2 ?_
      have h : ∀ (f : State → ℕ × DimmInfo → State) (l : List (ℕ × DimmInfo)) (u : State), (∀ (t : State) x, t.Still (f t x)) →
          s.Still u → (l.foldl f u).rom = s.rom ∧ (l.foldl f u).pending = s.pending
            ∧ (Memory.wf s.dram = true → Memory.wf (l.foldl f u).dram = true) := fun f l u hf hu => by
        obtain ⟨h1, h2, h3⟩ := hu.trans (State.Still.foldl hf l u)
        exact ⟨h1, h2, fun hw => h3 ▸ hw⟩
      refine h _ _ _ (fun t x => ?_) (.trans ⟨rfl, rfl, rfl⟩ (State.still_iff.2 (by simp)))
      exact .trans (State.still_iff.2 (by simp)) (State.ras_stays _ _)
@[simp] theorem execSymbolLockLoss_kept (_linkLane : Fin 16) (s : State) :
    (execSymbolLockLoss _linkLane s).Kept s := by
  unfold execSymbolLockLoss
  simp
@[simp] theorem execAtsTranslationResponse_kept (k : HdmaId) (granted : Bool) (host : ℕ) (s : State) :
    (execAtsTranslationResponse k granted host s).Kept s := by
  unfold execAtsTranslationResponse
  simp only [rom_ite, pending_ite, dram_ite, fst_ite, Res.kept_ite]
  (repeat' split) <;> simp
@[simp] theorem execDmactiveClear_kept (s : State) :
    (execDmactiveClear s).Kept s := by
  unfold execDmactiveClear
  simp
@[simp] theorem execHartBeatRead_kept (hart : HartId) (rd : XReg) (s : State) :
    (execHartBeatRead hart rd s).Kept s := by
  unfold execHartBeatRead
  simp
@[simp] theorem execBeatFrameMissing_kept (s : State) :
    (execBeatFrameMissing s).Kept s := by
  unfold execBeatFrameMissing
  simp
@[simp] theorem execThrEnd_kept (n : LaneId) (t : ThreadId) (s : State) :
    (execThrEnd n t s).Kept s := by
  unfold execThrEnd
  refine State.issue_kept _ _ _ _ _ fun x y => ?_
  (repeat' split) <;> simp
@[simp] theorem execTilePortTransferEnd_kept (n : LaneId) (h : Handle) (s : State) :
    (execTilePortTransferEnd n h s).Kept s := by
  unfold execTilePortTransferEnd
  simp only [rom_ite, pending_ite, dram_ite, fst_ite, Res.kept_ite]
  (repeat' split) <;> simp
@[simp] theorem execKerrrecRead_kept (hart : HartId) (rd : XReg) (s : State) :
    (execKerrrecRead hart rd s).Kept s := by
  unfold execKerrrecRead
  refine State.hartIssue_kept _ _ _ fun x y => ?_
  (repeat' split) <;> simp
@[simp] theorem execRootRotate_kept (n : MbxId) (c : RootChange) (s : State) :
    (execRootRotate n c s).Kept s := by
  unfold execRootRotate
  simp
@[simp] theorem execXferDone_kept (h : RhaxHdr) (n : LaneId) (cls : Fin 32) (sess : SessId) (s : State) :
    (execXferDone h n cls sess s).Kept s := by
  unfold execXferDone
  refine State.rhaxRx_kept _ _ _ _ _ fun x => ?_
  (repeat' split) <;> simp
@[simp] theorem execLaneHandover_kept (n : MbxId) (s : State) :
    (execLaneHandover n s).Kept s := by
  unfold execLaneHandover
  refine State.skeid_kept _ _ _ _ _ _ _ _ fun x => ?_
  dsimp only
  (repeat' split) <;> simp [State.still_iff]
@[simp] theorem execHmacSha512_kept (n : LaneId) (e : EngId) (s : State) :
    (execHmacSha512 n e s).Kept s := by
  unfold execHmacSha512
  simp
@[simp] theorem execResume_kept (n : LaneId) (s : State) :
    (execResume n s).Kept s := by
  unfold execResume
  simp
@[simp] theorem execRecordFrameReceive_kept (f : LinkFrame) (s : State) :
    (execRecordFrameReceive f s).Kept s := by
  unfold execRecordFrameReceive
  refine State.frameRx_kept _ _ _ _ fun x => ?_
  (repeat' split) <;> simp
@[simp] theorem execAvsbusFailure_kept (die : Fin 4) (s : State) :
    (execAvsbusFailure die s).Kept s := by
  unfold execAvsbusFailure
  simp
@[simp] theorem execEcdhComponentTransport_kept (n : LaneId) (e : EngId) (s : State) :
    (execEcdhComponentTransport n e s).Kept s := by
  unfold execEcdhComponentTransport
  simp
@[simp] theorem execRecordAccept_kept (k : RingId) (portWait : ℕ) (s : State) :
    (execRecordAccept k portWait s).Kept s := by
  unfold execRecordAccept
  simp only [rom_ite, pending_ite, dram_ite, fst_ite, Res.kept_ite]
  (repeat' split) <;> simp
@[simp] theorem execEngWait_kept (n : LaneId) (t : ThreadId) (rd : XReg) (rs1 : XReg) (s : State) :
    (execEngWait n t rd rs1 s).Kept s := by
  unfold execEngWait
  refine State.issue_kept _ _ _ _ _ fun x y => ?_
  dsimp only
  (repeat' split) <;> simp [State.still_iff]
@[simp] theorem execEd25519Sign_kept (n : LaneId) (e : EngId) (s : State) :
    (execEd25519Sign n e s).Kept s := by
  unfold execEd25519Sign
  simp
@[simp] theorem execPresenceDetectChange_kept (port : Fin 4) (sub : Fin 4) (present : Bool) (s : State) :
    (execPresenceDetectChange port sub present s).Kept s := by
  unfold execPresenceDetectChange
  simp
@[simp] theorem execDukptDeriveAes_kept (n : LaneId) (e : EngId) (s : State) :
    (execDukptDeriveAes n e s).Kept s := by
  unfold execDukptDeriveAes
  simp
@[simp] theorem execHmStep_kept (hart : HartId) (rd : XReg) (rs1 : XReg) (s : State) :
    (execHmStep hart rd rs1 s).Kept s := by
  unfold execHmStep
  refine State.hartIssue_kept _ _ _ fun x y => ?_
  (repeat' split) <;> simp
@[simp] theorem execTcpRstReceive_kept (i : SessId) (s : State) :
    (execTcpRstReceive i s).Kept s := by
  unfold execTcpRstReceive
  simp
@[simp] theorem execKsealWrite_kept (hart : HartId) (val : W32) (s : State) :
    (execKsealWrite hart val s).Kept s := by
  unfold execKsealWrite
  refine State.hartIssue_kept _ _ _ fun x y => ?_
  (repeat' split) <;> simp
@[simp] theorem execReassignReq_kept (agent : Agent) (val : W32) (s : State) :
    (execReassignReq agent val s).Kept s := by
  unfold execReassignReq
  simp
@[simp] theorem execApply_kept (agent : Agent) (n : LaneId) (s : State) :
    (execApply agent n s).Kept s := by
  unfold execApply
  simp
@[simp] theorem execArkDescriptorComplete_kept (k : ArkId) (s : State) :
    (execArkDescriptorComplete k s).Kept s := by
  unfold execArkDescriptorComplete
  simp only [rom_ite, pending_ite, dram_ite, fst_ite, Res.kept_ite]
  (repeat' split) <;> simp
@[simp] theorem execMessageShed_kept (n : LaneId) (h : Handle) (s : State) :
    (execMessageShed n h s).Kept s := by
  unfold execMessageShed
  simp only [rom_ite, pending_ite, dram_ite, fst_ite, Res.kept_ite]
  (repeat' split) <;> simp
@[simp] theorem execMailboxTimeout_kept (n : MbxId) (s : State) :
    (execMailboxTimeout n s).Kept s := by
  unfold execMailboxTimeout
  simp
@[simp] theorem execStylusInterrupt_kept (n : LaneId) (t : ThreadId) (s : State) :
    (execStylusInterrupt n t s).Kept s := by
  unfold execStylusInterrupt
  simp only [rom_ite, pending_ite, dram_ite, fst_ite, Res.kept_ite]
  (repeat' split) <;> simp
@[simp] theorem execDomain_kept (n : MbxId) (c : DomainChange) (s : State) :
    (execDomain n c s).Kept s := by
  unfold execDomain
  simp
@[simp] theorem execCellarerAppend_kept (event : ℕ) (code : Code) (body : Bytes) (s : State) :
    (execCellarerAppend event code body s).Kept s := by
  unfold execCellarerAppend
  simp
@[simp] theorem execWcopyDrop_kept (h : RhaxHdr) (s : State) :
    (execWcopyDrop h s).Kept s := by
  unfold execWcopyDrop
  simp
@[simp] theorem execHmField_kept (n : LaneId) (t : ThreadId) (rd : XReg) (rs1 : XReg) (rs2 : XReg) (s : State) :
    (execHmField n t rd rs1 rs2 s).Kept s := by
  unfold execHmField
  refine State.issue_kept _ _ _ _ _ fun x y => ?_
  (repeat' split) <;> simp
@[simp] theorem execSha3384_kept (n : LaneId) (e : EngId) (s : State) :
    (execSha3384 n e s).Kept s := by
  unfold execSha3384
  simp
@[simp] theorem execClrCtr_kept (agent : Agent) (n : LaneId) (s : State) :
    (execClrCtr agent n s).Kept s := by
  unfold execClrCtr
  simp
@[simp] theorem execGenerateSymmetricKey_kept (n : LaneId) (e : EngId) (s : State) :
    (execGenerateSymmetricKey n e s).Kept s := by
  unfold execGenerateSymmetricKey
  simp
@[simp] theorem execHmReplay_kept (n : MbxId) (s : State) :
    (execHmReplay n s).Kept s := by
  unfold execHmReplay
  simp
@[simp] theorem execVendorCounterRead_kept (hart : HartId) (rd : XReg) (csr : ℕ) (s : State) :
    (execVendorCounterRead hart rd csr s).Kept s := by
  unfold execVendorCounterRead
  refine State.hartIssue_kept _ _ _ fun x y => ?_
  dsimp only
  (repeat' split) <;> simp [State.still_iff]
@[simp] theorem execWitnessLeaseExpiry_kept (home : ℕ) (s : State) :
    (execWitnessLeaseExpiry home s).Kept s := by
  unfold execWitnessLeaseExpiry
  (repeat' split) <;> simp
@[simp] theorem execHealth_kept (n : MbxId) (s : State) :
    (execHealth n s).Kept s := by
  unfold execHealth
  refine State.skeid_kept _ _ _ _ _ _ _ _ fun x => ?_
  (repeat' split) <;> simp
@[simp] theorem execAesCmac_kept (n : LaneId) (e : EngId) (s : State) :
    (execAesCmac n e s).Kept s := by
  unfold execAesCmac
  simp
@[simp] theorem execShelfPostResume_kept (n : LaneId) (t : ThreadId) (s : State) :
    (execShelfPostResume n t s).Kept s := by
  unfold execShelfPostResume
  simp only [rom_ite, pending_ite, dram_ite, fst_ite, Res.kept_ite]
  (repeat' split) <;> simp
@[simp] theorem execBeatWait_kept (n : LaneId) (t : ThreadId) (s : State) :
    (execBeatWait n t s).Kept s := by
  unfold execBeatWait
  simp
@[simp] theorem execWritebackAck_kept (v : SliceId) (line : ℕ) (s : State) : (execWritebackAck v line s).Kept s := by
  unfold execWritebackAck
  have hmem : ∀ (t : State) f, t.Still (t.withMem f) := fun t f => State.still_iff.2 (by simp)
  have hc : ∀ (t : State) a b, t.Still (t.sliceCount a b) := fun t a b => State.still_iff.2 (by simp)
  have hq : ∀ (t : State) a b c d, t.Still (t.queueWrite a b c d) := fun t a b c d => State.still_iff.2 (by simp)
  have hd : ∀ (t : State) a, t.Still (t.cboDone a) := fun t a => State.still_iff.2 (by simp)
  have hcount : s.Still (if s.mem.evbuf.contains (v.val, line) then s.sliceCount v 63 else s) := .ite _ (hc _ _ _) (.refl s)
  obtain ⟨t, ht⟩ : ∃ t, t = if s.mem.evbuf.contains (v.val, line) then s.sliceCount v 63 else s := ⟨_, rfl⟩
  rw [← ht] at hcount
  dsimp only
  rw [← ht]
  refine (Res.kept_ite _ _ _ _).2 ?_
  split
  · refine State.Sound.next (State.Still.sound ((hcount.trans (.ite _ ?_ (.refl t))).trans
      (((hmem _ _).trans (hmem _ _)).trans (.foldl (fun u h => ?_) _ _))))
    · cases SMap.find line t.mem.dirty with
      | none => exact .refl t
      | some b => exact (hmem _ _).trans (hq _ _ _ _ _)
    · cases (u.hart h).wait with
      | cbo op l => exact .ite _ (hd _ _) (.refl u)
      | _ => exact .refl u
  · refine State.Sound.next (State.Still.sound ((hcount.trans (.ite _ ?_ (.refl t))).trans (hmem _ _)))
    cases SMap.find line t.mem.dirty with
    | none => exact .refl t
    | some b => exact (hmem _ _).trans (hq _ _ _ _ _)
@[simp] theorem execScrubResult_kept (c : ChanId) (s : State) :
    (execScrubResult c s).Kept s := by
  unfold execScrubResult
  simp only [rom_ite, pending_ite, dram_ite, fst_ite, Res.kept_ite]
  (repeat' split) <;> simp
@[simp] theorem execVersion_kept (n : MbxId) (s : State) :
    (execVersion n s).Kept s := by
  unfold execVersion
  simp
@[simp] theorem execXferTiles_kept (h : RhaxHdr) (body : Bytes) (s : State) :
    (execXferTiles h body s).Kept s := by
  unfold execXferTiles
  simp
@[simp] theorem execPartnerClose_kept (i : SessId) (s : State) :
    (execPartnerClose i s).Kept s := by
  unfold execPartnerClose
  simp
@[simp] theorem execCellarerReady_kept (s : State) :
    (execCellarerReady s).Kept s := by
  unfold execCellarerReady
  simp
@[simp] theorem execBusMasterEnableClear_kept (fn : Fin 65) (d3hot : Bool) (s : State) :
    (execBusMasterEnableClear fn d3hot s).Kept s := by
  unfold execBusMasterEnableClear
  simp
@[simp] theorem execMlDsa65Verify_kept (n : LaneId) (e : EngId) (s : State) :
    (execMlDsa65Verify n e s).Kept s := by
  unfold execMlDsa65Verify
  simp
@[simp] theorem execSnapFrameReceive_kept (f : LinkFrame) (b : SnapBody) (s : State) :
    (execSnapFrameReceive f b s).Kept s := by
  unfold execSnapFrameReceive
  refine State.frameRx_kept _ _ _ _ fun x => ?_
  (repeat' split) <;> simp
@[simp] theorem execEpochBoundary_kept (s : State) :
    (execEpochBoundary s).Kept s := by
  unfold execEpochBoundary
  simp
@[simp] theorem execEcdsaP256Verify_kept (n : LaneId) (e : EngId) (s : State) :
    (execEcdsaP256Verify n e s).Kept s := by
  unfold execEcdsaP256Verify
  simp
@[simp] theorem execCellarerWatchdogExpiry_kept (s : State) :
    (execCellarerWatchdogExpiry s).Kept s := by
  unfold execCellarerWatchdogExpiry
  simp
@[simp] theorem execGarretRecordWrite_kept (err : SlotErr) (s : State) :
    (execGarretRecordWrite err s).Kept s := by
  unfold execGarretRecordWrite
  simp only [rom_ite, pending_ite, dram_ite, fst_ite, Res.kept_ite]
  (repeat' split) <;> simp
@[simp] theorem execFwStage_kept (n : MbxId) (s : State) :
    (execFwStage n s).Kept s := by
  unfold execFwStage
  refine State.dual_kept _ _ _ _ _ _ _ fun x => ?_
  dsimp only
  (repeat' split) <;> simp [State.still_iff]
@[simp] theorem execHmacSha384_kept (n : LaneId) (e : EngId) (s : State) :
    (execHmacSha384 n e s).Kept s := by
  unfold execHmacSha384
  simp
@[simp] theorem execFunctionLevelReset_kept (fn : Fin 65) (s : State) :
    (execFunctionLevelReset fn s).Kept s := by
  unfold execFunctionLevelReset
  simp
@[simp] theorem execErrorWindowEnd_kept (c : ChanId) (s : State) :
    (execErrorWindowEnd c s).Kept s := by
  unfold execErrorWindowEnd
  simp
@[simp] theorem execEthernetFrameReceive_kept (q : PortId) (f : EthFrame) (s : State) :
    (execEthernetFrameReceive q f s).Kept s := by
  unfold execEthernetFrameReceive
  simp
@[simp] theorem execPcieLinkUp_kept (port : Fin 5) (sub : Fin 4) (speed : Fin 7) (width : Fin 3) (partnerFlit : Bool) (s : State) :
    (execPcieLinkUp port sub speed width partnerFlit s).Kept s := by
  unfold execPcieLinkUp
  (repeat' split) <;> simp
@[simp] theorem execRhaxRetryTimer_kept (dst : ℕ) (mseq : ℕ) (s : State) :
    (execRhaxRetryTimer dst mseq s).Kept s := by
  unfold execRhaxRetryTimer
  simp only [rom_ite, pending_ite, dram_ite, fst_ite, Res.kept_ite]
  (repeat' split) <;> simp
@[simp] theorem execSha256_kept (n : LaneId) (e : EngId) (s : State) :
    (execSha256 n e s).Kept s := by
  unfold execSha256
  simp
@[simp] theorem execStagedChangeApply_kept (s : State) :
    (execStagedChangeApply s).Kept s := by
  unfold execStagedChangeApply
  simp
end Sys2Proof.Machine
end

section
/-!
The operations that do write DRAM cells or lose them, first part: resets, queued writes, register writes, the Cellarer core and the lane cycle.
-/

namespace Sys2Proof.Machine
open Sys2Proof

/-! ### What writes the DRAM cells -/

theorem State.sound_wf {s t : State} (hr : t.rom = s.rom ∧ t.pending = s.pending) (h : Memory.wf t.dram = true) : s.Sound t :=
  ⟨hr.1, hr.2, fun _ => h⟩

/-- The reset main domain has no DRAM contents. -/
theorem State.mainReset_dram (s : State) : s.mainReset.dram = [] := by
  unfold State.mainReset
  dsimp only
  rw [dram_ite, State.applyHome_dram, ite_self, State.setReg_dram, State.setReg_dram]

theorem State.mainReset_sound (s : State) : s.Sound s.mainReset :=
  State.sound_wf s.mainReset_fixed (by rw [s.mainReset_dram]; rfl)

theorem State.fullReset_sound (s : State) : s.Sound s.fullReset :=
  State.sound_wf s.fullReset_fixed (by unfold State.fullReset; dsimp only; rw [s.mainReset_dram]; rfl)

theorem State.fullCold_sound (s : State) (straps : ℕ) (up : Bool) : s.Sound (s.fullCold straps up) := by
  obtain ⟨h1, h2, h3⟩ := s.fullReset_sound
  unfold State.fullCold
  generalize s.fullReset = t at h1 h2 h3 ⊢
  exact ⟨h1, h2, h3⟩

theorem State.holdMain_sound (s : State) (e c : ℕ) (trip : Bool) : s.Sound (s.holdMain e c trip) :=
  State.sound_wf (s.holdMain_fixed e c trip) (by unfold State.holdMain; rw [State.mainReset_dram]; rfl)

/-- An issued write changes the cells of its line alone. -/
theorem State.issueWrite_sound (s : State) (w : WEntry) : s.Sound (s.issueWrite w) := ⟨rfl, rfl, memWrite_wf _ _ _⟩

theorem State.warmReset_sound (s : State) (cause : ℕ) : s.Sound (s.warmReset cause) := by
  have hd : ∀ u : State, u.Still u.sealDue := fun u => State.still_iff.2 (by simp)
  have hw : ∀ (u : State) n, u.Still (u.warmLane n) := fun u n => State.still_iff.2 (by simp)
  have hl : ∀ u : State, u.Still ((u.linkFail 0x1409).setMode 3) := fun u => State.still_iff.2 (by simp)
  have ht : s.Sound { s with twin := { s.twin with lease := false, twinLease := false } } := ⟨rfl, rfl, id⟩
  have hm := State.mainReset_sound
  unfold State.warmReset
  dsimp only
  generalize hu : List.foldl (fun (s : State) w => s.issueWrite w) _ _ = u
  have hsu : s.Sound u := by
    rw [← hu]
    exact ht.trans (((hd _).trans (.foldl (fun t n => hw t n) _ _)).sound.trans (.foldl (fun t w => t.issueWrite_sound w) _ _))
  obtain ⟨h1, h2, h3⟩ := hsu.trans (hl u).sound
  generalize (u.linkFail 0x1409).setMode 3 = v at h1 h2 h3 ⊢
  obtain ⟨k1, k2, -⟩ := hm v
  generalize v.mainReset = w at k1 k2 ⊢
  exact ⟨k1.trans h1, k2.trans h2, h3⟩

theorem State.warmRequest_sound (s : State) (cause : ℕ) : s.Sound (s.warmRequest cause) := by
  unfold State.warmRequest
  exact .ite _ (.refl s) (.ite _ ⟨rfl, rfl, id⟩ (s.warmReset_sound cause))

theorem State.pwrWrite_sound (s : State) (a : Agent) (f : State → State) (hf : ∀ x : State, x.Sound (f x)) : (s.pwrWrite a f).Kept s :=
  State.pwrWrite_kept s a f fun x => ⟨(hf x).rom, (hf x).pending, (hf x).dram⟩

theorem execWarmReq_kept (g : Agent) (s : State) : (execWarmReq g s).Kept s :=
  State.pwrWrite_sound _ _ _ fun x => x.warmRequest_sound 3

theorem execPowerOff_kept (g : Agent) (s : State) : (execPowerOff g s).Kept s := by
  unfold execPowerOff
  refine State.pwrWrite_sound _ _ _ fun x => .ite _ ?_ (.refl x)
  have h : x.Sound (x.sealStore.mem.wq.foldl (fun s w => s.issueWrite w) x.sealStore) :=
    .trans (State.Still.sound (State.still_iff.2 (by simp))) (.foldl (fun t w => t.issueWrite_sound w) _ _)
  dsimp only
  generalize x.sealStore.mem.wq.foldl (fun s w => s.issueWrite w) x.sealStore = u at h ⊢
  exact ⟨h.rom, h.pending, h.dram⟩

theorem State.plainWrite_sound (s : State) (a v : ℕ) : s.Sound (s.plainWrite a v) := (State.still_iff.2 (by simp)).sound

theorem State.celWrite_sound (s : State) (ag o v : ℕ) : s.Sound (s.celWrite ag o v) := by
  have ht : ∀ (u : State) a, u.Sound (u.setTdp a) := fun u a => (State.still_iff.2 (by simp)).sound
  have hh : ∀ (u : State) a, u.Sound (u.hartReset a) := fun u a => (State.still_iff.2 (by simp)).sound
  unfold State.celWrite
  exact .ite _ (.refl s) (.ite _ (s.plainWrite_sound _ _) (.ite _ (.refl s) (.ite _
    (((State.Sound.ite _ (Res.st_sound (execWarmReq_kept _ _)) (.refl s)).trans
      (.ite _ (Res.st_sound (execSdReq_kept _ _)) (.refl _))).trans (.ite _ (Res.st_sound (execPowerOff_kept _ _)) (.refl _)))
    (.ite _ (ht _ _) (.ite _ (.ite _ (hh _ _) (.refl s)) (s.plainWrite_sound _ _))))))

theorem State.regWrite_sound (s : State) (ag a v : ℕ) : s.Sound (s.regWrite ag a v) := by
  have hm : ∀ (u : State) a b c d, u.Sound (u.mbxWrite a b c d) := fun u a b c d => (State.still_iff.2 (by simp)).sound
  have hl : ∀ (u : State) a b, u.Sound (u.lockWrite a b) := fun u a b => (State.still_iff.2 (by simp)).sound
  have hr : ∀ (u : State) a b, u.Sound (u.setReg a b) := fun u a b => (State.still_iff.2 (by simp)).sound
  have hi : ∀ (u : State) a b, u.Sound (u.imsicWrite a b) := fun u a b => (State.still_iff.2 (by simp)).sound
  have hc : ∀ (u : State) a b c d, u.Sound (u.laneCtlWrite a b c d) := fun u a b c d => (State.still_iff.2 (by simp)).sound
  have hs : ∀ (u : State) a b, u.Sound (u.reassign a b) := fun u a b => (State.still_iff.2 (by simp)).sound
  have ha : ∀ (u : State) a b c, u.Sound (u.arkWrite a b c) := fun u a b c => (State.still_iff.2 (by simp)).sound
  have hd : ∀ (u : State) a b c d, u.Sound (u.hdmaWrite a b c d) := fun u a b c d => (State.still_iff.2 (by simp)).sound
  have hx : ∀ (u : State) a b c, u.Sound (u.setMsixWord a b c) := fun u a b c => (State.still_iff.2 (by simp)).sound
  have ho : ∀ (u : State) a b, u.Sound (u.iommuWrite a b) := fun u a b => (State.still_iff.2 (by simp)).sound
  have hp := s.plainWrite_sound
  unfold State.regWrite
  exact .ite _ (hm _ _ _ _ _) (.ite _ (hl _ _ _) (.ite _ (s.celWrite_sound _ _ _) (.ite _ (.ite _ (hr _ _ _) (.refl s))
    (.ite _ (hp _ _) (.ite _ (s.dmcWrite_sound _ _ _ _) (.ite _ (hi _ _ _) (.ite _ (hp _ _) (.ite _ (hc _ _ _ _ _)
    (.ite _ (s.jrnWrite_sound _ _) (.ite _ (hs _ _ _) (.ite _ (hp _ _) (.ite _ (ha _ _ _ _) (.ite _ (hd _ _ _ _ _)
    (.ite _ (hx _ _ _ _) (.ite _ (ho _ _ _) (.ite _ (hp _ _) (.ite _ (Res.st_sound (execQuery_kept _ _ _ _)) (.refl s))))))))))))))))))

theorem State.ioWrite_sound (s : State) (ag a : ℕ) (b : Bytes) (vec : Bool) : s.Sound (s.ioWrite ag a b vec).1 := by
  have hl : ∀ (u : State) a b, u.Sound (u.modLane a b) := fun u a b => (State.still_iff.2 (by simp)).sound
  have hw := s.regWrite_sound
  obtain ⟨f, hf⟩ : ∃ f, f = State.ioWrite := ⟨_, rfl⟩
  obtain ⟨R, hR⟩ : ∃ f, f = State.region := ⟨_, rfl⟩
  obtain ⟨W, hW⟩ : ∃ f, f = State.regWrite := ⟨_, rfl⟩
  rw [← hf]
  delta State.ioWrite at hf
  rw [← hR, ← hW] at hf
  rw [← hW] at hw
  rw [hf]
  dsimp only
  cases R s a with
  | tile =>
    dsimp only
    split
    · exact .refl s
    · dsimp only
      exact hl s (tileSpot a).1 _
  | regs =>
    dsimp only
    split
    · exact .refl s
    · exact hw ag a _
  | _ => exact .refl s

/-- A write and what its outcome leads to, where both keep the state sound. -/
theorem State.accessIo_sound (s : State) (h : ℕ) (a : MemAccess) (va : ℕ) (ps : List (ℕ × ℕ)) : s.Sound (s.accessIo h a va ps) := by
  have hf : ∀ (u : State) a b c d, u.Sound (u.hartFault a b c d) := fun u a b c d => (State.still_iff.2 (by simp)).sound
  have hp : ∀ (u : State) a b c d, u.Sound (u.pciAccess a b c d) := fun u a b c d => (State.still_iff.2 (by simp)).sound
  have hm : ∀ (u : State) a b, u.Sound (u.modHart a b) := fun u a b => (State.still_iff.2 (by simp)).sound
  have hd : ∀ (u : State) a b c, u.Sound (u.dataFault a b c) := fun u a b c => (State.still_iff.2 (by simp)).sound
  have hr : ∀ (u : State) a, u.Sound (u.ras a) := fun u a => (u.ras_stays a).sound
  have hi : ∀ (u : State) a b c d, u.Sound (u.ioRead a b c d).1 := fun u a b c d => (State.still_iff.2 (by simp)).sound
  have hw := State.ioWrite_sound
  obtain ⟨f, hf'⟩ : ∃ f, f = State.accessIo := ⟨_, rfl⟩
  obtain ⟨W, hW⟩ : ∃ f, f = State.ioWrite := ⟨_, rfl⟩
  obtain ⟨R, hR⟩ : ∃ f, f = State.ioRead := ⟨_, rfl⟩
  obtain ⟨A, hA⟩ : ∃ f, f = State.ras := ⟨_, rfl⟩
  rw [← hf']
  delta State.accessIo at hf'
  rw [← hW, ← hR, ← hA] at hf'
  rw [← hW] at hw
  rw [← hR] at hi
  rw [← hA] at hr
  rw [hf']
  refine .ite _ (hf _ _ _ _ _) (.ite _ (hp _ _ _ _ _) (.ite _ (hf _ _ _ _ _) (.ite _ ?_ (.ite _ ((hr _ _).trans (hd _ _ _ _)) ?_))))
  · have k := hw s h (ps.headD (0, 0)).1 ((s.hart h).storeBytes a) a.vector
    generalize W s h (ps.headD (0, 0)).1 ((s.hart h).storeBytes a) a.vector = q at k ⊢
    obtain ⟨t, r⟩ := q
    cases r with
    | ok b => exact k.trans (hm _ _ _)
    | _ => exact hf _ _ _ _ _
  · dsimp only
    generalize hv : @ite State _ (instDecidableEqBool _ true) (A s _) s = v
    have hsv : s.Sound v := by rw [← hv]; exact .ite _ (hr _ _) (.refl s)
    have k := hi v h (ps.headD (0, 0)).1 (max 1 a.size) a.vector
    generalize R v h (ps.headD (0, 0)).1 (max 1 a.size) a.vector = q at k ⊢
    obtain ⟨t, r⟩ := q
    cases r with
    | ok b => exact (hsv.trans k).trans (hm _ _ _)
    | _ => exact hf _ _ _ _ _

theorem State.access_sound (s : State) (h : ℕ) (a : MemAccess) (again : Bool) : s.Sound (s.access h a again) := by
  have hf : ∀ (u : State) a b c d, u.Sound (u.hartFault a b c d) := fun u a b c d => (State.still_iff.2 (by simp)).sound
  have hp : ∀ (u : State) a b c, u.Sound (u.wrongPath a b c) := fun u a b c => (State.still_iff.2 (by simp)).sound
  have hx : ∀ (u : State) a b c d e, u.Sound (u.xlFault a b c d e) := fun u a b c d e => (State.still_iff.2 (by simp)).sound
  have hm : ∀ (u : State) a b, u.Sound (u.modHart a b) := fun u a b => (State.still_iff.2 (by simp)).sound
  have hs : ∀ (u : State) a b, u.Sound (u.setHart a b) := fun u a b => (State.still_iff.2 (by simp)).sound
  have hc : ∀ (u : State) a b c d e, u.Sound (u.cached a b c d e) := fun u a b c d e => (u.cached_stays a b c d e).sound
  have hi := State.accessIo_sound
  obtain ⟨f, hf'⟩ : ∃ f, f = State.access := ⟨_, rfl⟩
  obtain ⟨X, hX⟩ : ∃ f, f = State.xlRange := ⟨_, rfl⟩
  rw [← hf']
  delta State.access at hf'
  rw [← hX] at hf'
  rw [hf']
  refine .ite _ (hp _ _ _ _) (.ite _ (hf _ _ _ _ _) (.ite _ (hf _ _ _ _ _) ?_))
  dsimp only
  cases X s h _ _ _ with
  | bad c t g => exact hx _ _ _ _ _ _
  | ok ps =>
    dsimp only
    generalize hu : @ite State (again = true) _ s (s.modHart h _) = u
    have hsu : s.Sound u := by rw [← hu]; exact .ite _ (.refl s) (hm _ _ _)
    refine hsu.trans ?_
    exact .ite _ (.ite _ (hc _ _ _ _ _ _) (hf _ _ _ _ _)) (.ite _
      (.ite _ (.ite _ (hs _ _ _) (hc _ _ _ _ _ _)) (.ite _ (hf _ _ _ _ _) (hf _ _ _ _ _)))
      (.ite _ (hc _ _ _ _ _ _) (.ite _ (.ite _ (hf _ _ _ _ _) (hc _ _ _ _ _ _)) (hi _ _ _ _ _))))

theorem State.barAccess_sound (s : State) (fn bar a : ℕ) (r : BusOp) : s.Sound (s.barAccess fn bar a r).1 := by
  have hr : ∀ (u : State) a b c d, u.Sound (u.ioRead a b c d).1 := fun u a b c d => (State.still_iff.2 (by simp)).sound
  have hd : ∀ (u : State) a b c d, u.Sound (u.dramWriteBy a b c d) := fun u a b c d => (u.dramWriteBy_stays a b c d).sound
  have hw := State.ioWrite_sound
  obtain ⟨f, hf⟩ : ∃ f, f = State.barAccess := ⟨_, rfl⟩
  obtain ⟨W, hW⟩ : ∃ f, f = State.ioWrite := ⟨_, rfl⟩
  obtain ⟨R, hR⟩ : ∃ f, f = State.ioRead := ⟨_, rfl⟩
  obtain ⟨G, hG⟩ : ∃ f, f = State.region := ⟨_, rfl⟩
  rw [← hf]
  delta State.barAccess at hf
  rw [← hW, ← hR, ← hG] at hf
  rw [← hW] at hw
  rw [← hR] at hr
  rw [hf]
  dsimp only
  have other : ∀ (c d e : Prop) [Decidable c] [Decidable d] [Decidable e] (b : Bytes),
      s.Sound (if c then (s, IoAns.refused) else if d then (s, .ok []) else if e then W s 273 a b false else R s 273 a r.size false).1 :=
    fun c d e _ _ _ b => by
      split
      · exact .refl s
      · split
        · exact .refl s
        · split
          · exact hw _ _ _ _ _
          · exact hr _ _ _ _ _
  cases G s a with
  | dram =>
    dsimp only
    split
    · exact .refl s
    · split
      · exact hd _ _ _ _ _
      · exact .refl s
  | unassigned => exact .refl s
  | pcie => exact .refl s
  | _ => exact other _ _ _ _

theorem State.busWrite_sound (s : State) (a n : ℕ) (v : D64) : s.Sound (s.busWrite a n v) := by
  have hd : ∀ (u : State) a b c d, u.Sound (u.dramWriteBy a b c d) := fun u a b c d => (u.dramWriteBy_stays a b c d).sound
  have ha : ∀ (u : State) a b, u.Sound (u.answer a b) := fun u a b => (State.still_iff.2 (by simp)).sound
  have hx : ∀ u : State, u.Sound u.dmFail := fun u => (State.still_iff.2 (by simp)).sound
  have hw := State.ioWrite_sound
  unfold State.busWrite
  obtain ⟨W, hW⟩ : ∃ f, f = State.ioWrite := ⟨_, rfl⟩
  rw [← hW] at hw ⊢
  refine .ite _ (hx _) (.ite _ ((hd _ _ _ _ _).trans (ha _ _ _)) ?_)
  have k := hw s 275 a (Bytes.ofNatLE n v.toNat) false
  generalize W s 275 a (Bytes.ofNatLE n v.toNat) false = q at k ⊢
  obtain ⟨t, r⟩ := q
  cases r with
  | ok b => exact k.trans (ha _ _ _)
  | _ => exact k.trans (hx _)

theorem State.celStore_sound {s : State} {a : ℕ} {b : Bytes} {t : State} (h : s.celStore a b = some t) : s.Sound t := by
  have hd : ∀ (u : State) a b c d, u.Sound (u.dramWriteBy a b c d) := fun u a b c d => (u.dramWriteBy_stays a b c d).sound
  have hm : ∀ (u : State) f, u.Sound (u.modCel f) := fun u f => (State.still_iff.2 (by simp)).sound
  have hw := State.ioWrite_sound
  obtain ⟨f, hf⟩ : ∃ f, f = State.celStore := ⟨_, rfl⟩
  obtain ⟨W, hW⟩ : ∃ f, f = State.ioWrite := ⟨_, rfl⟩
  obtain ⟨S, hS⟩ : ∃ f, f = State.celSpot := ⟨_, rfl⟩
  rw [← hf] at h
  delta State.celStore at hf
  rw [← hW, ← hS] at hf
  rw [← hW] at hw
  rw [hf] at h
  dsimp only at h
  cases hs : S s a with
  | sram o => rw [hs] at h; cases h; exact hm _ _
  | phys pa =>
    rw [hs] at h
    dsimp only at h
    split at h
    · cases h; exact hd _ _ _ _ _
    · have k := hw s 272 pa b false
      generalize W s 272 pa b false = q at h k
      obtain ⟨u, r⟩ := q
      cases r with
      | ok b => cases h; exact k
      | _ => cases h
  | port => rw [hs] at h; cases h; exact .refl s
  | io => rw [hs] at h; cases h; exact .refl s
  | _ => rw [hs] at h; cases h

theorem State.celExec_sound (s : State) (i k : ℕ) : s.Sound (s.celExec i k) := by
  have hm : ∀ (u : State) f, u.Sound (u.modCel f) := fun u f => (State.still_iff.2 (by simp)).sound
  have hl : ∀ (u : State) a b, u.Sound (u.celLoad a b).1 := fun u a b => (u.celLoad_stays a b).sound
  have hs : ∀ (u : State) a b t, u.celStore a b = some t → u.Sound t := fun u a b t => State.celStore_sound
  obtain ⟨f, hf⟩ : ∃ f, f = State.celExec := ⟨_, rfl⟩
  obtain ⟨O, hO⟩ : ∃ f, f = Rv.op := ⟨_, rfl⟩
  obtain ⟨B, hB⟩ : ∃ f, f = Rv.branch := ⟨_, rfl⟩
  obtain ⟨A, hA⟩ : ∃ f, f = Cel.accOf := ⟨_, rfl⟩
  obtain ⟨L, hL⟩ : ∃ f, f = State.celLoad := ⟨_, rfl⟩
  obtain ⟨S, hS⟩ : ∃ f, f = State.celStore := ⟨_, rfl⟩
  obtain ⟨I, hI⟩ : ∃ f, f = Rv.opImm := ⟨_, rfl⟩
  obtain ⟨G, hG⟩ : ∃ f, f = isLong := ⟨_, rfl⟩
  rw [← hf]
  delta State.celExec at hf
  rw [← hO, ← hB, ← hA, ← hL, ← hS, ← hI, ← hG] at hf
  rw [← hL] at hl
  rw [← hS] at hs
  rw [hf]
  dsimp only
  split
  · exact hm _ _
  · exact hm _ _
  · exact hm _ _
  · exact .ite _ (hm _ _) (hm _ _)
  · cases B 32 (Rv.f3 i) _ _ with
    | none => exact hm _ _
    | some t => exact hm _ _
  · cases A s.cel i with
    | none => exact hm _ _
    | some p =>
      obtain ⟨a, z⟩ := p
      dsimp only
      generalize hq : @ite (State × Option Bytes) _ (instDecidableEqBool _ true) (L s a z) (s, none) = q
      have hsq : s.Sound q.1 := by
        rw [← hq]
        split
        · exact hl _ _ _
        · exact .refl s
      obtain ⟨u, v⟩ := q
      cases v with
      | none => exact hsq.trans (hm _ _)
      | some v => exact hsq.trans (hm _ _)
  · cases A s.cel i with
    | none => exact hm _ _
    | some p =>
      obtain ⟨a, z⟩ := p
      dsimp only
      generalize hq : @ite (Option State) _ (instDecidableEqBool _ true) (S s a _) none = q
      cases q with
      | none => exact hm _ _
      | some u =>
        have hsu : s.Sound u := by
          split at hq
          · exact hs _ _ _ _ hq
          · cases hq
        exact hsu.trans (hm _ _)
  · cases I 32 false i _ with
    | none => exact hm _ _
    | some v => exact hm _ _
  · generalize @ite (Option ℕ) _ (instDecidableEqBool _ true) _ _ = q
    cases q with
    | none => exact hm _ _
    | some v => exact hm _ _
  · exact hm _ _
  · exact .ite _ (hm _ _) (.ite _ (hm _ _) (.ite _ (hm _ _) (.ite _ (.ite _ (hm _ _) (hm _ _)) (.ite _ (hm _ _) (hm _ _)))))
  · exact hm _ _

theorem State.celCycle_sound (s : State) : s.Sound s.celCycle := by
  have hm : ∀ (u : State) f, u.Sound (u.modCel f) := fun u f => (State.still_iff.2 (by simp)).sound
  have he := State.celExec_sound
  unfold State.celCycle
  obtain ⟨F, hF⟩ : ∃ f, f = Cel.fetch := ⟨_, rfl⟩
  obtain ⟨E, hE⟩ : ∃ f, f = State.celExec := ⟨_, rfl⟩
  obtain ⟨W, hW⟩ : ∃ f, f = fullWord := ⟨_, rfl⟩
  obtain ⟨L, hL⟩ : ∃ f, f = State.celLong := ⟨_, rfl⟩
  rw [← hF, ← hE, ← hW, ← hL]
  rw [← hE] at he
  refine .ite _ (.refl s) ?_
  cases F s.cel with
  | none => exact .refl s
  | some f =>
    refine .ite _ ((hm _ _).trans (hm _ _)) ?_
    cases W false f with
    | none => exact (hm _ _).trans (hm _ _)
    | some i =>
      dsimp only
      split
      · exact hm _ _
      · exact (hm _ _).trans (he _ _ _)
      · cases L (s.modCel Cel.issue) i with
        | none => exact (hm _ _).trans (he _ _ _)
        | some n => exact (hm _ _).trans (hm _ _)

theorem State.tick_sound (s : State) : s.Sound s.tick := by
  have hp : ∀ u : State, u.Sound u.pauseFlush := fun u => (State.still_iff.2 (by simp)).sound
  have hc : ∀ (u : State) c b, u.Sound { u with laneClk := c, btm := b } := fun u c b => ⟨rfl, rfl, id⟩
  unfold State.tick
  exact ((State.Sound.ite _ s.celCycle_sound (.refl s)).trans (hc _ _ _)).trans (hp _)
end Sys2Proof.Machine
end

section
/-!
Second part: accesses of harts, of the debug module and of PCIe devices.
-/

namespace Sys2Proof.Machine
open Sys2Proof

theorem State.storeAt_sound (s : State) (h : ℕ) (ps : List (ℕ × ℕ)) (b : Bytes) : s.Sound (s.storeAt h ps b) :=
  (State.still_iff.2 (by simp)).sound

theorem State.dmMem_sound {s : State} {h a n : ℕ} {virt : Bool} {v : Option D64} {t : State} (e : s.dmMem h a n virt v = some t) :
    s.Sound t := by
  have ha : ∀ (u : State) a b, u.Sound (u.answer a b) := fun u a b => (State.still_iff.2 (by simp)).sound
  have hr : ∀ (u : State) a b c d, u.Sound (u.ioRead a b c d).1 := fun u a b c d => (State.still_iff.2 (by simp)).sound
  have hw := State.ioWrite_sound
  have hs := State.storeAt_sound
  obtain ⟨f, hf⟩ : ∃ f, f = State.dmMem := ⟨_, rfl⟩
  obtain ⟨W, hW⟩ : ∃ f, f = State.ioWrite := ⟨_, rfl⟩
  obtain ⟨R, hR⟩ : ∃ f, f = State.ioRead := ⟨_, rfl⟩
  obtain ⟨X, hX⟩ : ∃ f, f = State.xlRange := ⟨_, rfl⟩
  rw [← hf] at e
  delta State.dmMem at hf
  rw [← hW, ← hR, ← hX] at hf
  rw [← hW] at hw
  rw [← hR] at hr
  rw [hf] at e
  dsimp only at e
  split at e
  · cases e
  · generalize X _ h _ a n = q at e
    cases q with
    | bad c t g => cases e
    | ok ps =>
      dsimp only at e
      split at e
      · split at e
        · cases e
        · cases v with
          | none => cases e; exact ha _ _ _
          | some v => cases e; exact (hs _ _ _ _).trans (ha _ _ _)
      · split at e
        · cases e
        · cases v with
          | none =>
            dsimp only at e
            have k := hr s h (ps.headD (0, 0)).1 n false
            generalize R s h (ps.headD (0, 0)).1 n false = q at e k
            obtain ⟨u, r⟩ := q
            cases r with
            | ok b => cases e; exact k.trans (ha _ _ _)
            | _ => cases e
          | some v =>
            dsimp only at e
            have k := hw s h (ps.headD (0, 0)).1 (Bytes.ofNatLE n v.toNat) false
            generalize W s h (ps.headD (0, 0)).1 (Bytes.ofNatLE n v.toNat) false = q at e k
            obtain ⟨u, r⟩ := q
            cases r with
            | ok b => cases e; exact k.trans (ha _ _ _)
            | _ => cases e

theorem State.hyperAccess_sound (s : State) (h i : ℕ) (x : Hart) : s.Sound (s.hyperAccess h i x) := by
  have hill : ∀ (u : State) a, u.Sound (u.illegal a) := fun u a => (State.still_iff.2 (by simp)).sound
  have htrap : ∀ (u : State) a b c, u.Sound (u.hartTrap a b c) := fun u a b c => (State.still_iff.2 (by simp)).sound
  have hfault : ∀ (u : State) a b c d, u.Sound (u.hartFault a b c d) := fun u a b c d => (State.still_iff.2 (by simp)).sound
  have hdata : ∀ (u : State) a b c, u.Sound (u.dataFault a b c) := fun u a b c => (State.still_iff.2 (by simp)).sound
  have hm : ∀ (u : State) a b, u.Sound (u.modHart a b) := fun u a b => (State.still_iff.2 (by simp)).sound
  have hdrop : ∀ (u : State) a b, u.Sound (u.rasDropped a b) := fun u a b => (u.rasDropped_stays a b).sound
  have hio := State.accessIo_sound
  have hst := State.storeAt_sound
  obtain ⟨f, hf⟩ : ∃ f, f = State.hyperAccess := ⟨_, rfl⟩
  obtain ⟨X, hX⟩ : ∃ f, f = State.xlRangeAt := ⟨_, rfl⟩
  obtain ⟨D, hD⟩ : ∃ f, f = State.rasDropped := ⟨_, rfl⟩
  rw [← hf]
  delta State.hyperAccess at hf
  rw [← hX, ← hD] at hf
  rw [← hD] at hdrop
  rw [hf]
  refine .ite _ (hill _ _) (.ite _ (htrap _ _ _ _) (.ite _ (hill _ _) ?_))
  dsimp only
  cases X s x _ true _ _ _ with
  | bad c t g => exact hfault _ _ _ _ _
  | ok ps =>
    exact .ite _ (.ite _ (hfault _ _ _ _ _) (hio _ _ _ _ _)) (.ite _
      (.ite _ ((hdrop _ _ _).trans (hm _ _ _)) (hdata _ _ _ _)) (.ite _ ((hst _ _ _ _).trans (hm _ _ _)) (hm _ _ _)))

theorem State.vmem_sound (h i : ℕ) (store ff : Bool) (base : ℕ) : ∀ (es : List VElem) (s : State),
    s.Sound (State.vmem h i store ff base es s)
  | [], s => by
    unfold State.vmem
    exact (State.still_iff.2 (by simp)).sound
  | e :: es, s => by
    have ih := State.vmem_sound h i store ff base es
    have hm : ∀ (u : State) a b, u.Sound (u.modHart a b) := fun u a b => (State.still_iff.2 (by simp)).sound
    have hxl : ∀ (u : State) a b c d e, u.Sound (u.xlFault a b c d e) := fun u a b c d e => (State.still_iff.2 (by simp)).sound
    have hfault : ∀ (u : State) a b c d, u.Sound (u.hartFault a b c d) := fun u a b c d => (State.still_iff.2 (by simp)).sound
    have hdata : ∀ (u : State) a b c, u.Sound (u.dataFault a b c) := fun u a b c => (State.still_iff.2 (by simp)).sound
    have hcount : ∀ (u : State) a b, u.Sound (u.hcount a b) := fun u a b => (State.still_iff.2 (by simp)).sound
    have hob : ∀ (u : State) a b c d e, u.Sound (u.obtain a b c d e) := fun u a b c d e => (State.still_iff.2 (by simp)).sound
    have hdrop : ∀ (u : State) a b, u.Sound (u.rasDropped a b) := fun u a b => (u.rasDropped_stays a b).sound
    have hr : ∀ (u : State) a b c d, u.Sound (u.ioRead a b c d).1 := fun u a b c d => (State.still_iff.2 (by simp)).sound
    have hw := State.ioWrite_sound
    have hst := State.storeAt_sound
    unfold State.vmem
    obtain ⟨V, hV⟩ : ∃ f, f = State.vmem := ⟨_, rfl⟩
    obtain ⟨X, hX⟩ : ∃ f, f = State.velemXl := ⟨_, rfl⟩
    obtain ⟨D, hD⟩ : ∃ f, f = State.rasDropped := ⟨_, rfl⟩
    obtain ⟨W, hW⟩ : ∃ f, f = State.ioWrite := ⟨_, rfl⟩
    obtain ⟨R, hR⟩ : ∃ f, f = State.ioRead := ⟨_, rfl⟩
    rw [← hV, ← hX, ← hD, ← hW, ← hR]
    rw [← hV] at ih
    rw [← hD] at hdrop
    rw [← hW] at hw
    rw [← hR] at hr
    dsimp only
    cases X s h _ _ e.z with
    | bad c t g => exact .ite _ (hm _ _ _) ((hm _ _ _).trans (hxl _ _ _ _ _ _))
    | ok ps =>
      refine .ite _ (.ite _ (.ite _ ((hdrop _ _ _).trans (ih _)) (.ite _ (hm _ _ _) ((hm _ _ _).trans (hdata _ _ _ _))))
        (.ite _ ((hst _ _ _ _).trans (ih _)) (.trans (.foldl (fun u l => .ite _ (hob _ _ _ _ _ _) (.refl u)) _ _)
          ((hm _ _ _).trans (ih _))))) (.ite _ ?_ ?_)
      · have k := hw s h (ps.headD (0, 0)).1 (Bytes.ofNatLE e.z ((s.hart h).vget e.reg e.z e.k)) true
        generalize W s h (ps.headD (0, 0)).1 (Bytes.ofNatLE e.z ((s.hart h).vget e.reg e.z e.k)) true = q at k ⊢
        obtain ⟨u, r⟩ := q
        cases r with
        | ok b => exact (k.trans (hcount _ _ _)).trans (ih _)
        | _ => exact .ite _ (hm _ _ _) ((hm _ _ _).trans (hfault _ _ _ _ _))
      · have k := hr s h (ps.headD (0, 0)).1 e.z true
        generalize R s h (ps.headD (0, 0)).1 e.z true = q at k ⊢
        obtain ⟨u, r⟩ := q
        cases r with
        | ok b => exact (k.trans ((hcount _ _ _).trans (hm _ _ _))).trans (ih _)
        | _ => exact .ite _ (hm _ _ _) ((hm _ _ _).trans (hfault _ _ _ _ _))

theorem State.hartInsn_sound (s : State) (n : HartId) (i k : ℕ) : s.Sound (s.hartInsn n i k) := by
  have hm : ∀ (u : State) a b, u.Sound (u.modHart a b) := fun u a b => (State.still_iff.2 (by simp)).sound
  have hill : ∀ (u : State) a, u.Sound (u.illegal a) := fun u a => (State.still_iff.2 (by simp)).sound
  have hpf : ∀ (u : State) a b c, u.Sound (u.prefetchHint a b c) := fun u a b c => (State.still_iff.2 (by simp)).sound
  have hmisc : ∀ (u : State) a b c, u.Sound (u.miscMem a b c) := fun u a b c => (State.still_iff.2 (by simp)).sound
  have hsys : ∀ (u : State) a b c, u.Sound (u.sysInsn a b c) := fun u a b c => (State.still_iff.2 (by simp)).sound
  have hcsr : ∀ (u : State) a b c, u.Sound (u.csrInsn a b c) := fun u a b c => (State.still_iff.2 (by simp)).sound
  have hfp : ∀ (u : State) a b c, u.Sound (u.fpInsn a b c) := fun u a b c => (State.still_iff.2 (by simp)).sound
  have hvec : ∀ (u : State) a b c, u.Sound (u.vecInsn a b c) := fun u a b c => (State.still_iff.2 (by simp)).sound
  have hven : ∀ (u : State) a b, u.Sound (u.vendorInsn a b) := fun u a b => (State.still_iff.2 (by simp)).sound
  have hhyp := State.hyperAccess_sound
  have hvm := State.vmem_sound
  have hacc := State.access_sound
  obtain ⟨f, hf⟩ : ∃ f, f = State.hartInsn := ⟨_, rfl⟩
  obtain ⟨O, hO⟩ : ∃ f, f = Rv.op := ⟨_, rfl⟩
  obtain ⟨B, hB⟩ : ∃ f, f = Rv.branch := ⟨_, rfl⟩
  obtain ⟨A, hA⟩ : ∃ f, f = accessOf := ⟨_, rfl⟩
  obtain ⟨E, hE⟩ : ∃ f, f = Hart.velems := ⟨_, rfl⟩
  obtain ⟨I, hI⟩ : ∃ f, f = Rv.opImm := ⟨_, rfl⟩
  obtain ⟨J, hJ⟩ : ∃ f, f = Rv.opImm32 := ⟨_, rfl⟩
  obtain ⟨C, hC⟩ : ∃ f, f = Rv.base := ⟨_, rfl⟩
  obtain ⟨R, hR⟩ : ∃ f, f = Rv.bitR := ⟨_, rfl⟩
  obtain ⟨P, hP⟩ : ∃ f, f = Rv.op32 := ⟨_, rfl⟩
  obtain ⟨M, hM⟩ : ∃ f, f = State.modHart := ⟨_, rfl⟩
  rw [← hf]
  delta State.hartInsn at hf
  rw [← hO, ← hB, ← hA, ← hE, ← hI, ← hJ, ← hC, ← hR, ← hP, ← hM] at hf
  rw [← hM] at hm
  rw [hf]
  dsimp only
  refine (hm s n fun x => { x with ilen := k }).trans ?_
  generalize M s n (fun x => { x with ilen := k }) = s
  have vmem : ∀ (x : Hart) (store ff : Bool) a, s.Sound (if x.unitOff 9 = true then s.illegal n else match E x i with
      | none => s.illegal n
      | some es => State.vmem n i store ff a es s) := fun x store ff a => .ite _ (hill _ _) (by
    cases E x i with
    | none => exact hill _ _
    | some es => exact hvm _ _ _ _ _ _ _)
  have acc : ∀ (fp : Bool) (x : Hart), s.Sound (match A i with
      | some m => if (fp && x.unitOff 13) = true then s.illegal n else
        (if (fp && !decide (m.kind = .store)) = true then M (s.access n m false) n
          (fun y => if y.pc = BitVec.ofNat 64 x.pc.toNat then y else y.dirty 13) else s.access n m false)
      | none => s.illegal n) := fun fp x => by
    cases A i with
    | none => exact hill _ _
    | some m => exact .ite _ (hill _ _) (.ite _ ((hacc _ _ _ _).trans (hm _ _ _)) (hacc _ _ _ _))
  have put : ∀ v : Option ℕ, s.Sound (match v with
      | some v => M s n (fun x => x.ret (Rv.rd i) (BitVec.ofNat 64 v) k)
      | none => s.illegal n) := fun v => by
    cases v with
    | none => exact hill _ _
    | some v => exact hm _ _ _
  split
  · exact hm _ _ _
  · exact hm _ _ _
  · exact hm _ _ _
  · exact .ite _ (hill _ _) (hm _ _ _)
  · cases B 64 (Rv.f3 i) _ _ with
    | none => exact hill _ _
    | some t => exact hm _ _ _
  · exact acc false _
  · exact acc false _
  · exact acc false _
  · exact .ite _ (acc true _) (vmem _ _ _ _)
  · exact .ite _ (acc true _) (vmem _ _ _ _)
  · exact .ite _ (hpf _ _ _ _) (put _)
  · exact put _
  · exact put _
  · exact put _
  · exact hmisc _ _ _ _
  · exact .ite _ (hsys _ _ _ _) (.ite _ (hhyp _ _ _ _) (hcsr _ _ _ _))
  · exact hfp _ _ _ _
  · exact hfp _ _ _ _
  · exact hfp _ _ _ _
  · exact hfp _ _ _ _
  · exact hfp _ _ _ _
  · exact .ite _ (.ite _ (hill _ _) (hm _ _ _)) (hvec _ _ _ _)
  · exact hvec _ _ _ _
  · exact hven _ _ _
  · exact hven _ _ _
  · exact hill _ _

theorem State.hartWord_sound (s : State) (n : HartId) (w : ℕ) : s.Sound (s.hartWord n w) := by
  have hill : ∀ (u : State) a, u.Sound (u.illegal a) := fun u a => (State.still_iff.2 (by simp)).sound
  have hi := State.hartInsn_sound
  obtain ⟨f, hf⟩ : ∃ f, f = State.hartWord := ⟨_, rfl⟩
  obtain ⟨W, hW⟩ : ∃ f, f = wordInsn := ⟨_, rfl⟩
  rw [← hf]
  delta State.hartWord at hf
  rw [← hW] at hf
  rw [hf]
  dsimp only
  cases W w with
  | none => exact hill _ _
  | some p => exact hi _ _ _ _

theorem State.dmRun_sound (h : HartId) : ∀ (fuel i : ℕ) {s t : State}, s.dmRun h fuel i = some t → s.Sound t
  | 0, i, s, t, e => by
    unfold State.dmRun at e
    cases e
    exact (State.still_iff.2 (by simp)).sound
  | fuel + 1, i, s, t, e => by
    have ih := fun (s t : State) => @State.dmRun_sound h fuel (i + 1) s t
    have ha : ∀ (u : State) a b, u.Sound (u.answer a b) := fun u a b => (State.still_iff.2 (by simp)).sound
    have hx : ∀ u : State, u.Sound u.dmFail := fun u => (State.still_iff.2 (by simp)).sound
    have hs : ∀ (u : State) a b, u.Sound (u.setHart a b) := fun u a b => (State.still_iff.2 (by simp)).sound
    have hd : ∀ (u : State) a b, u.Sound (u.dmFetch a b) := fun u a b => (State.still_iff.2 (by simp)).sound
    have hw := State.hartWord_sound
    unfold State.dmRun at e
    dsimp only at e
    split at e
    · cases e; exact ha _ _ _
    · split at e
      · cases e; exact hx _
      · exact (((hs _ _ _).trans (hd _ _ _)).trans (hw _ _ _)).trans ((hs _ _ _).trans (ih _ _ e))

theorem State.inbound_sound (s : State) (port : ℕ) (r : PcieReq) (a : ℕ) : s.Sound (s.inbound port r a).1 := by
  have hd : ∀ (u : State) a b c d, u.Sound (u.dramWriteBy a b c d) := fun u a b c d => (u.dramWriteBy_stays a b c d).sound
  have hr : ∀ (u : State) a b c d, u.Sound (u.ioRead a b c d).1 := fun u a b c d => (State.still_iff.2 (by simp)).sound
  have hw := State.ioWrite_sound
  obtain ⟨f, hf⟩ : ∃ f, f = State.inbound := ⟨_, rfl⟩
  obtain ⟨W, hW⟩ : ∃ f, f = State.ioWrite := ⟨_, rfl⟩
  obtain ⟨R, hR⟩ : ∃ f, f = State.ioRead := ⟨_, rfl⟩
  obtain ⟨G, hG⟩ : ∃ f, f = State.region := ⟨_, rfl⟩
  rw [← hf]
  delta State.inbound at hf
  rw [← hW, ← hR, ← hG] at hf
  rw [← hW] at hw
  rw [← hR] at hr
  rw [hf]
  dsimp only
  split
  · split
    · exact hd _ _ _ _ _
    · exact .refl s
  · exact .refl s
  · exact .refl s
  · exact .refl s
  · split
    · exact .refl s
    · dsimp only
      split
      · exact hw _ _ _ _ _
      · exact hr _ _ _ _ _
end Sys2Proof.Machine
end

section
/-!
The commands that reach such an operation.
-/

namespace Sys2Proof.Machine
open Sys2Proof

theorem Res.Kept.ite {s : State} (c : Prop) [Decidable c] {a b : Res} (ha : a.Kept s) (hb : b.Kept s) :
    Res.Kept (if c then a else b) s := by
  split
  · exact ha
  · exact hb

/-- A queued write of the read line is issued first; then the line is decoded. -/
theorem State.dmcRead_sound (s : State) (c k requester : ℕ) (err : DramErr) : s.Sound (s.dmcRead c k requester err) := by
  have herr : ∀ (u : State) a b c d e, u.Sound (u.dmcDataErr a b c d e) := fun u a b c d e => (State.still_iff.2 (by simp)).sound
  have hcorr : ∀ (u : State) a b c d e f, u.Sound (u.dmcCorrected a b c d e f) := fun u a b c d e f => (State.still_iff.2 (by simp)).sound
  have hissue : ∀ (u : State) a b, u.Sound (u.dmcIssue a b) := fun u a b => (State.still_iff.2 (by simp)).sound
  have hinc : ∀ (u : State) a b, u.Sound (u.incReg a b) := fun u a b => (State.still_iff.2 (by simp)).sound
  have hact : ∀ (u : State) a b, u.Sound (u.activate a b) := fun u a b => (State.still_iff.2 (by simp)).sound
  have hhist : ∀ (u : State) a b, u.Sound (u.dmcHist a b) := fun u a b => (State.still_iff.2 (by simp)).sound
  have hmod : ∀ (u : State) a b, u.Sound (u.modDmc a b) := fun u a b => (State.still_iff.2 (by simp)).sound
  unfold State.dmcRead
  obtain ⟨D, hD⟩ : ∃ f, f = State.decodeAt := ⟨_, rfl⟩
  rw [← hD]
  refine .ite _ (herr _ _ _ _ _ _) ?_
  dsimp only
  have rest : ∀ u : State, s.Sound u → s.Sound (match D u c k err with
      | .clean b => u.modDmc c (fun d => { d with lastData := b, lastCode := 0 })
      | .poisoned => u.dmcDataErr c k 0x4002 requester 0
      | .corrected dev syms b => (u.dmcCorrected c k dev syms requester 0).modDmc c (fun d => { d with lastData := b, lastCode := 0 })
      | .uncorrectable => u.dmcDataErr c k 0x4001 requester 0) := fun u h => h.trans (by
    cases D u c k err with
    | clean b => exact hmod _ _ _
    | poisoned => exact herr _ _ _ _ _ _
    | corrected dev syms b => exact (hcorr _ _ _ _ _ _ _).trans (hmod _ _ _)
    | uncorrectable => exact herr _ _ _ _ _ _)
  cases s.mem.wq.find? (fun w => w.line = s.mem.lineAt c k) with
  | none => exact rest _ (.ite _ (((hact _ _ _).trans (hhist _ _ _)).trans (hhist _ _ _)) ((hact _ _ _).trans (hhist _ _ _)))
  | some w =>
    have hw := ((hissue s c w).trans (State.issueWrite_sound _ w)).trans (hinc _ (dmcBase c + 0x80) 1)
    exact rest _ (.ite _ (((hw.trans (hact _ _ _)).trans (hhist _ _ _)).trans (hhist _ _ _))
      ((hw.trans (hact _ _ _)).trans (hhist _ _ _)))

theorem State.remapLine_sound (s : State) (c k : ℕ) (err : DramErr) : s.Sound (s.remapLine c k err).1 := by
  have hmod : ∀ (u : State) a b, u.Sound (u.modDmc a b) := fun u a b => (State.still_iff.2 (by simp)).sound
  have hput : ∀ (u : State) a b p m, u.Sound { u with dram := memWrite u.dram a b, poison := p, mem := m } :=
    fun u a b p m => ⟨rfl, rfl, memWrite_wf _ _ _⟩
  have hras : ∀ (u : State) a, u.Sound (u.ras a) := fun u a => (u.ras_stays a).sound
  unfold State.remapLine
  obtain ⟨D, hD⟩ : ∃ f, f = State.decodeAt := ⟨_, rfl⟩
  obtain ⟨A, hA⟩ : ∃ f, f = State.ras := ⟨_, rfl⟩
  rw [← hD, ← hA]
  rw [← hA] at hras
  dsimp only
  split
  · exact .refl s
  · cases s.mem.wq.find? (fun w => w.line = s.mem.lineAt c k) with
    | none => exact ((hput _ _ _ _ _).trans (hmod _ _ _)).trans (hras _ _)
    | some w => exact (((State.issueWrite_sound _ _).trans (hput _ _ _ _ _)).trans (hmod _ _ _)).trans (hras _ _)

theorem execRemapInstall_kept (c : ChanId) (line : ℕ) (err : DramErr) (s : State) : (execRemapInstall c line err s).Kept s := by
  unfold execRemapInstall
  exact Res.Kept.ite _ (s.remapLine_sound c line err).next (State.Sound.refl s).next

theorem execMemRemap_kept (n : MbxId) (err : DramErr) (s : State) : (execMemRemap n err s).Kept s := by
  have hr := State.remapLine_sound
  unfold execMemRemap
  obtain ⟨R, hR⟩ : ∃ f, f = State.remapLine := ⟨_, rfl⟩
  rw [← hR] at hr ⊢
  refine State.skeid_kept _ _ _ _ _ _ _ _ fun x => ?_
  dsimp only
  split
  · exact ⟨rfl, rfl, id⟩
  · split
    · exact ⟨rfl, rfl, id⟩
    · have h := hr x (s.arg n 1) (x.arg n 2) err
      generalize R x (s.arg n 1) (x.arg n 2) err = q at h ⊢
      obtain ⟨t, o⟩ := q
      cases o with
      | none => exact ⟨h.rom, h.pending, h.dram⟩
      | some sp => exact ⟨h.rom, h.pending, h.dram⟩

theorem execStandbyPowerLoss_kept (s : State) : (execStandbyPowerLoss s).Kept s := by
  unfold execStandbyPowerLoss
  have h := s.fullReset_sound
  generalize s.fullReset = t at h ⊢
  exact State.Sound.next ⟨h.rom, h.pending, h.dram⟩

theorem execFullColdReset_kept (straps : BitVec 16) (up : Bool) (s : State) : (execFullColdReset straps up s).Kept s :=
  (s.fullCold_sound _ _).next

theorem execColdRstN_kept (n : ℕ) (straps : BitVec 16) (s : State) : (execColdRstN n straps s).Kept s := by
  unfold execColdRstN
  exact Res.Kept.ite _ (s.fullCold_sound _ _).next (State.Sound.refl s).next

theorem execReferenceClockLoss_kept (n : ℕ) (s : State) : (execReferenceClockLoss n s).Kept s := by
  unfold execReferenceClockLoss
  exact Res.Kept.ite _ (s.holdMain_sound _ _ _).next (State.Sound.refl s).next

theorem execThermalTrip_kept (temp : ℕ) (iod : Bool) (n : ℕ) (s : State) : (execThermalTrip temp iod n s).Kept s := by
  unfold execThermalTrip
  have h : ∀ p, s.Sound { s with pwr := p } := fun p => ⟨rfl, rfl, id⟩
  exact Res.Kept.ite _ ((h _).trans (State.holdMain_sound _ _ _ _)).next (h _).next

theorem execWarmRstN_kept (n : ℕ) (s : State) : (execWarmRstN n s).Kept s := by
  unfold execWarmRstN
  exact Res.Kept.ite _ (s.warmRequest_sound _).next (State.Sound.refl s).next

theorem execPwrgdFall_kept (s : State) : (execPwrgdFall s).Kept s := by
  unfold execPwrgdFall
  have h : ∀ p, s.Sound { s with pwr := p } := fun p => ⟨rfl, rfl, id⟩
  exact Res.Kept.ite _ (State.Sound.refl s).next ((h _).trans (State.mainReset_sound _)).next

theorem execMainColdStart_kept (straps : BitVec 16) (s : State) : (execMainColdStart straps s).Kept s := by
  unfold execMainColdStart
  have ht : ∀ u : State, u.Sound u.trainStart := fun u => (State.still_iff.2 (by simp)).sound
  have hr := State.mainReset_sound
  have hp : ∀ (u : State) p, u.Sound { u with pwr := p } := fun u p => ⟨rfl, rfl, id⟩
  have hs : ∀ (u : State) p q, u.Sound { u with pwr := p, str := q } := fun u p q => ⟨rfl, rfl, id⟩
  have hc : ∀ (u : State) c, u.Sound { u with cel := c } := fun u c => ⟨rfl, rfl, id⟩
  obtain ⟨M, hM⟩ : ∃ f, f = State.mainReset := ⟨_, rfl⟩
  rw [← hM] at hr ⊢
  exact Res.Kept.ite _ (State.Sound.refl s).next (Res.Kept.ite _
    (((((hp _ _).trans (hr _)).trans (hs _ _ _)).trans (hc _ _)).trans (ht _)).next
    (((hp _ _).trans (hr _)).trans (hs _ _ _)).next)

theorem execHartMemoryAccess_kept (hart : HartId) (a : MemAccess) (s : State) : (execHartMemoryAccess hart a s).Kept s := by
  have hgo : ∀ (u : State) (x : Hart), u.Sound ((u.setHart hart { x with ilen := 4 }).access hart a false) := fun u x =>
    .trans (State.still_iff.2 (by simp)).sound (State.access_sound _ _ _ _)
  unfold execHartMemoryAccess
  exact Res.Kept.ite _ (Res.Kept.ite _ (hgo _ _).next (State.Sound.refl s).next)
    (State.hartIssueOn_kept _ _ _ _ fun x y => ⟨(hgo x y).rom, (hgo x y).pending, (hgo x y).dram⟩)

theorem execHartInstruction_kept (hart : HartId) (insn : W32) (s : State) : (execHartInstruction hart insn s).Kept s := by
  have hw := State.hartWord_sound
  unfold execHartInstruction
  exact State.hartIssueOn_kept _ _ _ _ fun x _ => ⟨(hw x _ _).rom, (hw x _ _).pending, (hw x _ _).dram⟩

theorem execQueuedWriteIssue_kept (c : ChanId) (tries : Fin 5) (s : State) : (execQueuedWriteIssue c tries s).Kept s := by
  have hissue : ∀ (u : State) a b, u.Sound (u.dmcIssue a b) := fun u a b => (State.still_iff.2 (by simp)).sound
  have hev : ∀ (u : State) a b, u.Sound (u.dmcEvent a b) := fun u a b => (State.still_iff.2 (by simp)).sound
  have hmem : ∀ (u : State) m, u.Sound { u with mem := m } := fun u m => ⟨rfl, rfl, id⟩
  have hlist : ∀ (u : State) a b c d e f, u.Sound (u.listLine a b c d e f) := fun u a b c d e f => (State.still_iff.2 (by simp)).sound
  have hmod : ∀ (u : State) a b, u.Sound (u.modDmc a b) := fun u a b => (State.still_iff.2 (by simp)).sound
  unfold execQueuedWriteIssue
  obtain ⟨N, hN⟩ : ∃ f, f = State.nextWrite := ⟨_, rfl⟩
  rw [← hN]
  refine Res.Kept.ite _ (State.Sound.refl s).next ?_
  cases N s c with
  | none => exact (State.Sound.refl s).next
  | some w => exact State.Sound.next ((((hissue _ _ _).trans (hev _ _ _)).trans
      (.ite _ ((hmem _ _).trans (hlist _ _ _ _ _ _ _)) (State.issueWrite_sound _ _))).trans (hmod _ _ _))

theorem execMemoryRead_kept (c : ChanId) (line : ℕ) (g : Agent) (err : DramErr) (last : Bool) (s : State) :
    (execMemoryRead c line g err last s).Kept s := by
  have hpay : ∀ (u : State) a b, u.Sound (u.payOwed a b) := fun u a b => (State.still_iff.2 (by simp)).sound
  have hset : ∀ (u : State) a b, u.Sound (u.setDmc a b) := fun u a b => (State.still_iff.2 (by simp)).sound
  have hgo : s.Sound (if last then (s.dmcRead c line g err).payOwed c ((s.dmc c).rankOf line) else s.dmcRead c line g err) :=
    .ite _ ((s.dmcRead_sound _ _ _ _).trans (hpay _ _ _)) (s.dmcRead_sound _ _ _ _)
  unfold execMemoryRead
  dsimp only
  split
  · exact hgo.next
  · exact hgo.next
  · exact Res.Kept.ite _ (hset _ _ _).next (State.Sound.refl s).next
  · exact (hset _ _ _).next
  · exact (State.Sound.refl s).next

theorem execFreqChangeComplete_kept (c : ChanId) (s : State) : (execFreqChangeComplete c s).Kept s := by
  have hset : ∀ (u : State) a b, u.Sound (u.setDmc a b) := fun u a b => (State.still_iff.2 (by simp)).sound
  have hirq : ∀ (u : State) a b, u.Sound (u.raiseIrq a b) := fun u a b => (State.still_iff.2 (by simp)).sound
  have hmod : ∀ (u : State) a b, u.Sound (u.modDmc a b) := fun u a b => (State.still_iff.2 (by simp)).sound
  unfold execFreqChangeComplete
  exact Res.Kept.ite _ (State.Sound.refl s).next (State.Sound.next ((((hset _ _ _).trans (hirq _ _ _)).trans
    (.foldl (fun t r => t.dmcRead_sound _ _ _ _) _ _)).trans (hmod _ _ _)))

theorem execRegisterWrite_kept (g : Agent) (a n : ℕ) (v : W32) (u : HwUpdate) (s : State) :
    (execRegisterWrite g a n v u s).Kept s := by
  have hend : ∀ (u : State) a b c d, u.Sound (u.ioEnd a b c d) := fun u a b c d => (State.still_iff.2 (by simp)).sound
  have hhw : ∀ (u : State) a b c, u.Sound (u.hwUpdate a b c) := fun u a b c => (State.still_iff.2 (by simp)).sound
  have hw := State.ioWrite_sound
  unfold execRegisterWrite
  obtain ⟨W, hW⟩ : ∃ f, f = State.ioWrite := ⟨_, rfl⟩
  obtain ⟨G, hG⟩ : ∃ f, f = State.region := ⟨_, rfl⟩
  rw [← hW, ← hG]
  rw [← hW] at hw
  have rest : ∀ q : State × IoAns, s.Sound q.1 → Res.Kept (.next ((q.1.ioEnd g a true q.2).hwUpdate a u (match q.2 with
      | .ok _ => true
      | _ => false))) s := fun q h => ((h.trans (hend _ _ _ _ _)).trans (hhw _ _ _ _)).next
  by_cases hc : G s a = .regs
  · rw [if_pos hc]
    exact rest _ (hw _ _ _ _ _)
  · rw [if_neg hc]
    exact rest (s, .unassigned) (.refl s)

theorem execPcieInboundRequest_kept (port : Fin 5) (r : PcieReq) (s : State) : (execPcieInboundRequest port r s).Kept s := by
  have hcomp : ∀ (u : State) a b c d, u.Sound (u.complete a b c d) := fun u a b c d => (State.still_iff.2 (by simp)).sound
  have herr : ∀ (u : State) a b c, u.Sound (u.inboundErr a b c) := fun u a b c => (State.still_iff.2 (by simp)).sound
  have hport : ∀ (u : State) a b, u.Sound (u.portErr a b) := fun u a b => (State.still_iff.2 (by simp)).sound
  have hiommu : ∀ (u : State) a b c d, u.Sound (u.iommu a b c d).1 := fun u a b c d => (State.still_iff.2 (by simp)).sound
  have hin := State.inbound_sound
  unfold execPcieInboundRequest
  obtain ⟨I, hI⟩ : ∃ f, f = State.iommu := ⟨_, rfl⟩
  obtain ⟨N, hN⟩ : ∃ f, f = State.inbound := ⟨_, rfl⟩
  rw [← hI, ← hN]
  rw [← hI] at hiommu
  rw [← hN] at hin
  refine Res.Kept.ite _ (State.Sound.refl s).next ?_
  have k := hiommu s r.rid r.aty r.addr r.write
  generalize I s r.rid r.aty r.addr r.write = q at k ⊢
  obtain ⟨t, o⟩ := q
  cases o with
  | go a =>
    dsimp only
    have l := hin t port r a
    generalize N t port r a = q at l ⊢
    exact State.Sound.next (((k.trans l).trans (herr _ _ _ _)).trans (hcomp _ _ _ _ _))
  | ur => exact State.Sound.next ((k.trans (hport _ _ _)).trans (hcomp _ _ _ _ _))
  | ca => exact State.Sound.next ((k.trans (hport _ _ _)).trans (hcomp _ _ _ _ _))
  | xlat v => exact State.Sound.next (k.trans (hcomp _ _ _ _ _))

theorem execHostBarAccess_kept (fn : Fin 65) (bar : Fin 8) (off : ℕ) (r : BusOp) (s : State) :
    (execHostBarAccess fn bar off r s).Kept s := by
  have hcomp : ∀ (u : State) a b c d, u.Sound (u.complete a b c d) := fun u a b c d => (State.still_iff.2 (by simp)).sound
  have hans : ∀ (u : State) a b, u.Sound (u.answer a b) := fun u a b => (State.still_iff.2 (by simp)).sound
  have hend : ∀ (u : State) a b c d, u.Sound (u.ioEnd a b c d) := fun u a b c d => (State.still_iff.2 (by simp)).sound
  have herr : ∀ (u : State) a b, u.Sound (u.cardErr a b) := fun u a b => (State.still_iff.2 (by simp)).sound
  have hvf : ∀ (u : State) a b c, u.Sound (u.vfMsix a b c).1 := fun u a b c => (State.still_iff.2 (by simp)).sound
  have hbar := State.barAccess_sound
  unfold execHostBarAccess
  obtain ⟨B, hB⟩ : ∃ f, f = State.barAccess := ⟨_, rfl⟩
  obtain ⟨M, hM⟩ : ∃ f, f = State.barMap := ⟨_, rfl⟩
  obtain ⟨V, hV⟩ : ∃ f, f = State.vfMsix := ⟨_, rfl⟩
  rw [← hB, ← hM, ← hV]
  rw [← hB] at hbar
  rw [← hV] at hvf
  refine Res.Kept.ite _ (State.Sound.refl s).next (Res.Kept.ite _ (hcomp _ _ _ _ _).next ?_)
  dsimp only
  have rest : ∀ (q : State × IoAns) (ep : Bool), s.Sound q.1 → Res.Kept (.next (State.complete (match q.2 with
      | .ok _ => (match q.2 with
        | .ok b => if r.write then q.1 else q.1.answer 273 (Bytes.toNatLE b)
        | _ => q.1.ioEnd 273 0 r.write q.2)
      | _ => State.cardErr (match q.2 with
        | .ok b => if r.write then q.1 else q.1.answer 273 (Bytes.toNatLE b)
        | _ => q.1.ioEnd 273 0 r.write q.2) fn 0) fn r.write q.2 ep)) s := fun q ep h => by
    obtain ⟨t, o⟩ := q
    cases o with
    | ok b => exact State.Sound.next ((h.trans (.ite _ (.refl t) (hans _ _ _))).trans (hcomp _ _ _ _ _))
    | _ => exact State.Sound.next (((h.trans (hend _ _ _ _ _)).trans (herr _ _ _)).trans (hcomp _ _ _ _ _))
  by_cases hc : fn.val ≠ 0 ∧ bar.val = 0 ∧ 0x800 ≤ off ∧ off < 0x1000
  · rw [if_pos hc]
    exact rest _ _ (hvf _ _ _ _)
  · rw [if_neg hc]
    cases M s fn bar off with
    | none => exact rest (s, .unassigned) _ (.refl s)
    | some a => exact rest _ _ (hbar _ _ _ _ _)

theorem execDebugCommand_kept (cmd : DebugCmd) (s : State) : (execDebugCommand cmd s).Kept s := by
  have hfail : ∀ u : State, u.Sound u.dmFail := fun u => (State.still_iff.2 (by simp)).sound
  have hans : ∀ (u : State) a b, u.Sound (u.answer a b) := fun u a b => (State.still_iff.2 (by simp)).sound
  have hhalt : ∀ (u : State) a, u.Sound (u.dmHalts a) := fun u a => (State.still_iff.2 (by simp)).sound
  have hresume : ∀ (u : State) a, u.Sound (u.dmResumes a) := fun u a => (State.still_iff.2 (by simp)).sound
  have hreset : ∀ (u : State) a, u.Sound (u.hartReset a) := fun u a => (State.still_iff.2 (by simp)).sound
  have hbusR : ∀ (u : State) a b, u.Sound (u.busRead a b) := fun u a b => (u.busRead_stays a b).sound
  have hbusW := State.busWrite_sound
  have hpwr : ∀ (u : State) p, u.Sound { u with pwr := p } := fun u p => ⟨rfl, rfl, id⟩
  have honly : ∀ (u : State) (c : Prop) [Decidable c] (r : Option State), (∀ t, r = some t → u.Sound t) →
      u.Sound (if c then r.getD u.dmFail else u.dmFail) := fun u c _ r h => .ite _ (by
    cases r with
    | none => exact hfail u
    | some t => exact h t rfl) (hfail u)
  have hread : ∀ (u : State) h r t, (u.dmRead h r).map (fun p => p.1.answer 275 p.2) = some t → u.Sound t := fun u h r t e => by
    obtain ⟨⟨v, w⟩, hv, rfl⟩ := Option.map_eq_some_iff.1 e
    exact (State.still_iff.2 (State.dmRead_still hv)).sound.trans (hans _ _ _)
  have hwrite : ∀ (u : State) h r v t, (u.dmWrite h r v).map (fun t => t.answer 275 0) = some t → u.Sound t := fun u h r v t e => by
    obtain ⟨w, hv, rfl⟩ := Option.map_eq_some_iff.1 e
    exact (State.still_iff.2 (State.dmWrite_still hv)).sound.trans (hans _ _ _)
  have hmem : ∀ (u : State) h a n b v t, u.dmMem h a n b v = some t → u.Sound t := fun u h a n b v t => State.dmMem_sound
  have hrun : ∀ (u : State) h n i t, u.dmRun h n i = some t → u.Sound t := fun u h n i t => State.dmRun_sound h n i
  have hdeny : s.Sound s.dmDeny := (State.still_iff.2 (by simp)).sound
  unfold execDebugCommand
  obtain ⟨R, hR⟩ : ∃ f, f = State.dmRead := ⟨_, rfl⟩
  obtain ⟨W, hW⟩ : ∃ f, f = State.dmWrite := ⟨_, rfl⟩
  obtain ⟨Y, hY⟩ : ∃ f, f = State.dmMem := ⟨_, rfl⟩
  obtain ⟨N, hN⟩ : ∃ f, f = State.dmRun := ⟨_, rfl⟩
  rw [← hR, ← hW, ← hY, ← hN]
  rw [← hR] at hread
  rw [← hW] at hwrite
  rw [← hY] at hmem
  rw [← hN] at hrun
  refine Res.Kept.ite _ hdeny.next (State.Sound.next ((hpwr s { s.pwr with dmactive := true }).trans ?_))
  cases cmd with
  | halt h => exact hhalt _ _
  | resume h => exact hresume _ _
  | hartReset h => exact .ite _ (hreset _ _) (.refl _)
  | readReg h r => exact honly _ _ _ (hread _ _ _)
  | writeReg h r v => exact honly _ _ _ (hwrite _ _ _ _)
  | sysbusRead a n => exact hbusR _ _ _
  | sysbusWrite a n v => exact hbusW _ _ _ _
  | status => exact hans _ _ _
  | haltMask hs => exact hhalt _ _
  | resumeMask hs => exact hresume _ _
  | group h g r => exact hpwr _ _
  | readMem h a n virt => exact honly _ _ _ (hmem _ _ _ _ _ _)
  | writeMem h a n virt v => exact honly _ _ _ (hmem _ _ _ _ _ _)
  | progbuf i w => exact hpwr _ _
  | runBuffer h => exact honly _ _ _ (hrun _ _ _ _)

theorem execCacheFill_kept (hart : HartId) (line : ℕ) (prefetch dataError : Bool) (s : State) :
    (execCacheFill hart line prefetch dataError s).Kept s := by
  have hmem : ∀ (u : State) f, u.Sound (u.withMem f) := fun u f => (State.still_iff.2 (by simp)).sound
  have hsnoop : ∀ (u : State) a b, u.Sound (u.snoopRead a b) := fun u a b => (State.still_iff.2 (by simp)).sound
  have hinst : ∀ (u : State) a b c d, u.Sound (u.l2Install a b c d) := fun u a b c d => (State.still_iff.2 (by simp)).sound
  have hob : ∀ (u : State) a b c d e, u.Sound (u.obtain a b c d e) := fun u a b c d e => (State.still_iff.2 (by simp)).sound
  have hmod : ∀ (u : State) a b, u.Sound (u.modHart a b) := fun u a b => (State.still_iff.2 (by simp)).sound
  have herr : ∀ (u : State) a b c d, u.Sound (u.accError a b c d) := fun u a b c d => (State.still_iff.2 (by simp)).sound
  have hcbo : ∀ (u : State) a b c, u.Sound (u.cboAct a b c) := fun u a b c => (State.still_iff.2 (by simp)).sound
  have hacc := State.access_sound
  unfold execCacheFill
  dsimp only
  have rest : ∀ (u : State) (o : Option MemAccess) (c : Prop) [Decidable c], s.Sound u →
      Res.Kept (.next (match (u.hart hart).wait, o with
        | .line va, some a =>
          if c then (u.modHart hart (fun x => { x with wait := .none })).accError hart a va line
          else (u.modHart hart (fun x => { x with wait := .none })).access hart a true
        | .cbo op l, _ =>
          if l = line ∧ !u.mem.cbo.contains (hart.val, l) then (u.modHart hart (fun x => { x with wait := .none })).cboAct hart op l else u
        | _, _ => u)) s := fun u o c _ h => State.Sound.next (h.trans (by
    split
    · exact .ite _ ((hmod _ _ _).trans (herr _ _ _ _ _)) ((hmod _ _ _).trans (hacc _ _ _ _))
    · exact .ite _ ((hmod _ _ _).trans (hcbo _ _ _ _)) (.refl u)
    · exact .refl u))
  refine Res.Kept.ite _ (hmem s _).next (rest _ _ _ ((hmem s _).trans (.ite _ (.refl _)
    (.ite _ (.ite _ (.refl _) ((hsnoop _ _ _).trans (hinst _ _ _ _ _))) (hob _ _ _ _ _ _)))))
end Sys2Proof.Machine
end

section
/-!
The boot ROM, the queue and the form of DRAM under every step: the statements of O4 and O5.
-/

namespace Sys2Proof.Machine
open Sys2Proof

/-- Every command keeps the boot ROM, the queue and the canonical form of DRAM. -/
theorem exec_kept (c : Instr) (s : State) : Res.Kept (exec c s) s := by
  cases c with
  | registerWrite agent addr size val hw => exact execRegisterWrite_kept agent addr size val hw s
  | registerReadClear agent addr events => exact execRegisterReadClear_kept agent addr events s
  | lowWordRead agent addr => exact execLowWordRead_kept agent addr s
  | beatBoundary offset => exact execBeatBoundary_kept offset s
  | epochBoundary => exact execEpochBoundary_kept s
  | decisionTimeout lane h => exact execDecisionTimeout_kept lane h s
  | messageShed lane h => exact execMessageShed_kept lane h s
  | beatOverrun lane t => exact execBeatOverrun_kept lane t s
  | beatTimerStart => exact execBeatTimerStart_kept s
  | beatTimerRestart => exact execBeatTimerRestart_kept s
  | drain agent lane v => exact execDrain_kept agent lane v s
  | admitEn agent lane v => exact execAdmitEn_kept agent lane v s
  | resetReq agent lane => exact execResetReq_kept agent lane s
  | laneResetClear lane => exact execLaneResetClear_kept lane s
  | apply agent lane => exact execApply_kept agent lane s
  | hshConsWrite agent lane k val => exact execHshConsWrite_kept agent lane k val s
  | rshProdWrite agent lane k val => exact execRshProdWrite_kept agent lane k val s
  | decisionCollect lane k => exact execDecisionCollect_kept lane k s
  | tileAlloc lane t rd rs1 => exact execTileAlloc_kept lane t rd rs1 s
  | tileFree lane t rs1 => exact execTileFree_kept lane t rs1 s
  | tileSeal lane t rs1 rs2 => exact execTileSeal_kept lane t rs1 rs2 s
  | tileDigest lane t rd rs1 => exact execTileDigest_kept lane t rd rs1 s
  | tileDigestComplete lane => exact execTileDigestComplete_kept lane s
  | tileRelease lane t rd rs1 => exact execTileRelease_kept lane t rd rs1 s
  | hmField lane t rd rs1 rs2 => exact execHmField_kept lane t rd rs1 rs2 s
  | hmDerive lane t rd rs1 rs2 => exact execHmDerive_kept lane t rd rs1 rs2 s
  | stnGo lane t rd rs1 => exact execStnGo_kept lane t rd rs1 s
  | burGo lane t rd rs1 => exact execBurGo_kept lane t rd rs1 s
  | burSkip lane t rs1 => exact execBurSkip_kept lane t rs1 s
  | engWait lane t rd rs1 => exact execEngWait_kept lane t rd rs1 s
  | engPoll lane t rd rs1 => exact execEngPoll_kept lane t rd rs1 s
  | shelfPost lane t rd rs1 rs2 => exact execShelfPost_kept lane t rd rs1 rs2 s
  | shelfPostResume lane t => exact execShelfPostResume_kept lane t s
  | jrnPut lane t rd rs1 => exact execJrnPut_kept lane t rd rs1 s
  | beatRead lane t rd => exact execBeatRead_kept lane t rd s
  | beatReadh lane t rd => exact execBeatReadh_kept lane t rd s
  | beatLeft lane t rd => exact execBeatLeft_kept lane t rd s
  | beatWait lane t => exact execBeatWait_kept lane t s
  | thrEnd lane t => exact execThrEnd_kept lane t s
  | thrSignal lane t rs1 => exact execThrSignal_kept lane t rs1 s
  | stylusLongOperation lane t => exact execStylusLongOperation_kept lane t s
  | stylusSplitAccess lane t => exact execStylusSplitAccess_kept lane t s
  | stylusDramLoadReturn lane t dataError => exact execStylusDramLoadReturn_kept lane t dataError s
  | stylusInterrupt lane t => exact execStylusInterrupt_kept lane t s
  | stylusException lane t cause tval => exact execStylusException_kept lane t cause tval s
  | translate lane => exact execTranslate_kept lane s
  | validate lane => exact execValidate_kept lane s
  | resume lane => exact execResume_kept lane s
  | abort lane => exact execAbort_kept lane s
  | stnRunEnd lane => exact execStnRunEnd_kept lane s
  | ecdsaP256Verify lane e => exact execEcdsaP256Verify_kept lane e s
  | ecdsaP256Sign lane e => exact execEcdsaP256Sign_kept lane e s
  | ecdsaP384Verify lane e => exact execEcdsaP384Verify_kept lane e s
  | ecdsaP384Sign lane e => exact execEcdsaP384Sign_kept lane e s
  | ed25519Verify lane e => exact execEd25519Verify_kept lane e s
  | ed25519Sign lane e => exact execEd25519Sign_kept lane e s
  | ed25519BatchVerify lane e => exact execEd25519BatchVerify_kept lane e s
  | mlDsa44Verify lane e => exact execMlDsa44Verify_kept lane e s
  | mlDsa65Verify lane e => exact execMlDsa65Verify_kept lane e s
  | mlDsa87Verify lane e => exact execMlDsa87Verify_kept lane e s
  | mlDsa44Sign lane e => exact execMlDsa44Sign_kept lane e s
  | mlDsa65Sign lane e => exact execMlDsa65Sign_kept lane e s
  | mlDsa87Sign lane e => exact execMlDsa87Sign_kept lane e s
  | rsa2048Verify lane e => exact execRsa2048Verify_kept lane e s
  | rsa2048Sign lane e => exact execRsa2048Sign_kept lane e s
  | rsa4096Verify lane e => exact execRsa4096Verify_kept lane e s
  | rsa4096Sign lane e => exact execRsa4096Sign_kept lane e s
  | pinBlockTranslate lane e => exact execPinBlockTranslate_kept lane e s
  | dukptDeriveTdes lane e => exact execDukptDeriveTdes_kept lane e s
  | dukptDeriveAes lane e => exact execDukptDeriveAes_kept lane e s
  | sha256 lane e => exact execSha256_kept lane e s
  | sha384 lane e => exact execSha384_kept lane e s
  | sha512 lane e => exact execSha512_kept lane e s
  | sha3256 lane e => exact execSha3256_kept lane e s
  | sha3384 lane e => exact execSha3384_kept lane e s
  | sha3512 lane e => exact execSha3512_kept lane e s
  | hmacSha256 lane e => exact execHmacSha256_kept lane e s
  | hmacSha384 lane e => exact execHmacSha384_kept lane e s
  | hmacSha512 lane e => exact execHmacSha512_kept lane e s
  | aesCmac lane e => exact execAesCmac_kept lane e s
  | iso9797Mac1Aes lane e => exact execIso9797Mac1Aes_kept lane e s
  | iso9797Mac1Tdes lane e => exact execIso9797Mac1Tdes_kept lane e s
  | retailMacTdes lane e => exact execRetailMacTdes_kept lane e s
  | burOperationComplete lane e attemptsOk selfCheckOk => exact execBurOperationComplete_kept lane e attemptsOk selfCheckOk s
  | reserveRequest lane req => exact execReserveRequest_kept lane req s
  | generateEcdsaP256Pair lane e => exact execGenerateEcdsaP256Pair_kept lane e s
  | generateEcdsaP384Pair lane e => exact execGenerateEcdsaP384Pair_kept lane e s
  | generateEd25519Pair lane e => exact execGenerateEd25519Pair_kept lane e s
  | generateMlDsa44Pair lane e => exact execGenerateMlDsa44Pair_kept lane e s
  | generateMlDsa65Pair lane e => exact execGenerateMlDsa65Pair_kept lane e s
  | generateMlDsa87Pair lane e => exact execGenerateMlDsa87Pair_kept lane e s
  | generateSymmetricKey lane e => exact execGenerateSymmetricKey_kept lane e s
  | unwrapKeyBlock lane e => exact execUnwrapKeyBlock_kept lane e s
  | wrapForExport lane e => exact execWrapForExport_kept lane e s
  | combineComponents lane e => exact execCombineComponents_kept lane e s
  | verifyTokenP384 lane e => exact execVerifyTokenP384_kept lane e s
  | verifyTokenMlDsa65 lane e => exact execVerifyTokenMlDsa65_kept lane e s
  | signPairingManifest lane e => exact execSignPairingManifest_kept lane e s
  | ecdhComponentTransport lane e => exact execEcdhComponentTransport_kept lane e s
  | hmCheck hart rd rs1 rs2 => exact execHmCheck_kept hart rd rs1 rs2 s
  | hmStep hart rd rs1 => exact execHmStep_kept hart rd rs1 s
  | tileCheck hart rd rs1 => exact execTileCheck_kept hart rd rs1 s
  | jrnAppend hart rd rs1 => exact execJrnAppend_kept hart rd rs1 s
  | cellarerAppend event code body => exact execCellarerAppend_kept event code body s
  | recordAccept ring portWait => exact execRecordAccept_kept ring portWait s
  | mirrorAckReceive ring seq delay => exact execMirrorAckReceive_kept ring seq delay s
  | replayRequestReceive ring seq => exact execReplayRequestReceive_kept ring seq s
  | replayTimeout ring seq => exact execReplayTimeout_kept ring seq s
  | recordFrameReceive frame => exact execRecordFrameReceive_kept frame s
  | linkFailure code => exact execLinkFailure_kept code s
  | witnessAckTimeout ring seq => exact execWitnessAckTimeout_kept ring seq s
  | drainCopy ring err => exact execDrainCopy_kept ring err s
  | drainRetire agent ring val => exact execDrainRetire_kept agent ring val s
  | drainPause agent v => exact execDrainPause_kept agent v s
  | drainFrameReceive frame ring lastSeq => exact execDrainFrameReceive_kept frame ring lastSeq s
  | ringResyncComplete ring peer => exact execRingResyncComplete_kept ring peer s
  | linkTraining flights deskew locked => exact execLinkTraining_kept flights deskew locked s
  | linkRetrainTimer => exact execLinkRetrainTimer_kept s
  | headerTimeout => exact execHeaderTimeout_kept s
  | symbolLockLoss linkLane => exact execSymbolLockLoss_kept linkLane s
  | idleAckSend => exact execIdleAckSend_kept s
  | manifestReceive m => exact execManifestReceive_kept m s
  | ctlFrameReceive frame msg => exact execCtlFrameReceive_kept frame msg s
  | beatFrameReceive frame => exact execBeatFrameReceive_kept frame s
  | beatFrameMissing => exact execBeatFrameMissing_kept s
  | snapFrameReceive frame body => exact execSnapFrameReceive_kept frame body s
  | leaseReq h home => exact execLeaseReq_kept h home s
  | leaseGrant h home => exact execLeaseGrant_kept h home s
  | leaseRefuse h home code => exact execLeaseRefuse_kept h home code s
  | leaseRelease h home => exact execLeaseRelease_kept h home s
  | leaseExpiry ownHome => exact execLeaseExpiry_kept ownHome s
  | witnessLeaseExpiry home => exact execWitnessLeaseExpiry_kept home s
  | takeoverLeaseRetry => exact execTakeoverLeaseRetry_kept s
  | wcopy h ring record => exact execWcopy_kept h ring record s
  | wcopyAck h ring seq => exact execWcopyAck_kept h ring seq s
  | wcopyFetch h home => exact execWcopyFetch_kept h home s
  | wcopyData h copies last => exact execWcopyData_kept h copies last s
  | wcopyDrop h => exact execWcopyDrop_kept h s
  | witnessSilence => exact execWitnessSilence_kept s
  | xferOffer h hallmark route prev => exact execXferOffer_kept h hallmark route prev s
  | xferAccept h => exact execXferAccept_kept h s
  | xferRefuse h code => exact execXferRefuse_kept h code s
  | xferTiles h body => exact execXferTiles_kept h body s
  | xferDone h lane cls session => exact execXferDone_kept h lane cls session s
  | verifyReq h hallmark route outputs => exact execVerifyReq_kept h hallmark route outputs s
  | verifyResp h code => exact execVerifyResp_kept h code s
  | timeAnnounce h gm btmOffset btmStatus announcedNs => exact execTimeAnnounce_kept h gm btmOffset btmStatus announcedNs s
  | refuse h rtype code => exact execRefuse_kept h rtype code s
  | rhaxRetryTimer dst mseq => exact execRhaxRetryTimer_kept dst mseq s
  | ethernetFrameReceive q f => exact execEthernetFrameReceive_kept q f s
  | portLinkChange q up fec => exact execPortLinkChange_kept q up fec s
  | tcpConnectionEstablish listener c => exact execTcpConnectionEstablish_kept listener c s
  | listenerReconnect listener => exact execListenerReconnect_kept listener s
  | tcpRetransmitTimeout session => exact execTcpRetransmitTimeout_kept session s
  | tcpRstReceive session => exact execTcpRstReceive_kept session s
  | keepaliveProbe session => exact execKeepaliveProbe_kept session s
  | tlsRecordReceive session authOk plain keyUpdate => exact execTlsRecordReceive_kept session authOk plain keyUpdate s
  | messageMint session cls => exact execMessageMint_kept session cls s
  | handshakeStart session hello => exact execHandshakeStart_kept session hello s
  | handshakeComplete session res => exact execHandshakeComplete_kept session res s
  | keyUpdateSend session => exact execKeyUpdateSend_kept session s
  | handshakeTimeout session => exact execHandshakeTimeout_kept session s
  | msgTimeout session => exact execMsgTimeout_kept session s
  | idleTimeout session => exact execIdleTimeout_kept session s
  | stallTimeout session => exact execStallTimeout_kept session s
  | lingerTimeout session => exact execLingerTimeout_kept session s
  | reclaimTimeout session => exact execReclaimTimeout_kept session s
  | partnerClose session => exact execPartnerClose_kept session s
  | releaseAccept lane h => exact execReleaseAccept_kept lane h s
  | reassignReq agent val => exact execReassignReq_kept agent val s
  | reassignMove => exact execReassignMove_kept s
  | reassignTimeout => exact execReassignTimeout_kept s
  | ptpMessageReceive q m => exact execPtpMessageReceive_kept q m s
  | ptpSyncLoss => exact execPtpSyncLoss_kept s
  | hartBeatRead hart rd => exact execHartBeatRead_kept hart rd s
  | hartBeatWait hart rd rs1 => exact execHartBeatWait_kept hart rd rs1 s
  | ksealWrite hart val => exact execKsealWrite_kept hart val s
  | bpflush hart => exact execBpflush_kept hart s
  | kerrrecRead hart rd => exact execKerrrecRead_kept hart rd s
  | vendorCounterRead hart rd csr => exact execVendorCounterRead_kept hart rd csr s
  | counterOverflow hart k => exact execCounterOverflow_kept hart k s
  | hartMemoryAccess hart a => exact execHartMemoryAccess_kept hart a s
  | hartInterrupt hart => exact execHartInterrupt_kept hart s
  | cboClean hart rs1 => exact execCboClean_kept hart rs1 s
  | cboFlush hart rs1 => exact execCboFlush_kept hart rs1 s
  | cboInval hart rs1 => exact execCboInval_kept hart rs1 s
  | cboZero hart rs1 => exact execCboZero_kept hart rs1 s
  | debugCommand cmd => exact execDebugCommand_kept cmd s
  | dmactiveClear => exact execDmactiveClear_kept s
  | debugRelock => exact execDebugRelock_kept s
  | l3Request req => exact execL3Request_kept req s
  | writebackAck slice line => exact execWritebackAck_kept slice line s
  | memoryRead ch line requester err last => exact execMemoryRead_kept ch line requester err last s
  | memoryWrite ch line data poisoned requester => exact execMemoryWrite_kept ch line data poisoned requester s
  | refreshDue ch rank queued => exact execRefreshDue_kept ch rank queued s
  | dimmTemperatureRead ch temps => exact execDimmTemperatureRead_kept ch temps s
  | dqsDriftTrack ch drift => exact execDqsDriftTrack_kept ch drift s
  | neighbourRefresh ch bank => exact execNeighbourRefresh_kept ch bank s
  | trainNow agent ch => exact execTrainNow_kept agent ch s
  | trainingPassStart ch why => exact execTrainingPassStart_kept ch why s
  | trainingPassEnd ch found => exact execTrainingPassEnd_kept ch found s
  | errorWindowEnd ch => exact execErrorWindowEnd_kept ch s
  | channelFailure ch => exact execChannelFailure_kept ch s
  | freqReq agent ch val => exact execFreqReq_kept agent ch val s
  | freqChangeComplete ch => exact execFreqChangeComplete_kept ch s
  | histClear agent ch => exact execHistClear_kept agent ch s
  | scrubRead ch err => exact execScrubRead_kept ch err s
  | scrubResult ch => exact execScrubResult_kept ch s
  | scrubSlowWarning ch => exact execScrubSlowWarning_kept ch s
  | remapInstall ch line err => exact execRemapInstall_kept ch line err s
  | cellarerWatchdogExpiry => exact execCellarerWatchdogExpiry_kept s
  | cellarerRestart cause => exact execCellarerRestart_kept cause s
  | cellarerInterrupt irq prio => exact execCellarerInterrupt_kept irq prio s
  | mailboxDataWrite agent mbx k val => exact execMailboxDataWrite_kept agent mbx k val s
  | mailboxGo agent mbx seq => exact execMailboxGo_kept agent mbx seq s
  | mailboxClear agent mbx => exact execMailboxClear_kept agent mbx s
  | mailboxRxRead agent mbx => exact execMailboxRxRead_kept agent mbx s
  | mailboxRxAck agent mbx seq code => exact execMailboxRxAck_kept agent mbx seq code s
  | mailboxRxExtend agent mbx us => exact execMailboxRxExtend_kept agent mbx us s
  | mailboxTimeout mbx => exact execMailboxTimeout_kept mbx s
  | lockRead agents lock => exact execLockRead_kept agents lock s
  | lockWrite agent lock val => exact execLockWrite_kept agent lock val s
  | health mbx => exact execHealth_kept mbx s
  | version mbx => exact execVersion_kept mbx s
  | rasQuery mbx => exact execRasQuery_kept mbx s
  | mbxBind mbx => exact execMbxBind_kept mbx s
  | lockRelease mbx => exact execLockRelease_kept mbx s
  | laneReset mbx => exact execLaneReset_kept mbx s
  | laneLoad mbx => exact execLaneLoad_kept mbx s
  | stencilLoad mbx => exact execStencilLoad_kept mbx s
  | laneHandover mbx => exact execLaneHandover_kept mbx s
  | laneRelease mbx => exact execLaneRelease_kept mbx s
  | pairStart mbx => exact execPairStart_kept mbx s
  | laneFirewall mbx chg => exact execLaneFirewall_kept mbx chg s
  | pcieWindows mbx chg => exact execPcieWindows_kept mbx chg s
  | keyPolicy mbx chg => exact execKeyPolicy_kept mbx chg s
  | keyGen mbx chg => exact execKeyGen_kept mbx chg s
  | keyImport mbx chg => exact execKeyImport_kept mbx chg s
  | keyComponent mbx chg => exact execKeyComponent_kept mbx chg s
  | keyDestroy mbx slot => exact execKeyDestroy_kept mbx slot s
  | keyExport mbx chg => exact execKeyExport_kept mbx chg s
  | rootRotate mbx chg => exact execRootRotate_kept mbx chg s
  | domain mbx chg => exact execDomain_kept mbx chg s
  | netTables mbx chg => exact execNetTables_kept mbx chg s
  | journal mbx chg => exact execJournal_kept mbx chg s
  | debugUnlock mbx chg => exact execDebugUnlock_kept mbx chg s
  | officers mbx chg => exact execOfficers_kept mbx chg s
  | adminSet mbx chg => exact execAdminSet_kept mbx chg s
  | zeroize mbx => exact execZeroize_kept mbx s
  | approve mbx units => exact execApprove_kept mbx units s
  | ticketStatus mbx => exact execTicketStatus_kept mbx s
  | ticketCancel mbx => exact execTicketCancel_kept mbx s
  | ticketExpiry ticket => exact execTicketExpiry_kept ticket s
  | stagedChangeApply => exact execStagedChangeApply_kept s
  | cachePart mbx => exact execCachePart_kept mbx s
  | memConfig mbx => exact execMemConfig_kept mbx s
  | memRemap mbx err => exact execMemRemap_kept mbx err s
  | fwStage mbx => exact execFwStage_kept mbx s
  | garretList mbx => exact execGarretList_kept mbx s
  | garretRead mbx => exact execGarretRead_kept mbx s
  | garretFreeze mbx => exact execGarretFreeze_kept mbx s
  | hmReplay mbx => exact execHmReplay_kept mbx s
  | query agent slot err => exact execQuery_kept agent slot err s
  | entropyHealthFailure => exact execEntropyHealthFailure_kept s
  | reseedLapse => exact execReseedLapse_kept s
  | pcieLinkUp port sub speed width partnerFlit => exact execPcieLinkUp_kept port sub speed width partnerFlit s
  | pcieLinkDown port sub => exact execPcieLinkDown_kept port sub s
  | pcieInboundRequest port r => exact execPcieInboundRequest_kept port r s
  | hostBarAccess fn bar off r => exact execHostBarAccess_kept fn bar off r s
  | pcieConfigRequest fn off w => exact execPcieConfigRequest_kept fn off w s
  | pcieCompletionReceive tag c => exact execPcieCompletionReceive_kept tag c s
  | completionTimeout tag => exact execCompletionTimeout_kept tag s
  | tagQuarantineExpiry tag => exact execTagQuarantineExpiry_kept tag s
  | hdmaDescriptor k => exact execHdmaDescriptor_kept k s
  | hdmaDescriptorComplete k => exact execHdmaDescriptorComplete_kept k s
  | atsTranslationResponse k granted host => exact execAtsTranslationResponse_kept k granted host s
  | invalidateRequest fn base len => exact execInvalidateRequest_kept fn base len s
  | invalidateCompletion fn => exact execInvalidateCompletion_kept fn s
  | busMasterEnableClear fn d3hot => exact execBusMasterEnableClear_kept fn d3hot s
  | functionLevelReset fn => exact execFunctionLevelReset_kept fn s
  | flrComplete fn => exact execFlrComplete_kept fn s
  | vfEnable enable numVfs => exact execVfEnable_kept enable numVfs s
  | msixUnmask fn vec => exact execMsixUnmask_kept fn vec s
  | arkEnable agent k v => exact execArkEnable_kept agent k v s
  | arkAbort agent k => exact execArkAbort_kept agent k s
  | compress k badBlocks dataError => exact execCompress_kept k badBlocks dataError s
  | decompress k dataError => exact execDecompress_kept k dataError s
  | verify k dataError => exact execVerify_kept k dataError s
  | arkDescriptorComplete k => exact execArkDescriptorComplete_kept k s
  | garretRecordWrite err => exact execGarretRecordWrite_kept err s
  | freezeStop => exact execFreezeStop_kept s
  | atticCopyComplete => exact execAtticCopyComplete_kept s
  | atticRead off => exact execAtticRead_kept off s
  | clrHist agent lane => exact execClrHist_kept agent lane s
  | clrCtr agent lane => exact execClrCtr_kept agent lane s
  | fullColdReset straps pwrgd => exact execFullColdReset_kept straps pwrgd s
  | coldRstN lowCycles straps => exact execColdRstN_kept lowCycles straps s
  | mainColdStart straps => exact execMainColdStart_kept straps s
  | pwrgdFall => exact execPwrgdFall_kept s
  | warmRstN lowCycles => exact execWarmRstN_kept lowCycles s
  | warmReq agent => exact execWarmReq_kept agent s
  | warmResetExit => exact execWarmResetExit_kept s
  | firmwareVerifyComplete current previous staged => exact execFirmwareVerifyComplete_kept current previous staged s
  | cellarerReady => exact execCellarerReady_kept s
  | dramTrainingComplete found => exact execDramTrainingComplete_kept found s
  | hartRelease current previous => exact execHartRelease_kept current previous s
  | pairingTimeout current previous => exact execPairingTimeout_kept current previous s
  | hartRst agent hart => exact execHartRst_kept agent hart s
  | powerManagerInterval corePower pkgPower => exact execPowerManagerInterval_kept corePower pkgPower s
  | pwrTdp agent val => exact execPwrTdp_kept agent val s
  | sdReq agent => exact execSdReq_kept agent s
  | powerOff agent => exact execPowerOff_kept agent s
  | bayThermalLimit bay temp => exact execBayThermalLimit_kept bay temp s
  | prochotSensor temp => exact execProchotSensor_kept temp s
  | prochotNInput low => exact execProchotNInput_kept low s
  | thermalTrip temp iod heldMs => exact execThermalTrip_kept temp iod heldMs s
  | referenceClockLoss lostNs => exact execReferenceClockLoss_kept lostNs s
  | avsbusFailure die => exact execAvsbusFailure_kept die s
  | avsbusRetry die ok => exact execAvsbusRetry_kept die ok s
  | sidebandRelease => exact execSidebandRelease_kept s
  | i3cAccess reg w => exact execI3cAccess_kept reg w s
  | stylusRv32Instruction lane t err => exact execStylusRv32Instruction_kept lane t err s
  | hartInstruction hart insn => exact execHartInstruction_kept hart insn s
  | cacheFill hart line prefetch dataError => exact execCacheFill_kept hart line prefetch dataError s
  | queuedWriteIssue ch tries => exact execQueuedWriteIssue_kept ch tries s
  | tilePortTransferEnd lane h => exact execTilePortTransferEnd_kept lane h s
  | headerHcrcFailure lseq => exact execHeaderHcrcFailure_kept lseq s
  | gratuitousArp addrIdx => exact execGratuitousArp_kept addrIdx s
  | standbyPowerLoss => exact execStandbyPowerLoss_kept s
  | presenceDetectChange port sub present => exact execPresenceDetectChange_kept port sub present s

/-- A step is one lane cycle, or the front command on the state that keeps the queue's rest. -/
theorem step_kept {s t : State} (h : step s = .next t) :
    t.rom = s.rom ∧ (Memory.wf s.dram = true → Memory.wf t.dram = true) := by
  unfold step at h
  cases hp : s.pending with
  | nil =>
    rw [hp] at h
    cases h
    exact ⟨s.tick_sound.rom, s.tick_sound.dram⟩
  | cons c r =>
    rw [hp] at h
    obtain ⟨hrom, -, hdram⟩ := exec_kept c { s with pending := r } t h
    exact ⟨hrom, hdram⟩

/-- Settles O4: a step is a lane cycle or the front command, and both keep the boot ROM; no command touches the queue. -/
theorem stepKeepsRomAndQueue : Obligations.StepKeepsRomAndQueue := by
  unfold Obligations.StepKeepsRomAndQueue
  refine ⟨fun s t h => (step_kept h).1, fun c s t h => ?_⟩
  obtain ⟨hrom, hq, -⟩ := exec_kept c s t h
  exact ⟨hrom, hq⟩

/-- Settles O5: a DRAM cell is written by `memWrite` alone, which keeps the form, or all are lost by a reset. -/
theorem stepKeepsDramCanonical : Obligations.StepKeepsDramCanonical := by
  unfold Obligations.StepKeepsDramCanonical
  exact fun s t hw h => (step_kept h).2 hw
end Sys2Proof.Machine
end

section
/-!
What changes one lane or one thread of it; a store into a cached line; new tile chains: the statements of O18, O23 and O38.
-/

namespace Sys2Proof.Machine
open Sys2Proof

/-! ### Frames: what changes one lane, and of it one thread -/

theorem State.onlyLane_refl (s : State) (n : Nat) : s.onlyLane s n := ⟨rfl, fun _ _ => rfl⟩

theorem State.onlyLane.trans {s t u : State} {n : Nat} (h : s.onlyLane t n) (k : t.onlyLane u n) : s.onlyLane u n := by
  obtain ⟨h1, h2⟩ := h
  obtain ⟨k1, k2⟩ := k
  refine ⟨?_, fun m hm => (k2 m hm).trans (h2 m hm)⟩
  rw [k1, h1]

theorem State.onlyLane_setLane (s : State) (n : Nat) (l : Lane) : s.onlyLane (s.setLane n l) n :=
  ⟨rfl, fun _ hm => State.lane_setLane_ne s hm l⟩
theorem State.onlyLane_modLane (s : State) (n : Nat) (f : Lane → Lane) : s.onlyLane (s.modLane n f) n := s.onlyLane_setLane n _
theorem State.onlyLane_modThr (s : State) (n t : Nat) (f : Thread → Thread) : s.onlyLane (s.modThr n t f) n := s.onlyLane_setLane n _
theorem State.onlyLane_lpmu (s : State) (n i k : Nat) : s.onlyLane (s.lpmu n i k) n := s.onlyLane_setLane n _

theorem State.onlyThread_refl (s : State) (n t : Nat) : s.onlyThread s n t := ⟨s.onlyLane_refl n, rfl, fun _ _ => rfl⟩

theorem State.onlyThread.trans {s u v : State} {n t : Nat} (h : s.onlyThread u n t) (k : u.onlyThread v n t) : s.onlyThread v n t := by
  obtain ⟨h1, h2, h3⟩ := h
  obtain ⟨k1, k2, k3⟩ := k
  refine ⟨h1.trans k1, ?_, fun r hr => (k3 r hr).trans (h3 r hr)⟩
  rw [k2, h2]

theorem State.onlyThread_modThr (s : State) (n t : Nat) (f : Thread → Thread) : s.onlyThread (s.modThr n t f) n t := by
  refine ⟨s.onlyLane_modThr n t f, ?_, fun r hr => by simp [hr]⟩
  unfold State.modThr
  rw [State.lane_modLane_self]
  rfl

theorem State.onlyThread_lpmu (s : State) (n t i k : Nat) : s.onlyThread (s.lpmu n i k) n t := by
  refine ⟨s.onlyLane_lpmu n i k, ?_, fun r _ => s.lpmu_thr n i k n r⟩
  unfold State.lpmu
  rw [State.lane_modLane_self]

/-- An instruction that changes its own thread alone. -/
theorem State.onlyThread_issue (s : State) (n t : Nat) (f : Thread → Thread) (i k : Nat) :
    s.onlyThread ((s.modThr n t f).lpmu n i k) n t := (s.onlyThread_modThr n t f).trans (State.onlyThread_lpmu _ _ _ _ _)

/-! ### A tag completes -/

@[simp] theorem State.thr_modLane_of_threads (s : State) (n m t : Nat) (f : Lane → Lane) (h : ∀ l, (f l).threads = l.threads) :
    (s.modLane n f).thr m t = s.thr m t := by
  unfold State.thr
  by_cases e : m = n
  · rw [e, State.lane_modLane_self, Lane.thr, h, Lane.thr]
  · rw [State.lane_modLane_ne s e]

theorem State.lane_modThr_self (s : State) (n t : Nat) (f : Thread → Thread) :
    (s.modThr n t f).lane n = (s.lane n).setThr t (f ((s.lane n).thr t)) := by
  unfold State.modThr
  rw [State.lane_modLane_self]

/-- A completing tag whose thread waits for it is retired, and its thread takes the code as its result. -/
theorem State.tagDone_waiting {s : State} {n id rd : Nat} {tg : Tag} (code : Code) (dg : Option (Nat × D64))
    (h : (s.lane n).tags.find? (fun g => g.id = id) = some tg) (hw : (s.thr n tg.thr).run = .waitTag rd id) :
    s.tagDone n id code dg = (s.modLane n (fun l => l.retire { tg with code := some code, digest := dg })).modThr n tg.thr
      (fun th => th.ret rd (code.setWidth 32)) := by
  unfold State.tagDone
  rw [h]
  dsimp only
  rw [hw]
  dsimp only
  rw [if_pos rfl]

/-- Settles O23: the thread takes the code as an ordinary result, and the tag leaves the lane's list. -/
theorem completedTagWakesItsThread : Obligations.CompletedTagWakesItsThread := by
  unfold Obligations.CompletedTagWakesItsThread
  intro s n id rd code tg h hw hrd
  dsimp only
  have hid : tg.id = id := by simpa using List.find?_some h
  rw [State.tagDone_waiting code none h hw, State.thr_modThr_self, State.thr_modLane_of_threads _ _ _ _ (fun l => l.retire _) (fun _ => rfl)]
  refine ⟨Thread.ret_run _ _ _, ?_, Thread.ret_pc _ _ _, ?_, (s.onlyLane_modLane n _).trans (State.onlyLane_modThr _ _ _ _)⟩
  · rw [Thread.rd_ret, Thread.rd_wr_self _ _ _ hrd]
  · rw [State.lane_modThr_self, State.lane_modLane_self, ← hid]
    rfl

/-! ### A store into a line that its hart owns -/

/-- A byte of a line, where the bytes `v` were written from offset `o`. -/
theorem getD_splice {b v : Bytes} {o : Nat} (i : Nat) (h : o + v.length ≤ b.length) :
    (b.splice o v).getD i 0 = if o ≤ i ∧ i < o + v.length then v.getD (i - o) 0 else b.getD i 0 := by
  have hz : o + v.length - b.length = 0 := by omega
  unfold Bytes.splice
  dsimp only
  rw [hz, List.replicate_zero, List.append_nil]
  simp only [List.getD_eq_getElem?_getD]
  by_cases h1 : i < o
  · rw [if_neg (by omega), List.getElem?_append_left (by simp; omega), List.getElem?_append_left (by simp; omega),
      List.getElem?_take_of_lt h1]
  · by_cases h2 : i < o + v.length
    · rw [if_pos (by omega), List.getElem?_append_left (by simp; omega), List.getElem?_append_right (by simp; omega)]
      simp [Nat.min_eq_left (by omega : o ≤ b.length)]
    · rw [if_neg (by omega), List.getElem?_append_right (by simp; omega), List.getElem?_drop]
      congr 2
      simp
      omega

/-- A full-line write enters the queue for its own line only. -/
theorem State.find_wq_queueWrite {s : State} {l m : Nat} (h : m ≠ l) (b : Bytes) (p : Bool) (g : Nat) :
    (s.queueWrite l b p g).mem.wq.find? (fun w => w.line = m) = s.mem.wq.find? (fun w => w.line = m) := by
  unfold State.queueWrite
  dsimp only
  split
  · rfl
  · split
    · dsimp only
      induction s.mem.wq with
      | nil => rfl
      | cons x q ih =>
        rw [List.map_cons, List.find?_cons, List.find?_cons, ih]
        by_cases hx : x.line = l
        · rw [if_pos hx, hx]
          simp [Ne.symm h]
        · rw [if_neg hx]
    · simp [List.find?_append, Ne.symm h]

theorem State.dirty_queueWrite (s : State) (l : Nat) (b : Bytes) (p : Bool) (g : Nat) :
    (s.queueWrite l b p g).mem.dirty = s.mem.dirty := by
  unfold State.queueWrite
  dsimp only
  split <;> rfl

theorem State.byteAt_evOrder_ne {s : State} {l a : Nat} (h : a / 64 ≠ l) : (s.evOrder l).byteAt a = s.byteAt a := by
  unfold State.evOrder
  split
  · split
    · unfold State.byteAt
      rw [State.dirty_queueWrite, State.find_wq_queueWrite h, State.queueWrite_dram]
    · rfl
  · rfl

/-- Coherent memory after a store into a line: the line's new bytes, and all others as before. -/
theorem State.byteAt_lineStore (s : State) (h l o : Nat) (b : Bytes) (a : Nat) :
    (s.lineStore h l o b).byteAt a =
      if a / 64 = l then ((s.dramRead (l * 64) 64).splice o b).getD (a % 64) 0 else s.byteAt a := by
  split
  next e =>
    unfold State.lineStore State.byteAt
    simp [State.withMem, Mem.restateAt, Mem.setL1, Mem.setL2, e]
  next e =>
    rw [← State.byteAt_evOrder_ne (s := s) e]
    unfold State.lineStore State.byteAt
    simp [State.withMem, Mem.restateAt, Mem.setL1, Mem.setL2, SMap.find_put_ne e]

/-- Settles O38: the line's bytes are the old ones with the stored ones spliced in; no other line changes. -/
theorem lineStoreFrame : Obligations.LineStoreFrame := by
  unfold Obligations.LineStoreFrame
  intro s h l o b hb
  have hlen : o + b.length ≤ (s.dramRead (l * 64) 64).length := by simpa [State.dramRead] using hb
  refine ⟨fun i hi => ?_, fun a ha => ?_⟩
  · rw [State.byteAt_lineStore, if_pos (by omega), getD_splice _ hlen, if_pos (by omega)]
    congr 1
    omega
  · rw [State.byteAt_lineStore]
    split
    next e =>
      rw [getD_splice _ hlen, if_neg (by omega)]
      have hi : a % 64 < 64 := Nat.mod_lt _ (by omega)
      have hae : l * 64 + a % 64 = a := by omega
      simp [State.dramRead, List.getD_eq_getElem?_getD, hi, hae]
    · rfl

/-! ### New tile chains -/

theorem Lane.sideW_setSide (l : Lane) (i j : Nat) {w : Nat} (hw : w < 2 ^ 64) :
    (l.setSide i w).sideW j = if j = i then w else l.sideW j := by
  unfold Lane.setSide Lane.sideW
  dsimp only
  rw [SMap.get_set]
  split
  · rw [BitVec.toNat_ofNat, Nat.mod_eq_of_lt hw]
  · rfl

theorem mkSide_lt {a b : Bool} {x : Nat} (hx : x < 2 ^ 15) : mkSide a b x 0 0 < 2 ^ 64 := by
  unfold mkSide b2n
  cases a <;> cases b <;> simp <;> omega

theorem sideNext_mkSide {a b : Bool} {x : Nat} (hx : x < 2 ^ 15) : sideNext (mkSide a b x 0 0) = x := by
  unfold sideNext bits mkSide b2n
  rw [Nat.shiftRight_eq_div_pow]
  cases a <;> cases b <;> simp <;> omega

theorem sideFill_mkSide {a b : Bool} {x : Nat} : sideFill (mkSide a b x 0 0) = 0 := by
  unfold sideFill bits mkSide b2n
  rw [Nat.shiftRight_eq_div_pow]
  cases a <;> cases b <;> simp <;> omega

theorem sideAlloc_mkSide {a b : Bool} {x : Nat} (hx : x < 2 ^ 15) : sideAlloc (mkSide a b x 0 0) = true := by
  unfold sideAlloc bit mkSide b2n
  rw [Nat.testBit_eq_decide_div_mod_eq, decide_eq_true_eq]
  cases a <;> cases b <;> simp <;> omega

theorem endTile_lt : endTile < 2 ^ 15 := by decide

/-- The tiles of a list are allocated and empty, each linked to the next, the last to none. -/
def Linked (l : Lane) : List Nat → Prop
  | [] => True
  | [i] => sideAlloc (l.sideW i) = true ∧ sideFill (l.sideW i) = 0 ∧ sideNext (l.sideW i) = endTile
  | i :: j :: r => (sideAlloc (l.sideW i) = true ∧ sideFill (l.sideW i) = 0 ∧ sideNext (l.sideW i) = j) ∧ Linked l (j :: r)

theorem Linked.fill {l : Lane} : ∀ {ts : List Nat}, Linked l ts → ∀ j ∈ ts, sideFill (l.sideW j) = 0
  | [i], ⟨_, h, _⟩, j, hj => by rwa [List.mem_singleton.1 hj]
  | i :: k :: r, ⟨⟨_, h, _⟩, hr⟩, j, hj => by
    obtain rfl | hj := List.mem_cons.1 hj
    · exact h
    · exact hr.fill j hj

/-- The sideband word of a tile outside the new chain stays. -/
theorem sideW_linkNew_out (l : Lane) (a b : Bool) (ts : List Nat) (hlt : ∀ i ∈ ts, i < tileCount) {j : Nat} (hj : j ∉ ts) :
    (linkNew l a b ts).sideW j = l.sideW j := by
  fun_induction linkNew l a b ts with
  | case1 => rfl
  | case2 l b i => rw [Lane.sideW_setSide _ _ _ (mkSide_lt endTile_lt), if_neg (by simpa using hj)]
  | case3 l b i k r ih =>
    have hk : k < 2 ^ 15 := by
      have := hlt k (by simp)
      unfold tileCount at this
      omega
    have hji : j ≠ i := fun e => hj (by simp [e])
    rw [ih (fun x hx => hlt x (List.mem_cons_of_mem _ hx)) (fun h => hj (List.mem_cons_of_mem _ h)),
      Lane.sideW_setSide _ _ _ (mkSide_lt hk), if_neg hji]

theorem linked_linkNew (l : Lane) (a b : Bool) (ts : List Nat) (hlt : ∀ i ∈ ts, i < tileCount) (hnd : ts.Nodup) :
    Linked (linkNew l a b ts) ts := by
  fun_induction linkNew l a b ts with
  | case1 => trivial
  | case2 l b i =>
    unfold Linked
    rw [Lane.sideW_setSide _ _ _ (mkSide_lt endTile_lt), if_pos rfl]
    exact ⟨sideAlloc_mkSide endTile_lt, sideFill_mkSide, sideNext_mkSide endTile_lt⟩
  | case3 l b i k r ih =>
    have hk : k < 2 ^ 15 := by
      have := hlt k (by simp)
      unfold tileCount at this
      omega
    have hlt' : ∀ x ∈ k :: r, x < tileCount := fun x hx => hlt x (List.mem_cons_of_mem _ hx)
    refine ⟨?_, ih hlt' (List.nodup_cons.1 hnd).2⟩
    rw [sideW_linkNew_out _ _ _ _ hlt' (List.nodup_cons.1 hnd).1, Lane.sideW_setSide _ _ _ (mkSide_lt hk), if_pos rfl]
    exact ⟨sideAlloc_mkSide hk, sideFill_mkSide, sideNext_mkSide hk⟩

/-- A walk along a linked list of tiles finds them all. -/
theorem walk_linked (l : Lane) : ∀ (ts : List Nat) (fuel : Nat) (seen : List Nat) (i : Nat), Linked l (i :: ts) →
    (∀ j ∈ i :: ts, j < tileCount) → (i :: ts).Nodup → (∀ j ∈ i :: ts, j ∉ seen) → ts.length < fuel →
    walk l fuel seen i = some (seen ++ i :: ts)
  | _, 0, _, _, _, _, _, _, hf => by simp at hf
  | [], fuel + 1, seen, i, ⟨ha, _, hn⟩, hlt, _, hs, _ => by
    have hi : ¬(i ≥ tileCount ∨ seen.contains i = true) := by
      have h1 := hlt i (by simp)
      have h2 := hs i (by simp)
      simp [h2]
      omega
    unfold walk
    rw [if_neg hi]
    simp [ha, hn]
  | j :: r, fuel + 1, seen, i, ⟨⟨ha, _, hn⟩, hr⟩, hlt, hnd, hs, hf => by
    have hi : ¬(i ≥ tileCount ∨ seen.contains i = true) := by
      have h1 := hlt i (by simp)
      have h2 := hs i (by simp)
      simp [h2]
      omega
    have hj : j ≠ endTile := by
      have := hlt j (by simp)
      unfold tileCount at this
      unfold endTile
      omega
    have ih := walk_linked l r fuel (seen ++ [i]) j hr (fun x hx => hlt x (List.mem_cons_of_mem _ hx)) (List.nodup_cons.1 hnd).2
      (fun x hx => by
        have h1 := hs x (List.mem_cons_of_mem _ hx)
        have h2 : x ≠ i := fun e => (List.nodup_cons.1 hnd).1 (e ▸ hx)
        simp [h1, h2]) (by simp at hf; omega)
    unfold walk
    rw [if_neg hi]
    simp [ha, hn, hj, ih]

/-- Free tiles are picked in rising order, at most as many as asked for. -/
theorem pickFree_spec (l : Lane) (fuel i k : Nat) :
    (pickFree l fuel i k).length ≤ k ∧ (pickFree l fuel i k).length ≤ fuel ∧ (pickFree l fuel i k).Nodup
      ∧ ∀ j ∈ pickFree l fuel i k, i ≤ j ∧ j < i + fuel ∧ sideAlloc (l.sideW j) = false := by
  fun_induction pickFree l fuel i k with
  | case1 => simp
  | case2 => simp
  | case3 fuel i k h ih =>
    obtain ⟨h1, h2, h3, h4⟩ := ih
    refine ⟨h1, by omega, h3, fun j hj => ?_⟩
    obtain ⟨h5, h6, h7⟩ := h4 j hj
    exact ⟨by omega, by omega, h7⟩
  | case4 fuel i k h ih =>
    obtain ⟨h1, h2, h3, h4⟩ := ih
    refine ⟨by simpa using h1, by simpa using h2, List.nodup_cons.2 ⟨fun hi => ?_, h3⟩, fun j hj => ?_⟩
    · have := (h4 i hi).1
      omega
    · obtain rfl | hj := List.mem_cons.1 hj
      · exact ⟨le_rfl, by omega, by simpa using h⟩
      · obtain ⟨h5, h6, h7⟩ := h4 j hj
        exact ⟨by omega, by omega, h7⟩

/-- Settles O18: the lowest free tiles are linked in order, and a walk from the first finds them. -/
theorem allocatedChainIsNew : Obligations.AllocatedChainIsNew := by
  unfold Obligations.AllocatedChainIsNew
  intro l k i l' hk h
  obtain ⟨hle, hfuel, hnd, hfree⟩ := pickFree_spec l tileCount 0 k
  unfold Lane.alloc Lane.freeTiles at h
  generalize pickFree l tileCount 0 k = ts at *
  have hlt : ∀ j ∈ ts, j < tileCount := fun j hj => by simpa using (hfree j hj).2.1
  cases ts with
  | nil => cases h
  | cons t r =>
    dsimp only at h
    split at h
    · cases h
    next hlen =>
      cases h
      have hl := linked_linkNew l false true _ hlt hnd
      refine ⟨i :: r, ?_, by omega, fun j hj => ⟨hlt j hj, (hfree j hj).2.2, hl.fill j hj⟩,
        fun j hj => sideW_linkNew_out _ _ _ _ hlt hj⟩
      exact walk_linked _ r (tileCount + 1) [] i hl hlt hnd (by simp) (by simp at hfuel; omega)
end Sys2Proof.Machine
end

section
/-!
The result of an instruction, a thread that goes idle, a phase that is left: the statements of O25 and O26.
-/

namespace Sys2Proof.Machine
open Sys2Proof

/-! ### Readings of a field that did not change -/

theorem State.lane_congr {s u : State} (h : u.lanes = s.lanes) (m : Nat) : u.lane m = s.lane m := by unfold State.lane; rw [h]
theorem State.thr_congr {s u : State} (h : u.lanes = s.lanes) (m t : Nat) : u.thr m t = s.thr m t := by
  unfold State.thr; rw [State.lane_congr h]
theorem State.reg_congr {s u : State} (h : u.regs = s.regs) (a : Nat) : u.reg a = s.reg a := by unfold State.reg; rw [h]
theorem State.lreg_congr {s u : State} (h : u.regs = s.regs) (n o : Nat) : u.lreg n o = s.lreg n o := State.reg_congr h _
theorem State.ring_congr {s u : State} (h : u.jrn = s.jrn) (k : Nat) : u.ring k = s.ring k := by unfold State.ring; rw [h]
theorem State.hart_congr {s u : State} (h : u.harts = s.harts) (k : Nat) : u.hart k = s.hart k := by unfold State.hart; rw [h]
theorem State.dmc_congr {s u : State} (h : u.mem = s.mem) (c : Nat) : u.dmc c = s.dmc c := by unfold State.dmc; rw [h]

/-! ### An instruction's result -/

@[simp] theorem State.thr_setLane_self (s : State) (n t : Nat) (l : Lane) : (s.setLane n l).thr n t = l.thr t := by
  unfold State.thr
  rw [State.lane_setLane_self]

@[simp] theorem State.thr_retT_self (s : State) (n t rd v : Nat) :
    (s.retT n t rd v).thr n t = (s.thr n t).ret rd (BitVec.ofNat 32 v) := State.thr_modThr_self _ _ _ _
@[simp] theorem State.thr_retT_ne (s : State) {n t m u : Nat} (h : m ≠ n ∨ u ≠ t) (rd v : Nat) :
    (s.retT n t rd v).thr m u = s.thr m u := State.thr_modThr_ne _ h _

theorem State.onlyLane_retT (s : State) (n t rd v : Nat) : s.onlyLane (s.retT n t rd v) n := s.onlyLane_modThr n t _
theorem State.onlyThread_retT (s : State) (n t rd v : Nat) : s.onlyThread (s.retT n t rd v) n t := s.onlyThread_modThr n t _

/-- A register other than x0 that takes a result. -/
theorem Thread.rd_ret_self (th : Thread) {r : Nat} (v : W32) (h : r ≠ 0) : (th.ret r v).rd r = v := by
  rw [Thread.rd_ret, Thread.rd_wr_self _ _ _ h]
/-- A result written to x0 is discarded. -/
@[simp] theorem Thread.x_ret_zero (th : Thread) (v : W32) : (th.ret 0 v).x = th.x := rfl

/-- An issued operation runs: what holds of the state it leaves, the count of LPMU counter 20 included. -/
theorem runs_issue {c : Instr} {s : State} {n t : Nat} {x : XOp} {f : State → Thread → State} {p : State → Prop}
    (hc : exec c s = s.issue n t x f) (h : (s.lane n).atOp t x = true) (hp : p ((f s (s.thr n t)).lpmu n 20 1)) : Runs c s p :=
  ⟨_, hc.trans (State.issue_run f h), hp⟩

/-! ### A thread goes idle -/

theorem Lane.thr_retireMsg (l : Lane) (h t : Nat) : (l.retireMsg h).thr t = l.thr t := by
  unfold Lane.retireMsg
  split
  · rfl
  · (repeat' split) <;> rfl
theorem Lane.tags_retireMsg (l : Lane) (h : Nat) : (l.retireMsg h).tags = l.tags := by
  unfold Lane.retireMsg
  split
  · rfl
  · (repeat' split) <;> rfl
theorem Lane.thr_bankCheck (l : Lane) (t : Nat) : l.bankCheck.thr t = l.thr t := by
  unfold Lane.bankCheck
  split <;> rfl
theorem Lane.tags_bankCheck (l : Lane) : l.bankCheck.tags = l.tags := by
  unfold Lane.bankCheck
  split <;> rfl

/-- Going idle leaves the thread without a phase. -/
theorem Lane.thr_idle_self (l : Lane) (t : Nat) : (l.idle t).thr t = { l.thr t with run := .idle, phase := none } := by
  unfold Lane.idle
  cases h : (l.thr t).phase with
  | none => exact (Lane.thr_bankCheck _ t).trans (Lane.thr_setThr_self _ t _)
  | some p => exact (Lane.thr_bankCheck _ t).trans ((Lane.thr_retireMsg _ _ t).trans (Lane.thr_setThr_self _ t _))

/-- Going idle retires the thread's tags. -/
theorem Lane.tags_idle (l : Lane) (t : Nat) : (l.idle t).tags = l.tags.filter (fun g => g.thr ≠ t) := by
  unfold Lane.idle
  cases h : (l.thr t).phase with
  | none => exact Lane.tags_bankCheck _
  | some p => exact (Lane.tags_bankCheck _).trans (Lane.tags_retireMsg _ _)

/-! ### A phase is left -/

theorem State.lane_overrunEnd (s : State) (n : Nat) (p : Phase) (m : Nat) : (s.overrunEnd n p).lane m = s.lane m := by
  unfold State.overrunEnd
  split
  · exact State.lane_congr (by simp) m
  · rfl

/-- Leaving a phase changes no other lane. -/
theorem State.lane_leavePhase_ne (s : State) {n m : Nat} (t : Nat) (hm : m ≠ n) : (s.leavePhase n t).lane m = s.lane m := by
  unfold State.leavePhase
  split
  · rfl
  · split
    · exact State.lane_modLane_ne s hm _
    · unfold State.phaseEnd
      split
      · split
        · rfl
        · exact (State.lane_modLane_ne _ hm _).trans (State.lane_overrunEnd _ _ _ _)
      · rfl

/-! ### Beat and thread operations -/

theorem State.lane_modLane_lpmu_ne (s : State) {n m : Nat} (f : Lane → Lane) (i k : Nat) (hm : m ≠ n) :
    ((s.modLane n f).lpmu n i k).lane m = s.lane m :=
  (State.lane_modLane_ne _ hm _).trans (State.lane_modLane_ne _ hm _)

/-- THR.END where the phase may end. -/
theorem runs_thrEnd {n : LaneId} {t : ThreadId} {s : State} {p : Phase} (h : (s.lane n).atOp t xThrEnd = true)
    (hp : (s.thr n t).phase = some p) (hok : p.posted = true ∨ ∃ m, (s.lane n).msg p.h = some m ∧ m.acked = true)
    {q : State → Prop} (hq : q (((s.leavePhase n t).modLane n (fun l => l.idle t)).lpmu n 20 1)) : Runs (.thrEnd n t) s q := by
  refine runs_issue (execThrEnd.eq_1 n t s) h ?_
  rw [hp]
  dsimp only
  rcases hok with hok | ⟨m, hm, ha⟩
  · simpa only [hok, Bool.true_or, if_true] using hq
  · simpa only [hm, ha, Bool.or_true, if_true] using hq

/-- Settles O25: each operation is a change of its own thread, THR.SIGNAL also of the named one, THR.END of the lane. -/
theorem beatAndThreadOperationsComplete : Obligations.BeatAndThreadOperationsComplete := by
  unfold Obligations.BeatAndThreadOperationsComplete
  intro n t rd rs1 s
  dsimp only
  refine ⟨fun h => ?_, fun h => ?_, fun p h hp hrd => ?_, fun h hb => ?_, fun h hrun hcyc => ?_, fun r h hr hr8 hrt => ?_,
    fun p h hp hok => ?_⟩
  · refine runs_issue (execBeatRead.eq_1 n t rd s) h ⟨fun hrd => ?_, fun hrd => ?_, ?_, ?_,
      ((s.onlyThread_modThr n t _).trans (State.onlyThread_retT _ _ _ _ _)).trans (State.onlyThread_lpmu _ _ _ _ _)⟩
    · rw [State.lpmu_thr, State.thr_retT_self, Thread.rd_ret_self _ _ hrd]
    · rw [State.lpmu_thr, State.thr_retT_self, hrd, Thread.x_ret_zero, State.thr_modThr_self]
    · rw [State.lpmu_thr, State.thr_retT_self, Thread.ret_shape, State.thr_modThr_self]
    · rw [State.lpmu_thr, State.thr_retT_self, Thread.ret_pc, State.thr_modThr_self]
  · refine runs_issue (execBeatReadh.eq_1 n t rd s) h ⟨fun hrd => ?_, fun hrd => ?_, ?_, (State.onlyThread_retT _ _ _ _ _).trans (State.onlyThread_lpmu _ _ _ _ _)⟩
    · rw [State.lpmu_thr, State.thr_retT_self, Thread.rd_ret_self _ _ hrd, BitVec.ofNat_toNat, BitVec.setWidth_eq]
    · rw [State.lpmu_thr, State.thr_retT_self, hrd, Thread.x_ret_zero]
    · rw [State.lpmu_thr, State.thr_retT_self, Thread.ret_pc]
  · refine runs_issue (execBeatLeft.eq_1 n t rd s) h ?_
    rw [hp]
    refine ⟨?_, ?_, s.onlyThread_issue n t _ _ _⟩
    · rw [State.lpmu_thr, State.thr_modThr_self, Thread.rd_ret_self _ _ hrd]
    · rw [State.lpmu_thr, State.thr_modThr_self, Thread.ret_pc]
  · refine runs_issue (execBeatWait.eq_1 n t s) h ?_
    rw [if_neg (by rintro ⟨h1, h2⟩; simp [h1, h2] at hb)]
    refine ⟨?_, ?_, ?_, s.onlyThread_issue n t _ _ _⟩ <;> rw [State.lpmu_thr, State.thr_modThr_self]
  · refine runs_issue (execBeatWait.eq_1 n t s) h ?_
    rw [if_pos ⟨hrun, hcyc⟩]
    refine ⟨?_, ?_, ?_, s.onlyThread_issue n t _ _ _⟩ <;> rw [State.lpmu_thr, State.thr_retT_self]
    · rw [Thread.ret_run]
    · rw [Thread.ret_pc]
    · rw [Thread.x_ret_zero]
  · refine runs_issue (execThrSignal.eq_1 n t rs1 s) h ?_
    dsimp only
    rw [hr, if_pos hr8]
    refine ⟨?_, ?_, ?_, ((s.onlyLane_modThr n r _).trans (State.onlyLane_retT _ _ _ _ _)).trans (State.onlyLane_lpmu _ _ _ _)⟩ <;>
      rw [State.lpmu_thr]
    · rw [State.thr_retT_ne _ (.inr hrt), State.thr_modThr_self]
    · rw [State.thr_retT_self, Thread.ret_pc, State.thr_modThr_ne _ (.inr hrt.symm)]
    · rw [State.thr_retT_self, Thread.x_ret_zero, State.thr_modThr_ne _ (.inr hrt.symm)]
  · have hl : (((s.leavePhase n t).modLane n (fun l => l.idle t)).lane n) = ((s.leavePhase n t).lane n).idle t :=
      State.lane_modLane_self _ _ _
    have hthr : (((s.leavePhase n t).modLane n (fun l => l.idle t)).lpmu n 20 1).thr n t
        = { (s.leavePhase n t).thr n t with run := .idle, phase := none } := by
      rw [State.lpmu_thr, State.thr, hl, Lane.thr_idle_self]
      rfl
    refine runs_thrEnd h hp hok ⟨?_, ?_, ?_, fun j hj => ?_⟩
    · rw [hthr]
    · rw [hthr]
    · unfold State.lpmu
      rw [State.lane_modLane_self, hl]
      dsimp only
      rw [Lane.tags_idle]
      intro g hg
      simpa using (List.mem_filter.1 hg).2
    · exact (State.lane_modLane_lpmu_ne _ _ _ _ hj).trans (s.lane_leavePhase_ne t hj)

/-! ### A thread's events -/

/-- With interrupts on, or none taken yet, and an image, an exception enters the trap vector. -/
theorem State.trap_taken {s : State} {n t : Nat} (cause tval : W32) (h : (s.thr n t).mie = true ∨ (s.thr n t).mcause = 0)
    (hv : (s.lane n).mtvec t ≠ 0) : s.trap n t cause tval = s.modThr n t (fun th => { th with
      mepc := th.pc, mcause := cause, mtval := tval, mpie := th.mie, mie := false,
      pc := BitVec.ofNat 32 ((s.lane n).mtvec t), run := .run }) := by
  unfold State.trap
  dsimp only
  rw [if_neg (by rcases h with h | h <;> simp [h, hv])]

/-- Settles O26: the two entries write the trap registers of the thread; a double fault without a phase only stops it. -/
theorem stylusEventsComplete : Obligations.StylusEventsComplete := by
  unfold Obligations.StylusEventsComplete
  intro n t cause tval s hrun
  have hexc : exec (.stylusException n t cause tval) s
      = .next (s.trap n t cause (if [1, 5, 7, 24, 25, 26].contains cause.toNat then tval else 0)) := by
    show execStylusException n t cause tval s = _
    unfold execStylusException
    rw [if_pos hrun]
  refine ⟨fun b hmie hb => ?_, fun h hv => ⟨_, hexc, ?_⟩, fun hmie hc hp => ⟨_, hexc, ?_⟩⟩
  · have : exec (.stylusInterrupt n t) s = .next (s.modThr n t (fun th => { th with
        mepc := th.pc, mcause := BitVec.ofNat 32 (2 ^ 31 + b), mtval := 0, mpie := th.mie, mie := false,
        mip := th.mip &&& ~~~BitVec.ofNat 32 (2 ^ b), pc := BitVec.ofNat 32 ((s.lane n).mtvec t), run := .run })) := by
      show execStylusInterrupt n t s = _
      unfold execStylusInterrupt
      dsimp only
      rw [hb, hrun, hmie]
      rfl
    refine ⟨_, this, ?_⟩
    dsimp only
    rw [State.thr_modThr_self]
    exact ⟨rfl, rfl, rfl, hmie, rfl, rfl, rfl, s.onlyThread_modThr n t _⟩
  · dsimp only
    rw [State.trap_taken _ _ h hv, State.thr_modThr_self]
    exact ⟨rfl, rfl, rfl, rfl, rfl, rfl, s.onlyThread_modThr n t _⟩
  · have hdf : s.trap n t cause (if [1, 5, 7, 24, 25, 26].contains cause.toNat then tval else 0) = s.modLane n (fun l => l.idle t) := by
      unfold State.trap
      dsimp only
      rw [if_pos (by rw [Bool.or_eq_true]; exact .inl (by simpa [hmie] using hc))]
      unfold State.doubleFault
      rw [hp]
    dsimp only
    rw [hdf]
    refine ⟨?_, s.onlyLane_modLane n _⟩
    rw [State.thr, State.lane_modLane_self, Lane.thr_idle_self]
end Sys2Proof.Machine
end

section
/-!
Operations of a running thread on tiles, hallmarks and engines: the statements of O17, O20 and O22.
-/

namespace Sys2Proof.Machine
open Sys2Proof

/-! ### A lane that takes a new record and an instruction's result -/

/-- The lane after it takes the record `l` and its thread a result: the record, but for the thread and the counters. -/
theorem State.lane_issued (s : State) (n t rd v : Nat) (l : Lane) :
    ∃ x, (((s.setLane n l).retT n t rd v).lpmu n 20 1).lane n
      = { l.setThr t ((l.thr t).ret rd (BitVec.ofNat 32 v)) with lpmu := x } := by
  unfold State.retT State.lpmu State.modThr
  rw [State.lane_modLane_self, State.lane_modLane_self, State.lane_setLane_self]
  exact ⟨_, rfl⟩

theorem State.thr_issued (s : State) (n t rd v : Nat) (l : Lane) :
    (((s.setLane n l).retT n t rd v).lpmu n 20 1).thr n t = (l.thr t).ret rd (BitVec.ofNat 32 v) := by
  rw [State.lpmu_thr, State.thr_retT_self, State.thr_setLane_self]

theorem State.onlyLane_issued (s : State) (n t rd v : Nat) (l : Lane) :
    s.onlyLane (((s.setLane n l).retT n t rd v).lpmu n 20 1) n :=
  ((s.onlyLane_setLane n l).trans (State.onlyLane_retT _ _ _ _ _)).trans (State.onlyLane_lpmu _ _ _ _)

/-! ### What the operations on tiles leave of a lane -/

theorem Lane.threads_setSide (l : Lane) (i w : Nat) : (l.setSide i w).threads = l.threads := rfl

theorem Lane.threads_foldl {α : Type} (f : Lane → α → Lane) (h : ∀ l x, (f l x).threads = l.threads) (xs : List α) (l : Lane) :
    (xs.foldl f l).threads = l.threads := by
  induction xs generalizing l with
  | nil => rfl
  | cons x xs ih => rw [List.foldl_cons, ih, h]

theorem Lane.threads_linkNew (l : Lane) (a b : Bool) (ts : List Nat) : (linkNew l a b ts).threads = l.threads := by
  fun_induction linkNew l a b ts with
  | case1 => rfl
  | case2 => exact Lane.threads_setSide _ _ _
  | case3 l b i k r ih => exact ih.trans (Lane.threads_setSide _ _ _)

theorem Lane.threads_alloc {l l' : Lane} {k i : Nat} (h : l.alloc k = some (i, l')) : l'.threads = l.threads := by
  unfold Lane.alloc at h
  dsimp only at h
  split at h
  · cases h
  · split at h
    · cases h
    · cases h
      exact Lane.threads_linkNew _ _ _ _

theorem Lane.threads_free (l : Lane) (i : Nat) : (l.free i).threads = l.threads := by
  unfold Lane.free
  split
  · rfl
  · split
    · rfl
    · unfold Lane.freeNow
      dsimp only
      refine (Lane.threads_foldl (fun a j => a.setSide j freeSide) (fun _ _ => Lane.threads_setSide _ _ _) _ _).trans (Lane.threads_foldl _ (fun a x => ?_) _ _)
      split
      · exact Lane.threads_setSide _ _ _
      · rfl

theorem Lane.threads_seal (l : Lane) (i f : Nat) : (l.seal i f).threads = l.threads := rfl

theorem Lane.thr_of_threads {l l' : Lane} (h : l'.threads = l.threads) (t : Nat) : l'.thr t = l.thr t := by
  unfold Lane.thr; rw [h]

/-- A tag's room leaves all of a lane but its tags. -/
theorem Lane.roomTag_shape (l : Lane) (t : Nat) :
    l.roomTag t = { l with tags := (l.roomTag t).tags, retired := (l.roomTag t).retired } := by
  unfold Lane.roomTag
  split
  · rfl
  · split <;> rfl

/-- A draw of free bits touches the counter of draws alone. -/
theorem State.onlyLane_drew_shape {s u : State} {n : Nat} (h : s.drew.onlyLane u n) : u = { s with lanes := u.lanes, free := s.free + 1 } := by
  obtain ⟨h1, -⟩ := h
  rw [h1]
  rfl

/-! ### Tile operations -/

/-- Settles O17: each operation gives the lane its new record and the thread an ordinary result. -/
theorem tileOperationsComplete : Obligations.TileOperationsComplete := by
  unfold Obligations.TileOperationsComplete
  intro n t rd rs1 rs2 s
  dsimp only
  refine ⟨fun i l h h1 hk ha => ?_, fun h h1 hk ha => ?_, fun h hk => ?_, fun h hi ha => ?_, fun h hi h1 hf => ?_, fun h hi hfull => ?_⟩
  · refine runs_issue (execTileAlloc.eq_1 n t rd rs1 s) h ?_
    rw [if_neg (by omega), ha]
    dsimp only
    have ht : l.thr t = s.thr n t := Lane.thr_of_threads (Lane.threads_alloc ha) t
    rw [State.thr_issued, ht, Thread.ret_pc]
    obtain ⟨x, hx⟩ := s.lane_issued n t rd i l
    rw [hx]
    exact ⟨fun hrd => Thread.rd_ret_self _ _ hrd, fun hrd => by rw [hrd, Thread.x_ret_zero], rfl, rfl, s.onlyLane_issued n t rd i l⟩
  · refine runs_issue (execTileAlloc.eq_1 n t rd rs1 s) h ?_
    rw [if_neg (by omega), ha]
    dsimp only
    rw [State.lpmu_thr, State.thr_retT_self, State.lpmu_thr, Thread.ret_pc]
    exact ⟨fun hrd => Thread.rd_ret_self _ _ hrd, rfl, ((s.onlyThread_lpmu n t _ _).trans (State.onlyThread_retT _ _ _ _ _)).trans
      (State.onlyThread_lpmu _ _ _ _ _)⟩
  · refine runs_issue (execTileAlloc.eq_1 n t rd rs1 s) h ?_
    rw [if_pos (by omega)]
    have hf := (s.drew.onlyThread_retT n t rd (s.freeWord.toNat % 2 ^ 32)).trans (State.onlyThread_lpmu _ n t 20 1)
    refine ⟨?_, ?_, State.onlyLane_drew_shape hf.1⟩
    · rw [State.lpmu_thr, State.thr_retT_self, Thread.ret_pc]
      rfl
    · rw [hf.2.1]
      rfl
  · refine runs_issue (execTileFree.eq_1 n t rs1 s) h ?_
    rw [if_neg (by rintro (h | h); omega; simp [ha] at h)]
    unfold State.modLane
    obtain ⟨x, hx⟩ := s.lane_issued n t 0 0 ((s.lane n).free ((s.thr n t).rd rs1).toNat)
    rw [State.thr_issued, Lane.thr_of_threads (Lane.threads_free _ _), hx, Thread.ret_pc, Thread.x_ret_zero]
    exact ⟨rfl, rfl, rfl, rfl, s.onlyLane_issued n t 0 0 _⟩
  · refine runs_issue (execTileSeal.eq_1 n t rs1 rs2 s) h ?_
    rw [if_neg (by omega), if_neg (by omega)]
    unfold State.modLane
    obtain ⟨x, hx⟩ := s.lane_issued n t 0 0 ((s.lane n).seal ((s.thr n t).rd rs1).toNat ((s.thr n t).rd rs2).toNat)
    rw [State.thr_issued, Lane.thr_of_threads (Lane.threads_seal _ _ _), hx, Thread.ret_pc, Thread.x_ret_zero]
    exact ⟨rfl, rfl, rfl, rfl, s.onlyLane_issued n t 0 0 _⟩
  · refine runs_issue (execTileDigest.eq_1 n t rd rs1 s) h ?_
    rw [if_neg (by omega), if_neg (by simp [hfull])]
    dsimp only
    obtain ⟨x, hx⟩ := s.lane_issued n t rd ((s.lane n).roomTag t).newTag { (s.lane n).roomTag t with
      tags := ((s.lane n).roomTag t).tags ++ [{ id := ((s.lane n).roomTag t).newTag, thr := t, kind := .digest }]
      digests := ((s.lane n).roomTag t).digests ++ [(((s.lane n).roomTag t).newTag, ((s.thr n t).rd rs1).toNat)] }
    have hd : ((s.lane n).roomTag t).digests = (s.lane n).digests := by rw [Lane.roomTag_shape]
    have ht : ((s.lane n).roomTag t).thr t = s.thr n t := Lane.thr_of_threads (by rw [Lane.roomTag_shape]) t
    refine ⟨fun hrd => ?_, ?_, ?_, ?_, s.onlyLane_issued n t rd _ _⟩
    · rw [State.thr_issued]
      exact Thread.rd_ret_self _ _ hrd
    · rw [hx, ← hd]
      rfl
    · rw [hx]
      rfl
    · rw [State.thr_issued, Thread.ret_pc]
      exact congrArg (fun th : Thread => th.pc + 4) ht

/-! ### Hallmark operations -/

theorem Lane.threads_rewriteHm (l : Lane) (m : Msg) : (l.rewriteHm m).threads = l.threads := by
  unfold Lane.rewriteHm
  dsimp only
  split
  · rfl
  · rfl
theorem Lane.msgs_rewriteHm (l : Lane) (m : Msg) : (l.rewriteHm m).msgs = l.msgs := by
  unfold Lane.rewriteHm
  dsimp only
  split
  · rfl
  · rfl

/-- A message's chain with a key and room for one more link is extended by it. -/
theorem State.extend_some {s : State} {n h eng i : Nat} {d : D64} {m : Msg} {k : Bytes} (hm : (s.lane n).msg h = some m)
    (hk : s.hmKey m.hm = some k) (ht : m.trace.length < 15) :
    s.extend n h eng d i false = ((s.modLane n (fun l =>
      let m' := { m with hm := { m.hm with chain := linkTag k m.hm.chain d eng (m.hm.step + 1), step := m.hm.step + 1 }
                         trace := m.trace ++ [⟨eng, d, i, false⟩] }
      (l.setMsg h m').rewriteHm m')).lpmu n 31 1, some (m.hm.step + 1)) := by
  unfold State.extend
  rw [hm]
  dsimp only
  rw [hk]
  dsimp only
  rw [if_neg (by omega)]
  rfl

theorem State.msg_lpmu (s : State) (n i k h : Nat) : ((s.lpmu n i k).lane n).msg h = (s.lane n).msg h := by
  unfold State.lpmu
  rw [State.lane_modLane_self]
  rfl
theorem State.msg_modThr (s : State) (n t : Nat) (f : Thread → Thread) (h : Nat) :
    ((s.modThr n t f).lane n).msg h = (s.lane n).msg h := by
  rw [State.lane_modThr_self]
  rfl
theorem State.msg_retT (s : State) (n t rd v h : Nat) : ((s.retT n t rd v).lane n).msg h = (s.lane n).msg h :=
  State.msg_modThr _ _ _ _ _

/-- Settles O20: HM.FIELD only reads the record; HM.DERIVE extends its chain; TILE.RELEASE marks it as released. -/
theorem hallmarkOperationsComplete : Obligations.HallmarkOperationsComplete := by
  unfold Obligations.HallmarkOperationsComplete
  intro n t rd rs1 rs2 m s hrd hm
  dsimp only
  refine ⟨fun h => ?_, fun g i d k h hg hd hc hk ht => ?_, fun p h hv hp hph hack hrel => ?_⟩
  · refine runs_issue (execHmField.eq_1 n t rd rs1 rs2 s) h ?_
    intro k hk hk8
    have gives : ∀ v, (((s.retT n t rd v).lpmu n 20 1).thr n t).rd rd = BitVec.ofNat 32 v
        ∧ (((s.retT n t rd v).lpmu n 20 1).thr n t).pc = (s.thr n t).pc + 4 ∧ s.onlyThread ((s.retT n t rd v).lpmu n 20 1) n t :=
      fun v => by
        rw [State.lpmu_thr, State.thr_retT_self]
        exact ⟨Thread.rd_ret_self _ _ hrd, Thread.ret_pc _ _ _, (s.onlyThread_retT n t rd v).trans (State.onlyThread_lpmu _ _ _ _ _)⟩
    rw [hm, hk]
    dsimp only
    interval_cases k <;> exact gives _
  · refine runs_issue (execHmDerive.eq_1 n t rd rs1 rs2 s) h ?_
    have hm' : ((s.lpmu n 22 48).lane n).msg ((s.thr n t).rd rs1).toNat = some m := by rw [State.msg_lpmu, hm]
    have hk' : (s.lpmu n 22 48).hmKey m.hm = some k := hk
    dsimp only
    rw [hg, hm]
    dsimp only
    rw [hd]
    dsimp only
    rw [if_neg (by simp [hc]), State.extend_some hm' hk' ht]
    dsimp only
    refine ⟨?_, ?_, ((((s.onlyLane_lpmu n 22 48).trans (State.onlyLane_modLane _ _ _)).trans (State.onlyLane_lpmu _ _ _ _)).trans
      (State.onlyLane_retT _ _ _ _ _)).trans (State.onlyLane_lpmu _ _ _ _)⟩
    · rw [State.lpmu_thr, State.thr_retT_self, Thread.rd_ret_self _ _ hrd]
    · rw [State.msg_lpmu, State.msg_retT, State.msg_lpmu, State.lane_modLane_self, Lane.msg, Lane.msgs_rewriteHm]
      exact ⟨_, Lane.msg_setMsg_self _ _ _, rfl, rfl⟩
  · refine runs_issue (execTileRelease.eq_1 n t rd rs1 s) h ?_
    have hmod : ((s.thr n t).rd rs1).toNat % 4096 = ((s.thr n t).rd rs1).toNat := Nat.mod_eq_of_lt hv
    dsimp only
    rw [hmod, hm, if_pos hv, hp]
    dsimp only
    rw [if_neg (by simp [hack, hrel, hph]), State.lpmu_thr, State.thr_retT_self, State.msg_lpmu, State.msg_retT,
      State.lane_modLane_self, State.thr_modLane_of_threads _ _ _ _ (fun l => l.setMsg _ _) (fun _ => rfl)]
    exact ⟨Thread.rd_ret_self _ _ hrd, Thread.ret_pc _ _ _, Lane.msg_setMsg_self _ _ _,
      ((s.onlyLane_modLane n _).trans (State.onlyLane_retT _ _ _ _ _)).trans (State.onlyLane_lpmu _ _ _ _)⟩

/-! ### Engine operations -/

theorem Lane.roomTag_lpmu (l : Lane) (t : Nat) (x : SMap Nat) :
    ({ l with lpmu := x } : Lane).roomTag t = { l.roomTag t with lpmu := x } := by
  unfold Lane.roomTag
  split
  · rfl
  · dsimp only
    split <;> rfl

/-- A thread that is set with its pc as it was. -/
theorem Lane.pc_of_setThr {l l' : Lane} {t : Nat} {v : Thread} (h : l'.threads = (l.setThr t v).threads)
    (hv : v.pc = (l.thr t).pc) : (l'.thr t).pc = (l.thr t).pc := by
  rw [Lane.thr_of_threads h, Lane.thr_setThr_self, hv]

/-- A phase's booked run serves a TRANSLATE or VALIDATE that comes in time (R92). -/
theorem Lane.stnBook_own {l : Lane} {now : Nat} {p : Phase} {d : Bytes} (hf : p.stn.free = true) (hn : now ≤ p.stn.start)
    (hop : Bytes.le d 0 1 % 16 = 1 ∨ Bytes.le d 0 1 % 16 = 2) :
    l.stnBook now (some p) d = (.own, p.stn.start, p.stn.stop) := by
  unfold Lane.stnBook
  dsimp only
  rw [if_pos ⟨hop, hf, hn⟩]

/-- The phase's next booked operation serves a BUR.GO that comes in time and fits it (R83). -/
theorem Lane.burBook_own {l : Lane} {now opc : Nat} {p : Phase} {b : Booking} (hb : p.bur.find? (·.free) = some b)
    (hn : now ≤ b.start) (hfit : b.start + (opCycles opc).getD 64 ≤ b.stop) :
    l.burBook now (some p) opc = (b.eng, b.start, b.stop, false) := by
  unfold Lane.burBook
  rw [Option.bind_some, hb]
  exact if_pos ⟨hn, hfit⟩

section
variable {n : LaneId} {t : ThreadId} {rd rs1 : XReg} {s : State}

/-- A completed tag gives its code and is retired. -/
theorem runs_retireTag {cmd : Instr} {x : XOp} {f : State → Thread → State} (c : Code) (tg : Tag) (hrd : rd.val ≠ 0)
    (htg : (s.lane n).tags.find? (fun g => g.id = ((s.thr n t).rd rs1).toNat ∧ g.thr = t.val) = some tg)
    (hx : exec cmd s = s.issue n t x f) (h : (s.lane n).atOp t x = true)
    (hf : f s (s.thr n t) = (s.modLane n (fun l => l.retire tg)).retT n t rd c.toNat) :
    Runs cmd s fun u => (u.thr n t).rd rd = BitVec.ofNat 32 c.toNat
      ∧ (u.lane n).tags = (s.lane n).tags.filter (fun x => x.id ≠ ((s.thr n t).rd rs1).toNat) ∧ s.onlyLane u n := by
  have hid : tg.id = ((s.thr n t).rd rs1).toNat := by
    have := List.find?_some htg
    simp only [Bool.decide_and, Bool.and_eq_true, decide_eq_true_eq] at this
    exact this.1
  refine runs_issue hx h ?_
  rw [hf, State.modLane, ← hid]
  obtain ⟨y, hy⟩ := s.lane_issued n t rd c.toNat ((s.lane n).retire tg)
  rw [State.thr_issued, hy]
  exact ⟨Thread.rd_ret_self _ _ hrd, rfl, s.onlyLane_issued n t rd _ _⟩

theorem runs_stnGo (hrd : rd.val ≠ 0) (hfull : (s.lane n).tagsFull t = false)
    (hst : ((s.lane n).roomTag t).st = 2 ∨ ((s.lane n).roomTag t).st = 3) (h : (s.lane n).atOp t (xStnGo rd rs1) = true) :
    let a := ((s.thr n t).rd rs1).toNat
    let l := (s.lane n).roomTag t
    Runs (.stnGo n t rd rs1) s fun u =>
      (u.thr n t).rd rd = BitVec.ofNat 32 l.newTag ∧ (u.thr n t).pc = (s.thr n t).pc + 4
        ∧ (u.lane n).tags = l.tags ++ [{ id := l.newTag, thr := t, kind := .stn }]
        ∧ (∃ o, (u.lane n).stn.q = (s.lane n).stn.q ++ [o] ∧ o.thr = t.val ∧ o.tag = l.newTag
            ∧ (a % 32 = 0 → ∀ d, (s.lane n).desc a 32 = some d → o.desc = d
                ∧ ∀ p, (s.thr n t).phase = some p → p.stn.free = true → s.laneClk ≤ p.stn.start →
                    Bytes.le d 0 1 % 16 = 1 ∨ Bytes.le d 0 1 % 16 = 2 → o.start = p.stn.start ∧ o.stop = p.stn.stop))
        ∧ s.onlyLane u n := by
  have hroom := (s.lane n).roomTag_shape t
  have hthr : ((s.lane n).roomTag t).thr t = s.thr n t := Lane.thr_of_threads (by rw [Lane.roomTag_shape]) t
  have hdesc : ∀ a k, ((s.lane n).roomTag t).desc a k = (s.lane n).desc a k := fun a k => by
    rw [Lane.roomTag_shape]
    rfl
  refine runs_issue (execStnGo.eq_1 n t rd rs1 s) h ?_
  rw [if_neg (by simp [hfull])]
  dsimp only
  rw [if_neg (by omega)]
  generalize hD : (if ((s.thr n t).rd rs1).toNat % 32 = 0 then
    (((s.lane n).roomTag t).desc ((s.thr n t).rd rs1).toNat 32).getD (Bytes.zeros 32) else Bytes.zeros 32) = D
  generalize hB : ((s.lane n).roomTag t).stnBook s.laneClk (s.thr n t).phase D = B
  obtain ⟨b, st, sp⟩ := B
  dsimp only
  generalize hs : @ite State (b = StnBook.tail ∧ (s.thr n t).phase.isSome = true) _ _ _ = s'
  have hs' : s.onlyLane s' n := by
    rw [← hs]
    split
    · exact s.onlyLane_lpmu n 11 1
    · exact s.onlyLane_refl n
  generalize hL : Lane.mk .. = L
  obtain ⟨x, hx⟩ := s'.lane_issued n t rd ((s.lane n).roomTag t).newTag L
  refine ⟨?_, ?_, ?_, ?_, hs'.trans (s'.onlyLane_issued n t rd _ _)⟩
  · rw [State.thr_issued]
    exact Thread.rd_ret_self _ _ hrd
  · have hpc : (L.thr t).pc = (((s.lane n).roomTag t).thr t).pc := by
      rw [← hL]
      exact Lane.pc_of_setThr rfl rfl
    rw [State.thr_issued, Thread.ret_pc, hpc, hthr]
  · rw [hx, ← hL]
    rfl
  · have hq : (s.lane n).stn = ((s.lane n).roomTag t).stn := by rw [hroom]
    have hbooked : ∃ o, (L.setThr t ((L.thr t).ret rd (BitVec.ofNat 32 ((s.lane n).roomTag t).newTag))).stn.q
        = ((s.lane n).roomTag t).stn.q ++ [o]
          ∧ o.thr = t.val ∧ o.tag = ((s.lane n).roomTag t).newTag ∧ o.desc = D ∧ o.start = st ∧ o.stop = sp := by
      rw [← hL]
      exact ⟨_, rfl, rfl, rfl, rfl, rfl, rfl⟩
    obtain ⟨o, ho, hot, hog, hod, host, hosp⟩ := hbooked
    refine ⟨o, ?_, hot, hog, fun ha d hd => ?_⟩
    · rw [hx, hq]
      exact ho
    · rw [hod, host, hosp]
      have hdD : d = D := by rw [← hD, if_pos ha, hdesc, hd]; rfl
      refine ⟨hdD.symm, fun p hp hf hn hop => ?_⟩
      rw [hp, Lane.stnBook_own hf hn (hdD ▸ hop)] at hB
      cases hB
      exact ⟨rfl, rfl⟩

theorem runs_burGo (hrd : rd.val ≠ 0) (hfull : (s.lane n).tagsFull t = false)
    (hst : ((s.lane n).roomTag t).st = 2 ∨ ((s.lane n).roomTag t).st = 3) (h : (s.lane n).atOp t (xBurGo rd rs1) = true) :
    let a := ((s.thr n t).rd rs1).toNat
    let l := (s.lane n).roomTag t
    Runs (.burGo n t rd rs1) s fun u =>
      (u.thr n t).rd rd = BitVec.ofNat 32 l.newTag ∧ (u.thr n t).pc = (s.thr n t).pc + 4
        ∧ (u.lane n).tags = l.tags ++ [{ id := l.newTag, thr := t, kind := .bur }]
        ∧ (∃ e o, ((u.lane n).burEng e).q = ((s.lane n).burEng e).q ++ [o] ∧ o.src = .thread t.val l.newTag
            ∧ (∀ e', e' ≠ e → (u.lane n).burEng e' = (s.lane n).burEng e')
            ∧ (a % 64 = 0 → ∀ d, (s.lane n).desc a 64 = some d → o.desc = d ∧ o.opc = Bytes.le d 0 1
                ∧ ∀ p, (s.thr n t).phase = some p → ∀ b, p.bur.find? (·.free) = some b → s.laneClk ≤ b.start →
                    b.start + (opCycles o.opc).getD 64 ≤ b.stop → e = b.eng ∧ o.start = b.start ∧ o.stop = b.stop))
        ∧ s.onlyLane u n := by
  refine runs_issue (execBurGo.eq_1 n t rd rs1 s) h ?_
  rw [if_neg (by simp [hfull])]
  dsimp only
  obtain ⟨y, hy⟩ : ∃ y, (s.lpmu n 15 1).lane n = { s.lane n with lpmu := y } :=
    ⟨_, State.lane_modLane_self _ _ _⟩
  rw [hy, Lane.roomTag_lpmu]
  generalize hl : ({ (s.lane n).roomTag t with lpmu := y } : Lane) = l
  have hst' : ((s.lane n).roomTag t).st = l.st := by rw [← hl]
  have htags : ((s.lane n).roomTag t).tags = l.tags := by rw [← hl]
  have hnew : ((s.lane n).roomTag t).newTag = l.newTag := by rw [← hl]; rfl
  have hthr : l.thr t = s.thr n t := Lane.thr_of_threads (by rw [← hl]; dsimp only; rw [Lane.roomTag_shape]) t
  have hdesc : ∀ a k, l.desc a k = (s.lane n).desc a k := fun a k => by
    rw [← hl, Lane.roomTag_shape]
    rfl
  have hbe : ∀ e, l.burEng e = (s.lane n).burEng e := fun e => by
    rw [← hl, Lane.roomTag_shape]
    rfl
  rw [hst'] at hst
  rw [htags, hnew]
  clear hl hy
  rw [if_neg (by omega)]
  generalize hD : @ite Bytes (((s.thr n t).rd rs1).toNat % 64 = 0) _ _ _ = D
  generalize hB : Lane.burBook _ _ _ _ = B
  obtain ⟨e, st, sp, re⟩ := B
  dsimp only
  generalize hs : @ite State (re = true ∧ (s.thr n t).phase.isSome = true) _ _ _ = s'
  have hs' : s.onlyLane s' n := by
    rw [← hs]
    split
    · exact (s.onlyLane_lpmu n 15 1).trans (State.onlyLane_lpmu _ n 11 1)
    · exact s.onlyLane_lpmu n 15 1
  generalize hL : Lane.mk .. = L
  obtain ⟨x, hx⟩ := s'.lane_issued n t rd l.newTag L
  refine ⟨?_, ?_, ?_, ?_, hs'.trans (s'.onlyLane_issued n t rd _ _)⟩
  · rw [State.thr_issued]
    exact Thread.rd_ret_self _ _ hrd
  · have hpc : (L.thr t).pc = (l.thr t).pc := by
      rw [← hL]
      exact Lane.pc_of_setThr rfl rfl
    rw [State.thr_issued, Thread.ret_pc, hpc, hthr]
  · rw [hx, ← hL]
    rfl
  · have hbooked : ∃ o, (L.setThr t ((L.thr t).ret rd (BitVec.ofNat 32 l.newTag))).burEng e
          = (if re then (l.burEng e).book o
              else { l.burEng e with q := (l.burEng e).q ++ [o] })
          ∧ (∀ e', e' ≠ e → (L.setThr t ((L.thr t).ret rd (BitVec.ofNat 32 l.newTag))).burEng e'
              = l.burEng e')
          ∧ o.src = .thread t l.newTag ∧ o.desc = D ∧ o.opc = Bytes.le D 0 1 ∧ o.start = st ∧ o.stop = sp := by
      rw [← hL]
      exact ⟨_, Lane.burEng_setBurEng_self _ e _, fun e' he => Lane.burEng_setBurEng_ne _ he _, rfl, rfl, rfl, rfl, rfl⟩
    obtain ⟨o, hoe, hne, hsrc, hod, hopc, host, hosp⟩ := hbooked
    refine ⟨e, o, ?_, hsrc, fun e' he => ?_, fun ha d hd => ?_⟩
    · rw [hx]
      refine (congrArg BurEng.q hoe).trans ?_
      rw [← hbe]
      split <;> rfl
    · rw [hx]
      exact (hne e' he).trans (hbe e')
    · have hdD : d = D := by rw [← hD, if_pos ha]; exact (congrArg (fun o => o.getD (Bytes.zeros 64)) ((hdesc _ _).trans hd)).symm
      rw [hod, hopc, host, hosp]
      refine ⟨hdD.symm, by rw [hdD], fun p hp b hb hn hfit => ?_⟩
      rw [hp, Lane.burBook_own (now := (s.lpmu n 15 1).laneClk) hb hn hfit] at hB
      cases hB
      exact ⟨rfl, rfl, rfl⟩

theorem runs_stnGo_outOfService (hrd : rd.val ≠ 0) (hfull : (s.lane n).tagsFull t = false)
    (h2 : ((s.lane n).roomTag t).st ≠ 2) (h3 : ((s.lane n).roomTag t).st ≠ 3) (h : (s.lane n).atOp t (xStnGo rd rs1) = true) :
    let l := (s.lane n).roomTag t
    Runs (.stnGo n t rd rs1) s fun u =>
      (u.thr n t).rd rd = BitVec.ofNat 32 l.newTag ∧ (u.lane n).stn = (s.lane n).stn
        ∧ (u.lane n).tags = l.tags ++ [{ id := l.newTag, thr := t, kind := .stn, code := some 0x1501 }] ∧ s.onlyLane u n := by
  have hroom := (s.lane n).roomTag_shape t
  refine runs_issue (execStnGo.eq_1 n t rd rs1 s) h ?_
  rw [if_neg (by simp [hfull])]
  dsimp only
  rw [if_pos ⟨h2, h3⟩]
  obtain ⟨x, hx⟩ := s.lane_issued n t rd ((s.lane n).roomTag t).newTag { (s.lane n).roomTag t with
    tags := ((s.lane n).roomTag t).tags
      ++ [{ id := ((s.lane n).roomTag t).newTag, thr := t, kind := .stn, code := some 0x1501 }] }
  refine ⟨?_, ?_, ?_, s.onlyLane_issued n t rd _ _⟩
  · rw [State.thr_issued]
    exact Thread.rd_ret_self _ _ hrd
  · rw [hx]
    exact (congrArg Lane.stn hroom : _)
  · rw [hx]
    rfl

theorem runs_burGo_outOfService (hrd : rd.val ≠ 0) (hfull : (s.lane n).tagsFull t = false)
    (h2 : ((s.lane n).roomTag t).st ≠ 2) (h3 : ((s.lane n).roomTag t).st ≠ 3) (h : (s.lane n).atOp t (xBurGo rd rs1) = true) :
    let l := (s.lane n).roomTag t
    Runs (.burGo n t rd rs1) s fun u =>
      (u.thr n t).rd rd = BitVec.ofNat 32 l.newTag ∧ (u.lane n).eng = (s.lane n).eng
        ∧ (u.lane n).tags = l.tags ++ [{ id := l.newTag, thr := t, kind := .bur, code := some 0x1501 }] ∧ s.onlyLane u n := by
  have hroom := (s.lane n).roomTag_shape t
  refine runs_issue (execBurGo.eq_1 n t rd rs1 s) h ?_
  rw [if_neg (by simp [hfull])]
  dsimp only
  obtain ⟨y, hy⟩ : ∃ y, (s.lpmu n 15 1).lane n = { s.lane n with lpmu := y } :=
    ⟨_, State.lane_modLane_self _ _ _⟩
  have hnew : ({ (s.lane n).roomTag t with lpmu := y } : Lane).newTag = ((s.lane n).roomTag t).newTag := rfl
  rw [hy, Lane.roomTag_lpmu]
  dsimp only
  rw [hnew, if_pos ⟨h2, h3⟩]
  generalize hL : Lane.mk .. = L
  obtain ⟨x, hx⟩ := (s.lpmu n 15 1).lane_issued n t rd ((s.lane n).roomTag t).newTag L
  refine ⟨?_, ?_, ?_, (s.onlyLane_lpmu n 15 1).trans (State.onlyLane_issued _ n t rd _ _)⟩
  · rw [State.thr_issued]
    exact Thread.rd_ret_self _ _ hrd
  · have heng : ((s.lane n).roomTag t).eng = (s.lane n).eng := by rw [hroom]
    rw [hx, ← hL]
    exact heng
  · rw [hx, ← hL]
    rfl
end

/-- Settles O22: a GO queues the copied descriptor under the new tag; WAIT and POLL read and retire a tag. -/
theorem engineOperationsComplete : Obligations.EngineOperationsComplete := by
  unfold Obligations.EngineOperationsComplete
  intro n t rd rs1 s hrd
  dsimp only
  refine ⟨fun hfull hst => ⟨runs_stnGo hrd hfull hst, runs_burGo hrd hfull hst⟩,
    fun hfull h2 h3 => ⟨runs_stnGo_outOfService hrd hfull h2 h3, runs_burGo_outOfService hrd hfull h2 h3⟩, fun p h hp => ?_,
    fun tg c htg hcode => ⟨fun h => ?_, fun h => ?_⟩, fun tg htg hcode => ⟨fun h => ?_, fun h => ?_⟩⟩
  · refine runs_issue (execBurSkip.eq_1 n t rs1 s) h ⟨?_, ?_, ?_,
      ((s.onlyThread_modThr n t _).trans (State.onlyThread_retT _ _ _ _ _)).trans (State.onlyThread_lpmu _ n t _ _)⟩ <;>
      rw [State.lpmu_thr, State.thr_retT_self, State.thr_modThr_self, hp]
    · rfl
    · rw [Thread.ret_pc]
    · rw [Thread.x_ret_zero]
  · exact runs_retireTag c tg hrd htg (execEngWait.eq_1 n t rd rs1 s) h (by dsimp only; rw [htg]; dsimp only; rw [hcode])
  · exact runs_retireTag c tg hrd htg (execEngPoll.eq_1 n t rd rs1 s) h (by dsimp only; rw [htg]; dsimp only; rw [hcode])
  · refine runs_issue (execEngWait.eq_1 n t rd rs1 s) h ?_
    dsimp only
    rw [htg]
    dsimp only
    rw [hcode]
    dsimp only
    rw [State.lpmu_thr, State.thr_modThr_self]
    exact ⟨rfl, rfl, s.onlyThread_issue n t _ _ _⟩
  · refine runs_issue (execEngPoll.eq_1 n t rd rs1 s) h ?_
    dsimp only
    rw [htg]
    dsimp only
    rw [hcode]
    dsimp only
    rw [State.lpmu_thr, State.thr_retT_self]
    exact ⟨Thread.rd_ret_self _ _ hrd, (s.onlyThread_retT n t _ _).trans (State.onlyThread_lpmu _ _ _ _ _)⟩
end Sys2Proof.Machine
end

section
/-!
Registers of a lane and the writes of its control block: the statement of O12.
-/

namespace Sys2Proof.Machine
open Sys2Proof

/-! ### Bits of a register -/

theorem bit_mod_two_pow {v i : Nat} (hi : i < 32) : bit (v % 2 ^ 32) i = bit v i := by
  unfold bit
  rw [Nat.testBit_mod_two_pow]
  simp [hi]

/-- A bit that is set reads 1. -/
theorem bit_setBits_one (v i : Nat) : bit (setBits v i i 1) i = true := by
  unfold bit setBits bits
  have h1 : i + 1 - i = 1 := by omega
  rw [h1, Nat.shiftRight_eq_div_pow, Nat.shiftLeft_eq, Nat.shiftLeft_eq, Nat.testBit_eq_decide_div_mod_eq, decide_eq_true_eq]
  have hp : 0 < 2 ^ i := Nat.two_pow_pos i
  have hv := Nat.div_add_mod v (2 ^ i)
  have hm := Nat.mod_lt v hp
  generalize v / 2 ^ i = q at *
  generalize v % 2 ^ i = r at *
  generalize 2 ^ i = p at *
  obtain ⟨k, rfl | rfl⟩ := Nat.even_or_odd' q
  · have e : v - 2 * k % 2 ^ 1 * p + 1 % 2 ^ 1 * p = r + p * (2 * k + 1) := by
      rw [← hv]
      have : 2 * k % 2 ^ 1 = 0 := by omega
      rw [this, Nat.mul_add]
      omega
    rw [e, Nat.add_mul_div_left _ _ hp, Nat.div_eq_of_lt hm]
    omega
  · have e : v - (2 * k + 1) % 2 ^ 1 * p + 1 % 2 ^ 1 * p = r + p * (2 * k + 1) := by
      rw [← hv]
      have : (2 * k + 1) % 2 ^ 1 = 1 := by omega
      rw [this, Nat.mul_add]
      omega
    rw [e, Nat.add_mul_div_left _ _ hp, Nat.div_eq_of_lt hm]
    omega

/-! ### Writes of a lane's registers -/

theorem State.onlyReg_setReg (s : State) (a v : Nat) : s.onlyReg (s.setReg a v) a := ⟨rfl, s.setReg_only a v⟩

/-- Counting in another register, an interrupt of another block: a register stays. -/
theorem State.reg_incReg_ne (s : State) {a b : Nat} (h : b ≠ a) (k : Nat) : (s.incReg a k).reg b = s.reg b :=
  State.reg_setReg_ne s h _
theorem State.reg_incReg_self (s : State) (a k : Nat) : (s.incReg a k).reg a = (s.reg a + k) % 2 ^ 32 := State.reg_setReg_self s a _
theorem State.reg_incField_ne (s : State) {a b : Nat} (h : b ≠ a) (hi lo : Nat) : (s.incField a hi lo).reg b = s.reg b :=
  State.reg_setReg_ne s h _

theorem State.reg_raiseIrq (s : State) (a k b : Nat) :
    (s.raiseIrq a k).reg b = (s.setReg (a + 8) (s.reg (a + 8) ||| 1 <<< k)).reg b := by
  unfold State.raiseIrq
  dsimp only
  split
  · exact State.reg_congr (State.sendTarget_fields _ _).2.1 b
  · rfl
theorem State.reg_raiseIrq_ne (s : State) {a b : Nat} (h : b ≠ a + 8) (k : Nat) : (s.raiseIrq a k).reg b = s.reg b := by
  rw [State.reg_raiseIrq, State.reg_setReg_ne s h]
/-- A raised interrupt's status bit reads 1. -/
theorem State.bit_raiseIrq_self (s : State) (a : Nat) {k : Nat} (hk : k < 32) : bit ((s.raiseIrq a k).reg (a + 8)) k = true := by
  rw [State.reg_raiseIrq, State.reg_setReg_self, bit_mod_two_pow hk]
  simp [bit]
/-- Raising an interrupt clears no status bit. -/
theorem State.bit_raiseIrq_mono (s : State) (a k : Nat) {i : Nat} (hi : i < 32) (h : bit (s.reg (a + 8)) i = true) :
    bit ((s.raiseIrq a k).reg (a + 8)) i = true := by
  rw [State.reg_raiseIrq, State.reg_setReg_self, bit_mod_two_pow hi]
  unfold bit at h ⊢
  simp [h]

/-! ### Lane control writes -/

/-- A lane register's command of an agent with the right. -/
theorem runs_laneWrite {c : Instr} {s : State} {g : Agent} {n o k : Nat} {f : State → State} {p : State → Prop}
    (hc : exec c s = s.laneWrite g n o k f) (h : s.right g n k = true) (hp : p (f s)) : Runs c s p :=
  ⟨_, hc.trans (State.laneWrite_pos f h), hp⟩

theorem State.lreg_setLreg_self (s : State) (n o v : Nat) : (s.setLreg n o v).lreg n o = v % 2 ^ 32 := State.reg_setReg_self s _ v
theorem State.onlyReg_setLreg (s : State) (n o v : Nat) : s.onlyReg (s.setLreg n o v) (laneBase n + o) := s.onlyReg_setReg _ v

theorem State.onlyReg_setLreg_zero (s : State) (n v : Nat) : s.onlyReg (s.setLreg n 0 v) (laneBase n) := by
  have h := s.onlyReg_setLreg n 0 v
  rwa [Nat.add_zero] at h

@[simp] theorem State.lane_setLreg (s : State) (n o v m : Nat) : (s.setLreg n o v).lane m = s.lane m := by
  unfold State.setLreg
  exact State.lane_congr (by simp) m
@[simp] theorem State.ring_setLreg (s : State) (n o v k : Nat) : (s.setLreg n o v).ring k = s.ring k := by
  unfold State.setLreg
  exact State.ring_congr (by simp) k
@[simp] theorem State.lane_modRing (s : State) (k : Nat) (f : Ring → Ring) (m : Nat) : (s.modRing k f).lane m = s.lane m := rfl
@[simp] theorem State.ring_setLane (s : State) (n : Nat) (l : Lane) (k : Nat) : (s.setLane n l).ring k = s.ring k := rfl
@[simp] theorem State.ring_modRing_ne (s : State) {k q : Nat} (h : q ≠ k) (f : Ring → Ring) : (s.modRing k f).ring q = s.ring q :=
  State.ring_setRing_ne s h _

/-- A lane that runs, drains or stands idle begins its reset. -/
theorem State.lane_startReset {s : State} {n : Nat} (g : Nat) (h : (s.lane n).st = 0 ∨ (s.lane n).st = 2 ∨ (s.lane n).st = 3) :
    (s.startReset n g).lane n = { s.lane n with
      st := 4, reset := some { agent := g },
      threads := (s.lane n).threads.map (fun (p : Nat × Thread) => (p.1, { p.2 with run := .idle, phase := none })),
      tags := [], retired := [], digests := [],
      eng := (s.lane n).eng.map (fun (p : Nat × BurEng) => (p.1, { p.2 with q := p.2.q.filter (fun o => !o.src.isThread) })),
      stn := { (s.lane n).stn with q := [], ctxs := [] } } := by
  unfold State.startReset
  dsimp only
  rw [if_pos h]
  rw [State.lane_setLreg, State.lane_modRing, State.lane_setLane_self]

theorem State.startReset_frame {s : State} {n : Nat} (g : Nat) (h : (s.lane n).st = 0 ∨ (s.lane n).st = 2 ∨ (s.lane n).st = 3) :
    bit ((s.startReset n g).lreg n 0) 1 = true
      ∧ (∀ m, m ≠ n → (s.startReset n g).lane m = s.lane m ∧ (s.startReset n g).ring m = s.ring m)
      ∧ s.startReset n g = { s with regs := (s.startReset n g).regs, lanes := (s.startReset n g).lanes, jrn := (s.startReset n g).jrn } := by
  unfold State.startReset
  dsimp only
  rw [if_pos h]
  refine ⟨?_, fun m hm => ⟨?_, ?_⟩, rfl⟩
  · rw [State.lreg_setLreg_self, bit_mod_two_pow (by decide)]
    exact bit_setBits_one _ _
  · rw [State.lane_setLreg, State.lane_modRing, State.lane_setLane_ne s hm]
  · rw [State.ring_setLreg, State.ring_modRing_ne _ hm, State.ring_setLane]

/-- Settles O12: each write sets one register or one field of its lane; RESET_REQ stops the lane's threads. -/
theorem laneControlWritesComplete : Obligations.LaneControlWritesComplete := by
  unfold Obligations.LaneControlWritesComplete
  refine ⟨fun g n v k w s => ⟨fun h => ⟨?_, ?_, ?_, ?_, ?_⟩, fun h => ⟨?_, fun hw => ?_, fun hw => ?_⟩⟩, fun g n s h hst => ?_,
    fun g n s h h0 h2 h3 => ?_⟩
  · exact runs_laneWrite (execDrain.eq_1 g n v s) h ⟨State.lreg_setLreg_self _ _ _ _, State.onlyReg_setLreg_zero _ _ _⟩
  · exact runs_laneWrite (execAdmitEn.eq_1 g n v s) h ⟨State.lreg_setLreg_self _ _ _ _, State.onlyReg_setLreg_zero _ _ _⟩
  · exact runs_laneWrite (execApply.eq_1 g n s) h ⟨State.lane_modLane_self _ _ _, State.onlyLane_modLane _ _ _⟩
  · exact runs_laneWrite (execClrHist.eq_1 g n s) h ⟨State.lane_modLane_self _ _ _, State.onlyLane_modLane _ _ _⟩
  · exact runs_laneWrite (execClrCtr.eq_1 g n s) h ⟨State.lane_modLane_self _ _ _, State.onlyLane_modLane _ _ _⟩
  · refine runs_laneWrite (execHshConsWrite.eq_1 g n k w s) h ⟨?_, State.onlyReg_setLreg _ _ _ _⟩
    exact (State.lreg_setLreg_self _ _ _ _).trans (Nat.mod_eq_of_lt w.isLt)
  · refine runs_laneWrite (execRshProdWrite.eq_1 g n k w s) h ?_
    unfold State.rshProd
    dsimp only
    rw [if_neg (by omega)]
    exact ⟨(State.lreg_setLreg_self _ _ _ _).trans (Nat.mod_eq_of_lt w.isLt), State.onlyReg_setLreg _ _ _ _⟩
  · show execRshProdWrite g n k w s = _
    rw [execRshProdWrite, State.laneWrite_pos _ h, State.rshProd]
    rw [if_pos hw]
  · obtain ⟨hbit, hother, hframe⟩ := State.startReset_frame g.val hst
    refine runs_laneWrite (execResetReq.eq_1 g n s) h ?_
    rw [State.lane_startReset g.val hst]
    refine ⟨rfl, hbit, fun p hp => ?_, rfl, fun p hp o ho => ?_, hother, ⟨_, rfl, rfl, rfl⟩, hframe⟩
    · obtain ⟨q, -, rfl⟩ := List.mem_map.1 hp
      exact ⟨rfl, rfl⟩
    · obtain ⟨q, -, rfl⟩ := List.mem_map.1 hp
      simpa using (List.mem_filter.1 ho).2
  · show execResetReq g n s = _
    rw [execResetReq, State.laneWrite_pos _ h, State.startReset]
    dsimp only
    rw [if_neg (by omega)]
end Sys2Proof.Machine
end

section
/-!
A memory state in which a good decision is lost: the negation of O16's statement.
-/

namespace Sys2Proof.Machine
open Sys2Proof Sys2Proof.Tests

/-! ### What a concrete command leaves -/

/-- The outcome is a next state that passes the test. -/
def endsWith (r : Res) (q : State → Bool) : Bool :=
  match r with
  | .next u => q u
  | _ => false

/-- A state that the command does not answer refutes what is claimed of the answer. -/
theorem not_runs_of_endsWith {c : Instr} {s : State} {p : State → Prop} {q : State → Bool} (hq : endsWith (exec c s) q = true)
    (hp : ∀ u, q u = true → ¬ p u) : ¬ Runs c s p := by
  rintro ⟨u, hu, hpu⟩
  rw [hu] at hq
  exact hp u hq hpu

/-! ### The witness of the refutation of O16

The tally word's line lies in the L3 set of the entry's line and takes its only way. The driven-out line finds no room in the
eviction buffer, and its FAILED channel discards the write: the entry that was read intact reads poisoned once the tally word
stands. -/

/-- The line of the entry and of the tally word: same slice, same L3 set. -/
def entryLine : Nat := dramBase / 64
def tallyLine : Nat := entryLine + 2 ^ 11 + 2 ^ 18
def evictedMem : Mem :=
  { set := [0], dmc := [(0, { st := 5 })], pmask := [(0, 1)]
    dirty := [(entryLine, wDecEntry ++ Bytes.zeros 16), (entryLine + 1, Bytes.zeros 64), (tallyLine, Bytes.zeros 64)]
    l3 := [(l3Key entryLine, [⟨entryLine, 0, 4⟩])]
    evbuf := List.replicate 16 (sliceOf entryLine, 0) }
def evictedLane : Lane :=
  { st := 2, msgs := [(5, wAwait)]
    live := [(0x2200, BitVec.ofNat 32 dramBase), (0x2204, BitVec.ofNat 32 (dramBase / 2 ^ 32)), (0x2208, 1),
      (0x2214, BitVec.ofNat 32 (tallyLine * 64)), (0x2218, BitVec.ofNat 32 (tallyLine * 64 / 2 ^ 32))] }
/-- A decision in the shelf of lane 3 whose line the tally word drives out. -/
def evictedDecision : State := { wDecide with lanes := [(3, evictedLane)], dramTop := dramBase + 2 ^ 25, mem := evictedMem }

/-- Lane 3 has no candidate after the command. -/
theorem noCands_evictedDecision :
    endsWith (exec (.decisionCollect 3 0) evictedDecision) (fun u => (u.lane 3).cands.isEmpty) = true := by decide +kernel

/-- Refutes O16: DECISION_COLLECT looks for poison in the entry after it has written the tally word, whose line may have
driven the entry out of the L3 and into a FAILED channel. The good decision is then no outbound candidate. -/
theorem not_laneEventsComplete : ¬ Obligations.LaneEventsComplete := by
  unfold Obligations.LaneEventsComplete
  intro h
  obtain ⟨hcollect, -⟩ := h 3 evictedDecision
  have hc := (hcollect 0 (by decide +kernel) (by decide +kernel) (by decide +kernel)).2 5 wAwait (by decide +kernel) (by decide +kernel)
    (by decide +kernel) (by decide +kernel) (by decide +kernel)
  refine not_runs_of_endsWith noCands_evictedDecision (fun u hnone hu => ?_) hc
  obtain ⟨-, hcands, -⟩ := hu
  have hempty : (u.lane (3 : LaneId)).cands = [] := List.isEmpty_iff.1 hnone
  rw [hcands] at hempty
  exact List.append_ne_nil_of_right_ne_nil _ (List.cons_ne_nil _ _) hempty
end Sys2Proof.Machine
end

section
/-!
What a device's memory traffic leaves alone (`State.MemSide`): lanes, rings and lane registers stay.
-/

namespace Sys2Proof.Machine
open Sys2Proof

/-! ### What memory traffic of a device leaves alone -/

/-- From `s` to `u` at most the caches, the harts, the message-signalled interrupts, PCIe and the error records' registers change. -/
structure State.MemSide (s u : State) : Prop where
  frame : u = { s with regs := u.regs, mem := u.mem, harts := u.harts, msis := u.msis, pcie := u.pcie }
  reg : ∀ a, a ≠ rasCtl → a ≠ rasCtl + 8 → u.reg a = s.reg a

namespace State.MemSide
theorem refl (s : State) : s.MemSide s := ⟨rfl, fun _ _ _ => rfl⟩
theorem trans {s t u : State} (h : s.MemSide t) (k : t.MemSide u) : s.MemSide u := by
  obtain ⟨h1, h2⟩ := h
  obtain ⟨k1, k2⟩ := k
  refine ⟨?_, fun a ha hb => (k2 a ha hb).trans (h2 a ha hb)⟩
  rw [k1, h1]
theorem ite {s t u : State} (c : Prop) [Decidable c] (ht : s.MemSide t) (hu : s.MemSide u) : s.MemSide (if c then t else u) := by
  split
  · exact ht
  · exact hu
theorem foldl {α : Type} {f : State → α → State} (hf : ∀ (t : State) x, t.MemSide (f t x)) (l : List α) (s : State) :
    s.MemSide (l.foldl f s) := by
  induction l generalizing s with
  | nil => exact refl s
  | cons x l ih => exact (hf s x).trans (ih (f s x))
theorem mem (s : State) (m : Mem) : s.MemSide { s with mem := m } := ⟨rfl, fun _ _ _ => rfl⟩
theorem harts (s : State) (x : SMap Hart) : s.MemSide { s with harts := x } := ⟨rfl, fun _ _ _ => rfl⟩
theorem sendMsi (s : State) (a b c : Nat) : s.MemSide (s.sendMsi a b c) := by
  unfold State.sendMsi
  exact .ite _ (.refl s) ⟨rfl, fun _ _ _ => rfl⟩
theorem msix (s : State) (a b : Nat) : s.MemSide (s.msix a b) := by
  rw [State.msix_shape]
  exact ⟨rfl, fun _ _ _ => rfl⟩

theorem setReg (s : State) (a v : Nat) (ha : a = rasCtl ∨ a = rasCtl + 8) : s.MemSide (s.setReg a v) := by
  refine ⟨rfl, fun b hb hb' => State.reg_setReg_ne _ ?_ _⟩
  rintro rfl
  exact ha.elim hb hb'
theorem sendTarget (s : State) (v : Nat) : s.MemSide (s.sendTarget v) := .sendMsi s _ _ _

theorem rasRec (s : State) (r : RasIn) : s.MemSide (s.rasRec r).1 := by
  simp only [State.rasRec, fst_ite]
  refine .ite _ (.trans (setReg s _ _ (.inr rfl)) (.mem _ _)) (.trans ?_ (.ite _ (.sendTarget _ _) (.refl _)))
  exact .trans (.trans (setReg s _ _ (.inl rfl)) (.mem _ _)) (.ite _ (.msix _ 0 0) (.refl _))
theorem rasDropped (s : State) (w l : Nat) : s.MemSide (s.rasDropped w l) := by
  have hm : ∀ (u : State) a b c, u.MemSide (u.sendMsi a b c) := sendMsi
  have hr : ∀ r, s.MemSide (s.rasRec r).1 := rasRec s
  obtain ⟨f, hf⟩ : ∃ f, f = State.rasDropped := ⟨_, rfl⟩
  obtain ⟨M, hM⟩ : ∃ f, f = State.sendMsi := ⟨_, rfl⟩
  obtain ⟨R, hR⟩ : ∃ f, f = State.rasRec := ⟨_, rfl⟩
  obtain ⟨G, hG⟩ : ∃ f, f = State.reg := ⟨_, rfl⟩
  rw [← hf]
  delta State.rasDropped at hf
  rw [← hM, ← hR, ← hG] at hf
  rw [← hM] at hm
  rw [← hR] at hr
  rw [hf]
  exact (hr _).trans (.ite _ (.ite _ ((harts _ _).trans (hm _ _ _ _)) (harts _ _)) (.refl _))
theorem queueWrite (s : State) (l : Nat) (b : Bytes) (p : Bool) (ag : Nat) : s.MemSide (s.queueWrite l b p ag) := by
  unfold State.queueWrite
  exact .ite _ (.refl s) (.mem s _)
theorem evOrder (s : State) (l : Nat) : s.MemSide (s.evOrder l) := by
  unfold State.evOrder
  split
  · exact .ite _ (.queueWrite s _ _ _ _) (.refl s)
  · exact .refl s
theorem snoopOut (s : State) (l : Nat) (k : Option Nat) : s.MemSide (s.snoopOut l k) := ⟨rfl, fun _ _ _ => rfl⟩
theorem l3Place (s : State) (l ag st : Nat) (mru : Bool) : s.MemSide (s.l3Place l ag st mru) := by
  unfold State.l3Place
  dsimp only
  split
  · exact .refl s
  · split
    · exact .ite _ (.ite _ (.mem s _) (.trans (.trans (.mem s _) (.queueWrite _ _ _ _ _)) (.mem _ _))) (.mem s _)
    · exact .mem s _
theorem lineWrite (s : State) (ag l o : Nat) (b : Bytes) (p : Bool) : s.MemSide (s.lineWrite ag l o b p) := by
  unfold State.lineWrite
  dsimp only
  refine .ite _ (.rasDropped s _ _) (.trans (.trans (.evOrder s l) (.snoopOut _ l none)) (.ite _ ?_ ?_))
  · exact .trans (.mem _ _) (.queueWrite _ _ _ _ _)
  · exact .trans (.mem _ _) (.l3Place _ _ _ _ _)
theorem dramWriteBy (s : State) (ag a : Nat) (b : Bytes) (p : Bool) : s.MemSide (s.dramWriteBy ag a b p) := by
  unfold State.dramWriteBy
  exact .ite _ (.refl s) (.foldl (fun t i => .lineWrite t _ _ _ _ _) _ s)

variable {s u : State} (h : s.MemSide u)
include h
theorem lane (n : Nat) : u.lane n = s.lane n := State.lane_congr (by rw [h.frame]) n
theorem laneClk : u.laneClk = s.laneClk := by rw [h.frame]
theorem ring (n : Nat) : u.ring n = s.ring n := State.ring_congr (by rw [h.frame]) n
theorem lreg (n o : Nat) : u.lreg n o = s.lreg n o := by
  refine h.reg _ ?_ ?_ <;> (unfold laneBase rasCtl; omega)
end State.MemSide
end Sys2Proof.Machine
end

section
/-!
A lane in reset is cleared: the statement of O15.
-/

namespace Sys2Proof.Machine
open Sys2Proof

/-! ### The shelf indices of a lane in reset (R67) -/

theorem State.lreg_setLreg_zero {s : State} {n a : Nat} (o : Nat) (h : s.lreg n a = 0) : (s.setLreg n o 0).lreg n a = 0 := by
  by_cases ha : a = o
  · rw [ha, State.lreg_setLreg_self, Nat.zero_mod]
  · exact (State.reg_setReg_ne _ (by omega) _).trans h

/-- One shelf of a lane in reset. -/
def State.clearShelf (n : Nat) (s : State) (k : Nat) : State :=
  let o := shelfOff k
  let s := (s.setLreg n (o + 0xC) 0).setLreg n (o + 0x10) 0
  let l := s.lane n
  let g := if k < 8 then SMap.get 0 k l.hshGen else SMap.get 0 (k - 8) l.rshGen
  if bit (l.cfg (o + 8)) 0 then
    s.dramWriteBy (256 + n) (l.cfg (o + 0x14) + l.cfg (o + 0x18) * 2 ^ 32) (Bytes.ofNatLE 8 (g * 2 ^ 32)) false
  else s

theorem State.clearShelves_eq (s : State) (n : Nat) : s.clearShelves n = (List.range 16).foldl (State.clearShelf n) s := rfl

/-- A shelf's own part beyond its two indices: the tally word, where the shelf is enabled. -/
theorem State.clearShelf_memSide (n : Nat) (s : State) (k : Nat) :
    ((s.setLreg n (shelfOff k + 0xC) 0).setLreg n (shelfOff k + 0x10) 0).MemSide (s.clearShelf n k) :=
  .ite _ (.dramWriteBy _ _ _ _ _) (.refl _)

theorem State.lane_clearShelf (n : Nat) (s : State) (k m : Nat) : (s.clearShelf n k).lane m = s.lane m := by
  rw [(s.clearShelf_memSide n k).lane, State.lane_setLreg, State.lane_setLreg]
theorem State.ring_clearShelf (n : Nat) (s : State) (k m : Nat) : (s.clearShelf n k).ring m = s.ring m := by
  rw [(s.clearShelf_memSide n k).ring, State.ring_setLreg, State.ring_setLreg]
theorem State.laneClk_clearShelf (n : Nat) (s : State) (k : Nat) : (s.clearShelf n k).laneClk = s.laneClk := by
  rw [(s.clearShelf_memSide n k).laneClk]
  simp [State.setLreg]
theorem State.lreg_clearShelf_zero {n a : Nat} {s : State} (k : Nat) (h : s.lreg n a = 0) : (s.clearShelf n k).lreg n a = 0 := by
  rw [(s.clearShelf_memSide n k).lreg]
  exact State.lreg_setLreg_zero _ (State.lreg_setLreg_zero _ h)
theorem State.lreg_clearShelf_self (n : Nat) (s : State) (k : Nat) :
    (s.clearShelf n k).lreg n (shelfOff k + 0xC) = 0 ∧ (s.clearShelf n k).lreg n (shelfOff k + 0x10) = 0 := by
  rw [(s.clearShelf_memSide n k).lreg, (s.clearShelf_memSide n k).lreg]
  exact ⟨State.lreg_setLreg_zero _ (State.lreg_setLreg_self _ _ _ _), State.lreg_setLreg_self _ _ _ _⟩

/-- What clearing shelves keeps, and the indices of the shelves it has cleared. -/
theorem State.foldl_clearShelf (n : Nat) : ∀ (ks : List Nat) (s : State),
    let u := ks.foldl (State.clearShelf n) s
    (∀ m, u.lane m = s.lane m) ∧ (∀ m, u.ring m = s.ring m) ∧ u.laneClk = s.laneClk
      ∧ (∀ a, s.lreg n a = 0 → u.lreg n a = 0)
      ∧ ∀ k ∈ ks, u.lreg n (shelfOff k + 0xC) = 0 ∧ u.lreg n (shelfOff k + 0x10) = 0
  | [], s => ⟨fun _ => rfl, fun _ => rfl, rfl, fun _ h => h, by simp⟩
  | k :: ks, s => by
    obtain ⟨hlane, hring, hclk, hzero, hdone⟩ := State.foldl_clearShelf n ks (s.clearShelf n k)
    refine ⟨fun m => (hlane m).trans (s.lane_clearShelf n k m), fun m => (hring m).trans (s.ring_clearShelf n k m),
      hclk.trans (s.laneClk_clearShelf n k), fun a ha => hzero a (State.lreg_clearShelf_zero k ha), fun j hj => ?_⟩
    rcases List.mem_cons.1 hj with rfl | hj
    · exact ⟨hzero _ (s.lreg_clearShelf_self n j).1, hzero _ (s.lreg_clearShelf_self n j).2⟩
    · exact hdone j hj

/-! ### A cleared lane, a record at its port -/

/-- Keeping the entries whose keys pass a test keeps what a passing key finds, and a failing key finds nothing. -/
theorem SMap.find_filter {α : Type} (q : Nat → Bool) (k : Nat) :
    ∀ m : SMap α, SMap.find k (m.filter (fun p => q p.1)) = if q k then SMap.find k m else none
  | [] => by simp [SMap.find]
  | (j, v) :: m => by
    have ih := SMap.find_filter q k m
    rw [List.filter_cons]
    by_cases hj : k = j
    · subst hj
      cases hq : q k <;> simp_all [SMap.find]
    · have hstep : SMap.find k ((j, v) :: m) = SMap.find k m := by simp [SMap.find, Ne.symm hj]
      rw [hstep, ← ih]
      split
      · simp [SMap.find, Ne.symm hj]
      · rfl

/-- Clearing a lane empties the tiles and keeps the memory above them. -/
theorem Lane.tmem_clear (l : Lane) (clk a : Nat) :
    SMap.get 0 a (l.clear clk).tmem = if a < tileCount * 256 then 0 else SMap.get 0 a l.tmem := by
  have hfind : SMap.find a (l.clear clk).tmem = if decide (a ≥ tileCount * 256) then SMap.find a l.tmem else none :=
    SMap.find_filter (fun b => decide (b ≥ tileCount * 256)) a l.tmem
  rw [SMap.get, SMap.get, hfind]
  by_cases ha : a < tileCount * 256
  · simp [ha, Nat.not_le.2 ha]
  · simp [ha, Nat.le_of_not_lt ha]

theorem length_enqueueRec (r : PortRec) : ∀ xs : List PortRec, (enqueueRec r xs).length = xs.length + 1
  | [] => rfl
  | x :: xs => by
    unfold enqueueRec
    split
    · rfl
    · rw [List.length_cons, length_enqueueRec r xs, List.length_cons]
theorem mem_enqueueRec (r : PortRec) : ∀ xs : List PortRec, r ∈ enqueueRec r xs
  | [] => List.mem_singleton.2 rfl
  | x :: xs => by
    unfold enqueueRec
    split
    · exact List.mem_cons_self
    · exact List.mem_cons_of_mem _ (mem_enqueueRec r xs)

theorem State.ring_present_self (s : State) (k : Nat) (r : PortRec) :
    ((s.present k r).ring k).waiting = enqueueRec { r with clk := s.laneClk } (s.ring k).waiting := by
  simp [State.present, State.modRing]
theorem State.length_waiting_discardAcks (s : State) (n : Nat) :
    ((s.discardAcks n).ring n).waiting.length = (s.ring n).waiting.length := by
  simp [State.discardAcks, State.modRing]

theorem State.lane_discardAcks (s : State) (n m : Nat) : (s.discardAcks n).lane m = s.lane m := rfl
theorem State.lane_present (s : State) (k : Nat) (r : PortRec) (m : Nat) : (s.present k r).lane m = s.lane m := rfl
theorem State.lreg_present (s : State) (k : Nat) (r : PortRec) (m o : Nat) : (s.present k r).lreg m o = s.lreg m o := rfl

/-- The state of LANE_RESET_CLEAR before the reset record is presented. -/
def State.resetCleared (s : State) (n : Nat) (r : ResetBook) : State :=
  ((s.discardAcks n).modLane n (fun l => { l.clear (s.discardAcks n).laneClk with reset := some { r with cleared := true } })).clearShelves n

theorem exec_laneResetClear {n : LaneId} {r : ResetBook} {s : State} (hst : (s.lane n).st = 4) (hr : (s.lane n).reset = some r)
    (hc : r.cleared = false) (hstn : (s.lane n).stn.run = none) (heng : ∀ p ∈ (s.lane n).eng, p.2.run = none) :
    exec (.laneResetClear n) s = .next ((s.resetCleared n r).present n
      { src := .laneHw n 4096, agent := 256 + n, hw := true
        bytes := recBytes 0x01 (if (s.lostMsgs n).1.isEmpty then 0 else 0x150A) 1
          (resetPayload (s.lostMsgs n).1 (s.lostMsgs n).2 r.agent) }) := by
  have hidle : (s.lane n).eng.any (fun p => p.2.run.isSome) = false := by
    rw [List.any_eq_false]
    intro p hp
    simp [heng p hp]
  refine (execLaneResetClear.eq_1 n s).trans ?_
  dsimp only
  rw [hr]
  dsimp only
  rw [if_neg (by simp [hst, hc, hstn, hidle])]
  rfl

/-- Settles O15: the lane's own state is that of `Lane.clear`, its shelf indices are those that `clearShelves` leaves, and the
reset record is the one that joins the lane's port. -/
theorem laneResetClearCompletes : Obligations.LaneResetClearCompletes := by
  unfold Obligations.LaneResetClearCompletes
  intro n r s hst hr hc hstn heng
  refine ⟨_, exec_laneResetClear hst hr hc hstn heng, ?_⟩
  obtain ⟨hlane, hring, hclk, -, hdone⟩ := State.foldl_clearShelf n (List.range 16)
    ((s.discardAcks n).modLane n (fun l => { l.clear (s.discardAcks n).laneClk with reset := some { r with cleared := true } }))
  rw [← State.clearShelves_eq] at hlane hring hclk hdone
  change ∀ m, (s.resetCleared n r).lane m = _ at hlane
  change ∀ m, (s.resetCleared n r).ring m = _ at hring
  change (s.resetCleared n r).laneClk = _ at hclk
  change ∀ k ∈ List.range 16, (s.resetCleared n r).lreg n _ = 0 ∧ (s.resetCleared n r).lreg n _ = 0 at hdone
  generalize s.resetCleared n r = u at *
  simp only [State.lane_present, State.lreg_present]
  have hself : u.lane n = { (s.lane n).clear s.laneClk with reset := some { r with cleared := true } } := by
    rw [hlane, State.modLane, State.lane_setLane_self]; rfl
  rw [hself, State.ring_present_self, hring]
  refine ⟨hst, rfl, rfl, rfl, rfl, rfl, rfl, fun a ha => ?_, fun a ha => ?_, fun m hm => ?_, fun k => ?_, ?_, ?_⟩
  · exact ((s.lane n).tmem_clear s.laneClk a).trans (if_pos ha)
  · exact ((s.lane n).tmem_clear s.laneClk a).trans (if_neg (Nat.not_lt.2 ha))
  · rw [hlane, State.modLane, State.lane_setLane_ne _ hm]; rfl
  · exact hdone k (List.mem_range.2 k.isLt)
  · rw [length_enqueueRec]
    exact congrArg (· + 1) (s.length_waiting_discardAcks n)
  · exact ⟨_, mem_enqueueRec _ _, rfl, rfl, rfl⟩
end Sys2Proof.Machine
end

section
/-!
A boundary at which a takeover takes a waiting hart's reservation: the negation of O14's statement.
-/

namespace Sys2Proof.Machine
open Sys2Proof Sys2Proof.Tests

/-! ### The witness of the refutation of O14

A takeover is due at the boundary. It clears the shelves of the lane taken over and so writes a tally word, and the write takes
the reservation of a hart that waits for the same boundary. -/

def takenLane : Lane :=
  { st := 5
    live := [(0x2200, BitVec.ofNat 32 dramBase), (0x2204, BitVec.ofNat 32 (dramBase / 2 ^ 32)), (0x2208, 1),
      (0x2214, BitVec.ofNat 32 dramBase), (0x2218, BitVec.ofNat 32 (dramBase / 2 ^ 32))] }
/-- Waits for beat 0 and holds a reservation on the tally word's line. -/
def reservedHart : Hart := { wait := .beat 5 0, run := true, resv := some (dramBase / 64) }
def takeoverDue : State :=
  { wLane takenLane with
    harts := [(7, reservedHart)]
    twin := { takeover := .ready, takeLanes := 8 } }

/-! ### A lane at a boundary changes no hart -/

theorem State.harts_raiseIrq (s : State) (a b : Nat) : (s.raiseIrq a b).harts = s.harts := by simp
theorem State.harts_laneMove (s : State) (n : Nat) : (s.laneMove n).harts = s.harts := by
  unfold State.laneMove
  dsimp only
  (repeat' split) <;> simp
theorem State.harts_modLane (s : State) (n : Nat) (f : Lane → Lane) : (s.modLane n f).harts = s.harts := rfl
theorem State.harts_snapShelf (s : State) (n : Nat) : (s.snapShelf n).harts = s.harts := by
  unfold State.snapShelf State.linkSend
  dsimp only
  split <;> rfl
theorem State.harts_configApply (s : State) (n : Nat) : (s.configApply n).harts = s.harts := by
  unfold State.configApply
  generalize s.applyCode n = c
  dsimp only
  split
  · split
    · rw [State.harts_snapShelf, State.harts_raiseIrq, State.harts_modLane]
    · rw [State.harts_raiseIrq, State.harts_modLane]
  · rfl
theorem State.harts_lpmu (s : State) (n i k : Nat) : (s.lpmu n i k).harts = s.harts := by simp
theorem State.harts_ite (c : Prop) [Decidable c] (s u : State) : (if c then s else u).harts = if c then s.harts else u.harts := by
  split <;> rfl
theorem State.harts_admitBoundary (s : State) (n : Nat) : (s.admitBoundary n).harts = s.harts := by
  unfold State.admitBoundary
  dsimp only
  rw [State.harts_ite, State.harts_lpmu, ite_self, State.harts_ite, State.harts_lpmu, ite_self]
  rfl
theorem State.harts_flushNotify (s : State) (n : Nat) : (s.flushNotify n).harts = s.harts := by
  unfold State.flushNotify
  generalize List.range 16 = ks
  induction ks generalizing s with
  | nil => rfl
  | cons k ks ih =>
    rw [List.foldl_cons, ih]
    dsimp only
    (repeat' split) <;> simp
theorem State.harts_laneBoundary (s : State) (n : Nat) : (s.laneBoundary n).harts = s.harts := by
  have hmove := State.harts_laneMove s n
  have hconfig := State.harts_configApply (s.laneMove n) n
  have hadmit := State.harts_admitBoundary ((s.laneMove n).configApply n) n
  have hflush := State.harts_flushNotify ((((s.laneMove n).configApply n).admitBoundary n).modLane n (·.wakeBeat)) n
  rw [State.harts_modLane, hadmit, hconfig, hmove] at hflush
  exact hflush
theorem State.harts_foldl_laneBoundary (ns : List Nat) (s : State) : (ns.foldl State.laneBoundary s).harts = s.harts := by
  induction ns generalizing s with
  | nil => rfl
  | cons n ns ih => rw [List.foldl_cons, ih, State.harts_laneBoundary]

/-- The boundary up to the takeovers due at it. -/
def State.boundaryStart (s : State) (off : Int) : State :=
  let s : State := { s with laneClk := s.laneClk + (s.btm.len - s.btm.cyc), btm := s.btm.boundary off }
  let s : State := { s with mem := s.mem.partApply }
  let s := s.beatSend
  (if s.btm.beat % 100 = 0 then s.handoverSwitch else s).takeoverSwitch

theorem Hart.resv_count (x : Hart) (i : Nat) : (x.count i).resv = x.resv := by
  unfold Hart.count
  dsimp only
  split
  · split <;> rfl
  · rfl
theorem Hart.resv_wr (x : Hart) (r : Nat) (v : D64) : (x.wr r v).resv = x.resv := by
  unfold Hart.wr
  split <;> rfl
theorem Hart.resv_ret (x : Hart) (rd : Nat) (v : D64) (k : Nat) : (x.ret rd v k).resv = x.resv := by
  unfold Hart.ret
  dsimp only
  rw [Hart.resv_count, Hart.resv_count]
  exact Hart.resv_wr x rd v
theorem Hart.resv_beatWake (x : Hart) (b : Nat) : (x.beatWake b).resv = x.resv := by
  unfold Hart.beatWake
  split
  · split
    · exact Hart.resv_ret x _ _ _
    · rfl
  · rfl

/-- The boundary from its lanes' own moves on. -/
def State.boundaryEnd (s : State) : State :=
  let s : State := { s with gar := { s.gar with standby := s.tai } }
  { s with harts := s.harts.map (fun (p : Nat × Hart) => (p.1, p.2.beatWake s.btm.beat)) }

theorem exec_beatBoundary {off : Int} {s : State} (hrun : s.btm.running = true) :
    exec (.beatBoundary off) s
      = .next (((List.range 16).foldl State.laneBoundary (s.boundaryStart off)).boundaryEnd) := by
  have hexec : exec (.beatBoundary off) s = execBeatBoundary off s := rfl
  rw [hexec]
  unfold execBeatBoundary State.boundaryEnd State.boundaryStart
  -- the parts are abstract in what follows, so that no check unfolds them
  obtain ⟨lane, hlane⟩ : ∃ f, f = State.laneBoundary := ⟨_, rfl⟩
  obtain ⟨take, htake⟩ : ∃ f, f = State.takeoverSwitch := ⟨_, rfl⟩
  obtain ⟨give, hgive⟩ : ∃ f, f = State.handoverSwitch := ⟨_, rfl⟩
  obtain ⟨send, hsend⟩ : ∃ f, f = State.beatSend := ⟨_, rfl⟩
  obtain ⟨tai, htai⟩ : ∃ f, f = State.tai := ⟨_, rfl⟩
  rw [← hlane, ← htake, ← hgive, ← hsend, ← htai]
  generalize List.range 16 = ks
  rw [if_neg (by simp [hrun])]

theorem State.harts_boundaryEnd (s : State) :
    s.boundaryEnd.harts = s.harts.map (fun p => (p.1, p.2.beatWake s.btm.beat)) := rfl
/-- The harts after a boundary: those of the boundary's start, each woken where its beat has come. -/
theorem State.harts_boundary (s : State) :
    ∃ b, (((List.range 16).foldl State.laneBoundary s).boundaryEnd).harts = s.harts.map (fun p => (p.1, p.2.beatWake b)) :=
  ⟨_, (State.harts_boundaryEnd _).trans (congrArg _ (State.harts_foldl_laneBoundary _ s))⟩

theorem harts_takeoverDue : (takeoverDue.boundaryStart 0).harts = [(7, { reservedHart with resv := none })] := by decide +kernel

/-- Refutes O14: a hart whose target beat has come need not go on with the rest of its state unchanged, since the takeover at
the same boundary may take its reservation. -/
theorem not_beatOperationsComplete : ¬ Obligations.BeatOperationsComplete := by
  unfold Obligations.BeatOperationsComplete
  rintro ⟨-, h, -⟩
  have hrun : takeoverDue.btm.running = true := by decide +kernel
  obtain ⟨⟨u, hu, -, -, -, -, -, -, -, -, hwake⟩, -⟩ := h 0 takeoverDue hrun
  obtain rfl := Host.Outcome.next.inj (hu.symm.trans (exec_beatBoundary hrun))
  obtain ⟨b, hharts⟩ := (takeoverDue.boundaryStart 0).harts_boundary
  have hret := hwake 7 5 0 (by decide +kernel) (by decide +kernel) (by decide +kernel) (by decide +kernel)
  rw [harts_takeoverDue] at hharts
  have hlost := congrArg (fun m => (SMap.get {} 7 m : Hart).resv) hharts
  have hwoken : ∀ x : Hart, (SMap.get {} 7 ([(7, x)].map (fun p => (p.1, p.2.beatWake b))) : Hart).resv = x.resv :=
    fun x => Hart.resv_beatWake x b
  rw [hwoken] at hlost
  change (State.hart _ 7).resv = none at hlost
  rw [hret] at hlost
  exact absurd hlost (by decide +kernel)
end Sys2Proof.Machine
end

section
/-!
Harts: what a retirement, a wrapped counter and a trap touch: the statement of O34.
-/

namespace Sys2Proof.Machine
open Sys2Proof

/-! ### Harts: frames and the counters of a retirement -/

theorem State.onlyHart_modHart (s : State) (h : Nat) (f : Hart → Hart) : s.onlyHart (s.modHart h f) h :=
  ⟨rfl, fun _ e => State.hart_modHart_ne s e f⟩
theorem State.onlyHart.trans {s t u : State} {h : Nat} (a : s.onlyHart t h) (b : t.onlyHart u h) : s.onlyHart u h := by
  obtain ⟨a1, a2⟩ := a
  obtain ⟨b1, b2⟩ := b
  exact ⟨by rw [b1, a1], fun k e => (b2 k e).trans (a2 k e)⟩
theorem State.onlyHart_hartRet (s : State) (h rd v : Nat) : s.onlyHart (s.hartRet h rd v) h := s.onlyHart_modHart h _
theorem State.onlyHart_hcount (s : State) (h i : Nat) : s.onlyHart (s.hcount h i) h := s.onlyHart_modHart h _
@[simp] theorem State.hart_hartRet_self (s : State) (h rd v : Nat) :
    (s.hartRet h rd v).hart h = (s.hart h).ret rd (BitVec.ofNat 64 v) 4 := State.hart_modHart_self _ _ _

/-- A counted event touches `pmu` and, at a wrap, sscountovf's word of the counter and mip. -/
theorem Hart.count_frame (x : Hart) (i : Nat) : x.count i = { x with pmu := (x.count i).pmu, csr := (x.count i).csr } := by
  unfold Hart.count
  dsimp only
  split
  · split <;> rfl
  · rfl
theorem Hart.find_csr_count (x : Hart) {i n : Nat} (h : n ≠ 0x320 + i) (hip : n ≠ 0x344) :
    SMap.find n (x.count i).csr = SMap.find n x.csr := by
  unfold Hart.count
  dsimp only
  split
  · split <;> simp [h, hip]
  · rfl
theorem Hart.csrV_count (x : Hart) {i n : Nat} (h : n ≠ 0x320 + i) (hip : n ≠ 0x344) : (x.count i).csrV n = x.csrV n := by
  unfold Hart.csrV SMap.get
  rw [x.find_csr_count h hip]
theorem Hart.x_count (x : Hart) (i : Nat) : (x.count i).x = x.x := by rw [Hart.count_frame]
theorem Hart.pc_count (x : Hart) (i : Nat) : (x.count i).pc = x.pc := by rw [Hart.count_frame]
theorem Hart.ras_count (x : Hart) (i : Nat) : (x.count i).ras = x.ras := by rw [Hart.count_frame]
theorem Hart.trained_count (x : Hart) (i : Nat) : (x.count i).trained = x.trained := by rw [Hart.count_frame]
theorem Hart.wr_frame (x : Hart) (r : Nat) (v : D64) : x.wr r v = { x with x := (x.wr r v).x } := by
  unfold Hart.wr
  split <;> rfl

/-- A retirement as one record update: the result, the pc, and what the counters 2 and 4 touch. -/
theorem Hart.ret_frame (x : Hart) (rd : Nat) (v : D64) (k : Nat) :
    x.ret rd v k = { x with x := (x.wr rd v).x, pc := x.pc + BitVec.ofNat 64 k, wait := .none,
                            csr := (x.ret rd v k).csr, pmu := (x.ret rd v k).pmu } := by
  unfold Hart.ret
  dsimp only
  rw [Hart.count_frame (Hart.count _ 2) 4, Hart.count_frame _ 2]
  dsimp only
  rw [Hart.wr_frame]
theorem Hart.x_ret (x : Hart) (rd : Nat) (v : D64) (k : Nat) : (x.ret rd v k).x = (x.wr rd v).x := by rw [Hart.ret_frame]
@[simp] theorem Hart.x_ret_zero (x : Hart) (v : D64) (k : Nat) : (x.ret 0 v k).x = x.x := by rw [Hart.x_ret]; rfl
@[simp] theorem Hart.pc_ret (x : Hart) (rd : Nat) (v : D64) (k : Nat) : (x.ret rd v k).pc = x.pc + BitVec.ofNat 64 k := by
  rw [Hart.ret_frame]
@[simp] theorem Hart.ras_ret (x : Hart) (rd : Nat) (v : D64) (k : Nat) : (x.ret rd v k).ras = x.ras := by rw [Hart.ret_frame]
@[simp] theorem Hart.trained_ret (x : Hart) (rd : Nat) (v : D64) (k : Nat) : (x.ret rd v k).trained = x.trained := by
  rw [Hart.ret_frame]
theorem Hart.rd_ret_self (x : Hart) {rd : Nat} (v : D64) (k : Nat) (h : rd ≠ 0) : (x.ret rd v k).rd rd = v := by
  have e : (x.ret rd v k).rd rd = (x.wr rd v).rd rd := by unfold Hart.rd; rw [Hart.x_ret]
  rw [e, Hart.rd_wr_self x rd v h]
/-- A retirement leaves every CSR but the words of counters 2 and 4 and mip. -/
theorem Hart.csrV_ret (x : Hart) (rd : Nat) (v : D64) (k : Nat) {n : Nat} (h2 : n ≠ 0x322) (h4 : n ≠ 0x324) (hip : n ≠ 0x344) :
    (x.ret rd v k).csrV n = x.csrV n := by
  unfold Hart.ret
  dsimp only
  rw [Hart.csrV_count _ h4 hip, Hart.csrV_count _ h2 hip]
  unfold Hart.csrV
  rw [Hart.wr_frame]
theorem Hart.csrV_setCsr_self (x : Hart) (n v : Nat) : (x.setCsr n v).csrV n = v % 2 ^ 64 := by
  simp [Hart.csrV, Hart.setCsr, SMap.get]
theorem Hart.csrV_lt (x : Hart) (n : Nat) : x.csrV n < 2 ^ 64 := (SMap.get _ n x.csr).isLt

/-! ### The harts' system operations: the statement of O34 -/

section
variable {s : State} {h : HartId}

theorem runs_hart {c : Instr} {f : State → Hart → State} {p : State → Prop} (hc : exec c s = s.hartIssue h f)
    (hr : (s.hart h).ready = true) (ha : (s.hart h).armed = false) (hp : p (f s (s.hart h))) : Runs c s p :=
  ⟨_, hc.trans (State.hartIssue_ready f hr ha), hp⟩

theorem Hart.sVendorTrap_m {x : Hart} (hp : x.priv = 3) : x.sVendorTrap = none := by simp [Hart.sVendorTrap, hp]

/-- kseal's SEAL takes the written bit unless SEAL_FORCE is set. -/
theorem Hart.csrV_ksealWrite {x : Hart} (v : Nat) (hf : bit (x.csrV 0x7C0) 16 = false) : (x.ksealWrite v).csrV 0x5C0 = v % 2 := by
  have e : (x.setCsr 0x5C0 (v % 2)).csrV 0x5C0 = v % 2 := by
    rw [Hart.csrV_setCsr_self]
    omega
  unfold Hart.ksealWrite
  rw [hf]
  dsimp only [Bool.false_eq_true, if_false]
  split <;> exact e
theorem Hart.x_ksealWrite (x : Hart) (v : Nat) : (x.ksealWrite v).x = x.x ∧ (x.ksealWrite v).pc = x.pc := by
  unfold Hart.ksealWrite
  dsimp only
  split <;> split <;> exact ⟨rfl, rfl⟩
theorem Hart.flushed_ksealWrite (x : Hart) {v : Nat} (hv : bit v 1 = true) :
    (x.ksealWrite v).ras = [] ∧ (x.ksealWrite v).trained = false := by
  unfold Hart.ksealWrite
  rw [hv]
  exact ⟨rfl, rfl⟩

theorem runs_ksealWrite (hr : (s.hart h).ready = true) (ha : (s.hart h).armed = false) (hp : (s.hart h).priv = 3) (v : W32)
    (hf : bit ((s.hart h).csrV 0x7C0) 16 = false) : Runs (.ksealWrite h v) s fun u =>
      (u.hart h).csrV 0x5C0 = v.toNat % 2 ∧ (u.hart h).pc = (s.hart h).pc + 4 ∧ (u.hart h).x = (s.hart h).x
        ∧ (bit v.toNat 1 = true → (u.hart h).ras = [] ∧ (u.hart h).trained = false) ∧ s.onlyHart u h := by
  refine runs_hart (execKsealWrite.eq_1 h v s) hr ha ?_
  rw [Hart.sVendorTrap_m hp]
  dsimp only
  rw [State.hart_modHart_self]
  obtain ⟨hx, hpc⟩ := (s.hart h).x_ksealWrite v.toNat
  refine ⟨?_, by rw [Hart.pc_ret, hpc]; rfl, by rw [Hart.x_ret_zero, hx], fun hv => ?_, s.onlyHart_modHart h _⟩
  · rw [Hart.csrV_ret _ _ _ _ (by decide) (by decide) (by decide), Hart.csrV_ksealWrite _ hf]
  · rw [Hart.ras_ret, Hart.trained_ret]
    exact Hart.flushed_ksealWrite _ hv

theorem runs_bpflush (hr : (s.hart h).ready = true) (ha : (s.hart h).armed = false) (hp : (s.hart h).priv = 3) :
    Runs (.bpflush h) s fun u => (u.hart h).ras = [] ∧ (u.hart h).trained = false ∧ (u.hart h).pc = (s.hart h).pc + 4
      ∧ (u.hart h).csrV 0x5C0 = (s.hart h).csrV 0x5C0 ∧ (u.hart h).x = (s.hart h).x ∧ s.onlyHart u h := by
  refine runs_hart (execBpflush.eq_1 h s) hr ha ?_
  rw [Hart.sVendorTrap_m hp]
  dsimp only
  rw [State.hart_modHart_self]
  exact ⟨by rw [Hart.ras_ret]; rfl, by rw [Hart.trained_ret]; rfl, by rw [Hart.pc_ret]; rfl,
    Hart.csrV_ret _ _ _ _ (by decide) (by decide) (by decide), by rw [Hart.x_ret_zero]; rfl, s.onlyHart_modHart h _⟩

theorem runs_kerrrecRead (hr : (s.hart h).ready = true) (ha : (s.hart h).armed = false) (hp : (s.hart h).priv = 3) (rd : XReg) :
    Runs (.kerrrecRead h rd) s fun u => (rd.val ≠ 0 → (u.hart h).rd rd = BitVec.ofNat 64 ((s.hart h).csrV 0xDC0))
      ∧ (u.hart h).csrV 0xDC0 = (s.hart h).csrV 0xDC0 % 2 ^ 31 ∧ (u.hart h).pc = (s.hart h).pc + 4 ∧ s.onlyHart u h := by
  refine runs_hart (execKerrrecRead.eq_1 h rd s) hr ha ?_
  rw [Hart.sVendorTrap_m hp]
  dsimp only
  rw [State.hart_modHart_self]
  refine ⟨fun hrd => Hart.rd_ret_self _ _ _ hrd, ?_, Hart.pc_ret _ _ _ _, s.onlyHart_modHart h _⟩
  rw [Hart.csrV_ret _ _ _ _ (by decide) (by decide) (by decide)]
  dsimp only [Hart.kerrrec]
  rw [Hart.csrV_setCsr_self]
  omega

theorem runs_vendorCounterRead (hr : (s.hart h).ready = true) (ha : (s.hart h).armed = false) (hp : (s.hart h).priv = 3) (rd : XReg)
    {csr i : Nat} (hi : vcIndex csr = some i) (hc : countedEvents.contains i = true) : Runs (.vendorCounterRead h rd csr) s fun u =>
      (rd.val ≠ 0 → (u.hart h).rd rd = BitVec.ofNat 64 (SMap.get 0 i (s.hart h).pmu % 2 ^ 32))
        ∧ (u.hart h).csrV 0xCC2 = (2 ^ 31 + i * 2 ^ 16 + SMap.get 0 i (s.hart h).pmu / 2 ^ 32) % 2 ^ 64
        ∧ (u.hart h).pc = (s.hart h).pc + 4 ∧ s.onlyHart u h := by
  refine runs_hart (execVendorCounterRead.eq_1 h rd csr s) hr ha ?_
  rw [hi]
  dsimp only
  rw [show (s.hart h).vcTrap i = none by simp [Hart.vcTrap, hp]]
  simp only [State.vcRead, State.counter, hc, if_true, State.hart_hartRet_self, State.hart_modHart_self]
  refine ⟨fun hrd => Hart.rd_ret_self _ _ _ hrd, ?_, Hart.pc_ret _ _ _ _,
    (s.onlyHart_modHart h _).trans (State.onlyHart_hartRet _ h rd _)⟩
  rw [Hart.csrV_ret _ _ _ _ (by decide) (by decide) (by decide), Hart.csrV_setCsr_self]

/-- A counter at its last value wraps to 0 and sets its OF bit, where it has one. -/
theorem Hart.count_wraps (x : Hart) {i : Nat} (h : SMap.get 0 i x.pmu = 2 ^ 48 - 1) (hi : i < 32) :
    SMap.get 0 i (x.count i).pmu = 0 ∧ (3 ≤ i → (SMap.get 0 (0x320 + i) (x.count i).csr).getLsbD 63 = true) := by
  have hne : 0x320 + i ≠ 0x344 := by omega
  have hmod : (2 ^ 48 - 1 + 1) % 2 ^ 48 = 0 := by decide
  unfold Hart.count
  dsimp only
  rw [h, hmod]
  by_cases h3 : 3 ≤ i
  · rw [if_pos ⟨rfl, h3, by omega⟩]
    refine ⟨?_, fun _ => ?_⟩
    · split <;> simp
    · split <;> simp [SMap.get, hne]
  · rw [if_neg (fun hh => h3 hh.2.1)]
    exact ⟨by simp, fun hh => absurd hh h3⟩

theorem runs_counterOverflow (i : Fin 32) : Runs (.counterOverflow h i) s fun u =>
    SMap.get 0 i (u.hart h).pmu = 0 ∧ (3 ≤ i.val → ((SMap.get 0 (0x320 + i) (u.hart h).csr)).getLsbD 63 = true)
      ∧ (u.hart h).x = (s.hart h).x ∧ (u.hart h).pc = (s.hart h).pc ∧ s.onlyHart u h := by
  refine ⟨_, execCounterOverflow.eq_1 h i s, ?_⟩
  dsimp only
  rw [State.hart_modHart_self]
  obtain ⟨h0, hof⟩ := Hart.count_wraps { s.hart h with pmu := SMap.set 0 i (2 ^ 48 - 1) (s.hart h).pmu } (i := i) (by simp) i.isLt
  exact ⟨h0, hof, by rw [Hart.x_count], by rw [Hart.pc_count], s.onlyHart_modHart h _⟩

/-- With no single step asked for, the end of an instruction changes nothing. -/
theorem Hart.stepped_unarmed {x : Hart} (y : Hart) (ha : x.armed = false) : y.stepped x = y := by
  unfold Hart.armed at ha
  unfold Hart.stepped
  rw [(Bool.or_eq_false_iff.mp ha).2]
  rfl

theorem runs_hartInterrupt {i : Nat} (hrun : (s.hart h).run = true) (hh : (s.hart h).halted = false) (hw : (s.hart h).wait = .none)
    (ha : (s.hart h).armed = false) (ht : s.takeable h = some i) : Runs (.hartInterrupt h) s fun u =>
      u.hart h = (s.hart h).trapTo true i 0 0 ∧ (∀ k, k ≠ h.val → u.hart k = s.hart k) := by
  have hd : (s.discard h).hart h = s.hart h := by
    unfold State.discard
    rw [State.hart_modHart_self]
    change { s.hart h with wait := HartWait.none } = s.hart h
    rw [← hw]
  refine ⟨(s.discard h).modHart h (fun x => (x.trapTo true i 0 0).stepped x), ?_, ?_, fun k hk => ?_⟩
  · refine (execHartInterrupt.eq_1 h s).trans ?_
    simp [hrun, hh, hw, ht]
  · rw [State.hart_modHart_self, hd, Hart.stepped_unarmed _ ha]
  · rw [State.hart_modHart_ne _ hk, State.discard, State.hart_modHart_ne _ hk]
    rfl

end

/-- Settles O34: one lemma per operation; a retirement's counters touch neither the vendor CSRs nor the predictors. -/
theorem hartSystemOperationsComplete : Obligations.HartSystemOperationsComplete := by
  intro h rd s x
  refine ⟨fun hr ha hp => ⟨fun v hf => runs_ksealWrite hr ha hp v hf, runs_bpflush hr ha hp, runs_kerrrecRead hr ha hp rd,
    fun csr i hi hc => runs_vendorCounterRead hr ha hp rd hi hc⟩, fun i => runs_counterOverflow i,
    fun i hrun hh hw ha ht => runs_hartInterrupt hrun hh hw ha ht⟩

end Sys2Proof.Machine
end

section
/-!
Harts: the vendor instructions of a hart that may issue them: the statement of O33.
-/

namespace Sys2Proof.Machine
open Sys2Proof

/-! ### The harts' vendor operations: the statement of O33 -/

section
variable {s : State} {h : HartId} {rd rs1 rs2 : XReg}

/-- A vendor instruction that the hart's mode permits does its work. -/
theorem State.vendorDo_permitted {sb ub vb : Option Nat} (f : State → Hart → State) (hv : (s.hart h).vendor sb ub vb = none) :
    s.vendorDo h sb ub vb f = f s (s.hart h) := by
  unfold State.vendorDo
  rw [hv]

theorem runs_hartBeatRead (hr : (s.hart h).ready = true) (ha : (s.hart h).armed = false)
    (hv : (s.hart h).vendor none (some 4) (some 5) = none) : Runs (.hartBeatRead h rd) s fun u =>
      u.hart h = (s.hart h).ret rd (BitVec.ofNat 64 s.btm.beat) 4 ∧ s.onlyHart u h := by
  refine runs_hart (execHartBeatRead.eq_1 h rd s) hr ha ?_
  rw [State.beatRead, State.vendorDo_permitted _ hv]
  exact ⟨State.hart_hartRet_self _ _ _ _, s.onlyHart_hartRet h rd _⟩

theorem runs_hartBeatWait_reached (hr : (s.hart h).ready = true) (ha : (s.hart h).armed = false)
    (hv : (s.hart h).vendor none (some 4) (some 5) = none) (hb : ((s.hart h).rd rs1).toNat ≤ s.btm.beat) :
    Runs (.hartBeatWait h rd rs1) s fun u =>
      u.hart h = (s.hart h).ret rd (BitVec.ofNat 64 s.btm.beat) 4 ∧ s.onlyHart u h := by
  refine runs_hart (execHartBeatWait.eq_1 h rd rs1 s) hr ha ?_
  rw [State.beatWait, State.vendorDo_permitted _ hv]
  dsimp only
  rw [if_pos hb]
  exact ⟨State.hart_hartRet_self _ _ _ _, s.onlyHart_hartRet h rd _⟩

theorem runs_hartBeatWait_waits (hr : (s.hart h).ready = true) (ha : (s.hart h).armed = false)
    (hv : (s.hart h).vendor none (some 4) (some 5) = none) (hb : s.btm.beat < ((s.hart h).rd rs1).toNat)
    (ht : s.takeable h = none) (hl : s.localPend h = false) : Runs (.hartBeatWait h rd rs1) s fun u =>
      u.hart h = { s.hart h with wait := .beat rd ((s.hart h).rd rs1).toNat } ∧ s.onlyHart u h := by
  refine runs_hart (execHartBeatWait.eq_1 h rd rs1 s) hr ha ?_
  rw [State.beatWait, State.vendorDo_permitted _ hv]
  dsimp only
  rw [if_neg (Nat.not_le.mpr hb), ht]
  simp only [hl, Bool.false_eq_true, if_false]
  exact ⟨State.hart_modHart_self _ _ _, s.onlyHart_modHart h _⟩

theorem runs_hmCheck {ps : List (Nat × Nat)} {k : Bytes} {t : State} (et : s.hcount h 51 = t) (hr : (s.hart h).ready = true) (ha : (s.hart h).armed = false)
    (hv : (s.hart h).vendor (some 8) (some 9) (some 10) = none) (hal : ((s.hart h).rd rs1).toNat % 8 = 0)
    (hn : 33 ≤ ((s.hart h).rd rs2).toNat) (hn' : ((s.hart h).rd rs2).toNat ≤ 2048)
    (hps : t.vendorRange h 1 ((s.hart h).rd rs1).toNat ((s.hart h).rd rs2).toNat 5 = .ok ps)
    (hbad : t.partsBad ps = false)
    (hright : t.right h ((Hallmark.ofBytes (t.partsRead ps)).lane % 16) 2 = true)
    (hk : t.hmKey (Hallmark.ofBytes (t.partsRead ps)) = some k)
    (hj : t.hmJudge (Hallmark.ofBytes (t.partsRead ps)) k
      (digestOf k ((t.partsRead ps).drop 32)) = (0, none)) :
    Runs (.hmCheck h rd rs1 rs2) s fun u => u.hart h = (t.hart h).ret rd 0 4 ∧ s.onlyHart u h := by
  have e : s.hmCheck h rd rs1 rs2 = t.hartRet h rd 0 := by
    rw [State.hmCheck, State.vendorDo_permitted _ hv]
    dsimp only
    rw [et, if_neg (not_not_intro hal), if_neg (by omega), hps]
    dsimp only
    rw [if_neg (Bool.eq_false_iff.mp hbad), if_neg (by simp [hright]), hk]
    dsimp only
    rw [hj]
  refine runs_hart (execHmCheck.eq_1 h rd rs1 rs2 s) hr ha ?_
  rw [e]
  exact ⟨State.hart_hartRet_self _ _ _ _, (et ▸ s.onlyHart_hcount h 51).trans (State.onlyHart_hartRet _ h rd _)⟩

theorem runs_hmStep {p0 ps ws : List (Nat × Nat)} {k : Bytes} {t : State} (et : s.hcount h 51 = t) (hr : (s.hart h).ready = true) (ha : (s.hart h).armed = false)
    (hv : (s.hart h).vendor (some 8) (some 9) (some 10) = none) (hal : ((s.hart h).rd rs1).toNat % 8 = 0)
    (h0 : t.vendorRange h 1 ((s.hart h).rd rs1).toNat 40 7 = .ok p0) (hbad0 : t.partsBad p0 = false)
    (hlen : Bytes.le (t.partsRead p0) 32 2 ≤ 2008)
    (hstep : (Hallmark.ofBytes (t.partsRead p0)).step ≠ 15)
    (hps : t.vendorRange h 1 ((s.hart h).rd rs1).toNat (40 + Bytes.le (t.partsRead p0) 32 2) 7 = .ok ps)
    (hws : t.vendorRange h 2 (((s.hart h).rd rs1).toNat + 8) 16 7 = .ok ws)
    (hbad : t.partsBad ps = false)
    (hk : t.hmKey (Hallmark.ofBytes (t.partsRead p0)) = some k) :
    Runs (.hmStep h rd rs1) s fun u => u = (t.storeAt h ws
      (Bytes.ofNatLE 8 (linkTag k (Hallmark.ofBytes (t.partsRead p0)).chain
          (digestOf k ((t.partsRead ps).drop 32)) 0x400 ((Hallmark.ofBytes (t.partsRead p0)).step + 1)).toNat
        ++ Bytes.ofNatLE 8 (setBits (Bytes.le (t.partsRead p0) 16 8) 27 20
            ((Hallmark.ofBytes (t.partsRead p0)).step + 1)))).hartRet h rd 0 := by
  have e : s.hmStep h rd rs1 = (t.storeAt h ws
      (Bytes.ofNatLE 8 (linkTag k (Hallmark.ofBytes (t.partsRead p0)).chain
          (digestOf k ((t.partsRead ps).drop 32)) 0x400 ((Hallmark.ofBytes (t.partsRead p0)).step + 1)).toNat
        ++ Bytes.ofNatLE 8 (setBits (Bytes.le (t.partsRead p0) 16 8) 27 20
            ((Hallmark.ofBytes (t.partsRead p0)).step + 1)))).hartRet h rd 0 := by
    rw [State.hmStep, State.vendorDo_permitted _ hv]
    obtain ⟨rng, hrng⟩ : ∃ f, f = State.vendorRange := ⟨_, rfl⟩
    rw [← hrng] at h0 hps hws ⊢
    dsimp only
    rw [et, if_neg (not_not_intro hal), h0]
    dsimp only
    rw [if_neg (Bool.eq_false_iff.mp hbad0), if_neg (by omega), hps, hws]
    dsimp only
    rw [if_neg (Bool.eq_false_iff.mp hbad), hk]
  exact runs_hart (execHmStep.eq_1 h rd rs1 s) hr ha e

/-- The word that TILE.CHECK gives of tile `i` of a lane. -/
def Lane.tileWord (l : Lane) (i : Nat) : Nat :=
  let w := l.sideW i
  bits w 63 56 * 2 ^ 40 + sideNext w * 2 ^ 25 + sideFill w * 2 ^ 16
    + if !sideAlloc w ∨ sideFill w = 0 then 0x1206 else if l.tileOk i then 0 else 0x1201

theorem State.tileCheck_tile {a : Nat} {ps : List (Nat × Nat)} {t : State} (et : s.hcount h 51 = t)
    (hv : (s.hart h).vendor (some 8) (some 9) (some 10) = none) (hal : ((s.hart h).rd rs1).toNat % 8 = 0)
    (hx : t.xlRange h 1 ((s.hart h).rd rs1).toNat 256 = .ok ((a, 256) :: ps))
    (hok : ¬(t.region a ≠ .tile ∨ a % 256 ≠ 0 ∨ 0x5D0000 ≤ (tileSpot a).2 ∨ (!t.right h (tileSpot a).1 0) = true)) :
    s.tileCheck h rd rs1 = t.hartRet h rd ((t.lane (tileSpot a).1).tileWord ((tileSpot a).2 / 256)) := by
  rw [State.tileCheck, State.vendorDo_permitted _ hv]
  obtain ⟨rng, hrng⟩ : ∃ f, f = State.xlRange := ⟨_, rfl⟩
  rw [← hrng] at hx ⊢
  dsimp only
  rw [et, if_neg (not_not_intro hal), hx]
  exact if_neg hok

theorem runs_tileCheck {a : Nat} {ps : List (Nat × Nat)} {t : State} (et : s.hcount h 51 = t) (hr : (s.hart h).ready = true)
    (ha : (s.hart h).armed = false) (hv : (s.hart h).vendor (some 8) (some 9) (some 10) = none)
    (hal : ((s.hart h).rd rs1).toNat % 8 = 0)
    (hx : t.xlRange h 1 ((s.hart h).rd rs1).toNat 256 = .ok ((a, 256) :: ps)) (ht : t.region a = .tile)
    (h256 : a % 256 = 0) (ho : (tileSpot a).2 < 0x5D0000) (hright : t.right h (tileSpot a).1 0 = true) :
    Runs (.tileCheck h rd rs1) s fun u =>
      u.hart h = (t.hart h).ret rd (BitVec.ofNat 64 ((t.lane (tileSpot a).1).tileWord ((tileSpot a).2 / 256))) 4
        ∧ s.onlyHart u h := by
  have hok : ¬(t.region a ≠ .tile ∨ a % 256 ≠ 0 ∨ 0x5D0000 ≤ (tileSpot a).2 ∨ (!t.right h (tileSpot a).1 0) = true) := by
    rintro (e | e | e | e)
    · exact e ht
    · exact e h256
    · exact absurd ho (Nat.not_lt.mpr e)
    · rw [hright] at e
      exact absurd e (by decide)
  refine runs_hart (execTileCheck.eq_1 h rd rs1 s) hr ha ?_
  rw [State.tileCheck_tile et hv hal hx hok]
  exact ⟨State.hart_hartRet_self _ _ _ _, (et ▸ s.onlyHart_hcount h 51).trans (State.onlyHart_hartRet _ h rd _)⟩

/-- A record is presented at ring `k`'s port, and the hart that brought it waits. -/
def State.presentFrom (s : State) (h rd k : Nat) (r : PortRec) : State :=
  (s.present k r).modHart h (fun x => { x with wait := .jrn rd })

theorem State.presentFrom_frame (s : State) (hs : SMap Hart) (h rd k : Nat) (r : PortRec) :
    s.presentFrom h rd k r
      = { ({ s with harts := hs } : State) with harts := (s.presentFrom h rd k r).harts, jrn := (s.presentFrom h rd k r).jrn } := rfl
theorem State.waiting_presentFrom (s : State) (h rd k : Nat) (r : PortRec) :
    ((s.presentFrom h rd k r).ring k).waiting = enqueueRec { r with clk := s.laneClk } (s.ring k).waiting :=
  congrArg Ring.waiting (State.ring_modRing_self s k (fun g => { g with waiting := enqueueRec { r with clk := s.laneClk } g.waiting }))
theorem State.hart_presentFrom (s : State) (h rd k : Nat) (r : PortRec) :
    (s.presentFrom h rd k r).hart h = { s.hart h with wait := .jrn rd } := by
  rw [State.presentFrom, State.hart_modHart_self]
  rfl

theorem runs_jrnAppend {p0 ps : List (Nat × Nat)} {t : State} (et : s.hcount h 49 = t) (hr : (s.hart h).ready = true) (ha : (s.hart h).armed = false)
    (hv : (s.hart h).vendor (some 0) (some 1) (some 2) = none) (hal : ((s.hart h).rd rs1).toNat % 64 = 0)
    (h0 : t.xlRange h 1 ((s.hart h).rd rs1).toNat 64 = .ok p0)
    (hd0 : p0.all (fun p => t.region p.1 = .dram && t.region (p.1 + p.2 - 1) = .dram) = true)
    (hbad0 : t.partsBad p0 = false) (hsz : bits (Bytes.le (t.partsRead p0) 24 8) 55 54 < 3)
    (hps : t.xlRange h 1 ((s.hart h).rd rs1).toNat
      (64 * 2 ^ bits (Bytes.le (t.partsRead p0) 24 8) 55 54) = .ok ps)
    (hd : ps.all (fun p => t.region p.1 = .dram && t.region (p.1 + p.2 - 1) = .dram) = true)
    (hbad : t.partsBad ps = false) (hc : coreCheck (t.partsRead ps) = 0) (hh : (s.ring 16).hold = 0) :
    Runs (.jrnAppend h rd rs1) s fun u => (u.hart h).wait = .jrn rd ∧ (u.hart h).pc = (s.hart h).pc
      ∧ (u.ring 16).waiting
          = enqueueRec { src := .hart h rd, agent := h, bytes := t.partsRead ps, clk := s.laneClk } (s.ring 16).waiting
      ∧ u = { s with harts := u.harts, jrn := u.jrn } := by
  have hring : t.ring 16 = s.ring 16 := et ▸ rfl
  have hclk : t.laneClk = s.laneClk := et ▸ rfl
  have hpc : (t.hart h).pc = (s.hart h).pc := by rw [← et, State.hcount, State.hart_modHart_self, Hart.pc_count]
  have hfr : ({ t with harts := s.harts } : State) = s := et ▸ rfl
  have e : s.jrnAppend h rd rs1 = t.presentFrom h rd 16 { src := .hart h rd, agent := h, bytes := t.partsRead ps } := by
    rw [State.jrnAppend, State.vendorDo_permitted _ hv]
    obtain ⟨rng, hrng⟩ : ∃ f, f = State.xlRange := ⟨_, rfl⟩
    rw [← hrng] at h0 hps ⊢
    dsimp only
    rw [et, h0]
    dsimp only
    rw [if_neg (by simp [hal, hd0]), if_neg (Bool.eq_false_iff.mp hbad0), if_neg (Nat.ne_of_lt hsz), hps]
    dsimp only
    rw [if_neg (by simp [hd]), if_neg (Bool.eq_false_iff.mp hbad), if_neg (not_not_intro hc), if_neg (not_not_intro (hring ▸ hh))]
    rfl
  refine runs_hart (execJrnAppend.eq_1 h rd rs1 s) hr ha ?_
  rw [e, State.hart_presentFrom, State.waiting_presentFrom, hring, hclk]
  refine ⟨rfl, hpc, rfl, ?_⟩
  conv_rhs => rw [← hfr]
  exact State.presentFrom_frame t s.harts h rd 16 _

end

/-- Settles O33: each operation of a hart that its mode permits, one lemma per operation. -/
theorem hartVendorOperationsComplete : Obligations.HartVendorOperationsComplete := by
  intro h rd rs1 rs2 s hr ha x va n s1
  refine ⟨fun hv => ⟨runs_hartBeatRead hr ha hv, fun hb => runs_hartBeatWait_reached hr ha hv hb,
      fun hb ht hl => runs_hartBeatWait_waits hr ha hv hb ht hl⟩,
    fun hv hal => ⟨fun ps k hn hn' hps hbad hright hk hj => runs_hmCheck rfl hr ha hv hal hn hn' hps hbad hright hk hj, ?_, ?_⟩, ?_⟩
  · intro p0 ps ws k b m len h0 hbad0 hlen hstep hps hws hbad hk
    exact runs_hmStep rfl hr ha hv hal h0 hbad0 hlen hstep hps hws hbad hk
  · intro a ps hx ht h256 ho hright
    exact runs_tileCheck rfl hr ha hv hal hx ht h256 ho hright
  · intro p0 ps hv hal t sz h0 hd0 hbad0 hsz hps hd hbad hc hh
    exact runs_jrnAppend rfl hr ha hv hal h0 hd0 hbad0 hsz hps hd hbad hc hh

end Sys2Proof.Machine
end

section
/-!
Mailboxes: their writes, their reads and their timer: the statement of O48.
-/

namespace Sys2Proof.Machine
open Sys2Proof

/-! ### Mailboxes: the statement of O48 -/

theorem State.mbx_congr {s u : State} (h : u.cel.mbx = s.cel.mbx) (n : Nat) : u.mbx n = s.mbx n := by unfold State.mbx; rw [h]

/-- An MSI that names an identity is pending. -/
theorem State.mem_msis_sendMsi (s : State) {hart level ident : Nat} (h : ident ≠ 0) :
    (hart * 2 + level, ident) ∈ (s.sendMsi hart level ident).msis := by
  unfold State.sendMsi
  dsimp only
  split
  · rename_i e
    rcases e with e | e
    · exact absurd e h
    · exact List.contains_iff_mem.mp e
  · exact List.mem_append_right _ (List.mem_singleton.mpr rfl)
theorem State.mem_msis_sendTarget (s : State) {v : Nat} (h : bits v 18 8 ≠ 0) :
    (bits v 7 0 * 2 + bits v 19 19, bits v 18 8) ∈ (s.sendTarget v).msis := s.mem_msis_sendMsi h
@[simp] theorem State.mbx_sendTarget (s : State) (v n : Nat) : (s.sendTarget v).mbx n = s.mbx n := by
  unfold State.sendTarget State.sendMsi
  dsimp only
  split <;> rfl
@[simp] theorem State.mbx_answer (s : State) (a v n : Nat) : (s.answer a v).mbx n = s.mbx n := rfl

section
variable {s : State} {g : Agent} {n : MbxId}

/-- A mailbox that the agent's firewall lets it reach is served. -/
theorem runs_mbx {c : Instr} {o : Nat} {st : Bool} {f : State → State} {p : State → Prop} (hc : exec c s = s.mbxAccess g n o st f)
    (hr : s.mbxRight g n = true) (hp : p (f s)) : Runs c s p :=
  ⟨_, hc.trans (if_pos hr), hp⟩

/-- A refused write is counted at the mailbox and recorded. -/
theorem State.mbxRefuse_spec (s : State) (n : MbxId) (a : Nat) :
    (s.mbxRefuse n a).mbx n = { s.mbx n with refused := ((s.mbx n).refused + 1) % 2 ^ 32 }
      ∧ (∀ j, j ≠ n.val → (s.mbxRefuse n a).mbx j = s.mbx j)
      ∧ s.mbxRefuse n a = { s with cel := (s.mbxRefuse n a).cel, gar := (s.mbxRefuse n a).gar } := by
  unfold State.mbxRefuse
  refine ⟨by rw [State.mbx_gEvt, State.mbx_setMbx_self], fun j hj => by rw [State.mbx_gEvt, State.mbx_setMbx_ne s hj], ?_⟩
  rw [State.gEvt_shape]
  rfl

/-- A stored mailbox is read back, and the rest of the state stays. -/
theorem State.setMbx_spec (s : State) (n : Nat) (m : Mbx) :
    (s.setMbx n m).mbx n = m ∧ (∀ j, j ≠ n → (s.setMbx n m).mbx j = s.mbx j) ∧ s.setMbx n m = { s with cel := (s.setMbx n m).cel } :=
  ⟨State.mbx_setMbx_self s n m, fun _ hj => State.mbx_setMbx_ne s hj m, rfl⟩

theorem runs_mailboxDataWrite_claims (hr : s.mbxRight g n = true) (i : Fin 16) (v : W32) (h0 : (s.mbx n).st = 0)
    (hs : mbxMaySend n g = true) : Runs (.mailboxDataWrite g n i v) s fun u =>
      u.mbx n = { s.mbx n with st := 1, sender := g, data := SMap.set 0 i v (s.mbx n).data }
        ∧ (∀ j, j ≠ n.val → u.mbx j = s.mbx j) ∧ u = { s with cel := u.cel } := by
  refine runs_mbx (execMailboxDataWrite.eq_1 g n i v s) hr ?_
  rw [State.mbxData, if_pos ⟨h0, hs⟩]
  exact s.setMbx_spec n _

theorem runs_mailboxDataWrite_stores (hr : s.mbxRight g n = true) (i : Fin 16) (v : W32) (h1 : (s.mbx n).st = 1)
    (hs : (s.mbx n).sender = g.val) : Runs (.mailboxDataWrite g n i v) s fun u =>
      u.mbx n = { s.mbx n with data := SMap.set 0 i v (s.mbx n).data }
        ∧ (∀ j, j ≠ n.val → u.mbx j = s.mbx j) ∧ u = { s with cel := u.cel } := by
  refine runs_mbx (execMailboxDataWrite.eq_1 g n i v s) hr ?_
  rw [State.mbxData, if_neg (by omega), if_pos ⟨h1, hs⟩]
  exact s.setMbx_spec n _

theorem runs_mailboxDataWrite_refused (hr : s.mbxRight g n = true) (i : Fin 16) (v : W32)
    (h : (s.mbx n).st = 1 ∧ (s.mbx n).sender ≠ g.val ∨ (s.mbx n).st = 2) : Runs (.mailboxDataWrite g n i v) s fun u =>
      u.mbx n = { s.mbx n with refused := ((s.mbx n).refused + 1) % 2 ^ 32 }
        ∧ (∀ j, j ≠ n.val → u.mbx j = s.mbx j) ∧ u = { s with cel := u.cel, gar := u.gar } := by
  refine runs_mbx (execMailboxDataWrite.eq_1 g n i v s) hr ?_
  rw [State.mbxData, if_neg (by omega), if_neg (by omega), if_neg (by omega)]
  exact s.mbxRefuse_spec n g

/-- The mailbox `m` with a message posted: its sender, number and time, and its place among the posted. -/
def Mbx.posted (m : Mbx) (sender seq clk no : Nat) : Mbx :=
  { m.idle 0 with st := 2, sender := sender, seq := seq, goClk := clk, running := true, gone := true, limit := m.us, goNo := no }
/-- A message posted in mailbox `n` is counted. -/
def State.postMbx (s : State) (n : Nat) (m : Mbx) : State :=
  { s.setMbx n m with cel := { (s.setMbx n m).cel with goCount := s.cel.goCount + 1 } }

theorem State.mbxGo_posts (s : State) {a n seq : Nat}
    (h : (s.mbx n).st = 0 ∧ mbxMaySend n a = true ∨ (s.mbx n).st = 1 ∧ (s.mbx n).sender = a) :
    s.mbxGo a n seq =
      if mbxKind n = 1 ∧ bit (s.mbx n).rxTarget 31 ∧ (s.mbx n).peer ≠ 0x1FF
      then (s.postMbx n ((s.mbx n).posted a (seq % 256) s.laneClk s.cel.goCount)).sendTarget (s.mbx n).rxTarget
      else s.postMbx n ((s.mbx n).posted a (seq % 256) s.laneClk s.cel.goCount) := if_pos h
@[simp] theorem State.mbx_postMbx_self (s : State) (n : Nat) (m : Mbx) : (s.postMbx n m).mbx n = m := State.mbx_setMbx_self s n m
@[simp] theorem State.mbx_postMbx_ne (s : State) {n j : Nat} (h : j ≠ n) (m : Mbx) : (s.postMbx n m).mbx j = s.mbx j :=
  State.mbx_setMbx_ne s h m

theorem runs_mailboxGo (hr : s.mbxRight g n = true) (q : BitVec 8)
    (h : (s.mbx n).st = 0 ∧ mbxMaySend n g = true ∨ (s.mbx n).st = 1 ∧ (s.mbx n).sender = g.val) : Runs (.mailboxGo g n q) s fun u =>
      (u.mbx n).st = 2 ∧ (u.mbx n).sender = g.val ∧ (u.mbx n).seq = q.toNat ∧ (u.mbx n).running = true
        ∧ (u.mbx n).goClk = s.laneClk ∧ (u.mbx n).data = (s.mbx n).data ∧ (∀ j, j ≠ n.val → u.mbx j = s.mbx j)
        ∧ (mbxKind n = 1 → bit (s.mbx n).rxTarget 31 = true → (s.mbx n).peer ≠ 0x1FF → bits (s.mbx n).rxTarget 18 8 ≠ 0 →
            (bits (s.mbx n).rxTarget 7 0 * 2 + bits (s.mbx n).rxTarget 19 19, bits (s.mbx n).rxTarget 18 8) ∈ u.msis) := by
  have hq : q.toNat % 256 = q.toNat := Nat.mod_eq_of_lt q.isLt
  refine runs_mbx (execMailboxGo.eq_1 g n q s) hr ?_
  rw [State.mbxGo_posts s h, hq]
  split
  · simp only [State.mbx_sendTarget, State.mbx_postMbx_self]
    exact ⟨rfl, rfl, rfl, rfl, rfl, rfl, fun j hj => State.mbx_postMbx_ne s hj _, fun _ _ _ hid => State.mem_msis_sendTarget _ hid⟩
  · rename_i hno
    rw [State.mbx_postMbx_self]
    exact ⟨rfl, rfl, rfl, rfl, rfl, rfl, fun j hj => State.mbx_postMbx_ne s hj _, fun hk hb hp _ => absurd ⟨hk, hb, hp⟩ hno⟩

theorem runs_mailboxClear_withdraws (hr : s.mbxRight g n = true) (h : (s.mbx n).st = 1 ∨ (s.mbx n).st = 2)
    (hs : (s.mbx n).sender = g.val) : Runs (.mailboxClear g n) s fun u =>
      u.mbx n = (s.mbx n).idle 0x0104 ∧ (∀ j, j ≠ n.val → u.mbx j = s.mbx j) ∧ u = { s with cel := u.cel } := by
  refine runs_mbx (execMailboxClear.eq_1 g n s) hr ?_
  rw [State.mbxClear, if_pos ⟨h, hs⟩]
  exact s.setMbx_spec n _

theorem runs_mailboxClear_frees (hr : s.mbxRight g n = true) (h : (s.mbx n).st = 4 ∨ (s.mbx n).st = 5)
    (hs : (s.mbx n).sender = g.val) : Runs (.mailboxClear g n) s fun u =>
      u.mbx n = (s.mbx n).idle (s.mbx n).code ∧ (∀ j, j ≠ n.val → u.mbx j = s.mbx j) ∧ u = { s with cel := u.cel } := by
  refine runs_mbx (execMailboxClear.eq_1 g n s) hr ?_
  rw [State.mbxClear, if_neg (by omega), if_pos ⟨h, .inl hs⟩]
  exact s.setMbx_spec n _

theorem runs_mailboxRxRead (hr : s.mbxRight g n = true) (hrx : s.mbxReceiver n = g.val) (h : (s.mbx n).st = 2)
    (hn : s.mbxNext n = true) : Runs (.mailboxRxRead g n) s fun u =>
      u.mbx n = { s.mbx n with st := 3, taken := true } ∧ (∀ j, j ≠ n.val → u.mbx j = s.mbx j)
        ∧ SMap.get 0 g u.readRes = 2 ^ 31 + (s.mbx n).sender * 2 ^ 16 + (s.mbx n).seq := by
  refine runs_mbx (execMailboxRxRead.eq_1 g n s) hr ?_
  rw [State.mbxRx, if_neg (not_not_intro hrx), if_pos ⟨h, hn⟩]
  exact ⟨State.mbx_setMbx_self s n _, fun j hj => State.mbx_setMbx_ne s hj _, State.answer_readRes _ g _⟩

/-- The receiver acknowledges: in time, after the sender's reset, or after the timer. -/
theorem runs_mailboxRxAck (hr : s.mbxRight g n = true) (hrx : s.mbxReceiver n = g.val) (q : BitVec 8) (c : Code)
    (hq : q.toNat = (s.mbx n).seq) : Runs (.mailboxRxAck g n q c) s fun u =>
      ((s.mbx n).st = 3 → (s.mbx n).lostSender = false → (u.mbx n).st = 4 ∧ (u.mbx n).code = 0 ∧ (u.mbx n).ackCode = c.toNat
          ∧ (u.mbx n).ackSeq = (s.mbx n).seq ∧ (u.mbx n).running = false ∧ (u.mbx n).data = (s.mbx n).data
          ∧ ∀ j, j ≠ n.val → u.mbx j = s.mbx j)
        ∧ ((s.mbx n).st = 3 → (s.mbx n).lostSender = true → (u.mbx n).st = 4 ∧ (u.mbx n).code = 0x01C2 ∧ (u.mbx n).orphan = true
          ∧ ∀ j, j ≠ n.val → u.mbx j = s.mbx j)
        ∧ ((s.mbx n).st = 5 → (s.mbx n).code = 0x0102 → (u.mbx n).st = 5 ∧ (u.mbx n).code = 0x01C1 ∧ (u.mbx n).late = true
          ∧ ∀ j, j ≠ n.val → u.mbx j = s.mbx j) := by
  have hne : ¬(s.mbxReceiver n ≠ g.val ∨ q.toNat ≠ (s.mbx n).seq) := by
    rintro (e | e)
    · exact e hrx
    · exact e hq
  refine runs_mbx (execMailboxRxAck.eq_1 g n q c s) hr ?_
  rw [State.mbxAck, if_neg hne]
  by_cases h3 : (s.mbx n).st = 3
  · have h5 : ¬(s.mbx n).st = 5 := by omega
    rw [if_pos h3]
    cases hl : (s.mbx n).lostSender with
    | true =>
      rw [if_pos rfl]
      refine ⟨fun _ e => absurd e (by decide), fun _ _ => ?_, fun e => absurd e h5⟩
      rw [State.mbx_mbxIrq, State.mbx_gEvt, State.mbx_setMbx_self]
      exact ⟨rfl, rfl, rfl, fun j hj => by rw [State.mbx_mbxIrq, State.mbx_gEvt, State.mbx_setMbx_ne s hj]⟩
    | false =>
      rw [if_neg (by decide)]
      refine ⟨fun _ _ => ?_, fun _ e => absurd e (by decide), fun e => absurd e h5⟩
      rw [State.mbx_mbxIrq, State.mbx_setMbx_self]
      exact ⟨rfl, rfl, rfl, hq, rfl, rfl, fun j hj => by rw [State.mbx_mbxIrq, State.mbx_setMbx_ne s hj]⟩
  · rw [if_neg h3]
    refine ⟨fun e => absurd e h3, fun e => absurd e h3, fun h5 hc => ?_⟩
    rw [if_pos ⟨h5, hc⟩, State.mbx_gEvt, State.mbx_setMbx_self]
    exact ⟨h5, rfl, rfl, fun j hj => by rw [State.mbx_gEvt, State.mbx_setMbx_ne s hj]⟩

theorem runs_mailboxRxExtend (hr : s.mbxRight g n = true) (hrx : s.mbxReceiver n = g.val) (h : (s.mbx n).st = 3) (us : Nat) :
    Runs (.mailboxRxExtend g n us) s fun u =>
      u.mbx n = { s.mbx n with limit := (s.laneClk - (s.mbx n).goClk) / 1600 + max 10 (min us 10000000) }
        ∧ (∀ j, j ≠ n.val → u.mbx j = s.mbx j) ∧ u = { s with cel := u.cel } := by
  refine runs_mbx (execMailboxRxExtend.eq_1 g n us s) hr ?_
  rw [State.mbxExtend, if_pos ⟨hrx, h⟩]
  exact s.setMbx_spec n _

theorem runs_mailboxTimeout (h : (s.mbx n).st = 2 ∨ (s.mbx n).st = 3) (ht : (s.mbx n).goClk + (s.mbx n).limit * 1600 ≤ s.laneClk) :
    Runs (.mailboxTimeout n) s fun u =>
      u.mbx n = { s.mbx n with st := 5, timeout := true, code := (if (s.mbx n).st = 2 then 0x0101 else 0x0102), running := false }
        ∧ ∀ j, j ≠ n.val → u.mbx j = s.mbx j := by
  have e : execMailboxTimeout n s = .next (s.mbxExpire n (if (s.mbx n).st = 2 then 0x0101 else 0x0102)) := by
    rw [execMailboxTimeout, if_neg (Nat.not_lt.mpr ht)]
    rcases h with h | h
    · rw [if_pos h, if_pos h]
    · rw [if_neg (by omega), if_pos h, if_neg (by omega)]
  exact ⟨_, e, State.mbx_mbxExpire_self s n _, fun j hj => State.mbx_mbxExpire_ne s hj _⟩

end

/-- Settles O48: one lemma per write, read and event of a mailbox. -/
theorem mailboxOperationsComplete : Obligations.MailboxOperationsComplete := by
  intro g n s hr m same
  exact ⟨fun i v => ⟨runs_mailboxDataWrite_claims hr i v, runs_mailboxDataWrite_stores hr i v, runs_mailboxDataWrite_refused hr i v⟩,
    fun q h => runs_mailboxGo hr q h, runs_mailboxClear_withdraws hr, runs_mailboxClear_frees hr,
    fun hrx => ⟨runs_mailboxRxRead hr hrx, fun q c hq => runs_mailboxRxAck hr hrx q c hq, fun h us => runs_mailboxRxExtend hr hrx h us⟩,
    runs_mailboxTimeout⟩

end Sys2Proof.Machine
end

section
/-!
Ceilings, the mask of busy lanes, what a reset of the main domain and a closing ring keep.
-/

namespace Sys2Proof.Machine
open Sys2Proof

/-! ### Ceilings, a mask of lanes, what a reset of the agents keeps -/

/-- A table built key by key from values that depend on the key alone. -/
theorem SMap.get_foldl_set {α : Type} [DecidableEq α] (d : α) (v : Nat → α) (b : Nat) : ∀ (ks : List Nat) (m : SMap α),
    SMap.get d b (ks.foldl (fun m k => SMap.set d k (v k) m) m) = if b ∈ ks then v b else SMap.get d b m
  | [], m => rfl
  | k :: ks, m => by
    rw [List.foldl_cons, SMap.get_foldl_set d v b ks]
    by_cases hb : b ∈ ks
    · rw [if_pos hb, if_pos (List.mem_cons_of_mem _ hb)]
    · rw [if_neg hb]
      by_cases e : b = k
      · subst e
        rw [if_pos List.mem_cons_self, SMap.get_set_self]
      · rw [if_neg (by simp [e, hb]), SMap.get_set_ne d e]

theorem Pwr.ceilOf_setCeil (p : Pwr) (f : Nat → Nat → Nat) {b : Nat} (hb : b < 128) : (p.setCeil f).ceilOf b = f b (p.ceilOf b) :=
  (SMap.get_foldl_set 3600 (fun b => f b (p.ceilOf b)) b (List.range 128) []).trans (if_pos (List.mem_range.mpr hb))

/-- The mask of those of the first `k` lanes that are not excused. -/
def busyMask (ok : Nat → Bool) (k : Nat) : Nat := (List.range k).foldl (fun a n => if ok n then a else a + 2 ^ n) 0

theorem busyMask_succ (ok : Nat → Bool) (k : Nat) :
    busyMask ok (k + 1) = if ok k then busyMask ok k else busyMask ok k + 2 ^ k := by
  simp [busyMask, List.range_succ, List.foldl_append]
theorem busyMask_lt (ok : Nat → Bool) : ∀ k, busyMask ok k < 2 ^ k
  | 0 => Nat.one_pos
  | k + 1 => by
    have := busyMask_lt ok k
    rw [busyMask_succ, Nat.pow_succ]
    split <;> omega
theorem bit_busyMask (ok : Nat → Bool) {n : Nat} : ∀ k, bit (busyMask ok k) n = (decide (n < k) && !ok n)
  | 0 => by simp [bit, busyMask]
  | k + 1 => by
    have hlt := busyMask_lt ok k
    have ih : (busyMask ok k).testBit n = (decide (n < k) && !ok n) := bit_busyMask ok k
    rw [busyMask_succ]
    unfold bit
    rcases Nat.lt_trichotomy n k with h | h | h
    · have e : n < k + 1 := by omega
      split
      · rw [ih]; simp [h, e]
      · rw [Nat.add_comm, Nat.testBit_two_pow_add_gt h, ih]; simp [h, e]
    · subst h
      split
      · rename_i hok
        rw [ih]; simp [hok]
      · rename_i hok
        rw [Nat.add_comm, Nat.testBit_two_pow_add_eq, Nat.testBit_lt_two_pow hlt]; simp [hok]
    · have e : ¬n < k + 1 := by omega
      have h2 : 2 ^ (k + 1) ≤ 2 ^ n := Nat.pow_le_pow_right (by decide) h
      have h3 : busyMask ok k + 2 ^ k < 2 ^ n := by rw [Nat.pow_succ] at h2; omega
      rw [decide_eq_false e, Bool.false_and]
      split
      · exact Nat.testBit_lt_two_pow (by omega)
      · exact Nat.testBit_lt_two_pow h3
theorem busyMask_eq_zero {ok : Nat → Bool} {k : Nat} (h : ∀ n, n < k → ok n = true) : busyMask ok k = 0 := by
  induction k with
  | zero => rfl
  | succ k ih =>
    rw [busyMask_succ, if_pos (h k (by omega)), ih fun n hn => h n (by omega)]

@[simp] theorem State.pwr_mbxIrq (s : State) (n : Nat) : (s.mbxIrq n).pwr = s.pwr := by rw [State.mbxIrq_shape]
@[simp] theorem State.pwr_mbxExpire (s : State) (n code : Nat) : (s.mbxExpire n code).pwr = s.pwr := by simp [State.mbxExpire, State.setMbx]
theorem State.pwr_mbxAgentReset (s : State) (a n : Nat) : (s.mbxAgentReset a n).pwr = s.pwr := by
  have hs : (s.mbxSenderReset a n).pwr = s.pwr := by
    unfold State.mbxSenderReset
    repeat' split
    all_goals rfl
  rw [State.mbxAgentReset_eq]
  split
  · rw [State.pwr_mbxExpire, hs]
  · exact hs
theorem State.foldl_pwr {α : Type} {f : State → α → State} (hf : ∀ s a, (f s a).pwr = s.pwr) : ∀ (l : List α) (s : State),
    (l.foldl f s).pwr = s.pwr
  | [], _ => rfl
  | a :: l, s => (State.foldl_pwr hf l (f s a)).trans (hf s a)
theorem State.pwr_massReset (s : State) (p : Nat → Bool) : (s.massReset p).pwr = s.pwr := by
  unfold State.massReset
  dsimp only
  have hl : ∀ (l : List (Nat × Nat)) (t : State), (l.foldl (fun s q => s.abandonLock q.1) t).pwr = t.pwr :=
    State.foldl_pwr fun _ _ => rfl
  rw [hl]
  refine State.foldl_pwr (fun s n => ?_) _ _
  have h1 : (if (decide ((s.mbx n).st ≠ 0) && p (s.mbx n).sender) = true then s.mbxAgentReset (s.mbx n).sender n else s).pwr = s.pwr := by
    split
    · exact State.pwr_mbxAgentReset s _ _
    · rfl
  generalize (if (decide ((s.mbx n).st ≠ 0) && p (s.mbx n).sender) = true then s.mbxAgentReset (s.mbx n).sender n else s) = t at h1 ⊢
  split
  · exact (State.pwr_mbxAgentReset _ _ _).trans h1
  · exact h1
theorem State.pwr_applyHome (s : State) (mask : Nat) : (s.applyHome mask).pwr = s.pwr := by
  unfold State.applyHome
  dsimp only
  refine (State.foldl_pwr ?_ _ _).trans rfl
  intro s k
  rfl
theorem State.pwr_mainReset (s : State) : s.mainReset.pwr = s.pwr.mainReset := by
  have h := s.pwr_massReset mainAgent
  unfold State.mainReset
  generalize s.massReset mainAgent = t at h ⊢
  dsimp only
  rw [← h, apply_ite State.pwr, State.pwr_applyHome, ite_self]
  rfl

/-- The main domain held in reset: what the power state and the DRAM are then. -/
theorem State.holdMain_spec (s : State) (event cause : Nat) (trip : Bool) :
    (s.holdMain event cause trip).pwr.mainOff = true ∧ (s.holdMain event cause trip).pwr.thermTrip = (s.pwr.thermTrip || trip)
      ∧ (s.holdMain event cause trip).pwr.mainUp = false ∧ (s.holdMain event cause trip).pwr.nextCause = cause
      ∧ (s.holdMain event cause trip).dram = [] := by
  have e : (s.pwrEvent event).pwr = s.pwr := by simp [State.pwrEvent]
  unfold State.holdMain
  dsimp only
  rw [State.pwr_mainReset, State.mainReset_dram, e]
  exact ⟨rfl, rfl, rfl, rfl, rfl⟩

/-! ### Rings that close -/

@[simp] theorem State.pwr_holdIrq (s : State) (k was : Nat) : (s.holdIrq k was).pwr = s.pwr := by
  unfold State.holdIrq
  dsimp only
  split
  · split <;> simp [State.modRing, State.setRing]
  · rfl
/-- The report of a hold leaves every ring but its `epochHeld` mark. -/
theorem State.ring_holdIrq (s : State) (k was j : Nat) :
    (s.holdIrq k was).ring j = { s.ring j with epochHeld := ((s.holdIrq k was).ring j).epochHeld } := by
  have h : ∀ t : State, (if k < 16 then t.raiseIrq (laneBase k) 8 else t).ring j = t.ring j := fun t => by
    split
    · exact State.ring_congr (State.raiseIrq_fields t _ _).2.2.2.2.2.2.2.2.1 j
    · rfl
  have hr : ∀ t : State, (t.raiseIrq jrnBase 1).ring j = t.ring j := fun t => State.ring_congr (by simp) j
  unfold State.holdIrq
  split
  · dsimp only
    rw [h, hr]
    by_cases e : j = k
    · subst e
      rw [State.ring_modRing_self]
    · rw [State.ring_modRing_ne _ e]
  · rfl

end Sys2Proof.Machine
end

section
/-!
The power block: its intervals, requests and limits: the statement of O53.
-/

namespace Sys2Proof.Machine
open Sys2Proof

/-! ### Power and thermal limits: the statement of O53 -/

@[simp] theorem State.pwr_pwrEvent (s : State) (e : Nat) : (s.pwrEvent e).pwr = s.pwr := (State.gRec_fields s _).2.2.2.2.2.2.2.2.2.2.2.2.2.2.2.2.2.2.2.2.2.2.2.2.2.2

theorem Pwr.ceilOf_congr {p q : Pwr} (h : p.ceil = q.ceil) (b : Nat) : p.ceilOf b = q.ceilOf b := by unfold Pwr.ceilOf; rw [h]

/-- A step of the power manager changes the ceilings and what it counts, and keeps the powers. -/
theorem Pwr.powerStep_powers (p : Pwr) (core budget base : Nat) :
    (p.powerStep core budget base).corePower = p.corePower ∧ (p.powerStep core budget base).pkgPower = p.pkgPower := by
  unfold Pwr.powerStep
  dsimp only
  repeat' split
  all_goals exact ⟨rfl, rfl⟩

/-- Above the limit every bay above base loses 50 MHz, not below base. -/
theorem Pwr.ceilOf_powerStep_over {p : Pwr} {core budget base : Nat} (h : core > budget) (hx : ∃ b, b < 128 ∧ p.ceilOf b > base)
    {b : Nat} (hb : b < 128) :
    (p.powerStep core budget base).ceilOf b = if p.ceilOf b > base then max base (p.ceilOf b - 50) else p.ceilOf b := by
  obtain ⟨c, hc, hcb⟩ := hx
  have hany : (List.range 128).any (fun b => decide (p.ceilOf b > base)) = true :=
    List.any_eq_true.mpr ⟨c, List.mem_range.mpr hc, decide_eq_true hcb⟩
  unfold Pwr.powerStep
  dsimp only
  rw [if_pos h, hany, if_pos rfl]
  exact p.ceilOf_setCeil (fun _ c => if c > base then max base (c - 50) else c) hb

/-- Well below the limit, with every bay that is not held at base at least, each of them below the top gains 50 MHz. -/
theorem Pwr.ceilOf_powerStep_under {p : Pwr} {core budget base : Nat} (h : core * 100 < budget * 97)
    (hbase : ∀ b, b < 128 → base ≤ p.ceilOf b ∨ p.held b = true) (hx : ∃ b, b < 128 ∧ p.ceilOf b < 3600 ∧ p.held b = false)
    {b : Nat} (hb : b < 128) :
    (p.powerStep core budget base).ceilOf b = if p.ceilOf b < 3600 ∧ p.held b = false then p.ceilOf b + 50 else p.ceilOf b := by
  obtain ⟨c, hc, hct, hch⟩ := hx
  have hlow : (List.range 128).any (fun b => decide (p.ceilOf b < base) && !p.held b) = false := by
    refine List.any_eq_false.mpr fun b hb => ?_
    rcases hbase b (List.mem_range.mp hb) with e | e
    · rw [decide_eq_false (Nat.not_lt.mpr e)]; simp
    · rw [e]; simp
  have hany : (List.range 128).any (fun b => decide (p.ceilOf b < 3600) && !p.held b) = true :=
    List.any_eq_true.mpr ⟨c, List.mem_range.mpr hc, by rw [decide_eq_true hct, hch]; rfl⟩
  unfold Pwr.powerStep
  dsimp only
  rw [if_neg (by omega), if_pos h, hlow]
  simp only [Bool.false_eq_true, if_false]
  rw [if_pos hany]
  refine (p.ceilOf_setCeil (fun b c => if c < 3600 ∧ (!p.held b) = true then c + 50 else c) hb).trans ?_
  simp only [Bool.not_eq_true']

/-- The ceilings after an interval, with the record of BELOW_BASE set or cleared, at most one of each per epoch. -/
def State.withPwrStep (s t : State) (p : Pwr) : Res :=
  if !s.pwr.belowBase ∧ p.belowBase ∧ p.belowRec.1 ≠ some t.epoch then
    .next (({ t with pwr := { p with belowRec := (some t.epoch, p.belowRec.2) } } : State).pwrEvent 0x110)
  else if s.pwr.belowBase ∧ !p.belowBase ∧ p.belowRec.2 ≠ some t.epoch then
    .next (({ t with pwr := { p with belowRec := (p.belowRec.1, some t.epoch) } } : State).pwrEvent 0x111)
  else .next t

theorem State.withPwrStep_spec (s t : State) {p : Pwr} (hp : t.pwr = p) :
    ∃ u, s.withPwrStep t p = .next u ∧ u.dram = t.dram ∧ ∃ r, u.pwr = { p with belowRec := r } := by
  unfold State.withPwrStep
  split
  · exact ⟨_, rfl, (State.gRec_dram _ _).trans rfl, (some t.epoch, p.belowRec.2), State.pwr_pwrEvent _ _⟩
  · split
    · exact ⟨_, rfl, (State.gRec_dram _ _).trans rfl, (p.belowRec.1, some t.epoch), State.pwr_pwrEvent _ _⟩
    · exact ⟨_, rfl, rfl, p.belowRec, hp⟩

/-- The power state with the powers that an interval has measured. -/
def State.measured (s : State) (core pkg : Nat) : Pwr := { s.pwr with corePower := core, pkgPower := pkg }
theorem State.ceilOf_measured (s : State) (core pkg : Nat) : (s.measured core pkg).ceilOf = s.pwr.ceilOf := rfl
theorem State.held_measured (s : State) (core pkg : Nat) : (s.measured core pkg).held = s.pwr.held := rfl

/-- An interval of the power manager is one step over the ceilings, and at most one record. -/
theorem exec_powerManagerInterval {s : State} (core pkg : Nat) (hup : s.pwr.mainUp = true) :
    ∃ u, exec (.powerManagerInterval core pkg) s = .next u ∧ u.dram = s.dram
      ∧ ∃ r, u.pwr = { (s.measured core pkg).powerStep core (s.tdp - 290) (baseMhz s.tdp) with belowRec := r } := by
  obtain ⟨u, hu, hd, hr⟩ := State.withPwrStep_spec s
    { s with pwr := (s.measured core pkg).powerStep core (s.tdp - 290) (baseMhz s.tdp) } rfl
  refine ⟨u, Eq.trans ?_ hu, hd, hr⟩
  refine (execPowerManagerInterval.eq_1 core pkg s).trans (if_neg ?_)
  rw [hup]
  decide

section
variable {g : Agent} {s : State}

theorem runs_powerManagerInterval (core pkg : Nat) (hup : s.pwr.mainUp = true) : Runs (.powerManagerInterval core pkg) s fun u =>
    u.pwr.corePower = core ∧ u.pwr.pkgPower = pkg ∧ u.dram = s.dram := by
  obtain ⟨u, hu, hd, r, hp⟩ := exec_powerManagerInterval core pkg hup
  obtain ⟨h1, h2⟩ := (s.measured core pkg).powerStep_powers core (s.tdp - 290) (baseMhz s.tdp)
  exact ⟨u, hu, by rw [hp]; exact h1, by rw [hp]; exact h2, hd⟩

/-- The ceilings after an interval are those of the step. -/
theorem runs_powerManagerInterval_ceil {core pkg : Nat} {f : Nat → Nat} (hup : s.pwr.mainUp = true)
    (h : ∀ b, b < 128 → ((s.measured core pkg).powerStep core (s.tdp - 290) (baseMhz s.tdp)).ceilOf b = f b) :
    Runs (.powerManagerInterval core pkg) s fun u => ∀ b, b < 128 → u.pwr.ceilOf b = f b := by
  obtain ⟨u, hu, _, r, hp⟩ := exec_powerManagerInterval core pkg hup
  refine ⟨u, hu, fun b hb => ?_⟩
  rw [← h b hb, hp]
  rfl

theorem runs_powerManagerInterval_over {core : Nat} (pkg : Nat) (hup : s.pwr.mainUp = true) (h : core > s.tdp - 290)
    (hx : ∃ b, b < 128 ∧ s.pwr.ceilOf b > baseMhz s.tdp) : Runs (.powerManagerInterval core pkg) s fun u =>
      ∀ b, b < 128 → u.pwr.ceilOf b
        = if s.pwr.ceilOf b > baseMhz s.tdp then max (baseMhz s.tdp) (s.pwr.ceilOf b - 50) else s.pwr.ceilOf b := by
  refine runs_powerManagerInterval_ceil hup fun b hb => ?_
  rw [← s.ceilOf_measured core pkg] at hx ⊢
  exact Pwr.ceilOf_powerStep_over h hx hb

theorem runs_powerManagerInterval_under {core : Nat} (pkg : Nat) (hup : s.pwr.mainUp = true)
    (h : core * 100 < (s.tdp - 290) * 97) (hbase : ∀ b, b < 128 → baseMhz s.tdp ≤ s.pwr.ceilOf b ∨ s.pwr.held b = true)
    (hx : ∃ b, b < 128 ∧ s.pwr.ceilOf b < 3600 ∧ s.pwr.held b = false) : Runs (.powerManagerInterval core pkg) s fun u =>
      ∀ b, b < 128 → u.pwr.ceilOf b
        = if s.pwr.ceilOf b < 3600 ∧ s.pwr.held b = false then s.pwr.ceilOf b + 50 else s.pwr.ceilOf b := by
  refine runs_powerManagerInterval_ceil hup fun b hb => ?_
  rw [← s.ceilOf_measured core pkg, ← s.held_measured core pkg] at hx hbase ⊢
  exact Pwr.ceilOf_powerStep_under h hbase hx hb

/-- A hart's write of the power block is served. -/
theorem runs_pwrWrite {c : Instr} {f : State → State} {p : State → Prop} (hc : exec c s = s.pwrWrite g f) (hg : g.val < 256)
    (hp : p (f s)) : Runs c s p :=
  ⟨_, hc.trans (if_pos (.inl hg)), hp⟩

/-- PWR.TDP takes 520 to 760 W. -/
theorem State.setTdp_valid {v : Nat} (h1 : 520 ≤ v % 1024) (h2 : v % 1024 ≤ 760) :
    (s.setTdp v).reg 0x02000208 = v % 1024 ∧ s.onlyReg (s.setTdp v) 0x02000208 := by
  have e : s.setTdp v = s.setReg 0x02000208 (v % 1024) := if_pos ⟨h1, h2⟩
  rw [e]
  refine ⟨?_, s.onlyReg_setReg _ _⟩
  rw [State.reg_setReg_self]
  omega
theorem State.setTdp_invalid {v : Nat} (h : v % 1024 < 520 ∨ 760 < v % 1024) : s.setTdp v = s := if_neg (by omega)

/-- SD.REQ with no lane busy closes every ring that is on line. -/
def State.closeRing (s : State) (k : Nat) : State :=
  if (s.ring k).online then s.holdRing k (fun r => { r with closing := true, closedOk := false }) else s

theorem State.pwr_closeRing (s : State) (k : Nat) : (s.closeRing k).pwr = s.pwr := by
  unfold State.closeRing
  split
  · exact State.pwr_holdIrq _ _ _
  · rfl
theorem State.closing_holdRing (s : State) (k j : Nat) (f : Ring → Ring) :
    ((s.holdRing k f).ring j).online = ((s.modRing k f).ring j).online
      ∧ ((s.holdRing k f).ring j).closing = ((s.modRing k f).ring j).closing := by
  unfold State.holdRing
  dsimp only
  rw [State.ring_holdIrq]
  exact ⟨rfl, rfl⟩
theorem State.online_closeRing (s : State) (k j : Nat) : ((s.closeRing k).ring j).online = (s.ring j).online := by
  unfold State.closeRing
  split
  · rw [(State.closing_holdRing _ _ _ _).1]
    by_cases e : j = k
    · subst e; rw [State.ring_modRing_self]
    · rw [State.ring_modRing_ne _ e]
  · rfl
theorem State.closing_closeRing (s : State) (k j : Nat) (h : (s.ring j).closing = true) : ((s.closeRing k).ring j).closing = true := by
  unfold State.closeRing
  split
  · rw [(State.closing_holdRing _ _ _ _).2]
    by_cases e : j = k
    · subst e; rw [State.ring_modRing_self]
    · rw [State.ring_modRing_ne _ e, h]
  · exact h
theorem State.closing_closeRing_self (s : State) (k : Nat) (h : (s.ring k).online = true) : ((s.closeRing k).ring k).closing = true := by
  rw [State.closeRing, if_pos h, (State.closing_holdRing _ _ _ _).2, State.ring_modRing_self]
theorem State.closing_foldl {j : Nat} : ∀ (ks : List Nat) (s : State), (s.ring j).closing = true →
    ((ks.foldl State.closeRing s).ring j).closing = true
  | [], _, h => h
  | k :: ks, s, h => State.closing_foldl ks _ (s.closing_closeRing k j h)
theorem State.closed_foldl {j : Nat} : ∀ (ks : List Nat) (s : State), j ∈ ks → (s.ring j).online = true →
    ((ks.foldl State.closeRing s).ring j).closing = true
  | [], _, hj, _ => absurd hj List.not_mem_nil
  | k :: ks, s, hj, h => by
    by_cases e : j = k
    · subst e
      exact State.closing_foldl ks _ (s.closing_closeRing_self j h)
    · exact State.closed_foldl ks _ ((List.mem_cons.mp hj).resolve_left e) (by rw [State.online_closeRing, h])

/-- A lane that a shutdown request does not wait for: OFFLINE, or another that does no work. -/
def State.laneRests (s : State) (n : Nat) : Bool := decide ((s.lane n).st = 0 ∨ (s.lane n).st = 5 ∨ (s.lane n).st = 6)
/-- The lanes that turn a shutdown request away. -/
def State.sdMask (s : State) : Nat :=
  (List.range 16).foldl (fun a n =>
    let st := (s.lane n).st
    if st = 0 ∨ st = 5 ∨ st = 6 then a else a + 2 ^ n) 0
theorem State.sdMask_eq (s : State) : s.sdMask = busyMask s.laneRests 16 := by
  simp only [State.sdMask, busyMask, State.laneRests, decide_eq_true_eq]

/-- A shutdown request that the lanes of the mask answer. -/
def State.sdAnswer (s : State) (bad : Nat) : State :=
  if bad ≠ 0 then { s with pwr := { s.pwr with sd := 4, sdCode := 0x1501, sdLanes := bad } }
  else (List.range 17).foldl State.closeRing { s with pwr := { s.pwr with sd := 1, sdCode := 0, sdLanes := 0 } }

theorem exec_sdReq (hg : g.val < 256) (h : s.pwr.sd = 0 ∨ s.pwr.sd = 2 ∨ s.pwr.sd = 4) :
    exec (.sdReq g) s = .next (s.sdAnswer s.sdMask) := by
  have hsd : ¬(s.pwr.sd = 1 ∨ s.pwr.sd = 3) := by omega
  have e : execSdReq g s = s.pwrWrite g (fun s => if s.pwr.sd = 1 ∨ s.pwr.sd = 3 then s else s.sdAnswer s.sdMask) := rfl
  refine e.trans ?_
  rw [State.pwrWrite, if_pos (.inl hg), if_neg hsd]

theorem runs_sdReq_closes (hg : g.val < 256) (h : s.pwr.sd = 0 ∨ s.pwr.sd = 2 ∨ s.pwr.sd = 4)
    (hl : ∀ n, n < 16 → (s.lane n).st = 0 ∨ (s.lane n).st = 5 ∨ (s.lane n).st = 6) : Runs (.sdReq g) s fun u =>
      u.pwr.sd = 1 ∧ u.pwr.sdCode = 0 ∧ ∀ k, k < 17 → (s.ring k).online = true → (u.ring k).closing = true := by
  have hmask : s.sdMask = 0 := s.sdMask_eq.trans (busyMask_eq_zero fun n hn => decide_eq_true (hl n hn))
  refine ⟨_, exec_sdReq hg h, ?_⟩
  rw [hmask, State.sdAnswer, if_neg (by decide)]
  refine ⟨?_, ?_, fun k hk ho => State.closed_foldl _ _ (List.mem_range.mpr hk) ho⟩
  · rw [State.foldl_pwr State.pwr_closeRing]
  · rw [State.foldl_pwr State.pwr_closeRing]

theorem runs_sdReq_refused (hg : g.val < 256) (h : s.pwr.sd = 0 ∨ s.pwr.sd = 2 ∨ s.pwr.sd = 4) {n : Nat} (hn : n < 16)
    (hl : (s.lane n).st = 2) : Runs (.sdReq g) s fun u =>
      u.pwr.sd = 4 ∧ u.pwr.sdCode = 0x1501 ∧ bit u.pwr.sdLanes n = true ∧ u = { s with pwr := u.pwr } := by
  have hrest : s.laneRests n = false := decide_eq_false (by omega)
  have hb : bit s.sdMask n = true := by
    rw [State.sdMask_eq, bit_busyMask, hrest, decide_eq_true hn]
    rfl
  have hne : s.sdMask ≠ 0 := by
    intro e
    rw [e] at hb
    exact absurd hb (by simp [bit])
  refine ⟨_, exec_sdReq hg h, ?_⟩
  rw [State.sdAnswer, if_pos hne]
  exact ⟨rfl, rfl, hb, rfl⟩

/-- The queued writes that power-off issues touch neither the Strongroom nor the power state. -/
theorem State.str_foldl_issueWrite : ∀ (l : List WEntry) (s : State),
    (l.foldl (fun s w => s.issueWrite w) s).str = s.str ∧ (l.foldl (fun s w => s.issueWrite w) s).pwr = s.pwr
  | [], _ => ⟨rfl, rfl⟩
  | w :: l, s => State.str_foldl_issueWrite l (s.issueWrite w)

theorem runs_powerOff (hg : g.val < 256) (h : s.sdStage = 2) : Runs (.powerOff g) s fun u =>
    u.pwr.sd = 3 ∧ u.pwr.mainOff = true ∧ u.str.orderly = true
      ∧ ∀ p ∈ s.str.slots, p.2.uses ≠ 0 → (p.1, p.2.uses) ∈ u.str.sealedUses := by
  refine runs_pwrWrite (execPowerOff.eq_1 g s) hg ?_
  rw [if_pos h]
  refine ⟨rfl, rfl, rfl, fun p hp hu => ?_⟩
  dsimp only
  rw [(State.str_foldl_issueWrite _ _).1]
  exact List.mem_map.mpr ⟨p, List.mem_filter.mpr ⟨hp, decide_eq_true hu⟩, rfl⟩

theorem exec_powerOff_early (hg : g.val < 256) (h : s.sdStage ≠ 2) : exec (.powerOff g) s = .next s := by
  refine (execPowerOff.eq_1 g s).trans ?_
  rw [State.pwrWrite, if_pos (.inl hg), if_neg h]

/-- A hot bay's sensor: its reading, its die's ceilings 100 MHz lower, the bay listed and the step counted. -/
def Pwr.heated (p : Pwr) (b t n : Nat) : Pwr :=
  let q := ({ p with bayTemps := SMap.set 0 b t p.bayTemps }).setCeil (fun c m => if bayDie c = bayDie b then max 1200 (m - 100) else m)
  { q with hotBays := if q.hotBays.contains b then q.hotBays else q.hotBays ++ [b], throttles := n }
theorem Pwr.ceilOf_heated (p : Pwr) (b t n : Nat) {c : Nat} (hc : c < 128) :
    (p.heated b t n).ceilOf c = if bayDie c = bayDie b then max 1200 (p.ceilOf c - 100) else p.ceilOf c :=
  Pwr.ceilOf_setCeil { p with bayTemps := SMap.set 0 b t p.bayTemps }
    (fun c m => if bayDie c = bayDie b then max 1200 (m - 100) else m) hc
theorem Pwr.hotBays_heated (p : Pwr) (b t n : Nat) : (p.heated b t n).hotBays.contains b = true := by
  dsimp only [Pwr.heated]
  split
  · assumption
  · exact List.contains_iff_mem.mpr (List.mem_append_right _ (List.mem_singleton.mpr rfl))

theorem runs_bayThermalLimit_hot (b : SliceId) {t : Nat} (h : t ≥ 90) : Runs (.bayThermalLimit b t) s fun u =>
    u.pwr.hotBays.contains b.val = true ∧ SMap.get 0 b.val u.pwr.bayTemps = t ∧ u = { s with pwr := u.pwr }
      ∧ ∀ c, c < 128 → u.pwr.ceilOf c = if bayDie c = bayDie b then max 1200 (s.pwr.ceilOf c - 100) else s.pwr.ceilOf c := by
  have e : ∃ n, exec (.bayThermalLimit b t) s = .next { s with pwr := s.pwr.heated b t n } :=
    ⟨_, (execBayThermalLimit.eq_1 b t s).trans (if_pos (.inl h))⟩
  obtain ⟨n, e⟩ := e
  exact ⟨_, e, Pwr.hotBays_heated _ _ _ _, SMap.get_set_self 0 b.val t s.pwr.bayTemps, rfl, fun c hc => Pwr.ceilOf_heated _ _ _ _ hc⟩

theorem runs_bayThermalLimit_cool (b : SliceId) {t : Nat} (h : t < 88) : Runs (.bayThermalLimit b t) s fun u =>
    u.pwr.hotBays = s.pwr.hotBays.filter (· ≠ b.val) ∧ u.pwr.ceil = s.pwr.ceil ∧ u = { s with pwr := u.pwr } :=
  ⟨_, (execBayThermalLimit.eq_1 b t s).trans (if_neg (by omega)), rfl, rfl, rfl⟩

theorem runs_prochotSensor_hot {t : Nat} (h : t ≥ 95) : Runs (.prochotSensor t) s fun u => u.pwr.prochotOut = true
    ∧ (s.pwr.prochotOut = false → u = ({ s with pwr := { s.pwr with prochotOut := true } } : State).pwrEvent 0x112) := by
  have e : exec (.prochotSensor t) s = _ := (execProchotSensor.eq_1 t s).trans (if_pos h)
  cases hp : s.pwr.prochotOut with
  | true =>
    rw [hp] at e
    exact ⟨s, e.trans (if_pos rfl), hp, fun h => absurd h (by decide)⟩
  | false =>
    rw [hp] at e
    exact ⟨_, e.trans (if_neg (by decide)), by rw [State.pwr_pwrEvent], fun _ => rfl⟩

theorem runs_prochotSensor_cool {t : Nat} (h : t < 95) (hp : s.pwr.prochotOut = true) : Runs (.prochotSensor t) s fun u =>
    u = { s with pwr := { s.pwr with prochotOut := false, prochotRel := s.laneClk + 1600 } } :=
  ⟨_, (execProchotSensor.eq_1 t s).trans ((if_neg (Nat.not_le.mpr h)).trans (if_pos hp)), rfl⟩

theorem exec_prochotNInput (low : Bool) (ho : s.pwr.prochotOut = false) (hr : s.pwr.prochotRel ≤ s.laneClk) :
    exec (.prochotNInput low) s = if low then .next { s with pwr := ({ s.pwr with prochotIn := true }).setCeil (fun _ _ => 1200) }
      else .next { s with pwr := { s.pwr with prochotIn := false } } := by
  refine (execProchotNInput.eq_1 low s).trans (if_neg ?_)
  rintro (e | e)
  · rw [ho] at e; exact absurd e (by decide)
  · exact absurd hr (Nat.not_le.mpr e)

theorem runs_thermalTrip {t ms : Nat} {iod : Bool} (hs : s.pwr.standby = true)
    (h : t ≥ 105 ∨ iod = true ∧ t ≥ 95 ∧ ms ≥ 10) : Runs (.thermalTrip t iod ms) s fun u =>
      u.pwr.mainOff = true ∧ u.pwr.thermTrip = true ∧ u.pwr.mainUp = false ∧ u.pwr.nextCause = 4 ∧ u.dram = [] := by
  have trip : ∀ t : State, (t.holdMain 0x113 4 true).pwr.mainOff = true ∧ (t.holdMain 0x113 4 true).pwr.thermTrip = true
      ∧ (t.holdMain 0x113 4 true).pwr.mainUp = false ∧ (t.holdMain 0x113 4 true).pwr.nextCause = 4
      ∧ (t.holdMain 0x113 4 true).dram = [] := by
    intro t
    obtain ⟨h1, h2, h3, h4, h5⟩ := t.holdMain_spec 0x113 4 true
    exact ⟨h1, h2.trans (Bool.or_true _), h3, h4, h5⟩
  exact ⟨_, (execThermalTrip.eq_1 t iod ms s).trans (if_pos ⟨hs, h⟩), trip _⟩

theorem runs_referenceClockLoss {ns : Nat} (hp : s.pwr.pwrgd = true) (h : ns > 1000) : Runs (.referenceClockLoss ns) s fun u =>
    u.pwr.mainOff = true ∧ u.pwr.mainUp = false ∧ u.pwr.nextCause = 5 ∧ u.dram = [] := by
  obtain ⟨h1, _, h3, h4, h5⟩ := s.holdMain_spec 0x114 5 false
  exact ⟨_, (execReferenceClockLoss.eq_1 ns s).trans (if_pos ⟨hp, h⟩), h1, h3, h4, h5⟩

theorem runs_avsbusFailure (d : Fin 4) : Runs (.avsbusFailure d) s fun u => u.pwr.avsDies.contains d.val = true
    ∧ ∀ b, b < 128 → u.pwr.ceilOf b = if bayDie b = d.val then 1200 else s.pwr.ceilOf b := by
  refine ⟨_, execAvsbusFailure.eq_1 d s, ?_⟩
  dsimp only
  rw [State.pwr_pwrEvent]
  split
  · rename_i hc
    exact ⟨hc, fun b hb => Pwr.ceilOf_setCeil _ (fun b c => if bayDie b = d.val then 1200 else c) hb⟩
  · exact ⟨List.contains_iff_mem.mpr (List.mem_append_right _ (List.mem_singleton.mpr rfl)),
      fun b hb => Pwr.ceilOf_setCeil _ (fun b c => if bayDie b = d.val then 1200 else c) hb⟩

/-- The standby port serves an access while the standby domain is up. -/
theorem exec_i3cAccess_write (r : Nat) (v : W32) (hs : s.pwr.standby = true) : exec (.i3cAccess r (some v)) s
    = if r = 0x208 then .next (s.setTdp v.toNat) else .next { s with readErr := SMap.set 0 0x201 1 s.readErr } := by
  have e : exec (.i3cAccess r (some v)) s = execI3cAccess r (some v) s := rfl
  rw [e, execI3cAccess, hs, if_neg (by decide)]
theorem exec_i3cAccess_status (hs : s.pwr.standby = true) :
    exec (.i3cAccess 0x204 none) s = .next (s.answer 0x201 ((s.pwrView 0x204).getD 0)) := by
  have e : exec (.i3cAccess 0x204 none) s = execI3cAccess 0x204 none s := rfl
  rw [e, execI3cAccess, hs, if_neg (by decide)]
  rfl

end

/-- Settles O53: one lemma per event of the power block; the ceilings are a table built bay by bay. -/
theorem powerOperationsComplete : Obligations.PowerOperationsComplete := by
  intro g s p
  refine ⟨fun core pkg hup => ⟨runs_powerManagerInterval core pkg hup, runs_powerManagerInterval_over pkg hup,
      runs_powerManagerInterval_under pkg hup⟩,
    fun v hg => ⟨fun h1 h2 => runs_pwrWrite (execPwrTdp.eq_1 g v s) hg (State.setTdp_valid h1 h2), fun h => ?_⟩,
    fun hg h => ⟨runs_sdReq_closes hg h, fun n hn hl => runs_sdReq_refused hg h hn hl⟩, runs_powerOff, exec_powerOff_early,
    fun b t => ⟨runs_bayThermalLimit_hot b, runs_bayThermalLimit_cool b⟩, fun t => runs_prochotSensor_hot,
    fun t => runs_prochotSensor_cool, fun ho hr => ⟨?_, ⟨_, exec_prochotNInput false ho hr, rfl⟩⟩, fun t iod ms => runs_thermalTrip,
    fun ns => runs_referenceClockLoss, runs_avsbusFailure, fun d => ⟨_, execAvsbusRetry.eq_1 d true s, rfl⟩,
    fun hs => ⟨fun v h1 h2 => ⟨_, exec_i3cAccess_write 0x208 v hs, State.setTdp_valid h1 h2⟩,
      ⟨_, exec_i3cAccess_status hs, congrArg some (State.answer_readRes s _ _), rfl⟩,
      fun r v hr => ⟨_, (exec_i3cAccess_write r v hs).trans (if_neg hr), SMap.get_set_self 0 0x201 1 s.readErr, rfl⟩⟩⟩
  · refine (execPwrTdp.eq_1 g v s).trans ?_
    rw [State.pwrWrite, if_pos (.inl hg), State.setTdp_invalid h]
  · exact ⟨_, exec_prochotNInput true ho hr, rfl, fun b hb => Pwr.ceilOf_setCeil _ (fun _ _ => 1200) hb, rfl⟩

end Sys2Proof.Machine
end

section
/-!
Stylus instructions: the command, the thread, loads and stores part by part.
-/

namespace Sys2Proof.Machine
open Sys2Proof

/-! ### A Stylus instruction: its command, its thread, its parts of memory -/

section
variable {s : State} {n : LaneId} {t : ThreadId} {f : Nat × Nat} {i : Nat}

/-- A running thread's next instruction, which the command accepts, runs and is counted. -/
theorem runs_sty {c : Instr} {a : Thread → Nat → Bool} {any : Bool} {q : State → Prop} (hc : exec c s = s.styStep n t a any)
    (hrun : (s.thr n t).run = .run) (hf : (s.lane n).fetch (s.thr n t) = some f) (hw : fullWord false f = some i)
    (ha : a (s.thr n t) i = true) (hq : q ((s.styInsn n t (s.thr n t) i f.2).lpmu n 20 1)) : Runs c s q := by
  refine ⟨_, hc.trans ?_, hq⟩
  unfold State.styStep State.issueAny
  dsimp only
  rw [hf]
  dsimp only
  rw [hw]
  dsimp only
  rw [if_pos ha, if_pos hrun]

/-- A base instruction is not an Xklane operation. -/
theorem xklane_base {i : Nat} (h0 : Rv.op i ≠ 0x0B) (h1 : Rv.op i ≠ 0x2B) : xklane i = false := by
  unfold xklane
  dsimp only
  rw [if_neg h0, if_neg h1]

theorem runs_styRv32 {q : State → Prop} (hrun : (s.thr n t).run = .run) (hf : (s.lane n).fetch (s.thr n t) = some f)
    (hw : fullWord false f = some i) (h0 : Rv.op i ≠ 0x0B) (h1 : Rv.op i ≠ 0x2B)
    (hq : q ((s.styInsn n t (s.thr n t) i f.2).lpmu n 20 1)) : Runs (.stylusRv32Instruction n t .none) s q :=
  runs_sty (c := .stylusRv32Instruction n t .none) (a := fun _ i => !xklane i) (any := true) rfl hrun hf hw
    (by rw [xklane_base h0 h1]; rfl) hq

/-- A misaligned access is the split command's. -/
theorem runs_stySplit {q : State → Prop} {b z : Nat} (hrun : (s.thr n t).run = .run) (hf : (s.lane n).fetch (s.thr n t) = some f)
    (hw : fullWord false f = some i) (hacc : (s.thr n t).accOf i = some (b, z)) (hz : b % z ≠ 0)
    (hq : q ((s.styInsn n t (s.thr n t) i f.2).lpmu n 20 1)) : Runs (.stylusSplitAccess n t) s q :=
  runs_sty (execStylusSplitAccess.eq_1 n t s) hrun hf hw (by rw [hacc]; exact decide_eq_true hz) hq

/-- An instruction that changes its own thread alone, as it is issued. -/
theorem State.sty_issued (s : State) (n t : Nat) (g : Thread → Thread) :
    ((s.modThr n t g).lpmu n 20 1).thr n t = g (s.thr n t) ∧ s.onlyThread ((s.modThr n t g).lpmu n 20 1) n t :=
  ⟨by rw [State.lpmu_thr, State.thr_modThr_self], s.onlyThread_issue n t g 20 1⟩

theorem Thread.rd_retk (th : Thread) {r : Nat} (v k : Nat) (h : r ≠ 0) : (th.retk r v k).rd r = BitVec.ofNat 32 v := by
  have e : (th.retk r v k).rd r = (th.wr r (BitVec.ofNat 32 v)).rd r := rfl
  rw [e, Thread.rd_wr_self _ _ _ h]
theorem Thread.rd_jump (th : Thread) {r : Nat} (v p : Nat) (h : r ≠ 0) : (th.jump r v p).rd r = BitVec.ofNat 32 v := by
  have e : (th.jump r v p).rd r = (th.wr r (BitVec.ofNat 32 v)).rd r := rfl
  rw [e, Thread.rd_wr_self _ _ _ h]

/-- What a retirement with a result leaves of the thread, and of all else. -/
theorem State.retk_issued (s : State) (n t : Nat) {r : Nat} (v k : Nat) (hr : r ≠ 0) :
    (((s.modThr n t (fun th => th.retk r v k)).lpmu n 20 1).thr n t).rd r = BitVec.ofNat 32 v
      ∧ (((s.modThr n t (fun th => th.retk r v k)).lpmu n 20 1).thr n t).pc = (s.thr n t).pc + BitVec.ofNat 32 k
      ∧ s.onlyThread ((s.modThr n t (fun th => th.retk r v k)).lpmu n 20 1) n t := by
  obtain ⟨h1, h2⟩ := s.sty_issued n t (fun th => th.retk r v k)
  rw [h1]
  exact ⟨Thread.rd_retk _ v k hr, rfl, h2⟩

/-- An exception taken: the trap registers, the vector, and nothing beyond the thread. -/
theorem State.taken_issued {s : State} {n t : Nat} (cause tval : W32) (h : (s.thr n t).mie = true ∨ (s.thr n t).mcause = 0)
    (hv : (s.lane n).mtvec t ≠ 0) {u : State} (hu : u = s.trap n t cause tval ∨ u = (s.trap n t cause tval).lpmu n 20 1) :
    (u.thr n t).mepc = (s.thr n t).pc ∧ (u.thr n t).mcause = cause ∧ (u.thr n t).mtval = tval ∧ (u.thr n t).mpie = (s.thr n t).mie
      ∧ (u.thr n t).mie = false ∧ (u.thr n t).pc = BitVec.ofNat 32 ((s.lane n).mtvec t) ∧ s.onlyThread u n t := by
  rw [State.trap_taken cause tval h hv] at hu
  rcases hu with hu | hu
  · rw [hu, State.thr_modThr_self]
    exact ⟨rfl, rfl, rfl, rfl, rfl, rfl, s.onlyThread_modThr n t _⟩
  · obtain ⟨h1, h2⟩ := s.sty_issued n t (fun th => { th with
      mepc := th.pc, mcause := cause, mtval := tval, mpie := th.mie, mie := false,
      pc := BitVec.ofNat 32 ((s.lane n).mtvec t), run := .run })
    rw [hu, h1]
    exact ⟨rfl, rfl, rfl, rfl, rfl, rfl, h2⟩

/-! ### Bytes read and written in parts -/

theorem memRead_append (m : SMap Byte) (a j k : Nat) : memRead m a j ++ memRead m (a + j) k = memRead m a (j + k) := by
  simp [memRead, List.range_add, Nat.add_assoc]
theorem memWrite_append (m : SMap Byte) (a : Nat) (b c : Bytes) :
    memWrite m a (b ++ c) = memWrite (memWrite m a b) (a + b.length) c := by
  induction c using List.reverseRecOn with
  | nil => rw [List.append_nil]; rfl
  | append_singleton c v ih =>
    rw [← List.append_assoc, memWrite_append_one, ih, memWrite_append_one, List.length_append, Nat.add_assoc]
theorem Bytes.slice_append_slice {b : Bytes} {k : Nat} (h : k ≤ b.length) :
    Bytes.slice b 0 k ++ Bytes.slice b k (b.length - k) = b := by
  have hs : ∀ o m, o + m ≤ b.length → Bytes.slice b o m = (b.drop o).take m := by
    intro o m hm
    refine List.ext_getElem (by simp [Bytes.slice]; omega) fun j hj hj' => ?_
    simp only [Bytes.slice, List.length_map, List.length_range] at hj
    simp only [Bytes.slice, List.getElem_map, List.getElem_range, List.getElem_take, List.getElem_drop]
    rw [List.getD_eq_getElem _ _ (by omega)]
  rw [hs 0 k (by omega), hs k (b.length - k) (by omega), List.drop_zero, ← List.length_drop (i := k), List.take_length, List.take_append_drop]
theorem Bytes.slice_all (b : Bytes) : Bytes.slice b 0 b.length = b := by
  have h := Bytes.slice_append_slice (b := b) (Nat.le_refl _)
  rwa [Nat.sub_self, show Bytes.slice b b.length 0 = [] from rfl, List.append_nil] at h

/-- The parts of an access: all of it at once, or its two halves. -/
theorem styParts_cases (a z : Nat) : styParts a z = [(a, z)]
    ∨ ∃ k, 0 < k ∧ k < z ∧ styParts a z = [(a, k), ((a + k) % 2 ^ 32, z - k)] := by
  unfold styParts
  dsimp only
  split
  · exact .inr ⟨min z (4 - a % 4), by omega, by omega, rfl⟩
  · exact .inl rfl
/-- An aligned access of at most four bytes is one part. -/
theorem styParts_aligned {a z : Nat} (hz : z = 1 ∨ z = 2 ∨ z = 4) (h : a % z = 0) : styParts a z = [(a, z)] := by
  unfold styParts
  rcases hz with rfl | rfl | rfl <;> exact if_neg (by omega)
theorem accOf_size {th : Thread} {i b z : Nat} (h : th.accOf i = some (b, z)) : z = 1 ∨ z = 2 ∨ z = 4 := by
  have hz : Rv.f3 i % 4 < 3 ∧ z = 2 ^ (Rv.f3 i % 4) := by
    unfold Thread.accOf at h
    dsimp only at h
    split at h
    · rename_i hc
      exact ⟨by omega, (congrArg Prod.snd (Option.some.inj h)).symm⟩
    · split at h
      · rename_i hc
        exact ⟨by omega, (congrArg Prod.snd (Option.some.inj h)).symm⟩
      · exact absurd h (by simp)
  obtain ⟨h3, rfl⟩ := hz
  generalize Rv.f3 i % 4 = j at h3
  interval_cases j <;> decide

/-! ### Tile memory as a thread sees it -/

theorem Lane.spot_load_tile (l : Lane) (th : Thread) {a k : Nat} (h : 0x10000000 ≤ a) (h' : a + k ≤ 0x105D0000) :
    l.spot th a k false = .tile (a - 0x10000000) := by
  unfold Lane.spot
  dsimp only
  rw [if_pos ⟨h, by omega⟩]
  rfl
theorem State.styRead_tile (s : State) (n : Nat) (th : Thread) {a k : Nat} (h : 0x10000000 ≤ a) (h' : a + k ≤ 0x105D0000) :
    s.styRead n th (a, k) = (s, memRead (s.lane n).tmem (a - 0x10000000) k) := by
  have hb : ∀ i ∈ List.range k, (if 0x5D0000 ≤ a - 0x10000000 + i ∧ a - 0x10000000 + i < 0x5FE800
      then s.tileBytes n (a - 0x10000000 + i) 1 else memRead (s.lane n).tmem (a - 0x10000000 + i) 1)
      = [SMap.get 0 (a - 0x10000000 + i) (s.lane n).tmem] := by
    intro i hi
    rw [List.mem_range] at hi
    rw [if_neg (by omega), memRead_one]
  simp only [State.styRead, Lane.spot_load_tile _ _ h h']
  rw [List.flatMap_congr hb]
  exact congrArg (Prod.mk s) (List.flatMap_pure_eq_map _ _)

/-- Every part of an access lies within it. -/
theorem mem_styParts {a z : Nat} {p : Nat × Nat} (h : p ∈ styParts a z) (ha : a + z ≤ 2 ^ 32) : a ≤ p.1 ∧ p.1 + p.2 ≤ a + z := by
  rcases styParts_cases a z with e | ⟨k, h0, hk, e⟩
  · rw [e, List.mem_singleton] at h
    subst h
    exact ⟨Nat.le_refl _, Nat.le_refl _⟩
  · rw [e, List.mem_cons, List.mem_singleton] at h
    have hmod : (a + k) % 2 ^ 32 = a + k := Nat.mod_eq_of_lt (by omega)
    rcases h with h | h
    · subst h
      exact ⟨Nat.le_refl _, by dsimp only; omega⟩
    · subst h
      dsimp only
      omega

theorem State.styReadAll_tile (s : State) (n : Nat) (th : Thread) {a z : Nat} (h : 0x10000000 ≤ a) (h' : a + z ≤ 0x105D0000) :
    s.styReadAll n th (styParts a z) = (s, memRead (s.lane n).tmem (a - 0x10000000) z) := by
  unfold State.styReadAll
  rcases styParts_cases a z with e | ⟨k, h0, hk, e⟩
  · rw [e, List.foldl_cons, List.foldl_nil, State.styRead_tile s n th h h']
    rfl
  · have hmod : (a + k) % 2 ^ 32 = a - 0x10000000 + k + 0x10000000 := by omega
    have hsub : (a + k) % 2 ^ 32 - 0x10000000 = a - 0x10000000 + k := by omega
    rw [e, List.foldl_cons, List.foldl_cons, List.foldl_nil, State.styRead_tile s n th h (by omega)]
    dsimp only
    rw [State.styRead_tile s n th (by omega) (by omega), hsub]
    dsimp only
    rw [List.nil_append, memRead_append, Nat.add_sub_cancel' (Nat.le_of_lt hk)]

/-- A load from tile memory retires at once with the bytes read. -/
theorem State.styLoad_tile (s : State) (n t : Nat) (th : Thread) (i k : Nat) {a z : Nat} (h : 0x10000000 ≤ a)
    (h' : a + z ≤ 0x105D0000) : s.styLoad n t th i a z k = s.modThr n t (fun th =>
      th.retk (Rv.rd i) (styValue (memRead (s.lane n).tmem (a - 0x10000000) z) (decide (Rv.f3 i < 4))) k) := by
  have hspot : ∀ p ∈ styParts a z, (s.lane n).spot th p.1 p.2 false = .tile (p.1 - 0x10000000) := fun p hp => by
    obtain ⟨h1, h2⟩ := mem_styParts hp (by omega)
    exact Lane.spot_load_tile _ _ (by omega) (by omega)
  have hfault : s.styFault n th a z false = none := by
    rw [State.styFault, List.find?_eq_none.mpr fun p hp => ?_]
    · rfl
    · simp only [State.styBad, hspot p hp, Bool.false_eq_true, not_false_eq_true]
  have hquick : (styParts a z).all (fun p => match (s.lane n).spot th p.1 p.2 false with
      | .tile _ => true
      | _ => false) = true := List.all_eq_true.mpr fun p hp => by simp only [hspot p hp]
  unfold State.styLoad
  rw [hfault]
  dsimp only
  rw [State.styReadAll_tile s n th h h']
  exact if_pos hquick

/-! ### Stores -/

theorem State.lane_lpmu_self (s : State) (n i k : Nat) : (s.lpmu n i k).lane n
    = { s.lane n with lpmu := SMap.set 0 i ((SMap.get 0 i (s.lane n).lpmu + k) % 2 ^ 48) (s.lane n).lpmu } :=
  State.lane_modLane_self s n _

theorem Lane.range_of_spot_tile {l : Lane} {th : Thread} {a k o : Nat} {st : Bool} (h : l.spot th a k st = .tile o) :
    0x10000000 ≤ a ∧ a + k ≤ 0x10800000 := by
  by_contra hn
  unfold Lane.spot at h
  dsimp only at h
  rw [if_neg hn] at h
  repeat' split at h
  all_goals cases h

/-- A part of a store that reaches tile memory writes its bytes there. -/
theorem State.styWrite_tile {s : State} {n : Nat} {th : Thread} {p : Nat × Nat} {o : Nat} (b : Bytes)
    (h : (s.lane n).spot th p.1 p.2 true = .tile o) : s.styWrite n th p b = s.modLane n (fun l => l.writeMem o b) := by
  simp only [State.styWrite, h]

/-- The parts of a store, written one after the other. -/
def State.styWriteAll (s : State) (n : Nat) (th : Thread) (b : Bytes) (ps : List (Nat × Nat)) : State :=
  (ps.foldl (fun (r : State × Nat) p => (r.1.styWrite n th p (Bytes.slice b r.2 p.2), r.2 + p.2)) (s, 0)).1

theorem State.styWriteAll_tile {s : State} {n : Nat} {th : Thread} {a : Nat} {b : Bytes}
    (h : ∀ p ∈ styParts a b.length, (s.lane n).spot th p.1 p.2 true = .tile (p.1 - 0x10000000)) :
    (s.styWriteAll n th b (styParts a b.length)).lane n = (s.lane n).writeMem (a - 0x10000000) b
      ∧ s.onlyLane (s.styWriteAll n th b (styParts a b.length)) n := by
  unfold State.styWriteAll
  rcases styParts_cases a b.length with e | ⟨k, h0, hk, e⟩
  · rw [e] at h ⊢
    simp only [List.foldl_cons, List.foldl_nil]
    rw [State.styWrite_tile _ (h (a, b.length) (List.mem_singleton.mpr rfl)), Bytes.slice_all]
    exact ⟨State.lane_modLane_self _ _ _, s.onlyLane_modLane n (fun l => l.writeMem (a - 0x10000000) b)⟩
  · rw [e] at h ⊢
    have h1 : (s.lane n).spot th a k true = .tile (a - 0x10000000) := h (a, k) (by simp)
    have h2 : (s.lane n).spot th ((a + k) % 2 ^ 32) (b.length - k) true = .tile ((a + k) % 2 ^ 32 - 0x10000000) :=
      h ((a + k) % 2 ^ 32, b.length - k) (by simp)
    obtain ⟨r1, r2⟩ := Lane.range_of_spot_tile h1
    have hmod : (a + k) % 2 ^ 32 - 0x10000000 = a - 0x10000000 + k := by omega
    have hlen : (Bytes.slice b 0 k).length = k := by simp [Bytes.slice]
    simp only [List.foldl_cons, List.foldl_nil, Nat.zero_add]
    rw [State.styWrite_tile (p := (a, k)) _ h1,
      State.styWrite_tile (p := ((a + k) % 2 ^ 32, b.length - k)) (o := a - 0x10000000 + k) _
        (by rw [State.lane_modLane_self, ← hmod]; exact h2)]
    refine ⟨?_, (s.onlyLane_modLane n _).trans (State.onlyLane_modLane _ n _)⟩
    rw [State.lane_modLane_self, State.lane_modLane_self]
    dsimp only [Lane.writeMem]
    have hm := memWrite_append (s.lane n).tmem (a - 0x10000000) (Bytes.slice b 0 k) (Bytes.slice b k (b.length - k))
    rw [hlen, Bytes.slice_append_slice (Nat.le_of_lt hk)] at hm
    rw [hm]

theorem Bytes.length_ofNatLE : ∀ z v, (Bytes.ofNatLE z v).length = z
  | 0, _ => rfl
  | z + 1, v => by rw [Bytes.ofNatLE, List.length_cons, Bytes.length_ofNatLE z]

/-- A store into tile memory: its bytes there, the thread past it, and nothing beyond the lane. -/
theorem State.styStore_tile {s : State} {n t : Nat} {i k a z : Nat}
    (h : ∀ p ∈ styParts a z, (s.lane n).spot (s.thr n t) p.1 p.2 true = .tile (p.1 - 0x10000000)) :
    let u := (s.styStore n t (s.thr n t) i a z k).lpmu n 20 1
    (u.lane n).tmem = memWrite (s.lane n).tmem (a - 0x10000000) (Bytes.ofNatLE z ((s.thr n t).rd (Rv.rs2 i)).toNat)
      ∧ (u.thr n t).pc = (s.thr n t).pc + BitVec.ofNat 32 k ∧ (u.thr n t).x = (s.thr n t).x ∧ s.onlyLane u n
      ∧ u.lane n = { s.lane n with tmem := (u.lane n).tmem, threads := (u.lane n).threads, lpmu := (u.lane n).lpmu } := by
  have hfault : s.styFault n (s.thr n t) a z true = none := by
    rw [State.styFault, List.find?_eq_none.mpr fun p hp => ?_]
    · rfl
    · simp only [State.styBad, h p hp, Bool.false_eq_true, not_false_eq_true]
  have e : s.styStore n t (s.thr n t) i a z k
      = (s.styWriteAll n (s.thr n t) (Bytes.ofNatLE z ((s.thr n t).rd (Rv.rs2 i)).toNat) (styParts a z)).modThr n t
          (fun th => th.retk 0 0 k) := by
    unfold State.styStore
    rw [hfault]
    rfl
  have hw := State.styWriteAll_tile (s := s) (n := n) (th := s.thr n t) (a := a)
    (b := Bytes.ofNatLE z ((s.thr n t).rd (Rv.rs2 i)).toNat) (by rw [Bytes.length_ofNatLE]; exact h)
  rw [Bytes.length_ofNatLE] at hw
  obtain ⟨h1, h2⟩ := hw
  dsimp only
  rw [e]
  generalize s.styWriteAll n (s.thr n t) (Bytes.ofNatLE z ((s.thr n t).rd (Rv.rs2 i)).toNat) (styParts a z) = w at h1 h2 ⊢
  have hth : w.thr n t = s.thr n t := by
    unfold State.thr
    rw [h1]
    rfl
  obtain ⟨g1, g2⟩ := w.sty_issued n t (fun th => th.retk 0 0 k)
  rw [g1, State.lane_lpmu_self, State.lane_modThr_self, hth, h1]
  exact ⟨rfl, rfl, rfl, h2.trans g2.1, rfl⟩

/-! ### The instructions of O29 -/

/-- A load through a DRAM window suspends the thread with the bytes as they stand. -/
theorem State.styLoad_dram {s : State} {n t : Nat} {th : Thread} (i k : Nat) {a z pa : Nat} (hp : styParts a z = [(a, z)])
    (hs : (s.lane n).spot th a z false = .dram pa) (hb : dramBase ≤ pa) (ht : pa + z ≤ s.dramTop) (hg : s.poisoned pa z = false) :
    s.styLoad n t th i a z k = s.modThr n t (fun th =>
      { th with run := .waitLoad (Rv.rd i) a z (decide (Rv.f3 i < 4)) (s.dramRead pa z) none }) := by
  have hin : ¬(pa < dramBase ∨ pa + z > s.dramTop) := by omega
  have hbad : s.styBad n th false (a, z) = false := by
    simp only [State.styBad, hs]
    exact decide_eq_false hin
  have hfault : s.styFault n th a z false = none := by
    rw [State.styFault, hp, List.find?_cons_of_neg (by rw [hbad]; decide)]
    rfl
  have hpart : s.dramPart n th a z s.poisoned = none := by
    rw [State.dramPart, hp, List.find?_cons_of_neg]
    · rfl
    · simp only [hs, hg, Bool.false_eq_true, not_false_eq_true]
  have hread : s.styReadAll n th [(a, z)] = (s, s.dramRead pa z) := by
    rw [State.styReadAll, List.foldl_cons, List.foldl_nil]
    have e : s.styRead n th (a, z) = (s, s.dramRead pa z) := by simp only [State.styRead, hs]
    rw [e]
    rfl
  have hquick : ([(a, z)] : List (Nat × Nat)).all (fun p => match (s.lane n).spot th p.1 p.2 false with
      | .tile _ => true
      | _ => false) = false := by simp only [List.all_cons, hs, Bool.false_and]
  unfold State.styLoad
  rw [hfault, hpart, hp]
  dsimp only
  rw [hread]
  exact if_neg (Bool.eq_false_iff.mp hquick)

end
end Sys2Proof.Machine
end

section
/-!
What a Stylus instruction does, by its opcode: the statement of O29.
-/

namespace Sys2Proof.Machine
open Sys2Proof

/-! ### Stylus instructions: the statement of O29 -/

theorem opImm_addi {w i a : Nat} (zb : Bool) (h : Rv.f3 i = 0) : Rv.opImm w zb i a = some ((a + Rv.immI w i) % 2 ^ w) := by
  unfold Rv.opImm
  rw [h]
  rfl
theorem ofNat_toNat_word (x : W32) : BitVec.ofNat 32 x.toNat = x := by simp
theorem BitVec.ofNat_mod_self (w v : Nat) : BitVec.ofNat w (v % 2 ^ w) = BitVec.ofNat w v := by
  apply BitVec.eq_of_toNat_eq
  simp

section
variable {s : State} {n : LaneId} {t : ThreadId} {th : Thread} {i k : Nat}

/-! What an instruction does, by its opcode. -/

theorem State.styInsn_addi (ho : Rv.op i = 0x13) (h3 : Rv.f3 i = 0) : s.styInsn n t th i k = s.modThr n t (fun x =>
    x.retk (Rv.rd i) (((th.rd (Rv.rs1 i)).toNat + Rv.immI 32 i) % 2 ^ 32) k) := by
  unfold State.styInsn
  rw [ho]
  dsimp only
  rw [opImm_addi false h3]
  rfl
theorem State.styInsn_jal (ho : Rv.op i = 0x6F) : s.styInsn n t th i k = s.modThr n t (fun x =>
    x.jump (Rv.rd i) (th.pc.toNat + k) (th.pc.toNat + Rv.immJ 32 i)) := by
  unfold State.styInsn
  rw [ho]
  rfl
theorem State.styInsn_load {a z : Nat} (ho : Rv.op i = 0x03) (hacc : th.accOf i = some (a, z)) :
    s.styInsn n t th i k = s.styLoad n t th i a z k := by
  unfold State.styInsn
  rw [ho]
  dsimp only
  rw [hacc]
  rfl
theorem State.styInsn_store {a z : Nat} (ho : Rv.op i = 0x23) (hacc : th.accOf i = some (a, z)) :
    s.styInsn n t th i k = s.styStore n t th i a z k := by
  unfold State.styInsn
  rw [ho]
  dsimp only
  rw [hacc]
  rfl
theorem State.styInsn_long (h : isLong i = true) : s.styInsn n t th i k = (s.lpmu n 22 34).modThr n t (fun x =>
    x.retk (Rv.rd i) (Rv.mulDiv 32 (Rv.f3 i) (th.rd (Rv.rs1 i)).toNat (th.rd (Rv.rs2 i)).toNat) k) := by
  have ho : Rv.op i = 0x33 := by
    unfold isLong at h
    simp only [Bool.and_eq_true, decide_eq_true_eq] at h
    exact h.1.1
  unfold State.styInsn
  rw [ho]
  exact if_pos h
theorem State.styInsn_csr (ho : Rv.op i = 0x73) (h0 : Rv.f3 i ≠ 0) (h4 : Rv.f3 i ≠ 4) :
    s.styInsn n t th i k = s.styCsrInsn n t th i k := by
  unfold State.styInsn
  rw [ho]
  exact (if_neg h0).trans (if_neg h4)
theorem State.styInsn_mret : s.styInsn n t th 0x30200073 k = s.modThr n t (fun x =>
    { (x.jump 0 0 x.mepc.toNat) with mie := x.mpie, mpie := true }) := rfl
theorem State.styInsn_ecall : s.styInsn n t th 0x73 k = s.trap n t 11 0 := rfl

/-- A CSR read that writes nothing. -/
theorem State.styCsrInsn_read {v : Nat} (h2 : Rv.f3 i = 2) (h1 : Rv.rs1 i = 0) (hv : s.styCsr n t th (bits i 31 20) = some v) :
    s.styCsrInsn n t th i k = s.modThr n t (fun x => x.retk (Rv.rd i) v k) := by
  unfold State.styCsrInsn
  dsimp only
  rw [hv, h2]
  exact if_pos ⟨by decide, h1⟩
/-- A swap of mscratch. -/
theorem State.styCsrInsn_mscratch (h1 : Rv.f3 i = 1) (hc : bits i 31 20 = 0x340) :
    s.styCsrInsn n t th i k = s.modThr n t (fun _ =>
      ({ th with mscratch := th.rd (Rv.rs1 i) } : Thread).retk (Rv.rd i) th.mscratch.toNat k) := by
  have e : BitVec.ofNat 32 (th.rd (Rv.rs1 i)).toNat = th.rd (Rv.rs1 i) := (ofNat_toNat_word _)
  unfold State.styCsrInsn
  rw [hc, h1]
  conv_rhs => rw [← e]
  rfl

end

/-- A load from tile memory retires with its bytes, by either command. -/
theorem tileLoad_issued {s : State} {n : LaneId} {t : ThreadId} {f : Nat × Nat} {i b z : Nat} (ho : Rv.op i = 0x03) (hacc : (s.thr n t).accOf i = some (b, z)) (hb : 0x10000000 ≤ b)
    (hb' : b + z ≤ 0x105D0000) (hrd : Rv.rd i ≠ 0) :
    let u := (s.styInsn n t (s.thr n t) i f.2).lpmu n 20 1
    (u.thr n t).rd (Rv.rd i) = BitVec.ofNat 32 (styValue (memRead (s.lane n).tmem (b - 0x10000000) z) (decide (Rv.f3 i < 4)))
      ∧ (u.thr n t).pc = (s.thr n t).pc + BitVec.ofNat 32 f.2 ∧ s.onlyThread u n t := by
  dsimp only
  rw [State.styInsn_load ho hacc, State.styLoad_tile s n t _ i f.2 hb hb']
  exact s.retk_issued n t _ f.2 hrd

section
variable {s : State} {n : LaneId} {t : ThreadId} {f : Nat × Nat} {i : Nat} (hrun : (s.thr n t).run = .run)
  (hf : (s.lane n).fetch (s.thr n t) = some f) (hw : fullWord false f = some i)
include hrun hf hw

theorem runs_addi (ho : Rv.op i = 0x13) (h3 : Rv.f3 i = 0) (hrd : Rv.rd i ≠ 0) : Runs (.stylusRv32Instruction n t .none) s fun u =>
    (u.thr n t).rd (Rv.rd i) = BitVec.ofNat 32 (((s.thr n t).rd (Rv.rs1 i)).toNat + Rv.immI 32 i)
      ∧ (u.thr n t).pc = (s.thr n t).pc + BitVec.ofNat 32 f.2 ∧ s.onlyThread u n t := by
  refine runs_styRv32 hrun hf hw (by omega) (by omega) ?_
  rw [State.styInsn_addi ho h3, ← BitVec.ofNat_mod_self]
  exact s.retk_issued n t _ f.2 hrd

theorem runs_jal (ho : Rv.op i = 0x6F) (hrd : Rv.rd i ≠ 0) : Runs (.stylusRv32Instruction n t .none) s fun u =>
    (u.thr n t).rd (Rv.rd i) = (s.thr n t).pc + BitVec.ofNat 32 f.2
      ∧ (u.thr n t).pc = BitVec.ofNat 32 ((s.thr n t).pc.toNat + Rv.immJ 32 i) ∧ s.onlyThread u n t := by
  refine runs_styRv32 hrun hf hw (by omega) (by omega) ?_
  rw [State.styInsn_jal ho]
  obtain ⟨h1, h2⟩ := s.sty_issued n t (fun x => x.jump (Rv.rd i) ((s.thr n t).pc.toNat + f.2) ((s.thr n t).pc.toNat + Rv.immJ 32 i))
  rw [h1, Thread.rd_jump _ _ _ hrd]
  refine ⟨?_, rfl, h2⟩
  apply BitVec.eq_of_toNat_eq
  simp

theorem runs_splitFault {b z p : Nat} (ho : Rv.op i = 0x23) (hacc : (s.thr n t).accOf i = some (b, z)) (hz : b % z ≠ 0)
    (hp : s.styFault n (s.thr n t) b z true = some p) (hm : (s.thr n t).mie = true ∨ (s.thr n t).mcause = 0)
    (hv : (s.lane n).mtvec t ≠ 0) : Runs (.stylusSplitAccess n t) s fun u =>
      ((u.thr n t).mepc = (s.thr n t).pc ∧ (u.thr n t).mcause = BitVec.ofNat 32 7 ∧ (u.thr n t).mtval = BitVec.ofNat 32 p
        ∧ (u.thr n t).mpie = (s.thr n t).mie ∧ (u.thr n t).mie = false ∧ (u.thr n t).pc = BitVec.ofNat 32 ((s.lane n).mtvec t)
        ∧ s.onlyThread u n t) ∧ (u.lane n).tmem = (s.lane n).tmem ∧ u.dram = s.dram := by
  refine runs_stySplit hrun hf hw hacc hz ?_
  have e : s.styStore n t (s.thr n t) i b z f.2 = s.trap n t 7 (BitVec.ofNat 32 p) := by
    unfold State.styStore
    rw [hp]
  rw [State.styInsn_store ho hacc, e]
  have ht := State.taken_issued 7 (BitVec.ofNat 32 p) hm hv (u := (s.trap n t 7 (BitVec.ofNat 32 p)).lpmu n 20 1) (.inr rfl)
  refine ⟨ht, ?_, ?_⟩
  · obtain ⟨_, _, _, _, _, _, ho, hl, _⟩ := ht
    rw [hl]
  · obtain ⟨_, _, _, _, _, _, ⟨ho, _⟩, _⟩ := ht
    rw [ho]

theorem runs_dramLoad {b z pa : Nat} (ho : Rv.op i = 0x03) (hacc : (s.thr n t).accOf i = some (b, z)) (hz : b % z = 0)
    (hs : (s.lane n).spot (s.thr n t) b z false = .dram pa) (hb : dramBase ≤ pa) (ht : pa + z ≤ s.dramTop)
    (hg : s.poisoned pa z = false) : Runs (.stylusRv32Instruction n t .none) s fun u =>
      (u.thr n t).run = .waitLoad (Rv.rd i) b z (decide (Rv.f3 i < 4)) (s.dramRead pa z) none
        ∧ (u.thr n t).pc = (s.thr n t).pc ∧ s.onlyThread u n t := by
  refine runs_styRv32 hrun hf hw (by omega) (by omega) ?_
  rw [State.styInsn_load ho hacc, State.styLoad_dram i f.2 (styParts_aligned (accOf_size hacc) hz) hs hb ht hg]
  obtain ⟨h1, h2⟩ := s.sty_issued n t (fun th =>
    { th with run := .waitLoad (Rv.rd i) b z (decide (Rv.f3 i < 4)) (s.dramRead pa z) none })
  rw [h1]
  exact ⟨rfl, rfl, h2⟩

theorem runs_csrRead {v : Nat} (ho : Rv.op i = 0x73) (h2 : Rv.f3 i = 2) (h1 : Rv.rs1 i = 0) (hrd : Rv.rd i ≠ 0)
    (hv : s.styCsr n t (s.thr n t) (bits i 31 20) = some v) : Runs (.stylusRv32Instruction n t .none) s fun u =>
      (u.thr n t).rd (Rv.rd i) = BitVec.ofNat 32 v ∧ (u.thr n t).pc = (s.thr n t).pc + BitVec.ofNat 32 f.2 ∧ s.onlyThread u n t := by
  refine runs_styRv32 hrun hf hw (by omega) (by omega) ?_
  rw [State.styInsn_csr ho (by omega) (by omega), State.styCsrInsn_read h2 h1 hv]
  exact s.retk_issued n t _ f.2 hrd

theorem runs_mscratch (ho : Rv.op i = 0x73) (h1 : Rv.f3 i = 1) (hc : bits i 31 20 = 0x340) (hrd : Rv.rd i ≠ 0) :
    Runs (.stylusRv32Instruction n t .none) s fun u =>
      (u.thr n t).mscratch = (s.thr n t).rd (Rv.rs1 i) ∧ (u.thr n t).rd (Rv.rd i) = (s.thr n t).mscratch
        ∧ (u.thr n t).pc = (s.thr n t).pc + BitVec.ofNat 32 f.2 ∧ s.onlyThread u n t := by
  refine runs_styRv32 hrun hf hw (by omega) (by omega) ?_
  rw [State.styInsn_csr ho (by omega) (by omega), State.styCsrInsn_mscratch h1 hc]
  obtain ⟨g1, g2⟩ := s.sty_issued n t (fun _ =>
    ({ s.thr n t with mscratch := (s.thr n t).rd (Rv.rs1 i) } : Thread).retk (Rv.rd i) (s.thr n t).mscratch.toNat f.2)
  rw [g1, Thread.rd_retk _ _ _ hrd]
  refine ⟨?_, (ofNat_toNat_word _), rfl, g2⟩
  dsimp only [Thread.retk, Thread.wr]
  split <;> rfl

theorem runs_longOperation (h : isLong i = true) (hrd : Rv.rd i ≠ 0) : Runs (.stylusLongOperation n t) s fun u =>
    (u.thr n t).rd (Rv.rd i) = BitVec.ofNat 32 (Rv.mulDiv 32 (Rv.f3 i) ((s.thr n t).rd (Rv.rs1 i)).toNat ((s.thr n t).rd (Rv.rs2 i)).toNat)
      ∧ (u.thr n t).pc = (s.thr n t).pc + BitVec.ofNat 32 f.2
      ∧ SMap.get 0 22 (u.lane n).lpmu = (SMap.get 0 22 (s.lane n).lpmu + 34) % 2 ^ 48 ∧ s.onlyThread u n t := by
  refine runs_sty (execStylusLongOperation.eq_1 n t s) hrun hf hw h ?_
  rw [State.styInsn_long h]
  generalize Rv.mulDiv 32 (Rv.f3 i) ((s.thr n t).rd (Rv.rs1 i)).toNat ((s.thr n t).rd (Rv.rs2 i)).toNat = v
  generalize hs : s.lpmu n 22 34 = w
  have hth : w.thr n t = s.thr n t := by rw [← hs, State.lpmu_thr]
  have hl : SMap.get 0 22 (w.lane n).lpmu = (SMap.get 0 22 (s.lane n).lpmu + 34) % 2 ^ 48 := by
    rw [← hs, State.lane_lpmu_self, SMap.get_set_self]
  obtain ⟨g1, g2, g3⟩ := w.retk_issued n t v f.2 hrd
  rw [hth] at g2
  refine ⟨g1, g2, ?_, (hs ▸ s.onlyThread_lpmu n t 22 34).trans g3⟩
  rw [State.lane_lpmu_self, State.lane_modThr_self, SMap.get_set_ne 0 (by decide)]
  exact hl

end

section
variable {s : State} {n : LaneId} {t : ThreadId} {rd b z : Nat} {sg : Bool} {dat : Bytes}

theorem runs_dramLoadReturn {f : Nat × Nat} (hrun : (s.thr n t).run = .waitLoad rd b z sg dat none)
    (hf : (s.lane n).fetch (s.thr n t) = some f) (hrd : rd ≠ 0) : Runs (.stylusDramLoadReturn n t false) s fun u =>
      (u.thr n t).run = .run ∧ (u.thr n t).rd rd = BitVec.ofNat 32 (styValue dat sg)
        ∧ (u.thr n t).pc = (s.thr n t).pc + BitVec.ofNat 32 f.2 ∧ s.onlyThread u n t := by
  refine ⟨s.modThr n t (fun th => th.retk rd (styValue dat sg) f.2), ?_, ?_⟩
  · refine (execStylusDramLoadReturn.eq_1 n t false s).trans ?_
    dsimp only
    rw [hrun, hf]
    rfl
  · dsimp only
    rw [State.thr_modThr_self]
    exact ⟨rfl, Thread.rd_retk _ _ _ hrd, rfl, s.onlyThread_modThr n t _⟩

theorem runs_dramLoadReturn_error {p : Nat} (hrun : (s.thr n t).run = .waitLoad rd b z sg dat none)
    (hp : s.dramPart n (s.thr n t) b z (fun _ _ => true) = some p) (hm : (s.thr n t).mie = true ∨ (s.thr n t).mcause = 0)
    (hv : (s.lane n).mtvec t ≠ 0) : Runs (.stylusDramLoadReturn n t true) s fun u =>
      (u.thr n t).mepc = (s.thr n t).pc ∧ (u.thr n t).mcause = BitVec.ofNat 32 5 ∧ (u.thr n t).mtval = BitVec.ofNat 32 p
        ∧ (u.thr n t).mpie = (s.thr n t).mie ∧ (u.thr n t).mie = false ∧ (u.thr n t).pc = BitVec.ofNat 32 ((s.lane n).mtvec t)
        ∧ s.onlyThread u n t := by
  refine ⟨s.trap n t 5 (BitVec.ofNat 32 p), ?_, State.taken_issued 5 (BitVec.ofNat 32 p) hm hv (.inl rfl)⟩
  refine (execStylusDramLoadReturn.eq_1 n t true s).trans ?_
  dsimp only
  rw [hrun]
  dsimp only
  rw [if_pos rfl, hp]

end

/-- Settles O29: what an instruction does is said by its opcode; loads and stores go part by part. -/
theorem stylusInstructionsComplete : Obligations.StylusInstructionsComplete := by
  intro n t f i s th l next a taken
  refine ⟨fun hrun hf hw => ⟨runs_addi hrun hf hw, runs_jal hrun hf hw, ?_, ?_, ?_, ?_, ?_, ?_, ?_, ?_, ?_⟩, ?_⟩
  · intro b z ho hacc hb hb' hrd done
    have hd := tileLoad_issued (f := f) ho hacc hb hb' hrd
    exact ⟨fun _ => runs_styRv32 hrun hf hw (by omega) (by omega) hd, fun hz => runs_stySplit hrun hf hw hacc hz hd⟩
  · intro b z ho hacc hp done
    have hd : done ((s.styInsn n t (s.thr n t) i f.2).lpmu n 20 1) := by
      rw [State.styInsn_store ho hacc]
      exact State.styStore_tile hp
    exact ⟨fun _ => runs_styRv32 hrun hf hw (by omega) (by omega) hd, fun hz => runs_stySplit hrun hf hw hacc hz hd⟩
  · intro b z p ho hacc hz hp hm hv
    exact runs_splitFault hrun hf hw ho hacc hz hp hm hv
  · intro b z pa ho hacc hz hs hb ht hg
    exact runs_dramLoad hrun hf hw ho hacc hz hs hb ht hg
  · intro v ho h2 h1 hrd hv
    exact runs_csrRead hrun hf hw ho h2 h1 hrd hv
  · exact runs_mscratch hrun hf hw
  · rintro rfl
    refine runs_styRv32 hrun hf hw (by decide) (by decide) ?_
    rw [State.styInsn_mret]
    obtain ⟨h1, h2⟩ := s.sty_issued n t (fun x => { (x.jump 0 0 x.mepc.toNat) with mie := x.mpie, mpie := true })
    rw [h1]
    exact ⟨(ofNat_toNat_word _), rfl, rfl, rfl, h2⟩
  · rintro rfl hm hv
    refine runs_styRv32 hrun hf hw (by decide) (by decide) ?_
    rw [State.styInsn_ecall]
    exact State.taken_issued 11 0 hm hv (.inr rfl)
  · exact runs_longOperation hrun hf hw
  · intro rd b z sg dat hrun hf hrd
    exact ⟨runs_dramLoadReturn hrun hf hrd, fun p hp hm hv => runs_dramLoadReturn_error hrun hp hm hv⟩

end Sys2Proof.Machine
end

section
/-!
What work on tiles and claims keeps of a lane; a completing tag; what an integrity failure leaves alone.
-/

namespace Sys2Proof.Machine
open Sys2Proof

/-! ### What a lane's work on tiles and claims keeps of it -/

/-- Every message of `l` stands in `u` with its hallmark and its trace, and with no canonical record where it had none. -/
def Lane.MsgsKept (l u : Lane) : Prop :=
  ∀ h m, l.msg h = some m → ∃ m', u.msg h = some m' ∧ m'.hm = m.hm ∧ m'.trace = m.trace ∧ (m.canonTile = endTile → m'.canonTile = endTile)

/-- What work on tiles and claims keeps of a lane: its state, its engines, its tags and threads, and of each message its hallmark
and trace. -/
structure Lane.Keeps (l u : Lane) : Prop where
  st : u.st = l.st
  stn : u.stn = l.stn
  eng : u.eng = l.eng
  tags : u.tags = l.tags
  threads : u.threads = l.threads
  msgs : Lane.MsgsKept l u

/-- Such work that also writes no tile memory: claims, frees, sideband words. -/
structure Lane.Frees (l u : Lane) : Prop where
  keeps : Lane.Keeps l u
  tmem : u.tmem = l.tmem

section
variable {l u v : Lane}

theorem Lane.MsgsKept.of_eq (h : u.msgs = l.msgs) : Lane.MsgsKept l u := by
  intro k m hm
  exact ⟨m, by rw [Lane.msg, h]; exact hm, rfl, rfl, id⟩

theorem Lane.MsgsKept.trans (h : Lane.MsgsKept l u) (k : Lane.MsgsKept u v) : Lane.MsgsKept l v := by
  intro i m hm
  obtain ⟨m1, e1, a1, b1, c1⟩ := h i m hm
  obtain ⟨m2, e2, a2, b2, c2⟩ := k i m1 e1
  exact ⟨m2, e2, a2.trans a1, b2.trans b1, fun x => c2 (c1 x)⟩

theorem Lane.Keeps.refl (l : Lane) : Lane.Keeps l l := ⟨rfl, rfl, rfl, rfl, rfl, .of_eq rfl⟩
theorem Lane.Keeps.trans (h : Lane.Keeps l u) (k : Lane.Keeps u v) : Lane.Keeps l v :=
  ⟨k.st.trans h.st, k.stn.trans h.stn, k.eng.trans h.eng, k.tags.trans h.tags, k.threads.trans h.threads, h.msgs.trans k.msgs⟩
theorem Lane.Frees.refl (l : Lane) : Lane.Frees l l := ⟨.refl l, rfl⟩
theorem Lane.Frees.trans (h : Lane.Frees l u) (k : Lane.Frees u v) : Lane.Frees l v :=
  ⟨h.keeps.trans k.keeps, k.tmem.trans h.tmem⟩

theorem Lane.Keeps.foldl {α : Type} {f : Lane → α → Lane} (hf : ∀ l x, Lane.Keeps l (f l x)) (xs : List α) (l : Lane) :
    Lane.Keeps l (xs.foldl f l) := by
  induction xs generalizing l with
  | nil => exact .refl l
  | cons x xs ih => exact (hf l x).trans (ih _)

theorem Lane.Frees.foldl {α : Type} {f : Lane → α → Lane} (hf : ∀ l x, Lane.Frees l (f l x)) (xs : List α) (l : Lane) :
    Lane.Frees l (xs.foldl f l) := by
  induction xs generalizing l with
  | nil => exact .refl l
  | cons x xs ih => exact (hf l x).trans (ih _)

end

/-! #### One lemma per operation -/

section
variable (l : Lane)

theorem Lane.frees_setSide (i w : Nat) : Lane.Frees l (l.setSide i w) := ⟨⟨rfl, rfl, rfl, rfl, rfl, .of_eq rfl⟩, rfl⟩
theorem Lane.frees_seal (i f : Nat) : Lane.Frees l (l.seal i f) := Lane.frees_setSide _ _ _
theorem Lane.keeps_writeMem (a : Nat) (b : Bytes) : Lane.Keeps l (l.writeMem a b) := ⟨rfl, rfl, rfl, rfl, rfl, .of_eq rfl⟩

/-- A map over a lane's message records, key by key. -/
theorem Lane.msg_map (f : Msg → Msg) (h : Nat) : ({ l with msgs := l.msgs.map (fun p => (p.1, f p.2)) } : Lane).msg h = (l.msg h).map f := by
  show SMap.find h (l.msgs.map (fun p => (p.1, f p.2))) = (SMap.find h l.msgs).map f
  induction l.msgs with
  | nil => rfl
  | cons p m ih =>
    rw [List.map_cons, SMap.find, SMap.find]
    split
    · rfl
    · exact ih

theorem Lane.frees_mapMsgs {f : Msg → Msg} (hh : ∀ m, (f m).hm = m.hm) (ht : ∀ m, (f m).trace = m.trace)
    (hc : ∀ m, m.canonTile = endTile → (f m).canonTile = endTile) :
    Lane.Frees l { l with msgs := l.msgs.map (fun p => (p.1, f p.2)) } := by
  refine ⟨⟨rfl, rfl, rfl, rfl, rfl, ?_⟩, rfl⟩
  intro h m hm
  exact ⟨f m, by rw [Lane.msg_map, hm]; rfl, hh m, ht m, hc m⟩

/-- The claims of engine `e` are released. -/
def Lane.unclaim (e : Nat) : Lane :=
  { l with msgs := l.msgs.map (fun (p : Nat × Msg) => if p.2.claim = some e then (p.1, { p.2 with claim := none }) else p) }

/-- A message whose claim engine `e` lets go. -/
def Msg.unclaim (e : Nat) (m : Msg) : Msg := if m.claim = some e then { m with claim := none } else m
/-- A message whose canonical record is lost if it lies in the tiles `ts`. -/
def Msg.dropCanon (ts : List Nat) (m : Msg) : Msg := if ts.contains m.canonTile then { m with canonTile := endTile } else m

theorem Lane.frees_unclaim (e : Nat) : Lane.Frees l (l.unclaim e) := by
  have hf : (fun (p : Nat × Msg) => if p.2.claim = some e then (p.1, { p.2 with claim := none }) else p)
      = fun p => (p.1, Msg.unclaim e p.2) := by
    funext p; unfold Msg.unclaim; split <;> rfl
  unfold Lane.unclaim
  rw [hf]
  refine l.frees_mapMsgs ?_ ?_ ?_
  · intro m; unfold Msg.unclaim; split <;> rfl
  · intro m; unfold Msg.unclaim; split <;> rfl
  · intro m h; unfold Msg.unclaim; split
    · exact h
    · exact h

theorem Lane.frees_dropCanon (ts : List Nat) : Lane.Frees l (l.dropCanon ts) := by
  have hf : (fun (p : Nat × Msg) => if ts.contains p.2.canonTile then (p.1, { p.2 with canonTile := endTile }) else p)
      = fun p => (p.1, Msg.dropCanon ts p.2) := by
    funext p; unfold Msg.dropCanon; split <;> rfl
  unfold Lane.dropCanon
  rw [hf]
  refine l.frees_mapMsgs ?_ ?_ ?_
  · intro m; unfold Msg.dropCanon; split <;> rfl
  · intro m; unfold Msg.dropCanon; split <;> rfl
  · intro m h; unfold Msg.dropCanon; split
    · rfl
    · exact h

theorem Lane.frees_freeNow (i : Nat) : Lane.Frees l (l.freeNow i) := by
  have hcut : Lane.Frees l (l.side.foldl (fun (a : Lane) p =>
      if sideAlloc p.2.toNat && sideNext p.2.toNat = i then a.setSide p.1 (setBits p.2.toNat 55 41 endTile) else a) l) := by
    refine .foldl (fun a p => ?_) _ _
    split
    · exact a.frees_setSide _ _
    · exact .refl a
  refine (hcut.trans (Lane.frees_dropCanon _ _)).trans (.foldl (fun a j => ?_) _ _)
  exact a.frees_setSide _ _

theorem Lane.frees_free (i : Nat) : Lane.Frees l (l.free i) := by
  unfold Lane.free
  split
  · exact .refl l
  · split
    · exact ⟨⟨rfl, rfl, rfl, rfl, rfl, .of_eq rfl⟩, rfl⟩
    · exact l.frees_freeNow i

theorem Lane.frees_flushFrees : Lane.Frees l l.flushFrees := by
  have h : Lane.Frees l { l with lateFree := [] } := ⟨⟨rfl, rfl, rfl, rfl, rfl, .of_eq rfl⟩, rfl⟩
  exact h.trans (.foldl (fun a i => a.frees_free i) _ _)

theorem Lane.frees_pruneStencils : Lane.Frees l l.pruneStencils := ⟨⟨rfl, rfl, rfl, rfl, rfl, .of_eq rfl⟩, rfl⟩

/-- The Stencil engine let go: its run is gone, and only its claims, deferred frees and old stencils with it. -/
theorem Lane.frees_stnFree : Lane.Frees { l with stn := { l.stn with run := none } } l.stnFree :=
  ((Lane.frees_unclaim _ 4).trans (Lane.frees_flushFrees _)).trans (Lane.frees_pruneStencils _)

theorem Lane.keeps_putTile (i : Nat) (b : Bytes) : Lane.Keeps l (l.putTile i b) :=
  (l.keeps_writeMem _ _).trans (Lane.frees_seal _ _ _).keeps

theorem Lane.keeps_putChain (ts : List Nat) (b : Bytes) : Lane.Keeps l (putChain l ts b).1 := by
  induction ts generalizing l b with
  | nil =>
    cases b with
    | nil => exact .refl l
    | cons x b => exact .refl l
  | cons i ts ih =>
    cases b with
    | nil => exact .refl l
    | cons x b =>
      rw [putChain]
      · exact (l.keeps_putTile i _).trans (ih _ _)
      · exact List.cons_ne_nil x b

theorem Lane.keeps_rewriteHm (m : Msg) : Lane.Keeps l (l.rewriteHm m) := by
  unfold Lane.rewriteHm
  dsimp only
  split
  · exact (l.keeps_writeMem _ _).trans (Lane.frees_seal _ _ _).keeps
  · exact .refl l

theorem Lane.keeps_burWrite (d out : Bytes) : Lane.Keeps l (l.burWrite d out).1 := by
  unfold Lane.burWrite
  split
  · exact .refl l
  split
  · exact l.keeps_writeMem _ _
  dsimp only
  generalize ((l.chain (bIn d)).getD []).getLast?.getD 0 = last
  generalize sideFill (l.sideW last) = f
  have h1 : Lane.Keeps l ((l.writeMem (last * 256 + f) (out.take (256 - f))).seal last (f + (out.take (256 - f)).length)) :=
    (l.keeps_writeMem _ _).trans (Lane.frees_seal _ _ _).keeps
  generalize (l.writeMem (last * 256 + f) (out.take (256 - f))).seal last (f + (out.take (256 - f)).length) = l1 at h1 ⊢
  split
  · exact h1
  have h2 := h1.trans (l1.keeps_putChain (((l1.chain (bOut d)).getD []).take (cdiv (out.drop (256 - f)).length 256)) (out.drop (256 - f)))
  have h3 {u : Lane} {i w : Nat} (h : Lane.Keeps l u) : Lane.Keeps l (u.setSide i w) := h.trans (u.frees_setSide i w).keeps
  split
  · exact h3 (h3 (h3 h2))
  · exact h3 (h3 (h3 (h3 h2)))

theorem Lane.keeps_stnWrite (chain : List Nat) (out : Bytes) (a b : Nat) : Lane.Keeps l (l.stnWrite chain out a b) := by
  refine .foldl (fun u p => ?_) _ _
  dsimp only
  split
  · exact (u.keeps_writeMem _ _).trans (Lane.frees_seal _ _ _).keeps
  · exact .refl u

theorem Lane.frees_stnCut (chain : List Nat) (w : Nat) : Lane.Frees l (l.stnCut chain w).1 := by
  unfold Lane.stnCut
  split
  · exact .refl l
  · split
    · exact .refl l
    · exact (l.frees_setSide _ _).trans (Lane.frees_setSide _ _ _)

theorem Lane.frees_joinChains (a b : List Nat) : Lane.Frees l (l.joinChains a b) := by
  unfold Lane.joinChains
  split
  · exact (l.frees_setSide _ _).trans (Lane.frees_setSide _ _ _)
  · exact .refl l

/-- What a run writes depends on tile memory alone. -/
theorem Lane.tmem_stnWrite_congr {l u : Lane} (h : u.tmem = l.tmem) (chain : List Nat) (out : Bytes) (a b : Nat) :
    (u.stnWrite chain out a b).tmem = (l.stnWrite chain out a b).tmem := by
  unfold Lane.stnWrite
  generalize chain.zip (List.range chain.length) = ps
  induction ps generalizing l u with
  | nil => exact h
  | cons p ps ih =>
    rw [List.foldl_cons, List.foldl_cons]
    apply ih
    dsimp only
    split
    · show memWrite u.tmem _ _ = memWrite l.tmem _ _
      rw [h]
    · exact h

end

/-! ### A tag completes -/

/-- A completing tag changes of its lane only the tags and the threads. -/
theorem State.lane_tagDone (s : State) (n id : Nat) (code : Code) (dg : Option (Nat × D64)) :
    (s.tagDone n id code dg).lane n = { s.lane n with tags := ((s.tagDone n id code dg).lane n).tags
                                                      retired := ((s.tagDone n id code dg).lane n).retired
                                                      threads := ((s.tagDone n id code dg).lane n).threads } := by
  unfold State.tagDone
  split
  · rfl
  · dsimp only
    split
    · split
      · rw [State.lane_modThr_self, State.lane_modLane_self]; rfl
      · rw [State.lane_modThr_self, State.lane_modLane_self]; rfl
    · rw [State.lane_modThr_self, State.lane_modLane_self]; rfl

section
variable (s : State) (n id : Nat) (code : Code) (dg : Option (Nat × D64))
theorem State.tmem_tagDone : ((s.tagDone n id code dg).lane n).tmem = (s.lane n).tmem := by rw [State.lane_tagDone]
theorem State.stn_tagDone : ((s.tagDone n id code dg).lane n).stn = (s.lane n).stn := by rw [State.lane_tagDone]
theorem State.eng_tagDone : ((s.tagDone n id code dg).lane n).eng = (s.lane n).eng := by rw [State.lane_tagDone]
theorem State.msg_tagDone (h : Nat) : ((s.tagDone n id code dg).lane n).msg h = (s.lane n).msg h := by
  rw [State.lane_tagDone, Lane.msg, Lane.msg]
end

/-- The thread that waits for a completing tag goes on with its code. -/
theorem State.thr_tagDone {s : State} {n id rd : Nat} {tg : Tag} (code : Code) (dg : Option (Nat × D64))
    (h : (s.lane n).tags.find? (fun g => g.id = id) = some tg) (hw : (s.thr n tg.thr).run = .waitTag rd id) (hrd : rd ≠ 0) :
    ((s.tagDone n id code dg).thr n tg.thr).run = .run ∧ ((s.tagDone n id code dg).thr n tg.thr).rd rd = code.setWidth 32 := by
  rw [State.tagDone_waiting code dg h hw, State.thr_modThr_self]
  refine ⟨Thread.ret_run _ _ _, ?_⟩
  rw [Thread.rd_ret, Thread.rd_wr_self _ _ _ hrd]

/-! ### What an integrity failure and a draw leave of a lane -/

theorem State.lanes_hmFail (s : State) (n h unit : Nat) (code : Code) (tile : Nat) : (s.hmFail n h unit code tile).lanes = s.lanes := by
  unfold State.hmFail
  simp [apply_ite State.lanes]

/-- The epoch keys depend on the Strongroom and the beat alone. -/
theorem State.hmKey_congr {s t : State} (hs : t.str = s.str) (hb : t.btm = s.btm) (m : Hallmark) : t.hmKey m = s.hmKey m := by
  unfold State.hmKey State.epochKey State.root State.fullBeat State.slot State.epoch
  rw [hs, hb]

theorem State.verifyChains_congr {s t : State} (hs : t.str = s.str) (hb : t.btm = s.btm) (l : Lane) (m : Msg) (ins : List Nat) :
    t.verifyChains l m ins = s.verifyChains l m ins := by
  unfold State.verifyChains
  rw [State.hmKey_congr hs hb]
  rfl

end Sys2Proof.Machine
end

section
/-!
The end of a Burin operation: its completion record, its engine, its tag.
-/

namespace Sys2Proof.Machine
open Sys2Proof

/-! ### The end of a Burin operation -/

/-- Two bytes at the front of a written record are read back. -/
theorem memRead_memWrite_prefix (m : SMap Byte) (a : Nat) (b c : Bytes) : memRead (memWrite m a (b ++ c)) a b.length = b := by
  rw [memWrite_append, memRead_memWrite_disjoint _ (by omega), memRead_memWrite_self]

/-- What a lane's operations and records keep of its engines, tags and threads. -/
structure Lane.SameRun (l u : Lane) : Prop where
  eng : u.eng = l.eng
  tags : u.tags = l.tags
  threads : u.threads = l.threads

section
variable {l u v : Lane}
theorem Lane.SameRun.refl (l : Lane) : Lane.SameRun l l := ⟨rfl, rfl, rfl⟩
theorem Lane.SameRun.trans (h : Lane.SameRun l u) (k : Lane.SameRun u v) : Lane.SameRun l v :=
  ⟨k.eng.trans h.eng, k.tags.trans h.tags, k.threads.trans h.threads⟩
theorem Lane.Keeps.sameRun (h : Lane.Keeps l u) : Lane.SameRun l u := ⟨h.eng, h.tags, h.threads⟩
theorem Lane.sameRun_setMsg (l : Lane) (h : Nat) (m : Msg) : Lane.SameRun l (l.setMsg h m) := ⟨rfl, rfl, rfl⟩
end

section
variable (s : State) (n e : Nat)

theorem State.keeps_lpmu (i k : Nat) : Lane.Frees (s.lane n) ((s.lpmu n i k).lane n) := by
  unfold State.lpmu
  rw [State.lane_modLane_self]
  exact ⟨⟨rfl, rfl, rfl, rfl, rfl, .of_eq rfl⟩, rfl⟩

/-- The engine let go: its run is gone, its queue stands, and only claims and deferred frees go with it. -/
theorem State.frees_burClear : Lane.Frees ((s.lane n).setBurEng e { (s.lane n).burEng e with run := none }) ((s.burClear n e).lane n) := by
  unfold State.burClear
  dsimp only
  rw [State.lane_modLane_self, State.lane_modLane_self]
  exact (Lane.frees_unclaim _ e).trans (Lane.frees_flushFrees _)

theorem State.burClear_shape : s.burClear n e = { s with lanes := (s.burClear n e).lanes } := rfl

end

/-- How an operation's end leaves the lane, from the state `s` in which it ran: the engine is free with its queue, the record
begins with the code, a thread that waits for the tag goes on with it. -/
structure State.BurEnded (s u : State) (n e tag compl : Nat) (code : Code) : Prop where
  free : (u.lane n).burEng e = { (s.lane n).burEng e with run := none }
  record : inTileMem compl 32 = true → memRead (u.lane n).tmem (compl - 0x10000000) 2 = Bytes.ofNatLE 2 code.toNat
  wakes : ∀ tg, (s.lane n).tags.find? (fun g => g.id = tag) = some tg → ∀ rd, (s.thr n tg.thr).run = .waitTag rd tag → rd ≠ 0 →
    (u.thr n tg.thr).run = .run ∧ (u.thr n tg.thr).rd rd = code.setWidth 32

section
variable {s t : State} {n e tag : Nat} {r : BurRun}

theorem burRecord_front (code : Code) (count unused keyOut step e reason start cycles : Nat) :
    ∃ b, burRecord code count unused keyOut step e reason start cycles = Bytes.ofNatLE 2 code.toNat ++ b := by
  unfold burRecord
  simp only [List.append_assoc]
  exact ⟨_, rfl⟩

/-- A lane with a completion record written at address `a`, where the record lies in tile memory. -/
def Lane.recorded (l : Lane) (a : Nat) (b : Bytes) : Lane := if inTileMem a 32 then l.writeMem (a - 0x10000000) b else l

theorem Lane.keeps_recorded (l : Lane) (a : Nat) (b : Bytes) : Lane.Keeps l (l.recorded a b) := by
  unfold Lane.recorded
  split
  · exact l.keeps_writeMem _ _
  · exact .refl l

/-- The lane before its tag completes: the record is written and the engine is free. -/
theorem State.burEnd_lane (code : Code) (count unused keyOut step cycles : Nat) :
    ∃ (w : State) (b : Bytes), t.burEnd n e r tag code count unused keyOut step cycles = w.tagDone n tag code none
      ∧ Lane.Frees (((t.lane n).recorded (bCompl r.op.desc) (Bytes.ofNatLE 2 code.toNat ++ b)).setBurEng e
          { (t.lane n).burEng e with run := none }) (w.lane n) := by
  obtain ⟨b, hb⟩ := burRecord_front code count unused keyOut step e r.reason ((r.startClk - (t.lane n).clk0) % 2 ^ 32) cycles
  have hs : t.burEnd n e r tag code count unused keyOut step cycles = ((t.modLane n (fun l => l.recorded (bCompl r.op.desc)
      (burRecord code count unused keyOut step e r.reason ((r.startClk - (t.lane n).clk0) % 2 ^ 32) cycles))).burClear n e).tagDone
      n tag code none := rfl
  refine ⟨_, b, hs, ?_⟩
  rw [hb]
  have h := State.frees_burClear (t.modLane n (fun l => l.recorded (bCompl r.op.desc) (Bytes.ofNatLE 2 code.toNat ++ b))) n e
  rw [State.lane_modLane_self] at h
  have hg : ((t.lane n).recorded (bCompl r.op.desc) (Bytes.ofNatLE 2 code.toNat ++ b)).burEng e = (t.lane n).burEng e := by
    rw [Lane.burEng, (Lane.keeps_recorded _ _ _).eng, Lane.burEng]
  rw [hg] at h
  exact h

theorem State.burEnd_ended (h : Lane.SameRun (s.lane n) (t.lane n)) (code : Code) (count unused keyOut step cycles : Nat) :
    s.BurEnded (t.burEnd n e r tag code count unused keyOut step cycles) n e tag (bCompl r.op.desc) code := by
  obtain ⟨w, b, hw, hl⟩ := State.burEnd_lane (t := t) (n := n) (e := e) (tag := tag) (r := r) code count unused keyOut step cycles
  rw [hw]
  have hk := Lane.keeps_recorded (t.lane n) (bCompl r.op.desc) (Bytes.ofNatLE 2 code.toNat ++ b)
  have heng : (w.lane n).eng = SMap.set {} e { (s.lane n).burEng e with run := none } (s.lane n).eng := by
    rw [hl.keeps.eng, Lane.setBurEng, hk.eng, Lane.burEng, Lane.burEng, h.eng]
  have hg : ((w.tagDone n tag code none).lane n).burEng e = { (s.lane n).burEng e with run := none } := by
    rw [Lane.burEng, State.eng_tagDone, heng]
    exact SMap.get_set_self _ _ _ _
  refine ⟨hg, ?_, ?_⟩
  · intro hi
    rw [State.tmem_tagDone, hl.tmem, Lane.setBurEng, Lane.recorded, if_pos hi]
    exact memRead_memWrite_prefix _ _ (Bytes.ofNatLE 2 code.toNat) b
  · intro tg htg rd hrun hrd
    have htags : (w.lane n).tags = (s.lane n).tags := by
      rw [hl.keeps.tags, Lane.setBurEng, hk.tags, h.tags]
    have hthr : (w.lane n).threads = (s.lane n).threads := by
      rw [hl.keeps.threads, Lane.setBurEng, hk.threads, h.threads]
    refine State.thr_tagDone code none (by rw [htags]; exact htg) ?_ hrd
    rw [← hrun]
    exact congrArg Thread.run (Lane.thr_of_threads hthr _)

/-- A message that stands before the record is written stands, with its hallmark and trace, when the operation has ended. -/
theorem State.burEnd_msg (code : Code) (count unused keyOut step cycles : Nat) {h : Nat} {m : Msg} (hm : (t.lane n).msg h = some m) :
    ∃ m', ((t.burEnd n e r tag code count unused keyOut step cycles).lane n).msg h = some m' ∧ m'.hm = m.hm ∧ m'.trace = m.trace := by
  obtain ⟨w, b, hw, hl⟩ := State.burEnd_lane (t := t) (n := n) (e := e) (tag := tag) (r := r) code count unused keyOut step cycles
  obtain ⟨m1, e1, a1, b1, -⟩ := (Lane.keeps_recorded (t.lane n) (bCompl r.op.desc) (Bytes.ofNatLE 2 code.toNat ++ b)).msgs h m hm
  obtain ⟨m2, e2, a2, b2, -⟩ := hl.keeps.msgs h m1 e1
  exact ⟨m2, by rw [hw, State.msg_tagDone]; exact e2, a2.trans a1, b2.trans b1⟩

end

end Sys2Proof.Machine
end

section
/-!
A thread's Burin operation at its full time: its outcome, its output and its link.
-/

namespace Sys2Proof.Machine
open Sys2Proof

section
variable (s : State) (n : Nat)

theorem State.sameRun_extend (h eng : Nat) (d : D64) (tile : Nat) (isHm : Bool) :
    Lane.SameRun (s.lane n) ((s.extend n h eng d tile isHm).1.lane n) := by
  unfold State.extend
  split
  · exact .refl _
  split
  · exact .refl _
  split
  · exact .refl _
  dsimp only
  refine Lane.SameRun.trans ?_ (State.keeps_lpmu _ _ _ _).keeps.sameRun
  rw [State.lane_modLane_self]
  exact (Lane.sameRun_setMsg _ _ _).trans (Lane.keeps_rewriteHm _ _).sameRun

theorem State.sameRun_burLink (e : Nat) (r : BurRun) (a : BurAns) (inp : Bytes) :
    Lane.SameRun (s.lane n) ((s.burLink n e r a inp).1.lane n) := by
  unfold State.burLink
  dsimp only
  split
  · exact .refl _
  split
  · exact .refl _
  split
  · exact .refl _
  split
  · exact s.sameRun_extend _ _ _ _ _ _
  split
  · exact s.sameRun_extend _ _ _ _ _ _
  · exact s.sameRun_extend _ _ _ _ _ _

theorem State.keeps_installTrans (r : BurRun) (mat : Bytes) : Lane.Keeps (s.lane n) ((s.installTrans n r mat).1.lane n) := by
  unfold State.installTrans
  dsimp only
  rw [State.lane_modLane_self]
  exact ⟨rfl, rfl, rfl, rfl, rfl, .of_eq rfl⟩

/-- The counts of a thread's operation that ends: a draw, and the cycles of its code. -/
def State.burCounted (s : State) (n : Nat) (r : BurRun) : State := s.drew.lpmu n 17 ((opCycles r.op.opc).getD 64)

theorem State.frees_burCounted (r : BurRun) : Lane.Frees (s.lane n) ((s.burCounted n r).lane n) := s.drew.keeps_lpmu n _ _

end

section
variable {s : State} {n e tag : Nat} {r : BurRun} {ok self : Bool} {a : BurAns} {tile : Option Nat}

/-- The code of an operation at its full time: its own, or why its message's chain cannot take the link. -/
def State.burCode (s : State) (n : Nat) (r : BurRun) (a : BurAns) : Code :=
  if a.code = 0 && !s.canLink n r then s.linkCode n (bHandle r.op.desc) else a.code

theorem State.burCode_own (h : a.code ≠ 0) : s.burCode n r a = a.code :=
  if_neg fun c => h (of_decide_eq_true (Bool.and_eq_true_iff.mp c).1)

theorem State.burCode_linked (hl : s.canLink n r = true) : s.burCode n r a = a.code := if_neg (by simp [hl])

/-- An operation whose full-time outcome is a failure ends with its code, and nothing is written but the record. -/
theorem State.burFinish_failed (he : s.burEval n r ok self = (a, tile)) (ha : s.burCode n r a ≠ 0) :
    ∃ t : State, Lane.SameRun (s.lane n) (t.lane n) ∧ s.burFinish n e tag r ok self
      = t.burEnd n e r tag (s.burCode n r a) a.count (bUnused r.op.desc) 0 0xFFFF ((opCycles r.op.opc).getD 64) := by
  unfold State.burFinish
  rw [he]
  dsimp only
  rw [← State.burCode, if_pos ha]
  generalize s.burCode n r a = code
  refine ⟨_, ?_, rfl⟩
  have h1 := (s.frees_burCounted n r).keeps.sameRun
  rw [State.burCounted] at h1
  generalize s.drew.lpmu n 17 ((opCycles r.op.opc).getD 64) = t1 at h1 ⊢
  have h2 : ((if 0x1201 ≤ code.toNat ∧ code.toNat ≤ 0x1204 then t1.hmFail n (bHandle r.op.desc) 1 code (tile.getD endTile) else t1)
      : State).lanes = t1.lanes := by
    split
    · exact t1.lanes_hmFail _ _ _ _ _
    · rfl
  generalize (if 0x1201 ≤ code.toNat ∧ code.toNat ≤ 0x1204 then t1.hmFail n (bHandle r.op.desc) 1 code (tile.getD endTile) else t1)
    = t2 at h2 ⊢
  have h3 : ((if code = 0x1111 then t2.gMsg 5 n (bHandle r.op.desc) 0x1111 r.op.opc else t2) : State).lanes = t1.lanes := by
    rw [← h2]
    split
    · simp
    · rfl
  rw [State.lane_congr h3]
  exact h1

/-- The state in which a valid operation's output is written: a transient key has taken its bin. -/
def State.burKeyed (s : State) (n : Nat) (r : BurRun) (a : BurAns) : State :=
  if isDukpt r.op.opc then ((s.burCounted n r).installTrans n r a.out).1 else s.burCounted n r

theorem State.keeps_burKeyed (s : State) (n : Nat) (r : BurRun) (a : BurAns) : Lane.Keeps (s.lane n) ((s.burKeyed n r a).lane n) := by
  unfold State.burKeyed
  split
  · exact (s.frees_burCounted n r).keeps.trans (State.keeps_installTrans _ _ _ _)
  · exact (s.frees_burCounted n r).keeps

/-- The state in which a valid operation's link is added: its output is written. -/
def State.burWritten (s : State) (n : Nat) (r : BurRun) (a : BurAns) : State :=
  (s.burKeyed n r a).setLane n (((s.burKeyed n r a).lane n).burWrite r.op.desc (if isDukpt r.op.opc then [] else a.out)).1

theorem State.keeps_burWritten (s : State) (n : Nat) (r : BurRun) (a : BurAns) : Lane.Keeps (s.lane n) ((s.burWritten n r a).lane n) := by
  rw [State.burWritten, State.lane_setLane_self]
  exact (s.keeps_burKeyed n r a).trans (Lane.keeps_burWrite _ _ _)

/-- A valid operation that can extend its chain ends with its key's warning, after its output and its link. -/
theorem State.burFinish_valid (he : s.burEval n r ok self = (a, tile)) (ha : s.burCode n r a = 0) :
    ∃ count unused keyOut step, s.burFinish n e tag r ok self
      = ((s.burWritten n r a).burLink n e r a ((s.lane n).bInput r.op.desc)).1.burEnd n e r tag (r.warn.getD 0) count unused keyOut step
          ((opCycles r.op.opc).getD 64) := by
  unfold State.burFinish
  rw [he]
  dsimp only
  rw [← State.burCode, ha, if_neg (by decide : ¬ (0x1201 ≤ (0 : Code).toNat ∧ (0 : Code).toNat ≤ 0x1204)), if_neg (by decide : ¬ (0 : Code) = 0x1111),
    if_neg (by decide : ¬ (0 : Code) ≠ 0), ← State.burCounted]
  obtain ⟨p, hp⟩ : ∃ p, p = (if isDukpt r.op.opc then (s.burCounted n r).installTrans n r a.out else (s.burCounted n r, 0)) := ⟨_, rfl⟩
  have hk : p.1 = s.burKeyed n r a := by
    rw [hp, State.burKeyed]
    split <;> rfl
  rw [← hp]
  obtain ⟨t, keyOut⟩ := p
  dsimp only at hk ⊢
  rw [hk, State.burWritten]
  generalize ((s.burKeyed n r a).lane n).burWrite r.op.desc (if isDukpt r.op.opc then [] else a.out) = q
  obtain ⟨l, unused⟩ := q
  dsimp only
  generalize ((s.burKeyed n r a).setLane n l).burLink n e r a ((s.lane n).bInput r.op.desc) = q
  obtain ⟨w, step⟩ := q
  exact ⟨_, _, _, _, rfl⟩

/-- However a thread's operation ends at its full time, its engine is free and its tag has completed with its code, or with the
key's warning. -/
theorem State.burFinish_ended (he : s.burEval n r ok self = (a, tile)) : s.BurEnded (s.burFinish n e tag r ok self) n e tag
    (bCompl r.op.desc) (if s.burCode n r a = 0 then r.warn.getD 0 else s.burCode n r a) := by
  by_cases hc : s.burCode n r a = 0
  · obtain ⟨count, unused, keyOut, step, h⟩ := State.burFinish_valid (e := e) (tag := tag) he hc
    rw [if_pos hc, h]
    exact State.burEnd_ended ((s.keeps_burWritten n r a).sameRun.trans (State.sameRun_burLink _ _ _ _ _ _)) _ _ _ _ _ _
  · obtain ⟨t, ht, h⟩ := State.burFinish_failed (e := e) (tag := tag) he hc
    rw [if_neg hc, h]
    exact State.burEnd_ended ht _ _ _ _ _ _

end

end Sys2Proof.Machine
end

section
/-!
BUR_OPERATION_COMPLETE: the statement of O28.
-/

namespace Sys2Proof.Machine
open Sys2Proof

section
variable {s : State} {n : LaneId} {e : EngId} {ok self : Bool} {r : BurRun}

theorem State.burComplete_early (hr : ((s.lane n).burEng e).run = some r) (h : s.laneClk < r.startClk + r.time) :
    s.burComplete n e ok self = s := by
  unfold State.burComplete
  rw [hr]
  exact if_pos h

theorem State.burComplete_resetting (hr : ((s.lane n).burEng e).run = some r) (h : r.startClk + r.time ≤ s.laneClk)
    (h4 : (s.lane n).st = 4) : s.burComplete n e ok self = s.burClear n e := by
  unfold State.burComplete
  rw [hr]
  dsimp only
  rw [if_neg (by omega), if_pos h4]

theorem State.burComplete_thread {t tag : Nat} (hr : ((s.lane n).burEng e).run = some r) (h : r.startClk + r.time ≤ s.laneClk)
    (h4 : (s.lane n).st ≠ 4) (hs : r.op.src = .thread t tag) : s.burComplete n e ok self = match r.refusal with
      | some code => s.burEnd n e r tag code 0 (bUnused r.op.desc) 0 0xFFFF 64
      | none => s.burFinish n e tag r ok self := by
  unfold State.burComplete
  rw [hr]
  dsimp only
  rw [if_neg (by omega), if_neg h4, hs] <;> rfl

/-- What a finished operation of the reserve answers, before a key's warning. -/
def State.reserveAns (s : State) (r : BurRun) (ok self : Bool) : BurAns :=
  match r.refusal with
  | some code => { code := code }
  | none => s.reserveEval r ok self

theorem State.burComplete_reserve {u : ReserveUnit} {ref : Nat} (hr : ((s.lane n).burEng e).run = some r)
    (h : r.startClk + r.time ≤ s.laneClk) (h4 : (s.lane n).st ≠ 4) (hs : r.op.src = .reserve u ref) :
    s.burComplete n e ok self = ((((if (s.reserveAns r ok self).code = 0x1111 then s.gEvt 5 n 0x1111 (256 + n) 0 0 r.op.opc
      else s).drew.burClear n e).lpmu n 16 1).lpmu n 17 r.time).reserveDone u ref r.op.key r.op.opc
      (if (s.reserveAns r ok self).code = 0 then r.warn.getD 0 else (s.reserveAns r ok self).code) (s.reserveAns r ok self).out := by
  unfold State.burComplete
  rw [hr]
  dsimp only
  rw [if_neg (by omega), if_neg h4, hs]
  rfl

theorem State.burEng_burClear (s : State) (n e : Nat) :
    ((s.burClear n e).lane n).burEng e = { (s.lane n).burEng e with run := none } := by
  rw [Lane.burEng, (s.frees_burClear n e).keeps.eng]
  exact SMap.get_set_self _ _ _ _

theorem State.lanes_reserveDone (s : State) (u : ReserveUnit) (ref key opc : Nat) (code : Code) (out : Bytes) :
    (s.reserveDone u ref key opc code out).lanes = s.lanes := by
  unfold State.reserveDone
  split
  · unfold State.proofDone
    dsimp only
    split
    · rfl
    · split
      · rfl
      · simp [State.present, State.modRing, State.setRing]
  · rfl

/-- However the operation ends, its engine is free and its other work stands. -/
theorem State.burEng_burComplete (hr : ((s.lane n).burEng e).run = some r) (h : r.startClk + r.time ≤ s.laneClk) :
    ((s.burComplete n e ok self).lane n).burEng e = { (s.lane n).burEng e with run := none } := by
  by_cases h4 : (s.lane n).st = 4
  · rw [State.burComplete_resetting hr h h4, State.burEng_burClear]
  rcases hs : r.op.src with ⟨t, tag⟩ | ⟨u, ref⟩
  · rw [State.burComplete_thread hr h h4 hs]
    split
    · have he := State.burEnd_ended (e := e) (tag := tag) (r := r) (Lane.SameRun.refl (s.lane n)) (by assumption) 0 (bUnused r.op.desc) 0 0xFFFF 64
      exact he.free
    · exact (State.burFinish_ended rfl).free
  · rw [State.burComplete_reserve hr h h4 hs, State.lane_congr (State.lanes_reserveDone _ _ _ _ _ _ _), Lane.burEng,
      (State.keeps_lpmu _ _ _ _).keeps.eng, (State.keeps_lpmu _ _ _ _).keeps.eng, ← Lane.burEng, State.burEng_burClear]
    have hl : ((if (s.reserveAns r ok self).code = 0x1111 then s.gEvt 5 n 0x1111 (256 + n) 0 0 r.op.opc else s).drew.lane n) = s.lane n := by
      split
      · exact State.lane_congr (by simp) _
      · rfl
    rw [hl]

/-- A thread's operation ends with its refusal, or with the outcome of its checks and of itself. -/
theorem State.burComplete_ended {t tag : Nat} (hr : ((s.lane n).burEng e).run = some r) (h : r.startClk + r.time ≤ s.laneClk)
    (h4 : (s.lane n).st ≠ 4) (hs : r.op.src = .thread t tag) : s.BurEnded (s.burComplete n e ok self) n e tag (bCompl r.op.desc)
      (match r.refusal with
        | some code => code
        | none => let a := (s.burEval n r ok self).1
          if s.burCode n r a = 0 then r.warn.getD 0 else s.burCode n r a) := by
  rw [State.burComplete_thread hr h h4 hs]
  split
  · exact State.burEnd_ended (.refl _) _ _ _ _ _ _
  · exact State.burFinish_ended rfl

/-- The keys of a hallmark chain stand while an operation's output is written. -/
theorem State.burWritten_keys (s : State) (n : Nat) (r : BurRun) (a : BurAns) :
    (s.burWritten n r a).str = s.str ∧ (s.burWritten n r a).btm = s.btm := by
  show (s.burKeyed n r a).str = s.str ∧ (s.burKeyed n r a).btm = s.btm
  unfold State.burKeyed
  split <;> exact ⟨rfl, rfl⟩

/-- A valid verification of a bound message adds its link before its tag completes. -/
theorem State.burLink_verify {t : State} {m : Msg} {k : Bytes} {a : BurAns} {inp : Bytes} (hv : isVerify r.op.opc = true)
    (hb : bBound r.op.desc = true) (hm : (t.lane n).msg (bHandle r.op.desc) = some m) (hk : t.hmKey m.hm = some k) (hl : m.trace.length < 15) :
    ∃ x m', ((t.burLink n e r a inp).1.lane n).msg (bHandle r.op.desc) = some m' ∧ m'.hm.step = m.hm.step + 1
      ∧ m'.trace = m.trace ++ [x] ∧ m'.hm.chain = linkTag k m.hm.chain x.digest (4 * n + e) (m.hm.step + 1) := by
  have hd : isDukpt r.op.opc = false := by
    rw [Bool.eq_false_iff]
    intro hd
    have : r.op.opc = 0x80 ∨ r.op.opc = 0x84 := by simpa [isDukpt] using hd
    rcases this with h | h <;> rw [h] at hv <;> exact absurd hv (by decide)
  have hsg : isSign r.op.opc = false := by
    have hv' : r.op.opc / 4 * 4 ∈ [0x04, 0x0C, 0x14, 0x1C, 0x20, 0x24, 0x28, 0x38, 0x40] := by simpa [isVerify] using hv
    rw [Bool.eq_false_iff]
    intro h
    have h' : r.op.opc / 4 * 4 ∈ [0x08, 0x10, 0x18, 0x2C, 0x30, 0x34, 0x3C, 0x44] := by simpa [isSign] using h
    generalize r.op.opc / 4 * 4 = b at hv' h'
    revert h'
    revert b
    decide
  unfold State.burLink
  dsimp only
  rw [hb, hd, if_neg (by decide), hm]
  dsimp only
  rw [hk]
  dsimp only
  rw [hsg, hv, if_neg (by simp), if_pos (by rfl), State.extend_some hm hk hl]
  dsimp only
  rw [State.msg_lpmu, State.lane_modLane_self, Lane.msg, Lane.msgs_rewriteHm]
  exact ⟨_, _, Lane.msg_setMsg_self _ _ _, rfl, rfl, rfl⟩

end

/-- Settles O28: the cases of the operation's end, by its time, the lane's state, its source and the outcome of its checks. -/
theorem burinOperationCompletes : Obligations.BurinOperationCompletes := by
  unfold Obligations.BurinOperationCompletes
  intro n e ok self r s hr
  have run {p : State → Prop} (h : p (s.burComplete n e ok self)) : Runs (.burOperationComplete n e ok self) s p := ⟨_, rfl, h⟩
  refine ⟨fun h => congrArg _ (State.burComplete_early hr h), fun h => ⟨?_, ?_, ?_, ?_⟩⟩
  · refine run ?_
    rw [State.burEng_burComplete hr h]
    exact ⟨rfl, rfl⟩
  · intro h4
    refine run ?_
    rw [State.burComplete_resetting hr h h4]
    exact ⟨rfl, (s.frees_burClear n e).tmem, (s.frees_burClear n e).keeps.tags⟩
  · intro t tag h4 hs
    have hend := State.burComplete_ended (ok := ok) (self := self) hr h h4 hs
    dsimp only at hend ⊢
    refine ⟨?_, ?_, ?_, ?_⟩
    · intro code hc
      rw [hc] at hend
      exact run ⟨hend.record, hend.wakes⟩
    · intro hn ha
      rw [hn] at hend
      dsimp only at hend
      rw [State.burCode_own ha, if_neg ha] at hend
      exact run ⟨hend.record, hend.wakes⟩
    · intro hn ha hl
      rw [hn] at hend
      dsimp only at hend
      rw [State.burCode_linked hl, if_pos ha] at hend
      exact run ⟨hend.record, hend.wakes⟩
    · intro m k hn hv hb hm hk hlen
      refine run fun ha => ?_
      have hl : s.canLink n r = true := by
        unfold State.canLink
        dsimp only
        rw [hb, hm]
        simp [hk, hlen]
      rw [State.burComplete_thread hr h h4 hs, hn]
      dsimp only
      obtain ⟨count, unused, keyOut, step, hfin⟩ := State.burFinish_valid (e := e) (tag := tag) (he := rfl) ((State.burCode_linked hl).trans ha)
      rw [hfin]
      obtain ⟨m1, e1, hh1, ht1, -⟩ := (s.keeps_burWritten n r (s.burEval n r ok self).1).msgs _ m hm
      have hk1 : (s.burWritten n r (s.burEval n r ok self).1).hmKey m1.hm = some k := by
        rw [hh1, State.hmKey_congr (s.burWritten_keys n r _).1 (s.burWritten_keys n r _).2, hk]
      obtain ⟨x, m2, e2, hst, htr, hch⟩ := State.burLink_verify (n := n) (e := e) (r := r) (a := (s.burEval n r ok self).1)
        (inp := (s.lane n).bInput r.op.desc) hv hb e1 hk1 (by rw [ht1]; exact hlen)
      obtain ⟨m3, e3, hh3, ht3⟩ := State.burEnd_msg (n := n) (e := e) (tag := tag) (r := r) (r.warn.getD 0) count unused keyOut step
        ((opCycles r.op.opc).getD 64) e2
      refine ⟨m3, e3, ?_, x, ?_, ?_⟩
      · rw [hh3, hst, hh1]
      · rw [ht3, htr, ht1]
      · rw [hh3, hch, hh1]
  · intro ref h4 hs
    have hans : (s.burComplete n e ok self).rsvDone = s.rsvDone ++ [(.str, ref, if (s.reserveAns r ok self).code = 0 then r.warn.getD 0
        else (s.reserveAns r ok self).code, (s.reserveAns r ok self).out)] := by
      rw [State.burComplete_reserve hr h h4 hs]
      generalize s.reserveAns r ok self = a
      have hr : (if a.code = 0x1111 then s.gEvt 5 n 0x1111 (256 + n) 0 0 r.op.opc else s).rsvDone = s.rsvDone := by
        split
        · simp
        · rfl
      generalize (if a.code = 0x1111 then s.gEvt 5 n 0x1111 (256 + n) 0 0 r.op.opc else s) = t at hr ⊢
      rw [← hr]
      rfl
    refine ⟨fun code hc => run ?_, fun hn => run ?_⟩
    · rw [hans, State.reserveAns, hc]
    · rw [hans, State.reserveAns, hn]

end Sys2Proof.Machine
end

section
/-!
The Stencil engine takes a descriptor; the record, the engine and the tag at the end of a run.
-/

namespace Sys2Proof.Machine
open Sys2Proof

/-! ### The Stencil engine: taking a descriptor -/

/-- A descriptor that the engine picks for a row is of the row's operation. -/
theorem StnEng.pick_op {g : StnEng} {now op : Nat} {o : StnOp} (h : g.pick now op = some o) : sOp o.desc = op := by
  unfold StnEng.pick at h
  split at h
  · split at h
    · rw [← Option.some.inj h]; assumption
    · cases h
  · have := List.find?_some h
    simp only [Bool.and_eq_true, decide_eq_true_eq] at this
    exact this.1.2

/-- A lane whose engine has taken `o` as the run `r`. -/
def Lane.stnTaken (l : Lane) (r : StnRun) (o : StnOp) : Lane := { l with stn := { l.stn with run := some r, q := l.stn.q.erase o } }

/-- The run that the engine starts for `o` at the row of operation `op`. -/
def State.stnRun (s : State) (n op : Nat) (o : StnOp) : StnRun :=
  { op := o, startClk := s.laneClk, refusal := (s.lane n).stnRefusal o,
    bin := if op ≤ 2 then (s.lane n).stencilOf o.thr (sId o.desc) else [] }

/-- A claim of the Stencil engine on message `h`. -/
def Lane.stnClaim (l : Lane) (h : Nat) : Lane := match l.msg h with
  | some m => l.setMsg h { m with claim := some 4 }
  | none => l

section
variable {s : State} {n op : Nat} {o : StnOp}

theorem State.stnStart_none (hr : (s.lane n).stn.run = none) (hp : (s.lane n).stn.pick s.laneClk op = none) : s.stnStart n op = s := by
  unfold State.stnStart
  dsimp only
  rw [hr, hp]

theorem State.stnStart_refused (hr : (s.lane n).stn.run = none) (hp : (s.lane n).stn.pick s.laneClk op = some o)
    (h : ((s.lane n).stnRefusal o).isSome = true) : s.stnStart n op = s.setLane n ((s.lane n).stnTaken (s.stnRun n op o) o) := by
  unfold State.stnStart
  dsimp only
  rw [hr, hp]
  dsimp only
  rw [if_pos h]
  rfl

theorem State.stnStart_abort (hr : (s.lane n).stn.run = none) (hp : (s.lane n).stn.pick s.laneClk 4 = some o)
    (h : (s.lane n).stnRefusal o = none) : s.stnStart n 4
      = (s.setLane n ((s.lane n).stnTaken (s.stnRun n 4 o) o)).modLane n (fun l => l.dropCtx (sHandle o.desc)) := by
  unfold State.stnStart
  dsimp only
  rw [hr, hp]
  dsimp only
  rw [if_neg (by simp [h]), if_pos rfl]
  rfl

theorem State.stnStart_claims (hr : (s.lane n).stn.run = none) (hp : (s.lane n).stn.pick s.laneClk op = some o)
    (h : (s.lane n).stnRefusal o = none) (h4 : op ≠ 4) : s.stnStart n op
      = (s.setLane n ((s.lane n).stnTaken (s.stnRun n op o) o)).modLane n (fun l => l.stnClaim (sHandle o.desc)) := by
  unfold State.stnStart
  dsimp only
  rw [hr, hp]
  dsimp only
  rw [if_neg (by simp [h]), if_neg h4]
  rfl

end

theorem Lane.stnRefusal_msg {l : Lane} {o : StnOp} (h : l.stnRefusal o = none) : ∃ m, l.msg (sHandle o.desc) = some m := by
  unfold Lane.stnRefusal at h
  dsimp only at h
  split at h
  · cases h
  · rename_i hc
    cases hm : l.msg (sHandle o.desc) with
    | some m => exact ⟨m, rfl⟩
    | none => exact absurd (by simp [hm]) hc

/-- A claim leaves all of a lane but the message's record. -/
theorem Lane.stnClaim_shape (l : Lane) (h : Nat) : l.stnClaim h = { l with msgs := (l.stnClaim h).msgs } := by
  unfold Lane.stnClaim
  split <;> rfl

theorem Lane.msg_stnClaim {l : Lane} {h : Nat} {m : Msg} (hm : l.msg h = some m) :
    (l.stnClaim h).msg h = some { m with claim := some 4 } := by
  unfold Lane.stnClaim
  rw [hm]
  exact Lane.msg_setMsg_self _ _ _

/-! ### The end of a run -/

theorem stnRecord_front (code : Nat) (e : SErr) (kind inB outB unused step cycles : Nat) :
    ∃ b : Bytes, b.length = 30 ∧ stnRecord code e kind inB outB unused step cycles = Bytes.ofNatLE 2 code ++ b := by
  unfold stnRecord
  simp only [List.append_assoc]
  exact ⟨_, by simp [Bytes.length_ofNatLE], rfl⟩

/-- How a run's end leaves the lane, from the state `s` in which its record is written. -/
structure State.StnEnded (s u : State) (n : Nat) (r : StnRun) (code : Nat) : Prop where
  stn : (u.lane n).stn = { (s.lane n).stn with run := none }
  record : inTileMem (sCompl r.op.desc) 32 = true → ∃ b : Bytes, b.length = 30
    ∧ (u.lane n).tmem = memWrite (s.lane n).tmem (sCompl r.op.desc - 0x10000000) (Bytes.ofNatLE 2 code ++ b)
  msgs : Lane.MsgsKept (s.lane n) (u.lane n)
  wakes : ∀ tg, (s.lane n).tags.find? (fun g => g.id = r.op.tag) = some tg → ∀ rd, (s.thr n tg.thr).run = .waitTag rd r.op.tag → rd ≠ 0 →
    (u.thr n tg.thr).run = .run ∧ (u.thr n tg.thr).rd rd = (BitVec.ofNat 16 code).setWidth 32

/-- The lane before the run's tag completes: the record is written and the engine is free. -/
theorem State.stnFinish_lane (s : State) (n : Nat) (r : StnRun) (code : Nat) (e : SErr) (kind inB outB unused cycles : Nat) :
    ∃ (w : State) (l : Lane) (b : Bytes), s.stnFinish n r code e kind inB outB unused cycles = w.tagDone n r.op.tag (BitVec.ofNat 16 code) none
      ∧ b.length = 30 ∧ l = (s.lane n).recorded (sCompl r.op.desc) (Bytes.ofNatLE 2 code ++ b)
      ∧ Lane.Frees { l with stn := { l.stn with run := none } } (w.lane n) := by
  unfold State.stnFinish
  extract_lets d step rec_ t
  obtain ⟨b, hb, hrec⟩ := stnRecord_front code e kind inB outB unused step cycles
  have ht : t.lane n = ((s.lane n).recorded (sCompl r.op.desc) (Bytes.ofNatLE 2 code ++ b)).stnFree := by
    subst t
    rw [show rec_ = _ from hrec]
    exact State.lane_modLane_self _ _ _
  refine ⟨_, _, b, rfl, hb, rfl, ?_⟩
  have hl := t.keeps_lpmu n 14 cycles
  rw [ht] at hl
  exact (Lane.frees_stnFree _).trans hl

theorem State.stnFinish_ended (s : State) (n : Nat) (r : StnRun) (code : Nat) (e : SErr) (kind inB outB unused cycles : Nat) :
    s.StnEnded (s.stnFinish n r code e kind inB outB unused cycles) n r code := by
  obtain ⟨w, l, b, hs, hb, hl, hw⟩ := s.stnFinish_lane n r code e kind inB outB unused cycles
  have hk : Lane.Keeps (s.lane n) l := by rw [hl]; exact Lane.keeps_recorded _ _ _
  rw [hs]
  refine ⟨?_, ?_, ?_, ?_⟩
  · rw [State.stn_tagDone, hw.keeps.stn, ← hk.stn]
  · intro hi
    refine ⟨b, hb, ?_⟩
    rw [State.tmem_tagDone, hw.tmem]
    show l.tmem = _
    rw [hl, Lane.recorded, if_pos hi]
    rfl
  · intro h m hm
    obtain ⟨m1, e1, a1, b1, c1⟩ := hk.msgs h m hm
    obtain ⟨m2, e2, a2, b2, c2⟩ := hw.keeps.msgs h m1 e1
    exact ⟨m2, by rw [State.msg_tagDone]; exact e2, a2.trans a1, b2.trans b1, fun x => c2 (c1 x)⟩
  · intro tg htg rd hrun hrd
    have htags : (w.lane n).tags = (s.lane n).tags := hw.keeps.tags.trans hk.tags
    have hthr : (w.lane n).threads = (s.lane n).threads := hw.keeps.threads.trans hk.threads
    refine State.thr_tagDone _ none (by rw [htags]; exact htg) ?_ hrd
    rw [← hrun]
    exact congrArg Thread.run (Lane.thr_of_threads hthr _)

end Sys2Proof.Machine
end

section
/-!
A Stencil run whose output is complete.
-/

namespace Sys2Proof.Machine
open Sys2Proof

/-! ### A run whose output is complete -/

theorem le_foldl_max {x : Nat} : ∀ (l : List Nat) (a : Nat), x ∈ l ∨ x ≤ a → x ≤ l.foldl max a
  | [], _, h => h.resolve_left (by simp)
  | y :: l, a, h => le_foldl_max l (max a y) (by
      rcases h with h | h
      · rcases List.mem_cons.1 h with h | h
        · exact .inr (h ▸ le_max_right _ _)
        · exact .inl h
      · exact .inr (h.trans (le_max_left _ _)))

/-- The canonical record lies nowhere: nothing is rewritten. -/
theorem Lane.rewriteHm_none (l : Lane) {m : Msg} (h : m.canonTile = endTile) : l.rewriteHm m = l := by
  unfold Lane.rewriteHm
  dsimp only
  rw [h, if_neg (by simp [endTile, tileCount])]

/-- What a run that has written all its output leaves before its record: the output bytes, no suspended run of the message, the
message's chain one link longer. -/
structure State.StnOut (s t : State) (n : Nat) (c : StnCtx) (chain : List Nat) (m : Msg) (k : Bytes) : Prop where
  tmem : (t.lane n).tmem = ((s.lane n).stnWrite chain c.out c.written (c.cuts.foldl max c.written)).tmem
  stn : (t.lane n).stn = ((s.lane n).dropCtx c.h).stn
  tags : (t.lane n).tags = (s.lane n).tags
  threads : (t.lane n).threads = (s.lane n).threads
  msg : ∃ m', (t.lane n).msg c.h = some m' ∧ m'.hm.step = m.hm.step + 1
    ∧ m'.hm.chain = linkTag k m.hm.chain (outDigest k false c.out) (0x100 + n) (m.hm.step + 1)

/-- The lane after a run's output: the bytes are written, the suspended run is dropped, the chain is cut. -/
def Lane.stnPut (l : Lane) (c : StnCtx) (chain : List Nat) (upto : Nat) : Lane × Nat :=
  ((l.stnWrite chain c.out c.written upto).dropCtx c.h).stnCut chain upto

theorem Lane.frees_stnPut (l : Lane) (c : StnCtx) (chain : List Nat) (upto : Nat) :
    Lane.Frees ((l.stnWrite chain c.out c.written upto).dropCtx c.h) (l.stnPut c chain upto).1 := Lane.frees_stnCut _ _ _

section
variable {s : State} {n inB w : Nat} {r : StnRun} {c : StnCtx} {chain : List Nat} {resume : Bool} {e : SErr} {m : Msg} {k : Bytes}

/-- A message after its run's output is written, before its chain is extended. -/
theorem State.msg_stnPut (hm : (s.lane n).msg c.h = some m) (hcan : m.canonTile = endTile) (upto : Nat) :
    ∃ m2, ((s.lane n).stnPut c chain upto).1.msg c.h = some m2 ∧ m2.hm = m.hm ∧ m2.trace = m.trace ∧ m2.canonTile = endTile := by
  obtain ⟨m1, e1, hh1, ht1, hc1⟩ := ((s.lane n).keeps_stnWrite chain c.out c.written upto).msgs c.h m hm
  obtain ⟨m2, e2, hh2, ht2, hc2⟩ := ((s.lane n).frees_stnPut c chain upto).keeps.msgs c.h m1 e1
  exact ⟨m2, e2, hh2.trans hh1, ht2.trans ht1, hc2 (hc1 hcan)⟩

theorem State.stnOut_extend (hm : (s.lane n).msg c.h = some m) (hk : s.hmKey m.hm = some k) (hl : m.trace.length < 15)
    (hcan : m.canonTile = endTile) (tile : Nat) :
    let t := s.setLane n ((s.lane n).stnPut c chain (c.cuts.foldl max c.written)).1
    (t.extend n c.h (0x100 + n) (outDigest k false c.out) tile false).2.isNone = false
      ∧ s.StnOut (t.extend n c.h (0x100 + n) (outDigest k false c.out) tile false).1 n c chain m k := by
  intro t
  have hf := (s.lane n).frees_stnPut c chain (c.cuts.foldl max c.written)
  have hw := (s.lane n).keeps_stnWrite chain c.out c.written (c.cuts.foldl max c.written)
  have ht : t.lane n = ((s.lane n).stnPut c chain (c.cuts.foldl max c.written)).1 := State.lane_setLane_self _ _ _
  obtain ⟨m2, e2, hhm, ht2, hcan2⟩ := State.msg_stnPut (chain := chain) hm hcan (c.cuts.foldl max c.written)
  rw [← ht] at hf e2
  have hk2 : t.hmKey m2.hm = some k := by rw [hhm, ← hk]; exact State.hmKey_congr rfl rfl m.hm
  rw [State.extend_some e2 hk2 (by rw [ht2]; exact hl)]
  refine ⟨rfl, ?_⟩
  dsimp only
  rw [hhm]
  generalize hm3 : ({ m2 with
    hm := { m.hm with chain := linkTag k m.hm.chain (outDigest k false c.out) (0x100 + n) (m.hm.step + 1), step := m.hm.step + 1 }
    trace := m2.trace ++ [⟨0x100 + n, outDigest k false c.out, tile, false⟩] } : Msg) = m3
  have hl3 : (((t.modLane n (fun l => (l.setMsg c.h m3).rewriteHm m3)).lpmu n 31 1).lane n) = { (t.lane n).setMsg c.h m3 with
      lpmu := SMap.set 0 31 ((SMap.get 0 31 (t.lane n).lpmu + 1) % 2 ^ 48) (t.lane n).lpmu } := by
    unfold State.lpmu
    rw [State.lane_modLane_self, State.lane_modLane_self, Lane.rewriteHm_none _ (by rw [← hm3]; exact hcan2)]
    rfl
  generalize (t.modLane n (fun l => (l.setMsg c.h m3).rewriteHm m3)).lpmu n 31 1 = v at hl3 ⊢
  refine ⟨?_, ?_, ?_, ?_, m3, ?_, ?_, ?_⟩
  · rw [hl3]
    exact hf.tmem
  · rw [hl3]
    refine hf.keeps.stn.trans ?_
    rw [Lane.dropCtx, Lane.dropCtx, hw.stn]
  · rw [hl3]
    exact hf.keeps.tags.trans hw.tags
  · rw [hl3]
    exact hf.keeps.threads.trans hw.threads
  · rw [hl3]
    exact Lane.msg_setMsg_self _ _ _
  · rw [← hm3]
  · rw [← hm3]

theorem State.stnOutput_complete (hcuts : ∀ x ∈ c.cuts, x ≤ 256 * chain.length ∧ (c.bounded = true → x ≤ c.outMax))
    (hcode : c.code = 0) (hcanon : c.canon = false) (hm : (s.lane n).msg c.h = some m) (hk : s.hmKey m.hm = some k)
    (hl : m.trace.length < 15) (hcan : m.canonTile = endTile) :
    ∃ (t : State) (u cyc : Nat), s.stnOutput n r c chain inB w resume e
      = t.stnFinish n r 0 { kind := 0 } c.mask inB (c.cuts.foldl max c.written) u cyc ∧ s.StnOut t n c chain m k := by
  have hlim : c.cuts.filter (· ≤ if c.bounded then min (256 * chain.length) c.outMax else 256 * chain.length) = c.cuts := by
    refine List.filter_eq_self.2 fun x hx => decide_eq_true ?_
    obtain ⟨h1, h2⟩ := hcuts x hx
    split
    · exact le_min h1 (h2 ‹_›)
    · exact h1
  have hfind : c.cuts.find? (fun x => x > c.cuts.foldl max c.written) = none := by
    refine List.find?_eq_none.2 fun x hx h => ?_
    have := le_foldl_max c.cuts c.written (.inl hx)
    have : x > c.cuts.foldl max c.written := of_decide_eq_true h
    omega
  unfold State.stnOutput
  dsimp only
  rw [hlim, hfind]
  obtain ⟨p, hp⟩ : ∃ p, p = (s.lane n).stnPut c chain (c.cuts.foldl max c.written) := ⟨_, rfl⟩
  have hout := fun tile => State.stnOut_extend (s := s) (n := n) (c := c) (chain := chain) hm hk hl hcan tile
  have hp' : (((s.lane n).stnWrite chain c.out c.written (c.cuts.foldl max c.written)).dropCtx c.h).stnCut chain (c.cuts.foldl max c.written)
      = p := hp.symm
  dsimp only at hout
  rw [← hp] at hout
  rw [hp']
  obtain ⟨l, u⟩ := p
  dsimp only at hout ⊢
  have hl1 : (((s.setLane n l).lane n).msg c.h).bind (fun m => (s.setLane n l).hmKey m.hm) = some k := by
    obtain ⟨m2, e2, hhm, -, -⟩ := State.msg_stnPut (chain := chain) hm hcan (c.cuts.foldl max c.written)
    rw [← hp] at e2
    rw [State.lane_setLane_self, e2]
    show (s.setLane n l).hmKey m2.hm = some k
    rw [hhm, ← hk]
    exact State.hmKey_congr rfl rfl m.hm
  rw [hcode, if_pos (.inl rfl), hl1]
  dsimp only
  rw [hcanon]
  generalize (if c.cuts.foldl max c.written = 0 then endTile else chain.getD 0 endTile) = tile
  specialize hout tile
  generalize (s.setLane n l).extend n c.h (0x100 + n) (outDigest k false c.out) tile false = q at hout ⊢
  obtain ⟨t, step⟩ := q
  obtain ⟨h1, h2⟩ := hout
  dsimp only at h1 ⊢
  rw [h1, if_neg Bool.false_ne_true, if_neg Bool.false_ne_true]
  exact ⟨t, u, _, rfl, h2⟩

end

end Sys2Proof.Machine
end

section
/-!
Every Stencil run ends with its record: outputs and resumptions.
-/

namespace Sys2Proof.Machine
open Sys2Proof

/-! ### Every run ends with its record and its tag -/

/-- `u` is the end of run `r` from a state in which the engine's queue is that of `s`. -/
def State.StnEnds (s u : State) (n : Nat) (r : StnRun) : Prop :=
  ∃ (t : State) (code : Nat) (e : SErr) (kind a b c d : Nat), u = t.stnFinish n r code e kind a b c d ∧ (t.lane n).stn.q = (s.lane n).stn.q

/-- The same, where tile memory still stands as in `s` when the record is written. -/
def State.StnEndsQuiet (s u : State) (n : Nat) (r : StnRun) : Prop :=
  ∃ (t : State) (code : Nat) (e : SErr) (kind a b c d : Nat), u = t.stnFinish n r code e kind a b c d
    ∧ (t.lane n).stn = (s.lane n).stn ∧ (t.lane n).tmem = (s.lane n).tmem

theorem State.StnEndsQuiet.ends {s u : State} {n : Nat} {r : StnRun} (h : s.StnEndsQuiet u n r) : s.StnEnds u n r := by
  obtain ⟨t, code, e, kind, a, b, c, d, hu, hq, -⟩ := h
  exact ⟨t, code, e, kind, a, b, c, d, hu, by rw [hq]⟩

theorem State.StnEnds.stn {s u : State} {n : Nat} {r : StnRun} (h : s.StnEnds u n r) :
    (u.lane n).stn.run = none ∧ (u.lane n).stn.q = (s.lane n).stn.q := by
  obtain ⟨t, code, e, kind, a, b, c, d, hu, hq⟩ := h
  rw [hu, (t.stnFinish_ended n r code e kind a b c d).stn]
  exact ⟨rfl, hq⟩

theorem State.stnFinish_ends (s : State) (n : Nat) (r : StnRun) (code : Nat) (e : SErr) (kind a b c d : Nat) :
    s.StnEndsQuiet (s.stnFinish n r code e kind a b c d) n r := ⟨s, code, e, kind, a, b, c, d, rfl, rfl, rfl⟩

theorem State.StnEnds.of_q {s t u : State} {n : Nat} {r : StnRun} (h : t.StnEnds u n r) (hq : (t.lane n).stn.q = (s.lane n).stn.q) :
    s.StnEnds u n r := by
  obtain ⟨v, code, e, kind, a, b, c, d, hu, hv⟩ := h
  exact ⟨v, code, e, kind, a, b, c, d, hu, hv.trans hq⟩

theorem State.StnEndsQuiet.of_frees {s t u : State} {n : Nat} {r : StnRun} (h : t.StnEndsQuiet u n r)
    (hf : Lane.Frees (s.lane n) (t.lane n)) : s.StnEndsQuiet u n r := by
  obtain ⟨v, code, e, kind, a, b, c, d, hu, hv, hm⟩ := h
  exact ⟨v, code, e, kind, a, b, c, d, hu, hv.trans hf.keeps.stn, hm.trans hf.tmem⟩

section
variable (s : State) (n : Nat)

theorem State.stn_extend (h eng : Nat) (d : D64) (tile : Nat) (isHm : Bool) :
    ((s.extend n h eng d tile isHm).1.lane n).stn = (s.lane n).stn := by
  unfold State.extend
  split
  · rfl
  split
  · rfl
  split
  · rfl
  dsimp only
  rw [(State.keeps_lpmu _ _ _ _).keeps.stn, State.lane_modLane_self, (Lane.keeps_rewriteHm _ _).stn]
  rfl

theorem State.stn_hmFail (h unit : Nat) (code : Code) (tile : Nat) : ((s.hmFail n h unit code tile).lane n).stn = (s.lane n).stn := by
  rw [State.lane_congr (s.lanes_hmFail n h unit code tile)]

theorem State.frees_hmFail (h unit : Nat) (code : Code) (tile : Nat) : Lane.Frees (s.lane n) ((s.hmFail n h unit code tile).lane n) := by
  rw [State.lane_congr (s.lanes_hmFail n h unit code tile)]
  exact .refl _

theorem State.stn_modMsg (h : Nat) (f : Msg → Msg) : ((s.modMsg n h f).lane n).stn = (s.lane n).stn := by
  unfold State.modMsg
  rw [State.lane_modLane_self]
  split <;> rfl

theorem State.stnOutput_ends (r : StnRun) (c : StnCtx) (chain : List Nat) (inB w : Nat) (resume : Bool) (e : SErr) :
    s.StnEnds (s.stnOutput n r c chain inB w resume e) n r := by
  unfold State.stnOutput
  dsimp only
  generalize (if c.bounded then min (256 * chain.length) c.outMax else 256 * chain.length) = lim
  generalize (c.cuts.filter (· ≤ lim)).foldl max c.written = upto
  have hp : ((((((s.lane n).stnWrite chain c.out c.written upto).dropCtx c.h).stnCut chain upto).1).stn.q) = (s.lane n).stn.q := by
    rw [(Lane.frees_stnCut _ _ _).keeps.stn]
    show (Lane.stnWrite _ _ _ _ _).stn.q = _
    rw [(Lane.keeps_stnWrite _ _ _ _ _).stn]
  generalize (((s.lane n).stnWrite chain c.out c.written upto).dropCtx c.h).stnCut chain upto = p at hp ⊢
  obtain ⟨l, u⟩ := p
  dsimp only at hp ⊢
  have ht : ((s.setLane n l).lane n).stn.q = (s.lane n).stn.q := by rw [State.lane_setLane_self]; exact hp
  generalize s.setLane n l = t at ht ⊢
  have fin (v : State) (code : Nat) (e : SErr) (kind a b c d : Nat) (hv : (v.lane n).stn.q = (t.lane n).stn.q) :
      s.StnEnds (v.stnFinish n r code e kind a b c d) n r := (v.stnFinish_ends n r code e kind a b c d).ends.of_q (hv.trans ht)
  split
  · split
    · exact fin _ _ _ _ _ _ _ _ rfl
    · refine fin _ _ _ _ _ _ _ _ ?_
      rw [(State.keeps_lpmu _ _ _ _).keeps.stn, State.lane_modLane_self]
  · split
    · split
      · exact fin _ _ _ _ _ _ _ _ (by rw [State.stn_hmFail])
      · rename_i k hk
        generalize (if upto = 0 then endTile else chain.getD 0 endTile) = tile
        have he := t.stn_extend n c.h (0x100 + n) (outDigest k c.canon c.out) tile c.canon
        generalize t.extend n c.h (0x100 + n) (outDigest k c.canon c.out) tile c.canon = q at he ⊢
        obtain ⟨v, step⟩ := q
        dsimp only at he ⊢
        split
        · exact fin _ _ _ _ _ _ _ _ (by rw [State.stn_hmFail, he])
        · refine fin _ _ _ _ _ _ _ _ ?_
          split
          · rw [State.stn_modMsg, he]
          · rw [he]
    · exact fin _ _ _ _ _ _ _ _ rfl

theorem State.stnResume_ends (r : StnRun) : s.StnEnds (s.stnResume n r) n r := by
  unfold State.stnResume
  dsimp only
  split
  · split
    · refine (State.stnFinish_ends _ _ _ _ _ _ _ _ _ _).ends.of_q ?_
      rw [State.lane_modLane_self]
      rfl
    · refine (State.stnOutput_ends _ _ _ _ _ _ _ _ _).of_q ?_
      rw [State.lane_setLane_self, (Lane.frees_joinChains _ _ _).keeps.stn]
  · exact (State.stnFinish_ends _ _ _ _ _ _ _ _ _ _).ends

end

end Sys2Proof.Machine
end

section
/-!
Every Stencil run ends with its record: first runs, and the command of the run's end.
-/

namespace Sys2Proof.Machine
open Sys2Proof

section
variable (s : State) (n : Nat) (r : StnRun)

/-- The state in which a first run reads its chains: it is counted, and a draw is taken. -/
def State.stnCounted : State := (s.lpmu n 12 1).drew

theorem State.frees_stnCounted : Lane.Frees (s.lane n) ((s.stnCounted n).lane n) := s.keeps_lpmu n 12 1

/-- A first run ends with its record; a VALIDATE writes nothing else. -/
theorem State.stnRunFirst_ends : s.StnEndsQuiet (s.stnRunFirst n r) n r ∨ (sOp r.op.desc ≠ 2 ∧ s.StnEnds (s.stnRunFirst n r) n r) := by
  have fin (v : State) (code : Nat) (e : SErr) (kind a b c d : Nat) (hv : v.lanes = (s.stnCounted n).lanes) :
      s.StnEndsQuiet (v.stnFinish n r code e kind a b c d) n r := by
    refine (v.stnFinish_ends n r code e kind a b c d).of_frees ?_
    rw [State.lane_congr hv]
    exact s.frees_stnCounted n
  unfold State.stnRunFirst
  dsimp only
  rw [← State.stnCounted]
  generalize ([sIn r.op.desc] ++ if sIn2 r.op.desc ≠ noVal then [sIn2 r.op.desc] else []) = ins
  generalize (if sIn2 r.op.desc ≠ noVal then some _ else none) = in2
  split
  · refine .inl (fin _ _ _ _ _ _ _ _ ?_)
    rfl
  split
  · refine .inl (fin _ _ _ _ _ _ _ _ ?_)
    exact State.lanes_hmFail _ _ _ _ _ _
  split
  · refine .inl (fin _ _ _ _ _ _ _ _ ?_)
    exact State.lanes_hmFail _ _ _ _ _ _
  generalize stnEval r.bin _ _ _ _ _ _ _ _ = o
  have hg : (if o.code = 0x1015 then (s.stnCounted n).gMsg 4 n (sHandle r.op.desc) 0x1015 (stnN r.bin 44 4) else s.stnCounted n).lanes
      = (s.stnCounted n).lanes := by
    split
    · simp
    · rfl
  generalize (if o.code = 0x1015 then (s.stnCounted n).gMsg 4 n (sHandle r.op.desc) 0x1015 (stnN r.bin 44 4) else s.stnCounted n) = t at hg ⊢
  split
  · exact .inl (fin _ _ _ _ _ _ _ _ hg)
  · rename_i hc
    refine .inr ⟨fun h => hc (.inl h), (State.stnOutput_ends _ _ _ _ _ _ _ _ _).of_q ?_⟩
    rw [State.lane_congr hg, (s.frees_stnCounted n).keeps.stn]

end

section
variable {s : State} {n : LaneId} {r : StnRun}

/-- The end of a run that is due: its refusal, the end of an abort, or its work. -/
theorem exec_stnRunEnd (hr : (s.lane n).stn.run = some r) (h4 : (s.lane n).st ≠ 4) (hd : r.refusal = none ∨ r.startClk + 64 ≤ s.laneClk) :
    exec (.stnRunEnd n) s = .next (match r.refusal with
      | some code => s.stnFinish n r code.toNat { kind := 0 } 0 0 0
          (if sOp r.op.desc = 1 ∨ sOp r.op.desc = 3 then sOut r.op.desc else noVal) 64
      | none => if sOp r.op.desc = 4 then s.stnFinish n r 0x1042 { kind := 0 } 0 0 0 noVal 16
          else if sOp r.op.desc = 3 then s.stnResume n r else s.stnRunFirst n r) := by
  have e : exec (.stnRunEnd n) s = execStnRunEnd n s := rfl
  rw [e, execStnRunEnd]
  dsimp only
  rw [hr]
  dsimp only
  have hn : ¬ (r.refusal.isSome ∧ s.laneClk < r.startClk + 64) := by
    rintro ⟨h1, h2⟩
    rcases hd with h | h
    · rw [h] at h1; cases h1
    · omega
  rw [if_neg hn, if_neg h4] <;> cases r.refusal <;> rfl

theorem exec_stnRunEnd_early {code : Code} (hr : (s.lane n).stn.run = some r) (hc : r.refusal = some code)
    (h : s.laneClk < r.startClk + 64) : exec (.stnRunEnd n) s = .next s := by
  have e : exec (.stnRunEnd n) s = execStnRunEnd n s := rfl
  rw [e, execStnRunEnd]
  dsimp only
  rw [hr]
  dsimp only
  rw [hc]
  exact if_pos ⟨rfl, h⟩

theorem runs_stnRunEnd_refused {code : Code} (hr : (s.lane n).stn.run = some r) (h4 : (s.lane n).st ≠ 4) (hc : r.refusal = some code)
    (h : r.startClk + 64 ≤ s.laneClk) : Runs (.stnRunEnd n) s fun u => s.StnEnded u n r code.toNat := by
  refine ⟨_, exec_stnRunEnd hr h4 (.inr h), ?_⟩
  rw [hc]
  exact s.stnFinish_ended n r _ _ _ _ _ _ _

theorem runs_stnRunEnd_ends (hr : (s.lane n).stn.run = some r) (h4 : (s.lane n).st ≠ 4)
    (hd : r.refusal = none ∨ r.startClk + 64 ≤ s.laneClk) : Runs (.stnRunEnd n) s fun u => s.StnEnds u n r := by
  refine ⟨_, exec_stnRunEnd hr h4 hd, ?_⟩
  split
  · exact (s.stnFinish_ends n r _ _ _ _ _ _ _).ends
  · split
    · exact (s.stnFinish_ends n r _ _ _ _ _ _ _).ends
    · split
      · exact s.stnResume_ends n r
      · rcases s.stnRunFirst_ends n r with h | h
        · exact h.ends
        · exact h.2

/-- The end of a run that wrote all its output: the bytes of its completion record and the message's chain, from the state `s` of the
run's end. -/
structure State.StnDone (s u : State) (n : Nat) (r : StnRun) (c : StnCtx) (chain : List Nat) (m : Msg) (k : Bytes) : Prop where
  stn : (u.lane n).stn = { ((s.lane n).dropCtx c.h).stn with run := none }
  record : inTileMem (sCompl r.op.desc) 32 = true → ∃ b : Bytes, b.length = 32 ∧ b.take 2 = [0, 0]
    ∧ (u.lane n).tmem = memWrite ((s.lane n).stnWrite chain c.out c.written (c.cuts.foldl max c.written)).tmem
        (sCompl r.op.desc - 0x10000000) b
  msg : ∃ m', (u.lane n).msg c.h = some m' ∧ m'.hm.step = m.hm.step + 1
    ∧ m'.hm.chain = linkTag k m.hm.chain (outDigest k false c.out) (0x100 + n) (m.hm.step + 1)
  wakes : ∀ tg, (s.lane n).tags.find? (fun g => g.id = r.op.tag) = some tg → ∀ rd, (s.thr n tg.thr).run = .waitTag rd r.op.tag → rd ≠ 0 →
    (u.thr n tg.thr).run = .run ∧ (u.thr n tg.thr).rd rd = 0

theorem State.StnOut.finish {s t : State} {n : Nat} {c : StnCtx} {chain : List Nat} {m : Msg} {k : Bytes} (h : s.StnOut t n c chain m k)
    (r : StnRun) (e : SErr) (kind inB outB unused cycles : Nat) :
    s.StnDone (t.stnFinish n r 0 e kind inB outB unused cycles) n r c chain m k := by
  have hend := t.stnFinish_ended n r 0 e kind inB outB unused cycles
  generalize t.stnFinish n r 0 e kind inB outB unused cycles = u at hend ⊢
  refine ⟨?_, ?_, ?_, ?_⟩
  · rw [hend.stn, h.stn]
  · intro hi
    obtain ⟨b, hb, hm⟩ := hend.record hi
    refine ⟨Bytes.ofNatLE 2 0 ++ b, by simp [hb, Bytes.length_ofNatLE], ?_, ?_⟩
    · rw [List.take_left' (Bytes.length_ofNatLE 2 0)]
      decide
    · rw [hm, h.tmem]
  · obtain ⟨m1, e1, hst, hch⟩ := h.msg
    obtain ⟨m2, e2, hh, -, -⟩ := hend.msgs c.h m1 e1
    exact ⟨m2, e2, by rw [hh, hst], by rw [hh, hch]⟩
  · intro tg htg rd hrun hrd
    refine hend.wakes tg (by rw [h.tags]; exact htg) rd ?_ hrd
    rw [← hrun]
    exact congrArg Thread.run (Lane.thr_of_threads h.threads _)

end

end Sys2Proof.Machine
end

section
/-!
A translation whose output fits.
-/

namespace Sys2Proof.Machine
open Sys2Proof

section
variable {s : State} {n : LaneId} {r : StnRun}

/-- What a translation's run carries of its output. -/
def StnRun.ctx (r : StnRun) (o : SOut) (chain : List Nat) (gen : Nat) : StnCtx :=
  { h := sHandle r.op.desc, desc := r.op.desc, out := o.out, cuts := o.cuts, written := 0, chain := chain,
    code := BitVec.ofNat 16 o.code, kind := o.err.kind, bounded := true, outMax := r.op.outMax, canon := o.canon, mask := o.mask,
    stencil := sId r.op.desc, stnGen := gen }

/-- A translation of one chain that passes its checks and evaluates validly goes on to write its output. -/
theorem State.stnRunFirst_output {ts ch : List Nat} {m : Msg} (hop : sOp r.op.desc = 1) (hin2 : sIn2 r.op.desc = noVal)
    (hts : (s.lane n).chain (sIn r.op.desc) = some ts) (hch : (s.lane n).chain (sOut r.op.desc) = some ch)
    (hbad : (s.lane n).badTile ts = none) (hm : (s.lane n).msg (sHandle r.op.desc) = some m)
    (hvc : s.verifyChains (s.lane n) m [sIn r.op.desc] = 0) {o : SOut}
    (ho : stnEval r.bin (sId r.op.desc) (sSrc r.op.desc) (sDst r.op.desc) false ((s.lane n).content ts) none (Bytes.le r.op.desc 12 2)
      (s.fullBeat m.hm.beat / 100000 : Nat) = o) (h0 : o.code = 0) :
    ∃ inB w gen, s.stnRunFirst n r = (s.stnCounted n).stnOutput n r (r.ctx o ch gen) ch inB w false o.err := by
  have hvc' : (s.stnCounted n).verifyChains (s.lane n) m [sIn r.op.desc] = 0 := by
    rw [← hvc]; exact State.verifyChains_congr rfl rfl _ _ _
  have ho' : stnEval r.bin (sId r.op.desc) (sSrc r.op.desc) (sDst r.op.desc) false ((s.lane n).content ts) none
      (Bytes.le r.op.desc 12 2) ((s.stnCounted n).fullBeat m.hm.beat / 100000 : Nat) = o := ho
  have hval : decide (sOp r.op.desc = 2) = false := decide_eq_false (by omega)
  unfold State.stnRunFirst
  dsimp only
  rw [← State.stnCounted]
  simp only [hin2, hval, ne_eq, not_true_eq_false, if_false, List.append_nil]
  generalize (s.lpmu n 12 1).freeWord = w
  generalize s.stnCounted n = t at hvc' ho' ⊢
  have hflat : ([sIn r.op.desc].map (s.lane n).chain).flatMap (·.getD []) = ts := by simp [hts]
  rw [hflat, if_neg (by simp [hts, hch]), hbad]
  dsimp only
  rw [hm, hts, hch]
  dsimp only [Option.getD_some]
  have hv : ¬ ¬ t.verifyChains (s.lane n) m [sIn r.op.desc] = 0 := not_not_intro hvc'
  rw [if_neg hv, if_neg (by rw [ho', h0, hop]; simp), if_neg (by rw [ho', h0]; decide), ho']
  exact ⟨_, _, _, rfl⟩

/-- The end of such a run whose output fits (R106, R107, R109). -/
theorem runs_translated {ts ch : List Nat} {m : Msg} {k : Bytes} {o : SOut} (hr : (s.lane n).stn.run = some r) (h4 : (s.lane n).st ≠ 4)
    (href : r.refusal = none) (hop : sOp r.op.desc = 1) (hin2 : sIn2 r.op.desc = noVal)
    (hts : (s.lane n).chain (sIn r.op.desc) = some ts) (hch : (s.lane n).chain (sOut r.op.desc) = some ch)
    (hbad : (s.lane n).badTile ts = none) (hm : (s.lane n).msg (sHandle r.op.desc) = some m)
    (hvc : s.verifyChains (s.lane n) m [sIn r.op.desc] = 0) (hk : s.hmKey m.hm = some k) (hl : m.trace.length < 15)
    (hcan : m.canonTile = endTile)
    (ho : stnEval r.bin (sId r.op.desc) (sSrc r.op.desc) (sDst r.op.desc) false ((s.lane n).content ts) none (Bytes.le r.op.desc 12 2)
      (s.fullBeat m.hm.beat / 100000 : Nat) = o) (h0 : o.code = 0) (hc : o.canon = false)
    (hcuts : ∀ x ∈ o.cuts, x ≤ 256 * ch.length ∧ x ≤ r.op.outMax) :
    Runs (.stnRunEnd n) s fun u => ∃ gen, (s.stnCounted n).StnDone u n r (r.ctx o ch gen) ch m k := by
  refine ⟨_, exec_stnRunEnd hr h4 (.inl href), ?_⟩
  rw [href]
  dsimp only
  rw [if_neg (by omega), if_neg (by omega)]
  obtain ⟨inB, w, gen, he⟩ := State.stnRunFirst_output hop hin2 hts hch hbad hm hvc ho h0
  have hm' : ((s.stnCounted n).lane n).msg (sHandle r.op.desc) = some m := by
    show ((s.lpmu n 12 1).lane n).msg _ = _
    rw [State.msg_lpmu, hm]
  have hk' : (s.stnCounted n).hmKey m.hm = some k := by rw [← hk]; exact State.hmKey_congr rfl rfl _
  obtain ⟨t, u, cyc, hs, ht⟩ := State.stnOutput_complete (s := s.stnCounted n) (n := n) (inB := inB) (w := w) (r := r) (c := r.ctx o ch gen)
    (chain := ch) (resume := false) (e := o.err) (fun x hx => ⟨(hcuts x hx).1, fun _ => (hcuts x hx).2⟩)
    (by show BitVec.ofNat 16 o.code = 0; rw [h0]; rfl) hc hm' hk' hl hcan
  rw [he, hs]
  exact ⟨gen, ht.finish r _ _ _ _ _ _⟩

end

end Sys2Proof.Machine
end

section
/-!
Resumed, validated and aborted runs; the start of a run.
-/

namespace Sys2Proof.Machine
open Sys2Proof

theorem walk_congr {l u : Lane} (h : u.side = l.side) : ∀ (fuel : Nat) (seen : List Nat) (i : Nat), walk u fuel seen i = walk l fuel seen i
  | 0, _, _ => rfl
  | fuel + 1, seen, i => by
    have hw : u.sideW i = l.sideW i := by unfold Lane.sideW; rw [h]
    unfold walk
    rw [hw]
    dsimp only
    rw [walk_congr h fuel]

theorem Lane.chain_congr {l u : Lane} (h : u.side = l.side) (i : Nat) : u.chain i = l.chain i := walk_congr h _ _ _

section
variable {s : State} {n : LaneId} {r : StnRun}

/-- The end of a RESUME whose tiles take the rest of the suspended run's output (R111). -/
theorem runs_resumed {c : StnCtx} {more : List Nat} {m : Msg} {k : Bytes} (hr : (s.lane n).stn.run = some r) (h4 : (s.lane n).st ≠ 4)
    (href : r.refusal = none) (hop : sOp r.op.desc = 3)
    (hc : (s.lane n).stn.ctxs.find? (fun c => c.h = sHandle r.op.desc) = some c) (hmore : (s.lane n).chain (sOut r.op.desc) = some more)
    (halloc : ∀ i ∈ c.chain, sideAlloc ((s.lane n).sideW i) = true)
    (hcuts : ∀ x ∈ c.cuts, x ≤ 256 * (c.chain ++ more).length ∧ (c.bounded = true → x ≤ c.outMax)) (hcode : c.code = 0)
    (hcanon : c.canon = false) (hm : (s.lane n).msg (sHandle r.op.desc) = some m) (hk : s.hmKey m.hm = some k)
    (hl : m.trace.length < 15) (hcan : m.canonTile = endTile) :
    Runs (.stnRunEnd n) s fun u => ∃ (t : State) (m' : Msg), Lane.Frees (s.lane n) (t.lane n) ∧ m'.hm = m.hm
      ∧ t.StnDone u n r c (c.chain ++ more) m' k := by
  refine ⟨_, exec_stnRunEnd hr h4 (.inl href), ?_⟩
  rw [href]
  dsimp only
  rw [if_neg (by omega), if_pos hop]
  have hch : c.h = sHandle r.op.desc := by simpa using List.find?_some hc
  have hj := (s.lane n).frees_joinChains c.chain more
  unfold State.stnResume
  dsimp only
  rw [hc, hmore]
  dsimp only
  rw [if_neg (by simpa using halloc)]
  generalize (s.lane n).joinChains c.chain more = l at hj ⊢
  have ht : (s.drew.setLane n l).lane n = l := State.lane_setLane_self _ _ _
  have hkt : (s.drew.setLane n l).hmKey m.hm = some k := by rw [← hk]; exact State.hmKey_congr rfl rfl _
  obtain ⟨m', e1, hh, htr, hct⟩ := hj.keeps.msgs c.h m (by rw [hch]; exact hm)
  generalize s.drew.setLane n l = t at ht hkt ⊢
  rw [← ht] at hj e1
  obtain ⟨v, u, cyc, hs, hv⟩ := State.stnOutput_complete (s := t) (n := n) (inB := 0) (w := s.freeWord.toNat) (r := r) (c := c)
    (chain := c.chain ++ more) (resume := true) (e := { kind := c.kind }) hcuts hcode hcanon e1 (by rw [hh]; exact hkt)
    (by rw [htr]; exact hl) (hct hcan)
  rw [hs]
  exact ⟨t, m', hj, hh, hv.finish r _ _ _ _ _ _⟩

/-- The end of a VALIDATE: its completion record is all that it writes (R106). -/
theorem runs_validated (hr : (s.lane n).stn.run = some r) (h4 : (s.lane n).st ≠ 4) (href : r.refusal = none) (hop : sOp r.op.desc = 2) :
    Runs (.stnRunEnd n) s fun u => s.StnEndsQuiet u n r := by
  refine ⟨_, exec_stnRunEnd hr h4 (.inl href), ?_⟩
  rw [href]
  dsimp only
  rw [if_neg (by omega), if_neg (by omega)]
  exact (s.stnRunFirst_ends n r).resolve_right fun h => h.1 hop

/-- The end of an ABORT (R111). -/
theorem runs_aborted (hr : (s.lane n).stn.run = some r) (h4 : (s.lane n).st ≠ 4) (href : r.refusal = none) (hop : sOp r.op.desc = 4) :
    Runs (.stnRunEnd n) s fun u => s.StnEnded u n r 0x1042 := by
  refine ⟨_, exec_stnRunEnd hr h4 (.inl href), ?_⟩
  rw [href]
  dsimp only
  rw [if_pos hop]
  exact s.stnFinish_ended n r _ _ _ _ _ _ _

end

/-! ### The start of a run -/

/-- The rows of the Stencil engine start the operation of their number. -/
theorem exec_stnStart {p : (LaneId → Instr) × Nat} (hp : p ∈ ([(.translate, 1), (.validate, 2), (.resume, 3), (.abort, 4)] : List ((LaneId → Instr) × Nat)))
    (n : LaneId) (s : State) : exec (p.1 n) s = .next (s.stnStart n p.2) := by
  simp only [List.mem_cons, List.not_mem_nil, or_false] at hp
  rcases hp with rfl | rfl | rfl | rfl
  · rfl
  · rfl
  · rfl
  · rfl

section
variable {s : State} {n op : Nat} {o : StnOp}

/-- A started run: the engine has it, its descriptor has left the queue, and of the lane only the claim and an aborted suspension
have changed besides. -/
structure State.StnStarted (s u : State) (n op : Nat) (o : StnOp) : Prop where
  run : (u.lane n).stn.run = some (s.stnRun n op o)
  q : (u.lane n).stn.q = (s.lane n).stn.q.erase o
  tmem : (u.lane n).tmem = (s.lane n).tmem
  side : (u.lane n).side = (s.lane n).side
  st : (u.lane n).st = (s.lane n).st
  ctxs : (u.lane n).stn.ctxs = if op = 4 ∧ (s.lane n).stnRefusal o = none
    then (s.lane n).stn.ctxs.filter (fun c => c.h ≠ sHandle o.desc) else (s.lane n).stn.ctxs
  claim : op ≠ 4 → (s.lane n).stnRefusal o = none → ∀ m, (s.lane n).msg (sHandle o.desc) = some m →
    (u.lane n).msg (sHandle o.desc) = some { m with claim := some 4 }
  only : s.onlyLane u n

theorem State.stnStart_started (hr : (s.lane n).stn.run = none) (hp : (s.lane n).stn.pick s.laneClk op = some o) :
    s.StnStarted (s.stnStart n op) n op o := by
  cases href : (s.lane n).stnRefusal o with
  | some code =>
    rw [State.stnStart_refused hr hp (by rw [href]; rfl)]
    have hl : (s.setLane n ((s.lane n).stnTaken (s.stnRun n op o) o)).lane n = (s.lane n).stnTaken (s.stnRun n op o) o :=
      State.lane_setLane_self _ _ _
    refine ⟨by rw [hl]; rfl, by rw [hl]; rfl, by rw [hl]; rfl, by rw [hl]; rfl, by rw [hl]; rfl, ?_, ?_, State.onlyLane_setLane _ _ _⟩
    · rw [hl, if_neg (by simp [href])]; rfl
    · intro _ h; rw [href] at h; cases h
  | none =>
    by_cases h4 : op = 4
    · subst h4
      rw [State.stnStart_abort hr hp href]
      have hl : ((s.setLane n ((s.lane n).stnTaken (s.stnRun n 4 o) o)).modLane n (fun l => l.dropCtx (sHandle o.desc))).lane n
          = ((s.lane n).stnTaken (s.stnRun n 4 o) o).dropCtx (sHandle o.desc) := by
        rw [State.lane_modLane_self, State.lane_setLane_self]
      refine ⟨by rw [hl]; rfl, by rw [hl]; rfl, by rw [hl]; rfl, by rw [hl]; rfl, by rw [hl]; rfl, ?_, fun h => absurd rfl h,
        (State.onlyLane_setLane _ _ _).trans (State.onlyLane_modLane _ _ _)⟩
      rw [hl, if_pos ⟨rfl, href⟩]; rfl
    · rw [State.stnStart_claims hr hp href h4]
      have hl : ((s.setLane n ((s.lane n).stnTaken (s.stnRun n op o) o)).modLane n (fun l => l.stnClaim (sHandle o.desc))).lane n
          = ((s.lane n).stnTaken (s.stnRun n op o) o).stnClaim (sHandle o.desc) := by
        rw [State.lane_modLane_self, State.lane_setLane_self]
      have hs := ((s.lane n).stnTaken (s.stnRun n op o) o).stnClaim_shape (sHandle o.desc)
      refine ⟨by rw [hl, hs]; rfl, by rw [hl, hs]; rfl, by rw [hl, hs]; rfl, by rw [hl, hs]; rfl, by rw [hl, hs]; rfl, ?_, ?_,
        (State.onlyLane_setLane _ _ _).trans (State.onlyLane_modLane _ _ _)⟩
      · rw [hl, hs, if_neg (by simp [h4])]; rfl
      · intro _ _ m hm
        rw [hl]
        exact Lane.msg_stnClaim hm

end

end Sys2Proof.Machine
end

section
/-!
Stencil runs from their start to their end: the statement of O31.
-/

namespace Sys2Proof.Machine
open Sys2Proof

theorem State.StnEnded.code_read {s u : State} {n : Nat} {r : StnRun} {code : Nat} (h : s.StnEnded u n r code)
    (hi : inTileMem (sCompl r.op.desc) 32 = true) :
    memRead (u.lane n).tmem (sCompl r.op.desc - 0x10000000) 2 = Bytes.ofNatLE 2 code := by
  obtain ⟨b, -, hm⟩ := h.record hi
  rw [hm]
  exact memRead_memWrite_prefix _ _ (Bytes.ofNatLE 2 code) b

theorem State.StnEndsQuiet.record {s u : State} {n : Nat} {r : StnRun} (h : s.StnEndsQuiet u n r)
    (hi : inTileMem (sCompl r.op.desc) 32 = true) : (u.lane n).stn.run = none
      ∧ ∃ b : Bytes, b.length = 32 ∧ (u.lane n).tmem = memWrite (s.lane n).tmem (sCompl r.op.desc - 0x10000000) b := by
  obtain ⟨t, code, e, kind, a, b, c, d, hu, -, hm⟩ := h
  have hend := t.stnFinish_ended n r code e kind a b c d
  rw [← hu] at hend
  refine ⟨by rw [hend.stn], ?_⟩
  obtain ⟨x, hx, ht⟩ := hend.record hi
  exact ⟨Bytes.ofNatLE 2 code ++ x, by simp [hx, Bytes.length_ofNatLE], by rw [ht, hm]⟩

section
variable {s : State} {n : LaneId} {o : StnOp}

/-- What the rows of Table STN-12's operations show when they start a run. -/
theorem runs_stnStart {p : (LaneId → Instr) × Nat} (hp : p ∈ ([(.translate, 1), (.validate, 2), (.resume, 3), (.abort, 4)] : List ((LaneId → Instr) × Nat)))
    (hr : (s.lane n).stn.run = none) (hk : (s.lane n).stn.pick s.laneClk p.2 = some o) :
    Runs (p.1 n) s fun u => s.StnStarted u n p.2 o := ⟨_, exec_stnStart hp n s, State.stnStart_started hr hk⟩

theorem runs_validate_end (hr : (s.lane n).stn.run = none) (h4 : (s.lane n).st ≠ 4) (hi : inTileMem (sCompl o.desc) 32 = true)
    (hp : (s.lane n).stn.pick s.laneClk 2 = some o) (href : (s.lane n).stnRefusal o = none) : Runs (.validate n) s fun u =>
      Runs (.stnRunEnd n) u fun w => (w.lane n).stn.run = none
        ∧ ∃ b : Bytes, b.length = 32 ∧ (w.lane n).tmem = memWrite (s.lane n).tmem (sCompl o.desc - 0x10000000) b := by
  obtain ⟨u, hu, h⟩ := runs_stnStart (p := (.validate, 2)) (by simp) hr hp
  refine ⟨u, hu, ?_⟩
  obtain ⟨w, hw, hq⟩ := runs_validated h.run (by rw [h.st]; exact h4) href (StnEng.pick_op hp)
  refine ⟨w, hw, ?_⟩
  rw [← h.tmem]
  exact hq.record hi

theorem runs_abort_end (hr : (s.lane n).stn.run = none) (h4 : (s.lane n).st ≠ 4) (hi : inTileMem (sCompl o.desc) 32 = true)
    (hp : (s.lane n).stn.pick s.laneClk 4 = some o) (href : (s.lane n).stnRefusal o = none) : Runs (.abort n) s fun u =>
      (∀ c ∈ (u.lane n).stn.ctxs, c.h ≠ sHandle o.desc)
        ∧ Runs (.stnRunEnd n) u fun w => memRead (w.lane n).tmem (sCompl o.desc - 0x10000000) 2 = [0x42#8, 0x10#8] := by
  obtain ⟨u, hu, h⟩ := runs_stnStart (p := (.abort, 4)) (by simp) hr hp
  refine ⟨u, hu, ?_, ?_⟩
  · rw [h.ctxs, if_pos ⟨rfl, href⟩]
    intro c hc
    exact of_decide_eq_true (List.mem_filter.1 hc).2
  · obtain ⟨w, hw, hq⟩ := runs_aborted h.run (by rw [h.st]; exact h4) href (StnEng.pick_op hp)
    exact ⟨w, hw, (hq.code_read hi).trans (by decide)⟩

theorem runs_abort_refused (hr : (s.lane n).stn.run = none) (h4 : (s.lane n).st ≠ 4) (hi : inTileMem (sCompl o.desc) 32 = true)
    (hp : (s.lane n).stn.pick s.laneClk 4 = some o) (href : (s.lane n).stnRefusal o = some 0x1016) : Runs (.abort n) s fun u =>
      Runs (.stnRunEnd n) { u with laneClk := u.laneClk + 64 } fun w =>
        memRead (w.lane n).tmem (sCompl o.desc - 0x10000000) 2 = [0x16#8, 0x10#8] := by
  obtain ⟨u, hu, h⟩ := runs_stnStart (p := (.abort, 4)) (by simp) hr hp
  refine ⟨u, hu, ?_⟩
  have hclk : u.laneClk = s.laneClk := by rw [h.only.1]
  obtain ⟨w, hw, hq⟩ := runs_stnRunEnd_refused (s := { u with laneClk := u.laneClk + 64 }) (n := n) h.run
    (by show (u.lane n).st ≠ 4; rw [h.st]; exact h4) href (by rw [hclk]; exact le_refl _)
  exact ⟨w, hw, (hq.code_read hi).trans (by decide)⟩

theorem runs_resume_end {c : StnCtx} {more : List Nat} {m : Msg} {k : Bytes} (hr : (s.lane n).stn.run = none) (h4 : (s.lane n).st ≠ 4)
    (hi : inTileMem (sCompl o.desc) 32 = true) (hp : (s.lane n).stn.pick s.laneClk 3 = some o) (href : (s.lane n).stnRefusal o = none)
    (hc : (s.lane n).stn.ctxs.find? (fun c => c.h = sHandle o.desc) = some c) (hmore : (s.lane n).chain (sOut o.desc) = some more)
    (halloc : ∀ i ∈ c.chain, sideAlloc ((s.lane n).sideW i) = true)
    (hcuts : ∀ x ∈ c.cuts, x ≤ 256 * (c.chain ++ more).length ∧ (c.bounded = true → x ≤ c.outMax)) (hcode : c.code = 0)
    (hcanon : c.canon = false) (hm : (s.lane n).msg (sHandle o.desc) = some m) (hcan : m.canonTile = endTile)
    (hk : s.hmKey m.hm = some k) (hl : m.trace.length < 15) : Runs (.resume n) s fun u => Runs (.stnRunEnd n) u fun w =>
      (∃ b : Bytes, b.length = 32 ∧ b.take 2 = [0, 0] ∧ (w.lane n).tmem
          = memWrite ((s.lane n).stnWrite (c.chain ++ more) c.out c.written (c.cuts.foldl max c.written)).tmem (sCompl o.desc - 0x10000000) b)
        ∧ (∀ c ∈ (w.lane n).stn.ctxs, c.h ≠ sHandle o.desc)
        ∧ ∃ m', (w.lane n).msg (sHandle o.desc) = some m' ∧ m'.hm.step = m.hm.step + 1
          ∧ m'.hm.chain = linkTag k m.hm.chain (outDigest k false c.out) (0x100 + n) (m.hm.step + 1) := by
  obtain ⟨u, hu, h⟩ := runs_stnStart (p := (.resume, 3)) (by simp) hr hp
  refine ⟨u, hu, ?_⟩
  have hch : c.h = sHandle o.desc := by simpa using List.find?_some hc
  have hkey : u.hmKey m.hm = some k := by
    rw [← hk, h.only.1]
    exact State.hmKey_congr rfl rfl _
  have halloc' : ∀ i ∈ c.chain, sideAlloc ((u.lane n).sideW i) = true := by
    intro i hi
    rw [Lane.sideW, h.side]
    exact halloc i hi
  have hctx : (u.lane n).stn.ctxs = (s.lane n).stn.ctxs := by rw [h.ctxs, if_neg (by simp)]
  obtain ⟨w, hw, t, m', hf, hh, hd⟩ := runs_resumed (more := more) h.run (by rw [h.st]; exact h4) href (StnEng.pick_op hp)
    (by rw [hctx]; exact hc) (by rw [Lane.chain_congr h.side]; exact hmore) halloc' hcuts hcode hcanon
    (h.claim (by simp) href m hm) hkey hl hcan
  refine ⟨w, hw, ?_, ?_, ?_⟩
  · obtain ⟨b, hb, ht, hm⟩ := hd.record hi
    exact ⟨b, hb, ht, by rw [hm, Lane.tmem_stnWrite_congr (hf.tmem.trans h.tmem)]; rfl⟩
  · rw [hd.stn]
    intro x hx
    have hx := of_decide_eq_true (List.mem_filter.1 hx).2
    rw [← hch]
    exact hx
  · obtain ⟨m2, e2, hst, hchn⟩ := hd.msg
    rw [hh] at hst hchn
    exact ⟨m2, by rw [← hch]; exact e2, hst, hchn⟩

end

/-- Settles O31: the start of each row's run, then its end by what the run is. -/
theorem stencilRunsComplete : Obligations.StencilRunsComplete := by
  unfold Obligations.StencilRunsComplete
  refine ⟨?_, ?_, ?_⟩
  · intro p hp n s hr
    refine ⟨fun h => ?_, fun o ho => ?_⟩
    · rw [exec_stnStart hp, State.stnStart_none hr h]
    · obtain ⟨u, hu, h⟩ := runs_stnStart hp hr ho
      refine ⟨u, hu, h.q, ⟨_, h.run, rfl, rfl, rfl⟩, fun h4 href => ?_, h.tmem, h.only⟩
      obtain ⟨m, hm⟩ := Lane.stnRefusal_msg href
      exact ⟨_, h.claim h4 href m hm, rfl⟩
  · intro n o s hr h4 hi
    refine ⟨fun hp href => runs_validate_end hr h4 hi hp href, fun hp href => runs_abort_end hr h4 hi hp href,
      fun hp href => runs_abort_refused hr h4 hi hp href, ?_⟩
    intro c more m k hp href hc hmore halloc hcuts hcode hcanon hm hcan hk hl
    exact runs_resume_end hr h4 hi hp href hc hmore halloc hcuts hcode hcanon hm hcan hk hl
  · intro n r s hr h4
    refine ⟨fun code hc h => exec_stnRunEnd_early hr hc h, fun hd => ?_, ?_, ?_⟩
    · obtain ⟨u, hu, h⟩ := runs_stnRunEnd_ends hr h4 hd
      exact ⟨u, hu, h.stn⟩
    · intro tg rd code htg hrun hrd hc h
      obtain ⟨u, hu, he⟩ := runs_stnRunEnd_refused hr h4 hc h
      obtain ⟨h1, h2⟩ := he.wakes tg htg rd hrun hrd
      exact ⟨u, hu, h1, by rw [h2]; simp⟩
    · intro ts ch m k href hop hin2 hts hch hbad hm hvc hk hl hcan hi e h0 hc hcuts
      obtain ⟨u, hu, gen, hd⟩ := runs_translated hr h4 href hop hin2 hts hch hbad hm hvc hk hl hcan rfl h0 hc hcuts
      refine ⟨u, hu, ?_, hd.msg, ?_⟩
      · obtain ⟨b, hb, ht, hm⟩ := hd.record hi
        exact ⟨b, hb, ht, by rw [hm, Lane.tmem_stnWrite_congr (s.frees_stnCounted n).tmem]; rfl⟩
      · intro tg htg rd hrun hrd
        have hf := s.frees_stnCounted n
        refine hd.wakes tg (by rw [hf.keeps.tags]; exact htg) rd ?_ hrd
        rw [← hrun]
        exact congrArg Thread.run (Lane.thr_of_threads hf.keeps.threads _)

end Sys2Proof.Machine
end
